-- ==== Sys2Proof/Word.lean ====
section
/-! DEFINITION. Word types of the SN64M (R6, R135) and the sparse tables the state is made of. -/

namespace Sys2Proof

/-- A 32-bit register (R25). -/
abbrev Word := BitVec 32

/-- A row of 128 bytes: the unit of every store, slice and packet access (R136, R207). -/
abbrev Row := BitVec 1024

/-- One SEL or trace entry: a row, or a void entry without data (R74). -/
abbrev Entry := Option Row

/-- A sparse table: pairs of a key and a value, keys rising, in one canonical form (see `Tbl.wf`). -/
abbrev Tbl (α : Type) := List (Nat × α)

namespace Tbl

variable {α : Type}

/-- The value held for a key, if one is listed. -/
def find? (t : Tbl α) (k : Nat) : Option α :=
  match t with
  | [] => none
  | (j, v) :: r => if j = k then some v else find? r k

/-- The value of a key; an unlisted key reads as `d`. -/
def get (d : α) (t : Tbl α) (k : Nat) : α := (find? t k).getD d

/-- The table without a key. -/
def erase (t : Tbl α) (k : Nat) : Tbl α := t.filter (fun p => p.1 ≠ k)

/-- Put a pair before the first greater key. -/
def insertSorted (t : Tbl α) (k : Nat) (v : α) : Tbl α :=
  match t with
  | [] => [(k, v)]
  | (j, w) :: r => if k < j then (k, v) :: (j, w) :: r else (j, w) :: insertSorted r k v

/-- Write a value; writing the default `d` removes the key, so equal tables are equal data. -/
def set [DecidableEq α] (d : α) (t : Tbl α) (k : Nat) (v : α) : Tbl α :=
  if v = d then erase t k else insertSorted (erase t k) k v

/-- Write a value that has no default (a table of optional entries). -/
def put (t : Tbl α) (k : Nat) (v : α) : Tbl α := insertSorted (erase t k) k v

/-- Keys strictly rising. -/
def rising : Tbl α → Bool
  | [] => true
  | [_] => true
  | (a, _) :: (b, w) :: r => decide (a < b) && rising ((b, w) :: r)

/-- The canonical form: keys strictly rising, no entry equal to its key's default. -/
def wf [DecidableEq α] (d : Nat → α) (t : Tbl α) : Bool :=
  rising t && t.all (fun p => decide (p.2 ≠ d p.1))

end Tbl

end Sys2Proof
end

