-- ==== Sys2Proof/Syntax.lean ====
section
/-! DEFINITION. The commands of the block: one constructor of `Instr` for each row of the opcode table, with the data
types of their operands. A physical core is named by `gp = 80·region + 10·block + p` (p from 0 to 9), a logical core by
its global number `gl` (R14), a memory controller by `mc = 2·region + channel`, a block by `8·region + block`. -/

namespace Sys2Proof

/-- The agents that reach the register map (R21, R36, R366). -/
inductive Agent where
  | qa | qb | mgmt
  deriving DecidableEq, Repr

/-- The two Quexon ports (R358). -/
inductive QPort where
  | qa | qb
  deriving DecidableEq, Repr

/-- The 512-bit packet header of R238, its payload rows, and what travels beside a packet: the mask set of a multicast
LOAD (R197), the rows that carry an error status with their SYND (R194), whether BUCKLE counts (the BKL flag of ST_MEM),
the STRIDE of a remote LOAD, the ROWS of a multicast LOAD, and the ring pointer and generation reserved for a response to
its own core (log entry 15). -/
structure Packet where
  type : Nat := 0
  vc : Nat := 1
  epoch : Nat := 0
  last : Bool := false
  void : Bool := false
  down : Bool := false
  rows : Nat := 0
  dmod : Nat := 0
  smod : Nat := 0
  dcore : Nat := 0
  score : Nat := 0
  dring : Nat := 0
  doff : Nat := 0
  seq : Nat := 0
  gen : Nat := 0
  job : Nat := 0
  addr : Nat := 0
  buckle : Nat := 0
  tree : Nat := 0
  opid : Nat := 0
  rop : Nat := 0
  rfmt : Nat := 0
  tag : Nat := 0
  pidx : Nat := 0
  taggen : Nat := 0
  brand0 : Word := 0
  brand1 : Word := 0
  value : Word := 0
  voidmask : Word := 0
  payload : List Row := []
  mset : Option (BitVec 64 × BitVec 8 × BitVec 8) := none
  err : List (Nat × BitVec 64) := []
  bkl : Bool := false
  stride : Nat := 1
  loadRows : Nat := 0
  land : Option (Nat × Nat) := none
  deriving DecidableEq, Repr

/-- What a fabric training or retrain attempt found (R217, R218, R230): whether it completed, the good lanes, the
peer's identity and its expected receive SEQ. -/
structure TrainResult where
  done : Bool
  good : BitVec 8
  peerId : Nat
  peerPort : Nat
  peerExp : Nat
  deriving DecidableEq, Repr

/-- What the FEC decoder of a fabric port has counted since the packet before: corrected and uncorrectable codewords, and corrected
symbol errors of each lane (R215, R233). -/
structure FecCount where
  corr : Nat := 0
  unc : Nat := 0
  sym : List Nat := []
  deriving DecidableEq, Repr

/-- What a Quexon training or retrain attempt found (R358, R360). -/
structure QTrainResult where
  done : Bool
  good : BitVec 16
  peerExp : Nat
  deriving DecidableEq, Repr

/-- A unit with SRAM (R337): a core's store banks, a slice, a crossbar's landing buffers, a core's pattern memory. -/
inductive SramUnit where
  | core (gp : Nat)
  | slice (n : Nat)
  | landing (blk : Nat)
  | pmem (gp : Nat)
  deriving DecidableEq, Repr

/-- One failing SRAM row or column found by BIST (R337): the failing unit, its bank, and which line failed. -/
structure SramLine where
  unit : SramUnit
  bank : Nat
  col : Bool
  index : Nat
  deriving DecidableEq, Repr

/-- What a BIST of the stores and cores found (R333, R337). -/
structure BistResult where
  sram : List SramLine := []
  logic : List Nat := []
  xbar : List Nat := []
  deriving DecidableEq, Repr, Inhabited

/-- What the environment and the tests of a bring-up find (R329 to R344). `hang` is the step whose work never ends
(0: none), `again` the outcomes of the retrains that the qualification of a port starts, in order (R341). -/
structure BootEnv where
  hang : Nat := 0
  bist : BistResult := {}
  badChannels : List Nat := []
  failRows : List (Nat × Nat) := []
  failAgain : List (Nat × Nat) := []
  hppr : List (Nat × Nat) := []
  fabric : List (Nat × TrainResult) := []
  laneErr1 : List (Nat × Nat × Nat) := []
  laneErr2 : List (Nat × Nat × Nat) := []
  again : List (Nat × List TrainResult) := []
  quexon : List (QPort × QTrainResult) := []
  dur : List Nat := []
  deriving DecidableEq, Repr, Inhabited

/-- What a reset finds (R348 to R353, R356): the time of its request after the boundary in ns; how long its own work takes, in µs, where the
whole of it is done at once; the cores that never report; whether the level never completes; the channels that fail retraining and the
listed rows that hPPR repairs (R351); and the pages of the units that do not answer its dump. -/
structure RstEnv where
  t : Nat := 0
  us : Nat := 0
  hung : List Nat := []
  stuck : Bool := false
  badChannels : List Nat := []
  hppr : List (Nat × Nat) := []
  silent : List Nat := []
  deriving DecidableEq, Repr, Inhabited

/-- A firmware or assay-set image as an update carries it (R305, R383, R417). `golden` lists cut, segment, golden MISR and test
area. -/
structure Image where
  data : List (BitVec 8)
  signer : Nat
  svn : Nat
  advance : Bool
  sig : BitVec 512
  setId : Nat := 0
  version : Nat := 0
  silicon : BitVec 16 := 0x4201
  golden : List (Nat × Nat × BitVec 64 × Nat) := []
  deriving DecidableEq, Repr

/-- The 160 B layout of debug tokens and security commands (R386). -/
structure SecObject where
  type : Nat
  arg : Nat
  signer : Nat
  agent : Nat
  deviceId : BitVec 64
  ctx : Nat
  ctxInst : Word
  nonce : BitVec 128
  duration : Nat
  key : BitVec 256
  sig : BitVec 512
  clean : Bool
  deriving DecidableEq, Repr

/-- Which half of a 64-bit register pair an access reaches (R25). -/
inductive Half where
  | lo | hi | both
  deriving DecidableEq, Repr

/-- The causes of a port going down (R231, R234, R379). -/
inductive DownCause where
  | retrain | signal | control | lanes | miswire
  deriving DecidableEq, Repr

/-- The main-power fault that R429 names. -/
inductive PowerFault where
  | under | over | rail
  deriving DecidableEq, Repr

/-- The commands: one constructor for each row of the opcode table. `t` is the TCLK time since the boundary in ns,
`cyc` the ACLK body cycle. -/
inductive Instr where
  -- registers, time grid
  | registerWrite (ag : Agent) (addr : Nat) (wide : Bool) (val : BitVec 64)
  | repWindowBoundary (region : Nat) (ctrl : Bool) (t : Nat)
  | strokeBoundary
  | seam (body : Nat)
  | commit (ag : Agent)
  | commitAtWrite (ag : Agent) (half : Half) (val : BitVec 64)
  | strokeCountLoRead (ag : Agent)
  | strokeCountHiRead (ag : Agent)
  | strokeInEdge (t16 : Nat)
  | strokeInLost (t : Nat)
  | girthSourceLost (t : Nat)
  -- sequencer
  | seqReadEntry (gp cyc : Nat)
  | repeatOp (gp cyc : Nat)
  | endOp (gp cyc : Nat)
  | waitOp (gp unit cyc : Nat)
  | opRetire (gp unit cyc : Nat)
  | tileComplete (gp tile cyc : Nat)
  -- feed, anvil
  | feedLoad (gp cyc : Nat)
  | feedDescriptorIssue (gp : Nat)
  | loadAct (gp cyc : Nat)
  | acc (gp cyc : Nat)
  | drain (gp cyc : Nat)
  | loadTile (gp cyc : Nat)
  -- vector engine
  | vecAdd (gp cyc : Nat)
  | vecSub (gp cyc : Nat)
  | vecMul (gp cyc : Nat)
  | vecFma (gp cyc : Nat)
  | vecMax (gp cyc : Nat)
  | vecMin (gp cyc : Nat)
  | vecMov (gp cyc : Nat)
  | cvt (gp cyc : Nat)
  | exp (gp cyc : Nat)
  | log (gp cyc : Nat)
  | rsqrt (gp cyc : Nat)
  | sigmoid (gp cyc : Nat)
  | erf (gp cyc : Nat)
  | norm (gp cyc : Nat)
  | cmp (gp cyc : Nat)
  | rred (gp cyc : Nat)
  | cred (gp cyc : Nat)
  | topk (gp cyc : Nat)
  | sample (gp cyc : Nat)
  | verify (gp cyc : Nat)
  | scan (gp cyc : Nat)
  | smaxd (gp cyc : Nat)
  -- steering, movement, synchronisation
  | switchOp (gp cyc : Nat)
  | mergeOp (gp cyc : Nat)
  | send (gp cyc : Nat)
  | tsend (gp cyc : Nat)
  | arm (gp cyc : Nat)
  | disarm (gp cyc : Nat)
  | st (gp cyc : Nat)
  | stMem (gp cyc : Nat)
  | stRing (gp cyc : Nat)
  | syncAdd (gp cyc : Nat)
  | waitb (gp cyc : Nat)
  | tokenOp (gp cyc : Nat)
  | emitOp (gp cyc : Nat)
  | armb (gp cyc : Nat)
  | outboundPacketDepart (gp cyc : Nat)
  -- packets at their destination (`n`: position in the list of arrived packets)
  | ringWrite (n cyc : Nat)
  | landingBufferDrain (gp cyc : Nat)
  | readReq (n : Nat)
  | readRsp (n cyc : Nat)
  | memWrite (n waited t : Nat)
  | buckleAdd (n t : Nat)
  | buckleRegWrite (ag : Agent) (idx : Nat) (target : Bool) (val : Word)
  | buckleTimeout (idx : Nat)
  -- memory
  | sliceAccess (n waited err t : Nat)
  | mcRequest (mc n served err t : Nat)
  | eccWriteback (mc : Nat)
  | refresh (mc rate bank : Nat)
  | patrolScrub (mc addr err t : Nat)
  | clearingScrub (region page : Nat)
  | hot (mc rank rate : Nat) (above : Bool) (t : Nat)
  | ownerTableWrite (ag : Agent) (region word : Nat) (val : Word)
  -- package network and fabric
  | broadcastGrant (blk held : Nat)
  | packetHop (n : Nat) (err t : Nat)
  | fabricRoute (n t : Nat)
  | linkPacketRx (port : Nat) (pkt : Packet) (trailer : BitVec 256) (fec : FecCount) (through : Bool) (t : Nat)
  | ack (port : Nat) (block : BitVec 256) (t : Nat)
  | nak (port : Nat) (block : BitVec 256) (t : Nat)
  | credit (port : Nat) (block : BitVec 256) (t : Nat)
  | linkAckTimer (port : Nat)
  | creditTimer (port : Nat)
  | replayTimeout (port t : Nat)
  | fabRetrain (port : Nat) (res : TrainResult) (quals : List (Nat × Nat × Nat)) (again : List TrainResult) (t : Nat)
  | peerTraining (port : Nat) (res : TrainResult) (t : Nat)
  | laneLoss (port : Nat) (lanes : BitVec 8) (cut : Bool) (res : TrainResult) (t : Nat)
  | fecRetrainTrigger (port : Nat) (cut : Bool) (res : TrainResult) (t : Nat)
  | controlBlockTimeout (port t : Nat)
  | retrainTimeout (port : Nat) (res : TrainResult) (t : Nat)
  | linkDown (port : Nat) (cause : DownCause) (good : BitVec 8) (t : Nat)
  | fabIdWrite (ag : Agent) (val : Word)
  | torusDimWrite (ag : Agent) (val : Word)
  | tree (n t : Nat)
  | keyWaitResume (n t : Nat)
  | treeNotice (n t : Nat)
  | epCtlArm (ag : Agent) (val : Word)
  | epochFlip (t : Nat)
  | epochRetire (t : Nat)
  | girth (n : Nat)
  | barrierEntryWrite (ag : Agent) (g : Nat) (gen : Bool) (val : Word)
  | timeSync (port : Nat) (block : BitVec 256) (t16 : Nat)
  | timeReq (port : Nat) (block : BitVec 256) (t16 : Nat)
  | timeResp (port : Nat) (block : BitVec 256) (t16 : Nat)
  -- pattern loading, debug window, integrity
  | patLoadGo (ag : Agent) (gl : Nat) (val : Word)
  | patLoadAbort (ag : Agent) (gl : Nat)
  | patLoadRow (gp cyc err t : Nat)
  | dbgSelGo (ag : Agent) (gp : Nat) (val : Word)
  | dispInfoClear (ag : Agent) (gl : Nat)
  | zeroisationComplete (unit : SramUnit) (t : Nat)
  | entropyHealthFail (region t : Nat)
  -- assay and healing
  | assaySegmentStart (gp cyc : Nat) (rows : List Nat) (tile : Option Nat)
  | assaySegmentEnd (gp : Nat) (misr : BitVec 64) (t : Nat)
  | assayOverdue (gp t : Nat)
  | assayTurnYield (region : Nat)
  | asyTgtGo (ag : Agent) (val : Word)
  | targetedAssayDone (t : Nat)
  | heal (gp t : Nat)
  | healCfgTimeout (gp : Nat)
  -- bring-up and power
  | pwrEnAssert (env : BootEnv)
  | bringupStepTimeout (env : BootEnv)
  | shutdown (ag : Agent) (bist : BistResult)
  | warm (ag : Agent) (env : BootEnv)
  | perstAssert (env : BootEnv) (t : Nat)
  | perstRelease (q : List (QPort × QTrainResult))
  | aonThermalSample (temp : Int)
  -- recovery (`n`: which of the resets in progress, oldest first; `us`: the time from the start of its level)
  | contextReset (ag : Agent) (ctx : Nat) (dump : Bool) (env : RstEnv)
  | engineReset (ag : Agent) (gl : Nat) (dump : Bool) (env : RstEnv)
  | partitionReset (ag : Agent) (ctx : Nat) (dump : Bool) (env : RstEnv)
  | chipComputeReset (ag : Agent) (dump : Bool) (env : RstEnv)
  | powerCycle (ag : Agent) (dump : Bool) (env : RstEnv)
  | resetEscalated (n us : Nat) (env : RstEnv)
  | heartbeat (received : Bool)
  | hearthTakeover (t : Nat)
  | aonWatchdog
  | dumpCtlGo (ag : Agent) (val : Word) (silent : List Nat)
  | dumpReadTimeout (addr : Nat)
  | dumpComplete
  | dumpChunkSend
  | dumpResend (ag : Agent) (val : Word)
  -- Quexon
  | quexonFlitRx (p : QPort) (header : BitVec 128) (slots : List (BitVec 128))
  | qReplayTimeout (p : QPort)
  | qRetrain (p : QPort) (res : QTrainResult) (t : Nat)
  | qLinkLoss (p : QPort) (lanes : BitVec 16) (res : QTrainResult) (t : Nat)
  | quexonLinkDown (p : QPort) (cause : Nat) (t : Nat)
  | snpInv (p : QPort) (addr tag : Nat)
  | snpData (p : QPort) (addr tag : Nat)
  | memRd (p : QPort) (addr tag err t : Nat)
  | memWr (p : QPort) (addr tag err t : Nat) (line : Row)
  | memWrPtl (p : QPort) (addr tag err t : Nat) (mask : BitVec 128) (line : Row)
  | mmioRd (p : QPort) (addr size tag : Nat)
  | mmioWr (p : QPort) (addr size tag : Nat) (val : BitVec 64)
  | cmpData (p : QPort) (tag grant status : Nat) (line : Row)
  | hitchClaim (ag : Agent) (n : Nat)
  | hitchRelease (ag : Agent) (n : Nat) (val : Word)
  | partitionEntryWrite (ag : Agent) (region word : Nat) (val : Word)
  | slotCut (cyc : Nat)
  | doneWrite (ctx : Nat)
  | vecMaskWrite (ag : Agent) (p : QPort) (v : Nat) (val : Word)
  -- security and debug
  | presentDebugToken (ag : Agent) (o : SecObject)
  | presentLifecycle (ag : Agent) (o : SecObject)
  | presentOwnerKey (ag : Agent) (o : SecObject)
  | presentRevoke (ag : Agent) (o : SecObject)
  | close (ag : Agent)
  | spdmRequest (mailbox : Option Agent) (msg : List (BitVec 8))
  | getMeasurements (mailbox : Option Agent) (index : Nat)
  | debugSessionExpire
  | halt (ag : Agent) (gp : Nat)
  | runCore (ag : Agent) (gp : Nat)
  | stepCore (ag : Agent) (gp : Nat)
  | jtagBypass (trst tdi : Bool)
  | jtagIdcode (trst : Bool)
  | jtagSamplePreload (trst tdi : Bool)
  | jtagExtest (scan : Bool) (trst tdi : Bool)
  -- power, clocks
  | pwrCtlRun (ag : Agent) (target : Nat)
  | pwrCtlI1 (ag : Agent) (target : Nat)
  | pwrCtlI2 (ag : Agent) (target : Nat)
  | i2ExitDone
  | powerSample (watts mv i10ma : Nat) (tj16 : Int)
  | thermalThrottle (tj16 : Int) (region t : Nat)
  | thermalTrip (tj16 : Int) (region t : Nat)
  | powerBrakeAssert (tToBoundary : Nat) (cyc t : Nat)
  | powerBrakeRelease (t : Nat)
  | refclkLost (gap edges t : Nat)
  | refPpmWindow (ppm : Int) (t : Nat)
  | clkObsSelWrite (ag : Agent) (val : Word)
  -- management
  | setdasa (static addr : Nat)
  | entdaa (addr : Nat)
  | setEndpointId (eid : Nat)
  | getEndpointId
  | getMctpVersionSupport
  | getMessageTypeSupport
  | getPdr (handle : Nat)
  | sensorRead (id : Nat)
  | requestUpdate
  | passComponentTable (comps : List Nat)
  | updateComponent (comp : Nat)
  | requestFirmwareData (last : Bool) (img : Image) (env : BootEnv)
  | activateFirmware
  | eventRecord (n : Nat)
  | eventDatagramSend (aged : Bool)
  | idleDatagram
  | arpRequest (ip : Word)
  | alertRelease (ag : Agent)
  | pwrEnDeassert
  | mainPowerFault (f : PowerFault)
  | auxValid (slot : BitVec 6)
  | auxLoss
  | mainPowerApplied (env : BootEnv)
  | quexonCmp (p : QPort) (tag status : Nat)
  | mgmtLinkUp (negotiated : Bool)
  | mgmtLinkDown
  | crystalStops
  | chatter
  | pldmBaseRequest (cmd : Nat)
  deriving DecidableEq, Repr

end Sys2Proof
end

