-- ==== Sys2Proof/Decode.lean ====
section
/-! DEFINITION. Words of the opcode table. The block's commands are register accesses, bus messages and events; the table gives
no row any bits, so no word spells a command. The pattern entries that a core reads from its memory are decoded in
`Machine/Operands.lean` (R97, R99). -/

namespace Sys2Proof

/-- The command that a word spells by the table's bits: the table gives none. -/
def decodeTableWord (_nbits _w : Nat) : Option Instr := none

end Sys2Proof
end

