-- ==== Sys2Proof/Machine/Crc.lean ====
section
/-! DEFINITION. Cyclic redundancy checks (R221, R359, R422) and the byte order of rows (R6). -/

namespace Sys2Proof.Machine

/-- Bytes of a number, least significant first (R6). -/
def bytesLE : Nat → Nat → List Nat
  | 0, _ => []
  | n + 1, x => x % 256 :: bytesLE n (x / 256)

/-- The number whose little-endian bytes are given. -/
def ofBytesLE : List Nat → Nat
  | [] => 0
  | b :: r => b % 256 + 256 * ofBytesLE r

/-- One bit of a reflected CRC. -/
def crcBit (poly c : Nat) : Nat := if c % 2 = 1 then Nat.xor (c / 2) poly else c / 2

/-- One byte of a reflected CRC. -/
def crcByte (poly c b : Nat) : Nat :=
  let x := Nat.xor c (b % 256)
  crcBit poly (crcBit poly (crcBit poly (crcBit poly (crcBit poly (crcBit poly (crcBit poly (crcBit poly x)))))))

/-- CRC-32C: polynomial 0x1EDC_6F41 bit-reflected, initial value and final XOR 0xFFFF_FFFF (R221, R284). -/
def crc32c (bytes : List Nat) : Nat :=
  Nat.xor (bytes.foldl (crcByte 0x82F63B78) 0xFFFFFFFF) 0xFFFFFFFF

/-- The 128 bytes of a row in address order. -/
def rowBytes (r : Row) : List Nat := bytesLE 128 r.toNat

/-- The brand of rows: CRC-32C over their bytes in address order (R284). -/
def brandOf (rows : List Row) : Word := BitVec.ofNat 32 (crc32c (rows.flatMap rowBytes))

/-- One bit of a CRC that shifts left, `w` bits wide. -/
def crcBitL (w poly c : Nat) : Nat :=
  if c / 2 ^ (w - 1) % 2 = 1 then Nat.xor (c * 2 % 2 ^ w) poly else c * 2 % 2 ^ w

/-- Eight bits of a CRC that shifts left. -/
def crcByteL (w poly c b : Nat) : Nat :=
  let x := Nat.xor c (b % 256 * 2 ^ (w - 8))
  (List.range 8).foldl (fun c _ => crcBitL w poly c) x

/-- A CRC that shifts left over bytes, with initial value and final XOR. -/
def crcL (w poly init fin : Nat) (bytes : List Nat) : Nat :=
  Nat.xor (bytes.foldl (crcByteL w poly) init) fin

end Sys2Proof.Machine
end

