-- ==== Sys2Proof/Config.lean ====
section
/-! DEFINITION. What an implementation fixes: the fused limits of a variant (R3), and the values the spec leaves open.
An `opaque` constant has no body here: a statement about it holds for every value it may take. -/

namespace Sys2Proof.Config

/-- The part the model describes: 0 for HVR-SN64M-A, 1 for -L, 2 for -I (R3). -/
def powerLimit (variant : Nat) : Nat := if variant = 0 then 1800 else if variant = 1 then 3000 else 3400

/-- Fused maximum ACLK in MHz (R3). -/
def maxAclk (variant : Nat) : Nat := if variant = 0 then 950 else 1250

/-- Floor under the power brake in W (R3). -/
def brakeFloor (variant : Nat) : Nat := if variant = 0 then 540 else if variant = 1 then 900 else 1020

/-- Free value number `n`: a value the spec calls undefined, or does not state (log entry 4). UNVERIFIED. -/
opaque freeWord : Nat → Word

/-- Free AX46 value number `n`, element `e` (R55, log entry 4). -/
opaque freeAx : Nat → Nat → BitVec 46

/-- Free row number `n` (R396, R395 D3; log entry 4). -/
opaque freeRow : Nat → Row

/-- Entropy key word `n` delivered by a region's entropy source (R176, log entry 4). -/
opaque entropyKey : Nat → BitVec 64

/-- Nonce number `n` of the security unit (R387, log entry 4). -/
opaque nonce : Nat → BitVec 128

/-- The choice the spec leaves for an error of three or more bits: 0 reported uncorrectable, 1 corrected to a wrong
word, else passes as no error (R437, log entry 6). -/
opaque multiBit : Nat → Nat

/-- The raw check syndrome of an error of three or more bits whose columns cancel (R437, log entry 6). -/
opaque syndrome8 : Nat → BitVec 8

/-- The same for a DRAM burst error (R192, R437, log entry 6). -/
opaque syndrome16 : Nat → BitVec 16

/-- Column of the check-bit matrix for bit `n` of a 72-bit word, which is not published (R437, log entry 6). -/
opaque column8 : Nat → BitVec 8

/-- Column of the check-bit matrix for bit `n` of a DRAM burst and its check bits (R192, R437, log entry 6). -/
opaque column16 : Nat → BitVec 16

/-- Which value inside its stated bound a transcendental unit gives (R163): operation, operand. -/
opaque ulpChoice : Nat → Word → Nat

/-- Which value inside its stated bound NORM gives (R164): rounded sum, element, gain. -/
opaque normChoice : Word → Word → Word → Nat

/-- The order in which the fixed pairwise tree of a VEC operation takes `n` values (R164, R168, log entry 14): operation, n. -/
opaque treeOrder : Nat → Nat → List Nat

/-- Whether VEC_STAT takes a bit from the inner steps of a composite operation (log entry 55): operation, bit. -/
opaque stepFlag : Nat → Nat → Bool

/-- Which value near the exact Gumbel value of a 24-bit draw the sampler uses (R170 states no precision; log entry 8). -/
opaque gumbel : BitVec 24 → Word

/-- Which value near the exact softmax of candidate `i` the sampler uses, and the value itself where a candidate is infinite (R170
states no precision; log entry 8). -/
opaque softmaxPi : List Word → Nat → Word

/-- Ed25519 signature check of RFC 8032 (R383): public key, message, signature. The spec names the algorithm and gives
no text of it (log entry 9). -/
opaque ed25519Verify : BitVec 256 → List (BitVec 8) → BitVec 512 → Bool

/-- Ed25519 signing with the module's attestation key (R389, log entry 9). -/
opaque ed25519Sign : BitVec 256 → List (BitVec 8) → BitVec 512

/-- SHA-512 (R382, R390), named and not given by the spec (log entry 9). -/
opaque sha512 : List (BitVec 8) → BitVec 512

/-- The public key of an Ed25519 private key (R382, log entry 9). -/
opaque publicKey : BitVec 256 → BitVec 256

/-- HMAC/KDF steps that derive the identity key and the alias key from the device secret (R382, R389, log entry 9). -/
opaque deriveKey : BitVec 256 → List (BitVec 8) → BitVec 256

/-- Answer number `n` to an SPDM request, in the layout of DSP0274: the values that it may carry, the certificate chain of slot 0, and the
request (R389, log entry 10). -/
opaque spdmAnswer : Nat → List Nat → List (BitVec 8) → List (BitVec 8) → List (BitVec 8)

/-- The answer that carries measurement contents and their signature, in the layout of DSP0274 (R390, log entry 10). -/
opaque measurementAnswer : Nat → List (BitVec 8) → BitVec 512 → List (BitVec 8)

/-- Bytes of an MCTP or PLDM answer in the layout of DSP0236, DSP0248 or DSP0267: exchange, the values it carries (R415 to R417,
log entry 10). -/
opaque pldmAnswer : Nat → List Nat → List (BitVec 8)

/-- Bytes of the fuse map: variant and fused bad cores (R390, log entry 10). -/
opaque fuseMapBytes : Nat → List Nat → List (BitVec 8)

/-- What the environment and the tests of a bring-up find that a plain write of BOOT_CTL.WARM starts (log entry 34). -/
opaque bootEnv : Nat → BootEnv

/-- What a reset finds that a plain write of RST_REQ asks for (log entry 34). -/
opaque rstEnv : Nat → RstEnv

/-- What the BIST of a shutdown finds that a plain write of BOOT_CTL.SHUTDOWN starts (log entry 34). -/
opaque shutBist : Nat → BistResult

/-- IEEE 1149.1 device identification code, which the spec does not state (R397, log entry 4). -/
opaque idcode : Word

end Sys2Proof.Config
end

