-- ==== Sys2Proof/Machine/NumFmt.lean ====
section
/-! DEFINITION. Number formats as exact values (R110 to R112, R122): decoding, and the one rounding function of the
model. Every finite value is `±man · 2^exp`, so products and sums are exact until they are rounded. -/

namespace Sys2Proof.Machine

/-- The exact meaning of an encoding. -/
inductive FVal where
  | nan
  | inf (neg : Bool)
  | fin (neg : Bool) (man : Nat) (exp : Int)
  deriving DecidableEq, Repr

/-- How the top exponent field is used (R110). -/
inductive Special where
  | none | nanOnly | ieee
  deriving DecidableEq, Repr

/-- A sign-exponent-fraction format (R110, R122). -/
structure Fmt where
  ew : Nat
  mw : Nat
  bias : Int
  special : Special
  deriving DecidableEq, Repr

def fmtE4M3 : Fmt := ⟨4, 3, 7, .nanOnly⟩
def fmtE5M2 : Fmt := ⟨5, 2, 15, .ieee⟩
def fmtE3M2 : Fmt := ⟨3, 2, 3, .none⟩
def fmtE2M3 : Fmt := ⟨2, 3, 1, .none⟩
def fmtE2M1 : Fmt := ⟨2, 1, 1, .none⟩
def fmtBF16 : Fmt := ⟨8, 7, 127, .ieee⟩
def fmtFP16 : Fmt := ⟨5, 10, 15, .ieee⟩
def fmtFP32 : Fmt := ⟨8, 23, 127, .ieee⟩
def fmtAX46 : Fmt := ⟨9, 36, 255, .ieee⟩

/-- Element width in bits of a format code (R110). -/
def codeWidth (c : Nat) : Nat :=
  match c with
  | 0x0 => 8 | 0x1 => 8 | 0x2 => 6 | 0x3 => 6 | 0x4 => 4 | 0x5 => 8 | 0x6 => 8 | 0x7 => 8 | 0x8 => 4
  | 0x9 => 16 | 0xA => 16 | 0xB => 32 | 0xC => 48 | _ => 8

/-- The sign-exponent-fraction format of a code; INT8 (0x5) has none and is treated on its own. -/
def codeFmt (c : Nat) : Fmt :=
  match c with
  | 0x0 => fmtE4M3 | 0x6 => fmtE4M3 | 0x1 => fmtE5M2 | 0x7 => fmtE5M2 | 0x2 => fmtE3M2 | 0x3 => fmtE2M3
  | 0x4 => fmtE2M1 | 0x8 => fmtE2M1 | 0x9 => fmtBF16 | 0xA => fmtFP16 | 0xB => fmtFP32 | _ => fmtAX46

/-- The MX format codes 0x0 to 0x5 (R102). -/
def isMX (c : Nat) : Bool := decide (c ≤ 5)

/-- The per-tensor-scaled formats 0x6 to 0x8 (R102). -/
def isPlain (c : Nat) : Bool := decide (6 ≤ c) && decide (c ≤ 8)

/-- Smallest exponent of a representable multiple: the weight of the last subnormal bit. -/
def Fmt.qmin (f : Fmt) : Int := 1 - f.bias - f.mw

/-- Decode an encoding of a format (R110, R122). -/
def Fmt.decode (f : Fmt) (x : Nat) : FVal :=
  let s := decide (x / 2 ^ (f.ew + f.mw) % 2 = 1)
  let e := x / 2 ^ f.mw % 2 ^ f.ew
  let m := x % 2 ^ f.mw
  let top := 2 ^ f.ew - 1
  if e = top ∧ f.special = .ieee then (if m = 0 then .inf s else .nan)
  else if e = top ∧ f.special = .nanOnly ∧ m = 2 ^ f.mw - 1 then .nan
  else if e = 0 then .fin s m f.qmin
  else .fin s (2 ^ f.mw + m) ((e : Int) - f.bias - f.mw)

/-- An INT8 element: two's complement n, value n × 2^-6 (R110). -/
def decodeInt8 (x : Nat) : FVal :=
  let n : Int := if x % 256 < 128 then (x % 256 : Nat) else (x % 256 : Int) - 256
  .fin (decide (n < 0)) n.natAbs (-6)

/-- Decode an element of a format code (R110). -/
def decodeElem (code x : Nat) : FVal := if code = 5 then decodeInt8 x else (codeFmt code).decode x

/-- An E8M0 scale byte: its exponent, or none for NaN (R111). -/
def decodeScale (v : Nat) : Option Int := if v % 256 = 255 then none else some ((v % 256 : Int) - 127)

/-- How a magnitude between two neighbours is rounded (R131, R160): to nearest even, or by a 16-bit draw. -/
inductive RMode where
  | rne
  | sr (draw : Nat)
  deriving DecidableEq, Repr

/-- A rounded magnitude `k · 2^q` and whether it equals the value. -/
structure Rounded where
  k : Nat
  q : Int
  exact : Bool
  deriving DecidableEq, Repr

/-- Round `man · 2^exp` to `mw + 1` significant bits with weights of at least 2^qmin, the exponent unbounded above. -/
def roundMag (man : Nat) (exp : Int) (mw : Nat) (qmin : Int) (mode : RMode) : Rounded :=
  if man = 0 then ⟨0, qmin, true⟩
  else
    let q := max ((Nat.log2 man : Int) + exp - mw) qmin
    if q ≤ exp then ⟨man * 2 ^ (exp - q).toNat, q, true⟩
    else
      let sh := (q - exp).toNat
      let lo := man / 2 ^ sh
      let rem := man % 2 ^ sh
      let up :=
        match mode with
        | .rne => decide (2 * rem > 2 ^ sh) || (decide (2 * rem = 2 ^ sh) && decide (lo % 2 = 1))
        | .sr r => decide (r < rem * 2 ^ 16 / 2 ^ sh)
      ⟨if up then lo + 1 else lo, q, decide (rem = 0)⟩

/-- `a·2^p < b·2^q` for magnitudes. -/
def magLt (a : Nat) (p : Int) (b : Nat) (q : Int) : Bool :=
  let m := min p q
  decide (a * 2 ^ (p - m).toNat < b * 2 ^ (q - m).toNat)

/-- Largest finite magnitude of a format (R110). -/
def Fmt.maxFin (f : Fmt) : Nat × Int :=
  let top := 2 ^ f.ew - 1
  match f.special with
  | .none => (2 ^ (f.mw + 1) - 1, (top : Int) - f.bias - f.mw)
  | .nanOnly => (2 ^ (f.mw + 1) - 2, (top : Int) - f.bias - f.mw)
  | .ieee => (2 ^ (f.mw + 1) - 1, (top : Int) - 1 - f.bias - f.mw)

/-- The encoding of a representable magnitude with a sign. -/
def Fmt.encode (f : Fmt) (neg : Bool) (k : Nat) (q : Int) : Nat :=
  let k' := if k = 2 ^ (f.mw + 1) then 2 ^ f.mw else k
  let q' := if k = 2 ^ (f.mw + 1) then q + 1 else q
  let sign := if neg then 2 ^ (f.ew + f.mw) else 0
  if k' < 2 ^ f.mw then sign + k'
  else sign + (q' + f.mw + f.bias).toNat * 2 ^ f.mw + (k' - 2 ^ f.mw)

/-- Encoding of the largest finite value. -/
def Fmt.encMax (f : Fmt) (neg : Bool) : Nat := f.encode neg f.maxFin.1 f.maxFin.2

/-- Encoding of infinity in an IEEE format. -/
def Fmt.encInf (f : Fmt) (neg : Bool) : Nat :=
  (if neg then 2 ^ (f.ew + f.mw) else 0) + (2 ^ f.ew - 1) * 2 ^ f.mw

/-- Encoding of the canonical NaN in an IEEE format: S = 0, top fraction bit set (R122, R132). -/
def Fmt.encNaN (f : Fmt) : Nat := (2 ^ f.ew - 1) * 2 ^ f.mw + 2 ^ (f.mw - 1)

/-- What happened when a finite value was rounded into a format. -/
structure RoundOut where
  ovfl : Bool
  under : Bool
  bits : Nat
  deriving DecidableEq, Repr

/-- Round a finite value into a format; `ovfl` when the rounded magnitude is beyond the largest finite value, `under`
when a nonzero value rounded to zero (R123, R131, R160). The sign is kept on a zero. -/
def Fmt.round (f : Fmt) (mode : RMode) (neg : Bool) (man : Nat) (exp : Int) : RoundOut :=
  let r := roundMag man exp f.mw f.qmin mode
  let ovfl := magLt f.maxFin.1 f.maxFin.2 r.k r.q
  ⟨ovfl, decide (man ≠ 0) && decide (r.k = 0), if ovfl then f.encMax neg else f.encode neg r.k r.q⟩

/-- Signed integer multiple of a common weight. -/
def signed (neg : Bool) (man : Nat) : Int := if neg then -(man : Int) else man

/-- Exact sum of two finite values (zero signs are settled by the caller). -/
def addFin (n1 : Bool) (m1 : Nat) (e1 : Int) (n2 : Bool) (m2 : Nat) (e2 : Int) : Int × Int :=
  let e := min e1 e2
  (signed n1 (m1 * 2 ^ (e1 - e).toNat) + signed n2 (m2 * 2 ^ (e2 - e).toNat), e)

/-- IEEE 754 sum of exact values: the sign of an exact zero is + unless both are negative zeros. -/
def FVal.add (a b : FVal) : FVal :=
  match a, b with
  | .nan, _ => .nan
  | _, .nan => .nan
  | .inf s, .inf t => if s = t then .inf s else .nan
  | .inf s, _ => .inf s
  | _, .inf t => .inf t
  | .fin n1 m1 e1, .fin n2 m2 e2 =>
    let r := addFin n1 m1 e1 n2 m2 e2
    if r.1 = 0 then .fin (n1 && n2 && decide (m1 = 0) && decide (m2 = 0)) 0 r.2
    else .fin (decide (r.1 < 0)) r.1.natAbs r.2

/-- IEEE 754 product of exact values. -/
def FVal.mul (a b : FVal) : FVal :=
  match a, b with
  | .nan, _ => .nan
  | _, .nan => .nan
  | .inf s, .inf t => .inf (s != t)
  | .inf s, .fin t m _ => if m = 0 then .nan else .inf (s != t)
  | .fin s m _, .inf t => if m = 0 then .nan else .inf (s != t)
  | .fin s m e, .fin t n f => .fin (s != t) (m * n) (e + f)

/-- The value with its sign turned over. -/
def FVal.neg (a : FVal) : FVal :=
  match a with
  | .nan => .nan
  | .inf s => .inf (!s)
  | .fin s m e => .fin (!s) m e

/-- The value without its sign. -/
def FVal.abs (a : FVal) : FVal :=
  match a with
  | .nan => .nan
  | .inf _ => .inf false
  | .fin _ m e => .fin false m e

/-- Strict order of values that are not NaN; zeros are equal. -/
def FVal.lt (a b : FVal) : Bool :=
  match a, b with
  | .nan, _ => false
  | _, .nan => false
  | .inf s, .inf t => s && !t
  | .inf s, .fin _ _ _ => s
  | .fin _ _ _, .inf t => !t
  | .fin n1 m1 e1, .fin n2 m2 e2 => decide ((addFin n1 m1 e1 (!n2) m2 e2).1 < 0)

/-- Numeric equality of values that are not NaN; the two zeros are equal. -/
def FVal.eq (a b : FVal) : Bool :=
  match a, b with
  | .nan, _ => false
  | _, .nan => false
  | _, _ => !a.lt b && !b.lt a

def FVal.isNaN (a : FVal) : Bool := match a with | .nan => true | _ => false
def FVal.isInf (a : FVal) : Bool := match a with | .inf _ => true | _ => false
def FVal.isFin (a : FVal) : Bool := match a with | .fin _ _ _ => true | _ => false
def FVal.isNeg (a : FVal) : Bool := match a with | .nan => false | .inf s => s | .fin s _ _ => s
def FVal.isZero (a : FVal) : Bool := match a with | .fin _ m _ => decide (m = 0) | _ => false

/-- Flags of a vector result (R163): NaN produced, overflow, nonzero rounded to zero. -/
structure VFlags where
  nan : Bool := false
  ovf : Bool := false
  under : Bool := false
  domain : Bool := false
  sat : Bool := false
  short : Bool := false
  allVoid : Bool := false
  deriving DecidableEq, Repr

/-- Flags of two steps together. -/
def VFlags.or (a b : VFlags) : VFlags :=
  ⟨a.nan || b.nan, a.ovf || b.ovf, a.under || b.under, a.domain || b.domain, a.sat || b.sat, a.short || b.short,
   a.allVoid || b.allVoid⟩

/-- Round an exact value to an IEEE format of the vector engine: overflow becomes infinity (R160). With stochastic
rounding, overflow is decided on the value before rounding. -/
def Fmt.vround (f : Fmt) (mode : RMode) (v : FVal) : Nat × VFlags :=
  match v with
  | .nan => (f.encNaN, { nan := true })
  | .inf s => (f.encInf s, {})
  | .fin s m e =>
    let r := f.round mode s m e
    let ovfl :=
      match mode with
      | .rne => r.ovfl
      | .sr _ => magLt f.maxFin.1 f.maxFin.2 m e
    if ovfl then (f.encInf s, { ovf := true })
    else (r.bits, { under := r.under })

/-- Decode an FP32 word. -/
def f32 (x : Word) : FVal := fmtFP32.decode x.toNat

/-- Round to FP32, to nearest even (R160). -/
def toF32 (v : FVal) : Word × VFlags :=
  let r := fmtFP32.vround .rne v
  (BitVec.ofNat 32 r.1, r.2)

/-- IEEE 754 maximum or minimum: NaN when either input is NaN (R160); −0 is below +0 (log entry 11). -/
def FVal.maxOf (a b : FVal) : FVal :=
  if a.isNaN || b.isNaN then .nan
  else if a.lt b then b else if b.lt a then a else if a.isNeg then b else a

def FVal.minOf (a b : FVal) : FVal :=
  if a.isNaN || b.isNaN then .nan
  else if a.lt b then a else if b.lt a then b else if a.isNeg then a else b

/-! Results inside a stated bound (R163, R164). The exact value is enclosed by fixed-point arithmetic with more than a
hundred guard bits; which of the representable values inside the bound the unit gives is a free choice. -/

/-- Fixed-point fraction bits of the enclosures. -/
def fxP : Nat := 160

/-- ⌊ln 2 · 2^160⌋. -/
def ln2Fx : Nat := 1013035739299659071135698605846798551586536899366

/-- ⌊2/√π · 2^300⌋. -/
def twoOverSqrtPiFx : Nat :=
  2298548958319901672615460685175353800383491471103661605170551642714553776506332151740828452


/-- Terms of e^r: `r` the argument, `k` the next index, `term` the current term. -/
def expSum : Nat → Nat → Nat → Nat → Nat → Nat
  | 0, _, _, _, acc => acc
  | n + 1, r, k, term, acc =>
    let t := term * r / 2 ^ fxP / k
    expSum n r (k + 1) t (acc + t)

/-- e^x for x = xfx/2^160 as `man · 2^exp` (|x| at most 2^9). -/
def expFx (x : Int) : Nat × Int :=
  let n := x / (ln2Fx : Int)
  let r := (x - n * (ln2Fx : Int)).toNat
  (expSum 48 r 1 (2 ^ fxP) (2 ^ fxP), n - fxP)

/-- A finite value in fixed point, rounded down. -/
def toFx (neg : Bool) (man : Nat) (exp : Int) : Int :=
  let s := signed neg man
  let sh := exp + fxP
  if 0 ≤ sh then s * 2 ^ sh.toNat else s / (2 ^ (-sh).toNat : Int)

/-- Odd powers of z for the inverse hyperbolic tangent. -/
def atanhSum : Nat → Nat → Nat → Nat → Nat → Nat
  | 0, _, _, _, acc => acc
  | n + 1, z2, k, p, acc => atanhSum n z2 (k + 2) (p * z2 / 2 ^ fxP) (acc + p / k)

/-- ln of a positive magnitude in fixed point. -/
def lnFx (man : Nat) (exp : Int) : Int :=
  let l := Nat.log2 man
  let z := (man - 2 ^ l) * 2 ^ fxP / (man + 2 ^ l)
  2 * (atanhSum 56 (z * z / 2 ^ fxP) 1 z 0 : Nat) + ((l : Int) + exp) * ln2Fx

/-- Integer square root, bit by bit from bit `n − 1`. -/
def isqrtBits : Nat → Nat → Nat → Nat
  | 0, _, r => r
  | n + 1, x, r => if (r + 2 ^ n) * (r + 2 ^ n) ≤ x then isqrtBits n x (r + 2 ^ n) else isqrtBits n x r

/-- ⌊√x⌋. -/
def isqrt (x : Nat) : Nat := isqrtBits (Nat.log2 x / 2 + 1) x 0

/-- 1/√(man·2^exp) as `man' · 2^exp'` with 160 bits. -/
def rsqrtFx (man : Nat) (exp : Int) : Nat × Int :=
  let odd := exp % 2 ≠ 0
  let m := if odd then 2 * man else man
  let e := if odd then exp - 1 else exp
  (isqrt (2 ^ (2 * (fxP + Nat.log2 m)) / m), -(e / 2) - fxP - Nat.log2 m)

/-- Alternating series of erf(x)/x without its constant, 300 fraction bits: `x2` is x². -/
def erfSum : Nat → Nat → Nat → Nat → Int → Int
  | 0, _, _, _, acc => acc
  | n + 1, x2, k, term, acc =>
    let t : Int := (term / (2 * k + 1) : Nat)
    let acc' := if k % 2 = 0 then acc + t else acc - t
    erfSum n x2 (k + 1) (term * x2 / 2 ^ 300 / (k + 1)) acc'

/-- The FP32 values within `b` units in the last place of ±man·2^exp, one of which `choice` names: rounded down to the
grid, then moved by 1 − b to b. The result is a signed multiple of 2^q. -/
def withinUlp (b choice : Nat) (neg : Bool) (man : Nat) (exp : Int) : FVal :=
  let q := max ((Nat.log2 man : Int) + exp - 23) (-149)
  let s := signed neg man
  let k : Int := if exp ≤ q then s / (2 ^ (q - exp).toNat : Int) else s * 2 ^ (exp - q).toNat
  let c : Int := k + 1 - b + (choice % (2 * b) : Nat)
  .fin (decide (c < 0)) c.natAbs q

/-- EXP of a finite FP32 value (R163). -/
def expVal (x : Word) : FVal :=
  match f32 x with
  | .nan => .nan
  | .inf s => if s then .fin false 0 0 else .inf false
  | .fin s m e =>
    let big := magLt 512 0 m e
    let v := if big then (if s then (1, (-400 : Int)) else (1, (400 : Int))) else expFx (toFx s m e)
    (withinUlp 2 (Config.ulpChoice 0x09 x) false v.1 v.2).maxOf (.fin false 0 0)

/-- LOG of an FP32 value; the flag is DOMAIN (R163). -/
def logVal (x : Word) : FVal × Bool :=
  match f32 x with
  | .nan => (.nan, false)
  | .inf s => if s then (.nan, true) else (.inf false, false)
  | .fin s m e =>
    if m = 0 then (.inf true, false)
    else if s then (.nan, true)
    else
      let y := lnFx m e
      (withinUlp 2 (Config.ulpChoice 0x0A x) (decide (y < 0)) y.natAbs (-(fxP : Int)), false)

/-- RSQRT of an FP32 value; the flag is DOMAIN (R163). -/
def rsqrtVal (x : Word) : FVal × Bool :=
  match f32 x with
  | .nan => (.nan, false)
  | .inf s => if s then (.nan, true) else (.fin false 0 0, false)
  | .fin s m e =>
    if m = 0 then (.inf s, false)
    else if s then (.nan, true)
    else
      let y := rsqrtFx m e
      (withinUlp 1 (Config.ulpChoice 0x0B x) false y.1 y.2, false)

/-- SIGMOID of an FP32 value (R163). -/
def sigmoidVal (x : Word) : FVal :=
  match f32 x with
  | .nan => .nan
  | .inf s => if s then .fin false 0 0 else .fin false 1 0
  | .fin s m e =>
    let big := magLt 512 0 m e
    let ex := if big then (1, (-400 : Int)) else expFx (-(toFx false m e))
    let sh := (-(ex.2)).toNat
    let one := 2 ^ sh
    let v := if s then (ex.1 * 2 ^ 300 / (one + ex.1), (-300 : Int) + 0) else (one * 2 ^ 300 / (one + ex.1), (-300 : Int))
    (withinUlp 3 (Config.ulpChoice 0x0C x) false v.1 v.2).maxOf (.fin false 0 0)

/-- ERF of an FP32 value (R163). -/
def erfVal (x : Word) : FVal :=
  match f32 x with
  | .nan => .nan
  | .inf s => .fin s 1 0
  | .fin s m e =>
    let v : Nat × Int :=
      if magLt 6 0 m e then (2 ^ 200 - 1, -200)
      else
        let x2 := if 0 ≤ 2 * e + 300 then m * m * 2 ^ (2 * e + 300).toNat else m * m / 2 ^ (-(2 * e + 300)).toNat
        let t := (erfSum 220 x2 0 (2 ^ 300) 0).toNat
        (m * (t * twoOverSqrtPiFx / 2 ^ 300), e - 300)
    withinUlp 3 (Config.ulpChoice 0x0D x) s v.1 v.2

end Sys2Proof.Machine
end

