-- ==== Sys2Proof/Machine/RegMap.lean ====
section
/-! DEFINITION. The register map (R7, R21 to R28): for each kind of page its registers with offset, stride, count,
reset value and the bits of access RW, RWS and RW1C. Bits in none of the three are RO, WO, RC or reserved. Generated from
the register tables of spec/. -/

namespace Sys2Proof.Machine

/-- One register or register array of a page. -/
structure RegRow where
  off : Nat
  stride : Nat
  count : Nat
  reset : Word
  rw : Word
  rws : Word
  w1c : Word
  deriving DecidableEq, Repr

/-- Registers of every page (R26). -/
def hdrRows : List RegRow :=
    [ ⟨0x010, 4, 1, 0x0, 0x0, 0xF, 0x0⟩, -- UNIT_CTL
      ⟨0x014, 4, 1, 0x0, 0x0, 0x0, 0x0⟩, -- UNIT_STAT
      ⟨0x018, 4, 1, 0x0, 0x0, 0x0, 0xFFFFFFFF⟩, -- ERR_STAT
      ⟨0x01C, 4, 1, 0x0, 0xFFFFFFFF, 0x0, 0x0⟩, -- ERR_MASK
      ⟨0x020, 4, 1, 0x0, 0x0, 0x0, 0x0⟩, -- ERR_CE_CNT
      ⟨0x024, 4, 1, 0x0, 0x0, 0x0, 0x0⟩, -- ERR_UE_CNT
      ⟨0x028, 4, 1, 0x0, 0x0, 0x0, 0x0⟩, -- ERR_FIRST
      ⟨0x030, 4, 4, 0x0, 0x0, 0x0, 0x0⟩, -- ERR_INFO0..3
      ⟨0x0F0, 4, 1, 0x0, 0xFFFFFFFF, 0x0, 0x0⟩ ]  -- SCRATCH

/-- Registers of each of 5,120 physical cores (read through the logical page, R23). -/
def coreRowsA : List RegRow :=
    [ ⟨0x100, 4, 1, 0x0, 0x0, 0x0, 0x0⟩, -- LEDGER_USED
      ⟨0x104, 4, 1, 0x0, 0x0, 0x0, 0x0⟩, -- LEDGER_MAX
      ⟨0x108, 4, 1, 0x0, 0x0, 0x0, 0x0⟩, -- OVERRUN_CNT
      ⟨0x10C, 4, 1, 0x0, 0x0, 0x0, 0x0⟩, -- OVERRUN_DBG_CNT
      ⟨0x110, 4, 1, 0x0, 0x0, 0x0, 0x0⟩, -- LATE_CNT
      ⟨0x114, 4, 1, 0x0, 0x0, 0x0, 0x0⟩, -- LEDGER_STAT
      ⟨0x118, 4, 1, 0x0, 0x0, 0x0, 0x0⟩, -- LATE_RINGS
      ⟨0x11C, 4, 1, 0x0, 0x0, 0x0, 0x0⟩, -- LEDGER_STROKE
      ⟨0x180, 4, 32, 0x0, 0x0, 0x8000FFFF, 0x0⟩, -- RING_DUE
      ⟨0x200, 4, 1, 0x0, 0x0, 0x101, 0x0⟩, -- PAT_BANK
      ⟨0x204, 4, 1, 0x0, 0x0, 0xFFF0FFF, 0x0⟩, -- PAT_ENTRY
      ⟨0x208, 4, 1, 0x0, 0x0, 0x0, 0x0⟩, -- PAT_STAT
      ⟨0x210, 4, 1, 0x0, 0xFFFFFFF0, 0x0, 0x0⟩, -- PAT_LOAD_ADDR_LO
      ⟨0x214, 4, 1, 0x0, 0x7FF, 0x0, 0x0⟩, -- PAT_LOAD_ADDR_HI
      ⟨0x218, 4, 1, 0x0, 0x1FFF1FFF, 0x0, 0x0⟩, -- PAT_LOAD_CTL
      ⟨0x21C, 4, 1, 0x0, 0x0, 0x0, 0x0⟩, -- PAT_LOAD_STAT
      ⟨0x220, 4, 8, 0x0, 0x0, 0x0, 0x0⟩, -- SEQ_POS
      ⟨0x240, 4, 1, 0x0, 0x0, 0x0, 0x0⟩, -- SEQ_STALL
      ⟨0x250, 4, 2, 0x0, 0x0, 0x0, 0x0⟩, -- TILE_STAT
      ⟨0x258, 4, 1, 0x0, 0x0, 0x0, 0x3F⟩, -- TILE_STICKY
      ⟨0x25C, 4, 1, 0x0, 0x0, 0x0, 0x0⟩, -- HAZ_INFO
      ⟨0x260, 4, 1, 0x0, 0x0, 0x0, 0x0⟩, -- RECV_DROP
      ⟨0x264, 4, 1, 0x0, 0x0, 0x0, 0xFF⟩, -- ARITH_STAT
      ⟨0x268, 4, 1, 0x0, 0x0, 0xF, 0x0⟩ ]  -- ANVIL_CTL

/-- Registers of each of 5,120 physical cores (read through the logical page, R23). -/
def coreRowsB : List RegRow :=
    [ ⟨0x26C, 4, 1, 0x0, 0x0, 0x0, 0x0⟩, -- ACT_FMT
      ⟨0x270, 4, 1, 0x0, 0x0, 0x0, 0x0⟩, -- CONF_INFO
      ⟨0x274, 4, 1, 0x0, 0x0, 0x0, 0x0⟩, -- CONF_LAND/CONF_CNT
      ⟨0x278, 4, 1, 0x0, 0x0, 0x0, 0x0⟩, -- RING_ERR
      ⟨0x27C, 4, 1, 0x0, 0x0, 0x0, 0x0⟩, -- RING_STALE
      ⟨0x280, 4, 1, 0x0, 0x0, 0x0, 0x0⟩, -- ZERO_STAT
      ⟨0x290, 4, 1, 0x0, 0x0, 0x0, 0x7F⟩, -- VEC_STAT
      ⟨0x294, 4, 1, 0x0, 0x0, 0x3, 0x0⟩, -- RNG_CTL
      ⟨0x298, 4, 1, 0x0, 0x0, 0xFFFFFFFF, 0x0⟩, -- RNG_SEED_LO
      ⟨0x29C, 4, 1, 0x0, 0x0, 0xFFFFFFFF, 0x0⟩, -- RNG_SEED_HI
      ⟨0x2A0, 4, 1, 0x0, 0x0, 0x0, 0x0⟩, -- RNG_STAT
      ⟨0x2B0, 4, 1, 0x0, 0x0, 0x80FF1FFF, 0x0⟩, -- INT_CTL
      ⟨0x2B4, 4, 1, 0x0, 0x0, 0xFFFF, 0x0⟩, -- INT_FIRE
      ⟨0x2B8, 4, 1, 0x0, 0x0, 0x0, 0x80000000⟩, -- DISP_INFO
      ⟨0x2BC, 4, 1, 0x0, 0x0, 0x0, 0x0⟩, -- DISP_GRP
      ⟨0x2C0, 4, 1, 0x0, 0x0, 0x0, 0x0⟩, -- DISP_VAL_LO
      ⟨0x2C4, 4, 1, 0x0, 0x0, 0x0, 0x0⟩, -- DISP_VAL_HI
      ⟨0x2C8, 4, 1, 0x0, 0x0, 0x0, 0x0⟩, -- RPL_VAL_LO
      ⟨0x2CC, 4, 1, 0x0, 0x0, 0x0, 0x0⟩, -- RPL_VAL_HI
      ⟨0x2D0, 4, 1, 0x0, 0x0, 0x0, 0x0⟩, -- INT_CNT
      ⟨0x300, 4, 2, 0x10, 0x0, 0x80007700, 0x0⟩, -- TRACE_MAP (DEPTH 16)
      ⟨0x308, 4, 8, 0x4, 0x0, 0x80007700, 0x0⟩, -- TRACE_MAP (DEPTH 4)
      ⟨0x328, 4, 4, 0x40, 0x0, 0x80007700, 0x0⟩, -- TRACE_MAP (DEPTH 64)
      ⟨0x338, 4, 4, 0x20, 0x0, 0x80007700, 0x0⟩ ]  -- TRACE_MAP (DEPTH 32)

/-- Registers of each of 5,120 physical cores (read through the logical page, R23). -/
def coreRowsC : List RegRow :=
    [ ⟨0x380, 4, 18, 0x0, 0x0, 0x0, 0x0⟩, -- TRACE_STAT
      ⟨0x3E0, 4, 1, 0x0, 0x0, 0x0, 0x0⟩, -- TRACE_SUM
      ⟨0x3E4, 4, 1, 0x0, 0x0, 0x0, 0x0⟩, -- OUT_STAT
      ⟨0x400, 16, 32, 0x0, 0x0, 0xFFFF1FFF, 0x0⟩, -- RING_DESC
      ⟨0x404, 16, 32, 0x0, 0x0, 0x80003FFF, 0x0⟩, -- RING_PTR
      ⟨0x408, 16, 32, 0x0, 0x0, 0x0, 0x0⟩, -- RING_HT
      ⟨0x40C, 16, 32, 0x0, 0x0, 0x0, 0x0⟩, -- RING_CR
      ⟨0x600, 16, 16, 0x0, 0x0, 0xFFFFFFFF, 0x0⟩, -- FEED_MSET (REGION lo)
      ⟨0x604, 16, 16, 0x0, 0x0, 0xFFFFFFFF, 0x0⟩, -- FEED_MSET (REGION hi)
      ⟨0x608, 16, 16, 0x0, 0x0, 0xFFFF, 0x0⟩, -- FEED_MSET (BLOCKS/CORES)
      ⟨0x700, 4, 1, 0x0, 0x0, 0x0, 0x0⟩, -- FEED_DENY
      ⟨0x704, 4, 1, 0x0, 0x0, 0x0, 0x0⟩, -- FEED_MC_EXCL
      ⟨0x800, 4, 1, 0x0, 0x0, 0x0, 0x0⟩, -- ASY_CORE
      ⟨0x804, 4, 1, 0x0, 0x0, 0x0, 0x0⟩, -- ASY_DEBT
      ⟨0x808, 4, 1, 0x0, 0x0, 0x0, 0x0⟩, -- ASY_CNT
      ⟨0x80C, 4, 1, 0x0, 0x0, 0x0, 0x0⟩ ]  -- ASY_ABANDON

/-- All rows of the page. -/
def coreRows : List RegRow := coreRowsA ++ coreRowsB ++ coreRowsC

/-- Registers of each of 4,096 logical cores (R247). -/
def logicalRows : List RegRow :=
    [ ⟨0x708, 4, 1, 0x0, 0x0, 0x0, 0x0⟩ ]  -- FLOW_GEN

/-- Registers of each physical core page 1 (R153, R396). -/
def dbgRows : List RegRow :=
    [ ⟨0x100, 4, 1, 0x0, 0x60001FFF, 0x0, 0x0⟩, -- DBG_SEL
      ⟨0x200, 4, 32, 0x0, 0x0, 0x0, 0x0⟩, -- DBG_DATA
      ⟨0x300, 4, 1, 0x0, 0x10000000, 0x0, 0x0⟩, -- DBG_CTL
      ⟨0x304, 4, 1, 0x0, 0x0, 0x0, 0x0⟩ ]  -- DBG_HSTAT

/-- Registers of each crossbar: BLOCK_MAP, BLOCK_PHYS and the rest (R14, R16, R203). -/
def xbarRows : List RegRow :=
    [ ⟨0x100, 4, 1, 0x76543210, 0x0, 0x0, 0x0⟩, -- BLOCK_MAP
      ⟨0x104, 4, 1, 0x50000, 0x0, 0x0, 0x0⟩, -- BLOCK_PHYS
      ⟨0x108, 4, 1, 0x0, 0x0, 0x0, 0x0⟩, -- XBAR_WAIT
      ⟨0x10C, 4, 1, 0x0, 0x0, 0x0, 0x0⟩, -- XBAR_BCAST
      ⟨0x110, 4, 1, 0x0, 0x0, 0x0, 0x0⟩ ]  -- FENCE_DROP

/-- Registers of each slice (R151). -/
def sliceRows : List RegRow :=
    [ ⟨0x100, 4, 1, 0x0, 0x0, 0x0, 0x0⟩, -- SLICE_OWN
      ⟨0x104, 4, 1, 0x0, 0x0, 0x0, 0x0⟩, -- SLICE_DENY
      ⟨0x108, 4, 1, 0x0, 0x0, 0x0, 0x0⟩ ]  -- SLICE_ZERO

/-- Registers of each block router (R213). -/
def routerRows : List RegRow :=
    [ ⟨0x100, 4, 1, 0x0, 0x0, 0x0, 0x0⟩, -- RTR_STAT
      ⟨0x104, 4, 1, 0x0, 0x0, 0x0, 0x0⟩, -- RTR_CNT
      ⟨0x200, 4, 9, 0x0, 0x80000007, 0x0, 0x0⟩, -- ROUTE_TBL
      ⟨0x108, 4, 1, 0x0, 0x0, 0x0, 0x0⟩ ]  -- XBAR_DOWN_DROP

/-- Registers of each die-mesh unit (R213). -/
def meshRows : List RegRow :=
    [ ⟨0x100, 4, 1, 0x0, 0x0, 0x0, 0x0⟩, -- RTR_STAT
      ⟨0x104, 4, 1, 0x0, 0x0, 0x0, 0x0⟩, -- RTR_CNT
      ⟨0x200, 4, 64, 0x0, 0x80000007, 0x0, 0x0⟩ ]  -- ROUTE_TBL

/-- Registers of each region controller (R31, R187). -/
def rcRows : List RegRow :=
    [ ⟨0x100, 4, 1, 0x10000, 0xFFFFFFFF, 0x0, 0x0⟩, -- REP_WINDOW
      ⟨0x104, 4, 1, 0x10, 0xFFFFFFFF, 0x0, 0x0⟩, -- REP_CE_THRESH
      ⟨0x108, 4, 1, 0x1, 0xFFFFFFFF, 0x0, 0x0⟩, -- REP_UE_THRESH
      ⟨0x110, 4, 1, 0x0, 0x0, 0x0, 0x0⟩, -- DRAM_PEND
      ⟨0x114, 4, 1, 0xFA0, 0xFFFFFFFF, 0x0, 0x0⟩ ]  -- DRAM_CLEAR_RATE

/-- Registers of each region controller page 1 (R369). -/
def partRows : List RegRow :=
    [ ⟨0x100, 4, 32, 0x0, 0x8F8F8F8F, 0x0, 0x0⟩ ]  -- PART (4 entries of 8 bits: VALID, CTX)

/-- Registers of each region controller pages 2-3 (R184). -/
def ownerRows : List RegRow :=
    [ ⟨0x100, 4, 960, 0x0, 0xEFEFEFEF, 0x0, 0x0⟩ ]  -- OWNER (4 entries of 8 bits: STATE, FABRIC, CTX)

/-- Registers of each memory controller (R188-R195). -/
def mcRows : List RegRow :=
    [ ⟨0x100, 4, 1, 0x0, 0x0, 0x0, 0x0⟩, -- MC_STAT
      ⟨0x104, 4, 1, 0x0, 0x0, 0x0, 0x0⟩, -- MC_ROWS
      ⟨0x108, 4, 1, 0x0, 0x0, 0x0, 0x0⟩, -- MC_QPEAK
      ⟨0x10C, 4, 1, 0x0, 0x0, 0x0, 0x0⟩, -- MC_AGE
      ⟨0x110, 4, 1, 0x15180, 0xFFFFFFFF, 0x0, 0x0⟩, -- MC_PATROL
      ⟨0x114, 4, 1, 0x0, 0x0, 0x0, 0x0⟩ ]  -- MC_REPAIR

/-- Registers of each buckle bank page 0 (R276). -/
def bankRows : List RegRow :=
    [ ⟨0x100, 4, 1, 0x0, 0x0, 0x0, 0x0⟩, -- BKL_DENY
      ⟨0x104, 4, 1, 0x0, 0x0, 0x0, 0x0⟩ ]  -- BKL_ADDS

/-- Registers of each buckle bank pages 1-5 (R269). -/
def buckleRows : List RegRow :=
    [ ⟨0x100, 16, 240, 0x0, 0xFFFFFFFF, 0x0, 0x0⟩, -- BKL_COUNT
      ⟨0x104, 16, 240, 0x0, 0xFFFFFFFF, 0x0, 0x0⟩, -- BKL_TARGET
      ⟨0x108, 16, 240, 0x0, 0xFFFFC000, 0x0, 0x640⟩, -- BUCKLE_CTL
      ⟨0x10C, 16, 240, 0x0, 0xFFFF0000, 0x0, 0x0⟩ ]  -- BUCKLE_AUX/AGE

/-- Registers of each buckle bank pages 8-10 (R276). -/
def snapRows : List RegRow :=
    [ ⟨0x100, 8, 480, 0x0, 0x0, 0x0, 0x0⟩, -- SNAP_COUNT
      ⟨0x104, 8, 480, 0x0, 0x0, 0x0, 0x0⟩ ]  -- SNAP_STAT

/-- Registers of module controller page 0 (R32-R50). -/
def modctlRows : List RegRow :=
    [ ⟨0x100, 4, 1, 0x186A0, 0x0, 0xFFFFFF, 0x0⟩, -- STROKE_PERIOD
      ⟨0x108, 4, 1, 0x0, 0x0, 0x0, 0x0⟩, -- STROKE_COUNT
      ⟨0x10C, 4, 1, 0x0, 0x0, 0x0, 0x0⟩, -- STROKE_COUNT_HI
      ⟨0x110, 4, 1, 0x0, 0x0, 0x0, 0x0⟩, -- COMMIT
      ⟨0x114, 4, 1, 0x0, 0x0, 0x103, 0x0⟩, -- STROKE_CTL (OUT_EN, SRC)
      ⟨0x118, 4, 1, 0x0, 0x0, 0x0, 0x0⟩, -- STROKE_STAT
      ⟨0x11C, 4, 1, 0x0, 0x0, 0x0, 0x0⟩, -- STROKE_PHASE
      ⟨0x120, 4, 1, 0x0, 0x0, 0x0, 0x0⟩, -- STROKE_TRIM
      ⟨0x124, 4, 1, 0x0, 0x0, 0x0, 0x0⟩, -- STROKE_IN_IGN
      ⟨0x128, 4, 1, 0x0, 0xFFFFFFFF, 0x0, 0x0⟩, -- COMMIT_AT
      ⟨0x12C, 4, 1, 0x0, 0xFF, 0x0, 0x0⟩ ]  -- COMMIT_AT_HI

/-- Registers of module controller page 1 (R329-R344). -/
def bootRows : List RegRow :=
    [ ⟨0x100, 4, 1, 0x1000000, 0x0, 0x0, 0x0⟩, -- BOOT_STAT
      ⟨0x104, 4, 1, 0x0, 0x0, 0x0, 0x0⟩, -- BOOT_TIME
      ⟨0x108, 4, 1, 0x0, 0x0, 0x0, 0x0⟩, -- BOOT_BAD0
      ⟨0x10C, 4, 1, 0x0, 0x0, 0x0, 0x0⟩, -- BOOT_BAD1
      ⟨0x110, 4, 1, 0x0, 0x0, 0x0, 0x0⟩, -- MT_STAT
      ⟨0x114, 4, 1, 0x0, 0x0, 0x0, 0x0⟩, -- BOOT_CTL
      ⟨0x118, 4, 1, 0x0, 0x0, 0x0, 0x0⟩, -- SHUT_STAT
      ⟨0x140, 4, 10, 0x0, 0x0, 0x0, 0x0⟩ ]  -- BOOT_DUR

/-- Registers of hitch unit (R366). -/
def hitchRows : List RegRow :=
    [ ⟨0x100, 4, 256, 0x0, 0x0, 0x0, 0x0⟩, -- HITCH
      ⟨0x500, 4, 16, 0x0, 0x0, 0x0, 0x0⟩, -- HITCH_MAP
      ⟨0x540, 4, 1, 0x0, 0x0, 0x0, 0x0⟩ ]  -- HITCH_DENY

/-- Registers of each fabric port (R214-R234, R341). -/
def fabRows : List RegRow :=
    [ ⟨0x100, 4, 1, 0x0, 0x0, 0x0, 0x0⟩, -- FAB_STAT
      ⟨0x104, 4, 1, 0x0, 0x0, 0x0, 0x0⟩, -- FAB_PEER
      ⟨0x108, 4, 1, 0x100, 0x100, 0x0, 0x0⟩, -- FAB_CTL
      ⟨0x10C, 4, 1, 0x0, 0x0, 0xFF, 0x0⟩, -- LANE_DIS
      ⟨0x110, 4, 1, 0x7D0, 0xFFFF, 0x0, 0x0⟩, -- REPLAY_TO
      ⟨0x114, 4, 1, 0x0, 0x0, 0x0, 0x0⟩, -- REPLAY_CNT
      ⟨0x118, 4, 1, 0x0, 0x0, 0x0, 0x0⟩, -- CRC_CNT
      ⟨0x11C, 4, 1, 0x0, 0x0, 0x0, 0x0⟩, -- FEC_CORR
      ⟨0x120, 4, 1, 0x0, 0x0, 0x0, 0x0⟩, -- FEC_UNCORR
      ⟨0x124, 4, 1, 0x0, 0x0, 0x0, 0x0⟩, -- STOMP_CNT/DUP_CNT
      ⟨0x128, 4, 1, 0x0, 0x0, 0x0, 0x0⟩, -- RETRAIN_CNT
      ⟨0x12C, 4, 1, 0x10000, 0xFFFFFFFF, 0x0, 0x0⟩, -- REP_WIN
      ⟨0x130, 4, 1, 0x40, 0xFFFFFFFF, 0x0, 0x0⟩, -- REP_THRESH
      ⟨0x140, 4, 8, 0x0, 0x0, 0x0, 0x0⟩, -- LANE_SYM
      ⟨0x160, 4, 5, 0x0, 0x0, 0x0, 0x0⟩, -- VC_CRED
      ⟨0x180, 4, 8, 0x0, 0x0, 0x0, 0x0⟩, -- QUAL_ERR
      ⟨0x1A0, 4, 1, 0x0, 0x0, 0x0, 0x0⟩ ]  -- QUAL_STAT

/-- Registers of routing page (R236-R263). -/
def routeRows : List RegRow :=
    [ ⟨0x100, 4, 1, 0x0, 0x1FFF, 0x0, 0x0⟩, -- FAB_ID
      ⟨0x104, 4, 1, 0x0, 0x1FFF, 0x0, 0x0⟩, -- TORUS_DIM
      ⟨0x108, 4, 1, 0x0, 0x0, 0x0, 0x0⟩, -- RT_STAT
      ⟨0x10C, 4, 1, 0x0, 0x0, 0x0, 0x0⟩, -- TOPO_ERR
      ⟨0x110, 4, 1, 0x200, 0xFFFF, 0x0, 0x0⟩, -- EP_CTL
      ⟨0x114, 4, 1, 0x0, 0xFFFFFFFF, 0x0, 0x0⟩, -- EP_AT
      ⟨0x118, 4, 1, 0x0, 0xFF, 0x0, 0x0⟩, -- EP_AT_HI
      ⟨0x120, 4, 1, 0x0, 0x0, 0x0, 0x0⟩, -- DUP_DROP
      ⟨0x124, 4, 1, 0x0, 0x0, 0x0, 0x0⟩, -- STALE_DROP
      ⟨0x128, 4, 1, 0x0, 0x0, 0x0, 0x0⟩, -- JOB_DROP
      ⟨0x12C, 4, 1, 0x0, 0x0, 0x0, 0x0⟩, -- UNREACH_DROP
      ⟨0x130, 4, 1, 0x0, 0x0, 0x0, 0x0⟩, -- EP_DROP
      ⟨0x134, 4, 1, 0x0, 0x0, 0x0, 0x0⟩, -- RX_FULL
      ⟨0x138, 4, 1, 0x0, 0x0, 0x0, 0x0⟩, -- VC0_DROP
      ⟨0x13C, 4, 1, 0x0, 0x0, 0x0, 0x0⟩, -- TREE_DROP/TREE_SAT
      ⟨0x180, 4, 16, 0x0, 0x0, 0x8000FFFF, 0x0⟩, -- FLOW_CTX
      ⟨0x200, 64, 2, 0xFFF, 0xFFF, 0x0, 0x0⟩, -- PORT_EN
      ⟨0x204, 64, 2, 0x0, 0xFFFFFFFF, 0x0, 0x0⟩, -- ESC_X
      ⟨0x208, 64, 2, 0x0, 0xFFFFFFFF, 0x0, 0x0⟩, -- ESC_Y
      ⟨0x20C, 64, 2, 0x0, 0xFFFFFFFF, 0x0, 0x0⟩, -- ESC_Z_LO
      ⟨0x210, 64, 2, 0x0, 0xFFFFFFFF, 0x0, 0x0⟩ ]  -- ESC_Z_HI

/-- Registers of girth page (R277-R283). -/
def girthRows : List RegRow :=
    [ ⟨0x100, 4, 1, 0x0, 0x0, 0x0, 0x0⟩, -- GIRTH_STAT
      ⟨0x104, 4, 2, 0x0, 0x1FFF, 0x0, 0x0⟩, -- GIRTH_ROOT
      ⟨0x10C, 4, 1, 0x0, 0x0, 0x0, 0x0⟩, -- TIME_DELAY
      ⟨0x110, 4, 1, 0x0, 0x0, 0x0, 0x0⟩ ]  -- GIRTH_CNT

/-- Registers of barrier page (R278). -/
def barrierRows : List RegRow :=
    [ ⟨0x100, 8, 256, 0x0, 0x8000FFFF, 0x0, 0x0⟩, -- BAR_ENT
      ⟨0x104, 8, 256, 0x0, 0xFFFF0000, 0x0, 0x0⟩ ]  -- BAR_GEN

/-- Registers of tree table pages (R250-R260). -/
def treeRows : List RegRow :=
    [ ⟨0x100, 32, 120, 0x0, 0xFFFFE000, 0x0, 0x0⟩, -- TREE_ENT0
      ⟨0x104, 32, 120, 0x0, 0xFFFFFFFF, 0x0, 0x0⟩, -- TREE_ENT1
      ⟨0x108, 32, 120, 0x0, 0xFFFFFFFF, 0x0, 0x0⟩, -- TREE_LREG_LO
      ⟨0x10C, 32, 120, 0x0, 0xFFFFFFFF, 0x0, 0x0⟩, -- TREE_LREG_HI
      ⟨0x110, 32, 120, 0x0, 0xFFFF, 0x0, 0x0⟩ ]  -- TREE_LBLK/LCORE

/-- Registers of each Quexon port (R377). -/
def quexonRows : List RegRow :=
    [ ⟨0x100, 4, 1, 0x0, 0x0, 0x0, 0x0⟩, -- Q_STAT
      ⟨0x104, 4, 1, 0x0, 0x0, 0x0, 0x0⟩, -- Q_CTL
      ⟨0x108, 4, 1, 0x0, 0x0, 0x0, 0x0⟩, -- Q_REPLAY_CNT
      ⟨0x10C, 4, 1, 0x0, 0x0, 0x0, 0x0⟩, -- Q_CRC_CNT
      ⟨0x110, 4, 1, 0x0, 0x0, 0x0, 0x0⟩, -- Q_MMIO_BAD
      ⟨0x114, 4, 1, 0x0, 0x0, 0x0, 0x0⟩, -- Q_MEM_DENY
      ⟨0x120, 4, 1, 0x0, 0xFFFFE001, 0x0, 0x0⟩, -- EVQ_LO
      ⟨0x124, 4, 1, 0x0, 0xFF, 0x0, 0x0⟩, -- EVQ_HI
      ⟨0x128, 4, 1, 0x0, 0x0, 0x0, 0x0⟩, -- EVQ_PROD
      ⟨0x12C, 4, 1, 0x0, 0xFF, 0x0, 0x0⟩, -- EVQ_CONS
      ⟨0x130, 4, 1, 0x0, 0x0, 0x0, 0x0⟩, -- EVQ_LOST
      ⟨0x400, 16, 64, 0x0, 0xFFFFFFFC, 0x0, 0x0⟩, -- VEC_ADDR
      ⟨0x404, 16, 64, 0x0, 0xFF, 0x0, 0x0⟩, -- VEC_ADDR_HI
      ⟨0x408, 16, 64, 0x0, 0x7FFFFFFF, 0x0, 0x0⟩, -- VEC_DATA
      ⟨0x40C, 16, 64, 0x1, 0x1, 0x0, 0x0⟩ ]  -- VEC_CTL

/-- Registers of each context (R369). -/
def ctxRows : List RegRow :=
    [ ⟨0x100, 4, 1, 0x0, 0x0, 0xC0000000, 0x0⟩, -- CTX_CTL
      ⟨0x104, 4, 1, 0x0, 0x0, 0xFFFFE000, 0x0⟩, -- SLOT_BASE_LO
      ⟨0x108, 4, 1, 0x0, 0x0, 0xFF, 0x0⟩, -- SLOT_BASE_HI
      ⟨0x10C, 4, 1, 0x0, 0x0, 0x1F0FFF, 0x0⟩, -- CTX_ENTRY
      ⟨0x110, 4, 1, 0x0, 0x0, 0x3F, 0x0⟩, -- CTX_RET
      ⟨0x114, 4, 1, 0x0, 0x0, 0x0, 0x0⟩, -- CTX_STAT
      ⟨0x118, 4, 1, 0x0, 0x0, 0x0, 0x0⟩, -- TAKES
      ⟨0x11C, 4, 1, 0x0, 0x0, 0x0, 0x0⟩, -- ENTRY_FULL
      ⟨0x120, 4, 1, 0x0, 0x0, 0x0, 0x0⟩, -- TAKE_LOST
      ⟨0x124, 4, 1, 0x0, 0x0, 0x0, 0x0⟩, -- RET_ERR
      ⟨0x128, 4, 1, 0x0, 0x0, 0x0, 0x0⟩ ]  -- RET_LATE

/-- Registers of reset unit (R348). -/
def resetRows : List RegRow :=
    [ ⟨0x100, 4, 1, 0x0, 0x0, 0x0, 0x0⟩, -- RST_REQ
      ⟨0x104, 4, 1, 0x0, 0x0, 0x0, 0x0⟩, -- RST_STAT
      ⟨0x108, 4, 1, 0x0, 0x0, 0x0, 0x0⟩, -- RST_TIME
      ⟨0x10C, 4, 1, 0x300, 0x300, 0x0, 0x0⟩, -- ESC_CTL
      ⟨0x110, 4, 1, 0x0, 0x0, 0x0, 0x0⟩, -- RST_DROP
      ⟨0x114, 4, 1, 0x0, 0x0, 0x0, 0x0⟩, -- HEARTH_STAT
      ⟨0x200, 4, 16, 0x0, 0x0, 0x0, 0x0⟩ ]  -- CTX_PROG

/-- Registers of clock page (R408-R414). -/
def clkRows : List RegRow :=
    [ ⟨0x100, 4, 1, 0x4E2, 0x0, 0x207FF, 0x0⟩, -- CLK_CTL
      ⟨0x104, 4, 1, 0x0, 0x0, 0x0, 0x80000000⟩, -- CLK_STAT
      ⟨0x108, 4, 1, 0x0, 0x0, 0x0, 0x0⟩, -- REF_LOSS_CNT
      ⟨0x10C, 4, 1, 0x0, 0x0, 0x0, 0x0⟩, -- REF_PPM
      ⟨0x110, 4, 1, 0x0, 0xFC70F, 0x0, 0x0⟩ ]  -- CLK_OBS_SEL

/-- Registers of security page 0 (R388-R396). -/
def secRows : List RegRow :=
    [ ⟨0x100, 4, 1, 0x0, 0x0, 0x0, 0x0⟩, -- LC_STAT
      ⟨0x104, 4, 1, 0x0, 0x0, 0x0, 0x0⟩, -- KEY_STAT
      ⟨0x108, 4, 1, 0x0, 0x0, 0x0, 0x0⟩, -- DBG_STAT
      ⟨0x110, 4, 4, 0x0, 0x0, 0x0, 0x0⟩, -- DBG_NONCE
      ⟨0x120, 4, 16, 0x0, 0x0, 0x0, 0x0⟩, -- CTX_INST
      ⟨0x160, 4, 1, 0x0, 0x0, 0x0, 0x0⟩, -- DEVICE_ID
      ⟨0x164, 4, 1, 0x0, 0x0, 0x0, 0x0⟩, -- DEVICE_ID_HI
      ⟨0x168, 4, 1, 0x0, 0x0, 0x0, 0x0⟩ ]  -- SEC_DENY

/-- Registers of each mailbox (R388). -/
def mboxRows : List RegRow :=
    [ ⟨0x100, 4, 1, 0x0, 0x0, 0x0, 0x0⟩, -- SEC_CMD
      ⟨0x104, 4, 1, 0x0, 0x0, 0x0, 0x0⟩, -- SEC_RSP
      ⟨0x200, 4, 896, 0x0, 0xFFFFFFFF, 0x0, 0x0⟩ ]  -- BUF

/-- Registers of events page (R421). -/
def eventsRows : List RegRow :=
    [ ⟨0x100, 4, 1, 0x40000000, 0xC0000000, 0x0, 0x0⟩, -- EVT_CTL
      ⟨0x104, 4, 1, 0x0, 0x0, 0x0, 0x20000000⟩, -- EVT_STAT
      ⟨0x108, 4, 1, 0x0, 0x0, 0x0, 0x0⟩, -- REC_SEQ
      ⟨0x10C, 4, 1, 0x0, 0x0, 0x0, 0x0⟩, -- EVT_LOST
      ⟨0x110, 4, 1, 0x0, 0x0, 0x0, 0x0⟩, -- MAC_LO
      ⟨0x114, 4, 1, 0x0, 0x0, 0x0, 0x0⟩, -- MAC_HI
      ⟨0x118, 4, 1, 0x0, 0xFFFFFFFF, 0x0, 0x0⟩, -- SRC_IP
      ⟨0x11C, 4, 1, 0x0, 0xFFFFFFFF, 0x0, 0x0⟩, -- DST_IP
      ⟨0x120, 4, 1, 0x0, 0xFFFFFFFF, 0x0, 0x0⟩, -- DST_MAC_LO
      ⟨0x124, 4, 1, 0x0, 0xFFFF, 0x0, 0x0⟩, -- DST_MAC_HI
      ⟨0x128, 4, 1, 0x0, 0xFFFFFFFF, 0x0, 0x0⟩, -- UDP_PORT (SRC_PORT, DST_PORT)
      ⟨0x12C, 4, 1, 0x0, 0xFF, 0x0, 0x0⟩, -- DUMP_RESEND
      ⟨0x130, 4, 1, 0x0, 0x0, 0x0, 0x0⟩, -- TX_FRAMES
      ⟨0x134, 4, 1, 0x0, 0x0, 0x0, 0x0⟩, -- CNT_CE
      ⟨0x138, 4, 1, 0x0, 0x0, 0x0, 0x0⟩, -- CNT_DV
      ⟨0x13C, 4, 1, 0x0, 0x0, 0x0, 0x0⟩, -- CNT_UC
      ⟨0x140, 4, 1, 0x0, 0x0, 0x0, 0x0⟩, -- CNT_UF
      ⟨0x144, 4, 1, 0x0, 0x0, 0x0, 0x0⟩ ]  -- I3C_STAT

/-- Registers of dump page (R355). -/
def dumpRows : List RegRow :=
    [ ⟨0x100, 4, 1, 0x0, 0x0, 0x0, 0x0⟩, -- DUMP_CTL
      ⟨0x104, 4, 1, 0x0, 0x0, 0x0, 0x0⟩, -- DUMP_STAT
      ⟨0x108, 4, 1, 0x0, 0x0, 0x0, 0x0⟩, -- DUMP_SEQ
      ⟨0x10C, 4, 1, 0x0, 0x0, 0x0, 0x0⟩, -- DUMP_LEN
      ⟨0x110, 4, 1, 0x0, 0x0, 0x0, 0x0⟩ ]  -- NOANS

/-- Registers of power page (R398-R404, R430). -/
def powerRows : List RegRow :=
    [ ⟨0x100, 4, 1, 0x0, 0xC00007FF, 0x0, 0x0⟩, -- PWR_CTL
      ⟨0x104, 4, 1, 0x0, 0xFFF, 0x0, 0x0⟩, -- PWR_CAP
      ⟨0x108, 4, 1, 0x0, 0x0, 0x0, 0x0⟩, -- PWR_STAT
      ⟨0x10C, 4, 1, 0x0, 0x0, 0x0, 0x0⟩, -- PWR_MEAS
      ⟨0x110, 4, 1, 0x0, 0x0, 0x0, 0x0⟩, -- TJ
      ⟨0x114, 4, 1, 0x0, 0x0, 0x0, 0x0⟩, -- BRAKE_CNT
      ⟨0x118, 4, 1, 0x0, 0x0, 0x0, 0x0⟩, -- PIN_STAT
      ⟨0x11C, 4, 1, 0x0, 0x0, 0x0, 0x0⟩, -- VIN_MEAS
      ⟨0x120, 4, 1, 0x0, 0x0, 0x0, 0x0⟩ ]  -- PIN_CNT

/-- Registers of assay manager (R305-R326). -/
def assayRows : List RegRow :=
    [ ⟨0x100, 4, 1, 0x3, 0x0, 0x80000003, 0x0⟩, -- ASY_CTL
      ⟨0x104, 4, 1, 0x0, 0x0, 0x0, 0x0⟩, -- ASY_SET
      ⟨0x108, 4, 1, 0x0, 0x70000FFF, 0x0, 0x0⟩, -- ASY_TGT
      ⟨0x10C, 4, 1, 0x0, 0x0, 0x0, 0x0⟩, -- ASY_TGT_STAT
      ⟨0x110, 4, 1, 0x0, 0x0, 0x0, 0x0⟩, -- HEAL_STAT
      ⟨0x114, 4, 1, 0x0, 0x0, 0x0, 0x0⟩, -- HEAL_CNT
      ⟨0x118, 4, 1, 0x0, 0x0, 0x0, 0x0⟩ ]  -- ASY_OVD

/-- The row of a page that covers an offset. -/
def RegRow.covers (r : RegRow) (off : Nat) : Bool :=
  decide (r.off ≤ off) && decide ((off - r.off) % r.stride = 0) && decide ((off - r.off) / r.stride < r.count)

/-- The register at an offset, if the page has one. -/
def findRow (rows : List RegRow) (off : Nat) : Option RegRow := rows.find? (·.covers off)

/-- An MMIO address taken apart (R21): module space or region space, with region, block field, unit code, page and
offset. -/
structure Loc where
  module : Bool
  region : Nat
  blk : Nat
  unit : Nat
  page : Nat
  off : Nat
  deriving DecidableEq, Repr

/-- Decode an MMIO address (R21). -/
def locOf (a : Nat) : Loc :=
  if a / 2 ^ 32 % 2 = 1 then ⟨true, 0, 0, a / 2 ^ 24 % 256, a / 2 ^ 12 % 4096, a % 4096⟩
  else ⟨false, a / 2 ^ 26 % 64, a / 2 ^ 22 % 16, a / 2 ^ 16 % 64, a / 2 ^ 12 % 16, a % 4096⟩

/-- Address of a register in region space (R21). -/
def regionAddr (region blk unit page off : Nat) : Nat :=
  region * 2 ^ 26 + blk * 2 ^ 22 + unit * 2 ^ 16 + page * 2 ^ 12 + off

/-- Address of a register in module space (R21). -/
def modAddr (unit page off : Nat) : Nat := 2 ^ 32 + unit * 2 ^ 24 + page * 2 ^ 12 + off

/-- Edge links N, E, S, W of a region, absent at the package edge (R205). -/
def edgePresent (region d : Nat) : Bool :=
  match d with
  | 0 => decide (8 ≤ region)
  | 1 => decide (region % 8 ≠ 7)
  | 2 => decide (region < 56)
  | _ => decide (region % 8 ≠ 0)

/-- The unit-specific registers of a page, or none where the unit does not implement the page (R22, R24). -/
def pageRows (l : Loc) : Option (List RegRow) :=
  if l.module then
    match l.unit, l.page with
    | 0, 0 => some modctlRows
    | 0, 1 => some bootRows
    | 1, 0 => some hitchRows
    | 2, p =>
      if p < 12 then some fabRows
      else if p = 16 then some routeRows
      else if p = 17 then some girthRows
      else if p = 18 then some barrierRows
      else if (64 ≤ p ∧ p < 99) ∨ (128 ≤ p ∧ p < 163) then some treeRows
      else none
    | 3, p => if p < 2 then some quexonRows else if 16 ≤ p ∧ p < 32 then some ctxRows else none
    | 4, 0 => some resetRows
    | 5, 0 => some clkRows
    | 6, 0 => some secRows
    | 6, p => if p < 4 then some mboxRows else none
    | 7, 0 => some eventsRows
    | 7, 1 => some dumpRows
    | 8, 0 => some powerRows
    | 9, 0 => some assayRows
    | _, _ => none
  else if l.blk < 8 then
    if l.unit < 8 then (if l.page = 0 then some (coreRows ++ logicalRows) else none)
    else if 0x10 ≤ l.unit ∧ l.unit < 0x1A then
      (if l.page = 0 then some coreRows else if l.page = 1 then some dbgRows else none)
    else if l.unit = 0x20 ∧ l.page = 0 then some xbarRows
    else if 0x21 ≤ l.unit ∧ l.unit < 0x29 ∧ l.page = 0 then some sliceRows
    else if l.unit = 0x30 ∧ l.page = 0 then some routerRows
    else none
  else if l.blk = 0xE then
    match l.unit, l.page with
    | 0, 0 => some rcRows
    | 0, 1 => some partRows
    | 0, 2 => some ownerRows
    | 0, 3 => some ownerRows
    | 1, 0 => some mcRows
    | 2, 0 => some mcRows
    | 3, 0 => some meshRows
    | 8, 0 => some bankRows
    | 8, p =>
      if 1 ≤ p ∧ p < 6 then some buckleRows else if 8 ≤ p ∧ p < 11 then some snapRows else none
    | 9, 0 => some []
    | u, 0 => if 4 ≤ u ∧ u < 8 then (if edgePresent l.region (u - 4) then some [] else none) else none
    | _, _ => none
  else none

/-- Offsets of a last page past the 1,024 buckles, 1,024 snapshots or 4,096 trees (R269, R276, R250). -/
def pastEnd (l : Loc) : Bool :=
  if l.module then
    decide (l.unit = 2) && ((decide (l.page = 98) || decide (l.page = 162)) && decide (0x100 + 32 * 16 ≤ l.off))
  else
    decide (l.blk = 0xE) && decide (l.unit = 8)
      && ((decide (l.page = 5) && decide (0x100 + 16 * 64 ≤ l.off)) || (decide (l.page = 10) && decide (0x100 + 8 * 64 ≤ l.off)))

/-- The row of the register at a location: header registers for offsets below 0x100 (R26). -/
def rowOf (l : Loc) : Option RegRow :=
  match pageRows l with
  | none => none
  | some rows => if l.off < 0x100 then findRow hdrRows l.off else if pastEnd l then none else findRow rows l.off

/-- Pages 1 and above alias the header of page 0 (R26): the one home of a header register. -/
def homeAddr (a : Nat) : Nat :=
  let l := locOf a
  if l.off < 0x100 then (if l.module then modAddr l.unit 0 l.off else regionAddr l.region l.blk l.unit 0 l.off) else a

/-- Reset value of the register at an address (each register's Reset column; log entry 3 for the others). -/
def resetOf (a : Nat) : Word :=
  match rowOf (locOf a) with
  | none => 0
  | some r => r.reset

/-- Router ports present: N, E, S, W, crossbar, die mesh in bits 0 to 5 (R204). -/
def routerPorts (b : Nat) : Nat :=
  (if 4 ≤ b then 1 else 0) + (if b % 4 < 3 then 2 else 0) + (if b < 4 then 4 else 0) + (if 0 < b % 4 then 8 else 0) + 16
    + (if b = 1 ∨ b = 6 then 32 else 0)

/-- Die-mesh ports present: N, E, S, W, attachments (R205). -/
def meshPorts (r : Nat) : Nat :=
  (if edgePresent r 0 then 1 else 0) + (if edgePresent r 1 then 2 else 0) + (if edgePresent r 2 then 4 else 0)
    + (if edgePresent r 3 then 8 else 0) + 48

/-- The type field of UNIT_ID (R26). -/
def unitType (l : Loc) : Nat :=
  if l.module then 0x20 + l.unit
  else if l.blk < 8 then
    (if l.unit < 8 then 1 else if l.unit < 0x20 then 2 else if l.unit = 0x20 then 3 else if l.unit < 0x30 then 4 else 5)
  else
    (if l.unit = 0 then 0x10 else if l.unit < 3 then 0x11 else if l.unit = 3 then 0x12 else if l.unit < 8 then 0x13
     else if l.unit = 8 then 0x14 else 0x15)

/-- The index field of UNIT_ID (R26). -/
def unitIndex (l : Loc) : Nat :=
  if l.module then (if l.unit = 2 ∧ l.page < 12 then l.page else 0)
  else if l.blk < 8 then
    (if l.unit < 8 then l.unit else if l.unit < 0x20 then l.unit - 0x10 else if 0x21 ≤ l.unit ∧ l.unit < 0x29 then l.unit - 0x21 else 0)
  else (if l.unit = 1 ∨ l.unit = 2 then l.unit - 1 else if 4 ≤ l.unit ∧ l.unit < 8 then l.unit - 4 else 0)

/-- UNIT_ID of a unit (R26). -/
def unitId (l : Loc) : Word :=
  BitVec.ofNat 32 (unitType l * 2 ^ 16 + (if l.module then 0 else l.region * 2 ^ 10 + l.blk * 2 ^ 6) + unitIndex l)

/-- UNIT_VER on silicon revision B1 (R440). -/
def unitVer : Word := 0x42010100

end Sys2Proof.Machine
end

