-- ==== Sys2Proof/WellFormed.lean ====
section
/-! DEFINITION. Well-formed commands: operands that name a unit, a page or a field value the module can have. Cycles and times
are bounded by nothing here: a late one is a late command. Positions in a list of packets are bounded by the state. -/

namespace Sys2Proof

/-- Every header field fits its width (R238). -/
def Packet.wf (p : Packet) : Bool :=
  decide (p.type < 256) && decide (p.vc < 8) && decide (p.rows < 64) && decide (p.dmod < 8192) && decide (p.smod < 8192)
    && decide (p.dcore < 4096) && decide (p.score < 4096) && decide (p.dring < 32) && decide (p.doff < 8192)
    && decide (p.seq < 65536) && decide (p.gen < 65536) && decide (p.job < 65536) && decide (p.addr < 2 ^ 43)
    && decide (p.buckle < 65536) && decide (p.tree < 4096) && decide (p.opid < 65536) && decide (p.rop < 8)
    && decide (p.rfmt < 4) && decide (p.tag < 64) && decide (p.pidx < 256) && decide (p.taggen < 4096)

/-- The unit exists: 5,120 physical cores, 4,096 slices, 512 landing buffers (R10). -/
def SramUnit.wf (u : SramUnit) : Bool :=
  match u with
  | .core gp => decide (gp < 5120)
  | .slice n => decide (n < 4096)
  | .landing blk => decide (blk < 512)
  | .pmem gp => decide (gp < 5120)

/-- A reset's findings name cores, channels and pages that exist. -/
def RstEnv.wf (e : RstEnv) : Bool :=
  e.hung.all (fun gp => decide (gp < 5120)) && e.badChannels.all (fun m => decide (m < 128)) && e.hppr.all (fun r => decide (r.1 < 128))
    && e.silent.all (fun a => decide (a < 2 ^ 33))

/-- The units a test names exist. -/
def BistResult.wf (b : BistResult) : Bool :=
  b.sram.all (fun l => l.unit.wf) && b.logic.all (fun gp => decide (gp < 5120)) && b.xbar.all (fun x => decide (x < 512))

/-- A peer has a 13-bit identity, one of 12 ports and a 12-bit SEQ (R217, R222). -/
def TrainResult.wf (r : TrainResult) : Bool := decide (r.peerId < 8192) && decide (r.peerPort < 16) && decide (r.peerExp < 4096)

/-- The units an environment names exist. -/
def BootEnv.wf (e : BootEnv) : Bool :=
  e.bist.wf && e.badChannels.all (fun m => decide (m < 128)) && e.failRows.all (fun r => decide (r.1 < 128))
    && e.failAgain.all (fun r => decide (r.1 < 128)) && e.hppr.all (fun r => decide (r.1 < 128))
    && e.fabric.all (fun r => decide (r.1 < 12) && r.2.wf) && e.laneErr1.all (fun r => decide (r.1 < 12))
    && e.laneErr2.all (fun r => decide (r.1 < 12)) && e.again.all (fun r => decide (r.1 < 12) && r.2.all TrainResult.wf)

/-- A store address names a row: 4,096 of the W-store, 8,192 of the A- and G-stores (R135). -/
def laReal (la : Nat) : Bool := decide (la < 4096) || (decide (8192 ≤ la) && decide (la < 24576))

/-- The operands of a command are in range. -/
def Instr.wf (i : Instr) : Bool :=
  match i with
  | .registerWrite _ addr _ _ => decide (addr < 2 ^ 33)
  | .repWindowBoundary region _ _ => decide (region < 64)
  | .strokeBoundary => true
  | .seam _ => true
  | .commit _ => true
  | .commitAtWrite _ _ _ => true
  | .strokeCountLoRead _ => true
  | .strokeCountHiRead _ => true
  | .strokeInEdge _ => true
  | .strokeInLost _ => true
  | .girthSourceLost _ => true
  | .seqReadEntry gp _ => decide (gp < 5120)
  | .repeatOp gp _ => decide (gp < 5120)
  | .endOp gp _ => decide (gp < 5120)
  | .waitOp gp unit _ => decide (gp < 5120) && decide (unit < 8)
  | .opRetire gp unit _ => decide (gp < 5120) && decide (unit < 8)
  | .tileComplete gp tile _ => decide (gp < 5120) && decide (tile < 2)
  | .feedLoad gp _ => decide (gp < 5120)
  | .feedDescriptorIssue gp => decide (gp < 5120)
  | .loadAct gp _ => decide (gp < 5120)
  | .acc gp _ => decide (gp < 5120)
  | .drain gp _ => decide (gp < 5120)
  | .loadTile gp _ => decide (gp < 5120)
  | .vecAdd gp _ => decide (gp < 5120)
  | .vecSub gp _ => decide (gp < 5120)
  | .vecMul gp _ => decide (gp < 5120)
  | .vecFma gp _ => decide (gp < 5120)
  | .vecMax gp _ => decide (gp < 5120)
  | .vecMin gp _ => decide (gp < 5120)
  | .vecMov gp _ => decide (gp < 5120)
  | .cvt gp _ => decide (gp < 5120)
  | .exp gp _ => decide (gp < 5120)
  | .log gp _ => decide (gp < 5120)
  | .rsqrt gp _ => decide (gp < 5120)
  | .sigmoid gp _ => decide (gp < 5120)
  | .erf gp _ => decide (gp < 5120)
  | .norm gp _ => decide (gp < 5120)
  | .cmp gp _ => decide (gp < 5120)
  | .rred gp _ => decide (gp < 5120)
  | .cred gp _ => decide (gp < 5120)
  | .topk gp _ => decide (gp < 5120)
  | .sample gp _ => decide (gp < 5120)
  | .verify gp _ => decide (gp < 5120)
  | .scan gp _ => decide (gp < 5120)
  | .smaxd gp _ => decide (gp < 5120)
  | .switchOp gp _ => decide (gp < 5120)
  | .mergeOp gp _ => decide (gp < 5120)
  | .send gp _ => decide (gp < 5120)
  | .tsend gp _ => decide (gp < 5120)
  | .arm gp _ => decide (gp < 5120)
  | .disarm gp _ => decide (gp < 5120)
  | .st gp _ => decide (gp < 5120)
  | .stMem gp _ => decide (gp < 5120)
  | .stRing gp _ => decide (gp < 5120)
  | .syncAdd gp _ => decide (gp < 5120)
  | .waitb gp _ => decide (gp < 5120)
  | .tokenOp gp _ => decide (gp < 5120)
  | .emitOp gp _ => decide (gp < 5120)
  | .armb gp _ => decide (gp < 5120)
  | .outboundPacketDepart gp _ => decide (gp < 5120)
  | .ringWrite _ _ => true
  | .landingBufferDrain gp _ => decide (gp < 5120)
  | .readReq _ => true
  | .readRsp _ _ => true
  | .memWrite _ _ _ => true
  | .buckleAdd _ _ => true
  | .buckleRegWrite _ idx _ _ => decide (idx < 65536)
  | .buckleTimeout idx => decide (idx < 65536)
  | .sliceAccess _ _ err _ => decide (err < 3)
  | .mcRequest mc _ _ err _ => decide (mc < 128) && decide (err < 10)
  | .eccWriteback mc => decide (mc < 128)
  | .refresh mc rate bank => decide (mc < 128) && decide (rate < 8) && decide (bank < 32)
  | .patrolScrub mc addr err _ => decide (mc < 128) && decide (addr < 2 ^ 33) && decide (err < 6)
  | .clearingScrub region page => decide (region < 64) && decide (page < 7680)
  | .hot mc rank rate _ _ => decide (mc < 128) && decide (rank < 2) && decide (rate < 8)
  | .ownerTableWrite _ region word _ => decide (region < 64) && decide (word < 1920)
  | .broadcastGrant blk _ => decide (blk < 512)
  | .packetHop _ _ _ => true
  | .fabricRoute _ _ => true
  | .linkPacketRx port pkt _ fec _ _ => decide (port < 12) && pkt.wf && decide (fec.corr < 2 ^ 16) && decide (fec.sym.length ≤ 8)
  | .ack port _ _ => decide (port < 12)
  | .nak port _ _ => decide (port < 12)
  | .credit port _ _ => decide (port < 12)
  | .linkAckTimer port => decide (port < 12)
  | .creditTimer port => decide (port < 12)
  | .replayTimeout port _ => decide (port < 12)
  | .fabRetrain port res quals again _ => decide (port < 12) && res.wf && quals.all (fun q => decide (q.1 < 8)) && again.all TrainResult.wf
  | .peerTraining port res _ => decide (port < 12) && res.wf
  | .laneLoss port _ _ res _ => decide (port < 12) && res.wf
  | .fecRetrainTrigger port _ res _ => decide (port < 12) && res.wf
  | .controlBlockTimeout port _ => decide (port < 12)
  | .retrainTimeout port res _ => decide (port < 12) && res.wf
  | .linkDown port _ _ _ => decide (port < 12)
  | .fabIdWrite _ _ => true
  | .torusDimWrite _ _ => true
  | .tree _ _ => true
  | .keyWaitResume _ _ => true
  | .treeNotice _ _ => true
  | .epCtlArm _ _ => true
  | .epochFlip _ => true
  | .epochRetire _ => true
  | .girth _ => true
  | .barrierEntryWrite _ g _ _ => decide (g < 256)
  | .timeSync port _ _ => decide (port < 12)
  | .timeReq port _ _ => decide (port < 12)
  | .timeResp port _ _ => decide (port < 12)
  | .patLoadGo _ gl _ => decide (gl < 4096)
  | .patLoadAbort _ gl => decide (gl < 4096)
  | .patLoadRow gp _ err _ => decide (gp < 5120) && decide (err < 6)
  | .dbgSelGo _ gp _ => decide (gp < 5120)
  | .dispInfoClear _ gl => decide (gl < 4096)
  | .zeroisationComplete unit _ => unit.wf
  | .entropyHealthFail region _ => decide (region < 64)
  | .assaySegmentStart gp _ rows tile =>
    decide (gp < 5120) && decide (rows.length ≤ 32) && rows.all laReal && tile.all (fun t => decide (t < 2))
  | .assaySegmentEnd gp _ _ => decide (gp < 5120)
  | .assayOverdue gp _ => decide (gp < 5120)
  | .assayTurnYield region => decide (region < 64)
  | .asyTgtGo _ _ => true
  | .targetedAssayDone _ => true
  | .heal gp _ => decide (gp < 5120)
  | .healCfgTimeout gp => decide (gp < 5120)
  | .pwrEnAssert env => env.wf
  | .bringupStepTimeout env => env.wf
  | .shutdown _ bist => bist.wf
  | .warm _ env => env.wf
  | .perstAssert env _ => env.wf
  | .perstRelease _ => true
  | .aonThermalSample _ => true
  | .contextReset _ ctx _ env => decide (ctx < 16) && env.wf
  | .engineReset _ gl _ env => decide (gl < 4096) && env.wf
  | .partitionReset _ ctx _ env => decide (ctx < 16) && env.wf
  | .chipComputeReset _ _ env => env.wf
  | .powerCycle _ _ env => env.wf
  | .resetEscalated _ _ env => env.wf
  | .heartbeat _ => true
  | .hearthTakeover _ => true
  | .aonWatchdog => true
  | .dumpCtlGo _ _ silent => silent.all (fun a => decide (a < 2 ^ 33))
  | .dumpReadTimeout addr => decide (addr < 2 ^ 33)
  | .dumpComplete => true
  | .dumpChunkSend => true
  | .dumpResend _ _ => true
  | .quexonFlitRx _ _ slots => decide (slots.length = 15)
  | .qReplayTimeout _ => true
  | .qRetrain _ _ _ => true
  | .qLinkLoss _ _ _ _ => true
  | .quexonLinkDown _ cause _ => decide (cause < 3)
  | .snpInv _ addr tag => decide (addr < 2 ^ 43) && decide (tag < 4096)
  | .snpData _ addr tag => decide (addr < 2 ^ 43) && decide (tag < 4096)
  | .memRd _ addr tag err _ => decide (addr < 2 ^ 43) && decide (tag < 4096) && decide (err < 6)
  | .memWr _ addr tag err _ _ => decide (addr < 2 ^ 43) && decide (tag < 4096) && decide (err < 6)
  | .memWrPtl _ addr tag err _ _ _ => decide (addr < 2 ^ 43) && decide (tag < 4096) && decide (err < 6)
  | .mmioRd _ addr size tag => decide (addr < 2 ^ 43) && decide (size = 4 ∨ size = 8) && decide (tag < 4096)
  | .mmioWr _ addr size tag _ => decide (addr < 2 ^ 43) && decide (size = 4 ∨ size = 8) && decide (tag < 4096)
  | .cmpData _ tag grant status _ => decide (tag < 4096) && decide (grant < 4) && decide (status < 16)
  | .hitchClaim _ n => decide (n < 256)
  | .hitchRelease _ n _ => decide (n < 256)
  | .partitionEntryWrite _ region word _ => decide (region < 64) && decide (word < 32)
  | .slotCut _ => true
  | .doneWrite ctx => decide (ctx < 16)
  | .vecMaskWrite _ _ v _ => decide (v < 64)
  | .presentDebugToken _ _ => true
  | .presentLifecycle _ _ => true
  | .presentOwnerKey _ _ => true
  | .presentRevoke _ _ => true
  | .close _ => true
  | .spdmRequest _ _ => true
  | .getMeasurements _ _ => true
  | .debugSessionExpire => true
  | .halt _ gp => decide (gp < 5120)
  | .runCore _ gp => decide (gp < 5120)
  | .stepCore _ gp => decide (gp < 5120)
  | .jtagBypass _ _ => true
  | .jtagIdcode _ => true
  | .jtagSamplePreload _ _ => true
  | .jtagExtest _ _ _ => true
  | .pwrCtlRun _ target => decide (target < 2048)
  | .pwrCtlI1 _ target => decide (target < 2048)
  | .pwrCtlI2 _ target => decide (target < 2048)
  | .i2ExitDone => true
  | .powerSample watts mv i10ma _ => decide (watts < 65536) && decide (mv < 65536) && decide (i10ma < 65536)
  | .thermalThrottle _ region _ => decide (region < 64)
  | .thermalTrip _ region _ => decide (region < 64)
  | .powerBrakeAssert _ _ _ => true
  | .powerBrakeRelease _ => true
  | .refclkLost _ _ _ => true
  | .refPpmWindow _ _ => true
  | .clkObsSelWrite _ _ => true
  | .setdasa static addr => decide (static < 128) && decide (addr < 128)
  | .entdaa addr => decide (addr < 128)
  | .setEndpointId eid => decide (eid < 256)
  | .getEndpointId => true
  | .getMctpVersionSupport => true
  | .getMessageTypeSupport => true
  | .getPdr handle => decide (handle < 2 ^ 32)
  | .sensorRead id => decide (id < 65536)
  | .requestUpdate => true
  | .passComponentTable comps => comps.all (fun c => decide (c < 65536))
  | .updateComponent comp => decide (comp < 65536)
  | .requestFirmwareData _ _ env => env.wf
  | .activateFirmware => true
  | .eventRecord _ => true
  | .eventDatagramSend _ => true
  | .idleDatagram => true
  | .arpRequest _ => true
  | .alertRelease _ => true
  | .pwrEnDeassert => true
  | .mainPowerFault _ => true
  | .auxValid _ => true
  | .auxLoss => true
  | .mainPowerApplied env => env.wf
  | .quexonCmp _ tag status => decide (tag < 4096) && decide (status < 16)
  | .mgmtLinkUp _ => true
  | .mgmtLinkDown => true
  | .crystalStops => true
  | .chatter => true
  | .pldmBaseRequest cmd => decide (cmd < 256)

end Sys2Proof
end

