-- ==== Sys2Proof/Machine/State.lean ====
section
/-! DEFINITION. The state of the block as plain data: registers, the ten cores of each of 512 blocks, memory, networks,
links, engines and the queue of waiting commands; and the state right after reset. -/

namespace Sys2Proof.Machine

/-- Why a command stops with a fault. -/
inductive Fault where
  /-- Raised by the meaning of a command whose operands name no unit of the module (`Instr.wf` is false). Safe: no
  command of the spec has such operands. -/
  | noSuchUnit
  /-- Raised by PACKET_HOP, FABRIC_ROUTE and BROADCAST_GRANT, BUCKLE_ADD and BUCKLE_TIMEOUT while NCLK stands below 0.8 of the ACLK ceiling:
  R409 calls the block routers, package network and buckle banks undefined then. Safe: no effect is claimed. -/
  | clockRatio
  deriving DecidableEq, Repr

/-- Why a command is refused. -/
inductive Refusal where
  /-- A command that has no meaning yet, by its mnemonic. Safe. -/
  | notModelled (mnemonic : String)
  deriving DecidableEq, Repr

/-! ### A core (R59) -/

/-- State of an accumulator tile (R106). -/
inductive TileSt where
  | idle | accum | draining | loading
  deriving DecidableEq, Repr

/-- An accumulator tile of 256 AX46 elements (R116, R103). -/
structure Tile where
  elems : Tbl (BitVec 46) := []
  void : Bool := false
  disputed : Bool := false
  ovf : Bool := false
  lapsed : Bool := false
  pass : Nat := 0
  st : TileSt := .idle
  stTo : Nat := 0
  deriving DecidableEq, Repr

/-- A pattern entry in a unit's queue, with its index in pattern memory (R91). -/
structure QEnt where
  idx : Nat
  ent : BitVec 128
  deriving DecidableEq, Repr

/-- An active REPEAT: first entry of its body, entry after its body, repetitions left (R94). -/
structure Rep where
  start : Nat
  stop : Nat
  left : Nat
  deriving DecidableEq, Repr

/-- The sequencer of a core (R91 to R96): bank and offset of the next entry (4,096: past the end), the last index read, the unit
whose queue it went to, and in `readAt` and `blocked` seam cycles (40 to 63) and 64 plus body cycles. -/
structure Seq where
  reading : Bool := false
  bank : Nat := 0
  pos : Nat := 0
  last : Nat := 0
  put : Option Nat := none
  endRead : Bool := false
  bad : Bool := false
  pmemUe : Bool := false
  notReady : Bool := false
  badIdx : Nat := 0
  reps : List Rep := []
  readAt : Option Nat := none
  blocked : Option Nat := none
  stall : Nat := 0
  deriving DecidableEq, Repr

/-- Pointers of a ring (R109, R146), the rows read or written ahead of HEAD and TAIL, the void marks of its rows, the
generation (R149), rows landed since the last s0 (R51), and whether its last producer was outside the core (R82). -/
structure Ring where
  head : Nat := 0
  tail : Nat := 0
  claim : Nat := 0
  resv : Nat := 0
  readAhead : List Nat := []
  wroteAhead : List Nat := []
  voids : List Nat := []
  gen : Nat := 0
  landed : Nat := 0
  outside : Bool := false
  badLoad : Bool := false
  deriving DecidableEq, Repr

/-- A RECV arming (R104): window start (a ring pointer), size, whether the window's rows are reserved, rows landed in
it, the buckle it counts in, and TREE. -/
structure Arming where
  win : Nat
  start : Nat
  reserved : Bool
  got : List Nat
  buckle : Option Nat
  tree : Bool
  deriving DecidableEq, Repr

/-- An entry of a trace: data row (void or real) or a control token (R62). -/
inductive TEnt where
  | row (e : Entry)
  | token (t : BitVec 16)
  deriving DecidableEq, Repr

/-- A trace: entries present (oldest first), entries reserved and not yet written, and peak occupancy (R62, R69). -/
structure Trace where
  ents : List TEnt := []
  resv : Nat := 0
  hwm : Nat := 0
  deriving DecidableEq, Repr

/-- Where a read of an operation comes from; `dbg` is the fetch of the debug window (R153), `asy` the first touch of a row by an assay
segment (R311), `scrub` the re-read of a logged row in the seam (R143). -/
inductive RdSrc where
  | ring (n ptr la : Nat)
  | trace (n : Nat)
  | la (la : Nat)
  | dbg (la : Nat)
  | asy (la : Nat)
  | scrub (la : Nat)
  | act (row : Nat)
  | tile
  deriving DecidableEq, Repr

/-- Where a write of an operation goes. -/
inductive WrDst where
  | ring (n ptr gen la : Nat)
  | trace (n : Nat)
  | la (la : Nat)
  | token (n : Nat)
  deriving DecidableEq, Repr

/-- What one access of an operation does: read row `idx` of its input `port`, or write row `idx` of its output `port`. -/
inductive AccOp where
  | rd (port idx : Nat) (src : RdSrc)
  | wr (port idx : Nat) (dst : WrDst)
  deriving DecidableEq, Repr

/-- One access due in a cycle (R137): its operation, rank, requester code, operand field order, and whether it waited. -/
structure Access where
  cyc : Nat
  fl : Nat
  rank : Nat
  code : Nat
  field : Nat
  waited : Bool := false
  op : AccOp
  deriving DecidableEq, Repr

/-- Keys and counters of one random stream (R175): unused half words and words of the current block. -/
structure Stream where
  key : BitVec 64 := 0
  ctr : Nat := 0
  buf : List (BitVec 32) := []
  half : Option (BitVec 16) := none
  deriving DecidableEq, Repr

/-- Persistent vector state (R172, R173): running maxima and sums per tile row, scan state per lane. -/
structure VecState where
  m : Tbl Word := []
  s : Tbl Word := []
  h : Tbl Word := []
  deriving DecidableEq, Repr

/-- An operation that has fired (R68) and is still reading, writing or not yet retired; landings use it too. `elems` is the tile an
ACC or DRAIN starts from and, once an ACC has read its last row, its result; `groups` are the groups of an ACC whose checks have been
made, `disp` the elements of which one failed (R295, R296). -/
structure Flight where
  id : Nat
  unit : Nat
  idx : Nat
  ent : BitVec 128
  fired : Nat
  busy : Nat
  retire : Nat
  ord : Nat := 0
  got : List (Nat × Nat × Entry) := []
  vec : VecState := {}
  rng : Stream := {}
  elems : Tbl (BitVec 46) := []
  tileVoid : Bool := false
  finished : Bool := false
  hold : Bool := false
  landing : Bool := false
  ringNo : Nat := 0
  rowVals : List Entry := []
  inPkt : Option Packet := none
  bklDue : Option Nat := none
  groups : Nat := 0
  disp : List Nat := []
  deriving DecidableEq, Repr

/-- A descriptor in the FEED queue (R196): rows not yet requested, the ring pointers reserved for it, its class. -/
structure FeedDesc where
  base : Option Nat := none
  slot : Nat := 0
  tagGen : Nat := 0
  idx : Nat
  dst : Nat
  ptr : Nat
  gen : Nat
  rows : Nat
  next : Nat
  addr : Nat
  stride : Nat
  module : Option Nat
  mset : Option (BitVec 64 × BitVec 8 × BitVec 8)
  deriving DecidableEq, Repr

/-- A packet being formed in the outbound buffer (R72, R239): its rows so far, the rows it will have, whether its header
has left and in which cycle, and, when it is read from a ring, the ring, the store row of each unit of 16 consecutive rows, the
stored brand found at every row of the unit as it was read, and whether one of the rows raised UE_SRAM (R287, R289). -/
structure OutPkt where
  id : Nat
  pkt : Packet
  need : Nat
  rows : List Entry := []
  left : Bool := false
  ring : Nat := 0
  u0 : Option Nat := none
  u1 : Option Nat := none
  leftAt : Nat := 0
  b0 : Option Word := none
  b1 : Option Word := none
  ue0 : Bool := false
  ue1 : Bool := false
  deriving DecidableEq, Repr

/-- A remote LOAD in flight (R249): tag generation, ring, pointer of its first row and generation, its rows, the PIDX
received, and whether a new generation of the ring freed the slot before every packet had come (R149). -/
structure RemSlot where
  gen : Nat := 0
  busy : Bool := false
  dst : Nat := 0
  ptr : Nat := 0
  ringGen : Nat := 0
  rows : Nat := 0
  got : List Nat := []
  stale : Bool := false
  deriving DecidableEq, Repr

/-- A send flow of the core's send table (R247): destination, key (DCORE, or 0xFFF memory and 0xFFE buckle bank), GEN,
next SEQ, and when it last sent (time of the boundary before, in 1/16 ns). -/
structure SendFlow where
  dmod : Nat
  key : Nat
  gen : Nat
  seq : Nat
  last : Nat := 0
  deriving DecidableEq, Repr

/-- A lasting or passing fault of the anvil or a checker lane (R291 to R295, log entry 5): `flip` is XORed to E_max (`kind` 0), the group
register (1), the sum before rounding (2), the alignment shift of product `k` (3) or the scale sum (4) of the cells, or, with `lane`,
to what the checker lane forms for that comparison. -/
structure AnvilFault where
  row : Nat
  col : Nat
  kind : Nat
  lane : Bool
  flip : BitVec 46
  once : Bool
  k : Nat := 0
  deriving DecidableEq, Repr

/-- A wait on the outside world (R82): whether it names a unit, the ring or unit, its first cycle, its length. -/
structure OutWait where
  isUnit : Bool
  num : Nat
  unit : Nat
  start : Nat
  len : Option Nat := none
  deriving DecidableEq, Repr

/-- A scoreboard hold (R108): kind, tile, entry index, first cycle, length. -/
structure Hold where
  kind : Nat
  tile : Nat
  idx : Nat
  start : Nat
  len : Option Nat := none
  deriving DecidableEq, Repr

/-- What a core keeps during a stroke for its records and for the registers that update at s16; `pendDisp` are failed checks (cycle
g + 24, flight, and group, kind and element of each), `dispCap` the flight and element that DISP_INFO names until its tile is
complete (R295, R296). -/
structure Watch where
  confInfo : Option (BitVec 64) := none
  confCnt : Nat := 0
  confLand : Nat := 0
  hold : Option Hold := none
  outWait : Option OutWait := none
  tokErr : Bool := false
  obPeak : Nat := 0
  obStall : Nat := 0
  pendDisp : List (Nat × Nat × List (Nat × Nat × Nat)) := []
  dispCap : Option (Nat × Nat) := none
  obFrom : Tbl (Option Nat) := []
  fqPeak : Nat := 0
  scrub : List Nat := []
  used : Nat := 0
  ords : Tbl Nat := []
  captures : List (Nat × Bool × BitVec 46 × Bool) := []
  deriving DecidableEq, Repr

/-- The pattern load engine at work (R97, R98): image address, target bank, first entry, entries, entries done, and the
rows of the hide under way with their brand check. `no` tells one load from another. -/
structure Loader where
  addr : Nat
  bank : Nat
  first : Nat
  count : Nat
  done : Nat := 0
  rows : List Row := []
  ue : Bool := false
  no : Nat := 0
  deriving DecidableEq, Repr

/-- One physical core (R10, R59, R135). `waiter` is the buckle and flight of a waiting WAITB or TOKEN (R273), `bklOut`
the buckles owed an increment for landed packets (R104), `leaving` the first cycle and the rows of packets that leave the outbound
buffer row by row (R72), `gated` a core whose clock a brake stop has gated (R402). -/
structure Core where
  pmem : Tbl (BitVec 128) := []
  pmemUpset : Tbl (BitVec 144) := []
  store : Tbl Row := []
  upset : Tbl (BitVec 1152) := []
  brand : Tbl (Option Word) := []
  act : Tbl Row := []
  actVoid : List Nat := []
  t0 : Tile := {}
  t1 : Tile := {}
  queues : Tbl (List QEnt) := []
  seq : Seq := {}
  traces : Tbl Trace := []
  rings : Tbl Ring := []
  arms : Tbl (Option Arming) := []
  now : Nat := 0
  nextId : Nat := 0
  acc : List Access := []
  flights : List Flight := []
  feedQ : List FeedDesc := []
  outb : List OutPkt := []
  leaving : List (Nat × Nat) := []
  landBuf : List Packet := []
  slots : Tbl RemSlot := []
  sendTab : List SendFlow := []
  opTag : Nat := 0
  rng : Tbl Stream := []
  vec : VecState := {}
  anvilFaults : List AnvilFault := []
  watch : Watch := {}
  waiter : Option (Nat × Nat) := none
  loader : Option Loader := none
  loadNo : Nat := 0
  bklOut : List Nat := []
  halted : Bool := false
  gated : Bool := false
  runPend : Bool := false
  stepping : Bool := false
  zeroing : Bool := false
  deriving DecidableEq, Repr

/-! ### Records (R419) -/

/-- An event record on its way to the active hearth, before it is numbered (R419 to R421); `queued` marks one that waited
during a takeover (R420). -/
structure Rec where
  stroke : Nat
  cycle : Nat
  src : Nat
  pcore : Nat := 0xF
  cls : Nat
  sev : Nat
  ctx : Option Nat := none
  synd : BitVec 64 := 0
  aux : BitVec 64 := 0
  chip : Bool := false
  queued : Bool := false
  deriving DecidableEq, Repr

/-! ### The package network (R199 to R213) -/

/-- A place a packet can be in: a core port, a block router, a die-mesh unit, the ingress or egress side of a fabric
port, a local unit of a region (memory controllers, buckle bank, tree engine), or a slice port at its block. -/
inductive Node where
  | core (gp : Nat)
  | router (blk : Nat)
  | mesh (region : Nat)
  | ingress (p : Nat)
  | egress (p : Nat)
  | local_ (region : Nat)
  | quexon (p : QPort)
  | slice (n : Nat)
  deriving DecidableEq, Repr

/-- A packet in the package network: where it is, the input port it came by, the channel it holds, its requester's
core and context, whether it arrived over the fabric, the physical cores it goes to by the map in force when it entered
its block (R17, R198), and the egress port chosen for it (R241). Of a multicast response: the blocks its copy still has to reach,
whether it carries the issuer's own copy and the physical core that copy goes to, and whether it holds its block's router input (R197,
R202). `since` is when its header came to its buffer (1/16 ns); `src` is the core and the outbound packet of which rows are still to
come (R72). -/
structure NetPkt where
  pkt : Packet
  at_ : Node
  from_ : Nat := 4
  vc : Nat := 1
  reqCore : Option Nat := none
  ctx : Option Nat := none
  fabric : Bool := false
  cores : List Nat := []
  egress : Option Nat := none
  tree : List Nat := []
  own : Bool := false
  ownCore : Option Nat := none
  holding : Bool := false
  since : Nat := 0
  src : Option (Nat × Nat) := none
  deriving DecidableEq, Repr

/-! ### The time grid (R32 to R50) -/

/-- The stroke generator. Times are in 1/16 ns of TCLK; `base` is the time of the last boundary, `len` the length of the
stroke in progress, `s0` the body cycle at which its seam has begun. A commit is armed for stroke `armed`, which COMMIT_AT names if
`armedAt` is set and which is else the next whose seam opens (R47). `extend` is what
acquisition adds to the next stroke, `acquired` says that the lengthened stroke is in progress; `refs` and `locs` are
reference and local boundaries not yet paired, `phases` the last 16 phases; `lastEdge` is the last accepted STROKE_IN edge and
`since` the time at which the source became active. -/
structure Gen where
  running : Bool := false
  base : Nat := 0
  len : Nat := 1600000
  seamDone : Bool := false
  s0 : Option Nat := none
  armed : Option Nat := none
  armedAt : Bool := false
  armedLate : Bool := false
  armedAfterIgn : Bool := false
  extend : Option Nat := none
  latchQa : Option Nat := none
  latchQb : Option Nat := none
  latchM : Option Nat := none
  lastEdge : Option Nat := none
  since : Nat := 0
  integ : Rat := 0
  phases : List Int := []
  refs : List Nat := []
  locs : List Nat := []
  acquired : Bool := false
  girthSilent : Nat := 0
  exchanged : Bool := false
  deriving DecidableEq, Repr

/-! ### Region reporting (R31) -/

/-- CE and UE increments of a unit in the window, and whether each counter has reported. -/
structure WinCnt where
  ce : Nat := 0
  ue : Nat := 0
  ceDone : Bool := false
  ueDone : Bool := false
  deriving DecidableEq, Repr

/-- Window length and thresholds in force in a region (R31: a written value applies from the next boundary). -/
structure WinPar where
  len : Nat := 0x10000
  ce : Nat := 0x10
  ue : Nat := 1
  deriving DecidableEq, Repr

/-- What the capture of a page holds beside its registers: severity, source bit and exact time of the captured error (R29, R30). -/
structure Capture where
  sev : Nat
  bit : Nat
  at_ : Nat
  deriving DecidableEq, Repr

/-! ### Debug sessions (R394, R395) -/

/-- The one open debug session: level 1 to 3, the agent it was presented by, its context (D2), and the time left in
1/16 ns (R395). -/
structure DbgSession where
  level : Nat
  agent : Agent
  ctx : Nat := 0
  left : Nat := 0
  deriving DecidableEq, Repr

/-! ### Transfers of memory rows (R183, R194, R196, R239, R249) -/

/-- One row a transfer still waits for: its transfer, index, local address, requester's context, whether it came over the
fabric, the core whose FEED_DENY counts a refusal, the time (1/16 ns) at which a younger row was first served before it (R188), and, of
a row that a MEM_WRITE writes, that row; `xfer` then names the write. -/
structure RowReq where
  xfer : Nat
  idx : Nat
  addr : Nat
  ctx : Option Nat
  fabric : Bool
  core : Option Nat
  passed : Option Nat := none
  write : Option Entry := none
  deriving DecidableEq, Repr

/-- A MEM_WRITE whose DRAM rows have joined class 1 (R188): its packet, its context, and the rows that have been served, with whether
each was written and whether it was admitted. -/
structure MemWr where
  id : Nat
  pkt : NetPkt
  ctx : Option Nat
  done : List (Nat × Bool × Bool) := []
  deriving DecidableEq, Repr

/-- A response packet being gathered: its header, where it enters the network, its requester, rows due, the address of
its first row, the rows that have come with any error status, and the stored brands of the granules that begin at one of its rows
(R287). -/
structure Xfer where
  id : Nat
  hdr : Packet
  node : Node
  ctx : Option Nat
  core : Option Nat
  rows : Nat
  addr : Nat
  got : List (Nat × Entry × Option (BitVec 64)) := []
  brands : List (Nat × Word) := []
  deriving DecidableEq, Repr

/-- A receive entry of a region controller (R248): key, GEN, TOP, the SEQ values of the window received, and when it last
accepted (time of the boundary before, in 1/16 ns). -/
structure RxFlow where
  region : Nat
  smod : Nat
  score : Nat
  dcore : Nat
  gen : Nat
  top : Nat
  seen : List Nat
  last : Nat
  deriving DecidableEq, Repr

/-! ### The host ports (R358 to R379) -/

/-- What a request of the module to a host port is for. -/
inductive QWhy where
  | feed (xfer idx : Nat)
  | load (gp no : Nat)
  | slotRead (ctx slot : Nat)
  | slotOwn (ctx slot : Nat)
  | copyOut (ctx slot : Nat)
  | slotDone (ctx slot : Nat)
  | stMem
  | evq
  | int (v : Nat)
  deriving DecidableEq, Repr

/-- A class-2 request that waits at a controller (R188, R363): a host access (opcode, offset in its region's DRAM, tag, byte mask and line) or
the row of a core's pattern load, with what the read or write meets (`linkFault`). -/
inductive Class2 where
  | host (p : QPort) (op off tag err : Nat) (mask : BitVec 128) (line : Row)
  | load (gp no err : Nat)
  deriving DecidableEq, Repr

/-- An outstanding request to a port (R361). -/
structure QReq where
  tag : Nat
  addr : Nat
  why : QWhy
  deriving DecidableEq, Repr

/-- A line of the line cache (R365): state 1 S, 2 E, 3 M, and its data. -/
structure CLine where
  st : Nat := 0
  data : Row := 0
  deriving DecidableEq, Repr

/-- Link layer of a Quexon port (R360): next SEQ, unacknowledged flits (SEQ, header without ACK, NAK and CRC, slots), SEQ expected, NAK outstanding,
a NAK that waits for room in the replay buffer, replays from one SEQ, free credits per channel REQ, SNP, RSP, DATA, slots freed here and not yet told, flits received since the
last header sent. -/
structure QLink where
  tx : Nat := 0
  unacked : List (Nat × Nat × List (BitVec 128)) := []
  rx : Nat := 0
  naked : Bool := false
  nakDue : Bool := false
  lastReplay : Nat := 0
  sameReplay : Nat := 0
  credits : List Nat := [512, 256, 512, 4096]
  freed : List Nat := [0, 0, 0, 0]
  pendAck : Nat := 0
  deriving DecidableEq, Repr

/-- A message of the module that waits for credit or has been sent (R361). -/
structure QMsg where
  op : Nat
  addr : Nat
  tag : Nat
  status : Nat := 0
  grant : Nat := 0
  data : List Row := []
  deriving DecidableEq, Repr

/-- A Quexon port: link layer, next tag, requests outstanding, messages waiting for credit, and the records that wait to be
written to its event queue, one at a time (R378). -/
structure QState where
  link : QLink := {}
  nextTag : Nat := 0
  reqs : List QReq := []
  waiting : List QMsg := []
  evq : List Row := []
  deriving DecidableEq, Repr

/-- A step whose return bank is copied out (R376): slot, result rows not yet completed, STATUS, whether its boundary has come,
whether rows were still open then, whether DONE is being written. -/
structure CopyOut where
  slot : Nat
  open_ : Nat
  status : Nat
  irq : Bool
  due : Bool := false
  late : Bool := false
  sent : Bool := false
  deriving DecidableEq, Repr

/-- The submission and return engines of a context (R370 to R376): latched values, latest read of each slot line, slots
TAKEN, the slot chosen at the cut, both return banks, and steps in copy-out. -/
structure CtxEng where
  port : QPort := .qa
  base : Nat := 0
  ring : Nat := 0
  lcore : Nat := 0
  rows : Nat := 1
  lines : Tbl Row := []
  taken : List Nat := []
  chosen : Option Nat := none
  bank0 : Tbl Row := []
  bank1 : Tbl Row := []
  copies : List CopyOut := []
  deriving DecidableEq, Repr

/-! ### The girth (R277 to R279) -/

/-- What a barrier entry holds beside its registers: the directions of children whose UP for GEN has come, in
whichever epoch; whether UP has been sent, the buckles that have sent their arrival, and those whose arrival was discarded and that send no
second one until they are armed again (R272, R277, R278). -/
structure Barrier where
  ups : List Nat := []
  sentUp : Bool := false
  sent : List Nat := []
  lost : List Nat := []
  deriving DecidableEq, Repr

/-- The girth tree of an epoch bank (R277): this module is its root, parent port, child ports. -/
structure GirthTree where
  root : Bool := true
  parent : Nat := 0
  children : List Nat := []
  deriving DecidableEq, Repr

/-! ### Fabric links (R220 to R231) -/

/-- Link layer of a fabric port: next SEQ, unacknowledged packets (the replay buffer), packets waiting for credit or room,
SEQ expected, NAK outstanding, packets received since the last ACK, units sent and units reported freed by the peer, units
freed here, last replay's SEQ and how often it has been replayed from, when the last replay began (1/16 ns) and from which SEQ, the
LINK_REPLAY window, and the round-robin pointer. -/
structure FabLink where
  tx : Nat := 0
  unacked : List (Nat × Packet) := []
  waiting : List Packet := []
  rx : Nat := 0
  naked : Bool := false
  pendAck : Nat := 0
  sent : List Nat := [0, 0, 0, 0, 0]
  freedSeen : List Nat := [0, 0, 0, 0, 0]
  freed : List Nat := [0, 0, 0, 0, 0]
  freedTold : List Nat := [0, 0, 0, 0, 0]
  lastReplay : Option Nat := none
  sameReplay : Nat := 0
  replayAt : Option Nat := none
  replayFrom : Nat := 0
  winReps : Nat := 0
  winDone : Bool := false
  rr : Nat := 1
  deriving DecidableEq, Repr

/-! ### Trees (R250 to R260) -/

/-- A reduction key (R253): tree, epoch, OPID, DOFF, the first contribution, contributors so far (child ports from 0,
members from 16), and whether a brand or combine check has failed (R290). -/
structure TreeKey where
  tree : Nat
  epoch : Nat
  opid : Nat
  doff : Nat
  pkt : Packet
  from_ : List Nat
  bad : Bool
  deriving DecidableEq, Repr

/-- A lasting or passing fault of one of the two combine datapaths of a region's tree engine (R290, log entry 5): `flip` is XORed to
what the copy computes for an element. -/
structure CombFault where
  region : Nat
  second : Bool
  elem : Nat
  flip : BitVec 48
  once : Bool
  deriving DecidableEq, Repr

/-! ### What the module has sent -/

/-- How a datagram is addressed (R422): own and collector's MAC and IPv4 addresses and ports, and the don't-fragment flag. -/
structure UdpHead where
  srcMac : BitVec 48
  dstMac : BitVec 48
  srcIp : Word
  dstIp : Word
  srcPort : Nat
  dstPort : Nat
  df : Bool := true
  deriving DecidableEq, Repr

/-- Everything the module puts out, oldest first. -/
inductive Out where
  /-- A message to a host port (R361): opcode, address, tag, status, grant, data slots. -/
  | quexon (p : QPort) (op addr tag status grant : Nat) (data : List Row)
  /-- A flit on a Quexon port, sent first or again (R359, R360): header and slots 1 to 15. -/
  | flit (p : QPort) (header : BitVec 128) (slots : List (BitVec 128))
  /-- A control block on a fabric link (R220). -/
  | block (port : Nat) (b : BitVec 256)
  /-- A packet and its trailer block on a fabric link (R220 to R222, R224). -/
  | packet (port seq : Nat) (pkt : Packet) (stomp : Bool) (trailer : BitVec 256)
  /-- The packet in transmission on a fabric link is cut short (R230). -/
  | cut (port : Nat)
  /-- A training sequence of a fabric port: own module ID, port number and expected receive SEQ (R218, R230). -/
  | training (port id own expect : Nat)
  /-- A register read result given to an agent. -/
  | value (ag : Agent) (addr : Nat) (v : BitVec 64)
  /-- The hearth asks the runtime to release the page of a failed row (R195). -/
  | releasePage (region page : Nat)
  /-- A pulse on STROKE_OUT (R42). -/
  | strokeOut
  /-- A datagram on the management port (R422): how it is addressed, and its bytes. -/
  | datagram (udp : UdpHead) (kind first offset : Nat) (bytes : List (BitVec 8))
  /-- An ARP answer: the address asked for, and the module's own MAC address (R422). -/
  | arp (ip : Word) (mac : BitVec 48)
  /-- A message on the I3C bus (R415 to R417): which exchange, and its bytes in transmission units of at most 64 B. -/
  | reply (what : Nat) (units : List (List (BitVec 8)))
  /-- An I3C In-Band Interrupt (R415, R421). -/
  | ibi
  /-- A JTAG TDO bit or register, driven in the shift states (R397, R426). -/
  | tdo (v : Word)
  /-- What the CLK_OBS pin carries from now on: the clock chosen, its region, and DIV; DIV = 0 holds the pin low (R414). -/
  | clkObs (src region div : Nat)
  deriving DecidableEq, Repr

/-! ### Power-on, flash and the always-on domain (R333 to R345, R382 to R392) -/

/-- The shutdown record of module flash (R333). -/
structure ShutRec where
  failed : List Nat
  repairs : List SramLine
  epoch : Nat
  at_ : Nat
  consumed : Bool := false
  crcOk : Bool := true
  deriving DecidableEq, Repr

/-- An event record with its number (R421). -/
structure LogRec where
  seq : Nat
  rec_ : Rec
  deriving DecidableEq, Repr

/-- Fuses, module flash and the monotonic store: what survives every loss of power. `badSlices` are the slices a drain was
requested for (R337), `fwPrev` the copies of firmware replaced last (R417), `assayBoot` the assay set of the last bring-up (R403), and
`idChain` the vendor CA and device identity certificates written at manufacture (R389). -/
structure Flash where
  variant : Nat := 1
  badFuse : List Nat := []
  deviceId : BitVec 64 := 1
  mac : BitVec 48 := 1
  secret : BitVec 256 := 0
  rootHash : BitVec 512 := 0
  root : BitVec 256 := 0
  vks : List (BitVec 256) := [0, 0, 0, 0]
  manifestSig : BitVec 512 := 0
  revoked : BitVec 4 := 0
  minSvn : Nat := 0
  lifecycle : Nat := 0
  zeroPend : Bool := false
  owner : Option (BitVec 256) := none
  fence : List Nat := []
  sramFix : List SramLine := []
  sysCfg : Option (Nat × Nat) := none
  shut : Option ShutRec := none
  laneDis : Tbl Nat := []
  replaceSoon : Bool := false
  drain : Option Nat := none
  badSlices : List Nat := []
  checkers : Tbl Nat := []
  fw : Tbl Image := [(1, { data := [], signer := 0, svn := 0, advance := false, sig := 0 }),
    (2, { data := [], signer := 0, svn := 0, advance := false, sig := 0 })]
  fwNew : Tbl Image := []
  fwPrev : Tbl Image := []
  verified : List Nat := []
  activated : List Nat := []
  assay : Option Image := none
  assayPrev : Option Image := none
  assayBoot : Option Image := none
  idChain : List (BitVec 8) := []
  postMortem : List LogRec := []
  postRst : Word := 0
  deriving DecidableEq, Repr

/-- The always-on domain: supplies and pins, always-on time in 1/16 ns, excursion log, what the last bring-up left (bad cores, whether
it reached READY), the pins it drives, missed heartbeats, a bring-up in progress, one that waits for PERST_N (whether it is warm, and
its environment), a shutdown that waits for resets to end, the environment of a PWR_EN assertion that came before the auxiliary supply
(R428), and what the last bring-up derived from the device secret: identity key, alias key and the signature of the alias certificate
(R382, R389). -/
structure Aon where
  aux : Bool := false
  epoch : Nat := 0
  time : Nat := 0
  main : Bool := false
  pwrEn : Bool := false
  mainBad : Bool := false
  powered : Bool := false
  lastReady : Bool := false
  recovery : Bool := false
  bad : List Nat := []
  excursion : Bool := false
  pgood : Bool := false
  thermtrip : Bool := false
  alert : Bool := false
  cable : Bool := false
  pwrcyc : Bool := false
  crystal : Bool := true
  missed : Nat := 0
  hearthDead : Bool := false
  booting : Bool := false
  waitPerst : Option (Bool × BootEnv) := none
  shutWait : Option BistResult := none
  pwrEnv : Option BootEnv := none
  idKey : BitVec 256 := 0
  aliasKey : BitVec 256 := 0
  aliasCert : BitVec 512 := 0
  deriving DecidableEq, Repr

/-- The power controller (R398 to R402): samples of the last millisecond, peak since the boundary, latest sensor values, VIN_LOW
of the last 100 samples, brake (floor in force) and throttle, time of the last ACLK step, XCLK at half of ACLK in force (R408), an exit from I2 under way or done, stroke and
CYCLE of a brake release whose record awaits the boundary that applies it (R404), what the CLK_OBS pin carries (source, region, DIV,
R414), and the sensor readings of R416 held at the last boundary. -/
structure Power where
  samples : List Nat := []
  peak : Nat := 0
  tj : Int := 0
  vin : Nat := 0
  iin : Nat := 0
  low : List Bool := []
  brake : Bool := false
  dropNext : Bool := false
  liftNext : Bool := false
  throttle : Bool := false
  lastStep : Nat := 0
  xdiv2 : Bool := false
  leaving : Bool := false
  runNext : Bool := false
  relAt : Option (Nat × Nat) := none
  clkObs : Nat × Nat × Nat := (0, 0, 0)
  held : Tbl Int := []
  deriving DecidableEq, Repr

/-! ### Assay (R305 to R328) -/

/-- What the assay manager holds for a physical core: next segment, the set of its pass, whether a mismatch of the segment awaits its
rerun, the first cycle of the segment running and whether it is one of a targeted assay, the number of its store accesses, the job rows in its save buffer with the errors they
hold, the job tile in its assay slot (R311), end of its last pass, strokes without a segment, whether it has gained one in this stroke,
the cores that must have a turn first after it has yielded, OVERDUE, whether its pass has seen a confirmed failure, and its counts. -/
structure AsyCore where
  seg : Nat := 0
  set_ : Nat := 0
  rerun : Bool := false
  running : Option Nat := none
  tgt : Bool := false
  fl : Nat := 0
  saved : Tbl (Row × BitVec 1152) := []
  slot : Option (Nat × Tbl (BitVec 46)) := none
  since : Nat := 0
  idle : Nat := 0
  gained : Bool := false
  waits : List Nat := []
  overdue : Bool := false
  failed : Bool := false
  passes : Nat := 0
  fails : Nat := 0
  abandons : Nat := 0
  deriving DecidableEq, Repr

/-- The targeted assay under way (R315): its core, class and logical number, the segments still to run, and the first mismatch (segment,
MISR XOR golden, test area). -/
structure AsyTgt where
  gp : Nat
  cls : Nat
  lcore : Nat
  left : List Nat := []
  miss : Option (Nat × BitVec 64 × Nat) := none
  deriving DecidableEq, Repr

/-! ### Resets and dumps (R348 to R357) -/

/-- A reset that is to run: level, level first requested, whether an escalation starts it, context or global logical core it names, what
it finds, and the time of the first request in 1/16 ns. -/
structure RstGo where
  level : Nat
  origin : Nat
  esc : Bool := false
  ctx : Nat := 0
  gl : Nat := 0
  env : RstEnv := {}
  since : Nat := 0
  deriving DecidableEq, Repr

/-- A reset in progress: level, level first requested, contexts, logical core of an engine reset, cores and slices that have
still to complete zeroisation, those of its whole scope, and the time of its request in 1/16 ns. -/
structure RstJob where
  level : Nat
  origin : Nat
  ctxMask : Nat
  lcore : Option Nat := none
  cores : List Nat
  slices : List Nat := []
  allCores : List Nat := []
  allSlices : List Nat := []
  since : Nat := 0
  deriving DecidableEq, Repr

/-- What a dump covers (R355). -/
inductive DumpScope where
  | module
  | blocks (bs : List Nat)
  | core (gl : Nat)
  deriving DecidableEq, Repr

/-- What waits for the capture in progress to complete (R355, R357): a DUMP_CTL request, or a reset, which takes that capture for its own
when their scopes are the same (`join`). -/
inductive DumpWait where
  | ctl (val : Word) (silent : List Nat)
  | rst (join : Bool) (r : RstGo)
  deriving DecidableEq, Repr

/-- A unit record of a dump: page address, words, no answer, store rows. -/
structure DumpUnit where
  addr : Nat
  words : List Word
  silent : Bool := false
  rows : List Row := []
  deriving DecidableEq, Repr

/-- A dump (R357), and the bytes of it that have been streamed (R423). -/
structure Dump where
  seq : Nat
  stroke : Nat
  trigger : Nat
  ctxMask : Nat
  id : Nat
  scope : DumpScope := .module
  units : List DumpUnit
  store : Bool := false
  slot : Option Nat := none
  sent : Nat := 0
  deriving DecidableEq, Repr

/-! ### Management (R415 to R423) -/

/-- A firmware update in progress (R417, R418): component numbers passed, component being transferred, its data. -/
structure Update where
  comps : List Nat := []
  current : Option Nat := none
  data : List (BitVec 8) := []
  deriving DecidableEq, Repr

/-- The girth timing exchange (R281 to R283): times in 1/16 ns after the boundary of the stroke named in SYNC, exchange
number, sender of the last SYNC, its stroke number, PATH_LOCKED last received, and when each child's SYNC was sent. -/
structure TimeX where
  t1 : Int := 0
  t2 : Int := 0
  t3 : Int := 0
  exch : Nat := 0
  sender : Nat := 0
  stroke : Nat := 0
  parentLocked : Bool := false
  heard : Bool := false
  deriving DecidableEq, Repr


/-- The whole block. `openPages` is the open row of each DRAM bank, `hotDevs` the ranks that need refresh above 2× (R191), `patrolAt` the
next patrol address of each channel, `xbarRR` and `netRR` the round-robin pointers of crossbar and router outputs (R201, R208),
`memWrs` the writes under way and `class2` the class-2 requests that wait at a controller, oldest first (R188),
`supp` the classes a core has recorded in this stroke and `suppNext` those it has recorded since s48, which count in the next (R11, R46);
`vcCov` the times that VC_FULL of a unit has counted, `netPend` degraded tables that wait for their adoption (R213);
`reserve` the assay sets in the module reserve, the one in use first: every region holds the same in its two slots (R305, R339);
`brandBase` is the brand of a hide that `dramBrand` does not list; `freeCtr` counts the free values taken (log
entry 4), and is no state of the spec; `pending` is the queue of waiting commands. -/
structure State where
  regs : Tbl Word := []
  shadow : Tbl Word := []
  gen : Gen := {}
  cores : Tbl Core := []
  supp : List (Nat × Nat) := []
  suppNext : List (Nat × Nat) := []
  cap : Tbl Capture := []
  win : Tbl WinCnt := []
  winPar : Tbl WinPar := []
  recQ : List Rec := []
  net : List NetPkt := []
  arrived : List NetPkt := []
  mem : List Host.Cell := []
  dbg : Option DbgSession := none
  perturbed : List Nat := []
  nextXfer : Nat := 0
  xfers : List Xfer := []
  reqs : List RowReq := []
  memWrs : List MemWr := []
  class2 : List (Nat × Class2) := []
  flows : List RxFlow := []
  ceBursts : Tbl (List Nat) := []
  openPages : Tbl Nat := []
  hotDevs : List (Nat × Nat) := []
  patrolAt : Tbl Nat := []
  xbarRR : Tbl Nat := []
  netRR : Tbl Nat := []
  vcCov : Tbl (List (Nat × Nat)) := []
  repairs : List (Nat × Nat) := []
  retirePend : List (Nat × Nat) := []
  dramBrand : Tbl (Option Word) := []
  brandBase : Option Word := none
  dramUpset : Tbl (BitVec 528) := []
  slices : Tbl Row := []
  sliceUpset : Tbl (BitVec 1152) := []
  sliceBrand : Tbl (Option Word) := []
  sliceZero : List Nat := []
  qa : QState := {}
  qb : QState := {}
  vecHeld : Tbl Nat := []
  cache : Tbl CLine := []
  engines : Tbl CtxEng := []
  links : Tbl FabLink := []
  posted : Tbl (BitVec 16) := []
  live : Tbl Nat := []
  barriers : Tbl Barrier := []
  girth0 : GirthTree := {}
  girth1 : GirthTree := {}
  keys : List TreeKey := []
  treeFaults : List (Nat × Nat) := []
  combFaults : List CombFault := []
  out : List Out := []
  badLinks : List (Nat × Nat) := []
  netDegrade : Bool := false
  netPend : Bool := false
  held : List Nat := []
  memHeld : Bool := false
  aon : Aon := {}
  flash : Flash := {}
  pow : Power := {}
  asy : Tbl AsyCore := []
  asyTurn : Tbl (Option Nat) := []
  asyTgt : Option AsyTgt := none
  asyFrom : Nat := 0
  asyAt : Nat := 0
  reserve : List Image := []
  heals : List (Nat × Nat × Bool) := []
  cfgLost : List Nat := []
  rst : List RstJob := []
  dump : Option Dump := none
  dumpWait : List DumpWait := []
  dumpSlots : Tbl Dump := []
  dumpNext : Nat := 0
  resend : Option Nat := none
  log : List LogRec := []
  recent : List LogRec := []
  streamSeq : Tbl Nat := []
  update : Option Update := none
  time : TimeX := {}
  entropyBad : List Nat := []
  epRetire : Option Nat := none
  nonceCtr : Nat := 0
  jtag : Bool := false
  freeCtr : Nat := 0
  pending : List Instr := []
  deriving DecidableEq, Repr

/-- The block right after reset (log entry 3): no auxiliary supply, nothing powered, every register at its reset value.
PWR_CTL.TARGET and PWR_STAT.LIMIT hold the fused values of variant -L. -/
def State.reset : State :=
  { regs := [(modAddr 8 0 0x100, 1250), (modAddr 8 0 0x108, 3000 * 2 ^ 11)] }

end Sys2Proof.Machine
end

