-- ==== Sys2Proof/Machine/Ops.lean ====
section
/-! DEFINITION. The named operations on the state that the meanings share: register access, unit pages, the block map,
contexts, error capture and records, and memory. -/

namespace Sys2Proof.Machine

/-- A command's outcome; operands that name no unit of the module stop the machine (log entry 36). -/
def inRange (c : Instr) (o : Host.Outcome State Fault Refusal) : Host.Outcome State Fault Refusal :=
  if c.wf then o else .fault .noSuchUnit

/-! ### Fields -/

/-- Bits [hi:lo] of a word (R6). -/
def fld (w : Word) (hi lo : Nat) : Nat := w.toNat / 2 ^ lo % 2 ^ (hi + 1 - lo)

/-- The word with bits [hi:lo] replaced by the low bits of `v`. -/
def setFld (w : Word) (hi lo v : Nat) : Word :=
  BitVec.ofNat 32 (w.toNat - fld w hi lo * 2 ^ lo + v % 2 ^ (hi + 1 - lo) * 2 ^ lo)

/-- A flag as a number. -/
def bit (b : Bool) : Nat := if b then 1 else 0

/-! ### Registers: the committed value has one home, the pending value of an RWS register another (R7) -/

/-- Committed value of the register at an address. -/
def State.rd (s : State) (a : Nat) : Word := Tbl.get (resetOf a) s.regs a

/-- Set the committed value of the register at an address. -/
def State.wr (s : State) (a : Nat) (v : Word) : State := { s with regs := Tbl.set (resetOf a) s.regs a v }

/-- A field of a register. -/
def State.rf (s : State) (a hi lo : Nat) : Nat := fld (s.rd a) hi lo

/-- Set a field of a register. -/
def State.wf (s : State) (a hi lo v : Nat) : State := s.wr a (setFld (s.rd a) hi lo v)

/-- Add to a field of a register, saturating at its width (R28 and the counters of every chapter). -/
def State.bump (s : State) (a hi lo n : Nat) : State :=
  s.wf a hi lo (min (s.rf a hi lo + n) (2 ^ (hi + 1 - lo) - 1))

/-- Raise a field of a register to at least a value. -/
def State.raise (s : State) (a hi lo n : Nat) : State := s.wf a hi lo (max (s.rf a hi lo) (min n (2 ^ (hi + 1 - lo) - 1)))

/-- A byte of a register page (R25: byte tables are read through 32-bit registers). -/
def State.rdByte (s : State) (a : Nat) : Nat := s.rf (a / 4 * 4) (8 * (a % 4) + 7) (8 * (a % 4))

/-- Set a byte of a register page. -/
def State.wrByte (s : State) (a v : Nat) : State := s.wf (a / 4 * 4) (8 * (a % 4) + 7) (8 * (a % 4)) v

/-- Value last written to an RWS register, pending or committed. -/
def State.rdPend (s : State) (a : Nat) : Word := (Tbl.find? s.shadow a).getD (s.rd a)

/-- A 64-bit value over two consecutive registers, lower address first (R25). -/
def State.rd64 (s : State) (a : Nat) : Nat := (s.rd a).toNat + (s.rd (a + 4)).toNat * 2 ^ 32

/-- Set two consecutive registers. -/
def State.wr64 (s : State) (a v : Nat) : State :=
  (s.wr a (BitVec.ofNat 32 v)).wr (a + 4) (BitVec.ofNat 32 (v / 2 ^ 32))

/-- Index of the next free value; the counter moves on (log entry 4). -/
def State.fresh (s : State) : Nat × State := (s.freeCtr, { s with freeCtr := s.freeCtr + 1 })

/-! ### Unit pages -/

/-- Page of a physical core `gp = 80·region + 10·block + p` (R22). -/
def corePg (gp : Nat) : Nat := regionAddr (gp / 80) (gp / 10 % 8) (0x10 + gp % 10) 0 0

/-- Page of a logical core by its global number (R14, R22). -/
def logPg (gl : Nat) : Nat := regionAddr (gl / 64) (gl / 8 % 8) (gl % 8) 0 0

/-- Crossbar page of block `8·region + block`. -/
def xbarPg (b : Nat) : Nat := regionAddr (b / 8) (b % 8) 0x20 0 0

/-- Slice page of slice `64·region + 8·block + slice`. -/
def slicePg (n : Nat) : Nat := regionAddr (n / 64) (n / 8 % 8) (0x21 + n % 8) 0 0

/-- Block router page. -/
def routerPg (b : Nat) : Nat := regionAddr (b / 8) (b % 8) 0x30 0 0

/-- Region controller page. -/
def rcPg (r page : Nat) : Nat := regionAddr r 0xE 0 page 0

/-- Memory controller page of `mc = 2·region + channel`. -/
def mcPg (mc : Nat) : Nat := regionAddr (mc / 2) 0xE (1 + mc % 2) 0 0

/-- Die-mesh page. -/
def meshPg (r : Nat) : Nat := regionAddr r 0xE 3 0 0

/-- Edge-link page, direction 0 to 3. -/
def edgePg (r d : Nat) : Nat := regionAddr r 0xE (4 + d) 0 0

/-- Buckle bank page. -/
def bankPg (r page : Nat) : Nat := regionAddr r 0xE 8 page 0

/-- Module unit page. -/
def modPg (unit page : Nat) : Nat := modAddr unit page 0

/-! ### The block map (R14) -/

/-- Physical core that carries a logical core by its block's BLOCK_MAP; none when absent (R14, R16, R23). -/
def State.physOf (s : State) (gl : Nat) : Option Nat :=
  let n := s.rf (xbarPg (gl / 8) + 0x100) (4 * (gl % 8) + 3) (4 * (gl % 8))
  if n = 0xF then none else some (gl / 8 * 10 + n)

/-- Global logical number that a physical core carries, if any. -/
def State.logOf (s : State) (gp : Nat) : Option Nat :=
  ((List.range 8).find? (fun l =>
    decide (s.rf (xbarPg (gp / 10) + 0x100) (4 * l + 3) (4 * l) = gp % 10))).map (fun l => gp / 10 * 8 + l)

/-- State of a physical core in BLOCK_PHYS: 0 active, 1 spare, 2 fenced (R14, R16). -/
def State.physState (s : State) (gp : Nat) : Nat := s.rf (xbarPg (gp / 10) + 0x104) (2 * (gp % 10) + 1) (2 * (gp % 10))

/-- Address of the partition byte of a logical core (R369). -/
def partAddr (gl : Nat) : Nat := rcPg (gl / 64) 1 + 0x100 + gl % 64

/-- Address of the partition byte of a slice `64·region + 8·block + slice` (R369). -/
def partSliceAddr (n : Nat) : Nat := rcPg (n / 64) 1 + 0x140 + n % 64

/-- Context a partition byte names (R369). -/
def partCtx (b : Nat) : Option Nat := if b / 128 % 2 = 1 then some (b % 16) else none

/-- Context that owns a logical core. -/
def State.logCtx (s : State) (gl : Nat) : Option Nat := partCtx (s.rdByte (partAddr gl))

/-- Context that owns the logical core a physical core carries. -/
def State.coreCtx (s : State) (gp : Nat) : Option Nat := (s.logOf gp).bind s.logCtx

/-! ### Cores -/

/-- PWR_STAT.STATE: 0 P0, 1 P1, 2 I1, 3 I2 (R398). -/
def State.pwrState (s : State) : Nat := s.rf (modPg 8 0 + 0x108) 31 29

/-- The core's state outside its registers. -/
def State.core (s : State) (gp : Nat) : Core := Tbl.get {} s.cores gp

/-- Replace a core's state. -/
def State.setCore (s : State) (gp : Nat) (c : Core) : State := { s with cores := Tbl.set {} s.cores gp c }

/-- Change a core's state. -/
def State.modCore (s : State) (gp : Nat) (f : Core → Core) : State := s.setCore gp (f (s.core gp))

/-- UNIT_CTL.ENABLE of a core is committed, and the core is neither fenced, being zeroised, held in reset, clock-gated nor
power-gated (R26, R46, R157, R350, R398). -/
def State.coreOn (s : State) (gp : Nat) : Bool :=
  decide (s.rf (corePg gp + 0x10) 0 0 = 1) && decide (s.rf (corePg gp + 0x10) 1 1 = 0) && !(s.core gp).zeroing
    && !s.held.contains (gp / 10) && decide (s.pwrState < 2)

/-- A crossbar port that is not granted: its core is fenced (by BLOCK_PHYS, or by a committed UNIT_CTL.FENCE), spare or being
zeroised (R26, R203). -/
def State.portShut (s : State) (gp : Nat) : Bool :=
  decide (s.physState gp ≠ 0) || decide (s.rf (corePg gp + 0x10) 1 1 = 1) || (s.core gp).zeroing

/-! ### Time -/

/-- STROKE_COUNT (R36). -/
def State.stroke (s : State) : Nat := s.rd64 (modPg 0 0 + 0x108) % 2 ^ 40

/-- When an error is found: its CYCLE (R420) in bits [15:0], and above them the exact time, by which R30 tells whether two errors
fall in one cycle. -/
def stamp (code exact : Nat) : Nat := code % 2 ^ 16 + exact * 2 ^ 16

/-- CYCLE of a stamp. -/
def stampCycle (w : Nat) : Nat := w % 2 ^ 16

/-- A body cycle of a core (R420). -/
def bodyCycle (cyc : Nat) : Nat := stamp (min cyc 0xFFBF) cyc

/-- A seam cycle (R420); the seam ends the stroke, so it is later than every body cycle. -/
def seamCycle (sc : Nat) : Nat := stamp (0xFFC0 + sc) (2 ^ 40 + sc)

/-- Seam cycle s48, from which R11 counts in the next stroke (R46). -/
def seam48 : Nat := 2 ^ 40 + 48

/-- Cycle `cyc` of a core, counted from body cycle 0: a body cycle, or a cycle of the seam that has begun (R420). -/
def State.coreAt (s : State) (cyc : Nat) : Nat :=
  match s.gen.s0 with
  | some b => if b ≤ cyc then seamCycle (cyc - b) else bodyCycle cyc
  | none => bodyCycle cyc

/-- ACLK now in MHz (PWR_STAT). -/
def State.aclk (s : State) : Nat := s.rf (modPg 8 0 + 0x108) 10 0

/-- Time of a body cycle in 1/16 ns (R32, R35). -/
def State.cycleAt (s : State) (cyc : Nat) : Nat := s.gen.base + cyc * 16000 / max 1 s.aclk

/-- Time at which a core stands. -/
def State.coreTime (s : State) (gp : Nat) : Nat := s.cycleAt (s.core gp).now

/-- TCLK time `t` ns after the boundary, for any unit but a core (R420). Errors found in one ns count as found in one cycle (DESIGN
CHOICE, log entry 56). -/
def tclkCycle (t : Nat) : Nat := stamp (min (t / 256) 0xFFFF) t

/-! ### The clock ratio (R409) -/

/-- The part's fused maximum ACLK in MHz (R3). -/
def State.maxAclk (s : State) : Nat := Config.maxAclk s.flash.variant

/-- TARGET as it acts: a 25 MHz step from 400 to the fused maximum (PWR_CTL). -/
def State.target (s : State) : Nat := max 400 (min s.maxAclk (s.rf (modPg 8 0 + 0x100) 10 0 / 25 * 25))

/-- NCLK is at least 0.8 of the ACLK ceiling, or no clock runs, or the PLLs coast (R409, R412). -/
def State.ratioOk (s : State) : Bool :=
  let a := modPg 5 0 + 0x104
  decide (s.rf a 10 0 = 0) || decide (s.rf a 30 30 = 1) || decide (8 * s.target ≤ 10 * s.rf a 10 0)

/-! ### Errors and records (R26 to R31, R419, R420) -/

/-- Put a record on its way to the active hearth. -/
def State.emit (s : State) (r : Rec) : State := { s with recQ := s.recQ ++ [r] }

/-- Whether an error counter can still count (R28). -/
def State.counts (s : State) (pg : Nat) (ue : Bool) : Bool := decide (s.rd (pg + (if ue then 0x24 else 0x20)) ≠ 0xFFFFFFFF)

/-- ERR_CE_CNT or ERR_UE_CNT of a page counts one; CNT_SAT is set when it reaches its end, and by nothing later (R26, R28). -/
def State.errUp (s : State) (pg : Nat) (ue : Bool) : State :=
  let a := pg + (if ue then 0x24 else 0x20)
  let t := s.bump a 31 0 1
  if s.counts pg ue && !t.counts pg ue then t.wf (pg + 0x18) 31 31 1 else t

/-- Count an error and set its source bit (R26, R28); only corrected and uncorrected errors have counters. -/
def State.countErr (s : State) (pg bitNo sev : Nat) : State :=
  let s := s.wf (pg + 0x18) bitNo bitNo 1
  if sev = 0 then s.errUp pg false else if 2 ≤ sev then s.errUp pg true else s

/-- ERR_INFO1: STROKE[39:32] in [31:24] and CYCLE in [15:0] (R26). -/
def errInfo1 (stroke cyc : Nat) : Word := BitVec.ofNat 32 (stroke / 2 ^ 32 % 256 * 2 ^ 24 + cyc % 2 ^ 16)

/-- Write the capture of the first error (R26, R29). -/
def State.writeCapture (s : State) (pg bitNo sev cls cyc : Nat) (synd : BitVec 64) : State :=
  let s := s.wr (pg + 0x28) (BitVec.ofNat 32 (0x100 + cls % 256))
  let s := s.wr (pg + 0x30) (BitVec.ofNat 32 s.stroke)
  let s := s.wr (pg + 0x34) (errInfo1 s.stroke cyc)
  let s := s.wr64 (pg + 0x38) synd.toNat
  { s with cap := Tbl.put s.cap pg { sev := sev, bit := bitNo, at_ := cyc } }

/-- The first error after ERR_STAT became all zero is captured (R29), whatever the order in which the errors of one stroke are
reported here; of errors detected in one cycle the one of higher severity, then of lower bit position (R30). Once ERR_STAT is all zero
again, the capture and its VALID stand until the next error takes their place (DESIGN CHOICE, log entry 69). -/
def State.capture (s : State) (pg bitNo sev cls cyc : Nat) (synd : BitVec 64) : State :=
  if s.rd (pg + 0x18) = 0 then s.writeCapture pg bitNo sev cls cyc synd
  else
    let stroke := s.rd (pg + 0x30) = BitVec.ofNat 32 s.stroke ∧ fld (s.rd (pg + 0x34)) 31 24 = s.stroke / 2 ^ 32 % 256
    match Tbl.find? s.cap pg with
    | none => s
    | some c =>
      let sooner := decide (cyc / 2 ^ 16 < c.at_ / 2 ^ 16)
      let same := decide (cyc / 2 ^ 16 = c.at_ / 2 ^ 16) && (decide (c.sev < sev) || (decide (c.sev = sev) && decide (bitNo < c.bit)))
      if stroke ∧ (sooner || same) = true then s.writeCapture pg bitNo sev cls cyc synd else s

/-- Whether a page's REPORT_LVL suppresses records of a severity (R26). -/
def State.lvlSuppresses (s : State) (pg sev : Nat) : Bool :=
  let l := s.rf (homeAddr (pg + 0x10)) 3 2
  (decide (l = 1) && decide (sev = 0)) || (decide (l = 2) && decide (sev ≤ 1))

/-- Classes that a core has recorded in the stroke an error counts in: one found from s48 on counts in the next (R11, R46). -/
def State.suppAt (s : State) (cyc : Nat) : List (Nat × Nat) := if seam48 ≤ cyc / 2 ^ 16 then s.suppNext else s.supp

/-- Mark a class as recorded by a core. -/
def State.suppMark (s : State) (cyc pg cls : Nat) : State :=
  if seam48 ≤ cyc / 2 ^ 16 then { s with suppNext := s.suppNext ++ [(pg, cls)] } else { s with supp := s.supp ++ [(pg, cls)] }

/-- A record of a core unless masked (R27), suppressed (R26), or its class already emitted this stroke (R11). -/
def State.emitCore (s : State) (gp bitNo sev cls cyc : Nat) (synd : BitVec 64) : State :=
  let pg := corePg gp
  if s.rf (pg + 0x1C) bitNo bitNo = 1 ∧ sev < 3 then s
  else if s.lvlSuppresses pg sev then s
  else if (s.suppAt cyc).contains (pg, cls) then s
  else
    let src := match s.logOf gp with
      | some gl => logPg gl
      | none => pg
    (s.emit { stroke := s.stroke, cycle := stampCycle cyc, src := src, pcore := gp % 10, cls := cls, sev := sev,
              ctx := s.coreCtx gp, synd := synd }).suppMark cyc pg cls

/-- An error or deviation of a core: source bit, count, capture and record (R11, R26 to R30). The source bits of a core
page are the severity's number (log entry 12). -/
def State.coreErr (s : State) (gp sev cls cyc : Nat) (synd : BitVec 64) : State :=
  let s := s.capture (corePg gp) sev sev cls cyc synd
  let s := s.countErr (corePg gp) sev sev
  s.emitCore gp sev sev cls cyc synd

/-- Lowest ERR_STAT source bit set (R420). -/
def lowBit (w : Word) : Nat := ((List.range 31).find? (fun i => decide (fld w i i = 1))).getD 0

/-- Window parameters of a region. -/
def State.winParOf (s : State) (r : Nat) : WinPar := Tbl.get {} s.winPar r

/-- The window count of a unit page. -/
def State.winOf (s : State) (pg : Nat) : WinCnt := Tbl.get {} s.win pg

/-- The threshold record of a unit and counter (R31, R420). `ue` names the counter. -/
def State.thrRec (s : State) (pg : Nat) (ue : Bool) (count cyc : Nat) : State :=
  let l := locOf pg
  let cls := s.rf (pg + 0x28) 7 0
  let governs := if l.blk < 8 then rcPg l.region 0 else pg
  let sev := if ue then 2 else 0
  if !ue && s.lvlSuppresses governs 0 then s
  else
    s.emit { stroke := s.stroke, cycle := stampCycle cyc, src := pg, cls := cls, sev := sev,
             synd := BitVec.ofNat 64 (if cls = 0x7F then lowBit (s.rd (pg + 0x18)) else s.rd64 (pg + 0x38)),
             aux := BitVec.ofNat 64 (1 + bit ue * 4 + lowBit (s.rd (pg + 0x18)) * 8 + count % 2 ^ 32 * 2 ^ 32) }

/-- The record of one chip-level error (R10, R13); UF records are never suppressed (R27). -/
def State.chipRec (s : State) (pg sev cls cyc : Nat) (synd : BitVec 64) (ctx : Option Nat := none) : State :=
  if s.lvlSuppresses pg sev ∧ sev < 3 then s
  else s.emit { stroke := s.stroke, cycle := stampCycle cyc, src := pg, cls := cls, sev := sev, synd := synd, ctx := ctx, chip := true }

/-- A chip-level record of an error source of a page, unless the source is masked (R27). -/
def State.srcRec (s : State) (pg bitNo sev cls cyc : Nat) (synd : BitVec 64) : State :=
  if s.rf (homeAddr (pg + 0x1C)) bitNo bitNo = 1 ∧ sev < 3 then s else s.chipRec pg sev cls cyc synd

/-- Absent logical cores of the module (HEAL_STAT.ABSENT). -/
def State.absentCount (s : State) : Nat := ((List.range 4096).filter (fun gl => (s.physOf gl).isNone)).length

/-- A slice that a drain is requested for is kept (R337). -/
def State.noteSlice (s : State) (src : Nat) : State :=
  let l := locOf src
  let n := 64 * l.region + 8 * l.blk + (l.unit - 0x21)
  let fl := { s.flash with badSlices := if s.flash.badSlices.contains n then s.flash.badSlices else s.flash.badSlices ++ [n] }
  { s with flash := fl }

/-- The hearth requests a drain once; it is never withdrawn (R326, R328). -/
def State.requestDrain (s : State) (cause region block src cyc : Nat) : State :=
  let s := if cause = 2 then s.noteSlice src else s
  let a := modPg 9 0 + 0x110
  if s.rf a 31 31 = 1 then s
  else
    let s := ((s.wf a 31 30 3).wf a 27 24 cause)
    let fl := { s.flash with drain := some cause, replaceSoon := true }
    let s := { s with flash := fl }
    s.chipRec src 3 0x34 cyc (BitVec.ofNat 64 (cause + region * 2 ^ 4 + block % 8 * 2 ^ 10 + min s.absentCount 0x3FF * 2 ^ 13))

/-- Drain cause of a unit whose control logic fails or whose UE count reaches its threshold (R326): crossbar, slice,
memory controller, region controller. -/
def drainCause (l : Loc) : Option Nat :=
  if l.module then none
  else if l.blk < 8 then (if l.unit = 0x20 then some 1 else if 0x21 ≤ l.unit ∧ l.unit < 0x29 then some 2 else none)
  else if l.unit = 0 then some 4 else if l.unit < 3 then some 3 else none

/-- The drain a failed unit causes (R326). -/
def State.unitDrain (s : State) (pg cyc : Nat) : State :=
  let l := locOf pg
  match drainCause l with
  | some k => s.requestDrain k l.region (if l.blk < 8 then l.blk else 0) pg cyc
  | none => s

/-- Count a unit's error toward its region's window and report when the threshold is reached (R31). -/
def State.window (s : State) (pg sev cyc : Nat) : State :=
  let par := s.winParOf (locOf pg).region
  let w := s.winOf pg
  if sev = 0 then
    let w := { w with ce := w.ce + 1 }
    if par.ce ≠ 0 ∧ par.ce ≤ w.ce ∧ !w.ceDone then
      ({ s with win := Tbl.set {} s.win pg { w with ceDone := true } }).thrRec pg false w.ce cyc
    else { s with win := Tbl.set {} s.win pg w }
  else
    let w := { w with ue := w.ue + 1 }
    if par.ue ≠ 0 ∧ par.ue ≤ w.ue ∧ !w.ueDone then
      (({ s with win := Tbl.set {} s.win pg { w with ueDone := true } }).thrRec pg true w.ue cyc).unitDrain pg cyc
    else { s with win := Tbl.set {} s.win pg w }

/-- Count an error of a unit: its source, its counter, and the window of its region while the counter still counts (R31). -/
def State.countWin (s : State) (pg bitNo sev cyc : Nat) : State :=
  let live := s.counts pg (decide (sev ≠ 0))
  let s := s.countErr pg bitNo sev
  if live then s.window pg sev cyc else s

/-- An error of a block unit or a region-common unit: source bit, counter, capture and threshold (R10, R12, R31). -/
def State.regionErr (s : State) (pg bitNo sev cls cyc : Nat) (synd : BitVec 64) : State :=
  (s.capture pg bitNo sev cls cyc synd).countWin pg bitNo sev cyc

/-- An uncorrectable error of a unit's control logic: it counts, and the first requests the drain (R326). The spec gives it no source
bit (log entry 12). -/
def State.ctrlErr (s : State) (pg cyc : Nat) : State :=
  (if s.counts pg true then (s.errUp pg true).window pg 2 cyc else s).unitDrain pg cyc

/-! ### Memory (R181, R182): module DRAM bytes by their 43-bit local address -/

/-- What an unlisted byte of DRAM reads as (log entry 2). -/
def memDefault : BitVec 8 := 0

/-- A byte of DRAM. -/
def State.memByte (s : State) (a : Nat) : BitVec 8 := Tbl.get memDefault s.mem a

/-- Write a byte of DRAM. -/
def State.setMemByte (s : State) (a : Nat) (v : BitVec 8) : State := { s with mem := Tbl.set memDefault s.mem a v }

/-- Write consecutive bytes. -/
def State.setMemBytes (s : State) (a : Nat) : List (BitVec 8) → State
  | [] => s
  | b :: r => (s.setMemByte a b).setMemBytes (a + 1) r

/-- The 128 B row at an address, little-endian (R6). -/
def State.memRow (s : State) (a : Nat) : Row :=
  BitVec.ofNat 1024 (ofBytesLE ((List.range 128).map (fun i => (s.memByte (a + i)).toNat)))

/-- Write the 128 B row at an address. -/
def State.setMemRow (s : State) (a : Nat) (r : Row) : State :=
  s.setMemBytes a ((rowBytes r).map (BitVec.ofNat 8))

/-- The canonical form of memory: addresses rising, no byte listed that reads as an unlisted one. -/
def Memory.wf (m : List Host.Cell) : Bool := Tbl.wf (fun _ => memDefault) m

end Sys2Proof.Machine
end

