-- ==== Sys2Proof/Machine/HostOut.lean ====
section
/-! DEFINITION. What the module sends to its host ports: messages under credit (R361), and notifications (R377). -/

namespace Sys2Proof.Machine

/-- Page of a Quexon port in module unit 0x03. -/
def qPg (p : QPort) : Nat := match p with | .qa => modPg 3 0 | .qb => modPg 3 1

/-- Control page of a context (R369). -/
def ctxPg (c : Nat) : Nat := modPg 3 (16 + c)

def State.q (s : State) (p : QPort) : QState := match p with | .qa => s.qa | .qb => s.qb
def State.setQ (s : State) (p : QPort) (x : QState) : State :=
  match p with | .qa => { s with qa := x } | .qb => { s with qb := x }

/-- The port is UP at x16 or x8 (Q_STAT). -/
def State.qUp (s : State) (p : QPort) : Bool := decide (s.rf (qPg p + 0x100) 31 28 = 2) || decide (s.rf (qPg p + 0x100) 31 28 = 3)

/-- The port is UP or retraining, which loses no message (R360). -/
def State.qLive (s : State) (p : QPort) : Bool := s.qUp p || decide (s.rf (qPg p + 0x100) 31 28 = 4)

/-- Put something out. -/
def State.send (s : State) (o : Out) : State := { s with out := s.out ++ [o] }

/-- A message cut into `n` transmission units of 64 B, the last one shorter. -/
def cutUnits : Nat → List (BitVec 8) → List (List (BitVec 8))
  | 0, _ => []
  | n + 1, l => l.take 64 :: cutUnits n (l.drop 64)

/-- The transmission units of an MCTP message: 64 B, and none larger (R415). -/
def mctpUnits (l : List (BitVec 8)) : List (List (BitVec 8)) := cutUnits ((l.length + 63) / 64) l

/-- Channel of a message of the module (R361): 0 REQ, 2 RSP. -/
def qChan (op : Nat) : Nat := if op < 0x10 then 0 else 2

/-- DATA slots of a message of the module (R361). -/
def qSlots (m : QMsg) : Nat :=
  match m.op with
  | 0x04 => 8 | 0x05 => 9 | 0x06 => 8 | 0x07 => 1 | 0x1A => 8 | 0x31 => if m.data.length = 1 ∧ m.grant = 4 then 1 else 8
  | _ => 0

/-- Whether a message has every credit it needs (R361). -/
def QLink.canSend (l : QLink) (m : QMsg) : Bool :=
  decide (1 ≤ l.credits.getD (qChan m.op) 0) && decide (qSlots m ≤ l.credits.getD 3 0)

/-- Take a message's credits. -/
def QLink.spend (l : QLink) (m : QMsg) : QLink :=
  let c := l.credits.set (qChan m.op) (l.credits.getD (qChan m.op) 0 - 1)
  { l with credits := c.set 3 (c.getD 3 0 - qSlots m) }

/-- A 128-byte line as eight slots, or the first slot of it. -/
def lineSlots (n : Nat) (r : Row) : List (BitVec 128) := (List.range n).map (fun i => BitVec.ofNat 128 (r.toNat / 2 ^ (128 * i)))

/-- The slots of a message: its header (R361), then its data; a partial write carries its byte mask first. -/
def QMsg.slots (m : QMsg) : List (BitVec 128) :=
  let grant := if m.grant = 4 then 0 else m.grant
  let head := BitVec.ofNat 128 (m.op % 256 + m.tag % 4096 * 2 ^ 8 + m.status % 16 * 2 ^ 20 + grant % 4 * 2 ^ 25 + m.addr % 2 ^ 43 * 2 ^ 32)
  head :: (match m.data with
    | [] => []
    | [r] => lineSlots (qSlots m) r
    | mask :: r :: _ => lineSlots 1 mask ++ lineSlots 8 r)

/-- CRC-64 of a flit over header bits [63:0] and slots 1 to 15 (R359; bit order: log entry 21). -/
def flitCrc (h : Nat) (slots : List (BitVec 128)) : Nat :=
  crcL 64 0x42F0E1EBA9EA3693 0 0 (bytesLE 8 h ++ ((List.range 15).flatMap (fun i => bytesLE 16 (slots.getD i 0).toNat)))

/-- The flit header without ACK, NAK and CRC (R359): SEQ, IDLE and the slots freed since the previous header. -/
def QLink.body (l : QLink) (idle : Bool) : Nat :=
  let f : Nat → Nat := fun i => min (l.freed.getD i 0) 255
  l.tx % 4096 + bit idle * 2 ^ 25 + f 0 * 2 ^ 32 + f 1 * 2 ^ 40 + f 2 * 2 ^ 48 + f 3 * 2 ^ 56

/-- The whole flit header (R359). -/
def QLink.header (l : QLink) (body : Nat) (nak : Bool) (slots : List (BitVec 128)) : BitVec 128 :=
  let h := body + (if nak then l.rx else (l.rx + 4095) % 4096) * 2 ^ 12 + bit nak * 2 ^ 24
  BitVec.ofNat 128 (h + flitCrc h slots * 2 ^ 64)

/-- A header has been sent: the freed slots it carried are told, and the acknowledgement with it. -/
def QLink.told (l : QLink) : QLink := { l with freed := l.freed.map (fun n => n - 255), pendAck := 0 }

/-- Send one flit; it stays in the replay buffer of 1,024 flits (R360). -/
def State.flit (s : State) (p : QPort) (idle nak : Bool) (slots : List (BitVec 128)) : State :=
  let x := s.q p
  let l := x.link
  if 1024 ≤ l.unacked.length then s
  else
    let body := l.body idle
    let s := s.setQ p { x with link := { l.told with tx := (l.tx + 1) % 4096, unacked := l.unacked ++ [(l.tx, body, slots)] } }
    s.send (.flit p (l.header body nak slots) slots)

/-- Send every waiting message whose slots have credit, in order within each channel (R361); each message fills a flit of its
own (log entry 24). -/
def State.qFlushList (s : State) (p : QPort) : List QMsg → List Nat → State
  | [], _ => s
  | m :: r, blocked =>
    let x := s.q p
    if !blocked.contains (qChan m.op) && x.link.canSend m && decide (x.link.unacked.length < 1024) then
      let s := s.setQ p { x with link := x.link.spend m, waiting := x.waiting.erase m }
      let s := s.send (.quexon p m.op m.addr m.tag m.status (if m.grant = 4 then 0 else m.grant) m.data)
      (s.flit p false false m.slots).qFlushList p r blocked
    else s.qFlushList p r (qChan m.op :: blocked)

/-- A NAK that waited for room in the replay buffer goes out (R222, R223). -/
def State.qNakFlush (s : State) (p : QPort) : State :=
  let x := s.q p
  if x.link.nakDue ∧ x.link.unacked.length < 1024 then
    (s.setQ p { x with link := { x.link with nakDue := false } }).flit p true true []
  else s

def State.qFlush (s : State) (p : QPort) : State := if s.qUp p then (s.qNakFlush p).qFlushList p (s.q p).waiting [] else s

/-- Queue a message. -/
def State.qMsg (s : State) (p : QPort) (m : QMsg) : State :=
  let x := s.q p
  (s.setQ p { x with waiting := x.waiting ++ [m] }).qFlush p

/-- Send a request of the module, remembering what it is for. -/
def State.qReq (s : State) (p : QPort) (op addr : Nat) (data : List Row) (why : QWhy) : State :=
  let x := s.q p
  let tag := x.nextTag
  let s := s.setQ p { x with nextTag := (tag + 1) % 4096, reqs := x.reqs ++ [{ tag := tag, addr := addr, why := why }] }
  s.qMsg p { op := op, addr := addr, tag := tag, data := data }

/-- The IntWr of a vector: DATA to ADDR with bit 31 the fault flag (R377). -/
def State.intWr (s : State) (p : QPort) (v : Nat) (fault : Bool) : State :=
  let a := qPg p + 0x400 + 16 * v
  let addr := (s.rd a).toNat + s.rf (a + 4) 7 0 * 2 ^ 32
  s.qReq p 0x07 addr [BitVec.ofNat 1024 (s.rf (a + 8) 30 0 + bit fault * 2 ^ 31)] (.int v)

/-- A notification on a vector (R377). -/
def State.notify (s : State) (p : QPort) (v : Nat) (fault : Bool) : State :=
  let a := qPg p + 0x40C + 16 * v
  if s.rf a 0 0 = 1 then
    let k := (match p with | .qa => 0 | .qb => 64) + v
    let seen := Tbl.get 0 s.vecHeld k
    let s := { s with vecHeld := Tbl.set 0 s.vecHeld k (Nat.lor seen (if fault then 2 else 1)) }
    s.wf a 1 1 1
  else if s.qLive p then s.intWr p v fault
  else s

/-- The port of a context (CTX_CTL.PORT, latched while ACTIVE; R370). -/
def State.ctxEng (s : State) (c : Nat) : CtxEng := Tbl.get {} s.engines c
def State.setCtxEng (s : State) (c : Nat) (e : CtxEng) : State := { s with engines := Tbl.set {} s.engines c e }
def State.ctxActive (s : State) (c : Nat) : Bool := decide (s.rf (ctxPg c + 0x114) 31 31 = 1)
def State.ctxPort (s : State) (c : Nat) : QPort :=
  if s.ctxActive c then (s.ctxEng c).port else if s.rf (ctxPg c + 0x100) 30 30 = 1 then .qb else .qa

end Sys2Proof.Machine
end

