-- ==== Sys2Proof/Machine/Links.lean ====
section
/-! DEFINITION. The torus (R235, R277), and the sending side of a fabric link: credits, replay buffer and channel order
(R223, R225 to R227). -/

namespace Sys2Proof.Machine

/-! ### Live counts of the window under way (R439) -/

/-- Add to the running count of a register that describes the last completed stroke. -/
def State.tick (s : State) (a n : Nat) : State := { s with live := Tbl.set 0 s.live a (Tbl.get 0 s.live a + n) }

/-- Raise the running maximum of such a register. -/
def State.peak (s : State) (a n : Nat) : State := { s with live := Tbl.set 0 s.live a (max (Tbl.get 0 s.live a) n) }

/-! ### The torus (R235, R277) -/

/-- Routing page and girth page. -/
def rtPg : Nat := modAddr 2 16 0
def girthPg : Nat := modAddr 2 17 0
def barrierPg : Nat := modAddr 2 18 0
def fabPg (p : Nat) : Nat := modAddr 2 p 0

/-- Size of a dimension: 0 X, 1 Y, 2 Z (TORUS_DIM). -/
def State.dimN (s : State) (d : Nat) : Nat :=
  (match d with | 0 => s.rf (rtPg + 0x104) 3 0 | 1 => s.rf (rtPg + 0x104) 7 4 | _ => s.rf (rtPg + 0x104) 12 8) + 1

/-- Coordinate of a module ID. -/
def coord (id d : Nat) : Nat := match d with | 0 => id % 16 | 1 => id / 16 % 16 | _ => id / 256 % 32

/-- Module ID with a coordinate replaced. -/
def withCoord (id d v : Nat) : Nat :=
  match d with
  | 0 => id - id % 16 + v
  | 1 => id - id / 16 % 16 * 16 + v * 16
  | _ => id - id / 256 % 32 * 256 + v * 256

/-- The neighbour in a dimension, `plus` or minus (R235). -/
def State.neighbour (s : State) (id d : Nat) (plus : Bool) : Nat :=
  let n := s.dimN d
  withCoord id d (if plus then (coord id d + 1) % n else (coord id d + n - 1) % n)

/-- Every coordinate of an ID lies inside TORUS_DIM. -/
def State.idInside (s : State) (id : Nat) : Bool := (List.range 3).all (fun d => decide (coord id d < s.dimN d))

/-- Port of a direction and rail (R214). -/
def portOf (d : Nat) (plus : Bool) (rail : Nat) : Nat := 4 * d + (if plus then 2 else 0) + rail

/-- Dimension, sign and rail of a port. -/
def portDim (p : Nat) : Nat := p / 4
def portPlus (p : Nat) : Bool := decide (p / 2 % 2 = 1)
def portRail (p : Nat) : Nat := p % 2

/-- The opposite port: the same axis and rail, the other direction (R218). -/
def oppPort (p : Nat) : Nat := portOf (portDim p) (!portPlus p) (portRail p)

/-- State of a port (FAB_STAT). -/
def State.portState (s : State) (p : Nat) : Nat := s.rf (fabPg p + 0x100) 31 28
def State.portUp (s : State) (p : Nat) : Bool := decide (s.portState p = 2) || decide (s.portState p = 3)

/-- A port that is not down: up, or retraining (R229, R231). -/
def State.portLive (s : State) (p : Nat) : Bool := s.portUp p || decide (s.portState p = 4)

/-- Current epoch, and whether a port is enabled in an epoch's bank (R261). -/
def State.epoch (s : State) : Nat := s.rf (rtPg + 0x108) 0 0
def State.portEn (s : State) (bank p : Nat) : Bool := decide (s.rf (rtPg + 0x200 + 0x40 * bank) p p = 1)

/-- First hop of the dimension-order minimal route between two modules: dimension and sign; + on a tie (R277). -/
def State.firstHop (s : State) (a b : Nat) : Option (Nat × Bool) :=
  (List.range 3).findSome? (fun d =>
    let n := s.dimN d
    let k := (coord b d + n - coord a d % n) % n
    if k = 0 then none else some (d, decide (2 * k ≤ n)))

/-- The rail of a direction: a, or b when a is DOWN or disabled in PORT_EN; a when both are DOWN (R277). -/
def State.railOf (s : State) (bank d : Nat) (plus : Bool) : Nat :=
  let live : Nat → Bool := fun r => s.portLive (portOf d plus r)
  if live 0 && s.portEn bank (portOf d plus 0) then 0 else if live 0 || live 1 then 1 else 0

/-- The girth tree of an epoch bank (R277). -/
def State.girthCompute (s : State) (bank : Nat) : GirthTree :=
  let me := s.rf (rtPg + 0x100) 12 0
  let root := s.rf (girthPg + 0x104 + 4 * bank) 12 0
  let dirs := [(0, false), (0, true), (1, false), (1, true), (2, false), (2, true)]
  let kids := dirs.filterMap (fun (x : Nat × Bool) =>
    let nb := s.neighbour me x.1 x.2
    if nb = me then none
    else if s.firstHop nb root = some (x.1, !x.2) then some (portOf x.1 x.2 (s.railOf bank x.1 x.2)) else none)
  match s.firstHop me root with
  | none => { root := true, parent := 0, children := kids }
  | some (d, plus) => { root := false, parent := portOf d plus (s.railOf bank d plus), children := kids }

/-- Epochs whose banks are in use: the current one, and the other while it drains (R261, R263). -/
def State.liveEpochs (s : State) : List Nat := if s.rf (rtPg + 0x108) 28 28 = 1 then [s.epoch, 1 - s.epoch] else [s.epoch]

/-- The girth tree of a bank: as chosen at its activation while the bank is in use, and as its registers and links give it before that,
for a packet of an epoch that is armed (R263, R277). -/
def State.girth (s : State) (bank : Nat) : GirthTree :=
  if s.liveEpochs.contains bank then (if bank = 0 then s.girth0 else s.girth1) else s.girthCompute bank

/-- Both rails of the parent direction are DOWN (R279). -/
def State.parentLost (s : State) : Bool :=
  let g := s.girth s.epoch
  !g.root && !s.portLive g.parent && !s.portLive (Nat.xor g.parent 1)

/-! ### The packet header and control blocks (R220, R221, R238) -/

/-- Fields placed one above another from bit 0: value and width. -/
def packFields : List (Nat × Nat) → Nat
  | [] => 0
  | (v, w) :: r => v % 2 ^ w + packFields r * 2 ^ w

/-- The 512-bit header (R238). -/
def hdrNat (k : Packet) : Nat :=
  packFields [(k.type, 8), (k.vc, 3), (k.epoch, 1), (bit k.last, 1), (bit k.void, 1), (bit k.down, 1), (0, 1), (k.rows, 6),
    (k.dmod, 13), (k.smod, 13), (k.dcore, 12), (k.score, 12), (k.dring, 5), (k.doff, 13), (k.seq, 16), (k.gen, 16), (k.job, 16),
    (k.addr, 43), (k.buckle, 16), (k.tree, 12), (k.opid, 16), (k.rop, 3), (k.rfmt, 2), (k.tag, 6), (k.pidx, 8), (k.taggen, 12),
    (k.brand0.toNat, 32), (k.brand1.toNat, 32), (k.value.toNat, 32), (k.voidmask.toNat, 32)]

/-- Packet CRC: CRC-32C over header and payload (R221). -/
def pktCrc (k : Packet) : Nat := crc32c (bytesLE 64 (hdrNat k) ++ k.payload.flatMap rowBytes)

/-- A field of a control block. -/
def blk (b : BitVec 256) (hi lo : Nat) : Nat := b.toNat / 2 ^ lo % 2 ^ (hi + 1 - lo)

/-- CRC-16 of a control block: bit 239 first (R220; log entry 21). -/
def blockCrc (body : Nat) : Nat := crcL 16 0x8BB7 0 0 (bytesLE 30 body).reverse

/-- A control block with its CRC-16. -/
def mkBlock (body : Nat) : BitVec 256 := BitVec.ofNat 256 (body % 2 ^ 240 + blockCrc (body % 2 ^ 240) * 2 ^ 240)

/-- The CRC-16 of a block passes. -/
def blockOk (b : BitVec 256) : Bool := decide (blk b 255 240 = blockCrc (b.toNat % 2 ^ 240))

/-- The trailer of a packet: SEQ, VC, and the CRC regenerated for this hop; with STOMP the CRC is inverted (R220, R221, R224). -/
def trailerOf (k : Packet) (seq : Nat) (stomp : Bool) : BitVec 256 :=
  mkBlock (packFields [(1, 8), (seq, 12), (k.vc, 3), (bit stomp, 1), (0, 8), (if stomp then Nat.xor (pktCrc k) 0xFFFFFFFF else pktCrc k, 32)])

/-! ### Sending on a link (R223, R225 to R227) -/

def State.link (s : State) (p : Nat) : FabLink := Tbl.get {} s.links p
def State.setLink (s : State) (p : Nat) (l : FabLink) : State := { s with links := Tbl.set {} s.links p l }

/-- Units of 64 B a packet takes: header and payload (R223). -/
def pktUnits (p : Packet) : Nat := 1 + 2 * p.payload.length

/-- Input buffer of a channel in 64 B units (R225). -/
def vcUnits (vc : Nat) : Nat := match vc with | 0 => 65 | 1 => 2048 | 2 => 512 | 3 => 2048 | _ => 1024

/-- The sender's credit of a channel (R226); totals run modulo 2^16. -/
def FabLink.credit (l : FabLink) (vc : Nat) : Nat :=
  vcUnits vc - (l.sent.getD vc 0 + 2 ^ 16 - l.freedSeen.getD vc 0 % 2 ^ 16) % 2 ^ 16

/-- Units in the replay buffer. -/
def FabLink.replayUnits (l : FabLink) : Nat := l.unacked.foldl (fun n x => n + pktUnits x.2) 0

/-- A packet can start: replay buffer of 4,096 units, 2,048 packets, and credit for the whole packet (R223, R226). -/
def FabLink.canSend (l : FabLink) (p : Packet) : Bool :=
  decide (l.replayUnits + pktUnits p ≤ 4096) && decide (l.unacked.length < 2048) && decide (pktUnits p ≤ l.credit p.vc)

/-- The next packet to start: channel 0 first, then channels 1 to 4 round-robin (R227). -/
def FabLink.next (l : FabLink) : Option Packet :=
  let first : Nat → Option Packet := fun vc =>
    (l.waiting.find? (fun p => decide (p.vc = vc))).bind (fun p => if l.canSend p then some p else none)
  match first 0 with
  | some p => some p
  | none => (List.range 4).findSome? (fun i => first ((l.rr - 1 + i) % 4 + 1))

/-- Transmit a packet: it takes the next SEQ and stays in the replay buffer. -/
def FabLink.transmit (l : FabLink) (p : Packet) : FabLink :=
  { l with tx := (l.tx + 1) % 4096, unacked := l.unacked ++ [(l.tx, p)], waiting := l.waiting.erase p,
           sent := l.sent.set p.vc ((l.sent.getD p.vc 0 + pktUnits p) % 2 ^ 16), rr := if p.vc = 0 then l.rr else p.vc % 4 + 1 }

/-- Start every packet that can start. -/
def State.linkFlush (s : State) (p : Nat) : Nat → State
  | 0 => s
  | n + 1 =>
    let l := s.link p
    match l.next with
    | some k => ((s.setLink p (l.transmit k)).send (.packet p l.tx k false (trailerOf k l.tx false))).linkFlush p n
    | none => s

/-- Refresh VC_CRED of a port. -/
def State.credRegs (s : State) (p : Nat) : State :=
  (List.range 5).foldl (fun (s : State) v => s.wf (fabPg p + 0x160 + 4 * v) 15 0 ((s.link p).credit v)) s

/-- Packets start while the port is up. -/
def State.linkGo (s : State) (p : Nat) : State :=
  if s.portUp p then (s.linkFlush p ((s.link p).waiting.length)).credRegs p else s

/-- Hand a packet to a port. -/
def State.linkSend (s : State) (p : Nat) (k : Packet) : State :=
  let l := s.link p
  (s.setLink p { l with waiting := l.waiting ++ [k] }).linkGo p

/-- Own module ID (R235). -/
def State.myId (s : State) : Nat := s.rf (modAddr 2 16 0x100) 12 0

end Sys2Proof.Machine
end

