-- ==== Sys2Proof/Machine/Buckles.lean ====
section
/-! DEFINITION. Buckles and girth barriers (R268 to R279): additions, arming, release, faults, timeouts, snapshots, and
the girth engine. -/

namespace Sys2Proof.Machine

/-! ### Registers of a buckle (R268, R269) -/

/-- Address of COUNT of a buckle; TARGET, CTL and AUX/AGE follow. -/
def bklAddr (i : Nat) : Nat := bankPg (i / 1024) (1 + i % 1024 / 240) + 0x100 + 16 * (i % 1024 % 240)

/-- A bit of BUCKLE_CTL. -/
def State.bklBit (s : State) (i n : Nat) : Bool := decide (s.rf (bklAddr i + 8) n n = 1)
def State.setBkl (s : State) (i n : Nat) (b : Bool) : State := s.wf (bklAddr i + 8) n n (bit b)
def State.bklMode (s : State) (i : Nat) : Nat := s.rf (bklAddr i + 8) 31 30
def State.bklCount (s : State) (i : Nat) : Nat := (s.rd (bklAddr i)).toNat
def State.bklTarget (s : State) (i : Nat) : Nat := (s.rd (bklAddr i + 4)).toNat
def State.bklAux (s : State) (i : Nat) : Nat := s.rf (bklAddr i + 12) 31 16

/-- Context a buckle belongs to; none for an absent or unowned logical core (R270). -/
def State.bklCtx (s : State) (i : Nat) : Option Nat := if (s.physOf (i / 16)).isSome then s.logCtx (i / 16) else none

/-- A refusal counted in BKL_DENY (R270, R377). -/
def State.bklDeny (s : State) (i : Nat) : State := s.bump (bankPg (i / 1024) 0 + 0x100) 31 0 1

/-- Satisfied: (COUNT − TARGET) mod 2^32 < 2^31 (R272). -/
def State.bklSat (s : State) (i : Nat) : Bool := decide ((s.bklCount i + 2 ^ 32 - s.bklTarget i) % 2 ^ 32 < 2 ^ 31)

/-! ### Waiters (R273) -/

/-- The flight of a core's waiter on a buckle. -/
def Core.waitsOn (c : Core) (i : Nat) : Option Flight :=
  match c.waiter with
  | some (b, id) => if b = i then c.flights.find? (fun f => decide (f.id = id)) else none
  | none => none

/-- OP of a waiting SYNC operation: 2 WAITB, 3 TOKEN. -/
def Flight.syncOp (f : Flight) : Nat := f.ent.toNat / 2 ^ 120 % 32

/-- The outside wait of the SYNC unit ends (R82). -/
def Watch.syncEnd (w : Watch) (cyc : Nat) : Watch :=
  match w.outWait with
  | some o => if o.unit = 7 ∧ o.len.isNone then { w with outWait := some { o with len := some (cyc - o.start) } } else w
  | none => w

/-- Wake a core that waits on the buckle: WAITB retires; TOKEN, which needs a posted token, writes it two cycles later
(R273). -/
def Core.wake (c : Core) (i : Nat) (tok : Option (BitVec 16)) : Core :=
  match c.waitsOn i, tok with
  | some w, some t =>
    if w.syncOp = 3 then
      { c with waiter := none, watch := c.watch.syncEnd c.now,
               flights := c.flights.map (fun f => if f.id = w.id then
                 { f with hold := false, busy := max f.fired c.now + 3, retire := max f.fired c.now + 2,
                          rowVals := [some (BitVec.ofNat 1024 t.toNat)] } else f),
               acc := c.acc ++ [{ cyc := max w.fired c.now + 2, fl := w.id, rank := 6, code := 7, field := 0,
                                  op := .wr 0 0 (.token (w.ent.toNat / 2 ^ 91 % 32)) }] }
    else
      { c with waiter := none, watch := c.watch.syncEnd c.now,
               flights := c.flights.map (fun f => if f.id = w.id then
                 { f with hold := false, busy := max (f.fired + 2) c.now + 1, retire := max (f.fired + 2) c.now } else f) }
  | some w, none =>
    if w.syncOp = 3 then c
    else
      { c with waiter := none, watch := c.watch.syncEnd c.now,
               flights := c.flights.map (fun f => if f.id = w.id then
                 { f with hold := false, busy := max (f.fired + 2) c.now + 1, retire := max (f.fired + 2) c.now } else f) }
  | none, _ => c

/-- Cores whose SYNC unit waits on the buckle, of any logical number of the region. -/
def State.waitersOf (s : State) (i : Nat) : List (Nat × Core) := s.cores.filter (fun p => (p.2.waitsOn i).isSome)

/-- Wake them. -/
def State.wakeAll (s : State) (i : Nat) (tok : Option (BitVec 16)) : State :=
  let s := (s.waitersOf i).foldl (fun (s : State) p => s.modCore p.1 (fun c => c.wake i tok)) s
  s.setBkl i 7 (decide (s.waitersOf i ≠ []))

/-! ### Release (R272, R275) -/

/-- The notification of an EVENT-mode release (R377). -/
def State.bklEvent (s : State) (i : Nat) (fault : Bool) : State :=
  let v := s.bklAux i % 64
  match s.bklCtx i with
  | some c => if v < 16 ∨ v = 63 then s.bklDeny i else s.notify (s.ctxPort c) v fault
  | none => s.bklDeny i

/-- Release a buckle: REL, and the action of its mode. -/
def State.bklRelease (s : State) (i : Nat) (fault : Bool) : State :=
  let s := s.setBkl i 11 true
  match s.bklMode i with
  | 1 =>
    let tok : BitVec 16 := if fault then 3 else BitVec.ofNat 16 (s.bklAux i)
    let taken := (s.waitersOf i).any (fun p => match p.2.waitsOn i with | some f => decide (f.syncOp = 3) | none => false)
    let s := { s with posted := Tbl.set 0 s.posted i tok }
    (s.setBkl i 8 (!taken)).wakeAll i (some tok)
  | 3 => (s.bklEvent i fault).wakeAll i none
  | _ => s.wakeAll i none

/-! ### The girth engine (R278, R279) -/

def barAddr (g : Nat) : Nat := barrierPg + 0x100 + 8 * g
def State.barrier (s : State) (g : Nat) : Barrier := Tbl.get {} s.barriers g
def State.setBarrier (s : State) (g : Nat) (b : Barrier) : State := { s with barriers := Tbl.set {} s.barriers g b }
def State.barValid (s : State) (g : Nat) : Bool := decide (s.rf (barAddr g) 31 31 = 1)
def State.barGen (s : State) (g : Nat) : Nat := s.rf (barAddr g + 4) 31 16
def State.barFault (s : State) (g : Nat) : Bool := decide (s.rf (barAddr g) 30 30 = 1)

/-- A GIRTH packet (R277). -/
def State.girthPkt (s : State) (g : Nat) (down fault : Bool) (epoch : Nat) : Packet :=
  { type := 8, vc := 0, epoch := epoch, down := down, smod := s.myId, tree := g, opid := s.barGen g,
    value := BitVec.ofNat 32 (bit fault) }

/-- A buckle has sent its arrival for a barrier in this arming. -/
def Barrier.has (b : Barrier) (i : Nat) : Bool := b.sent.contains i || b.lost.contains i

/-- A buckle whose arming ends counts as having sent no arrival (R272). -/
def State.dropArrival (s : State) (i : Nat) : State :=
  { s with barriers := (s.barriers.map (fun p =>
      (p.1, { p.2 with sent := p.2.sent.filter (· ≠ i), lost := p.2.lost.filter (· ≠ i) }))).filter (fun p => decide (p.2 ≠ {})) }

/-- Release one buckle of a completed barrier, if it is in GIRTH mode with that GID (R275, R278, R279). -/
def State.barRelease (s : State) (g : Nat) (fault : Bool) (i : Nat) : State :=
  if s.bklMode i = 2 ∧ s.bklAux i % 256 = g then
    let was := s.bklBit i 11
    let s := if fault then s.setBkl i 6 true else s
    if was then s else s.bklRelease i fault
  else s

/-- Complete a barrier in this module: DOWN to the children, release, a new generation (R278, R279). The DOWN carries the FAULT it
is given; a fault marked in the entry after its UP left marks the completion of this module alone (R275). -/
def State.barComplete (s : State) (g : Nat) (down : Bool) (epoch : Nat) : State :=
  let fault := down || s.barFault g
  let k := s.girthPkt g true down epoch
  let s := (s.girth epoch).children.foldl (fun (s : State) p => s.linkSend p { k with dmod := s.rf (fabPg p + 0x104) 12 0 }) s
  let b := s.barrier g
  let s := b.sent.foldl (fun (s : State) i => s.barRelease g fault i) s
  let s := s.setBarrier g { lost := b.lost }
  let s := (s.wf (barAddr g) 30 30 0).wf (barAddr g + 4) 15 0 0
  let s := s.wf (barAddr g + 4) 31 16 ((s.barGen g + 1) % 2 ^ 16)
  let s := s.bump (girthPg + 0x110) 31 16 1
  if fault then s.bump (girthPg + 0x110) 15 0 1 else s

/-- A child has sent UP for the open generation, in this epoch or before it (R278): it is known by its direction, since it may use
either rail (R277). -/
def Barrier.heard (b : Barrier) (c : Nat) : Bool := b.ups.contains (c / 2 * 2)

/-- ARRIVED = LCNT and every child of the epoch's tree has sent UP: UP to the parent, or completion at the root, whose DOWN carries
the FAULT of every arrival and UP (R278, R279). A lone root with LCNT = 0 has nothing to complete (log entry 18). -/
def State.barCheck (s : State) (g e : Nat) : Nat → State
  | 0 => s
  | n + 1 =>
    let b := s.barrier g
    let t := s.girth e
    let lcnt := s.rf (barAddr g) 15 0
    if s.barValid g && !b.sentUp && decide (s.rf (barAddr g + 4) 15 0 = lcnt) && t.children.all b.heard
        && !(t.root && decide (lcnt = 0) && t.children.isEmpty) then
      if t.root then (s.barComplete g (s.barFault g) e).barCheck g e n
      else (s.setBarrier g { b with sentUp := true }).linkSend t.parent { s.girthPkt g false (s.barFault g) e with dmod := s.rf (fabPg t.parent + 0x104) 12 0 }
    else s

/-- A barrier after an arrival: with both parent rails DOWN it completes here with FAULT (R279), else it is checked. -/
def State.barStep (s : State) (g e : Nat) : State :=
  if s.parentLost then (s.wf (girthPg + 0x100) 28 28 1).barComplete g true e else s.barCheck g e 2

/-- Every barrier is checked against an epoch's tree when that epoch begins: a module with LCNT = 0 that the new tree makes a leaf
sends UP at once (R261, R277, R278). -/
def State.barRecheck (s : State) (e : Nat) : State :=
  (List.range 256).foldl (fun (s : State) g => s.barCheck g e 2) s

/-- A local arrival (R278): counted for a valid entry, else discarded and counted in VC0_DROP. -/
def State.girthArrive (s : State) (i : Nat) (fault : Bool) : State :=
  let g := s.bklAux i % 256
  let b := s.barrier g
  if !s.barValid g then (s.setBarrier g { b with lost := b.lost ++ [i] }).bump (rtPg + 0x138) 31 0 1
  else
    let s := s.setBarrier g { b with sent := b.sent ++ [i] }
    let s := s.bump (barAddr g + 4) 15 0 1
    let s := if fault then s.wf (barAddr g) 30 30 1 else s
    s.barStep g s.epoch

/-- An arriving GIRTH packet, for the tree of its EPOCH bit (R277 to R279). -/
def State.girthRx (s : State) (p : Nat) (k : Packet) : State :=
  let g := k.tree % 256
  if !s.barValid g ∨ k.opid ≠ s.barGen g then s.bump (rtPg + 0x138) 31 0 1
  else
    let fault := decide (k.value.toNat % 2 = 1)
    if k.down then (s.barComplete g fault k.epoch).barCheck g k.epoch 1
    else
      let b := s.barrier g
      let q := p / 2 * 2
      let s := s.setBarrier g { b with ups := if b.ups.contains q then b.ups else b.ups ++ [q] }
      let s := if fault then s.wf (barAddr g) 30 30 1 else s
      s.barStep g k.epoch

/-- With both parent rails DOWN every barrier with open arrivals completes locally with FAULT (R279). -/
def State.parentDown (s : State) : State :=
  let s := s.wf (girthPg + 0x100) 28 28 1
  (List.range 256).foldl (fun (s : State) g =>
    let b := s.barrier g
    if s.barValid g ∧ (b.sent ≠ [] ∨ b.ups ≠ []) then s.barComplete g true s.epoch else s) s

/-! ### Satisfaction, additions and arming (R270 to R272) -/

/-- An armed buckle that is satisfied and not yet released (R272). -/
def State.bklTest (s : State) (i : Nat) : State :=
  if s.bklBit i 12 && !s.bklBit i 11 && s.bklSat i then
    if s.bklMode i = 2 then
      if (s.barrier (s.bklAux i % 256)).has i then s else s.girthArrive i false
    else s.bklRelease i false
  else s

/-- An addition, if its requester's context owns the buckle (R270, R271). -/
def State.bklAdd (s : State) (ctx : Option Nat) (i : Nat) (v : Word) : State :=
  if ctx.isSome ∧ ctx = s.bklCtx i then
    let s := s.wr (bklAddr i) (s.rd (bklAddr i) + v)
    (s.tick (bankPg (i / 1024) 0 + 0x104) 1).bklTest i
  else s.bklDeny i

/-- ARMB (R270 to R272). -/
def State.bklArm (s : State) (ctx : Option Nat) (i : Nat) (target : Word) : State :=
  if ctx.isSome ∧ ctx = s.bklCtx i then
    let s := (s.dropArrival i).wr (bklAddr i) 0 |>.wr (bklAddr i + 4) target
    let s := { s with posted := Tbl.set 0 s.posted i 0 }
    let s := [11, 10, 9, 8, 6].foldl (fun (s : State) n => s.setBkl i n false) s
    let s := (s.wf (bklAddr i + 12) 15 0 0).setBkl i 12 true
    s.bklTest i
  else s.bklDeny i

/-! ### Faults (R274, R275) -/

/-- A fault of a buckle: bit 10 FAULT_TO, bit 9 FAULT_TREE. It counts as a release. -/
def State.bklFault (s : State) (i n : Nat) : State :=
  let was := s.bklBit i 11
  let s := s.setBkl i n true
  if was then s
  else if s.bklMode i = 2 then
    let g := s.bklAux i % 256
    let s := if (s.barrier g).has i then s.wf (barAddr g) 30 30 1 else s.girthArrive i true
    if s.bklBit i 11 then s else (s.setBkl i 11 true).wakeAll i none
  else s.bklRelease i true

/-- SYND of BUCKLE_TIMEOUT (R274). -/
def State.bklSynd (s : State) (i : Nat) : BitVec 64 :=
  BitVec.ofNat 64 (i + s.bklCount i * 2 ^ 16 + s.bklMode i * 2 ^ 48)

/-- AGE has reached a non-zero TIMEOUT: the fault and the record of the owning logical core (R274). -/
def State.bklExpire (s : State) (i cyc : Nat) : State :=
  let synd := s.bklSynd i
  let s := s.bklFault i 10
  match s.physOf (i / 16) with
  | some gp => s.coreErr gp 2 0x23 cyc synd
  | none => s

/-- A buckle that counts strokes: armed and unreleased (R274). -/
def State.bklOpen (s : State) (i : Nat) : Bool := s.bklBit i 12 && !s.bklBit i 11

/-- The AGE and timeout step of one buckle at s24 (R274). -/
def State.bklAge (s : State) (i : Nat) : State :=
  if s.bklOpen i then
    let s := s.bump (bklAddr i + 12) 15 0 1
    let t := s.rf (bklAddr i + 8) 29 14
    if t ≠ 0 ∧ t ≤ s.rf (bklAddr i + 12) 15 0 then s.bklExpire i (seamCycle 24) else s
  else s

/-- Buckle of a register address that is a BUCKLE_CTL of a bank. -/
def bklOfCtl (a : Nat) : Option Nat :=
  let l := locOf a
  if !l.module ∧ l.blk = 0xE ∧ l.unit = 8 ∧ 1 ≤ l.page ∧ l.page < 6 ∧ 0x100 ≤ l.off ∧ l.off % 16 = 8 then
    let k := (l.page - 1) * 240 + (l.off - 0x108) / 16
    if k < 1024 then some (l.region * 1024 + k) else none
  else none

/-- Buckles whose registers differ from reset, region by region (all others are unarmed with COUNT 0). -/
def State.bklTouched (s : State) : List Nat := s.regs.filterMap (fun p => bklOfCtl p.1)

/-- Address of SNAP_COUNT of a buckle; SNAP_STAT follows (R276). -/
def snapAddr (i : Nat) : Nat := bankPg (i / 1024) (8 + i % 1024 / 480) + 0x100 + 8 * (i % 1024 % 480)

/-- The snapshot of a buckle (R276). -/
def State.bklSnap (s : State) (i : Nat) : State :=
  let s := s.wr (snapAddr i) (s.rd (bklAddr i))
  s.wr (snapAddr i + 4) (BitVec.ofNat 32 (s.rf (bklAddr i + 12) 15 0 * 2 ^ 16 + s.rf (bklAddr i + 8) 12 6 * 2 ^ 6))

/-- Buckles whose COUNT, CTL or AGE stand in the register table, for the snapshot. -/
def State.bklListed (s : State) : List Nat :=
  (s.regs.filterMap (fun p =>
    let l := locOf p.1
    if !l.module ∧ l.blk = 0xE ∧ l.unit = 8 ∧ 1 ≤ l.page ∧ l.page < 6 ∧ 0x100 ≤ l.off then
      let k := (l.page - 1) * 240 + (l.off - 0x100) / 16
      if k < 1024 then some (l.region * 1024 + k) else none
    else none)).dedup

/-- Buckles with a snapshot that is not zero. -/
def State.snapListed (s : State) : List Nat :=
  (s.regs.filterMap (fun p =>
    let l := locOf p.1
    if !l.module ∧ l.blk = 0xE ∧ l.unit = 8 ∧ 8 ≤ l.page ∧ l.page < 11 ∧ 0x100 ≤ l.off then
      let k := (l.page - 8) * 480 + (l.off - 0x100) / 8
      if k < 1024 then some (l.region * 1024 + k) else none
    else none)).dedup

/-- Every bank at s24: the AGE and timeout step, then the snapshot (R276). -/
def State.bklSeam (s : State) : State :=
  let s := s.bklTouched.foldl (fun (s : State) i => s.bklAge i) s
  (s.bklListed ++ s.snapListed).foldl (fun (s : State) i => s.bklSnap i) s

/-- Return a buckle to its reset values and drop its waiter (R270: context reset). -/
def State.bklReset (s : State) (i : Nat) : State :=
  let s := [0, 4, 8, 12].foldl (fun (s : State) o => s.wr (bklAddr i + o) 0) s
  let s := { s.dropArrival i with posted := Tbl.set 0 s.posted i 0 }
  (s.waitersOf i).foldl (fun (s : State) p => s.modCore p.1 (fun c => { c with waiter := none })) s

/-- Drop a core's waiter registration at the bank: at s0, at an engine reset and at a promotion (R54, R273). -/
def State.dropWaiter (s : State) (gp : Nat) : State :=
  match (s.core gp).waiter with
  | some (b, _) =>
    let s := s.modCore gp (fun c => { c with waiter := none })
    s.setBkl b 7 (decide (s.waitersOf b ≠ []))
  | none => s

end Sys2Proof.Machine
end

