-- ==== Sys2Proof/Machine/Operands.lean ====
section
/-! DEFINITION. Pattern entries (R88 to R105, R158 to R173): every operand form, and the test of validity of R90. -/

namespace Sys2Proof.Machine

/-- A SEL field (R89). -/
inductive Sel where
  | ring (n : Nat)
  | trace (n : Nat)
  | direct
  | none
  deriving DecidableEq, Repr

/-- Bits [hi:lo] of an entry. -/
def ebits (e : BitVec 128) (hi lo : Nat) : Nat := e.toNat / 2 ^ lo % 2 ^ (hi + 1 - lo)

/-- Decode a SEL field; reserved values have no meaning (R89). -/
def selOf (v : Nat) : Option Sel :=
  if v < 0x20 then some (.ring v)
  else if v < 0x32 then some (.trace (v - 0x20))
  else if v = 0x3E then some .direct
  else if v = 0x3F then some .none
  else Option.none

/-- A TR field: a trace, or unbound (R89). -/
inductive Tr where
  | trace (n : Nat)
  | unbound
  deriving DecidableEq, Repr

def trOf (v : Nat) : Option Tr := if v < 18 then some (.trace v) else if v = 0x1F then some .unbound else Option.none

/-- Store code and row of an LA field (R89): the store row key is the LA value itself. -/
def laStore (la : Nat) : Nat := la / 8192

/-- Rows of a store (R135). -/
def storeRows (st : Nat) : Nat := if st = 0 then 4096 else if st = 3 then 0 else 8192

/-- Banks of a store (R135). -/
def storeBanks (st : Nat) : Nat := if st = 0 then 16 else 32

/-- Whether `n` rows from an LA lie inside its store (R90, R161). R161 makes a VEC whose direct rows run past the store invalid, and
R115 an ACC. The same is taken for the direct operands of LOAD_ACT, LOAD_TILE, SEND, TSEND, ST_RING, ST and ST_MEM (DESIGN CHOICE,
log entry 57: R90 speaks of an LA row outside its store). -/
def laFits (la n : Nat) : Bool := decide (la / 8192 < 3) && decide (la % 8192 + n ≤ storeRows (la / 8192))

/-- Unit and opcode (R88). -/
def entUnit (e : BitVec 128) : Nat := ebits e 127 125
def entOp (e : BitVec 128) : Nat := ebits e 124 120

/-- Every bit of the entry outside the listed fields and outside UNIT, OP and BRK is 0 (R89, R90). -/
def onlyFields (e : BitVec 128) (fs : List (Nat × Nat)) : Bool :=
  ((127, 119) :: fs).foldl (fun n f => n - n / 2 ^ f.2 % 2 ^ (f.1 + 1 - f.2) * 2 ^ f.2) e.toNat = 0

/-- A data trace (types DR, DS, DL; R62). -/
def isDataTrace (n : Nat) : Bool := decide (n < 14)

/-- A SEL that may name a ring, a trace or a direct row. A control trace is of the kind the field accepts; it is not mapped for data,
so the operation is valid and never fires (R66, R90). -/
def dataSel (v : Nat) : Option Sel := selOf v

/-- FEED LOAD (R102). -/
structure LoadArgs where
  dst : Nat
  rows : Nat
  addr : Nat
  module : Nat
  stride : Nat
  remote : Bool
  mcast : Bool
  mset : Nat
  deriving DecidableEq, Repr

/-- ANVIL LOAD_ACT. -/
structure LoadActArgs where
  src : Sel
  rows : Nat
  buf : Nat
  fmt : Nat
  tscale : Nat
  la : Nat
  deriving DecidableEq, Repr

/-- ANVIL ACC. -/
structure AccArgs where
  asrc : Sel
  abuf : Nat
  wsrc : Sel
  wrow : Nat
  k : Nat
  afmt : Nat
  wfmt : Nat
  ats : Nat
  wts : Nat
  pca : Nat
  pset : Nat
  tile : Nat
  add : Bool
  deriving DecidableEq, Repr

/-- ANVIL DRAIN. -/
structure DrainArgs where
  outa : Tr
  outb : Tr
  ofmt : Nat
  ots : Nat
  tile : Nat
  keep : Bool
  sr : Bool
  deriving DecidableEq, Repr

/-- ANVIL LOAD_TILE. -/
structure LoadTileArgs where
  src : Sel
  sfmt : Nat
  pca : Nat
  pset : Nat
  la : Nat
  tile : Nat
  deriving DecidableEq, Repr

/-- A VEC operation (R102 layout). -/
structure VecArgs where
  op : Nat
  s0 : Sel
  s1 : Sel
  s2 : Sel
  d0 : Sel
  d1 : Sel
  rows : Nat
  ifmt : Nat
  ofmt : Nat
  imm : Word
  aux : Nat
  la : Nat
  sr : Bool
  uf : Nat
  deriving DecidableEq, Repr

/-- STEER SWITCH and MERGE. -/
structure SteerArgs where
  ct : Nat
  a : Tr
  b : Tr
  c : Tr
  span : Nat
  deriving DecidableEq, Repr

/-- SEND and ST_RING. -/
structure SendArgs where
  src : Sel
  rows : Nat
  dmod : Nat
  dcore : Nat
  dring : Nat
  doff : Nat
  la : Nat
  last : Bool
  deriving DecidableEq, Repr

/-- SEND TSEND. -/
structure TsendArgs where
  src : Sel
  rows : Nat
  tree : Nat
  rop : Nat
  rfmt : Nat
  opid : Nat
  dring : Nat
  doff : Nat
  la : Nat
  last : Bool
  deriving DecidableEq, Repr

/-- STORE ST_MEM. -/
structure StMemArgs where
  src : Sel
  rows : Nat
  addr : Nat
  module : Nat
  buckle : Nat
  la : Nat
  remote : Bool
  bkl : Bool
  deriving DecidableEq, Repr

/-- A decoded operation or directive. -/
inductive Op where
  | wait (n : Nat)
  | rep (len count : Nat)
  | fin
  | load (a : LoadArgs)
  | loadAct (a : LoadActArgs)
  | acc (a : AccArgs)
  | drain (a : DrainArgs)
  | loadTile (a : LoadTileArgs)
  | vec (a : VecArgs)
  | switch (a : SteerArgs)
  | merge (a : SteerArgs)
  | send (a : SendArgs)
  | tsend (a : TsendArgs)
  | arm (ring win : Nat) (buckle : Option Nat) (tree : Bool)
  | disarm (ring : Nat)
  | st (src dst : Sel) (rows la : Nat)
  | stMem (a : StMemArgs)
  | stRing (a : SendArgs)
  | syncAdd (buckle module value : Nat) (remote : Bool)
  | waitb (buckle : Nat)
  | token (buckle ct : Nat)
  | emit (ct : Nat) (tok : BitVec 16)
  | armb (buckle target : Nat)
  deriving DecidableEq, Repr

/-- A format the anvil reads (R102). -/
def anvilIn (c : Nat) : Bool := decide (c ≤ 0xA)

/-- A format DRAIN writes. -/
def drainOut (c : Nat) : Bool := decide (c ≤ 0xC)

/-- A per-tensor scale field is E8M0 without 0xFF, used with codes 0x6 to 0x8 and 0 otherwise (R102, R111). -/
def scaleOk (fmt ts : Nat) : Bool := if isPlain fmt then decide (ts < 255) else decide (ts = 0)

/-- FEED LOAD operands. -/
def decLoad (e : BitVec 128) : Option Op :=
  let dst := ebits e 111 106
  let mset := ebits e 117 114
  let remote := ebits e 112 112 = 1
  let mcast := ebits e 113 113 = 1
  if onlyFields e [(117, 112), (111, 106), (105, 93), (92, 50), (49, 37), (36, 24)] && decide (dst < 32)
      && decide (ebits e 56 50 = 0) && !(decide remote && decide mcast) && (decide mcast || decide (mset = 0))
      && (decide remote || decide (ebits e 49 37 = 0)) then
    some (.load ⟨dst, ebits e 105 93 + 1, ebits e 92 50, ebits e 49 37, max (ebits e 36 24) 1, remote, mcast, mset⟩)
  else Option.none

/-- ANVIL operands (R102, R103, R115). -/
def decAnvil (e : BitVec 128) : Option Op :=
  match entOp e with
  | 1 =>
    match dataSel (ebits e 111 106) with
    | some src =>
      let la := ebits e 14 0
      let rows := ebits e 105 98 + 1
      if onlyFields e [(111, 106), (105, 98), (97, 90), (89, 86), (85, 78), (14, 0)] && decide (src ≠ .none)
          && anvilIn (ebits e 89 86) && scaleOk (ebits e 89 86) (ebits e 85 78)
          && (if src = .direct then decide (laStore la = 1) && laFits la rows else decide (la = 0)) then
        some (.loadAct ⟨src, rows, ebits e 97 90, ebits e 89 86, ebits e 85 78, la⟩)
      else Option.none
    | Option.none => Option.none
  | 2 =>
    match dataSel (ebits e 111 106), dataSel (ebits e 97 92) with
    | some a, some w =>
      let afmt := ebits e 62 59
      let wfmt := ebits e 58 55
      let k := ebits e 78 63 + 1
      let pca := ebits e 38 37
      let isTr : Sel → Bool := fun s => match s with | .trace _ => true | _ => false
      let wrows := k * codeWidth wfmt / 2 + (if isMX wfmt then (k + 7) / 8 else 0)
      if onlyFields e [(113, 112), (111, 106), (105, 98), (97, 92), (91, 79), (78, 63), (62, 59), (58, 55), (54, 47),
            (46, 39), (38, 37), (36, 25)]
          && decide (a ≠ .none) && decide (w ≠ .none) && anvilIn afmt && anvilIn wfmt && decide (pca < 3)
          && (decide (pca = 2) || decide (ebits e 36 25 = 0))
          && scaleOk wfmt (ebits e 46 39)
          && (if a = .direct then decide (afmt = 0) && decide (ebits e 54 47 = 0)
              else decide (ebits e 105 98 = 0) && scaleOk afmt (ebits e 54 47) && !(isTr a && isMX afmt))
          && !(isTr w && isMX wfmt)
          && (if w = .direct then decide (ebits e 91 79 + wrows ≤ 4096) else decide (ebits e 91 79 = 0)) then
        some (.acc ⟨a, ebits e 105 98, w, ebits e 91 79, k, afmt, wfmt, ebits e 54 47, ebits e 46 39, pca, ebits e 36 25,
          ebits e 112 112, decide (ebits e 113 113 = 1)⟩)
      else Option.none
    | _, _ => Option.none
  | 3 =>
    let drTr : Nat → Option Tr := fun v => if v < 2 then some (.trace v) else if v = 0x1F then some .unbound else Option.none
    match drTr (ebits e 111 107), drTr (ebits e 106 102) with
    | some a, some b =>
      let ofmt := ebits e 101 98
      if onlyFields e [(114, 112), (111, 107), (106, 102), (101, 98), (97, 90)] && drainOut ofmt
          && scaleOk ofmt (ebits e 97 90) && !(decide (a = .unbound) && decide (b = .unbound))
          && !(decide (ebits e 114 114 = 1) && decide (ofmt = 0xC)) then
        some (.drain ⟨a, b, ofmt, ebits e 97 90, ebits e 112 112, decide (ebits e 113 113 = 1), decide (ebits e 114 114 = 1)⟩)
      else Option.none
    | _, _ => Option.none
  | 4 =>
    match dataSel (ebits e 111 106) with
    | some src =>
      let sf := ebits e 105 102
      let la := ebits e 14 0
      let pca := ebits e 101 100
      let rows := if sf = 0xB then 8 else 12
      if onlyFields e [(112, 112), (111, 106), (105, 102), (101, 100), (99, 88), (14, 0)] && decide (src ≠ .none)
          && (decide (sf = 0xB) || decide (sf = 0xC)) && decide (pca < 3) && (decide (pca = 2) || decide (ebits e 99 88 = 0))
          && (if src = .direct then decide (laStore la = 2) && laFits la rows else decide (la = 0)) then
        some (.loadTile ⟨src, sf, pca, ebits e 99 88, la, ebits e 112 112⟩)
      else Option.none
    | Option.none => Option.none
  | _ => Option.none

/-- A format of the elementwise rows: BF16 or FP32 (R158). -/
def vecRowFmt (c : Nat) : Bool := decide (c = 9) || decide (c = 0xB)

/-- Elements per row of an elementwise operation (R158). -/
def vecE (a : VecArgs) : Nat := if a.ifmt = 9 ∧ a.ofmt = 9 then 64 else 32

/-- Segment length of NORM and RRED: AUX[1:0] (R164). -/
def segLen (a : VecArgs) (e : Nat) : Nat :=
  match a.aux % 4 with
  | 0 => 16
  | 1 => 32
  | 2 => 64
  | _ => e

/-- Elements per candidate row of TOPK and SAMPLE (R158). -/
def candE (ifmt : Nat) : Nat := if ifmt = 9 then 64 else 32

/-- Rows of an operand of `g` groups in set layout (R114). -/
def setRows (w g : Nat) : Nat := g * w / 2 + (g + 7) / 8

/-- Wide and narrow quanta of CVT, if its counts are whole (R166): input rows and output rows. -/
def cvtRows (a : VecArgs) : Option (Nat × Nat) :=
  let wi := codeWidth a.ifmt
  let wo := codeWidth a.ofmt
  if isMX a.ifmt && isMX a.ofmt then Option.none
  else if isMX a.ofmt then
    let el := a.rows * (1024 / wi)
    if el % 512 = 0 then some (a.rows, setRows wo (el / 512)) else Option.none
  else if isMX a.ifmt then
    let el := a.rows * (1024 / wo)
    if el % 512 = 0 then some (setRows wi (el / 512), a.rows) else Option.none
  else if wi = wo then some (a.rows, a.rows)
  else if wo < wi then (if a.rows * wo % wi = 0 then some (a.rows, a.rows * wo / wi) else Option.none)
  else (if a.rows * wi % wo = 0 then some (a.rows * wi / wo, a.rows) else Option.none)

/-- A format of VEC CVT (R102). -/
def cvtFmt (c : Nat) : Bool := decide (c ≤ 0xB)

/-- Rows each input and output of a VEC operation moves (R162): SRC0, SRC1, SRC2, DST0, DST1. -/
def vecQuanta (a : VecArgs) : Nat × Nat × Nat × Nat × Nat :=
  match a.op with
  | 0x08 => match cvtRows a with
    | some (i, o) => (i, 0, 0, o, o)
    | Option.none => (a.rows, 0, 0, a.rows, a.rows)
  | 0x12 => (a.rows, 0, 0, 1, 1)
  | 0x13 => (a.rows, 0, 0, 1, 1)
  | 0x14 => (a.rows, 1, 0, 1, 1)
  | _ => (a.rows, a.rows, a.rows, a.rows, a.rows)

/-- Which sources an operation reads: SRC1 used, SRC2 used (R162). -/
def vecUses (op : Nat) : Bool × Bool :=
  match op with
  | 4 => (true, true)
  | 1 => (true, false)
  | 2 => (true, false)
  | 3 => (true, false)
  | 5 => (true, false)
  | 6 => (true, false)
  | 0x0E => (true, false)
  | 0x0F => (true, false)
  | 0x14 => (true, false)
  | 0x15 => (true, false)
  | _ => (false, false)

/-- Bits of UF[117:113] an operation uses (R162). -/
def vecUf (op uf : Nat) : Bool :=
  match op with
  | 0x0F => decide (uf % 8 < 6) && decide (uf / 8 < 3)
  | 0x10 => decide (uf < 5)
  | 0x11 => decide (uf % 8 < 5) && decide (uf / 8 < 2)
  | 0x12 => decide (uf < 2)
  | 0x13 => decide (uf < 2)
  | 0x15 => decide (uf < 2)
  | 0x16 => decide (uf < 4)
  | _ => decide (uf = 0)

/-- Whether AUX and IMM hold what the operation allows (R162 to R173). -/
def vecAuxOk (a : VecArgs) : Bool :=
  match a.op with
  | 0x08 => if isPlain a.ifmt || isPlain a.ofmt then decide (a.aux < 255) else decide (a.aux = 0)
  | 0x0E => decide (a.aux < 4) && !(decide (a.aux = 2) && decide (vecE a = 32))
  | 0x10 => decide (a.aux < 4) && !(decide (a.aux = 2) && decide (vecE a = 32))
  | 0x0F => decide (a.aux = 0) || decide (a.aux = 2048)
  | 0x12 => if a.uf % 2 = 1 then decide (a.rows * 16 ≤ 4096) && decide (a.aux < 16) else decide (a.rows * candE a.ifmt ≤ 4096)
  | 0x13 => decide (a.rows * candE a.ifmt ≤ 4096) && (decide (a.uf % 2 = 0) || decide (a.aux < 256))
  | 0x14 => decide (a.aux < 32) && decide (1 ≤ a.aux) && decide (a.aux ≤ 16) && decide (a.rows = a.aux + 1)
  | 0x16 => decide (a.aux = 0) && decide (a.rows % 8 = 0)
  | _ => decide (a.aux = 0)

/-- Whether the operation takes the immediate (R162). -/
def vecImm (a : VecArgs) : Bool :=
  match a.op with
  | 0x07 => false
  | 0x08 => false
  | 0x10 => false
  | 0x11 => false
  | 0x12 => false
  | 0x14 => false
  | 4 => decide (a.s1 = .none)
  | 1 => decide (a.s1 = .none)
  | 2 => decide (a.s1 = .none)
  | 3 => decide (a.s1 = .none)
  | 5 => decide (a.s1 = .none)
  | 6 => decide (a.s1 = .none)
  | 0x0F => decide (a.s1 = .none)
  | 0x15 => decide (a.uf % 2 = 1)
  | _ => true

/-- Formats of a VEC operation (R158, R165, R172). -/
def vecFmtOk (a : VecArgs) : Bool :=
  match a.op with
  | 0x08 => cvtFmt a.ifmt && cvtFmt a.ofmt
  | 0x12 => decide (a.ofmt = 0) && (if a.uf % 2 = 1 then decide (a.ifmt = 0) else vecRowFmt a.ifmt)
  | 0x13 => decide (a.ofmt = 0) && vecRowFmt a.ifmt
  | 0x14 => decide (a.ofmt = 0) && decide (a.ifmt = 0)
  | 0x16 => decide (a.ifmt = 0xB) && vecRowFmt a.ofmt
  | _ => vecRowFmt a.ifmt && vecRowFmt a.ofmt

/-- Rows the one direct operand moves. -/
def vecDirectRows (a : VecArgs) : Nat :=
  let q := vecQuanta a
  if a.s0 = .direct then q.1
  else if a.s1 = .direct then q.2.1
  else if a.s2 = .direct then q.2.2.1
  else if a.d0 = .direct then q.2.2.2.1
  else q.2.2.2.2

/-- Number of SEL fields that hold 0x3E. -/
def vecDirects (a : VecArgs) : Nat :=
  [a.s0, a.s1, a.s2, a.d0, a.d1].foldl (fun n s => if s = .direct then n + 1 else n) 0

/-- An output of a CVT in an MX format names a ring, or none (R166, R442). -/
def ringOrNone (s : Sel) : Bool := match s with | .ring _ => true | .none => true | _ => false

/-- Whether DST1 may be what it names: a control trace only for CMP, VERIFY and SMAXD (R442). -/
def dst1Ok (op : Nat) (d1 : Sel) : Bool :=
  match d1 with
  | .trace n => decide (n < 14) || decide (18 ≤ n) || decide (op = 0x0F) || decide (op = 0x14) || decide (op = 0x16)
  | _ => true

/-- VEC operands and their validity (R158, R161, R162, R442). -/
def decVec (e : BitVec 128) : Option Op :=
  match selOf (ebits e 111 106), selOf (ebits e 105 100), selOf (ebits e 99 94), selOf (ebits e 93 88),
      selOf (ebits e 87 82) with
  | some s0, some s1, some s2, some d0, some d1 =>
    let a : VecArgs := ⟨entOp e, s0, s1, s2, d0, d1, ebits e 81 69 + 1, ebits e 68 65, ebits e 64 61,
      BitVec.ofNat 32 (ebits e 60 29), ebits e 28 17, ebits e 16 2, decide (ebits e 112 112 = 1), ebits e 117 113⟩
    let u := vecUses a.op
    if onlyFields e [(117, 112), (111, 106), (105, 100), (99, 94), (93, 88), (87, 82), (81, 69), (68, 65), (64, 61),
          (60, 29), (28, 17), (16, 2)]
        && decide (1 ≤ a.op) && decide (a.op ≤ 0x16)
        && decide (s0 ≠ .none) && dst1Ok a.op d1
        && (u.1 || decide (s1 = .none)) && (u.2 || decide (s2 = .none))
        && !(decide (a.op = 0x14) && decide (s1 = .none))
        && decide (vecDirects a ≤ 1)
        && (if vecDirects a = 0 then decide (a.la = 0) else laFits a.la (vecDirectRows a))
        && vecFmtOk a && vecUf a.op a.uf && vecAuxOk a && (vecImm a || decide (a.imm = 0))
        && (!a.sr || decide (a.ofmt = 9) || decide (a.op = 0x08))
        && (decide (a.op ≠ 0x08) || ((cvtRows a).isSome && (!isMX a.ofmt || (ringOrNone d0 && ringOrNone d1)))) then
      some (.vec a)
    else Option.none
  | _, _, _, _, _ => Option.none

/-- A control-trace field (R89). -/
def ctOf (v : Nat) : Option Nat := if 14 ≤ v ∧ v < 18 then some v else Option.none

/-- A TR field of a data stream; a control trace in it leaves the entry valid and the operation never fires (R66, R90). -/
def dataTr (v : Nat) : Option Tr := trOf v

/-- STEER operands (R76 to R79). -/
def decSteer (e : BitVec 128) : Option Op :=
  match ctOf (ebits e 111 107), dataTr (ebits e 106 102), dataTr (ebits e 101 97), dataTr (ebits e 96 92) with
  | some ct, some a, some b, some c =>
    let args : SteerArgs := ⟨ct, a, b, c, ebits e 91 86 + 1⟩
    if onlyFields e [(111, 107), (106, 102), (101, 97), (96, 92), (91, 86)] && decide (a ≠ .unbound) then
      if entOp e = 1 then some (.switch args)
      else if entOp e = 2 ∧ b ≠ .unbound ∧ c ≠ .unbound then some (.merge args)
      else Option.none
    else Option.none
  | _, _, _, _ => Option.none

/-- The source of SEND, TSEND, ST and ST_MEM: ring, data trace or direct. -/
def srcSel (v : Nat) : Option Sel :=
  match dataSel v with
  | some .none => Option.none
  | x => x

/-- LA is used with a direct source only (R89). -/
def srcLaOk (src : Sel) (la rows : Nat) : Bool := if src = .direct then laFits la rows else decide (la = 0)

/-- SEND and ST_RING operands. -/
def decSendArgs (e : BitVec 128) : Option SendArgs :=
  match srcSel (ebits e 111 106) with
  | some src =>
    let rows := ebits e 105 93 + 1
    let la := ebits e 14 0
    if onlyFields e [(112, 112), (111, 106), (105, 93), (92, 80), (79, 68), (67, 63), (62, 50), (14, 0)]
        && srcLaOk src la rows then
      some ⟨src, rows, ebits e 92 80, ebits e 79 68, ebits e 67 63, ebits e 62 50, la, decide (ebits e 112 112 = 1)⟩
    else Option.none
  | Option.none => Option.none

/-- SEND (unit 4). -/
def decSend (e : BitVec 128) : Option Op :=
  match entOp e with
  | 1 => (decSendArgs e).map .send
  | 2 =>
    match srcSel (ebits e 111 106) with
    | some src =>
      let rows := ebits e 105 93 + 1
      let la := ebits e 14 0
      let rop := ebits e 80 78
      let rfmt := ebits e 77 76
      if onlyFields e [(112, 112), (111, 106), (105, 93), (92, 81), (80, 78), (77, 76), (75, 60), (59, 55), (54, 42), (14, 0)]
          && srcLaOk src la rows && decide (rop < 4) && decide (rfmt < 3) && (decide (rop ≠ 0) || decide (rfmt = 0)) then
        some (.tsend ⟨src, rows, ebits e 92 81, rop, rfmt, ebits e 75 60, ebits e 59 55, ebits e 54 42, la,
          decide (ebits e 112 112 = 1)⟩)
      else Option.none
    | Option.none => Option.none
  | _ => Option.none

/-- RECV (unit 5). -/
def decRecv (e : BitVec 128) : Option Op :=
  match entOp e with
  | 1 =>
    let bkl := ebits e 112 112 = 1
    if onlyFields e [(113, 112), (111, 107), (106, 94), (93, 78)] && (decide bkl || decide (ebits e 93 78 = 0)) then
      some (.arm (ebits e 111 107) (ebits e 106 94 + 1) (if bkl then some (ebits e 93 78) else Option.none)
        (decide (ebits e 113 113 = 1)))
    else Option.none
  | 2 => if onlyFields e [(111, 107)] then some (.disarm (ebits e 111 107)) else Option.none
  | _ => Option.none

/-- STORE (unit 6). -/
def decStore (e : BitVec 128) : Option Op :=
  match entOp e with
  | 1 =>
    match srcSel (ebits e 111 106), selOf (ebits e 105 100) with
    | some src, some dst =>
      let rows := ebits e 99 87 + 1
      let la := ebits e 14 0
      let dstOk := match dst with | .ring _ => true | .direct => true | _ => false
      if onlyFields e [(111, 106), (105, 100), (99, 87), (14, 0)] && dstOk && !(decide (src = .direct) && decide (dst = .direct))
          && (if src = .direct ∨ dst = .direct then laFits la rows else decide (la = 0)) then
        some (.st src dst rows la)
      else Option.none
    | _, _ => Option.none
  | 2 =>
    match srcSel (ebits e 111 106) with
    | some src =>
      let rows := ebits e 105 93 + 1
      let la := ebits e 14 0
      let remote := ebits e 112 112 = 1
      let bkl := ebits e 113 113 = 1
      if onlyFields e [(113, 112), (111, 106), (105, 93), (92, 50), (49, 37), (36, 21), (14, 0)] && srcLaOk src la rows
          && decide (ebits e 56 50 = 0) && (decide remote || decide (ebits e 49 37 = 0))
          && (decide bkl || decide (ebits e 36 21 = 0)) then
        some (.stMem ⟨src, rows, ebits e 92 50, ebits e 49 37, ebits e 36 21, la, remote, bkl⟩)
      else Option.none
    | Option.none => Option.none
  | 3 => (decSendArgs e).map .stRing
  | _ => Option.none

/-- SYNC (unit 7); WAITB and TOKEN name buckles of the core's own region (R273). An EMIT whose constant token has a reserved KIND or
VALUE or non-zero bits [13:8] is valid: R79 gives such a token its effect (DESIGN CHOICE, log entry 57). -/
def decSync (region : Nat) (e : BitVec 128) : Option Op :=
  match entOp e with
  | 1 =>
    let remote := ebits e 112 112 = 1
    if onlyFields e [(112, 112), (111, 96), (95, 83), (82, 51)] && (decide remote || decide (ebits e 95 83 = 0)) then
      some (.syncAdd (ebits e 111 96) (ebits e 95 83) (ebits e 82 51) remote)
    else Option.none
  | 2 =>
    if onlyFields e [(111, 96)] && decide (ebits e 111 106 = region) then some (.waitb (ebits e 111 96)) else Option.none
  | 3 =>
    match ctOf (ebits e 95 91) with
    | some ct =>
      if onlyFields e [(111, 96), (95, 91)] && decide (ebits e 111 106 = region) then some (.token (ebits e 111 96) ct)
      else Option.none
    | Option.none => Option.none
  | 4 =>
    match ctOf (ebits e 111 107) with
    | some ct => if onlyFields e [(111, 107), (106, 91)] then some (.emit ct (BitVec.ofNat 16 (ebits e 106 91))) else Option.none
    | Option.none => Option.none
  | 5 => if onlyFields e [(111, 96), (95, 64)] then some (.armb (ebits e 111 96) (ebits e 95 64)) else Option.none
  | _ => Option.none

/-- Decode a pattern entry (R88 to R105); none when it is invalid on its own (R90). REPEAT and END have further rules
in the sequencer (R94). -/
def decodeEntry (region : Nat) (e : BitVec 128) : Option Op :=
  match entOp e with
  | 0 => if onlyFields e [(111, 88)] then some (.wait (ebits e 111 88)) else Option.none
  | 0x1E => if onlyFields e [(111, 100), (99, 84)] && decide (ebits e 111 100 ≠ 0) then
      some (.rep (ebits e 111 100) (ebits e 99 84 + 1)) else Option.none
  | 0x1F => if onlyFields e [] then some .fin else Option.none
  | 0x1C => Option.none
  | 0x1D => Option.none
  | _ =>
    match entUnit e with
    | 0 => if entOp e = 1 then decLoad e else Option.none
    | 1 => decAnvil e
    | 2 => decVec e
    | 3 => decSteer e
    | 4 => decSend e
    | 5 => decRecv e
    | 6 => decStore e
    | _ => decSync region e

/-! ### Encoding (R88, R89, R102): the words of an operation, BRK = 0 -/

/-- An entry of UNIT, OP and fields, each at its lowest bit. -/
def packEntry (unit op : Nat) (fs : List (Nat × Nat)) : BitVec 128 :=
  BitVec.ofNat 128 (unit * 2 ^ 125 + op * 2 ^ 120 + fs.foldl (fun n f => n + f.2 * 2 ^ f.1) 0)

def Sel.code (s : Sel) : Nat := match s with | .ring n => n | .trace n => 0x20 + n | .direct => 0x3E | .none => 0x3F

def Tr.code (t : Tr) : Nat := match t with | .trace n => n | .unbound => 0x1F

/-- A flag of an entry. -/
def flagBit (b : Bool) : Nat := if b then 1 else 0

/-- The entry of SEND or ST_RING. -/
def SendArgs.encode (unit op : Nat) (a : SendArgs) : BitVec 128 :=
  packEntry unit op [(112, flagBit a.last), (106, a.src.code), (93, a.rows - 1), (80, a.dmod), (68, a.dcore), (63, a.dring),
    (50, a.doff), (0, a.la)]

/-- The entry of STEER. -/
def SteerArgs.encode (op : Nat) (a : SteerArgs) : BitVec 128 :=
  packEntry 3 op [(107, a.ct), (102, a.a.code), (97, a.b.code), (92, a.c.code), (86, a.span - 1)]

/-- The entry of an operation (R102). -/
def encodeEntry (op : Op) : BitVec 128 :=
  match op with
  | .wait n => packEntry 0 0 [(88, n)]
  | .rep len count => packEntry 0 0x1E [(100, len), (84, count - 1)]
  | .fin => packEntry 0 0x1F []
  | .load a => packEntry 0 1 [(114, a.mset), (113, flagBit a.mcast), (112, flagBit a.remote), (106, a.dst), (93, a.rows - 1),
      (50, a.addr), (37, a.module), (24, a.stride)]
  | .loadAct a => packEntry 1 1 [(106, a.src.code), (98, a.rows - 1), (90, a.buf), (86, a.fmt), (78, a.tscale), (0, a.la)]
  | .acc a => packEntry 1 2 [(113, flagBit a.add), (112, a.tile), (106, a.asrc.code), (98, a.abuf), (92, a.wsrc.code), (79, a.wrow),
      (63, a.k - 1), (59, a.afmt), (55, a.wfmt), (47, a.ats), (39, a.wts), (37, a.pca), (25, a.pset)]
  | .drain a => packEntry 1 3 [(114, flagBit a.sr), (113, flagBit a.keep), (112, a.tile), (107, a.outa.code), (102, a.outb.code),
      (98, a.ofmt), (90, a.ots)]
  | .loadTile a => packEntry 1 4 [(112, a.tile), (106, a.src.code), (102, a.sfmt), (100, a.pca), (88, a.pset), (0, a.la)]
  | .vec a => packEntry 2 a.op [(113, a.uf), (112, flagBit a.sr), (106, a.s0.code), (100, a.s1.code), (94, a.s2.code), (88, a.d0.code),
      (82, a.d1.code), (69, a.rows - 1), (65, a.ifmt), (61, a.ofmt), (29, a.imm.toNat), (17, a.aux), (2, a.la)]
  | .switch a => a.encode 1
  | .merge a => a.encode 2
  | .send a => a.encode 4 1
  | .tsend a => packEntry 4 2 [(112, flagBit a.last), (106, a.src.code), (93, a.rows - 1), (81, a.tree), (78, a.rop), (76, a.rfmt),
      (60, a.opid), (55, a.dring), (42, a.doff), (0, a.la)]
  | .arm ring win buckle tree => packEntry 5 1 [(113, flagBit tree), (112, flagBit buckle.isSome), (107, ring), (94, win - 1),
      (78, buckle.getD 0)]
  | .disarm ring => packEntry 5 2 [(107, ring)]
  | .st src dst rows la => packEntry 6 1 [(106, src.code), (100, dst.code), (87, rows - 1), (0, la)]
  | .stMem a => packEntry 6 2 [(113, flagBit a.bkl), (112, flagBit a.remote), (106, a.src.code), (93, a.rows - 1), (50, a.addr),
      (37, a.module), (21, a.buckle), (0, a.la)]
  | .stRing a => a.encode 6 3
  | .syncAdd buckle module value remote => packEntry 7 1 [(112, flagBit remote), (96, buckle), (83, module), (51, value)]
  | .waitb buckle => packEntry 7 2 [(96, buckle)]
  | .token buckle ct => packEntry 7 3 [(96, buckle), (91, ct)]
  | .emit ct tok => packEntry 7 4 [(107, ct), (91, tok.toNat)]
  | .armb buckle target => packEntry 7 5 [(96, buckle), (64, target)]

end Sys2Proof.Machine
end

