-- ==== Sys2Proof/Machine/Flags.lean ====
section
/-! DEFINITION. Arithmetic results with every flag they set: exact group sums and accumulation (R119 to R124), output
conversion (R129 to R133), and the random streams (R175). -/

namespace Sys2Proof.Machine

/-! ### Philox-4×32-10 (R175) -/

/-- The multipliers and key increments of Salmon et al. (2011). PRESUMED, log entry 13. -/
def philoxM0 : Nat := 0xD2511F53
def philoxM1 : Nat := 0xCD9E8D57
def philoxW0 : Nat := 0x9E3779B9
def philoxW1 : Nat := 0xBB67AE85

/-- Rounds of the generator on counter words c0 to c3 with key words k0, k1. -/
def philoxRounds : Nat → Nat → Nat → Nat → Nat → Nat → Nat → List (BitVec 32)
  | 0, c0, c1, c2, c3, _, _ => [BitVec.ofNat 32 c0, BitVec.ofNat 32 c1, BitVec.ofNat 32 c2, BitVec.ofNat 32 c3]
  | n + 1, c0, c1, c2, c3, k0, k1 =>
    let p0 := philoxM0 * c0
    let p1 := philoxM1 * c2
    philoxRounds n (Nat.xor (Nat.xor (p1 / 2 ^ 32) c1) k0) (p1 % 2 ^ 32) (Nat.xor (Nat.xor (p0 / 2 ^ 32) c3) k1)
      (p0 % 2 ^ 32) ((k0 + philoxW0) % 2 ^ 32) ((k1 + philoxW1) % 2 ^ 32)

/-- One block of a stream: four words in order (R175). -/
def philoxBlock (key : BitVec 64) (ctr : Nat) : List (BitVec 32) :=
  philoxRounds 10 (ctr % 2 ^ 32) (ctr / 2 ^ 32 % 2 ^ 32) (ctr / 2 ^ 64 % 2 ^ 32) (ctr / 2 ^ 96 % 2 ^ 32)
    (key.toNat % 2 ^ 32) (key.toNat / 2 ^ 32)

/-- The next unused word of a stream. -/
def Stream.word (st : Stream) : BitVec 32 × Stream :=
  match st.buf with
  | w :: r => (w, { st with buf := r })
  | [] =>
    match philoxBlock st.key st.ctr with
    | w :: r => (w, { st with buf := r, ctr := (st.ctr + 1) % 2 ^ 128 })
    | [] => (0, st)

/-- A 16-bit draw: the low half of a word and then the high half (R175). -/
def Stream.draw16 (st : Stream) : Nat × Stream :=
  match st.half with
  | some h => (h.toNat, { st with half := none })
  | none =>
    let (w, st) := st.word
    (w.toNat % 2 ^ 16, { st with half := some (BitVec.ofNat 16 (w.toNat / 2 ^ 16)) })

/-- A 24-bit draw: bits [23:0] of one word (R175). -/
def Stream.draw24 (st : Stream) : BitVec 24 × Stream :=
  let (w, st) := st.word
  (BitVec.ofNat 24 w.toNat, st)

/-- `n` 16-bit draws in order. -/
def Stream.draws16 : Nat → Stream → List Nat × Stream
  | 0, st => ([], st)
  | n + 1, st =>
    let (d, st) := st.draw16
    let (ds, st) := Stream.draws16 n st
    (d :: ds, st)

/-- `n` 24-bit draws in order. -/
def Stream.draws24 : Nat → Stream → List (BitVec 24) × Stream
  | 0, st => ([], st)
  | n + 1, st =>
    let (d, st) := st.draw24
    let (ds, st) := Stream.draws24 n st
    (d :: ds, st)

/-! ### Group sums (R119 to R123) -/

/-- Flags of ARITH_STAT (R123, R131 to R133) and of the tile. -/
structure AFlags where
  under : Bool := false
  nanIn : Bool := false
  infIn : Bool := false
  wide : Bool := false
  sat : Bool := false
  cvtInf : Bool := false
  nanZero : Bool := false
  scaleNan : Bool := false
  ovf : Bool := false
  deriving DecidableEq, Repr

def AFlags.or (a b : AFlags) : AFlags :=
  ⟨a.under || b.under, a.nanIn || b.nanIn, a.infIn || b.infIn, a.wide || b.wide, a.sat || b.sat, a.cvtInf || b.cvtInf,
   a.nanZero || b.nanZero, a.scaleNan || b.scaleNan, a.ovf || b.ovf⟩

/-- ARITH_STAT bits of the flags. -/
def AFlags.bits (f : AFlags) : Nat :=
  bit f.under * 128 + bit f.nanIn * 64 + bit f.infIn * 32 + bit f.wide * 16 + bit f.sat * 8 + bit f.cvtInf * 4
    + bit f.nanZero * 2 + bit f.scaleNan

/-- ⌊log2 |p|⌋ of a nonzero finite product; none for zero and for values that are not finite. -/
def prodExp (p : FVal) : Option Int :=
  match p with
  | .fin _ m e => if m = 0 then none else some ((Nat.log2 m : Int) + e)
  | _ => none

/-- E_max of R119 over products. -/
def eMax (ps : List FVal) : Option Int :=
  ps.foldl (fun acc p =>
    match acc, prodExp p with
    | some a, some b => some (max a b)
    | some a, none => some a
    | none, x => x) none

/-- A finite product as a multiple of the register's weight 2^w, its magnitude truncated toward zero (R119). -/
def alignTrunc (p : FVal) (w : Int) : Int :=
  match p with
  | .fin s m e => signed s (if w ≤ e then m * 2 ^ (e - w).toNat else m / 2 ^ (w - e).toNat)
  | _ => 0

/-- Whether truncation to weight 2^w drops a nonzero bit. -/
def dropsBits (p : FVal) (w : Int) : Bool :=
  match p with
  | .fin _ m e => decide (e < w) && decide (m % 2 ^ (w - e).toNat ≠ 0)
  | _ => false

/-- A wide pair: an operand is E5M2, BF16 or FP16 (R120). -/
def wideFmt (c : Nat) : Bool := decide (c = 1) || decide (c = 7) || decide (c = 9) || decide (c = 0xA)

/-- Both operands 4-bit (R119). -/
def both4 (fa fw : Nat) : Bool := (decide (fa = 4) || decide (fa = 8)) && (decide (fw = 4) || decide (fw = 8))

/-- Weight of the group register's least significant bit (R119). -/
def regWeight (fa fw : Nat) (ps : List FVal) : Int := if both4 fa fw then -2 else (eMax ps).getD 0 - 35

/-- The exact contents of the group register (R119). -/
def groupReg (fa fw : Nat) (ps : List FVal) : Int :=
  ps.foldl (fun n p => n + alignTrunc p (regWeight fa fw ps)) 0

/-- The group's value before accumulation and its flags (R119 to R123): element values, scale exponents (none is NaN). -/
def groupValue (fa fw : Nat) (as bs : List FVal) (xa xw : Option Int) : FVal × AFlags :=
  let ps := List.zipWith FVal.mul as bs
  match xa, xw with
  | some sa, some sw =>
    if as.any FVal.isNaN || bs.any FVal.isNaN then (.nan, { nanIn := true })
    else if ps.any FVal.isNaN then (.nan, { infIn := true })
    else if ps.any (fun p => p.isInf && p.isNeg) && ps.any (fun p => p.isInf && !p.isNeg) then (.nan, { infIn := true })
    else if ps.any FVal.isInf then (.inf (ps.any (fun p => p.isInf && p.isNeg)), { infIn := true })
    else
      let g := groupReg fa fw ps
      (.fin (decide (g < 0)) g.natAbs (regWeight fa fw ps + sa + sw),
        { wide := (wideFmt fa || wideFmt fw) && ps.any (fun p => dropsBits p (regWeight fa fw ps)) })
  | _, _ => (.nan, { nanIn := true })

/-- Encoding of an exact AX46 result without rounding questions: canonical NaN, infinity, or +0 for every zero (R124). -/
def axEncode (v : FVal) : BitVec 46 × AFlags :=
  match v with
  | .nan => (BitVec.ofNat 46 fmtAX46.encNaN, {})
  | .inf s => (BitVec.ofNat 46 (fmtAX46.encInf s), {})
  | .fin s m e =>
    let r := fmtAX46.round .rne s m e
    if r.ovfl then (BitVec.ofNat 46 (fmtAX46.encMax s), { ovf := true })
    else if m = 0 ∨ r.under then (0, { under := r.under })
    else (BitVec.ofNat 46 r.bits, {})

/-- T ← round(T + v) into AX46 (R121, R123, R124). -/
def axAcc (t : BitVec 46) (v : FVal) : BitVec 46 × AFlags := axEncode ((fmtAX46.decode t.toNat).add v)

/-! ### Output conversion (R129 to R133) -/

/-- Convert a value, already divided by its scale, to an element of a format (R131, R132). For an MX format a NaN or an
infinity has been handled by the block. -/
def convElem (code : Nat) (mode : RMode) (v : FVal) : Nat × AFlags :=
  if code = 5 then
    match v with
    | .fin s m e =>
      let r := roundMag m e 4096 (-6) mode
      let k := min r.k (if s then 128 else 127)
      (if s then (256 - k) % 256 else k, { under := decide (m ≠ 0) && decide (r.k = 0) })
    | _ => (0, {})
  else
    let f := codeFmt code
    match v with
    | .nan =>
      if code = 6 then (0x7F, {}) else if code = 7 then (0x7E, {}) else if code = 8 then (0, { nanZero := true })
      else (f.encNaN, {})
    | .inf s =>
      if code = 6 ∨ code = 8 then (f.encMax s, { cvtInf := true })
      else if isMX code then (0, {}) else (f.encInf s, {})
    | .fin s m e =>
      let r := f.round mode s m e
      (r.bits, { under := r.under, sat := r.ovfl && !isMX code })

/-- The value divided by 2^x. -/
def scaleDown (v : FVal) (x : Int) : FVal :=
  match v with
  | .fin s m e => .fin s m (e - x)
  | v => v

/-- The value multiplied by 2^x. -/
def scaleUp (v : FVal) (x : Int) : FVal := scaleDown v (-x)

/-- The exponent of an element format's largest binade: 8, 15, 4, 2, 2, 0 (R133). -/
def mxEmax (code : Nat) : Int :=
  match code with
  | 0 => 8 | 1 => 15 | 2 => 4 | 3 => 2 | 4 => 2 | _ => 0

/-- Convert one MX block of 32 values: scale byte, elements, flags (R133). -/
def mxBlock (code : Nat) (modes : List RMode) (vs : List FVal) : Nat × List Nat × AFlags :=
  if vs.any (fun v => !v.isFin) then (255, vs.map (fun _ => 0), { scaleNan := true })
  else
    let x0 := match eMax vs with
      | some e => e - mxEmax code
      | none => -127
    let x := max (-127) (min 127 x0)
    let els := List.zipWith (fun v m => convElem code m (scaleDown v x)) vs modes
    ((x + 127).toNat, els.map (·.1), els.foldl (fun f e => f.or e.2) { sat := decide (127 < x0) })

/-- Split a list into pieces of `n` (fuel bounds the count). -/
def chunks {α : Type} (n : Nat) : Nat → List α → List (List α)
  | 0, _ => []
  | k + 1, l => if l.isEmpty then [] else l.take n :: chunks n k (l.drop n)

/-- Pack elements of a width from the low bit upward into 128 B rows (R113, R129). -/
def packRows (w : Nat) (els : List Nat) : List Row :=
  let total := els.foldr (fun e n => e % 2 ^ w + n * 2 ^ w) 0
  (List.range ((els.length * w + 1023) / 1024)).map (fun i => BitVec.ofNat 1024 (total / 2 ^ (1024 * i)))

/-- The elements of width `w` of rows, from the low bit upward. -/
def unpackRows (w : Nat) (rows : List Row) : List Nat :=
  let total := rows.foldr (fun r n => r.toNat + n * 2 ^ 1024) 0
  (List.range (rows.length * 1024 / w)).map (fun i => total / 2 ^ (w * i) % 2 ^ w)

/-- Pad a list of rows with zero rows. -/
def padRows (n : Nat) (rows : List Row) : List Row := rows ++ List.replicate (n - rows.length) 0

/-- Rows of a set operand from block scales and elements: each set of up to 8 groups is a scale row and its data rows
(R114, R130). -/
def mxSets (w : Nat) : Nat → List Nat → List Nat → List Row
  | 0, _, _ => []
  | k + 1, scales, els =>
    if scales.isEmpty then []
    else
      let sc := scales.take 128
      let es := els.take (128 * 32)
      padRows 1 (packRows 8 sc) ++ packRows w es ++ mxSets w k (scales.drop 128) (els.drop (128 * 32))

/-- Rows a DRAIN writes by output format (R129). -/
def drainRows (ofmt : Nat) : Nat :=
  match ofmt with
  | 0xB => 8 | 0xC => 12 | 0x9 => 4 | 0xA => 4 | 0x6 => 2 | 0x7 => 2 | 0x8 => 1 | 0x4 => 2 | _ => 3

/-- Rounding modes of `n` elements from draws (R131). -/
def modesOf (sr : Bool) (n : Nat) (draws : List Nat) : List RMode :=
  if sr then draws.map .sr else List.replicate n .rne

/-- Convert a tile's 256 elements and lay them out in rows (R129 to R133). -/
def drainConvert (ofmt ots : Nat) (modes : List RMode) (els : List (BitVec 46)) : List Row × AFlags :=
  if ofmt = 0xC then (packRows 48 (els.map (·.toNat)), {})
  else
    let vs := els.map (fun e => fmtAX46.decode e.toNat)
    if isMX ofmt then
      let blocks := List.zipWith (fun v m => mxBlock ofmt m v) (chunks 32 8 vs) (chunks 32 8 modes)
      let els := blocks.flatMap (·.2.1)
      (padRows 1 (packRows 8 (blocks.map (·.1))) ++ packRows (codeWidth ofmt) els,
        blocks.foldl (fun f b => f.or b.2.2) {})
    else
      let sc : Int := if isPlain ofmt then (ots : Int) - 127 else 0
      let cs := List.zipWith (fun v m => convElem ofmt m (scaleDown v sc)) vs modes
      (packRows (codeWidth ofmt) (cs.map (·.1)), cs.foldl (fun f c => f.or c.2) {})

end Sys2Proof.Machine
end

