-- ==== Sys2Proof/Machine/VecArith.lean ====
section
/-! DEFINITION. What each VEC operation computes from the rows it has read (R158 to R174, R438, R442): output rows,
tokens, the state it keeps and its VEC_STAT bits. One definition for each operation. -/

namespace Sys2Proof.Machine

/-- Results of a VEC operation. `d1` is none where DST1 receives a copy of DST0's rows. -/
structure VecOut where
  d0 : List Entry := []
  d1 : Option (List Entry) := none
  tokens : List (BitVec 16) := []
  vec : VecState := {}
  rng : Stream := {}
  flags : VFlags := {}
  deriving DecidableEq, Repr

/-- VEC_STAT bits of the flags. -/
def VFlags.bits (f : VFlags) : Nat :=
  bit f.domain * 64 + bit f.nan * 32 + bit f.ovf * 16 + bit f.under * 8 + bit f.sat * 4 + bit f.short * 2 + bit f.allVoid

/-- A SELECT token (R75). -/
def tokSelect (v : Nat) : BitVec 16 := BitVec.ofNat 16 (v % 256)

/-- A PREFIX token (R75). -/
def tokPrefixLen (v : Nat) : BitVec 16 := BitVec.ofNat 16 (0x4000 + v % 256)

/-- FP32 words of a row's `e` elements in format BF16 or FP32 (R158): BF16 widens exactly. -/
def rowWords (fmt e : Nat) (r : Row) : List Word :=
  if fmt = 9 then (List.range e).map (fun i => BitVec.ofNat 32 (r.toNat / 2 ^ (16 * i) % 2 ^ 16 * 2 ^ 16))
  else (List.range e).map (fun i => BitVec.ofNat 32 (r.toNat / 2 ^ (32 * i) % 2 ^ 32))

/-- Round a vector result to FP32 and then, for BF16, once more (R160). -/
def outElem (ofmt : Nat) (mode : RMode) (v : FVal) : Nat × VFlags :=
  let (w, f) := toF32 v
  if ofmt = 9 then
    let (b, g) := fmtBF16.vround mode (f32 w)
    (b, f.or g)
  else (w.toNat, f)

/-- A row of results in an output format, with the draws of its positions (R160, R175). -/
def outRow (ofmt : Nat) (modes : List RMode) (vs : List FVal) : Row × VFlags :=
  let cs := List.zipWith (outElem ofmt) modes vs
  ((packRows (if ofmt = 9 then 16 else 32) (cs.map (·.1))).headD 0, cs.foldl (fun f c => f.or c.2) {})

/-- Process rows in order, each with its own draws; a void row consumes the same draws (R175). -/
def mapRows (sr : Bool) (ofmt e : Nat) (f : Nat → Option (List FVal × VFlags)) : Nat → Nat → Stream → List Entry × Stream × VFlags
  | 0, _, st => ([], st, {})
  | n + 1, i, st =>
    let (draws, st') := if sr then st.draws16 e else ([], st)
    let (ent, fl) : Entry × VFlags :=
      match f i with
      | none => (none, {})
      | some (vs, fl) =>
        let (r, g) := outRow ofmt (modesOf sr e draws) vs
        (some r, fl.or g)
    let (rest, st'', fl') := mapRows sr ofmt e f n (i + 1) st'
    (ent :: rest, st'', fl.or fl')

/-- Entry `i` of an input. -/
def entAt (l : List Entry) (i : Nat) : Entry := (l[i]?).getD none

/-- An operation that works row by row on up to three sources (R74: void when any input row is void). `g` gives the
exact results of the row's words; SRC1 = none takes IMM broadcast. -/
def elementwise (a : VecArgs) (i0 i1 i2 : List Entry) (vec : VecState) (rng : Stream)
    (g : List Word → List Word → List Word → List FVal × VFlags) : VecOut :=
  let e := vecE a
  let imm := List.replicate e a.imm
  let row : Nat → Option (List FVal × VFlags) := fun i =>
    let r0 := entAt i0 i
    let r1 := if a.s1 = .none then some 0 else entAt i1 i
    let r2 := if a.s2 = .none then some 0 else entAt i2 i
    match r0, r1, r2 with
    | some x, some y, some z =>
      some (g (rowWords a.ifmt e x) (if a.s1 = .none then imm else rowWords a.ifmt e y) (rowWords a.ifmt e z))
    | _, _, _ => none
  let (d, st, fl) := mapRows a.sr a.ofmt e row (min a.rows i0.length) 0 rng
  { d0 := d, vec := vec, rng := st, flags := fl }

/-- ADD, SUB, MUL, MAX, MIN: one exact result per element (R160, R162). -/
def vecBinary (f : FVal → FVal → FVal) (a : VecArgs) (i0 i1 i2 : List Entry) (vec : VecState) (rng : Stream) : VecOut :=
  elementwise a i0 i1 i2 vec rng (fun x y _ => (List.zipWith (fun p q => f (f32 p) (f32 q)) x y, {}))

/-- FMA: SRC0 × SRC1 + SRC2 with one rounding; SRC2 = none adds −0 (R442). -/
def vecFmaRows (a : VecArgs) (i0 i1 i2 : List Entry) (vec : VecState) (rng : Stream) : VecOut :=
  elementwise a i0 i1 i2 vec rng (fun x y z =>
    let c := if a.s2 = .none then List.replicate x.length (FVal.fin true 0 0) else z.map f32
    (List.zipWith FVal.add (List.zipWith (fun p q => (f32 p).mul (f32 q)) x y) c, {}))

/-- MOV: a copy; a change of format converts each element (R162), and a NaN comes out canonical (R160). -/
def vecMovRows (a : VecArgs) (i0 i1 i2 : List Entry) (vec : VecState) (rng : Stream) : VecOut :=
  elementwise a i0 i1 i2 vec rng (fun x _ _ => (x.map f32, {}))

/-- The transcendental operations: x = SRC0 × IMM rounded to FP32, then the function (R163). -/
def vecTranscend (fn : Word → FVal × VFlags) (a : VecArgs) (i0 i1 i2 : List Entry) (vec : VecState) (rng : Stream) : VecOut :=
  let a' := { a with s1 := Sel.none }
  elementwise a' i0 i1 i2 vec rng (fun x y _ =>
    let xs := List.zipWith (fun p q => toF32 ((f32 p).mul (f32 q))) x y
    let rs := xs.map (fun p => fn p.1)
    (rs.map (·.1), (xs.foldl (fun (f : VFlags) p => f.or p.2) {}).or (rs.foldl (fun (f : VFlags) p => f.or p.2) {})))

/-- A result that is +0 though its operand is finite sets UNDER (R163). -/
def zeroUnder (x : Word) (v : FVal) : VFlags := { under := (f32 x).isFin && v.isZero && !(f32 x).isZero }

def fnExp (x : Word) : FVal × VFlags := (expVal x, { under := (f32 x).isFin && (expVal x).isZero })
def fnLog (x : Word) : FVal × VFlags := ((logVal x).1, { domain := (logVal x).2 })
def fnRsqrt (x : Word) : FVal × VFlags := ((rsqrtVal x).1, { domain := (rsqrtVal x).2 })
def fnSigmoid (x : Word) : FVal × VFlags := (sigmoidVal x, { under := (f32 x).isFin && (sigmoidVal x).isZero })
def fnErf (x : Word) : FVal × VFlags := (erfVal x, zeroUnder x (erfVal x))

/-- A word with the flags of the roundings that led to it. -/
abbrev Flagged := Word × VFlags

/-- One level of a pairwise tree over adjacent values; a value without a partner passes up. -/
def pairUp {α : Type} (f : α → α → α) : List α → List α
  | x :: y :: r => f x y :: pairUp f r
  | l => l

/-- A fixed pairwise tree (R164, R168); `fuel` bounds its height. -/
def pairTree {α : Type} (f : α → α → α) (d : α) : Nat → List α → α
  | 0, l => l.headD d
  | n + 1, l => match l with
    | [] => d
    | [x] => x
    | l => pairTree f d n (pairUp f l)

/-- The values in the order in which an operation's fixed tree pairs them. The spec does not say what pairs with what: the order is
free (UNVERIFIED, log entry 14). -/
def treeOrder {α : Type} (op : Nat) (d : α) (xs : List α) : List α :=
  let o := Config.treeOrder op xs.length
  if o.length = xs.length ∧ o.Nodup ∧ o.all (fun i => decide (i < xs.length)) then o.map (fun i => xs.getD i d) else xs

/-- An exact value rounded to FP32, and the flags of its operands with its own (R160). -/
def roundF (x y : Flagged) (v : FVal) : Flagged :=
  let r := toF32 v
  (r.1, (x.2.or y.2).or r.2)

/-- FP32 sum, to nearest even. -/
def addF (x y : Flagged) : Flagged := roundF x y ((f32 x.1).add (f32 y.1))

/-- FP32 product. -/
def mulF (x y : Flagged) : Flagged := roundF x y ((f32 x.1).mul (f32 y.1))

/-- A word that no rounding has made. -/
def plain (x : Word) : Flagged := (x, {})

/-- FP32 sum over the fixed pairwise tree of an operation. -/
def sumTree (op : Nat) (xs : List Flagged) : Flagged := pairTree addF (plain 0) 16 (treeOrder op (plain 0) xs)

/-- The bits that VEC_STAT takes from the roundings inside a composite operation. The spec defines the bits for the operation's results
and does not say whether an inner step counts, so whether it does is free (UNVERIFIED, log entry 55). -/
def stepFlags (op : Nat) (f : VFlags) : VFlags :=
  { nan := f.nan && Config.stepFlag op 5, ovf := f.ovf && Config.stepFlag op 4, under := f.under && Config.stepFlag op 3 }

/-- Segments of a row. -/
def segments (l : Nat) (xs : List Word) : List (List Word) := chunks l 64 xs

/-- One element of NORM: x × rsqrt(s/L + ε) × g within 4 ULP of its exact value (R164). -/
def normElem (s : Word) (l : Nat) (eps : Word) (x g : Word) : FVal × VFlags :=
  let mean := scaleDown (f32 s) (Nat.log2 l : Nat)
  let d := mean.add (f32 eps)
  let xg := (f32 x).mul (f32 g)
  match d with
  | .nan => (.nan, {})
  | .inf false => ((f32 x).mul ((FVal.fin false 0 0).mul (f32 g)), {})
  | .inf true => (.nan, { domain := true })
  | .fin sg m e =>
    if m = 0 then ((f32 x).mul ((FVal.inf sg).mul (f32 g)), {})
    else if sg then (.nan, { domain := true })
    else
      match xg with
      | .fin n mm ee =>
        if mm = 0 then (.fin n 0 0, {})
        else
          let r := rsqrtFx m e
          let v := withinUlp 4 (Config.normChoice s x g) n (mm * r.1) (ee + r.2)
          (v, { under := v.isZero })
      | v => (v, {})

/-- NORM (R164). -/
def vecNormRows (a : VecArgs) (i0 i1 i2 : List Entry) (vec : VecState) (rng : Stream) : VecOut :=
  let one : Word := 0x3F800000
  let l := segLen a (vecE a)
  elementwise { a with imm := if a.s1 = .none then one else a.imm } i0 i1 i2 vec rng (fun x g _ =>
    let segs := List.zip (segments l x) (segments l g)
    let rs := segs.flatMap (fun p =>
      let s := sumTree a.op (p.1.map (fun w => mulF (plain w) (plain w)))
      List.zipWith (fun xe ge => let r := normElem s.1 l a.imm xe ge; (r.1, r.2.or (stepFlags a.op s.2))) p.1 p.2)
    (rs.map (·.1), rs.foldl (fun f r => f.or r.2) {}))

/-- The predicate of CMP (R167). -/
def cmpPred (p : Nat) (int : Bool) (x y : Word) : Bool :=
  if int then
    match p with
    | 0 => decide (x = y) | 1 => decide (x ≠ y) | 2 => decide (x.toNat < y.toNat) | 3 => decide (x.toNat ≤ y.toNat)
    | 4 => decide (y.toNat < x.toNat) | _ => decide (y.toNat ≤ x.toNat)
  else
    let u := f32 x
    let v := f32 y
    if u.isNaN || v.isNaN then decide (p = 1)
    else
      match p with
      | 0 => u.eq v | 1 => !u.eq v | 2 => u.lt v | 3 => !v.lt u | 4 => v.lt u | _ => !u.lt v

/-- The SELECT token of a CMP row by mode (R167). -/
def cmpToken (mode : Nat) (bs : List Bool) : BitVec 16 :=
  let t := if mode = 0 then bs.any id else if mode = 1 then bs.all id else bs.headD false
  tokSelect (if t then 0 else 1)

/-- CMP (R167). -/
def vecCmpRows (a : VecArgs) (i0 i1 i2 : List Entry) (vec : VecState) (rng : Stream) : VecOut :=
  let e := vecE a
  let int := decide (a.aux = 2048) && decide (a.ifmt = 0xB)
  let bools : Nat → Option (List Bool) := fun i =>
    match entAt i0 i, (if a.s1 = .none then some 0 else entAt i1 i) with
    | some x, some y =>
      some (List.zipWith (cmpPred (a.uf % 8) int) (rowWords a.ifmt e x)
        (if a.s1 = .none then List.replicate e a.imm else rowWords a.ifmt e y))
    | _, _ => none
  let o := elementwise a i0 i1 i2 vec rng (fun x y _ =>
    (List.zipWith (fun p q => if cmpPred (a.uf % 8) int p q then FVal.fin false 1 0 else .fin false 0 0) x y, {}))
  { o with tokens := (List.range (min a.rows i0.length)).map (fun i =>
      match bools i with
      | none => tokSelect 3
      | some bs => cmpToken (a.uf / 8) bs) }

/-- An operation of a tree in which a missing value is the identity (R74). -/
def withIdentity (f : Flagged → Flagged → Flagged) (x y : Option Flagged) : Option Flagged :=
  match x, y with
  | some a, some b => some (f a b)
  | some a, none => some a
  | none, b => b

/-- One reduction of the values of a column with their void rows in place: 0 SUM, 1 MAX, 2 MIN, 3 SUMSQ, 4 ABSMAX (R74, R168). -/
def reduceOpt (vop red : Nat) (xs : List (Option Word)) : Flagged :=
  let pick (f : FVal → FVal → FVal) (x y : Flagged) : Flagged := roundF x y (f (f32 x.1) (f32 y.1))
  let tree (f : Flagged → Flagged → Flagged) (g : Word → Flagged) (ordered : Bool) : Flagged :=
    let vs := xs.map (fun x => x.map g)
    (pairTree (withIdentity f) none 16 (if ordered then treeOrder vop none vs else vs)).getD (plain 0)
  match red with
  | 0 => tree addF plain true
  | 1 => tree (pick FVal.maxOf) plain false
  | 2 => tree (pick FVal.minOf) plain false
  | 3 => tree addF (fun x => mulF (plain x) (plain x)) true
  | _ => tree (pick FVal.maxOf) (fun x => roundF (plain x) (plain x) (f32 x).abs) false

/-- One reduction of a list: 0 SUM, 1 MAX, 2 MIN, 3 SUMSQ, 4 ABSMAX (R168). -/
def reduceF (vop red : Nat) (xs : List Word) : Flagged :=
  let pick (f : FVal → FVal → FVal) (x y : Flagged) : Flagged := roundF x y (f (f32 x.1) (f32 y.1))
  match red with
  | 0 => sumTree vop (xs.map plain)
  | 1 => pairTree (pick FVal.maxOf) (plain 0) 16 (xs.map plain)
  | 2 => pairTree (pick FVal.minOf) (plain 0) 16 (xs.map plain)
  | 3 => sumTree vop (xs.map (fun x => mulF (plain x) (plain x)))
  | _ => pairTree (pick FVal.maxOf) (plain 0) 16 (xs.map (fun x => roundF (plain x) (plain x) (f32 x).abs))

/-- The flags of a reduction's result: a finite operation that overflowed to infinity, a nonzero sum of squares that came out zero
(VEC_STAT), and the inner steps. -/
def reduceFlags (vop red : Nat) (xs : List Word) (r : Flagged) : VFlags :=
  let v := f32 r.1
  let sure : VFlags :=
    { ovf := !v.isFin && !v.isNaN && xs.all (fun x => (f32 x).isFin),
      under := decide (red = 3) && v.isZero && xs.any (fun x => !(f32 x).isZero) }
  sure.or (stepFlags vop r.2)

/-- A reduction's result, exact from here on, and its flags. -/
def reduceVal (vop red : Nat) (xs : List Word) : FVal × VFlags :=
  let r := reduceF vop red xs
  (f32 r.1, reduceFlags vop red xs r)

/-- RRED: each segment of each row (R168). -/
def vecRredRows (a : VecArgs) (i0 i1 i2 : List Entry) (vec : VecState) (rng : Stream) : VecOut :=
  let e := vecE a
  elementwise a i0 i1 i2 vec rng (fun x _ _ =>
    let rs := (segments (segLen a e) x).map (reduceVal a.op a.uf)
    (rs.map (·.1) ++ List.replicate (e - rs.length) (.fin false 0 0), rs.foldl (fun f r => f.or r.2) {}))

/-- CRED: running column-wise reductions; a void row stays in the fixed tree as the identity (R168, R74). -/
def vecCredRows (a : VecArgs) (i0 _i1 _i2 : List Entry) (vec : VecState) (rng : Stream) : VecOut :=
  let e := vecE a
  let row : Nat → Option (List FVal × VFlags) := fun i =>
    if a.uf / 8 = 1 ∧ i + 1 < a.rows then none
    else
      let rows := i0.take (i + 1)
      if rows.all Option.isNone then none
      else
        let cols := rows.map (fun r => r.map (rowWords a.ifmt e))
        let rs := (List.range e).map (fun j =>
          let xs := cols.map (fun c => c.map (fun w => w.getD j 0))
          let v := reduceOpt a.op (a.uf % 8) xs
          (f32 v.1, reduceFlags a.op (a.uf % 8) (xs.filterMap id) v))
        some (rs.map (·.1), rs.foldl (fun f r => f.or r.2) {})
  let (d, st, fl) := mapRows a.sr a.ofmt e row (min a.rows i0.length) 0 rng
  { d0 := d, vec := vec, rng := st, flags := fl }

/-- A candidate of TOPK or SAMPLE: FP32 value and index. -/
abbrev Cand := Word × Nat

/-- Candidate order of TOPK: larger value first, NaN below −∞, ties to the lower index (R169). -/
def candBefore (x y : Cand) : Bool :=
  let u := f32 x.1
  let v := f32 y.1
  if u.isNaN then v.isNaN && decide (x.2 < y.2)
  else if v.isNaN then true
  else if v.lt u then true
  else if u.lt v then false
  else decide (x.2 < y.2)

/-- The first candidate in an order. -/
def bestOf (before : Cand → Cand → Bool) : List Cand → Option Cand
  | [] => none
  | c :: r => match bestOf before r with
    | none => some c
    | some d => some (if before d c then d else c)

/-- The first `k` candidates in an order; equal slots of two merged rows are candidates of their own (R169). -/
def topOf (before : Cand → Cand → Bool) : Nat → List Cand → List Cand
  | 0, _ => []
  | k + 1, cs => match bestOf before cs with
    | none => []
    | some c => c :: topOf before k (cs.erase c)

/-- A row in TOPK format: 16 values and 16 indices, unused slots +0 and 0xFFFF_FFFF (R169). -/
def topkRow (cs : List Cand) : Row :=
  let pad := 16 - cs.length
  (packRows 32 (cs.map (fun c => c.1.toNat) ++ List.replicate pad 0 ++ cs.map (fun c => c.2)
    ++ List.replicate pad 0xFFFFFFFF)).headD 0

/-- Candidates of candidate rows with their positions; void rows give none (R169, R170). -/
def candsOf (ifmt : Nat) (rows : List Entry) : List (Option Word) :=
  rows.flatMap (fun r => match r with
    | none => List.replicate (candE ifmt) none
    | some x => (rowWords ifmt (candE ifmt) x).map some)

/-- Pair with positions from `i`. -/
def withIndex {α : Type} (i : Nat) : List α → List (α × Nat)
  | [] => []
  | x :: r => (x, i) :: withIndex (i + 1) r

/-- Candidates of TOPK output rows with their stored indices (R169 MERGE). -/
def mergeCands (rows : List Entry) : List Cand :=
  rows.flatMap (fun r => match r with
    | none => []
    | some x =>
      let w := rowWords 0xB 32 x
      (List.range 16).filterMap (fun i =>
        if w.getD (16 + i) 0 = 0xFFFFFFFF then none else some (w.getD i 0, (w.getD (16 + i) 0).toNat)))

/-- TOPK (R169): after its last input row, one output row. -/
def vecTopkRows (a : VecArgs) (i0 _i1 _i2 : List Entry) (vec : VecState) (rng : Stream) : VecOut :=
  let k := a.aux % 16 + 1
  let cs : List Cand :=
    if a.uf % 2 = 1 then mergeCands i0
    else (withIndex 0 (candsOf a.ifmt i0)).filterMap (fun c => c.1.map (fun w => (w, c.2 + 4096 * (a.aux / 16))))
  let top := topOf candBefore k cs
  let top' := top.map (fun c => (if (f32 c.1).isNaN then BitVec.ofNat 32 fmtFP32.encNaN else c.1, c.2))
  { d0 := [some (topkRow top')], vec := vec, rng := rng, flags := { short := decide (cs.length < k) } }

/-- IEEE 754 quotient, exact up to the sticky bit that nearest-even rounding to FP32 needs. -/
def divVal (x y : FVal) : FVal :=
  match x, y with
  | .nan, _ => .nan
  | _, .nan => .nan
  | .inf _, .inf _ => .nan
  | .inf s, .fin t _ _ => .inf (s != t)
  | .fin s _ _, .inf t => .fin (s != t) 0 0
  | .fin s m e, .fin t n f =>
    if n = 0 then (if m = 0 then .nan else .inf (s != t))
    else
      let q := m * 2 ^ 64 / n
      let sticky := if m * 2 ^ 64 % n = 0 then 0 else 1
      .fin (s != t) (2 * q + sticky) (e - f - 65)

/-- The Gumbel value −ln(−ln u′) of a draw, u′ = (u + 0.5)/2^24 (R170). R170 states no precision: the value is within the bound of
LOG (R163) of the exact one, and which one is free (log entry 8). -/
def gumbelVal (u : BitVec 24) : Word :=
  let t := (-(lnFx (2 * u.toNat + 1) (-25))).toNat
  let g := -(lnFx t (-(fxP : Int)))
  (toF32 (withinUlp 2 (Config.gumbel u).toNat (decide (g < 0)) g.natAbs (-(fxP : Int)))).1

/-- exp of a value that is at most 0, as a multiple of 2^-300. -/
def expWeight (v : FVal) : Nat :=
  match v with
  | .fin s m e =>
    if magLt 512 0 m e then 0
    else
      let p := expFx (toFx s m e)
      let sh := p.2 + 300
      if 0 ≤ sh then p.1 * 2 ^ sh.toNat else p.1 / 2 ^ (-sh).toNat
  | _ => 0

/-- The softmax probability of candidate `i` (R170). R170 states no precision: the value is within the bound of EXP (R163) of the exact
one, and which one is free; where no largest candidate is finite the value is free (log entry 8). -/
def softmaxVal (zs : List Word) (i : Nat) : Word :=
  let vs := zs.map f32
  let top := vs.foldl FVal.maxOf (.inf true)
  if top.isFin then
    let ws := vs.map (fun v => expWeight (v.add top.neg))
    let w := ws.getD i 0
    if w = 0 then 0
    else (toF32 (withinUlp 2 (Config.softmaxPi zs i).toNat false (w * 2 ^ 300 / ws.foldl (· + ·) 0) (-300))).1
  else Config.softmaxPi zs i

/-- The shortest leading run of the ordered candidates whose cumulative probability reaches `p`/4096, at least one
(R170). -/
def topPRun (zs : List Word) (p : Nat) : Nat → Nat → FVal → Nat
  | 0, n, _ => n
  | fuel + 1, n, acc =>
    let acc' := acc.add (f32 (softmaxVal zs n))
    if acc'.lt (.fin false p (-12)) ∧ n + 1 < zs.length then topPRun zs p fuel (n + 1) acc' else n + 1

/-- SAMPLE (R170): one draw for every candidate position. -/
def vecSampleRows (a : VecArgs) (i0 _i1 _i2 : List Entry) (vec : VecState) (rng : Stream) : VecOut :=
  let partMode := decide (a.uf % 2 = 1)
  let t := f32 a.imm
  let badT := t.isNaN || (t.isNeg && !t.isZero)
  let greedy := badT || t.isZero
  let cands := candsOf a.ifmt i0
  let (us, rng') := rng.draws24 cands.length
  let zF : Word → Flagged := fun x => if greedy then plain x else roundF (plain x) (plain x) (divVal (f32 x) t)
  let z : Word → Word := fun x => (zF x).1
  let all : List (Cand × BitVec 24) :=
    (List.zip (withIndex 0 cands) us).filterMap (fun c =>
      match c.1.1 with
      | none => none
      | some x => if (f32 (z x)).isNaN then none else some ((z x, c.1.2), c.2))
  let ordered := topOf candBefore all.length (all.map (·.1))
  let zs := ordered.map (·.1)
  let kept := if partMode ∨ a.aux = 0 then ordered else ordered.take (topPRun zs a.aux ordered.length 0 (.fin false 0 0))
  let scoreF : Word → BitVec 24 → Flagged := fun zv u => addF (plain zv) (plain (if greedy then 0 else gumbelVal u))
  let scored : List (Cand × Word) := (all.filter (fun c => kept.contains c.1)).map (fun c => (c.1, (scoreF c.1.1 c.2).1))
  let best := bestOf candBefore (scored.map (fun c => (c.2, c.1.2)))
  let inner := all.foldl (fun f c => f.or (scoreF c.1.1 c.2).2)
    (cands.foldl (fun f c => match c with | some x => f.or (zF x).2 | none => f) ({} : VFlags))
  let inner := { stepFlags a.op inner with domain := badT }
  match best with
  | none => { d0 := [none], vec := vec, rng := rng', flags := { inner with allVoid := true } }
  | some (zg, idx) =>
    let x := ((cands[idx]?).getD none).getD 0
    let score := (scoreF (z x) (us.getD idx 0)).2
    if partMode then
      { d0 := [some (topkRow [(zg, idx + 4096 * (a.aux % 256))])], vec := vec, rng := rng', flags := inner.or score }
    else
      let pi := if a.aux = 0 then 0 else (softmaxVal zs (ordered.findIdx (fun c => decide (c.2 = idx)))).toNat
      { d0 := [some ((packRows 32 [idx, (z x).toNat, pi, zg.toNat]).headD 0)], vec := vec, rng := rng',
        flags := (inner.or score).or (zF x).2 }

/-- Number of leading positions whose sample equals the draft (R171). -/
def acceptedLen (samples drafts : List Word) : Nat → Nat → Nat
  | 0, a => a
  | n + 1, a => if samples.getD a 0 = drafts.getD a 0 then acceptedLen samples drafts n (a + 1) else a

/-- VERIFY (R171). -/
def vecVerifyRows (a : VecArgs) (i0 i1 _i2 : List Entry) (vec : VecState) (rng : Stream) : VecOut :=
  match i0.all Option.isSome, entAt i1 0 with
  | true, some drafts =>
    let samples := i0.map (fun r => ((rowWords 0xB 32 (r.getD 0)).headD 0))
    let acc := acceptedLen samples (rowWords 0xB 32 drafts) (a.rows - 1) 0
    { d0 := [some ((packRows 32 [acc, (samples.getD acc 0).toNat]).headD 0)], tokens := [tokPrefixLen acc], vec := vec,
      rng := rng }
  | _, _ => { d0 := [none], tokens := [tokSelect 3], vec := vec, rng := rng, flags := { allVoid := true } }

/-- Rows of SCAN from row `i`: the state after and the entries (R173). -/
def scanRows (a : VecArgs) (i0 i1 : List Entry) (e : Nat) : Nat → Nat → List Word → Stream → List Entry × List Word × Stream × VFlags
  | 0, _, h, st => ([], h, st, {})
  | n + 1, i, h, st =>
    let (draws, st') := if a.sr then st.draws16 e else ([], st)
    match entAt i0 i, (if a.s1 = .none then some 0 else entAt i1 i) with
    | some ra, some rb =>
      let bs := if a.s1 = .none then List.replicate e (FVal.fin true 0 0) else (rowWords a.ifmt e rb).map f32
      let vs := List.zipWith FVal.add (List.zipWith (fun x y => (f32 x).mul (f32 y)) (rowWords a.ifmt e ra) h) bs
      let h' := vs.map (fun v => (toF32 v).1)
      let (r, fl) := outRow a.ofmt (modesOf a.sr e draws) vs
      let (rest, hf, stf, fl') := scanRows a i0 i1 e n (i + 1) h' st'
      (some r :: rest, hf, stf, fl.or fl')
    | _, _ =>
      let (rest, hf, stf, fl') := scanRows a i0 i1 e n (i + 1) h st'
      (none :: rest, hf, stf, fl')

/-- Put a list of words into a lane table from key `k`; +0 is the default. -/
def putLanes (t : Tbl Word) : Nat → List Word → Tbl Word
  | _, [] => t
  | k, w :: r => putLanes (Tbl.set 0 t k w) (k + 1) r

/-- SCAN (R173): a linear recurrence per lane in row order, the state kept between operations. -/
def vecScanRows (a : VecArgs) (i0 i1 _i2 : List Entry) (vec : VecState) (rng : Stream) : VecOut :=
  let e := vecE a
  let h0 := (List.range e).map (fun j => if a.uf % 2 = 1 then a.imm else Tbl.get 0 vec.h j)
  let hBase := if a.uf % 2 = 1 then putLanes [] 0 (List.replicate 64 a.imm) else vec.h
  let (d, h, st, fl) := scanRows a i0 i1 e (min a.rows i0.length) 0 h0 rng
  { d0 := d, vec := { vec with h := putLanes hBase 0 h }, rng := st, flags := fl }

/-- −∞ in FP32: what an unlisted running maximum reads as (R174). -/
def negInf : Word := 0xFF800000

/-- What one tile row of SMAXD gives (R172): the new state, p, the value DST1 carries, and the VEC_STAT bits. -/
structure SmaxdOut where
  m : Word
  s : Word
  p : List Word
  d1 : Word
  flags : VFlags
  deriving DecidableEq, Repr

/-- exp(x − m) in FP32; a nonzero exponential that is +0 sets UNDER (R163, R172). The flags of the difference come second. -/
def smaxdExp (x m : Word) : Flagged × VFlags :=
  let d := toF32 ((f32 x).add (f32 m).neg)
  let v := expVal d.1
  let r := toF32 v
  ((r.1, { r.2 with under := r.2.under || ((f32 d.1).isFin && (f32 r.1).isZero) }), d.2)

/-- One tile row of SMAXD (R172). -/
def smaxdHalf (a : VecArgs) (m s : Word) (emitS : Bool) (xs : List Word) : SmaxdOut :=
  let scs := xs.map (fun x => mulF (plain x) (plain a.imm))
  let sc := scs.map (·.1)
  let m' := (toF32 ((f32 m).maxOf (f32 (reduceF a.op 1 sc).1))).1
  let both := decide (m = negInf) && decide (m' = negInf)
  let c : Flagged × VFlags := if both then (plain 0x3F800000, {}) else smaxdExp m m'
  let ps : List (Flagged × VFlags) := sc.map (fun x => if both then (plain 0, {}) else smaxdExp x m')
  let sum := sumTree a.op (ps.map (fun p => plain p.1.1))
  let s' := addF (mulF (plain s) (plain c.1.1)) sum
  let inner := (scs.foldl (fun f x => f.or x.2) ({} : VFlags)).or (ps.foldl (fun f x => f.or x.2) c.2)
  let inner := inner.or (if emitS then c.1.2 else s'.2)
  let sure := ps.foldl (fun f x => f.or x.1.2) (if emitS then { s'.2 with nan := false } else c.1.2)
  { m := m', s := s'.1, p := ps.map (·.1.1), d1 := if emitS then s'.1 else c.1.1, flags := sure.or (stepFlags a.op inner) }

/-- SMAXD rows from row `i` (R172). With SR = 1 each element of DST0 and then each of DST1 takes a draw, row by row (R160, R175); that
DST0's come first is the model's choice (DESIGN CHOICE, log entry 59). -/
def smaxdRows (a : VecArgs) (i0 : List Entry) : Nat → Nat → VecState → Stream → List Entry × List Entry × VecState × Stream × VFlags
  | 0, _, v, st => ([], [], v, st, {})
  | n + 1, i, v, st =>
    let two := decide (a.d1 ≠ .none)
    let (draws, st') := if a.sr then st.draws16 (if two then 64 else 32) else ([], st)
    match entAt i0 i with
    | some r =>
      let w := rowWords 0xB 32 r
      let t := 2 * (i % 8)
      let emitS := decide (a.uf / 2 % 2 = 1)
      let h0 := smaxdHalf a (Tbl.get negInf v.m t) (Tbl.get 0 v.s t) emitS (w.take 16)
      let h1 := smaxdHalf a (Tbl.get negInf v.m (t + 1)) (Tbl.get 0 v.s (t + 1)) emitS (w.drop 16)
      let v' := { v with m := Tbl.set negInf (Tbl.set negInf v.m t h0.m) (t + 1) h1.m,
                         s := Tbl.set 0 (Tbl.set 0 v.s t h0.s) (t + 1) h1.s }
      let (p, f1) := outRow a.ofmt (modesOf a.sr 32 (draws.take 32)) ((h0.p ++ h1.p).map f32)
      let (c, f2) := outRow a.ofmt (if two then modesOf a.sr 32 (draws.drop 32) else List.replicate 32 .rne) ((List.replicate 16 h0.d1 ++ List.replicate 16 h1.d1).map f32)
      let (d0, d1, vf, sf, ff) := smaxdRows a i0 n (i + 1) v' st'
      (some p :: d0, some c :: d1, vf, sf, (((f1.or f2).or h0.flags).or h1.flags).or ff)
    | none =>
      let (d0, d1, vf, sf, ff) := smaxdRows a i0 n (i + 1) v st'
      (none :: d0, none :: d1, vf, sf, ff)

/-- SMAXD (R172): online softmax on drain rows. -/
def vecSmaxdRows (a : VecArgs) (i0 _i1 _i2 : List Entry) (vec : VecState) (rng : Stream) : VecOut :=
  let v0 := if a.uf % 2 = 1 then { vec with m := [], s := [] } else vec
  let (d0, d1, v, st, fl) := smaxdRows a i0 (min a.rows i0.length) 0 v0 rng
  { d0 := d0, d1 := some d1, vec := v, rng := st, flags := fl }

/-- Elements of CVT's input: none where their row, or the scale row of their set, is void (R74, R114, R166). -/
def cvtIn (a : VecArgs) (rows : List Entry) : List (Option FVal) :=
  let w := codeWidth a.ifmt
  if isMX a.ifmt then
    let per := 1 + 8 * w / 2
    (chunks per 9000 rows).flatMap (fun set =>
      let scale := entAt set 0
      let data := set.drop 1
      let els := (unpackRows w (data.map (fun r => r.getD 0))).take (data.length * 1024 / w)
      let rowSpan := fun (j : Nat) => (entAt data (j * w / 1024)).isSome && (entAt data ((j * w + w - 1) / 1024)).isSome
      (withIndex 0 els).map (fun x =>
        match scale with
        | none => none
        | some sc =>
          if rowSpan x.2 then
            some (match decodeScale (sc.toNat / 2 ^ (8 * (x.2 / 32)) % 256) with
              | none => .nan
              | some ex => scaleUp (decodeElem a.ifmt x.1) ex)
          else none))
  else
    let sc : Int := if isPlain a.ifmt then (a.aux : Int) - 127 else 0
    rows.flatMap (fun r => match r with
      | none => List.replicate (1024 / w) none
      | some x => (unpackRows w [x]).map (fun v => some (scaleUp (decodeElem a.ifmt v) sc)))

/-- VEC_STAT bits of a conversion (R165). -/
def cvtFlags (f : AFlags) (nan : Bool) : VFlags := { under := f.under, sat := f.sat, nan := nan }

/-- The void marks of output rows of `bits` bits per element: a row is void when it holds a void element. -/
def voidRows (w : Nat) (els : List (Option FVal)) (rows : List Row) : List Entry :=
  (withIndex 0 rows).map (fun r =>
    let lo := r.2 * 1024 / w
    let hi := ((r.2 + 1) * 1024 + w - 1) / w
    if ((els.drop lo).take (hi - lo)).any Option.isNone then none else some r.1)

/-- MX output of CVT: sets of up to 8 groups, the data rows first and the scale row at its place in the layout (R166). -/
def cvtMxRows (code : Nat) : Nat → List (List (Option FVal)) → List (List RMode) → List Entry × AFlags
  | 0, _, _ => ([], {})
  | k + 1, blocks, modes =>
    if blocks.isEmpty then ([], {})
    else
      let bs := blocks.take 128
      let ms := modes.take 128
      let cs := List.zipWith (fun b m => mxBlock code m (b.map (fun v => v.getD (.fin false 0 0)))) bs ms
      let els := cs.flatMap (·.2.1)
      let data := packRows (codeWidth code) els
      let (rest, fl) := cvtMxRows code k (blocks.drop 128) (modes.drop 128)
      let scaleVoid := bs.any (fun b => b.any Option.isNone)
      let sc : Entry := if scaleVoid then none else (packRows 8 (cs.map (·.1))).head?
      (sc :: voidRows (codeWidth code) (bs.flatMap id) data ++ rest, (cs.foldl (fun (f : AFlags) c => f.or c.2.2) {}).or fl)

/-- CVT (R165, R166): the output rows in operand order, from the rows read so far. -/
def vecCvtRows (a : VecArgs) (i0 _i1 _i2 : List Entry) (vec : VecState) (rng : Stream) : VecOut :=
  let els := cvtIn a i0
  let (draws, rng') := if a.sr then rng.draws16 els.length else ([], rng)
  let modes := modesOf a.sr els.length draws
  let nan := els.any (fun v => match v with | some .nan => true | _ => false)
  if isMX a.ofmt then
    let (rows, fl) := cvtMxRows a.ofmt 9000 (chunks 32 300000 els) (chunks 32 300000 modes)
    { d0 := rows, vec := vec, rng := rng', flags := cvtFlags fl false }
  else
    let sc : Int := if isPlain a.ofmt then (a.aux : Int) - 127 else 0
    let cs := List.zipWith (fun v m => convElem a.ofmt m (scaleDown (v.getD (.fin false 0 0)) sc)) els modes
    let w := codeWidth a.ofmt
    { d0 := voidRows w els (packRows w (cs.map (·.1))), vec := vec, rng := rng',
      flags := cvtFlags (cs.foldl (fun f c => f.or c.2) {}) (nan && decide (a.ofmt ≠ 8)) }

/-- The result of a VEC operation from the rows it has read. -/
def vecResult (a : VecArgs) (i0 i1 i2 : List Entry) (vec : VecState) (rng : Stream) : VecOut :=
  match a.op with
  | 0x01 => vecBinary FVal.add a i0 i1 i2 vec rng
  | 0x02 => vecBinary (fun x y => x.add y.neg) a i0 i1 i2 vec rng
  | 0x03 => vecBinary FVal.mul a i0 i1 i2 vec rng
  | 0x04 => vecFmaRows a i0 i1 i2 vec rng
  | 0x05 => vecBinary FVal.maxOf a i0 i1 i2 vec rng
  | 0x06 => vecBinary FVal.minOf a i0 i1 i2 vec rng
  | 0x07 => vecMovRows a i0 i1 i2 vec rng
  | 0x08 => vecCvtRows a i0 i1 i2 vec rng
  | 0x09 => vecTranscend fnExp a i0 i1 i2 vec rng
  | 0x0A => vecTranscend fnLog a i0 i1 i2 vec rng
  | 0x0B => vecTranscend fnRsqrt a i0 i1 i2 vec rng
  | 0x0C => vecTranscend fnSigmoid a i0 i1 i2 vec rng
  | 0x0D => vecTranscend fnErf a i0 i1 i2 vec rng
  | 0x0E => vecNormRows a i0 i1 i2 vec rng
  | 0x0F => vecCmpRows a i0 i1 i2 vec rng
  | 0x10 => vecRredRows a i0 i1 i2 vec rng
  | 0x11 => vecCredRows a i0 i1 i2 vec rng
  | 0x12 => vecTopkRows a i0 i1 i2 vec rng
  | 0x13 => vecSampleRows a i0 i1 i2 vec rng
  | 0x14 => vecVerifyRows a i0 i1 i2 vec rng
  | 0x15 => vecScanRows a i0 i1 i2 vec rng
  | _ => vecSmaxdRows a i0 i1 i2 vec rng

/-- Cycles after the firing cycle of the last input row whose elements output row `j` of a CVT holds, and its place in
the write order: an MX set's data rows come before its scale row (R438). -/
def cvtOrder (a : VecArgs) (nOut : Nat) : List Nat :=
  if isMX a.ofmt then
    let per := 1 + 4 * codeWidth a.ofmt
    (chunks per 9000 (List.range nOut)).flatMap (fun set => set.drop 1 ++ set.take 1)
  else List.range nOut

/-- Index of the last input row whose elements output row `j` holds (R438). -/
def cvtNeeds (a : VecArgs) (nIn : Nat) (j : Nat) : Nat :=
  let wi := codeWidth a.ifmt
  let wo := codeWidth a.ofmt
  let lastEl :=
    if isMX a.ofmt then
      let per := 1 + 4 * wo
      let q := j % per
      j / per * 4096 + (if q = 0 then 4096 else q * 1024 / wo + (if q * 1024 % wo = 0 then 0 else 1)) - 1
    else ((j + 1) * 1024 + wo - 1) / wo - 1
  let inRow :=
    if isMX a.ifmt then
      let per := 1 + 4 * wi
      lastEl / 4096 * per + 1 + (lastEl % 4096 * wi + wi - 1) / 1024
    else lastEl * wi / 1024
  min inRow (nIn - 1)

/-- Write offsets from the firing cycle, in write order, at most one row per cycle (R438). -/
def cvtTimes (a : VecArgs) (nIn : Nat) : List Nat → Nat → List (Nat × Nat)
  | [], _ => []
  | j :: r, after =>
    let per := 1 + 4 * codeWidth a.ofmt
    let t := if isMX a.ofmt ∧ j % per = 0 then after else max (6 + cvtNeeds a nIn j) after
    (j, t) :: cvtTimes a nIn r (t + 1)

/-- Offsets from the firing cycle at which each output row is written (R71, R162, R438): row and offset. -/
def vecTimes (a : VecArgs) : List (Nat × Nat) :=
  let q := vecQuanta a
  let n := q.2.2.2.1
  match a.op with
  | 0x08 => cvtTimes a q.1 (cvtOrder a n) 0
  | 0x12 => [(0, a.rows + 12)]
  | 0x13 => [(0, a.rows + if a.uf % 2 = 1 then 40 else 96)]
  | 0x14 => [(0, a.rows + 4)]
  | op =>
    let l := if 9 ≤ op ∧ op ≤ 0xD then 18 else if op = 0x10 then 10 else if op = 0x11 ∨ op = 0x15 then 8
      else if op = 0x16 then 20 else 6
    (List.range n).map (fun i => (i, l + i))

end Sys2Proof.Machine
end

