-- ==== Sys2Proof/Machine/Engine.lean ====
section
/-! DEFINITION. The cycle engine of a core: rings, traces, bank arbitration, reads and writes of operations in flight,
and what an operation does at its last read (R60 to R73, R106 to R109, R121 to R133, R136 to R149). -/

namespace Sys2Proof.Machine

/-! ### Rings (R145 to R149) -/

/-- A committed ring descriptor. -/
structure RingCfg where
  on : Bool
  store : Nat
  size : Nat
  base : Nat
  deriving DecidableEq, Repr

def Core.ring (c : Core) (n : Nat) : Ring := Tbl.get {} c.rings n
def Core.setRing (c : Core) (n : Nat) (r : Ring) : Core := { c with rings := Tbl.set {} c.rings n r }
def Core.trace (c : Core) (n : Nat) : Trace := Tbl.get {} c.traces n
def Core.setTrace (c : Core) (n : Nat) (t : Trace) : Core := { c with traces := Tbl.set {} c.traces n t }
def Core.tile (c : Core) (t : Nat) : Tile := if t = 0 then c.t0 else c.t1
def Core.setTile (c : Core) (t : Nat) (x : Tile) : Core := if t = 0 then { c with t0 := x } else { c with t1 := x }
def Core.queue (c : Core) (u : Nat) : List QEnt := Tbl.get [] c.queues u
def Core.setQueue (c : Core) (u : Nat) (q : List QEnt) : Core := { c with queues := Tbl.set [] c.queues u q }
def Core.arm (c : Core) (n : Nat) : Option Arming := Tbl.get none c.arms n
def Core.setArm (c : Core) (n : Nat) (a : Option Arming) : Core := { c with arms := Tbl.set none c.arms n a }
def Core.stream (c : Core) (n : Nat) : Stream := Tbl.get {} c.rng n
def Core.setStream (c : Core) (n : Nat) (st : Stream) : Core := { c with rng := Tbl.set {} c.rng n st }

/-- A committed descriptor with EN = 1 that is invalid (R148). -/
def State.ringBad (s : State) (gp n : Nat) : Bool :=
  let d := s.rd (corePg gp + 0x400 + 16 * n)
  decide (fld d 31 31 = 1)
    && (decide (fld d 30 29 = 3) || decide (storeRows (fld d 30 29) < fld d 12 0 + fld d 28 16 + 1)
      || ((s.core gp).ring n).badLoad)

/-- The ring as the descriptor configures it; an invalid ring behaves as EN = 0 (R148). -/
def State.ringCfg (s : State) (gp n : Nat) : RingCfg :=
  let d := s.rd (corePg gp + 0x400 + 16 * n)
  ⟨decide (fld d 31 31 = 1) && !s.ringBad gp n, fld d 30 29, fld d 28 16 + 1, fld d 12 0⟩

/-- Store row of a pointer value: BASE + (p mod SIZE) (R146). -/
def RingCfg.la (g : RingCfg) (p : Nat) : Nat := g.store * 8192 + g.base + p % g.size

/-- Pointers count rows modulo 2·SIZE (R146). -/
def RingCfg.adv (g : RingCfg) (p n : Nat) : Nat := (p + n) % (2 * g.size)

/-- Difference of two pointers modulo 2·SIZE. -/
def RingCfg.sub (g : RingCfg) (p q : Nat) : Nat := (p + 2 * g.size - q % (2 * g.size)) % (2 * g.size)

/-- The producer's room (R146). -/
def RingCfg.room (g : RingCfg) (r : Ring) : Nat := g.size - g.sub r.resv r.head

/-- The consumer's landed rows (R146): a waiting consumer fires the cycle after the late row lands (R83). -/
def RingCfg.avail (g : RingCfg) (r : Ring) : Nat := g.sub r.tail r.claim

/-- Advance a pointer over contiguous rows of a list (R109); returns the pointer, the rest and how many. -/
def RingCfg.sweep (g : RingCfg) : Nat → Nat → List Nat → Nat × List Nat × Nat
  | 0, p, l => (p, l, 0)
  | k + 1, p, l =>
    if l.contains p then
      let (p', l', n) := g.sweep k (g.adv p 1) (l.erase p)
      (p', l', n + 1)
    else (p, l, 0)

/-- A consumer has read the row at a pointer: HEAD advances over each row once read, in order (R146). -/
def Ring.consumed (r : Ring) (g : RingCfg) (p : Nat) : Ring :=
  let (h, l, _) := g.sweep (r.readAhead.length + 1) r.head (p :: r.readAhead)
  { r with head := h, readAhead := l }

/-- A row has been written at a pointer: TAIL advances over contiguous written rows (R109, R147). -/
def Ring.written (r : Ring) (g : RingCfg) (p : Nat) (void : Bool) : Ring :=
  let (t, l, n) := g.sweep (r.wroteAhead.length + 1) r.tail (p :: r.wroteAhead)
  { r with tail := t, wroteAhead := l, landed := r.landed + n,
           voids := if void then p :: r.voids.filter (· ≠ p) else r.voids.filter (· ≠ p) }

/-! ### Traces (R62 to R67) -/

/-- Fixed depth of a trace (R62). -/
def traceDepth (n : Nat) : Nat := if n < 2 then 16 else if n < 10 then 4 else if n < 14 then 64 else 32

/-- Whether a producer and a consumer are permitted for the trace's type (R62). -/
def tracePermits (n prod cons : Nat) : Bool :=
  if n < 2 then decide (prod = 1) && (cons = 2 || cons = 3 || cons = 4 || cons = 6)
  else if n < 14 then (prod = 2 || prod = 3) && (cons = 1 || cons = 2 || cons = 3 || cons = 4 || cons = 6)
  else (prod = 2 || prod = 7) && decide (cons = 3)

/-- A committed map entry with EN = 1 that is invalid (R66). -/
def mapBad (n : Nat) (m : Word) : Bool :=
  decide (fld m 31 31 = 1) && (!tracePermits n (fld m 14 12) (fld m 10 8) || decide (fld m 14 12 = fld m 10 8))

/-- The unit may use the trace as its producer (`prod`) or consumer under the committed map (R66). -/
def State.traceFor (s : State) (gp n unit : Nat) (prod : Bool) : Bool :=
  let m := s.rd (corePg gp + 0x300 + 4 * n)
  decide (fld m 31 31 = 1) && !mapBad n m && decide ((if prod then fld m 14 12 else fld m 10 8) = unit)

/-- Unreserved room of a trace (R68, R69). -/
def Trace.room (t : Trace) (n : Nat) : Nat := traceDepth n - (t.ents.length + t.resv)

/-- Reserve an output quantum; HWM follows the occupancy with reserved entries (R69). -/
def Trace.reserve (t : Trace) (q : Nat) : Trace :=
  { t with resv := t.resv + q, hwm := max t.hwm (t.ents.length + t.resv + q) }

/-- Write a reserved entry. -/
def Trace.push (t : Trace) (e : TEnt) : Trace := { t with ents := t.ents ++ [e], resv := t.resv - 1 }

/-! ### Stores: ECC, brands (R142 to R144, R285, R286) -/

/-- Number of set bits among the lowest `n`. -/
def popBits : Nat → Nat → Nat
  | 0, _ => 0
  | n + 1, x => x % 2 + popBits n (x / 2)

/-- The data part of a 72-bit upset mask of word `w`. -/
def upWord (u : BitVec 1152) (w : Nat) : Nat := u.toNat / 2 ^ (72 * w) % 2 ^ 72

/-- Data bits an upset mask turns over in a row. -/
def upData (u : BitVec 1152) (words : List Nat) : Row :=
  BitVec.ofNat 1024 (words.foldl (fun n w => n + upWord u w % 2 ^ 64 * 2 ^ (64 * w)) 0)

/-- SYND of CE_SRAM and UE_SRAM of a store (R144). -/
def sramSynd (la word syn code : Nat) : BitVec 64 :=
  BitVec.ofNat 64 (la % 8192 + word * 2 ^ 13 + syn * 2 ^ 17 + code * 2 ^ 25 + laStore la * 2 ^ 61)

/-- What SECDED says of an upset word: 0 clean, 1 corrected, 2 uncorrectable, 3 corrected to a wrong word, 4 silent
(R437). -/
def eccClass (mask : Nat) : Nat :=
  match popBits 80 mask with
  | 0 => 0
  | 1 => 1
  | 2 => 2
  | _ => match Config.multiBit mask with
    | 0 => 2
    | 1 => 3
    | _ => 4

/-- The columns of a check-bit matrix fit R437: none is zero and no two are equal, and no column is the sum of two others, so that
two wrong bits never look like one. -/
def columnsOk {w : Nat} (n : Nat) (col : Nat → BitVec w) : Bool :=
  (List.range n).all (fun i => decide (col i ≠ 0) && (List.range i).all (fun j => decide (col i ≠ col j)
    && (List.range n).all (fun k => decide (col i ^^^ col j ≠ col k))))

/-- Number `i` of the values of `w` bits that have an odd number of ones and more than one. -/
def oddColumn (w i : Nat) : BitVec w :=
  BitVec.ofNat w (((List.range (2 ^ (w - 1))).map (fun k => 2 * k + (1 + popBits w k) % 2)).getD (i + 1) 1)

/-- The raw syndrome of an error pattern of `n` bits: the sum of the columns of its wrong bits, so equal syndromes name the same bit
or pattern (R437). The columns are those of Config, which R437 does not publish; where those would not make such a code, the words of
odd weight, which do. A pattern of three or more bits whose columns cancel takes a free value that is not zero (log entry 6). -/
def rawSyndrome {w : Nat} (n : Nat) (col : Nat → BitVec w) (free : Nat → BitVec w) (mask : Nat) : Nat :=
  let c : Nat → BitVec w := if columnsOk n col then col else oddColumn w
  let x := (List.range n).foldl (fun (a : BitVec w) i => if mask / 2 ^ i % 2 = 1 then a ^^^ c i else a) 0
  if x ≠ 0 then x.toNat else if free mask ≠ 0 then (free mask).toNat else 1

/-- Raw check syndrome of a 72-bit word (R142, R437). -/
def syndrome8 (mask : Nat) : Nat := rawSyndrome 72 Config.column8 Config.syndrome8 mask

/-- Raw check syndrome of a DRAM burst with its 16 check bits (R192, R437). -/
def syndrome16 (mask : Nat) : Nat := rawSyndrome 528 Config.column16 Config.syndrome16 mask

/-- Report the errors a store read meets, word by word (R143, R144). -/
def State.eccReport (s : State) (gp la code cyc : Nat) (u : BitVec 1152) : List Nat → State
  | [] => s
  | w :: r =>
    let m := upWord u w
    let syn := syndrome8 m
    let s := match eccClass m with
      | 1 => s.coreErr gp 0 0x01 cyc (sramSynd la w syn code)
      | 3 => s.coreErr gp 0 0x01 cyc (sramSynd la w syn code)
      | 2 => s.coreErr gp 2 0x02 cyc (sramSynd la w syn code)
      | _ => s
    s.eccReport gp la code cyc u r

/-- Read a store row through its correction stage (R142): the row delivered, and the errors reported. -/
def State.storeRead (s : State) (gp la code cyc : Nat) : Row × State :=
  let c := s.core gp
  let row := Tbl.get 0 c.store la
  let u := Tbl.get 0 c.upset la
  if u = 0 then (row, s)
  else
    let ws := List.range 16
    let s := s.eccReport gp la code cyc u ws
    let corrected := ws.any (fun w => eccClass (upWord u w) = 1 || eccClass (upWord u w) = 3)
    let s := if corrected then s.modCore gp (fun c =>
      if c.watch.scrub.length < 4 ∧ ¬ c.watch.scrub.contains la then
        { c with watch := { c.watch with scrub := c.watch.scrub ++ [la] } } else c) else s
    let bad := ws.filter (fun w => 2 ≤ eccClass (upWord u w))
    (row ^^^ upData u bad, s)

/-- Write a store row: its upset is gone and its 16-row block is unbranded (R286). -/
def Core.writeRow (c : Core) (la : Nat) (r : Row) : Core :=
  { c with store := Tbl.set 0 c.store la r, upset := Tbl.set 0 c.upset la 0, brand := Tbl.set none c.brand (la / 16) none }

/-- Store a block's brand and set VALID (R286). -/
def Core.setBrand (c : Core) (la : Nat) (b : Option Word) : Core := { c with brand := Tbl.set none c.brand (la / 16) b }

/-! ### Operations in flight -/

/-- Entries an operation has read on a port, in order. -/
def Flight.port (f : Flight) (p : Nat) : List Entry :=
  (f.got.filter (fun g => decide (g.1 = p))).map (fun g => g.2.2)

/-- A token carried as an entry. -/
def tokEntry (t : BitVec 16) : Entry := some (BitVec.ofNat 1024 t.toNat)

/-- The token of an entry. -/
def entTok (e : Entry) : Nat := (e.getD 0).toNat % 2 ^ 16

/-- How a token routes entry `i` of a span: 0 A, 1 B, 2 both, 3 neither (R75 to R79). -/
def tokRoute (tok i : Nat) : Nat :=
  let kind := tok / 2 ^ 14
  let v := tok % 256
  if kind = 0 ∧ v < 4 then v else if kind = 1 then (if i < v then 0 else 1) else 3

/-- A reserved token acts as SELECT 3 and sets TOKERR (R79). -/
def tokReserved (tok : Nat) : Bool := decide (2 ≤ tok / 2 ^ 14) || (decide (tok / 2 ^ 14 = 0) && decide (4 ≤ tok % 256))

/-- The entry a switch writes to an output (R77). -/
def switchOut (tok i out : Nat) (e : Entry) : Entry :=
  match tokRoute tok i with
  | 0 => if out = 0 then e else none
  | 1 => if out = 1 then e else none
  | 2 => e
  | _ => none

/-- The entry a merge writes (R78). -/
def mergeOut (tok i : Nat) (a b : Entry) : Entry :=
  match tokRoute tok i with
  | 0 => a
  | 1 => b
  | 2 => if a.isSome then a else b
  | _ => none

/-- A VEC operation's results from what it has read so far. -/
def Flight.vecOut (f : Flight) (a : VecArgs) : VecOut := vecResult a (f.port 0) (f.port 1) (f.port 2) f.vec f.rng

/-- The tile's elements in order (R116). -/
def elemsOf (t : Tbl (BitVec 46)) : List (BitVec 46) := (List.range 256).map (fun n => Tbl.get 0 t n)

/-- The rows of a DRAIN (R129): void rows from a void tile (R74). -/
def Flight.drainOut (f : Flight) (a : DrainArgs) : List Entry × AFlags :=
  if f.tileVoid then (List.replicate (drainRows a.ofmt) none, {})
  else
    let draws := if a.sr then (f.rng.draws16 256).1 else []
    let (rows, fl) := drainConvert a.ofmt a.ots (modesOf a.sr 256 draws) (elemsOf f.elems)
    (rows.map some, fl)

/-- Entry `idx` that an operation writes on an output port. -/
def Flight.out (f : Flight) (region port idx : Nat) : Entry :=
  if f.landing then entAt f.rowVals idx
  else
    match decodeEntry region f.ent with
    | some (.vec a) =>
      let o := f.vecOut a
      if port = 0 then entAt o.d0 idx
      else if port = 1 then entAt (o.d1.getD o.d0) idx
      else tokEntry (o.tokens.getD idx 0)
    | some (.drain a) => entAt (f.drainOut a).1 idx
    | some (.switch _) => switchOut (entTok (entAt (f.port 9) 0)) idx port (entAt (f.port 0) idx)
    | some (.merge _) => mergeOut (entTok (entAt (f.port 9) 0)) idx (entAt (f.port 0) idx) (entAt (f.port 1) idx)
    | some (.st _ _ _ _) => entAt (f.port 0) idx
    | some (.emit _ t) => tokEntry t
    | some (.token _ _) => entAt f.rowVals 0
    | _ => none

/-! ### Bank arbitration (R137 to R141) -/

/-- Bank of a store row, numbered across the three stores. -/
def bankOf (la : Nat) : Nat := laStore la * 32 + la % 8192 % storeBanks (laStore la)

/-- The bank an access requests (below 128), or the reading or writing side of a trace, which moves one entry per cycle (R63); none
for the activation buffer and the tiles. -/
def AccOp.bank (o : AccOp) : Option Nat :=
  match o with
  | .rd _ _ (.ring _ _ la) => some (bankOf la)
  | .rd _ _ (.la la) => some (bankOf la)
  | .rd _ _ (.dbg la) => some (bankOf la)
  | .rd _ _ (.asy la) => some (bankOf la)
  | .rd _ _ (.scrub la) => some (bankOf la)
  | .rd _ _ (.trace n) => some (128 + n)
  | .wr _ _ (.ring _ _ _ la) => some (bankOf la)
  | .wr _ _ (.la la) => some (bankOf la)
  | .wr _ _ (.trace n) => some (160 + n)
  | .wr _ _ (.token n) => some (160 + n)
  | _ => none

/-- A request that waited wins over one that did not; then rank, then operand field (R137, R138). -/
def Access.beats (a b : Access) : Bool :=
  if a.waited != b.waited then a.waited
  else decide (a.rank < b.rank) || (decide (a.rank = b.rank) && decide (a.field < b.field))

/-- Reads before writes: a row written in a cycle is seen from the next (R63, R136). -/
def AccOp.isRead (o : AccOp) : Bool := match o with | .rd _ _ _ => true | .wr _ _ _ => false

/-- Two writes of one entry to two traces, which enter both in the same cycle (R65). -/
def Access.twin (a b : Access) : Bool :=
  decide (a.fl = b.fl) &&
    match a.op, b.op with
    | .wr p i (.trace _), .wr q j (.trace _) => decide (p ≠ q) && decide (i = j)
    | _, _ => false

/-- Split the accesses due in a cycle into served and waiting, in list order. Of the two writes of a fork neither is served alone (R65). -/
def arbitrate (due : List Access) : List Access × List Access :=
  let ix := withIndex 0 due
  let free : Access × Nat → Bool := fun p =>
    match p.1.op.bank with
    | none => true
    | some b => ix.all (fun q => decide (q.2 = p.2) || decide (q.1.op.bank ≠ some b) || p.1.beats q.1
        || (!q.1.beats p.1 && decide (p.2 < q.2)))
  let wins : Access × Nat → Bool := fun p => free p && ix.all (fun q => !p.1.twin q.1 || free q)
  ((ix.filter wins).map (·.1), (ix.filter (fun p => !wins p)).map (·.1))

/-- A requester that is a unit of the pattern, not the landing path (R140, R141). -/
def Access.isUnit (a : Access) : Bool := decide (a.rank ≠ 3) && decide (a.rank < 6)

/-- Requester code of the seam scrub (R144). -/
def scrubCode : Nat := 9

/-- Record the conflicts of a cycle (R140, R141). A landing that the scrub delays counts nowhere (R143). -/
def Watch.conflicts (w : Watch) (cyc : Nat) (served lost : List Access) : Watch :=
  served.foldl (fun (w : Watch) a =>
    match a.op.bank.filter (fun b => decide (b < 128) && decide (a.code ≠ scrubCode)) with
    | none => w
    | some b =>
      let ls := lost.filter (fun l => decide (l.op.bank = some b))
      match ls.filter Access.isUnit with
      | [] => if ls.isEmpty then w else { w with confLand := w.confLand + 1 }
      | l0 :: lr =>
        let l := lr.foldl (fun m x => if x.beats m then x else m) l0
        let synd := BitVec.ofNat 64 (b % 32 + b / 32 * 32 + a.code * 2 ^ 8 + l.code * 2 ^ 12 + min cyc 0xFFFF * 2 ^ 16)
        { w with confCnt := w.confCnt + 1, confInfo := some (w.confInfo.getD synd) }) w

/-- Losers' operations pause: each of their accesses from this cycle on moves one cycle later (R138). The same is taken for two
results, or two ports of one operation, that fall due on one trace in one cycle, of which R63 moves one: the operation fired later
pauses (DESIGN CHOICE, log entry 58; the spec is silent). -/
def Core.pause (c : Core) (cyc : Nat) (lost rest : List Access) : Core :=
  let ids := lost.map (·.fl)
  let shift : Access → Access := fun a =>
    if ids.contains a.fl ∧ cyc ≤ a.cyc then { a with cyc := a.cyc + 1 } else a
  let lost' := lost.map (fun a => { a with cyc := a.cyc + 1, waited := true })
  let fl := c.flights.map (fun f =>
    if ids.contains f.id then
      { f with busy := if cyc < f.busy then f.busy + 1 else f.busy, retire := f.retire + 1 } else f)
  let anvil := c.flights.filter (fun f => ids.contains f.id && decide (f.unit = 1) && !f.landing && decide (entOp f.ent ≠ 1))
  let c := { c with acc := lost' ++ rest.map shift, flights := fl }
  anvil.foldl (fun c f =>
    let t := ebits f.ent 112 112
    let x := c.tile t
    c.setTile t { x with stTo := if cyc ≤ x.stTo ∧ x.st ≠ .idle then x.stTo + 1 else x.stTo }) c

/-! ### The save buffer of an assay segment (R311) -/

def State.asyCore (s : State) (gp : Nat) : AsyCore := Tbl.get {} s.asy gp
def State.setAsy (s : State) (gp : Nat) (x : AsyCore) : State := { s with asy := Tbl.set {} s.asy gp x }
def State.modAsy (s : State) (gp : Nat) (f : AsyCore → AsyCore) : State := s.setAsy gp (f (s.asyCore gp))

/-- The first touch of a row copies it into the save buffer; the test data that then stands in the row is not stated: a free value (log
entry 4). -/
def State.asySave (s : State) (gp la : Nat) : State :=
  let c := s.core gp
  let (n, s) := s.fresh
  let s := s.modAsy gp (fun x => { x with saved := Tbl.put x.saved la (Tbl.get 0 c.store la, Tbl.get 0 c.upset la) })
  s.setCore gp { c with store := Tbl.set 0 c.store la (Config.freeRow n), upset := Tbl.set 0 c.upset la 0 }

/-- Write a landed or computed row: into the save buffer where a segment has saved the row, else into the store. -/
def State.putRow (s : State) (gp la : Nat) (r : Row) : State :=
  let x := s.asyCore gp
  if (Tbl.find? x.saved la).isSome then
    let s := s.setAsy gp { x with saved := Tbl.put x.saved la (r, 0) }
    s.modCore gp (fun c => c.setBrand la none)
  else s.modCore gp (fun c => c.writeRow la r)

/-- Restore every row and tile a segment has moved; nothing of it is left. -/
def State.asyRestore (s : State) (gp : Nat) : State :=
  let x := s.asyCore gp
  let s := s.modCore gp (fun c =>
    let c := x.saved.foldl (fun (c : Core) p =>
      { c with store := Tbl.set 0 c.store p.1 p.2.1, upset := Tbl.set 0 c.upset p.1 p.2.2 }) c
    let c := { c with acc := c.acc.filter (fun a => match a.op with | .rd _ _ (.asy _) => false | _ => true) }
    match x.slot with
    | some (t, els) => c.setTile t { c.tile t with elems := els }
    | none => c)
  s.setAsy gp { x with running := none, fl := 0, saved := [], slot := none }

/-! ### Reads and writes -/

/-- Put a row in DBG_DATA (R153). -/
def State.dbgRow (s : State) (gp : Nat) (r : Row) : State :=
  (List.range 32).foldl (fun (s : State) k => s.wr (corePg gp + 0x1200 + 4 * k) (BitVec.ofNat 32 (r.toNat / 2 ^ (32 * k)))) s

/-- Put a row that has been read after every row of no greater index: a bank conflict can serve two rows out of order (R116, R138). -/
def gotInsert (x : Nat × Nat × Entry) : List (Nat × Nat × Entry) → List (Nat × Nat × Entry)
  | [] => [x]
  | y :: r => if x.2.1 < y.2.1 then x :: y :: r else y :: gotInsert x r

/-- Add what an operation has read. -/
def Core.gotRow (c : Core) (id port idx : Nat) (e : Entry) : Core :=
  { c with flights := c.flights.map (fun f => if f.id = id then { f with got := gotInsert (port, idx, e) f.got } else f) }

/-- One logged row in the seam scrub: corrected and written back, or reported when a word is uncorrectable (R143). The seam cycle of
the report lies in s16 to s31; the spec gives no more, so it is a free value (log entry 4). -/
def State.scrubRow (s : State) (gp la : Nat) : State :=
  let c := s.core gp
  let u := Tbl.get 0 c.upset la
  let bad := (List.range 16).filter (fun w => decide (eccClass (upWord u w) = 2))
  if bad.isEmpty then
    let wrong := (List.range 16).filter (fun w => decide (3 ≤ eccClass (upWord u w)))
    s.setCore gp { c with store := Tbl.set 0 c.store la (Tbl.get 0 c.store la ^^^ upData u wrong), upset := Tbl.set 0 c.upset la 0 }
  else
    let (n, s) := s.fresh
    let cy := seamCycle (16 + (Config.freeWord n).toNat % 16)
    bad.foldl (fun (s : State) w => s.coreErr gp 2 0x02 cy (sramSynd la w (syndrome8 (upWord u w)) 9)) s

/-- One read takes place (R136, R146, R69). A reserved control token sets TOKERR as it is consumed (R79). -/
def State.doRead (s : State) (gp cyc : Nat) (a : Access) (port idx : Nat) (src : RdSrc) : State :=
  match src with
  | .ring n ptr la =>
    let (row, s) := s.storeRead gp la a.code (s.coreAt cyc)
    let g := s.ringCfg gp n
    s.modCore gp (fun c =>
      let r := c.ring n
      (c.setRing n (r.consumed g ptr)).gotRow a.fl port idx (if r.voids.contains ptr then none else some row))
  | .la la =>
    let (row, s) := s.storeRead gp la a.code (s.coreAt cyc)
    s.modCore gp (fun c => c.gotRow a.fl port idx (some row))
  | .dbg la =>
    let (row, s) := s.storeRead gp la a.code (s.coreAt cyc)
    s.dbgRow gp row
  | .scrub la => if idx = 0 then s.scrubRow gp la else s
  | .asy la => (s.storeRead gp la a.code (s.coreAt cyc)).2.asySave gp la
  | .trace n =>
    s.modCore gp (fun c =>
      let t := c.trace n
      let e : Entry := match t.ents with
        | .row e :: _ => e
        | .token k :: _ => tokEntry k
        | [] => none
      let c := if 14 ≤ n ∧ tokReserved (entTok e) then { c with watch := { c.watch with tokErr := true } } else c
      (c.setTrace n { t with ents := t.ents.drop 1 }).gotRow a.fl port idx e)
  | .act row =>
    s.modCore gp (fun c => c.gotRow a.fl port idx
      (if c.actVoid.contains row then none else some (Tbl.get 0 c.act row)))
  | .tile => s.modCore gp (fun c => c.gotRow a.fl port idx none)

/-- After ST has written row `la` as its row `idx`, brand the aligned block if this operation wrote all of it in
ascending order with no void row (R286). `whole`: the operation's row `idx - 15` lies 15 rows below. -/
def Core.brandSt (c : Core) (f : Flight) (idx la : Nat) (whole : Bool) : Core :=
  if la % 16 = 15 ∧ 15 ≤ idx ∧ whole then
    let rows := (f.port 0).drop (idx - 15) |>.take 16
    if rows.all Option.isSome then c.setBrand la (some (brandOf (rows.filterMap id))) else c
  else c

/-- A landed packet unit of 16 rows that covers one aligned block stores the header's brand (R286, R288). -/
def Core.brandLanding (c : Core) (f : Flight) (idx la : Nat) (whole : Bool) : Core :=
  if idx % 16 = 15 ∧ la % 16 = 15 ∧ whole then
    let rows := f.rowVals.drop (idx - 15) |>.take 16
    match f.inPkt with
    | some p => if rows.all Option.isSome then c.setBrand la (some (if idx < 16 then p.brand0 else p.brand1)) else c
    | none => c
  else c

/-- The ring row 15 pointers before `ptr` lies 15 store rows below it: no wrap comes between. -/
def RingCfg.whole (g : RingCfg) (ptr : Nat) : Bool := decide (g.la (g.adv ptr (30 * g.size - 15)) + 15 = g.la ptr)

/-- Write a row (void or real) into a ring at a reserved pointer (R74, R147); rows of an older generation are dropped and
count in RING_STALE (R149). -/
def State.ringWrite (s : State) (gp n ptr gen la : Nat) (e : Entry) (f : Option (Flight × Nat)) : State :=
  let c := s.core gp
  let r := c.ring n
  if r.gen ≠ gen then s.bump (corePg gp + 0x27C) 31 0 1
  else
    let g := s.ringCfg gp n
    let s := match e with
      | some row => s.putRow gp la row
      | none => s
    let c := s.core gp
    let c := match f with
      | some (f, idx) =>
        if f.landing then c.brandLanding f idx la (g.whole ptr) else if f.unit = 6 then c.brandSt f idx la (g.whole ptr) else c
      | none => c
    s.setCore gp (c.setRing n (r.written g ptr e.isNone))

/-- One write takes place. -/
def State.doWrite (s : State) (gp : Nat) (a : Access) (port idx : Nat) (dst : WrDst) : State :=
  let c := s.core gp
  match c.flights.find? (fun f => decide (f.id = a.fl)) with
  | none => s
  | some f =>
    let e := f.out (gp / 80) port idx
    match dst with
    | .ring n ptr gen la => s.ringWrite gp n ptr gen la e (some (f, idx))
    | .trace n => s.setCore gp (c.setTrace n ((c.trace n).push (.row e)))
    | .token n => s.setCore gp (c.setTrace n ((c.trace n).push (.token (BitVec.ofNat 16 (entTok e)))))
    | .la la =>
      match e with
      | some row => (s.putRow gp la row).modCore gp (fun c => if f.unit = 6 then c.brandSt f idx la true else c)
      | none => s

/-! ### The anvil: what ACC and LOAD_TILE do at their last read -/

/-- Rows of one set of an MX operand (R114). -/
def setLen (w : Nat) : Nat := 1 + 4 * w

/-- Position of data row `r` of group `g` in an operand (R114). -/
def rowPos (fmt g r : Nat) : Nat :=
  let w := codeWidth fmt
  if isMX fmt then g / 8 * setLen w + 1 + g % 8 * (w / 2) + r else g * (w / 2) + r

/-- Position of the scale row of a group's set. -/
def scalePos (fmt g : Nat) : Nat := g / 8 * setLen (codeWidth fmt)

/-- The slice rows of a group from an operand's rows; none when one is void (R74). -/
def sliceOf (fmt : Nat) (rows : List Entry) (g : Nat) : Option (List Row) :=
  let rs := (List.range (codeWidth fmt / 2)).map (fun r => entAt rows (rowPos fmt g r))
  if rs.all Option.isSome then some (rs.filterMap id) else none

/-- The scale row of a group: none when void; a row of zeros where the format has none. -/
def scaleRowOf (fmt : Nat) (rows : List Entry) (g : Nat) : Entry :=
  if isMX fmt then entAt rows (scalePos fmt g) else some 0

/-- Scale exponent of block `i` of group `g` (R114, R121); none is NaN. -/
def scaleExp (fmt ts g i : Nat) (sc : Row) : Option Int :=
  if isMX fmt then decodeScale (sc.toNat / 2 ^ (8 * (16 * (g % 8) + i)) % 256)
  else if isPlain fmt then some ((ts : Int) - 127)
  else some 0

/-- One side of a group ready for its products: elements by row, scale exponents by row. -/
abbrev Side := List (List FVal) × List (Option Int)

/-- A side of a group (R113, R114); none when the group is void on this side (R74). -/
def sideOf (fmt ts : Nat) (rows : List Entry) (g : Nat) : Option Side :=
  match sliceOf fmt rows g, scaleRowOf fmt rows g with
  | some rs, some sc =>
    let els := (unpackRows (codeWidth fmt) rs).map (decodeElem fmt)
    some (chunks 32 16 els, (List.range 16).map (fun i => scaleExp fmt ts g i sc))
  | _, _ => none

/-- A failed check: group, kind, element (R295). -/
abbrev Dispute := Nat × Nat × Nat

/-- Faults that alter or disagree on element (i, j) under a rotation (R118, R291). -/
def faultsAt (fs : List AnvilFault) (rot i j : Nat) : List AnvilFault :=
  fs.filter (fun f => if f.lane then decide (f.col = j) else decide (f.row = i) && decide (f.col = (j + rot) % 16))

/-- A number held in a two's complement register of `w` bits, with bits turned over. -/
def flipIn (w : Nat) (x : Int) (m : Nat) : Int := ((BitVec.ofInt w x) ^^^ (BitVec.ofNat w m)).toInt

/-- An exponent of the exponent path with bits turned over; 12 bits hold every exponent (log entry 5). -/
def flipExp (x : Int) (m : Nat) : Int := if m = 0 then x else flipIn 12 x m

/-- The exact sum before rounding with bits turned over. -/
def flipSum (x : Int) (m : Nat) : Int := if m = 0 then x else flipIn 8192 x m

/-- Width of the group register (R119). -/
def regBits (fa fw : Nat) : Nat := if both4 fa fw then 14 else 42

/-- The bits that faults of a kind turn over, in the cells or in the checker lane. -/
def flipsOf (fs : List AnvilFault) (kind : Nat) (lane : Bool) : Nat :=
  (fs.filter (fun f => decide (f.kind = kind) && decide (f.lane = lane))).foldl (fun n f => Nat.xor n f.flip.toNat) 0

/-- Exponent of a finite value. -/
def expOf (v : FVal) : Int := match v with | .fin _ _ e => e | _ => 0

/-- The exponent path of one copy (R292): the register's weight from E_max, the alignment shift of each product, and the scale sum, each
with the bits that `flips` turns over. -/
structure ExpPath where
  eMax : Int
  shifts : List Int
  scale : Int
  deriving DecidableEq, Repr

/-- Weight of the register's least significant bit as a copy of the exponent path has it (R119). -/
def ExpPath.weight (x : ExpPath) (fa fw : Nat) : Int := if both4 fa fw then -2 else x.eMax - 35

/-- One copy of the exponent path, of the cells or of the checker lane (R292). -/
def expPath (fa fw : Nat) (fs : List AnvilFault) (lane : Bool) (ps : List FVal) (scale : Int) : ExpPath :=
  let e := flipExp ((eMax ps).getD 0) (flipsOf fs 0 lane)
  let x : ExpPath := { eMax := e, shifts := [], scale := flipExp scale (flipsOf fs 4 lane) }
  { x with shifts := (withIndex 0 ps).map (fun p =>
      flipExp (expOf p.1 - x.weight fa fw) (flipsOf (fs.filter (fun f => decide (f.k = p.2))) 3 lane)) }

/-- A product's significand shifted into the group register, its magnitude truncated toward zero (R119). A shift beyond the register's
width leaves nothing in it. -/
def shiftIn (p : FVal) (sh : Int) : Int :=
  match p with
  | .fin s m _ => signed s (if 0 ≤ sh then m * 2 ^ (min sh 64).toNat else m / 2 ^ (min (-sh) 64).toNat)
  | _ => 0

/-- Contents of the group register by a copy's shifts, with the bits its faults turn over (R119, R291). -/
def regOf (fa fw : Nat) (ps : List FVal) (x : ExpPath) (flips : Nat) : Int :=
  flipIn (regBits fa fw) ((List.zipWith shiftIn ps x.shifts).foldl (· + ·) 0) flips

/-- Residue modulo 127 of the exact sum the group register should hold, formed from the significands and the lane's shifts (R291). -/
def groupResidue (as bs : List FVal) (shifts : List Int) : Int :=
  (List.zipWith (fun ab (sh : Int) => match ab with
    | (FVal.fin sa ma _, FVal.fin sb mb _) =>
      let p : Int := ((ma % 127) * (mb % 127) * 2 ^ (sh.emod 7).toNat : Nat)
      if sa != sb then -p else p
    | _ => 0) (List.zip as bs) shifts).foldl (· + ·) 0 |>.emod 127

/-- A finite value as a multiple of 2^q, where q is at most its exponent. -/
def alignedAt (v : FVal) (q : Int) : Int :=
  match v with
  | .fin s m e => signed s (m * 2 ^ (e - q).toNat)
  | _ => 0

/-- One group on one element: new value, flags, and the kinds of check that fail: the two copies of E_max, of the alignment shifts and of
the scale sum (R292), the residue of the group register (R291), the residue of the sum before rounding (R293), with the exceptions of
R294 (R119 to R123). -/
def elemGroup (fa fw : Nat) (fs : List AnvilFault) (t : BitVec 46) (as bs : List FVal) (xa xw : Option Int) :
    BitVec 46 × AFlags × List Nat :=
  let (v, f1) := groupValue fa fw as bs xa xw
  if !v.isFin then
    let (r, f2) := axAcc t v
    (r, f1.or f2, [])
  else
    let ps := List.zipWith FVal.mul as bs
    let scale := xa.getD 0 + xw.getD 0
    let cell := expPath fa fw fs false ps scale
    let lane := expPath fa fw fs true ps scale
    let reg := regOf fa fw ps cell (flipsOf fs 1 false)
    let rho := Nat.xor (groupResidue as bs lane.shifts).toNat (flipsOf fs 1 true % 128)
    let v := FVal.fin (decide (reg < 0)) reg.natAbs (cell.weight fa fw + cell.scale)
    let fails := (if cell ≠ lane then [0] else []) ++ (if (reg.emod 127).toNat ≠ rho % 127 then [1] else [])
    let told := fmtAX46.decode t.toNat
    if !told.isFin then
      let (r, f2) := axAcc t v
      (r, f1.or f2, if f1.wide then [] else fails)
    else
      let q := min (expOf told) (expOf v)
      let sum := flipSum (alignedAt told q + alignedAt v q) (flipsOf fs 2 false)
      let want := Nat.xor ((((alignedAt told q).emod 127) + ((alignedAt v q).emod 127)).emod 127).toNat (flipsOf fs 2 true % 128)
      let (r, f2) := axEncode (.fin (decide (sum < 0)) sum.natAbs q)
      let fails := fails ++ (if !f2.ovf ∧ (sum.emod 127).toNat ≠ want % 127 then [2] else [])
      (r, f1.or f2, if f1.wide then [] else fails)

/-- All 256 elements through one group (R121). -/
def groupStep (fa fw rot : Nat) (fs : List AnvilFault) (g : Nat) (a w : Side) (els : List (BitVec 46)) :
    List (BitVec 46) × AFlags × List Dispute :=
  let out := (withIndex 0 els).map (fun p =>
    let i := p.2 / 16
    let j := p.2 % 16
    let (r, fl, ks) := elemGroup fa fw (faultsAt fs rot i j) p.1 (a.1.getD i []) (w.1.getD j []) ((a.2.getD i none))
      ((w.2.getD j none))
    (r, fl, ks.map (fun k => (g, k, p.2))))
  (out.map (·.1), out.foldl (fun f x => f.or x.2.1) {}, out.flatMap (·.2.2))

/-- All groups of an ACC in ascending order of K (R121): elements, flags, failed checks, and whether every group was
void (R74). -/
def accGroups (fa ta fw tw rot : Nat) (fs : List AnvilFault) (ra rw : List Entry) :
    Nat → Nat → List (BitVec 46) → List (BitVec 46) × AFlags × List Dispute × Bool
  | 0, _, els => (els, {}, [], true)
  | k + 1, g, els =>
    match sideOf fa ta ra g, sideOf fw tw rw g with
    | some a, some w =>
      let (e1, f1, d1) := groupStep fa fw rot fs g a w els
      let (e2, f2, d2, _) := accGroups fa ta fw tw rot fs ra rw k (g + 1) e1
      (e2, f1.or f2, d1 ++ d2, false)
    | _, _ => accGroups fa ta fw tw rot fs ra rw k (g + 1) els

/-- A table of tile elements, +0 unlisted. -/
def elemTbl (els : List (BitVec 46)) : Tbl (BitVec 46) :=
  (withIndex 0 els).filterMap (fun p => if p.1 = 0 then none else some (p.2, p.1))

/-- The pass-counter action (R103): PASS, and whether an INC found 4,095. -/
def applyPca (pca pset pass : Nat) : Nat × Bool :=
  match pca with
  | 1 => if pass = 4095 then (4095, true) else (pass + 1, false)
  | 2 => (pset, false)
  | _ => (pass, false)

/-- Set TILE_STICKY bits of a tile: DISP, OVF, LAPSED (TILE_STICKY register). -/
def State.sticky (s : State) (gp tile bitNo : Nat) : State :=
  s.wf (corePg gp + 0x258) (3 * tile + bitNo) (3 * tile + bitNo) 1

/-- OR bits into a status register. -/
def State.orBits (s : State) (a bits : Nat) : State :=
  s.wr a (BitVec.ofNat 32 (Nat.lor (s.rd a).toNat bits))

/-- The pass counter of a tile after an operation, with LAPSED and its record (R103, R128). -/
def State.pcaStep (s : State) (gp cyc tile idx pca pset : Nat) : State :=
  let t := (s.core gp).tile tile
  let (p, lapsed) := applyPca pca pset t.pass
  let s := s.modCore gp (fun c => c.setTile tile { (c.tile tile) with pass := p, lapsed := t.lapsed || lapsed })
  if lapsed then
    (s.sticky gp tile 2).coreErr gp 1 0x14 (s.coreAt cyc) (BitVec.ofNat 64 (tile * 2 ^ 13 + idx))
  else s

/-- SYND of a dispute (R295). -/
def dispSynd (idx tile rot ord : Nat) (d : Dispute) : BitVec 64 :=
  BitVec.ofNat 64 (idx + tile * 2 ^ 13 + d.2.2 * 2 ^ 14 + rot * 2 ^ 22 + d.2.1 * 2 ^ 26 + d.1 % 2 ^ 16 * 2 ^ 28
    + ord % 2 ^ 16 * 2 ^ 44)

/-- The earliest of two disputes: group, then kind, then element (R295). -/
def dispBefore (a b : Dispute) : Bool :=
  decide (a.1 < b.1) || (decide (a.1 = b.1) && (decide (a.2.1 < b.2.1) || (decide (a.2.1 = b.2.1) && decide (a.2.2 < b.2.2))))

/-- Failed checks of one ACC that come due: counts, record, and the capture of the first (R295, R296). An ACC that has read its last row
is complete in this cycle, so its element is captured at once; else DISP_VAL waits for its completion. -/
def State.disputes (s : State) (gp cyc : Nat) (f : Flight) (tile rot : Nat) (ds : List Dispute) : State :=
  match ds with
  | [] => s
  | d0 :: dr =>
    let d := dr.foldl (fun m x => if dispBefore x m then x else m) d0
    let pg := corePg gp
    let s := s.bump (pg + 0x2D0) 31 16 ds.length
    let s := if s.rf (pg + 0x2B8) 31 31 = 0 then
        let s := s.wr (pg + 0x2B8) (BitVec.ofNat 32 (2 ^ 31 + d.2.1 * 2 ^ 29 + tile * 2 ^ 28 + d.2.2 * 2 ^ 20 + rot * 2 ^ 16 + f.idx))
        let s := s.wr (pg + 0x2BC) (BitVec.ofNat 32 (f.ord % 2 ^ 16 * 2 ^ 16 + d.1 % 2 ^ 16))
        s.modCore gp (fun c => { c with watch :=
          if f.finished then
            { c.watch with captures := c.watch.captures ++ [(f.retire, false, Tbl.get 0 f.elems d.2.2, false)] }
          else { c.watch with dispCap := some (f.id, d.2.2) } })
      else s
    s.coreErr gp 2 0x06 (s.coreAt cyc) (dispSynd f.idx tile rot f.ord d)

/-- The replay capture of an armed firing, at its last read for its tile completion (R296). -/
def State.replayCapture (s : State) (gp : Nat) (f : Flight) (els : List (BitVec 46)) : State :=
  let ic := s.rd (corePg gp + 0x2B0)
  if fld ic 31 31 = 1 ∧ fld ic 12 0 = f.idx ∧ s.rf (corePg gp + 0x2B4) 15 0 = f.ord then
    let n := fld ic 23 16
    s.modCore gp (fun c => { c with watch := { c.watch with
      captures := c.watch.captures ++ [(f.retire, true, els.getD n 0, f.disp.contains n)] } })
  else s

/-- The capture of an earlier dispute of this firing, for its tile completion (R296). -/
def State.disputeCapture (s : State) (gp : Nat) (f : Flight) (els : List (BitVec 46)) : State :=
  match (s.core gp).watch.dispCap with
  | some (id, n) =>
    if id = f.id then
      s.modCore gp (fun c => { c with watch := { c.watch with
        captures := c.watch.captures ++ [(f.retire, false, els.getD n 0, false)], dispCap := none } })
    else s
  | none => s

/-- Activation format and per-tensor scale of an ACC (R115). -/
def State.accAct (s : State) (gp : Nat) (a : AccArgs) : Nat × Nat :=
  if a.asrc = .direct then (s.rf (corePg gp + 0x26C) 11 8, s.rf (corePg gp + 0x26C) 7 0) else (a.afmt, a.ats)

/-- The elements an ACC starts from: those of its tile when it fires, +0 for an overwrite pass and for a void tile (R74). -/
def Flight.startElems (f : Flight) (a : AccArgs) : List (BitVec 46) :=
  if a.add ∧ !f.tileVoid then elemsOf f.elems else List.replicate 256 0

/-- The first `k` groups of an ACC, from what it has read. -/
def State.accRun (s : State) (gp : Nat) (f : Flight) (a : AccArgs) (k : Nat) :
    List (BitVec 46) × AFlags × List Dispute × Bool :=
  let (fa, ta) := s.accAct gp a
  accGroups fa ta a.wfmt a.wts (s.rf (corePg gp + 0x268) 3 0) (s.core gp).anvilFaults (f.port 0) (f.port 1) k 0 (f.startElems a)

/-- Groups of an ACC whose rows have all been read (R116). -/
def State.accRead (s : State) (gp : Nat) (f : Flight) (a : AccArgs) : Nat :=
  let fa := (s.accAct gp a).1
  let have_ : Nat → Nat → Nat → Bool := fun p fmt g =>
    let n := (f.port p).length
    decide (rowPos fmt g (codeWidth fmt / 2 - 1) < n)
  ((List.range a.k).takeWhile (fun g => have_ 0 fa g && have_ 1 a.wfmt g)).length

/-- The checks of the groups an ACC has just read: what fails marks the tile DISPUTED at once, which R295 asks by the end of cycle g + 24,
and is counted and recorded in that cycle. A checker that nothing disturbs never disagrees, so a core without faults has nothing to
test. -/
def State.accChecks (s : State) (gp cyc : Nat) (f : Flight) : State :=
  if (s.core gp).anvilFaults.isEmpty then s
  else
    match decodeEntry (gp / 80) f.ent with
    | some (.acc a) =>
      let n := s.accRead gp f a
      if n ≤ f.groups then s
      else
        let ds := ((s.accRun gp f a n).2.2.1).filter (fun d => decide (f.groups ≤ d.1))
        let s := s.modCore gp (fun c => { c with
          flights := c.flights.map (fun x => if x.id = f.id then
            { x with groups := n, disp := (x.disp ++ ds.map (·.2.2)).dedup } else x),
          watch := if ds.isEmpty then c.watch else { c.watch with pendDisp := c.watch.pendDisp ++ [(cyc + 24, f.id, ds)] } })
        if ds.isEmpty then s
        else (s.modCore gp (fun c => c.setTile a.tile { (c.tile a.tile) with disputed := true })).sticky gp a.tile 0
    | _ => s

/-- Failed checks whose cycle g + 24 lies before `stop` (R295). -/
def State.disputesTo (s : State) (gp stop : Nat) : State :=
  let due := (s.core gp).watch.pendDisp.filter (fun p => decide (p.1 < stop))
  if due.isEmpty then s
  else
    let s := s.modCore gp (fun c => { c with watch := { c.watch with pendDisp := c.watch.pendDisp.filter (fun p => decide (stop ≤ p.1)) } })
    due.foldl (fun (s : State) p =>
      match (s.core gp).flights.find? (fun f => decide (f.id = p.2.1)) with
      | some f => s.disputes gp p.1 f (ebits f.ent 112 112) (s.rf (corePg gp + 0x268) 3 0) p.2.2
      | none => s) s

/-- ACC at its last read (R74, R103, R121 to R124). The clearing of DISPUTED by an overwrite ACC leaves what its own groups have set
(R295). An all-void overwrite leaves the flags of TILE_STAT as they are: R103 has it clear
the tile instead of clearing them. -/
def State.finishAcc (s : State) (gp cyc : Nat) (f : Flight) (a : AccArgs) : State :=
  let pg := corePg gp
  let c := s.core gp
  let t := c.tile a.tile
  let fs := c.anvilFaults
  let (els, fl, _, allVoid) := s.accRun gp f a a.k
  if allVoid then
    let s := if a.add then s else s.setCore gp (c.setTile a.tile { t with elems := [], void := true })
    let els := elemsOf ((s.core gp).tile a.tile).elems
    (s.disputeCapture gp f els).replayCapture gp f els
  else
    let t' : Tile := if a.add then { t with elems := elemTbl els, void := false, ovf := t.ovf || fl.ovf }
      else { t with elems := elemTbl els, void := false, ovf := fl.ovf, lapsed := false, disputed := !f.disp.isEmpty, pass := 0 }
    let c := (c.setTile a.tile t')
    let s := s.setCore gp { c with anvilFaults := fs.filter (fun f => !f.once),
                                   flights := c.flights.map (fun x => if x.id = f.id then { x with elems := elemTbl els } else x) }
    let s := s.orBits (pg + 0x264) fl.bits
    let s := if fl.ovf then s.sticky gp a.tile 1 else s
    let s := (s.disputeCapture gp f els).replayCapture gp f els
    s.pcaStep gp cyc a.tile f.idx a.pca a.pset

/-- Elements of a spilled tile (R125): FP32 exactly, AX46 slots exactly, any NaN canonical; void rows give +0 (R74). -/
def loadTileElems (sfmt : Nat) (rows : List Entry) : List (BitVec 46) :=
  let w := if sfmt = 0xB then 32 else 48
  let vals := unpackRows w (rows.map (fun r => r.getD 0))
  (withIndex 0 (vals.take 256)).map (fun p =>
    let lo := p.2 * w / 1024
    let hi := (p.2 * w + w - 1) / 1024
    if (entAt rows lo).isSome ∧ (entAt rows hi).isSome then
      (axEncode (if sfmt = 0xB then fmtFP32.decode p.1 else fmtAX46.decode (p.1 % 2 ^ 46))).1
    else 0)

/-- LOAD_TILE at its last read (R74, R103, R125). One whose rows are all void leaves the flags of TILE_STAT as they are: R74 and R103
list what it does, and no clearing of flags. -/
def State.finishLoadTile (s : State) (gp cyc : Nat) (f : Flight) (a : LoadTileArgs) : State :=
  let c := s.core gp
  let t := c.tile a.tile
  let rows := f.port 0
  if rows.all Option.isNone then
    s.setCore gp (c.setTile a.tile { t with elems := [], void := true })
  else
    let t' := { t with elems := elemTbl (loadTileElems a.sfmt rows), void := false, ovf := false, lapsed := false,
                       disputed := false, pass := 0 }
    let s := s.setCore gp (c.setTile a.tile t')
    s.pcaStep gp cyc a.tile f.idx a.pca a.pset

/-- DRAIN at its last tile read (R74, R102, R131): flags, draws, and a clearing drain. -/
def State.finishDrain (s : State) (gp : Nat) (f : Flight) (a : DrainArgs) : State :=
  let s := s.orBits (corePg gp + 0x264) (f.drainOut a).2.bits
  let s := if a.sr then s.modCore gp (fun c => c.setStream 0 ((c.stream 0).draws16 256).2) else s
  if a.keep then s
  else s.modCore gp (fun c => c.setTile a.tile { (c.tile a.tile) with elems := [], void := true, pass := 0 })

/-- LOAD_ACT puts the rows it has read in the buffer unchanged, scale rows and void marks included (R115). -/
def Core.finishLoadAct (c : Core) (f : Flight) (a : LoadActArgs) : Core :=
  (f.got.filter (fun g => decide (g.1 = 0))).foldl (fun (c : Core) p =>
    let row := (a.buf + p.2.1) % 256
    match p.2.2 with
    | some r => { c with act := Tbl.set 0 c.act row r, actVoid := c.actVoid.filter (· ≠ row) }
    | none => { c with actVoid := row :: c.actVoid.filter (· ≠ row) }) c

/-- What an operation does when its last input has been read. -/
def State.finish (s : State) (gp cyc : Nat) (f : Flight) : State :=
  match decodeEntry (gp / 80) f.ent with
  | some (.acc a) => s.finishAcc gp cyc f a
  | some (.loadTile a) => s.finishLoadTile gp cyc f a
  | some (.drain a) => s.finishDrain gp f a
  | some (.loadAct a) => s.modCore gp (fun c => c.finishLoadAct f a)
  | some (.vec a) =>
    let o := f.vecOut a
    let st := if a.op = 0x13 then 2 else 1
    let s := s.modCore gp (fun c => { (c.setStream st o.rng) with vec := o.vec })
    s.orBits (corePg gp + 0x290) o.flags.bits
  | _ => s

/-- Elements whose conversion the first `k` rows of a DRAIN take in: whole blocks of an MX format, whose scale row comes first (R129,
R133). -/
def drainElems (ofmt k : Nat) : Nat :=
  let w := codeWidth ofmt
  if isMX ofmt then min 256 (((k - 1) * 1024 / w + 31) / 32 * 32) else min 256 (k * 1024 / w)

/-- Rows of which an operation has read all that it reads of them. -/
def Core.rowsDone (c : Core) (f : Flight) : Nat :=
  (c.acc.filter (fun a => decide (a.fl = f.id) && a.op.isRead)).foldl
    (fun n a => match a.op with | .rd _ i _ => min n i | .wr _ _ _ => n) (f.port 0).length

/-- A VEC operation that sets its status bits row by row: a selection, a sample or a verification has no result before its last row. -/
def vecByRow (op : Nat) : Bool := !(decide (op = 0x12) || decide (op = 0x13) || decide (op = 0x14))

/-- What an operation stopped at a row boundary has done with the rows it has read (R46, log entry 17): a LOAD_ACT has put them in the
buffer, a DRAIN or a VEC operation has made their draws (R175) and set their status bits, an ACC has set those of its groups. -/
def State.cutShort (s : State) (gp : Nat) (f : Flight) : State :=
  let pg := corePg gp
  let n := (s.core gp).rowsDone f
  if f.finished ∨ f.got.isEmpty then s
  else
    match decodeEntry (gp / 80) f.ent with
    | some (.loadAct a) => s.modCore gp (fun c => c.finishLoadAct f a)
    | some (.drain a) =>
      let k := drainElems a.ofmt n
      let s := if a.sr then s.modCore gp (fun c => c.setStream 0 ((c.stream 0).draws16 k).2) else s
      if f.tileVoid then s
      else s.orBits (pg + 0x264)
        (drainConvert a.ofmt a.ots (modesOf a.sr k (if a.sr then (f.rng.draws16 k).1 else [])) ((elemsOf f.elems).take k)).2.bits
    | some (.vec a) =>
      let o := { f with got := f.got.filter (fun g => decide (g.2.1 < n)) }.vecOut a
      let s := s.modCore gp (fun c => c.setStream (if a.op = 0x13 then 2 else 1) o.rng)
      if vecByRow a.op then s.orBits (pg + 0x290) o.flags.bits else s
    | some (.acc a) =>
      let fl := (s.accRun gp f a (s.accRead gp f a)).2.1
      let s := s.orBits (pg + 0x264) fl.bits
      if fl.ovf then (s.modCore gp (fun c => c.setTile a.tile { (c.tile a.tile) with ovf := true })).sticky gp a.tile 1 else s
    | _ => s

/-! ### Outbound rows (R72, R239) -/

/-- A store row holds an uncorrectable word. -/
def Core.rowUe (c : Core) (la : Nat) : Bool :=
  (List.range 16).any (fun w => eccClass (upWord (Tbl.get 0 c.upset la) w) = 2)

/-- What the outbound path keeps of row `i` of a packet read from store row `la` (R287, R289): the stored brand of its aligned block
while it stands the same at every row of the unit, and whether the row raised UE_SRAM. -/
def Core.noteOut (c : Core) (p : OutPkt) (i : Nat) (la : Option Nat) : OutPkt :=
  match la with
  | none => p
  | some l =>
    let b := Tbl.get none c.brand (l / 16)
    let ue := c.rowUe l
    if i < 16 then { p with b0 := if i = 0 ∨ p.b0 = b then b else none, ue0 := p.ue0 || ue }
    else { p with b1 := if i = 16 ∨ p.b1 = b then b else none, ue1 := p.ue1 || ue }

/-- Rows that still take room of `n` rows leaving from cycle `first` on, one per XCLK cycle (R72). -/
def rowsLeft (x first n now : Nat) : Nat := n - (now - first + x - 1) / x

/-- Rows in the outbound buffer in a cycle: those read of packets that have not left, and those of packets that have left and still wait
for their XCLK cycle (R67, R72); `x` is the ACLK cycles per XCLK cycle. -/
def Core.outHas (c : Core) (x now : Nat) : Nat :=
  c.outb.foldl (fun n p => n + if p.left then p.rows.length - (p.need - rowsLeft x p.leftAt p.need now) else p.rows.length) 0
    + c.leaving.foldl (fun n p => n + rowsLeft x p.1 p.2 now) 0

/-- SEND, TSEND, ST_MEM and ST_RING put each row they read into the outbound buffer in the cycle `now` they read it. -/
def Core.outRow (c : Core) (x now id idx : Nat) (la : Option Nat) (e : Entry) : Core :=
  let outb := c.outb.map (fun p => if p.id = id * 1024 + idx / 32 then
    { c.noteOut p (idx % 32) la with rows := p.rows ++ [e] } else p)
  let c := { c with outb := outb }
  { c with watch := { c.watch with obPeak := max c.watch.obPeak (c.outHas x now) } }

/-- ACLK cycles per XCLK cycle: XDIV as it is in force (R200, R408). -/
def State.xdiv (s : State) : Nat := if s.pow.xdiv2 then 2 else 1

/-- Store row of a read from a ring. -/
def AccOp.ringLa (o : AccOp) : Option Nat := match o with | .rd _ _ (.ring _ _ la) => some la | _ => none

/-- Whether an operation's rows go to the outbound buffer. -/
def goesOut (o : Option Op) : Bool :=
  match o with
  | some (.send _) => true
  | some (.tsend _) => true
  | some (.stMem _) => true
  | some (.stRing _) => true
  | _ => false

/-! ### One cycle -/

/-- Serve one access. -/
def State.serve (s : State) (gp cyc : Nat) (a : Access) : State :=
  match a.op with
  | .rd port idx src =>
    let s := s.doRead gp cyc a port idx src
    let c := s.core gp
    match c.flights.find? (fun f => decide (f.id = a.fl)) with
    | some f =>
      if goesOut (decodeEntry (gp / 80) f.ent) then s.setCore gp (c.outRow s.xdiv cyc f.id idx a.op.ringLa (entAt (f.port 0) idx)) else s
    | none => s
  | .wr port idx dst => s.doWrite gp a port idx dst

/-- Operations whose last read has just been served. -/
def State.finishAll (s : State) (gp cyc : Nat) : List Flight → State
  | [] => s
  | f :: r =>
    let c := s.core gp
    if !f.finished && !f.landing && !(c.acc.any (fun a => decide (a.fl = f.id) && a.op.isRead)) then
      let s := s.finish gp cyc f
      (s.modCore gp (fun c => { c with flights := c.flights.map (fun x => if x.id = f.id then { x with finished := true } else x) })).finishAll gp cyc r
    else s.finishAll gp cyc r

/-- One cycle in which some access is due. -/
def State.cycle (s : State) (gp cyc : Nat) : State :=
  let c := s.core gp
  let due := c.acc.filter (fun a => decide (a.cyc ≤ cyc))
  let rest := c.acc.filter (fun a => decide (cyc < a.cyc))
  let (served, lost) := arbitrate due
  let c := { c with watch := c.watch.conflicts cyc served lost }
  let c := if lost.isEmpty then { c with acc := rest } else c.pause cyc lost rest
  let s := s.setCore gp c
  let s := (served.filter (fun a => a.op.isRead)).foldl (fun s a => s.serve gp cyc a) s
  let s := (served.filter (fun a => !a.op.isRead)).foldl (fun s a => s.serve gp cyc a) s
  let s := (s.core gp).flights.foldl (fun (s : State) f => if f.unit = 1 ∧ !f.finished ∧ !f.landing then s.accChecks gp cyc f else s) s
  s.finishAll gp cyc (s.core gp).flights

/-- The next cycle with an access due, if it comes before `stop`. -/
def Core.nextDue (c : Core) (stop : Nat) : Option Nat :=
  c.acc.foldl (fun m a => if a.cyc < stop then (match m with | some k => some (min k a.cyc) | none => some a.cyc) else m) none

/-- Run the accesses due before cycle `stop`; `fuel` bounds the busy cycles, each of which serves an access. -/
def State.runTo (s : State) (gp stop : Nat) : Nat → State
  | 0 => s
  | fuel + 1 =>
    match (s.core gp).nextDue stop with
    | none => s
    | some k => (s.cycle gp k).runTo gp stop fuel

/-- Retire operations whose retirement cycle has passed and which have no access left (R95). -/
def Core.retireTo (c : Core) (stop : Nat) : Core :=
  let gone : Flight → Bool := fun f => decide (f.retire < stop) && !f.hold && !(c.acc.any (fun a => decide (a.fl = f.id)))
  let used := c.flights.foldl (fun n f => if gone f && !f.landing then max n (f.retire + 1) else n) c.watch.used
  let owed := (c.flights.filter (fun f => f.landing && !(c.acc.any (fun a => decide (a.fl = f.id))))).filterMap (·.bklDue)
  { c with flights := (c.flights.filter (fun f => !gone f && !(f.landing && !(c.acc.any (fun a => decide (a.fl = f.id)))))),
           bklOut := c.bklOut ++ owed, watch := { c.watch with used := used } }

/-- Captures of disputes and replays whose tile completed before `stop` (R296). -/
def State.capturesTo (s : State) (gp stop : Nat) : State :=
  let pg := corePg gp
  let ready := (s.core gp).watch.captures.filter (fun k => decide (k.1 < stop))
  let s := ready.foldl (fun (s : State) k =>
    if k.2.1 then
      let s := s.wr (pg + 0x2C8) (BitVec.ofNat 32 k.2.2.1.toNat)
      let s := s.wr (pg + 0x2CC) (BitVec.ofNat 32 (2 ^ 31 + bit k.2.2.2 * 2 ^ 30 + k.2.2.1.toNat / 2 ^ 32))
      s.wf (pg + 0x2B0) 31 31 0
    else
      (s.wr (pg + 0x2C0) (BitVec.ofNat 32 k.2.2.1.toNat)).wr (pg + 0x2C4) (BitVec.ofNat 32 (2 ^ 31 + k.2.2.1.toNat / 2 ^ 32))) s
  s.modCore gp (fun c => { c with watch := { c.watch with captures := c.watch.captures.filter (fun k => decide (stop ≤ k.1)) } })

/-- Brand of a packet unit over its rows that are not void; 0 when there is none (R284). -/
def unitBrand (rows : List Entry) : Word := if rows.all Option.isNone then 0 else brandOf (rows.filterMap id)

/-- Bit mask of the void rows (R238). -/
def voidMask (rows : List Entry) : Word :=
  BitVec.ofNat 32 ((withIndex 0 rows).foldl (fun n p => if p.1.isNone then n + 2 ^ p.2 else n) 0)

/-- The stored brand an outbound unit carries (R287): that of the aligned block it covers exactly. `la` is the store row of the
unit's first row when it was read from a ring. -/
def outStored (la : Option Nat) (b : Option Word) (rows : List Entry) : Option Word :=
  match la with
  | some l => if l % 16 = 0 ∧ rows.length = 16 ∧ rows.all Option.isSome then b else none
  | none => none

/-- SYND of a brand mismatch (R289): point, unit, ring, first store row, source module, address bits. -/
def brandSynd (point unit ring row smod : Nat) (addr : Nat) : BitVec 64 :=
  BitVec.ofNat 64 (point + unit * 8 + ring * 16 + row % 8192 * 2 ^ 9 + smod * 2 ^ 22 + addr * 2 ^ 35)

/-- A failed brand check at a core (R288, R289): counted, and recorded unless a row of the unit raised a UE. -/
def State.brandFail (s : State) (gp cyc : Nat) (ue : Bool) (synd : BitVec 64) : State :=
  let s := s.bump (corePg gp + 0x2D0) 15 0 1
  if ue then s else s.coreErr gp 2 0x05 cyc synd

/-- One unit of an outbound packet: its brand, the stored one after a check (POINT 2), else a computed one (R287). -/
def State.outUnit (s : State) (gp ring unit : Nat) (la : Option Nat) (b : Option Word) (ue : Bool) (rows : List Entry) : Word × State :=
  match outStored la b rows with
  | some b =>
    if brandOf (rows.filterMap id) ≠ b then
      (b, s.brandFail gp (s.coreAt (s.core gp).now) ue (brandSynd 2 unit ring (la.getD 0) s.myId 0))
    else (b, s)
  | none => (unitBrand rows, s)

/-- The packet as it leaves: payload, void marks and brands (R74, R238, R284, R287). -/
def State.finishPkt (s : State) (gp : Nat) (p : OutPkt) : Packet × State :=
  let base := { p.pkt with rows := p.rows.length }
  if p.rows.all Option.isNone then ({ base with void := true }, s)
  else
    let (b0, s) := s.outUnit gp p.ring 0 p.u0 p.b0 p.ue0 (p.rows.take 16)
    let (b1, s) := if 16 < p.rows.length then s.outUnit gp p.ring 1 p.u1 p.b1 p.ue1 (p.rows.drop 16) else ((0 : Word), s)
    ({ base with payload := p.rows.map (fun e => e.getD 0), voidmask := voidMask p.rows, brand0 := b0, brand1 := b1 }, s)

/-- A packet of which rows were still to come is whole: it has its payload, void marks and brands, wherever its header is (R72). -/
def NetPkt.complete (q : NetPkt) (src : Nat × Nat) (k : Packet) : NetPkt :=
  if q.src = some src then
    { q with pkt := { q.pkt with rows := k.rows, void := k.void, payload := k.payload, voidmask := k.voidmask, brand0 := k.brand0,
                                 brand1 := k.brand1 }, src := none }
  else q

/-- The rows of an outbound packet whose header has left are all read, or, where a pattern has been stopped, as many as it has read
(log entry 17). -/
def State.endPacket (s : State) (gp : Nat) (p : OutPkt) : State :=
  let (pkt, s) := s.finishPkt gp p
  { s with net := s.net.map (·.complete (gp, p.id) pkt), arrived := s.arrived.map (·.complete (gp, p.id) pkt) }

/-- Packets whose header has left and that now hold every row are whole; their rows free their room one per XCLK cycle (R72, log entry
38). -/
def State.departDone (s : State) (gp : Nat) : State :=
  let c := s.core gp
  let fin : OutPkt → Bool := fun p => p.left && decide (p.rows.length = p.need)
  let gone := c.outb.filter fin
  if gone.isEmpty then s
  else
    let s := s.setCore gp { c with outb := c.outb.filter (fun p => !fin p),
                                   leaving := c.leaving ++ gone.map (fun p => (p.leftAt, p.need)) }
    gone.foldl (fun (s : State) p => s.endPacket gp p) s

/-- Packets whose header has left and whose remaining rows will not come end with the rows that have been read (log entry 17). -/
def State.cutPackets (s : State) (gp : Nat) : State :=
  let c := s.core gp
  let cut := c.outb.filter (fun p => p.left && decide (p.rows.length ≠ p.need))
  let c' := { c with outb := c.outb.filter (fun p => !(p.left && decide (p.rows.length ≠ p.need))),
                     leaving := c.leaving ++ (cut.filter (fun p => !p.rows.isEmpty)).map (fun p => (p.leftAt, p.rows.length)) }
  cut.foldl (fun (s : State) p => s.endPacket gp p) (s.setCore gp c')

/-- A packet's header leaves with its first row (R72): it is in the package network from then on, with its rows to come. -/
def State.depart (s : State) (gp cyc : Nat) (p : OutPkt) : State :=
  let ctx := s.coreCtx gp
  let s := s.modCore gp (fun c => { c with outb := c.outb.map (fun x => if x.id = p.id then { x with left := true, leftAt := cyc } else x) })
  let k := { p.pkt with rows := p.need }
  let q : NetPkt := { pkt := k, at_ := .core gp, vc := k.vc, reqCore := some gp, ctx := ctx, src := some (gp, p.id) }
  { s with net := s.net ++ [q] }.departDone gp

/-- Bring a core up to body cycle `stop`: everything due before it has happened. -/
def State.advance (s : State) (gp stop : Nat) : State :=
  let s := s.runTo gp stop ((s.core gp).acc.length + 1)
  let s := (s.disputesTo gp stop).capturesTo gp stop
  let x := s.xdiv
  let s := s.modCore gp (fun c => { c.retireTo stop with
    now := max c.now stop, leaving := c.leaving.filter (fun p => decide (0 < rowsLeft x p.1 p.2 (max c.now stop))) })
  s.departDone gp

end Sys2Proof.Machine
end

