-- ==== Sys2Proof/Machine/Fire.lean ====
section
/-! DEFINITION. The firing rule (R60 to R73, R82, R105 to R109): what an operation reads and writes and when, the
conditions it waits for, and what every firing does. -/

namespace Sys2Proof.Machine

/-! ### Inputs and outputs of an operation -/

/-- Where an input comes from. -/
inductive InSrc where
  | ring (n : Nat)
  | trace (n : Nat)
  | la (la : Nat)
  | act (row : Nat)
  | tile
  deriving DecidableEq, Repr

/-- One input: its port, source, cycles after firing at which each row is read, and operand field order. -/
structure InPort where
  port : Nat
  src : InSrc
  offs : List Nat
  field : Nat
  deriving DecidableEq, Repr

/-- Where an output goes. -/
inductive OutDst where
  | ring (n : Nat)
  | trace (n : Nat)
  | token (n : Nat)
  | la (la : Nat)
  deriving DecidableEq, Repr

/-- One output: its port, destination, rows with the cycles after firing at which they are written, its quantum. -/
structure OutPort where
  port : Nat
  dst : OutDst
  times : List (Nat × Nat)
  quantum : Nat
  field : Nat
  deriving DecidableEq, Repr

/-- An operation's inputs and outputs, rows for the outbound buffer, cycles it reads for, and cycles to retirement. -/
structure Plan where
  ins : List InPort := []
  outs : List OutPort := []
  outRows : Nat := 0
  busy : Nat := 1
  retire : Nat := 0
  deriving DecidableEq, Repr

/-- The input a SEL names; `d` is the meaning of 0x3E. -/
def selIn (s : Sel) (d : InSrc) : Option InSrc :=
  match s with
  | .ring n => some (.ring n)
  | .trace n => some (.trace n)
  | .direct => some d
  | .none => none

/-- An input that reads one row per cycle from the firing cycle (R69). -/
def rowsIn (port : Nat) (s : Sel) (d : InSrc) (n field : Nat) : List InPort :=
  match selIn s d with
  | some src => [⟨port, src, List.range n, field⟩]
  | none => []

/-- Output entries at f + L + i (R71). -/
def rowTimes (l n : Nat) : List (Nat × Nat) := (List.range n).map (fun i => (i, l + i))

/-- An output to a SEL that takes rows. -/
def selOut (port : Nat) (s : Sel) (la : Nat) (times : List (Nat × Nat)) (field : Nat) : List OutPort :=
  match s with
  | .ring n => [⟨port, .ring n, times, times.length, field⟩]
  | .trace n => [⟨port, .trace n, times, times.length, field⟩]
  | .direct => [⟨port, .la la, times, times.length, field⟩]
  | .none => []

/-- An output to a TR field. -/
def trOut (port : Nat) (t : Tr) (times : List (Nat × Nat)) (field : Nat) : List OutPort :=
  match t with
  | .trace n => [⟨port, .trace n, times, times.length, field⟩]
  | .unbound => []

/-- The last cycle of a list of writes. -/
def lastTime (ts : List (Nat × Nat)) : Nat := ts.foldl (fun n t => max n t.2) 0

/-- Cycles per scale group of one operand (R71, R117). -/
def fmtCycles (fmt : Nat) : Nat := if fmt = 4 ∨ fmt = 8 then 2 else if fmt = 9 ∨ fmt = 0xA then 16 else 4

/-- Cycles after firing at which the rows of an ACC operand are read, in operand order, scale rows marked (R116). -/
def accOffs (fmt k c : Nat) : List (Nat × Bool) :=
  let w := codeWidth fmt
  if isMX fmt then
    (List.range (setRows w k)).map (fun i =>
      let set := i / setLen w
      let r := i % setLen w
      if r = 0 then (8 * set * c, true) else ((8 * set + (r - 1) / (w / 2)) * c + (r - 1) % (w / 2), false))
  else (List.range (k * w / 2)).map (fun i => (i / (w / 2) * c + i % (w / 2), false))

/-- Activation format of an ACC: ACT_FMT when it reads the activation buffer (R115). -/
def State.accFmt (s : State) (gp : Nat) (a : AccArgs) : Nat :=
  if a.asrc = .direct then s.rf (corePg gp + 0x26C) 11 8 else a.afmt

/-- The operands' cycles per group, the slower of the two (R71). -/
def State.accCycles (s : State) (gp : Nat) (a : AccArgs) : Nat := max (fmtCycles (s.accFmt gp a)) (fmtCycles a.wfmt)

/-- Plan of an ACC (R71, R106, R116). -/
def State.accPlan (s : State) (gp : Nat) (a : AccArgs) : Plan :=
  let c := s.accCycles gp a
  let side : Nat → Sel → InSrc → Nat → Nat → List InPort := fun port sel d fmt field =>
    match selIn sel d with
    | some src => [⟨port, src, (accOffs fmt a.k c).map (·.1), field⟩]
    | none => []
  { ins := side 0 a.asrc (.act a.abuf) (s.accFmt gp a) 212 ++ side 1 a.wsrc (.la a.wrow) a.wfmt 184,
    busy := a.k * c, retire := a.k * c + 23 }

/-- Plan of a VEC operation (R162, R438, R442). -/
def vecPlan (a : VecArgs) : Plan :=
  let q := vecQuanta a
  let times := vecTimes a
  let toks : Nat := if a.op = 0x0F then a.rows else 1
  let d1 : List OutPort := match a.d1 with
    | .trace n => if 14 ≤ n ∧ (a.op = 0x0F ∨ a.op = 0x14) then [⟨2, .token n, times.take toks, toks, 164⟩] else selOut 1 a.d1 a.la times 164
    | _ => selOut 1 a.d1 a.la times 164
  { ins := rowsIn 0 a.s0 (.la a.la) q.1 212 ++ rowsIn 1 a.s1 (.la a.la) q.2.1 200 ++ rowsIn 2 a.s2 (.la a.la) q.2.2.1 188,
    outs := selOut 0 a.d0 a.la times 176 ++ d1, busy := max q.1 q.2.1, retire := lastTime times }

/-- Inputs and outputs of an operation (R71, R95). -/
def State.plan (s : State) (gp : Nat) (op : Op) : Plan :=
  match op with
  | .wait n => { busy := max n 1, retire := n }
  | .rep _ _ => {}
  | .fin => {}
  | .load a => { outs := [⟨0, .ring a.dst, [], a.rows, 212⟩] }
  | .loadAct a => { ins := rowsIn 0 a.src (.la a.la) a.rows 212, busy := a.rows, retire := a.rows - 1 }
  | .acc a => s.accPlan gp a
  | .drain a =>
    let n := drainRows a.ofmt
    { ins := [⟨0, .tile, List.range n, 0⟩],
      outs := trOut 0 a.outa (rowTimes 10 n) 214 ++ trOut 1 a.outb (rowTimes 10 n) 204, busy := n, retire := n + 9 }
  | .loadTile a =>
    let n := if a.sfmt = 0xB then 8 else 12
    { ins := rowsIn 0 a.src (.la a.la) n 212, busy := n, retire := n + 3 }
  | .vec a => vecPlan a
  | .switch a =>
    { ins := [⟨9, .trace a.ct, [0], 214⟩] ++ (match a.a with | .trace n => [⟨0, .trace n, List.range a.span, 204⟩] | .unbound => []),
      outs := trOut 0 a.b (rowTimes 1 a.span) 194 ++ trOut 1 a.c (rowTimes 1 a.span) 184, busy := a.span, retire := a.span }
  | .merge a =>
    let inp : Nat → Tr → Nat → List InPort := fun p t f =>
      match t with | .trace n => [⟨p, .trace n, List.range a.span, f⟩] | .unbound => []
    { ins := [⟨9, .trace a.ct, [0], 214⟩] ++ inp 0 a.a 204 ++ inp 1 a.b 194, outs := trOut 0 a.c (rowTimes 1 a.span) 184,
      busy := a.span, retire := a.span }
  | .send a => { ins := rowsIn 0 a.src (.la a.la) a.rows 212, outRows := a.rows, busy := a.rows, retire := a.rows - 1 }
  | .tsend a => { ins := rowsIn 0 a.src (.la a.la) a.rows 212, outRows := a.rows, busy := a.rows, retire := a.rows - 1 }
  | .arm ring win _ _ => { outs := [⟨0, .ring ring, [], win, 214⟩] }
  | .disarm _ => {}
  | .st src dst rows la =>
    { ins := rowsIn 0 src (.la la) rows 212, outs := selOut 0 dst la (rowTimes 2 rows) 200, busy := rows, retire := rows + 1 }
  | .stMem a => { ins := rowsIn 0 a.src (.la a.la) a.rows 212, outRows := a.rows, busy := a.rows, retire := a.rows - 1 }
  | .stRing a => { ins := rowsIn 0 a.src (.la a.la) a.rows 212, outRows := a.rows, busy := a.rows, retire := a.rows - 1 }
  | .syncAdd _ _ _ _ => {}
  | .waitb _ => {}
  | .token _ ct => { outs := [⟨0, .token ct, [], 1, 182⟩] }
  | .emit ct _ => { outs := [⟨0, .token ct, [(0, 2)], 1, 214⟩], retire := 2 }
  | .armb _ _ => {}

/-! ### Conditions of firing -/

/-- The entry at the head of the unit's queue is the one the sequencer reads in this cycle: it can fire from the next one (log entry
58). -/
def Core.justRead (c : Core) (unit cyc : Nat) : Bool :=
  decide (c.seq.put = some unit) && decide (c.seq.readAt = some (64 + cyc)) && decide ((c.queue unit).length = 1)

/-- A unit is still reading the inputs of an earlier operation, or holds one that waits for a buckle (R60, R273); or its head has
only just been read; or the cycle is over. -/
def Core.unitBusy (c : Core) (unit cyc : Nat) : Bool :=
  c.flights.any (fun f => decide (f.unit = unit) && !f.landing && (decide (cyc < f.busy) || f.hold)) || c.justRead unit cyc
    || decide (cyc < c.now)

/-- State of a tile in a cycle (R106). -/
def Tile.stAt (t : Tile) (cyc : Nat) : TileSt := if cyc ≤ t.stTo then t.st else .idle

/-- The scoreboard holds the operation (R107). -/
def Core.held (c : Core) (op : Op) (cyc : Nat) : Option (Nat × Nat) :=
  match op with
  | .acc a => if (c.tile a.tile).stAt cyc = .draining then some (1, a.tile) else none
  | .drain a =>
    let st := (c.tile a.tile).stAt cyc
    if st = .accum ∨ st = .loading then some (0, a.tile) else none
  | .loadTile a =>
    let st := (c.tile a.tile).stAt cyc
    if st = .accum ∨ st = .draining then some (2, a.tile) else none
  | _ => none

/-- Rows that take room in the outbound buffer (R68, R72): every row of a packet whose header has not left, the rows still to come
of one that has, and the rows that wait for their XCLK cycle to leave; `x` is the ACLK cycles per XCLK cycle. -/
def Core.outHeld (c : Core) (x : Nat) : Nat :=
  c.outb.foldl (fun n p => n + if p.left then
      p.need - min p.rows.length (p.need - rowsLeft x p.leftAt p.need c.now) else p.need) 0
    + c.leaving.foldl (fun n p => n + rowsLeft x p.1 p.2 c.now) 0

/-- Rows an operation consumes from a trace or ring: over every input that names it (R68). -/
def inNeed (ins : List InPort) (i : InPort) : Nat :=
  (ins.filter (fun j => decide (j.src = i.src))).foldl (fun n j => n + j.offs.length) 0

/-- Room an operation needs on a trace or ring: over every output that names it (R68). -/
def outNeed (outs : List OutPort) (o : OutPort) : Nat :=
  (outs.filter (fun j => decide (j.dst = o.dst))).foldl (fun n j => n + j.quantum) 0

/-- Input trace and ring conditions of one input: the WHY code it fails with. A control trace serves the token input alone, and a
data trace the data inputs: any other use is not mapped (R66, R90). A ring short of rows makes its consumer wait until they have landed
(R83). -/
def State.inWhy (s : State) (gp unit : Nat) (ins : List InPort) (i : InPort) : List Nat :=
  let c := s.core gp
  match i.src with
  | .trace n =>
    if s.traceFor gp n unit false ∧ decide (i.port = 9) = !isDataTrace n ∧ inNeed ins i ≤ (c.trace n).ents.length then [] else [1]
  | .ring n =>
    let g := s.ringCfg gp n
    if g.on ∧ inNeed ins i ≤ g.avail (c.ring n) then [] else [2]
  | _ => []

/-- Output conditions of one output (R66, R68, R105). -/
def State.outWhy (s : State) (gp unit : Nat) (outs : List OutPort) (o : OutPort) : List Nat :=
  let c := s.core gp
  match o.dst with
  | .trace n => if s.traceFor gp n unit true ∧ isDataTrace n ∧ outNeed outs o ≤ (c.trace n).room n then [] else [3]
  | .token n => if s.traceFor gp n unit true ∧ !isDataTrace n ∧ outNeed outs o ≤ (c.trace n).room n then [] else [3]
  | .ring n =>
    let g := s.ringCfg gp n
    if g.on ∧ (c.arm n).isNone ∧ outNeed outs o ≤ g.room (c.ring n) then [] else [4]
  | .la _ => []

/-- Rings fed from outside the core that lack landed rows for the operation (R82). -/
def State.outsideRings (s : State) (gp : Nat) (p : Plan) : List Nat :=
  p.ins.filterMap (fun i => match i.src with
    | .ring n =>
      let g := s.ringCfg gp n
      let r := (s.core gp).ring n
      if g.on ∧ r.outside ∧ g.avail r < inNeed p.ins i then some n else none
    | _ => none)

/-- One millisecond in 1/16 ns (R247, R248). -/
def oneMs : Nat := 16000000

/-- The send table has, or can make, an entry for a flow (R247). -/
def State.flowRoom (s : State) (gp dmod key : Nat) : Bool :=
  let t := (s.core gp).sendTab
  t.any (fun f => decide (f.dmod = dmod) && decide (f.key = key)) || decide (t.length < 256)
    || t.any (fun f => decide (f.last + oneMs ≤ s.coreTime gp))

/-- The next GEN and SEQ of a flow; an entry is allocated at the flow's first packet (R247, log entry 16). -/
def State.flowNext (s : State) (gp dmod key : Nat) : Nat × Nat × State :=
  let c := s.core gp
  match c.sendTab.find? (fun f => decide (f.dmod = dmod) && decide (f.key = key)) with
  | some f =>
    let tab := c.sendTab.map (fun x => if x.dmod = dmod ∧ x.key = key then { x with seq := (f.seq + 1) % 2 ^ 16, last := s.coreTime gp } else x)
    (f.gen, f.seq, s.setCore gp { c with sendTab := tab })
  | none =>
    let a := logPg ((s.logOf gp).getD 0) + 0x708
    let gen := (s.rf a 15 0 + 1) % 2 ^ 16
    let keep := if c.sendTab.length < 256 then c.sendTab
      else match c.sendTab.find? (fun f => decide (f.last + oneMs ≤ s.coreTime gp)) with
        | some old => c.sendTab.erase old
        | none => c.sendTab
    let s := s.wf a 15 0 gen
    (gen, 0, s.setCore gp { c with sendTab := keep ++ [{ dmod := dmod, key := key, gen := gen, seq := 1, last := s.coreTime gp }] })

/-- The flow an operation sends on, if any: destination module and key. -/
def State.opFlow (s : State) (op : Op) : Option (Nat × Nat) :=
  match op with
  | .send a => some (a.dmod, a.dcore)
  | .stRing a => some (a.dmod, a.dcore)
  | .stMem a => some (if a.remote then a.module else s.myId, 0xFFF)
  | .syncAdd _ m _ remote => some (if remote then m else s.myId, 0xFFE)
  | _ => none

/-- A remote LOAD needs one of 64 slots (R249). -/
def Core.freeSlot (c : Core) : Option Nat := (List.range 64).find? (fun t => !(Tbl.get {} c.slots t).busy)

/-- FEED conditions: a free descriptor slot, and a free remote-load slot (R68, R249). -/
def Core.feedWhy (c : Core) (op : Op) : List Nat :=
  match op with
  | .load a => if c.feedQ.length < 64 ∧ (!a.remote ∨ c.freeSlot.isSome) then [] else [5]
  | _ => []

/-- Every WHY code that keeps an operation from firing in a cycle (R68, SEQ_POS). -/
def State.whys (s : State) (gp unit cyc : Nat) (op : Op) : List Nat :=
  let c := s.core gp
  let p := s.plan gp op
  let flow := match s.opFlow op with
    | some f => if s.flowRoom gp f.1 f.2 then [] else [6]
    | none => []
  p.ins.flatMap (s.inWhy gp unit p.ins) ++ p.outs.flatMap (s.outWhy gp unit p.outs) ++ c.feedWhy op
    ++ (if p.outRows ≠ 0 ∧ 256 < c.outHeld s.xdiv + p.outRows then [6] else []) ++ flow
    ++ (if (c.held op cyc).isSome then [7] else [])

/-- The lowest code among them (SEQ_POS). -/
def lowWhy (l : List Nat) : Option Nat :=
  match l with
  | [] => none
  | x :: r => some (r.foldl min x)

/-! ### Waits (R82, R108) -/

/-- SYND of the LATE_INPUT record of an outside wait (R82). -/
def OutWait.synd (w : OutWait) (len : Nat) : BitVec 64 :=
  BitVec.ofNat 64 (2 ^ 48 + bit w.isUnit * 2 ^ 49 + len % 2 ^ 32 * 2 ^ 16 + w.num)

/-- HAZ_INFO of a hold (R108). -/
def Hold.info (h : Hold) (len : Nat) : Nat := min len 0xFFFF * 2 ^ 16 + h.kind * 2 ^ 14 + h.tile * 2 ^ 13 + h.idx

/-- The outside wait of a unit ends in `cyc`: its record carries the cycles waited (R82, R83). -/
def Watch.endOut (w : Watch) (unit cyc : Nat) : Watch :=
  match w.outWait with
  | some o => if o.unit = unit ∧ o.len.isNone then { w with outWait := some { o with len := some (cyc - o.start) } } else w
  | none => w

/-- A unit no longer waits for outbound room in `cyc`. A cycle in which both SEND and STORE wait for it counts once in OB_STALL (R67,
R83). -/
def Watch.endRoom (w : Watch) (unit cyc : Nat) : Watch :=
  match Tbl.get none w.obFrom unit with
  | some k =>
    let w := { w with obFrom := Tbl.set none w.obFrom unit none }
    let o := 10 - unit
    match Tbl.get none w.obFrom o with
    | some j => { w with obFrom := Tbl.set none w.obFrom o (some (min j k)) }
    | none => { w with obStall := w.obStall + (cyc - k) }
  | none => w

/-- End the waits of a unit's head operation (R83: OB_STALL), which fires in `cyc` or is discarded there; their records leave the core when the body
ends. -/
def Watch.endWaits (w : Watch) (unit cyc : Nat) : Watch :=
  let w := w.endOut unit cyc
  let w := match w.hold with
    | some h => if unit = 1 ∧ h.len.isNone then { w with hold := some { h with len := some (cyc - h.start) } } else w
    | none => w
  w.endRoom unit cyc

/-- Note a wait of the head operation (R82, R83, R108, OB_STALL). When a ring and the unit's own room are both short in one cycle, the
record names the ring, and a hold is recorded only for cycles in which the scoreboard is the one condition that is not met; of two
units whose outside waits begin in one cycle the one of the lower code is the first (DESIGN CHOICE, log entry 58). -/
def State.noteWait (s : State) (gp unit cyc : Nat) (q : QEnt) (op : Op) (ws : List Nat) : State :=
  let p := s.plan gp op
  let out := s.outsideRings gp p
  let short := p.ins.filter (fun i => !(s.inWhy gp unit p.ins i).isEmpty)
  let only := ws.all (fun w => w = 5 || w = 6 || (w = 2 && decide (out.length = short.length)))
  let isUnit := !(ws.contains 2)
  s.modCore gp (fun c =>
    let w := c.watch
    let w := if only ∧ w.outWait.isNone then
        { w with outWait := some { isUnit := isUnit, num := if isUnit then unit else out.headD 0, unit := unit, start := cyc } }
      else if only then w else w.endOut unit cyc
    let w := if lowWhy ws = some 7 ∧ w.hold.isNone then
        match c.held op cyc with
        | some h => { w with hold := some { kind := h.1, tile := h.2, idx := q.idx, start := cyc } }
        | none => w
      else w
    let w := if !ws.contains 6 then w.endRoom unit cyc
      else if (unit = 4 ∨ unit = 6) ∧ (Tbl.get none w.obFrom unit).isNone then { w with obFrom := Tbl.set none w.obFrom unit (some cyc) }
      else w
    { c with watch := w })

/-! ### Launching -/

/-- Read accesses of an input; ring rows are the next ones not yet claimed (R109). -/
def State.inAccess (s : State) (gp cyc fl rank code : Nat) (p : InPort) (scale : List Bool) : List Access :=
  let r := match p.src with | .ring n => (s.core gp).ring n | _ => {}
  let g := match p.src with | .ring n => s.ringCfg gp n | _ => ⟨false, 0, 1, 0⟩
  (withIndex 0 p.offs).map (fun o =>
    let src : RdSrc := match p.src with
      | .ring n =>
        let ptr := g.adv r.claim o.2
        .ring n ptr (g.la ptr)
      | .trace n => .trace n
      | .la la => .la (la + o.2)
      | .act row => .act ((row + o.2) % 256)
      | .tile => .tile
    { cyc := cyc + o.1, fl := fl, rank := rank, code := code, field := p.field + bit (scale.getD o.2 false),
      op := .rd p.port o.2 src })

/-- Write accesses of an output; ring rows are the next ones not yet reserved (R109). -/
def State.outAccess (s : State) (gp cyc fl rank code : Nat) (p : OutPort) : List Access :=
  let r := match p.dst with | .ring n => (s.core gp).ring n | _ => {}
  let g := match p.dst with | .ring n => s.ringCfg gp n | _ => ⟨false, 0, 1, 0⟩
  p.times.map (fun t =>
    let dst : WrDst := match p.dst with
      | .ring n =>
        let ptr := g.adv r.resv t.1
        .ring n ptr r.gen (g.la ptr)
      | .trace n => .trace n
      | .token n => .token n
      | .la la => .la (la + t.1)
    { cyc := cyc + t.2, fl := fl, rank := rank, code := code, field := p.field, op := .wr p.port t.1 dst })

/-- Rank and requester code of a unit at a bank (R137). -/
def unitRank (unit : Nat) : Nat × Nat :=
  match unit with
  | 1 => (1, 1) | 2 => (2, 2) | 4 => (4, 4) | 6 => (5, 6) | _ => (6, unit)

/-- Claim the input quantum of a ring (R109, R146). -/
def State.claimIn (s : State) (gp : Nat) (p : InPort) : State :=
  match p.src with
  | .ring n =>
    let g := s.ringCfg gp n
    s.modCore gp (fun c => c.setRing n { (c.ring n) with claim := g.adv (c.ring n).claim p.offs.length })
  | _ => s

/-- Reserve the output quantum (R69, R109); `outside` marks a producer outside the core (R82). A ring counts as fed from outside when
the last producer that reserved rows in it was FEED or RECV, so one that none has reserved in counts as inside (DESIGN CHOICE, log
entry 58). -/
def State.reserveOut (s : State) (gp : Nat) (outside : Bool) (p : OutPort) : State :=
  match p.dst with
  | .ring n =>
    let g := s.ringCfg gp n
    s.modCore gp (fun c => c.setRing n { (c.ring n) with resv := g.adv (c.ring n).resv p.quantum, outside := outside })
  | .trace n => s.modCore gp (fun c => c.setTrace n ((c.trace n).reserve p.quantum))
  | .token n => s.modCore gp (fun c => c.setTrace n ((c.trace n).reserve p.quantum))
  | .la _ => s

/-- Scale-row marks of an ACC operand's rows. -/
def State.scaleMarks (s : State) (gp : Nat) (op : Op) (port : Nat) : List Bool :=
  match op with
  | .acc a => (accOffs (if port = 0 then s.accFmt gp a else a.wfmt) a.k 1).map (·.2)
  | _ => []

/-- Claim one input's rows and give its reads: an operation that names a ring twice takes disjoint rows (R109). -/
def State.takeIn (gp cyc fl rank code : Nat) (op : Op) (x : State × List Access) (p : InPort) : State × List Access :=
  (x.1.claimIn gp p, x.2 ++ x.1.inAccess gp cyc fl rank code p (x.1.scaleMarks gp op p.port))

/-- Reserve one output's rows and give its writes (R69, R109). -/
def State.takeOut (gp cyc fl rank code : Nat) (outside : Bool) (x : State × List Access) (p : OutPort) : State × List Access :=
  (x.1.reserveOut gp outside p, x.2 ++ x.1.outAccess gp cyc fl rank code p)

/-- Fire the head operation of a unit (R68, R69, R91, R95): it leaves its queue, claims its inputs, reserves its outputs,
and its reads and writes fall due. -/
def State.launch (s : State) (gp unit cyc : Nat) (q : QEnt) (rest : List QEnt) (op : Op) : State :=
  let s := s.modCore gp (fun c => { c with watch := c.watch.endWaits unit cyc })
  let p := s.plan gp op
  let c := s.core gp
  let id := c.nextId
  let (rank, code) := unitRank unit
  let ord := Tbl.get 0 c.watch.ords q.idx
  let f : Flight := { id := id, unit := unit, idx := q.idx, ent := q.ent, fired := cyc, busy := cyc + p.busy,
                      retire := cyc + p.retire, ord := ord, finished := p.ins.isEmpty }
  let f := match op with
    | .vec a => { f with vec := c.vec, rng := c.stream (if a.op = 0x13 then 2 else 1) }
    | .drain a => { f with elems := (c.tile a.tile).elems, tileVoid := (c.tile a.tile).void, rng := c.stream 0 }
    | .acc a => { f with elems := (c.tile a.tile).elems, tileVoid := (c.tile a.tile).void }
    | _ => f
  let s := s.modCore gp (fun c => { (c.setQueue unit rest) with
    nextId := id + 1, flights := c.flights ++ [f],
    watch := { c.watch with ords := Tbl.set 0 c.watch.ords q.idx (ord + 1) } })
  let x := p.ins.foldl (State.takeIn gp cyc id rank code op) (s, [])
  let x := p.outs.foldl (State.takeOut gp cyc id rank code (decide (unit = 0) || decide (unit = 5))) x
  x.1.modCore gp (fun c => { c with acc := c.acc ++ x.2 })

/-! ### Packets of SEND, ST_MEM, ST_RING and TSEND (R238, R239, R245, R247, R261) -/

/-- Header fields every packet of a core carries: source, epoch, and the job of its context when it leaves the module. -/
def State.coreHdr (s : State) (gp dmod : Nat) : Packet :=
  let job := match s.coreCtx gp with
    | some c => if dmod = s.myId then 0 else s.rf (rtPg + 0x180 + 4 * c) 15 0
    | none => 0
  { epoch := s.epoch, dmod := dmod, smod := s.myId, score := (s.logOf gp).getD 0, job := job }

/-- Store row of a unit of 16 rows from row `i` of a ring read at `claim`, when they are consecutive (R287). -/
def RingCfg.unitLa (g : RingCfg) (claim i rows : Nat) : Option Nat :=
  let la := g.la (g.adv claim i)
  if i + 16 ≤ rows ∧ g.la (g.adv claim (i + 15)) = la + 15 then some la else none

/-- The packets of an operation of `rows` rows, 32 rows to each (R239). -/
def mkPackets (hdr : Packet) (rows id step : Nat) (last : Bool) (ring : Nat) (unitLa : Nat → Option Nat) : Nat → Nat → List OutPkt
  | 0, _ => []
  | n + 1, j =>
    let need := min 32 (rows - 32 * j)
    let p : Packet := { hdr with doff := hdr.doff + if step = 0 then 32 * j else 0, addr := hdr.addr + step * j,
                                 last := last && decide (n = 0), rows := need }
    { id := id * 1024 + j, pkt := p, need := need, ring := ring, u0 := unitLa (32 * j), u1 := unitLa (32 * j + 16) }
      :: mkPackets hdr rows id step last ring unitLa n (j + 1)

/-- Give each packet its GEN and SEQ (R247). -/
def State.numberPkts (s : State) (gp dmod key : Nat) : List OutPkt → List OutPkt × State
  | [] => ([], s)
  | p :: r =>
    let (gen, seq, s) := s.flowNext gp dmod key
    let (r, s) := s.numberPkts gp dmod key r
    ({ p with pkt := { p.pkt with gen := gen, seq := seq } } :: r, s)

/-- Enter an operation's packets in the outbound buffer. The claim pointer has already passed its rows. -/
def State.openPackets (s : State) (gp id : Nat) (src : Sel) (rows step : Nat) (last : Bool) (hdr : Packet)
    (flow : Option (Nat × Nat)) : State :=
  let (ring, unitLa) : Nat × (Nat → Option Nat) := match src with
    | .ring n =>
      let g := s.ringCfg gp n
      let claim := g.adv ((s.core gp).ring n).claim (2 * g.size - rows % (2 * g.size))
      (n, fun i => g.unitLa claim i rows)
    | _ => (0, fun _ => none)
  let ps := mkPackets hdr rows id step last ring unitLa ((rows + 31) / 32) 0
  let (ps, s) := match flow with
    | some f => s.numberPkts gp f.1 f.2 ps
    | none => (ps, s)
  s.modCore gp (fun c => { c with outb := c.outb ++ ps })

/-! ### Debug halts (R396) -/

/-- A D2 session bound to the core's context is open. -/
def State.d2For (s : State) (gp : Nat) : Bool :=
  match s.dbg with
  | some d => decide (d.level = 2) && decide (s.coreCtx gp = some d.ctx)
  | none => false

/-- Undefined contents of a tile (R55, log entry 4). -/
def State.freeTile (s : State) (gp t : Nat) : State :=
  let (n, s) := s.fresh
  s.modCore gp (fun c => c.setTile t { (c.tile t) with
    elems := (List.range 256).foldl (fun (m : Tbl (BitVec 46)) e => Tbl.set 0 m e (Config.freeAx n e)) [] })

/-- Undefined SMAXD and SCAN state (R174, log entry 4). -/
def State.freeVec (s : State) (gp : Nat) : State :=
  let n := s.freeCtr
  let tab : Nat → Nat → Tbl Word := fun base k =>
    (List.range k).foldl (fun m e => Tbl.set 0 m e (Config.freeWord (base + e))) []
  { s with freeCtr := n + 96 }.modCore gp (fun c => { c with vec := { m := tab n 16, s := tab (n + 16) 16, h := tab (n + 32) 64 } })

/-- An entry is an SMAXD or a SCAN. -/
def isScanOp (region : Nat) (e : BitVec 128) : Bool :=
  match decodeEntry region e with
  | some (.vec a) => decide (a.op = 0x15) || decide (a.op = 0x16)
  | _ => false

/-- Every check that has failed is counted and recorded in its cycle, which may lie beyond the stop (R295). -/
def State.disputesAll (s : State) (gp : Nat) : State :=
  s.disputesTo gp ((s.core gp).watch.pendDisp.foldl (fun n p => max n (p.1 + 1)) 0)

/-- Operations in flight stop at their next row boundary and unissued ones are discarded (R46, R54, R55, R174): reads and writes due from
`cyc` on do not take place, what has been done with the rows read stands, an outbound packet that lacks rows is dropped, or ends with
the rows it has if its header has left (log entry 17), tiles in the accumulation pipeline, a stopped LOAD_TILE's included, and SMAXD or
SCAN state become free (log entry 4). Landings go on. -/
def State.stopPattern (s : State) (gp cyc : Nat) : State :=
  let c := s.core gp
  let own := c.flights.filter (fun f => !f.landing)
  let ids := own.map (·.id)
  let piped := own.filter (fun f => decide (f.unit = 1) && (decide (entOp f.ent = 2) || decide (entOp f.ent = 4)) && decide (cyc ≤ f.retire))
  let scans := own.any (fun f => isScanOp (gp / 80) f.ent && !f.finished)
    || (c.queue 2).any (fun q => isScanOp (gp / 80) q.ent)
  let s := own.foldl (fun (s : State) f => s.cutShort gp f) s
  let s := (s.disputesAll gp).cutPackets gp
  let s := s.modCore gp (fun c => { c with
    queues := [], flights := c.flights.filter (·.landing), acc := c.acc.filter (fun a => !ids.contains a.fl),
    outb := c.outb.filter (fun p => decide (p.rows.length = p.need)),
    watch := { c.watch with captures := c.watch.captures.filter (fun k => decide (k.1 < cyc)), pendDisp := [], dispCap := none } })
  let s := if piped.isEmpty then s else
    piped.foldl (fun (s : State) f =>
      let t := ebits f.ent 112 112
      (s.freeTile gp t).modCore gp (fun c => c.setTile t { (c.tile t) with st := .idle })) s
  if scans then s.freeVec gp else s

/-- Halt a core: it stops issuing with its queues as they are (R92: they empty at s0), and the context is marked debug-perturbed (R56, R396). DBG_HSTAT gets the cause (0 HALT,
1 BRK, 2 STEP) and the entry at the head of the halting unit's queue; a HALT or STEP has no halting unit, and the spec states no
INDEX for it: it is a free value (log entry 4). The core has reached `cyc`. -/
def State.haltCore (s : State) (gp cyc cause : Nat) (idx : Option Nat) : State :=
  let q := (s.core gp).queues
  let s := (s.stopPattern gp cyc).modCore gp (fun c => { c with queues := q })
  let (i, s) := match idx with
    | some i => (i, s)
    | none => let (n, s) := s.fresh; ((Config.freeWord n).toNat % 2 ^ 13, s)
  let s := s.wr (corePg gp + 0x1304) (BitVec.ofNat 32 (2 ^ 31 + cause * 2 ^ 29 + i))
  let s := s.modCore gp (fun c => { c with halted := true, seq := { c.seq with reading := false } })
  match s.coreCtx gp with
  | some x => if s.perturbed.contains x then s else { s with perturbed := s.perturbed ++ [x] }
  | none => s

/-- Whether a BRK entry halts the core instead of firing (R88, R396). -/
def State.brkHalts (s : State) (gp : Nat) (q : QEnt) : Bool :=
  decide (ebits q.ent 119 119 = 1) && s.d2For gp && decide (s.rf (corePg gp + 0x1300) 28 28 = 1)

/-! ### Buckles owed for landings -/

/-- Pay the increments that landed packets owe to the buckles of their armings (R104, R271). -/
def State.payBuckles (s : State) (gp : Nat) : State :=
  let c := s.core gp
  if c.bklOut.isEmpty then s
  else
    let ctx := s.coreCtx gp
    c.bklOut.foldl (fun (s : State) b => s.bklAdd ctx b 1) (s.setCore gp { c with bklOut := [] })

end Sys2Proof.Machine
end

