-- ==== Sys2Proof/Machine/Fired.lean ====
section
/-! DEFINITION. What each operation does when it fires, beside its reads and writes (R102 to R106, R115, R196, R249, R270 to R273), and
the windows of armed rings (R104). -/

namespace Sys2Proof.Machine

/-! ### Windows of armed rings (R104) -/

/-- A landing into the ring is still writing. -/
def Core.landingOn (c : Core) (n : Nat) : Bool := c.flights.any (fun f => f.landing && decide (f.ringNo = n))

/-- The arming of a ring brought up to date: a window all of whose rows have landed advances, and a window without
reserved rows reserves them once the ring has room (R104). -/
def State.armAdvance (s : State) (gp n : Nat) : State :=
  let c := s.core gp
  match c.arm n with
  | none => s
  | some a =>
    let g := s.ringCfg gp n
    let a := if a.reserved ∧ a.got.length = a.win ∧ !c.landingOn n then
        { a with start := g.adv a.start a.win, got := [], reserved := false } else a
    let r := c.ring n
    if !a.reserved ∧ g.on ∧ a.win ≤ g.room r then
      s.setCore gp ((c.setRing n { r with resv := g.adv r.resv a.win, outside := true }).setArm n (some { a with reserved := true }))
    else s.setCore gp (c.setArm n (some a))

/-- Every arming of a core brought up to date. -/
def State.armsAdvance (s : State) (gp : Nat) : State :=
  (s.core gp).arms.foldl (fun (s : State) p => s.armAdvance gp p.1) s

/-! ### FEED -/

/-- The mask set of a multicast LOAD as committed (R197). -/
def State.msetOf (s : State) (gp n : Nat) : BitVec 64 × BitVec 8 × BitVec 8 :=
  let a := corePg gp + 0x600 + 16 * n
  (BitVec.ofNat 64 (s.rd64 a), BitVec.ofNat 8 (s.rf (a + 8) 15 8), BitVec.ofNat 8 (s.rf (a + 8) 7 0))

/-- What a LOAD does beside reserving its rows: it enters its descriptor, and a remote LOAD takes a slot (R196, R249). -/
def feedFired (gp : Nat) (s : State) (_ : Nat) (q : QEnt) (op : Op) : State :=
  match op with
  | .load a =>
    let g := s.ringCfg gp a.dst
    let c := s.core gp
    let r := c.ring a.dst
    let ptr := g.adv r.resv (2 * g.size - a.rows % (2 * g.size))
    let slot := if a.remote then (c.freeSlot).getD 0 else 0
    let old : RemSlot := Tbl.get {} c.slots slot
    let tagGen := (old.gen + 1) % 4096
    let d : FeedDesc := { slot := slot, tagGen := tagGen, idx := q.idx, dst := a.dst, ptr := ptr, gen := r.gen, rows := a.rows,
                          next := 0, addr := a.addr, stride := max a.stride 1,
                          module := if a.remote then some a.module else none,
                          mset := if a.mcast then some (s.msetOf gp a.mset) else none }
    let c := if a.remote then
        { c with slots := Tbl.set {} c.slots slot { gen := tagGen, busy := true, dst := a.dst, ptr := ptr, ringGen := r.gen, rows := a.rows } }
      else c
    let q := c.feedQ ++ [d]
    s.setCore gp { c with feedQ := q, watch := { c.watch with fqPeak := max c.watch.fqPeak q.length } }
  | _ => s

/-! ### ANVIL -/

/-- LOAD_ACT writes its FMT and TSCALE to ACT_FMT when it fires (R115). -/
def loadActFired (gp : Nat) (s : State) (_ : Nat) (_ : QEnt) (op : Op) : State :=
  match op with
  | .loadAct a => s.wr (corePg gp + 0x26C) (BitVec.ofNat 32 (a.fmt * 2 ^ 8 + a.tscale))
  | _ => s

/-- A firing puts its tile in a state that lasts through a cycle (R106). -/
def State.tileState (s : State) (gp tile : Nat) (st : TileSt) (last : Nat) : State :=
  s.modCore gp (fun c => c.setTile tile { (c.tile tile) with st := st, stTo := last })

/-- State that ACC, DRAIN and LOAD_TILE put their tile in. -/
def tileFired (gp cyc : Nat) (s : State) (_ : Nat) (_ : QEnt) (op : Op) : State :=
  match op with
  | .acc a => s.tileState gp a.tile .accum (cyc + a.k * s.accCycles gp a + 23)
  | .drain a => s.tileState gp a.tile .draining (cyc + drainRows a.ofmt + 3)
  | .loadTile a => s.tileState gp a.tile .loading (cyc + (if a.sfmt = 0xB then 8 else 12) + 3)
  | _ => s

/-! ### SEND and STORE -/

/-- Header of a SEND or ST_RING packet (R238). -/
def State.ringHdr (s : State) (gp : Nat) (a : SendArgs) : Packet :=
  { s.coreHdr gp a.dmod with type := 1, vc := 1, dcore := a.dcore, dring := a.dring, doff := a.doff }

/-- Packets of SEND and ST_RING. -/
def sendFired (gp : Nat) (s : State) (id : Nat) (_ : QEnt) (op : Op) : State :=
  match op with
  | .send a => s.openPackets gp id a.src a.rows 0 a.last (s.ringHdr gp a) (some (a.dmod, a.dcore))
  | .stRing a => s.openPackets gp id a.src a.rows 0 a.last (s.ringHdr gp a) (some (a.dmod, a.dcore))
  | _ => s

/-- Packets of TSEND (R252, R253): up on channel 3. -/
def tsendFired (gp : Nat) (s : State) (id : Nat) (_ : QEnt) (op : Op) : State :=
  match op with
  | .tsend a =>
    let hdr := { s.coreHdr gp s.myId with type := 5, vc := 3, dring := a.dring, doff := a.doff, tree := a.tree, opid := a.opid,
                                          rop := a.rop, rfmt := a.rfmt }
    let hdr := { hdr with job := match s.coreCtx gp with | some c => s.rf (rtPg + 0x180 + 4 * c) 15 0 | none => 0 }
    s.openPackets gp id a.src a.rows 0 a.last hdr none
  | _ => s

/-- Packets of ST_MEM (R239): packet i at ADDR + 4,096·i. -/
def stMemFired (gp : Nat) (s : State) (id : Nat) (_ : QEnt) (op : Op) : State :=
  match op with
  | .stMem a =>
    let dmod := if a.remote then a.module else s.myId
    let hdr := { s.coreHdr gp dmod with type := 2, vc := 1, dcore := 0xFFF, addr := a.addr, buckle := a.buckle, bkl := a.bkl }
    s.openPackets gp id a.src a.rows 4096 false hdr (some (dmod, 0xFFF))
  | _ => s

/-! ### RECV -/

/-- ARM opens a window at the ring's reservation pointer, which the firing has advanced past it (R104, R109). -/
def armFired (gp : Nat) (s : State) (_ : Nat) (_ : QEnt) (op : Op) : State :=
  match op with
  | .arm ring win buckle tree =>
    let g := s.ringCfg gp ring
    s.modCore gp (fun c => c.setArm ring (some { win := win, start := g.adv (c.ring ring).resv (2 * g.size - win), reserved := true,
                                                  got := [], buckle := buckle, tree := tree }))
  | _ => s

/-- DISARM removes an arming, if there is one (R105). -/
def disarmFired (gp : Nat) (s : State) (_ : Nat) (_ : QEnt) (op : Op) : State :=
  match op with
  | .disarm ring => s.modCore gp (fun c => c.setArm ring none)
  | _ => s

/-! ### SYNC -/

/-- ADD sends one BUCKLE_ADD, header only, to the bank of its module (R238, R247, R271). -/
def syncAddFired (gp : Nat) (s : State) (_ : Nat) (_ : QEnt) (op : Op) : State :=
  match op with
  | .syncAdd b m v remote =>
    let dmod := if remote then m else s.myId
    let ctx := s.coreCtx gp
    let (gen, seq, s) := s.flowNext gp dmod 0xFFE
    let k := { s.coreHdr gp dmod with type := 7, vc := 1, dcore := 0xFFE, buckle := b, value := BitVec.ofNat 32 v, gen := gen, seq := seq }
    { s with net := s.net ++ [{ pkt := k, at_ := .core gp, vc := 1, reqCore := some gp, ctx := ctx }] }
  | _ => s

/-- Hold the SYNC unit until its buckle is released or posts its token (R273). -/
def State.syncHold (s : State) (gp id b : Nat) : State :=
  (s.modCore gp (fun c => { c with waiter := some (b, id),
                                   flights := c.flights.map (fun f => if f.id = id then { f with hold := true } else f) })).setBkl b 7 true

/-- Note the outside wait of a SYNC operation (R82). -/
def State.syncWait (s : State) (gp cyc : Nat) : State :=
  s.modCore gp (fun c =>
    if c.watch.outWait.isNone then
      { c with watch := { c.watch with outWait := some { isUnit := true, num := 7, unit := 7, start := cyc } } }
    else c)

/-- WAITB: a buckle already released or faulted lets it retire in f + 2, else the bank registers the waiter (R273). A
buckle of another context, or of none, never releases it (R270). -/
def waitbFired (gp cyc : Nat) (s : State) (id : Nat) (_ : QEnt) (op : Op) : State :=
  match op with
  | .waitb b =>
    let ours := (s.coreCtx gp).isSome && decide (s.coreCtx gp = s.bklCtx b)
    if ours && s.bklBit b 11 then
      s.modCore gp (fun c => { c with flights := c.flights.map (fun f => if f.id = id then { f with retire := cyc + 2, busy := cyc + 3 } else f) })
    else if ours then (s.syncHold gp id b).syncWait gp cyc
    else (s.modCore gp (fun c => { c with flights := c.flights.map (fun f => if f.id = id then { f with hold := true } else f) })).syncWait gp cyc
  | _ => s

/-- TOKEN: a posted token is written in f + 2 and POSTED clears, else the bank registers the waiter (R273). -/
def tokenFired (gp cyc : Nat) (s : State) (id : Nat) (_ : QEnt) (op : Op) : State :=
  match op with
  | .token b ct =>
    let ours := (s.coreCtx gp).isSome && decide (s.coreCtx gp = s.bklCtx b)
    if ours && s.bklBit b 8 then
      let tok := Tbl.get 0 s.posted b
      (s.setBkl b 8 false).modCore gp (fun c =>
        { c with flights := c.flights.map (fun f => if f.id = id then
                   { f with retire := cyc + 2, busy := cyc + 3, rowVals := [some (BitVec.ofNat 1024 tok.toNat)] } else f),
                 acc := c.acc ++ [{ cyc := cyc + 2, fl := id, rank := 6, code := 7, field := 0, op := .wr 0 0 (.token ct) }] })
    else if ours then (s.syncHold gp id b).syncWait gp cyc
    else (s.modCore gp (fun c => { c with flights := c.flights.map (fun f => if f.id = id then { f with hold := true } else f) })).syncWait gp cyc
  | _ => s

/-- ARMB (R270, R272). -/
def armbFired (gp : Nat) (s : State) (_ : Nat) (_ : QEnt) (op : Op) : State :=
  match op with
  | .armb b target => s.bklArm (s.coreCtx gp) b (BitVec.ofNat 32 target)
  | _ => s

/-- What an operation does at its firing, whatever it is. -/
def opFired (gp cyc : Nat) (s : State) (id : Nat) (q : QEnt) (op : Op) : State :=
  match op with
  | .load _ => feedFired gp s id q op
  | .loadAct _ => loadActFired gp s id q op
  | .acc _ => tileFired gp cyc s id q op
  | .drain _ => tileFired gp cyc s id q op
  | .loadTile _ => tileFired gp cyc s id q op
  | .send _ => sendFired gp s id q op
  | .stRing _ => sendFired gp s id q op
  | .tsend _ => tsendFired gp s id q op
  | .stMem _ => stMemFired gp s id q op
  | .arm _ _ _ _ => armFired gp s id q op
  | .disarm _ => disarmFired gp s id q op
  | .syncAdd _ _ _ _ => syncAddFired gp s id q op
  | .waitb _ => waitbFired gp cyc s id q op
  | .token _ _ => tokenFired gp cyc s id q op
  | .armb _ _ => armbFired gp s id q op
  | _ => s

end Sys2Proof.Machine
end

