-- ==== Sys2Proof/Machine/Issue.lean ====
section
/-! DEFINITION. A body runs by itself (R60, R68, R85, R91): the sequencer reads an entry a cycle, and every unit fires the head of its
queue in the first cycle in which it can. A command of a core brings the core to its cycle and is the event of that cycle. -/

namespace Sys2Proof.Machine

/-! ### The sequencer -/

/-- Cycle number of the sequencer: seam cycles s40 to s63 as they are, body cycle c as 64 + c (R92). -/
def State.seqCycle (s : State) (cyc : Nat) : Nat := if s.gen.seamDone then cyc else 64 + cyc

/-- SYND of a pattern memory error (R87). -/
def pmemSynd (idx : Nat) : BitVec 64 := BitVec.ofNat 64 (2 ^ 63 + idx)

/-- Read an entry through the correction stage (R87): the entry as delivered, and whether it is uncorrectable. -/
def Core.pmemRead (c : Core) (idx : Nat) : BitVec 128 × Bool × Bool :=
  let e := Tbl.get 0 c.pmem idx
  let u := (Tbl.get 0 c.pmemUpset idx).toNat
  let halves := [u % 2 ^ 72, u / 2 ^ 72]
  let wrong : Nat → Nat := fun h => if 2 ≤ eccClass h then h % 2 ^ 64 else 0
  (e ^^^ BitVec.ofNat 128 (wrong (u % 2 ^ 72) + wrong (u / 2 ^ 72) * 2 ^ 64),
    halves.any (fun h => decide (eccClass h = 2)), halves.any (fun h => decide (eccClass h = 1) || decide (eccClass h = 3)))

/-- Offset after an entry has been read, with the repetitions that end there (R94). -/
def nextPos : List Rep → Nat → Nat × List Rep
  | [], p => (p, [])
  | r :: rest, p =>
    if p = r.stop then
      if r.left = 0 then nextPos rest p else (r.start, { r with left := r.left - 1 } :: rest)
    else (p, r :: rest)

/-- A REPEAT that breaks no rule of R94. -/
def Seq.repOk (q : Seq) (len : Nat) : Bool :=
  decide (q.pos + len ≤ 4095) && decide (q.reps.length < 2)
    && (match q.reps with | r :: _ => decide (q.pos + 1 + len ≤ r.stop) | [] => true)

/-- Stop reading at an invalid or uncorrectable entry (R96). -/
def Core.seqStop (c : Core) (idx : Nat) (ue : Bool) (k : Nat) : Core :=
  { c with seq := { c.seq with reading := false, bad := !ue, pmemUe := ue, badIdx := idx, last := idx, readAt := some k, put := none } }

/-- The directive or operation just read takes its effect: REPEAT, END, or its place at the tail of its unit's queue. -/
def Core.seqTake (c : Core) (region idx k : Nat) (e : BitVec 128) : Core :=
  let q := c.seq
  let stall := match q.blocked with | some b => q.stall + (k - b) | none => q.stall
  match decodeEntry region e with
  | none => c.seqStop idx false k
  | some (.rep len count) =>
    if q.repOk len then
      { c with seq := { q with pos := q.pos + 1, reps := { start := q.pos + 1, stop := q.pos + 1 + len, left := count - 1 } :: q.reps,
                               last := idx, readAt := some k, put := none, stall := stall, blocked := none } }
    else c.seqStop idx false k
  | some .fin =>
    if q.reps.isEmpty then { c with seq := { q with reading := false, endRead := true, last := idx, readAt := some k, put := none } }
    else c.seqStop idx false k
  | some _ =>
    let u := entUnit e
    let (p, reps) := nextPos q.reps (q.pos + 1)
    { (c.setQueue u (c.queue u ++ [⟨idx, e⟩])) with
      seq := { q with pos := p, reps := reps, last := idx, readAt := some k, put := some u, stall := stall, blocked := none } }

/-- Entries in a unit's queue at the beginning of sequencer cycle `k`: an operation that fires in that cycle still holds its place
(log entry 58). -/
def Core.queued (c : Core) (u k : Nat) : Nat :=
  (c.queue u).length
    + (c.flights.filter (fun f => decide (f.unit = u) && !f.landing && decide (64 + f.fired = k))).length

/-- Whether an entry goes to a unit's queue, and that queue is full (R91). -/
def Core.seqFull (c : Core) (region k : Nat) (e : BitVec 128) : Bool :=
  match decodeEntry region e with
  | some (.rep _ _) => false
  | some .fin => false
  | some _ => decide (16 ≤ c.queued (entUnit e) k)
  | none => false

/-- Report what the correction stage found at an entry (R87), once per read: an entry both of whose halves are wrong gives one record of
each kind (DESIGN CHOICE, log entry 69). -/
def State.pmemReport (s : State) (gp idx k : Nat) (ue ce : Bool) : State :=
  let cy := if k < 64 then seamCycle k else bodyCycle (k - 64)
  let s := if ce then s.coreErr gp 0 0x01 cy (pmemSynd idx) else s
  if ue then s.coreErr gp 2 0x02 cy (pmemSynd idx) else s

/-- One read cycle `k` of the sequencer, if it is to read an entry that `mine` accepts by its OP (R91 to R94). An entry that waits for
queue room has been read: it is the last one read (R96). -/
def State.seqStep (s : State) (gp k : Nat) (mine : Nat → Bool) : State :=
  let c := s.core gp
  if !s.coreOn gp || c.halted || !c.seq.reading || decide (k ≤ c.seq.readAt.getD 0) then s
  else if c.seq.pos = 4096 then
    if mine 0x20 then s.setCore gp (c.seqStop (c.seq.bank * 4096 + 4095) false k) else s
  else
    let idx := c.seq.bank * 4096 + c.seq.pos
    let (e, ue, ce) := c.pmemRead idx
    if !mine (entOp e) then s
    else
      let s := if c.seq.blocked.isSome then s else s.pmemReport gp idx k ue ce
      let c := s.core gp
      if ue then s.setCore gp (c.seqStop idx true k)
      else if c.seqFull (gp / 80) k e then
        s.setCore gp { c with seq := { c.seq with blocked := some (c.seq.blocked.getD k), last := idx, readAt := some k, put := none } }
      else s.setCore gp (c.seqTake (gp / 80) idx k e)

/-- The reads of the first `n` cycles from s40 on that no command has made (R92). -/
def State.seamReads (s : State) (gp n : Nat) : State :=
  (List.range n).foldl (fun (s : State) i => s.seqStep gp (40 + i) (fun _ => true)) s

/-- The reads of s40 to s63 that no command has made, before the boundary (R92). -/
def State.seqSeam (s : State) (gp : Nat) : State := s.seamReads gp 24

/-! ### Units -/

/-- A core issues operations: it is on, neither halted nor gated, and no seam has begun. -/
def State.issues (s : State) (gp : Nat) : Bool := s.coreOn gp && !(s.core gp).halted && !(s.core gp).gated && !s.gen.seamDone

/-- One attempt of a unit to fire the operation at the head of its queue in the core's present cycle, if `mine` accepts it (R60, R68).
`extra` is what the firing does besides its reads and writes. -/
def State.attempt (s : State) (gp unit cyc : Nat) (mine : Op → Bool) (extra : State → Nat → QEnt → Op → State) : State :=
  let c := s.core gp
  match c.queue unit with
  | [] => s
  | q :: rest =>
    match decodeEntry (gp / 80) q.ent with
    | none => s
    | some op =>
      if !mine op || !s.issues gp || c.unitBusy unit cyc then s
      else if s.brkHalts gp q then s.haltCore gp cyc 1 (some q.idx)
      else
        match s.whys gp unit cyc op with
        | [] => extra (s.launch gp unit cyc q rest op) c.nextId q op
        | w :: ws => s.noteWait gp unit cyc q op (w :: ws)

/-- A breakpoint at the head of a unit's queue halts the core (R396). -/
def State.brkStep (s : State) (gp cyc : Nat) : State :=
  match (List.range 8).findSome? (fun u => ((s.core gp).queue u).head?.bind (fun q => if s.brkHalts gp q then some q.idx else none)) with
  | some idx => s.haltCore gp cyc 1 (some idx)
  | none => s

/-! ### The outbound buffer -/

/-- The core port still carries the rows of a packet that has left (R72, R201: a granted packet's rows follow one per XCLK cycle). -/
def Core.portBusy (c : Core) : Bool := !c.leaving.isEmpty || c.outb.any (·.left)

/-- The outbound buffer asks for the core's crossbar port: a packet that may leave, or rows of one that has left (R72, R201). -/
def Core.outReady (c : Core) : Bool := c.portBusy || c.outb.any (fun p => !p.left && !p.rows.isEmpty)

/-! ### A body cycle -/

/-- The first part of body cycle `k`: windows, breakpoints, and the units below code `n` in the order of their codes (R68, R85, R104). Of
two units that become ready in one cycle for rows or room that suffice for one, the one of the lower code takes them (DESIGN CHOICE, log
entry 58). -/
def State.unitsTo (s : State) (gp n k : Nat) : State :=
  let s := s.armsAdvance gp
  let s := if s.issues gp then s.brkStep gp k else s
  (List.range n).foldl (fun (s : State) u => s.attempt gp u k (fun _ => true) (opFired gp k)) s

/-- Body cycle `k` of a core: the units, the sequencer, and then the accesses due in the cycle (R68, R85, R91). -/
def State.bodyStep (s : State) (gp k : Nat) : State :=
  let s := s.unitsTo gp 8 k
  let s := if s.issues gp then s.seqStep gp (64 + k) (fun _ => true) else s
  (s.advance gp (k + 1)).payBuckles gp

/-- The next cycle after `k` in which something of the core can change: every cycle while it reads entries or has just acted, else the
next access, end of reading, end of a tile's state, or row that leaves the outbound buffer. -/
def Core.nextStep (c : Core) (k stop : Nat) (acted : Bool) : Nat :=
  if acted ∨ (c.seq.reading ∧ c.seq.blocked.isNone) ∨ c.flights.any (fun f => decide (f.fired = k)) ∨ c.portBusy then k + 1
  else
    let later := c.acc.map (·.cyc) ++ c.flights.map (·.busy) ++ [c.t0.stTo + 1, c.t1.stTo + 1]
    later.foldl (fun n x => if k < x then min n x else n) stop

/-- A core with nothing to read, fire or move. -/
def Core.still (c : Core) : Bool :=
  c.acc.isEmpty && !c.seq.reading && (List.range 8).all (fun u => (c.queue u).isEmpty) && c.arms.isEmpty

/-- Run a core by itself up to body cycle `stop`; `fuel` bounds the cycles. -/
def State.run (s : State) (gp stop : Nat) : Nat → State
  | 0 => s
  | fuel + 1 =>
    let c := s.core gp
    if stop ≤ c.now then s
    else if c.still || !s.issues gp then ((s.advance gp stop).payBuckles gp).armsAdvance gp
    else
      let k := c.now
      let acted := c.acc.any (fun a => decide (a.cyc ≤ k))
      let s := s.bodyStep gp k
      let n := (s.core gp).nextStep k stop acted
      (if k + 1 < n then s.advance gp (min n stop) else s).run gp stop fuel

/-- Bring a core up to a cycle, and pay what its landings owe: everything that happens by itself before it has happened (R85). -/
def State.reach (s : State) (gp stop : Nat) : State :=
  let c := s.core gp
  if stop ≤ c.now then (s.advance gp stop).payBuckles gp else s.run gp stop (stop - c.now)

/-- A core as a unit finds it in a cycle: brought up to the cycle, with the units of lower code done (R68, R85). A cycle that is over has
no effect. -/
def State.reachUnit (s : State) (gp unit cyc : Nat) : State :=
  let s := s.reach gp cyc
  if cyc < (s.core gp).now then s else s.unitsTo gp unit cyc

/-- The event of a command: the unit fires the head of its queue if it can (R68). A unit that could fire earlier has done so. -/
def State.tryFire (s : State) (gp unit cyc : Nat) (mine : Op → Bool) (extra : State → Nat → QEnt → Op → State) : State :=
  (s.reachUnit gp unit cyc).attempt gp unit cyc mine extra

/-- A firing that does nothing beyond its reads and writes. -/
def noExtra (s : State) (_ : Nat) (_ : QEnt) (_ : Op) : State := s

/-- The core as the sequencer finds it in a cycle: after the seam's earlier reads, or after what its body does before (R85, R92). -/
def State.seqReach (s : State) (gp cyc : Nat) : State := if s.gen.seamDone then s.seamReads gp (cyc - 40) else s.reach gp cyc

/-- Whether the sequencer can read in a cycle: from s40 to s63 of the seam, and in a body cycle that is not over (R92). -/
def State.seqOpen (s : State) (gp cyc : Nat) : Bool :=
  if s.gen.seamDone then decide (40 ≤ cyc) && decide (cyc < 64) else decide ((s.core gp).now ≤ cyc)

/-- The event of a sequencer command: the core comes to the cycle, and the sequencer reads an entry that `mine` accepts (R91). -/
def State.seqRead (s : State) (gp cyc : Nat) (mine : Nat → Bool) : State :=
  if s.gen.seamDone ∧ (cyc < 40 ∨ 64 ≤ cyc) then s
  else
    let s := s.seqReach gp cyc
    if s.seqOpen gp cyc then s.seqStep gp (s.seqCycle cyc) mine else s

end Sys2Proof.Machine
end

