-- ==== Sys2Proof/Machine/Anvil.lean ====
section
/-! DEFINITION. ANVIL operations: LOAD_ACT, ACC, DRAIN, LOAD_TILE (R102, R103, R106, R107, R113 to R133). -/

namespace Sys2Proof.Machine

/-- LOAD_ACT (R102, R115): rows into the activation buffer. -/
def execLoadAct (gp cyc : Nat) (s : State) : Host.Outcome State Fault Refusal := inRange (.loadAct gp cyc) <|
  .next (s.tryFire gp 1 cyc (fun o => match o with | .loadAct _ => true | _ => false) (loadActFired gp))

/-- ACC (R102, R103, R119 to R124). -/
def execAcc (gp cyc : Nat) (s : State) : Host.Outcome State Fault Refusal := inRange (.acc gp cyc) <|
  .next (s.tryFire gp 1 cyc (fun o => match o with | .acc _ => true | _ => false) (tileFired gp cyc))

/-- DRAIN (R73, R102, R129 to R133). -/
def execDrain (gp cyc : Nat) (s : State) : Host.Outcome State Fault Refusal := inRange (.drain gp cyc) <|
  .next (s.tryFire gp 1 cyc (fun o => match o with | .drain _ => true | _ => false) (tileFired gp cyc))

/-- LOAD_TILE (R102, R103, R125). -/
def execLoadTile (gp cyc : Nat) (s : State) : Host.Outcome State Fault Refusal := inRange (.loadTile gp cyc) <|
  .next (s.tryFire gp 1 cyc (fun o => match o with | .loadTile _ => true | _ => false) (tileFired gp cyc))

end Sys2Proof.Machine
end

