-- ==== Sys2Proof/Machine/Sequencer.lean ====
section
/-! DEFINITION. The sequencer (R86 to R96), WAIT (R101), retirement (R95) and tile completion (R106). -/

namespace Sys2Proof.Machine

/-- SEQ_READ_ENTRY: the next entry, whatever it is (R91). -/
def execSeqReadEntry (gp cyc : Nat) (s : State) : Host.Outcome State Fault Refusal := inRange (.seqReadEntry gp cyc) <| .next (s.seqRead gp cyc (fun _ => true))

/-- REPEAT: the sequencer reads a REPEAT directive (R94). -/
def execRepeat (gp cyc : Nat) (s : State) : Host.Outcome State Fault Refusal := inRange (.repeatOp gp cyc) <|
  .next (s.seqRead gp cyc (fun op => decide (op = 0x1E)))

/-- END: the sequencer reads an END directive (R94). -/
def execEnd (gp cyc : Nat) (s : State) : Host.Outcome State Fault Refusal := inRange (.endOp gp cyc) <|
  .next (s.seqRead gp cyc (fun op => decide (op = 0x1F)))

/-- WAIT: a unit fires the WAIT at the head of its queue (R61, R101). -/
def execWait (gp unit cyc : Nat) (s : State) : Host.Outcome State Fault Refusal := inRange (.waitOp gp unit cyc) <|
  .next (s.tryFire gp unit cyc (fun o => match o with | .wait _ => true | _ => false) noExtra)

/-- The pattern has completed (R95): END read, queues empty, nothing of it in flight. -/
def Core.complete (c : Core) : Bool :=
  c.seq.endRead && (List.range 8).all (fun u => (c.queue u).isEmpty) && c.flights.all (·.landing)

/-- OP_RETIRE: cycle `cyc` has passed, and every operation whose last row, output or release lies in it has retired
(R95). -/
def execOpRetire (gp _unit cyc : Nat) (s : State) : Host.Outcome State Fault Refusal := inRange (.opRetire gp _unit cyc) <| .next (s.reach gp (cyc + 1))

/-- TILE_COMPLETE: at the end of cycle `cyc` a tile leaves a state that lasts through it (R106), and captures armed for
its completion are made (R296). -/
def execTileComplete (gp tile cyc : Nat) (s : State) : Host.Outcome State Fault Refusal := inRange (.tileComplete gp tile cyc) <|
  let s := s.reach gp (cyc + 1)
  .next (s.modCore gp (fun c =>
    let t := c.tile tile
    if t.stTo ≤ cyc then c.setTile tile { t with st := .idle } else c))

end Sys2Proof.Machine
end

