-- ==== Sys2Proof/Machine/MemOps.lean ====
section
/-! DEFINITION. Module memory (R180 to R195): the address map, ownership, reads and writes of DRAM and slices with ECC and
brands, and the gathering of response packets (R239, R287). -/

namespace Sys2Proof.Machine

/-! ### The local address map (R181, R182, R364) -/

/-- What a local address names. -/
inductive Home where
  | dram (region off : Nat)
  | slice (n row : Nat)
  | companion (p : QPort) (addr : Nat)
  | window (ctx row : Nat)
  | reserved
  deriving DecidableEq, Repr

/-- Decode a 43-bit local address (R181, R364). Offsets at or above 0x3_C000_0000 are no visible DRAM (R183). -/
def homeOf (a : Nat) : Home :=
  let a := a % 2 ^ 43
  if a / 2 ^ 42 = 1 then
    match a / 2 ^ 40 % 4 with
    | 0 => .companion .qa (a % 2 ^ 40)
    | 1 => .companion .qb (a % 2 ^ 40)
    | 2 => if a % 128 = 0 ∧ a / 2 ^ 17 % 2 ^ 23 = 0 then .window (a / 2 ^ 13 % 16) (a / 128 % 64) else .reserved
    | _ => .reserved
  else
    match a / 2 ^ 40 % 8 with
    | 0 => if a % 2 ^ 34 < 0x3C0000000 then .dram (a / 2 ^ 34 % 64) (a % 2 ^ 34) else .reserved
    | 1 => if a / 2 ^ 31 % 512 = 0 then
        .slice (a / 2 ^ 25 % 64 * 64 + a / 2 ^ 22 % 8 * 8 + a / 2 ^ 19 % 8) (a / 128 % 4096) else .reserved
    | _ => .reserved

/-- Memory controller of a region offset (R182). -/
def mcOf (region off : Nat) : Nat := 2 * region + off / 2 ^ 11 % 2

/-- Channel-local address (R182). -/
def chanAddr (off : Nat) : Nat := off / 4096 * 2048 + off % 2048

/-- Bank of a channel-local address: rank, bank group and bank (R182). -/
def dramBank (c : Nat) : Nat :=
  c / 2 ^ 15 % 2 * 16 + Nat.xor (c / 2 ^ 11 % 4) (c / 2 ^ 16 % 4) * 4 + Nat.xor (c / 2 ^ 13 % 4) (c / 2 ^ 18 % 4)

/-- DRAM row of a channel-local address (R182). -/
def dramRow (c : Nat) : Nat := c / 2 ^ 16 % 2 ^ 17

/-- Region offset of a channel-local address of channel `ch`: R182 read backwards. -/
def offOf (ch c : Nat) : Nat := c / 2048 * 4096 + ch * 2048 + c % 2048

/-- SYND of a DRAM error (R194). -/
def dramSynd (region off syn : Nat) (patrol : Bool) : BitVec 64 :=
  let c := chanAddr off
  BitVec.ofNat 64 (off / 2 ^ 11 % 2 + c / 2 ^ 15 % 2 * 2 + Nat.xor (c / 2 ^ 11 % 4) (c / 2 ^ 16 % 4) * 4
    + Nat.xor (c / 2 ^ 13 % 4) (c / 2 ^ 18 % 4) * 16 + c / 2 ^ 16 % 2 ^ 17 * 2 ^ 6 + c / 64 % 32 * 2 ^ 23
    + syn % 2 ^ 16 * 2 ^ 28 + region * 2 ^ 44 + bit patrol * 2 ^ 50)

/-! ### Ownership (R184, R186, R151) -/

/-- Address of the owner byte of a page (R184). -/
def ownerAddr (region page : Nat) : Nat := rcPg region (2 + page / 3840) + 0x100 + page % 3840

/-- The owner check of a DRAM row (R186). -/
def State.pageOk (s : State) (region off : Nat) (ctx : Option Nat) (fabric : Bool) : Bool :=
  let b := s.rdByte (ownerAddr region (off / 2 ^ 21))
  decide (b / 64 = 1) && decide (ctx = some (b % 16)) && (!fabric || decide (b / 32 % 2 = 1))

/-- The owner check of a slice (R151, R157). -/
def State.sliceOk (s : State) (n : Nat) (ctx : Option Nat) : Bool :=
  decide (s.rf (slicePg n + 0x100) 4 4 = 1) && decide (ctx = some (s.rf (slicePg n + 0x100) 3 0)) && !s.sliceZero.contains n

/-- The owner check of companion space: the PORT of the requester's context (R364). -/
def State.companionOk (s : State) (p : QPort) (ctx : Option Nat) : Bool :=
  match ctx with
  | some c => decide (s.ctxPort c = p)
  | none => false

/-! ### DRAM rows (R192 to R195) -/

/-- What the DRAM code says of a burst's upset mask: 0 clean, 1 corrected, 2 uncorrectable, 3 wrong word, 4 silent
(R192, R437). -/
def dramClass (mask : Nat) : Nat :=
  match popBits 528 mask with
  | 0 => 0
  | 1 => 1
  | 2 => 2
  | _ => match Config.multiBit mask with
    | 0 => 2
    | 1 => 3
    | _ => 4

/-- A row that fails in service goes onto the repair list. The runtime is asked to release its page, if it is visible, which is RETIRED
when it returns to FREE, and at once when it is FREE (R195; log entry 67). -/
def State.rowFails (s : State) (region off : Nat) : State :=
  let row := (mcOf region off, chanAddr off / 2048)
  let page := off / 2 ^ 21
  let a := ownerAddr region page
  let s := { s with repairs := if s.repairs.contains row then s.repairs else s.repairs ++ [row] }
  if 7680 ≤ page ∨ s.retirePend.contains (region, page) then s
  else
    match s.rdByte a / 64 with
    | 0 => s.wrByte a 0xC0
    | 3 => s
    | _ => { s with retirePend := s.retirePend ++ [(region, page)], out := s.out ++ [.releasePage region page] }

/-- Read a 64 B burst through the correction stage (R192 to R194): bits that stay wrong, and the SYND of an uncorrectable
error. -/
def State.burst (s : State) (region off cyc : Nat) (patrol : Bool) : Nat × Option (BitVec 64) × State :=
  let key := (region * 2 ^ 34 + off) / 64
  let m := (Tbl.get 0 s.dramUpset key).toNat
  let mc := mcOf region off
  let synd := dramSynd region off (syndrome16 m) patrol
  let ce : State → State := fun s =>
    let s := s.regionErr (mcPg mc) 0 0 0x03 cyc synd
    { s with ceBursts := Tbl.set [] s.ceBursts mc (Tbl.get [] s.ceBursts mc ++ [key]) }
  match dramClass m with
  | 0 => (0, none, s)
  | 1 => (0, none, ce s)
  | 2 => (m % 2 ^ 512, some synd, ((if patrol then s.regionErr (mcPg mc) 3 2 0x04 cyc synd else s.regionErr (mcPg mc) 1 2 0x04 cyc synd)).rowFails region off)
  | 3 => (m % 2 ^ 512, none, ce s)
  | _ => (m % 2 ^ 512, none, s)

/-- A burst that the link code does not correct, or whose address parity does not match, is an uncorrectable error of the burst (R192). The
burst is delivered as read, whose bits are no longer known, and the syndrome is any that is not 0: free values (log entry 4). -/
def State.linkUe (s : State) (region off cyc : Nat) (patrol : Bool) : BitVec 64 × State :=
  let (k, s) := s.fresh
  let synd := dramSynd region off (max 1 ((Config.freeWord k).toNat % 2 ^ 16)) patrol
  (synd, (s.regionErr (mcPg (mcOf region off)) (if patrol then 3 else 1) 2 0x04 cyc synd).rowFails region off)

/-- A link error that the link code corrects counts in LINK_CE (R192). -/
def State.linkCe (s : State) (region off cyc : Nat) : State := s.regionErr (mcPg (mcOf region off)) 2 0 0x7F cyc 2

/-- What a row meets on its way between the controller and the devices, reading or writing (R179, R192): 1 a link error that the link code
corrects, 2 and 3 one that it does not correct in the first or second burst, 4 and 5 an address parity mismatch of the first or second
burst. -/
def State.linkFault (s : State) (region off err cyc : Nat) (patrol : Bool) (row : Row) (st : Option (BitVec 64)) :
    Row × Option (BitVec 64) × State :=
  if err = 0 then (row, st, s)
  else if err = 1 then (row, st, s.linkCe region off cyc)
  else
    let second := err % 2
    let (synd, s) := s.linkUe region (off + 64 * second) cyc patrol
    let (n, s) := s.fresh
    let free := (Config.freeRow n).toNat % 2 ^ 512
    let data := BitVec.ofNat 1024 (if second = 0 then row.toNat / 2 ^ 512 * 2 ^ 512 + free else row.toNat % 2 ^ 512 + free * 2 ^ 512)
    (data, some (st.getD synd), s)

/-- Read a 128 B DRAM row (two bursts): the row as delivered and the error status that goes with it. -/
def State.dramRead (s : State) (region off cyc : Nat) : Row × Option (BitVec 64) × State :=
  let row := s.memRow (region * 2 ^ 34 + off)
  let (w0, e0, s) := s.burst region off cyc false
  let (w1, e1, s) := s.burst region (off + 64) cyc false
  (row ^^^ BitVec.ofNat 1024 (w0 + w1 * 2 ^ 512), e0.orElse (fun _ => e1), s)

/-! ### The brand region (R180, R285)

`dramBrand` keeps the brand of every hide by its address over 2,048, none while VALID is 0. The brand region is where its words and
VALID bits lie in DRAM; a word whose VALID bit is 0 reads 0 (DESIGN CHOICE, log entry 60). -/

/-- The brand of a hide of DRAM, by its address over 2,048; none: not valid (R285, R286). -/
def State.hideBrand (s : State) (k : Nat) : Option Word := Tbl.get s.brandBase s.dramBrand k

/-- Channel-local address of the brand word of visible hide `n` of a channel (R285). -/
def brandWordAt (n : Nat) : Nat := 0x1F0000000 + 4 * n

/-- Channel-local address of the byte with VALID bit `n` (R285). -/
def brandValidAt (n : Nat) : Nat := 0x1F0F00000 + n / 8

/-- End of the brand region's words and VALID bits, and the end of the visible area (R180, R285). -/
def brandEnd : Nat := 0x1F0F78000
def visibleEnd : Nat := 0x1E0000000

/-- Upset mask key of the burst at a channel-local address. -/
def burstKey (region ch c : Nat) : Nat := (region * 2 ^ 34 + offOf ch c) / 64

/-- Key in `dramBrand` of hide `n` of a channel. -/
def hideKey (region ch n : Nat) : Nat := region * 2 ^ 23 + 2 * n + ch

/-- Clear bits of the upset mask of a burst. -/
def State.clearUpset (s : State) (key mask : Nat) : State :=
  { s with dramUpset := Tbl.set 0 s.dramUpset key (Tbl.get 0 s.dramUpset key &&& ~~~(BitVec.ofNat 528 mask)) }

/-- Write the brand of a hide: its word and VALID bit are as written, whatever upset they had (R285, R286). -/
def State.setHideBrand (s : State) (k : Nat) (b : Option Word) : State :=
  let n := k % 2 ^ 23 / 2
  let s := { s with dramBrand := Tbl.set s.brandBase s.dramBrand k b }
  if s.dramUpset.isEmpty then s
  else
    (s.clearUpset (burstKey (k / 2 ^ 23) (k % 2) (brandWordAt n)) ((2 ^ 32 - 1) * 2 ^ (32 * (n % 16)))).clearUpset
      (burstKey (k / 2 ^ 23) (k % 2) (brandValidAt n)) (2 ^ (n % 512))

/-- Data of the burst of the brand region at a channel-local address (R285). -/
def State.brandBurst (s : State) (region ch c : Nat) : Nat :=
  if c < brandValidAt 0 then
    (List.range 16).foldl (fun v i =>
      v + ((s.hideBrand (hideKey region ch ((c - brandWordAt 0) / 64 * 16 + i))).getD 0).toNat * 2 ^ (32 * i)) 0
  else if c < brandEnd then
    (List.range 512).foldl (fun v i =>
      v + bit (s.hideBrand (hideKey region ch ((c - brandValidAt 0) / 64 * 512 + i))).isSome * 2 ^ i) 0
  else 0

/-- Turn over data bits of a burst of the brand region. -/
def State.flipBrands (s : State) (region ch c mask : Nat) : State :=
  let v := Nat.xor (s.brandBurst region ch c) (mask % 2 ^ 512)
  if c < brandValidAt 0 then
    (List.range 16).foldl (fun (s : State) i =>
      let k := hideKey region ch ((c - brandWordAt 0) / 64 * 16 + i)
      if (s.hideBrand k).isSome then s.setHideBrand k (some (BitVec.ofNat 32 (v / 2 ^ (32 * i)))) else s) s
  else if c < brandEnd then
    (List.range 512).foldl (fun (s : State) i =>
      let k := hideKey region ch ((c - brandValidAt 0) / 64 * 512 + i)
      s.setHideBrand k (if v / 2 ^ i % 2 = 1 then some ((s.hideBrand k).getD 0) else none)) s
  else s

/-- Read the brand of a hide from its two bursts, through the correction stage (R192 to R194, R285). `err` is what the read meets on the
link: 1 a corrected error, 2 an uncorrectable one of the burst with the word, 3 of the burst with the VALID bit. -/
def State.readBrand (s : State) (k cyc err : Nat) : Option Word × State :=
  let n := k % 2 ^ 23 / 2
  let region := k / 2 ^ 23
  let wordOff := offOf (k % 2) (brandWordAt n)
  let validOff := offOf (k % 2) (brandValidAt n)
  let (w, _, s) := s.burst region wordOff cyc false
  let (v, _, s) := s.burst region validOff cyc false
  let b := s.hideBrand k
  let word := b.getD 0 ^^^ BitVec.ofNat 32 (w / 2 ^ (32 * (n % 16)))
  let valid := b.isSome != (v / 2 ^ (n % 512) % 2 = 1)
  match err with
  | 0 => (if valid then some word else none, s)
  | 1 => (if valid then some word else none, s.linkCe region wordOff cyc)
  | 2 =>
    let (_, s) := s.linkUe region wordOff cyc false
    let (n, s) := s.fresh
    (if valid then some (Config.freeWord n) else none, s)
  | _ =>
    let (_, s) := s.linkUe region validOff cyc false
    let (n, s) := s.fresh
    (if (Config.freeWord n).toNat % 2 = 1 then some word else none, s)

/-- Write a 128 B DRAM row; its hide is unbranded and its upsets are gone (R286). -/
def State.dramWrite (s : State) (region off : Nat) (r : Row) : State :=
  let a := region * 2 ^ 34 + off
  let s := (s.setMemRow a r).setHideBrand (a / 2048) none
  { s with dramUpset := Tbl.set 0 (Tbl.set 0 s.dramUpset (a / 64) 0) (a / 64 + 1) 0 }

/-! ### Slice rows (R150, R151) -/

/-- SYND of a slice error: row, word and check syndrome as R144 places them. -/
def sliceSynd (row word syn : Nat) : BitVec 64 := BitVec.ofNat 64 (row + word * 2 ^ 13 + syn * 2 ^ 17)

/-- Report the errors of a slice read; the first uncorrectable word gives the row's error status. -/
def State.sliceReport (s : State) (n row cyc : Nat) (u : BitVec 1152) : List Nat → State
  | [] => s
  | w :: r =>
    let m := upWord u w
    let synd := sliceSynd row w (syndrome8 m)
    let s := match eccClass m with
      | 1 => s.regionErr (slicePg n) 0 0 0x01 cyc synd
      | 3 => s.regionErr (slicePg n) 0 0 0x01 cyc synd
      | 2 => s.regionErr (slicePg n) 2 2 0x02 cyc synd
      | _ => s
    s.sliceReport n row cyc u r

/-- Read a slice row (R142, R150). -/
def State.sliceRead (s : State) (n row cyc : Nat) : Row × State :=
  let k := n * 4096 + row
  let u := Tbl.get 0 s.sliceUpset k
  let ws := List.range 16
  let bad := ws.filter (fun w => decide (2 ≤ eccClass (upWord u w)))
  (Tbl.get 0 s.slices k ^^^ upData u bad, if u = 0 then s else s.sliceReport n row cyc u ws)

/-- Write a slice row; its block is unbranded (R286). -/
def State.sliceWrite (s : State) (n row : Nat) (r : Row) : State :=
  let k := n * 4096 + row
  { s with slices := Tbl.set 0 s.slices k r, sliceUpset := Tbl.set 0 s.sliceUpset k 0,
           sliceBrand := Tbl.set none s.sliceBrand (k / 16) none }

/-! ### Response packets (R239, R284, R287) -/

/-- The stored brand of the granule that begins at an address, as it is read; none where no granule begins, or the granule is unbranded
(R285, R287); `err` as in `readBrand`. -/
def State.storedBrand (s : State) (addr cyc err : Nat) : Option Word × State :=
  match homeOf addr with
  | .dram region off => if off % 2048 = 0 then s.readBrand ((region * 2 ^ 34 + off) / 2048) cyc err else (none, s)
  | .slice n row => (if row % 16 = 0 then Tbl.get none s.sliceBrand ((n * 4096 + row) / 16) else none, s)
  | _ => (none, s)

/-- Brand of the unit of a response that begins with row `i` (R287). -/
def Xfer.unitBrand (x : Xfer) (i : Nat) (rows : List Entry) : Word :=
  match x.brands.find? (fun b => decide (b.1 = i)) with
  | some b => if rows.length = 16 ∧ x.hdr.stride = 1 ∧ rows.all Option.isSome then b.2 else Machine.unitBrand rows
  | none => Machine.unitBrand rows

/-- The finished response. -/
def Xfer.pkt (x : Xfer) : Packet :=
  let rows : List Entry := (List.range x.rows).map (fun i =>
    ((x.got.find? (fun g => decide (g.1 = i))).map (fun g => g.2.1)).getD none)
  let errs := x.got.filterMap (fun g => g.2.2.map (fun e => (g.1, e)))
  let base := { x.hdr with rows := x.rows, err := errs }
  if rows.all Option.isNone then { base with void := true }
  else
    { base with payload := rows.map (fun e => e.getD 0), voidmask := voidMask rows,
                brand0 := x.unitBrand 0 (rows.take 16),
                brand1 := if 16 < rows.length then x.unitBrand 16 (rows.drop 16) else 0 }

/-- Blocks that a multicast reaches (R197). -/
def msetBlocks (m : BitVec 64 × BitVec 8 × BitVec 8) : List Nat :=
  (List.range 512).filter (fun b => m.1.getLsbD (b / 8) && m.2.1.getLsbD (b % 8))

/-- Put a finished response on its way from where its rows lie. A multicast response leaves as one packet for the issuer and for every
block of the mask set; the network copies it where their ways part (R197, R198). -/
def State.xferSend (s : State) (x : Xfer) : State :=
  let k := x.pkt
  let p : NetPkt := { pkt := k, at_ := x.node, vc := 4, reqCore := x.core, ctx := x.ctx, own := true,
                      tree := match k.mset with | some m => msetBlocks m | none => [] }
  { s with xfers := s.xfers.filter (fun y => decide (y.id ≠ x.id)), net := s.net ++ [p] }

/-- A row of a transfer has come. -/
def State.rowDone (s : State) (xid idx : Nat) (e : Entry) (err : Option (BitVec 64)) : State :=
  match s.xfers.find? (fun x => decide (x.id = xid)) with
  | none => s
  | some x =>
    let x := { x with got := x.got ++ [(idx, e, err)] }
    if x.got.length = x.rows then s.xferSend x
    else { s with xfers := s.xfers.map (fun y => if y.id = xid then x else y) }

/-- The brand of the granule that begins with a row of a transfer has been read with the row. -/
def State.rowBrand (s : State) (r : RowReq) (b : Option Word) : State :=
  match b with
  | some w => { s with xfers := s.xfers.map (fun x => if x.id = r.xfer then { x with brands := x.brands ++ [(r.idx, w)] } else x) }
  | none => s

/-- A row refused: void, counted in FEED_DENY of the requesting core (R183, R186, R364). -/
def State.rowDenied (s : State) (r : RowReq) : State :=
  let s := match r.core with
    | some gp => s.bump (corePg gp + 0x700) 31 0 1
    | none => s
  s.rowDone r.xfer r.idx none none

/-! ### Companion lines (R361, R365) -/

/-- Line-cache key of a companion line. -/
def lineKey (p : QPort) (addr : Nat) : Nat := (match p with | .qa => 0 | .qb => 2 ^ 33) + addr / 128 % 2 ^ 33

/-- Sets of the line cache: 131,072 lines, 16 ways (R365). -/
def lineSet (key : Nat) : Nat := key % 8192

/-- A slot line of an ACTIVE context is pinned (R365). -/
def State.pinned (s : State) (key : Nat) : Bool :=
  (List.range 16).any (fun c =>
    s.ctxActive c && (let e := s.ctxEng c
      decide (lineKey e.port e.base ≤ key) && decide (key < lineKey e.port e.base + 64)))

/-- Companion address of a key. -/
def keyAddr (key : Nat) : QPort × Nat := if key < 2 ^ 33 then (.qa, key * 128) else (.qb, (key - 2 ^ 33) * 128)

/-- Put a line in the cache; a full set gives up its lowest line that is not pinned, written back if it is M and dropped
silently if S or E (R361, R365; log entry 19). Where every line of a full set is pinned, the new line is not kept, and is written back if
it is M. -/
def State.cachePut (s : State) (key : Nat) (l : CLine) : State :=
  let set := s.cache.filter (fun p => decide (lineSet p.1 = lineSet key) && decide (p.1 ≠ key))
  let s := if set.length < 16 then s
    else match set.find? (fun p => !s.pinned p.1) with
      | some v =>
        let s := { s with cache := Tbl.erase s.cache v.1 }
        if v.2.st = 3 then s.qReq (keyAddr v.1).1 0x06 (keyAddr v.1).2 [v.2.data] .stMem else s
      | none => s
  if 16 ≤ set.length ∧ set.all (fun p => s.pinned p.1) then (if l.st = 3 then s.qReq (keyAddr key).1 0x06 (keyAddr key).2 [l.data] .stMem else s)
  else { s with cache := Tbl.set {} s.cache key l }

/-- Read a companion line for a transfer: from the cache, or by RdShared (R365); void when the port is not UP (R379). -/
def State.companionRead (s : State) (p : QPort) (addr : Nat) (r : RowReq) : State :=
  let l := Tbl.get {} s.cache (lineKey p addr)
  if l.st ≠ 0 then s.rowDone r.xfer r.idx (some l.data) none
  else if s.qLive p then s.qReq p 0x01 (addr / 128 * 128) [] (.feed r.xfer r.idx)
  else s.rowDenied r

/-- Write a companion line with WrLine; any copy the module holds is invalid (R365). -/
def State.companionWrite (s : State) (p : QPort) (addr : Nat) (row : Row) (why : QWhy) : State :=
  let s := { s with cache := Tbl.erase s.cache (lineKey p addr) }
  if s.qLive p then s.qReq p 0x04 (addr / 128 * 128) [row] why else s

/-! ### Requesting rows -/

/-- Rows that wait for a channel go into MC_QPEAK of the window under way (R439). -/
def State.peakQueue (s : State) (mc : Nat) : State :=
  s.peak (mcPg mc + 0x108) ((s.reqs.filter (fun q => match homeOf q.addr with
    | .dram rg o => decide (mcOf rg o = mc) | _ => false)).length)

/-- Request one row of a transfer: reserved addresses return void at once (R183), companion lines go to their port
(R364, R365), DRAM and slice rows wait for their unit. -/
def State.requestRow (s : State) (r : RowReq) : State :=
  match homeOf r.addr with
  | .dram region off => { s with reqs := s.reqs ++ [r] }.peakQueue (mcOf region off)
  | .slice _ _ => { s with reqs := s.reqs ++ [r] }
  | .companion p addr => if s.companionOk p r.ctx then s.companionRead p addr r else s.rowDenied r
  | _ => s.rowDenied r

/-- Where a response for an address comes from: a local unit of its region, or its slice. -/
def homeNode (a : Nat) : Node :=
  match homeOf a with
  | .dram region _ => .local_ region
  | .slice n _ => .slice n
  | .companion .qb _ => .local_ 7
  | _ => .local_ 0

end Sys2Proof.Machine
end

