-- ==== Sys2Proof/Machine/Memory.lean ====
section
/-! DEFINITION. The feed and module memory (R184 to R198): LOAD, descriptor issue, controller and slice requests, remote
reads, memory writes with the return window (R376), scrubbing, and the owner table. -/

namespace Sys2Proof.Machine

/-! ### FEED LOAD (R196, R197, R249) -/

/-- FEED_LOAD (R102, R196, R197, R249). -/
def execFeedLoad (gp cyc : Nat) (s : State) : Host.Outcome State Fault Refusal := inRange (.feedLoad gp cyc) <|
  .next (s.tryFire gp 0 cyc (fun o => match o with | .load _ => true | _ => false) (feedFired gp))

/-! ### Descriptor issue (R109, R196, R239) -/

/-- Rows of a descriptor that may be requested: those fewer than 256 rows beyond TAIL (R109); all of a descriptor whose
ring has begun a new generation, whose rows are discarded when they arrive (R149). -/
def State.feedSpan (s : State) (gp : Nat) (d : FeedDesc) : Nat :=
  let r := (s.core gp).ring d.dst
  if r.gen ≠ d.gen then d.rows
  else
    let g := s.ringCfg gp d.dst
    min d.rows (d.next + (256 - g.sub (g.adv d.ptr d.next) r.tail))

/-- Address of row `i` of a descriptor (R102). -/
def FeedDesc.rowAddr (d : FeedDesc) (i : Nat) : Nat := (d.addr + 128 * i * d.stride) % 2 ^ 43

/-- Header of response `j` of a LOAD from this module's memory (R198, R239). -/
def State.loadRspHdr (s : State) (gp : Nat) (d : FeedDesc) (j : Nat) : Packet :=
  let me := s.myId
  let lc := (s.logOf gp).getD 0
  { type := 4, vc := 4, epoch := s.epoch, dmod := me, smod := me, dcore := lc, score := lc, dring := d.dst, doff := 32 * j,
    pidx := j, addr := d.rowAddr (32 * j), mset := d.mset, stride := d.stride, loadRows := d.rows,
    land := some (d.ptr + 32 * j, d.gen) }

/-- Open the transfers that gather the responses of a LOAD. -/
def State.openXfers (s : State) (gp : Nat) (d : FeedDesc) (ctx : Option Nat) : List Nat → State
  | [] => s
  | j :: r =>
    let x : Xfer := { id := s.nextXfer, hdr := s.loadRspHdr gp d j, node := homeNode (d.rowAddr (32 * j)), ctx := ctx,
                      core := some gp, rows := min 32 (d.rows - 32 * j), addr := d.rowAddr (32 * j) }
    ({ s with nextXfer := s.nextXfer + 1, xfers := s.xfers ++ [x] }).openXfers gp d ctx r

/-- A router or die-mesh unit whose page it is has not been declared faulty (R212). -/
def State.unitLive (s : State) (pg : Nat) : Bool := decide (s.rf (pg + 0x100) 31 31 = 0)

/-- A request of a core for an address of this module can reach its home: a faulty block router leaves its block's cores unreachable, and a
faulty unit loses what comes to it (R212). -/
def State.pathLive (s : State) (gp a : Nat) : Bool :=
  let off := s.unitLive (routerPg (gp / 10)) && s.unitLive (meshPg (gp / 80))
  match homeOf a with
  | .slice n _ => decide (n / 8 = gp / 10)
      || (s.unitLive (routerPg (gp / 10)) && s.unitLive (routerPg (n / 8)) && (decide (n / 64 = gp / 80) || (off && s.unitLive (meshPg (n / 64)))))
  | .dram region _ => off && s.unitLive (meshPg region)
  | _ => off

/-- Request rows `lo` to `hi − 1` of a descriptor; a request that cannot reach its home is lost (R212). -/
def State.issueRows (s : State) (gp base : Nat) (d : FeedDesc) (ctx : Option Nat) (lo hi : Nat) : State :=
  (List.range (hi - lo)).foldl (fun (s : State) k =>
    let i := lo + k
    if !s.pathLive gp (d.rowAddr i) then s
    else s.requestRow { xfer := base + i / 32, idx := i % 32, addr := d.rowAddr i, ctx := ctx, fabric := false, core := some gp }) s

/-- Send the READ_REQ packets of a remote descriptor whose rows all lie below `hi` (R239, R249). -/
def State.issueRemote (s : State) (gp dmod : Nat) (d : FeedDesc) (ctx : Option Nat) (hi : Nat) : State × Nat :=
  let js := (List.range ((d.rows + 31) / 32)).filter (fun j => decide (d.next ≤ 32 * j) && decide (min d.rows (32 * j + 32) ≤ hi))
  let s := js.foldl (fun (s : State) j =>
    let k := { s.coreHdr gp dmod with type := 3, vc := 1, dcore := 0xFFF, dring := d.dst, rows := min 32 (d.rows - 32 * j),
                                      addr := (d.addr + 4096 * j * d.stride) % 2 ^ 43, tag := d.slot, pidx := j,
                                      taggen := d.tagGen, stride := d.stride, loadRows := d.rows }
    { s with net := s.net ++ [{ pkt := k, at_ := .core gp, vc := 1, reqCore := some gp, ctx := ctx }] }) s
  (s, if js.isEmpty then d.next else min d.rows (32 * (js.foldl max 0) + 32))

/-- FEED_DESCRIPTOR_ISSUE: the crossbar port grants the FEED queue, unless the outbound buffer asks for the port (R201), and its head
descriptor requests the rows it may; it leaves when it has requested all. A core that is not granted (R203) discards what it had
queued. -/
def execFeedDescriptorIssue (gp : Nat) (s : State) : Host.Outcome State Fault Refusal := inRange (.feedDescriptorIssue gp) <|
  let c := s.core gp
  if s.portShut gp then .next (s.setCore gp { c with feedQ := [] })
  else if c.outReady then .next s
  else
    match c.feedQ with
    | [] => .next s
    | d :: rest =>
      let ctx := s.coreCtx gp
      let hi := s.feedSpan gp d
      match d.module with
      | some m =>
        let (s, n) := s.issueRemote gp m d ctx hi
        .next (s.modCore gp (fun c => { c with feedQ := if n = d.rows then rest else { d with next := n } :: rest }))
      | none =>
        let base := d.base.getD s.nextXfer
        let s := if d.base.isNone then s.openXfers gp d ctx (List.range ((d.rows + 31) / 32)) else s
        let s := s.issueRows gp base d ctx d.next hi
        let n := max d.next hi
        .next (s.modCore gp (fun c => { c with feedQ := if n = d.rows then rest else { d with base := some base, next := n } :: rest }))

/-! ### Scheduling of a channel (R188) -/

/-- The `n`-th waiting request that a test selects. -/
def State.nthReq (s : State) (mine : RowReq → Bool) (n : Nat) : Option RowReq := (s.reqs.filter mine)[n]?

/-- Channel-local address of a request for a row of a controller's channel. -/
def RowReq.chan (r : RowReq) (mc : Nat) : Option Nat :=
  match homeOf r.addr with
  | .dram region off => if mcOf region off = mc then some (chanAddr off) else none
  | _ => none

/-- A request for a row of a controller's channel. -/
def reqOfMc (mc : Nat) (r : RowReq) : Bool := (r.chan mc).isSome

/-- A request for a row of the open page of its bank. -/
def State.openHit (s : State) (mc : Nat) (r : RowReq) : Bool :=
  match r.chan mc with
  | some c => decide (Tbl.find? s.openPages (mc * 32 + dramBank c) = some (dramRow c))
  | none => false

/-- A request that has waited 256 ns behind younger hits at a time in 1/16 ns. -/
def RowReq.starved (r : RowReq) (now : Nat) : Bool := match r.passed with | some p => decide (p + 4096 ≤ now) | none => false

/-- The class-1 row a controller serves next: one that has waited long enough, else the oldest hit of an open page, else the oldest
(R188). -/
def State.mcPick (s : State) (mc now : Nat) : Option RowReq :=
  let q := s.reqs.filter (reqOfMc mc)
  (q.find? (·.starved now)).orElse (fun _ => (q.find? (s.openHit mc)).orElse (fun _ => q.head?))

/-- A controller takes a row at a time: its page is open, and the older rows it has been served before begin to wait behind it. -/
def State.mcTake (s : State) (mc now : Nat) (r : RowReq) : State :=
  let older := (s.reqs.filter (reqOfMc mc)).takeWhile (· ≠ r)
  let mark : RowReq → RowReq := fun q => if older.contains q && q.passed.isNone then { q with passed := some now } else q
  { s with reqs := (s.reqs.erase r).map mark,
           openPages := match r.chan mc with | some c => Tbl.put s.openPages (mc * 32 + dramBank c) (dramRow c) | none => s.openPages }

/-- Class-1 rows wait at a channel. -/
def State.mcBusy (s : State) (mc : Nat) : Bool := s.reqs.any (reqOfMc mc)

/-- Address of the image row with the next entry. -/
def Loader.rowAddr (l : Loader) : Nat := (l.addr + 16 * l.done) % 2 ^ 43 / 128 * 128

/-- The pattern load engine of a core waits for a row of a channel (class 2). -/
def Core.loadsFrom (c : Core) (mc : Nat) : Bool :=
  match c.loader with
  | some l => (match homeOf l.rowAddr with | .dram region off => decide (mcOf region off = mc) | _ => false)
  | none => false

/-- A channel has a slot for class 3: no row of a higher class waits (R188). -/
def State.mcIdle (s : State) (mc : Nat) : Bool :=
  !s.mcBusy mc && !s.class2.any (fun x => decide (x.1 = mc)) && !s.cores.any (fun p => p.2.loadsFrom mc)

/-! ### Slice rows (R151, R199 to R201) -/

/-- A request for a slice row. -/
def reqOfSlice (r : RowReq) : Bool := match homeOf r.addr with | .slice _ _ => true | _ => false

/-! ### The crossbar of a block (R199, R201)

Ports of a crossbar are numbered 0 to 9 for the cores, 10 to 17 for the slices and 18 for the router. -/

/-- Input port of a block's crossbar by which a core's request comes. -/
def coreIn (blk : Nat) (core : Option Nat) : Nat :=
  match core with
  | some gp => if gp / 10 = blk then gp % 10 else 18
  | none => 18

/-- Input ports of block `blk`'s crossbar at which rows wait for an output port: reads of slice rows, and packets of the block. -/
def State.xbarWaiting (s : State) (blk out : Nat) (pktOut : NetPkt → Option Nat) : List Nat :=
  let reads := s.reqs.filterMap (fun r => match homeOf r.addr with
    | .slice n _ => if n / 8 = blk ∧ 10 + n % 8 = out then some (coreIn blk r.core) else none
    | _ => none)
  let pkts := s.net.filterMap (fun p =>
    if pktOut p = some out then
      (match p.at_ with
        | .core gp => if gp / 10 = blk then some (gp % 10) else none
        | .slice n => if n / 8 = blk then some (10 + n % 8) else none
        | .router b => if b = blk then some 18 else none
        | _ => none)
    else none)
  reads ++ pkts

/-- The waiting input port that an output port grants next: the first from its pointer on, in the order of the ports (R201). -/
def rrPick (from_ ports : Nat) (waiting : List Nat) : Option Nat :=
  ((List.range ports).map (fun i => (from_ + i) % ports)).find? waiting.contains

/-- An output port grants an input port: its pointer moves to the port after the winner (R201). -/
def State.xbarGrant (s : State) (blk out in_ : Nat) : State :=
  { s with xbarRR := Tbl.set 0 s.xbarRR (32 * blk + out) ((in_ + 1) % 19) }

/-- Whether an output port of a crossbar grants an input port now. -/
def State.xbarWins (s : State) (blk out in_ : Nat) (pktOut : NetPkt → Option Nat) : Bool :=
  decide (rrPick (Tbl.get 0 s.xbarRR (32 * blk + out)) 19 (s.xbarWaiting blk out pktOut) = some in_)

/-- Output port of a block's crossbar for the packets bound for a slice of the block. -/
def State.slicePktOut (s : State) (blk : Nat) (p : NetPkt) : Option Nat :=
  if (p.pkt.type = 2 ∨ p.pkt.type = 3) ∧ p.pkt.dmod = s.myId then
    (match homeOf p.pkt.addr with | .slice n _ => if n / 8 = blk then some (10 + n % 8) else none | _ => none)
  else none

/-- SLICE_ACCESS: the `n`-th waiting slice row, if its input port is the one the slice port grants next, is served after `waited` cycles
at the slice port, or refused (R150, R151, R201, R203). `err` is 1 for an uncorrectable error of the slice's control logic, and 2
for one of the crossbar's (R326). A row that a core had queued before its port was shut is discarded with the core's other requests (R203),
and one for a block that a reset holds counts in RST_DROP and returns nothing (R346). -/
def execSliceAccess (n waited err t : Nat) (s : State) : Host.Outcome State Fault Refusal := inRange (.sliceAccess n waited err t) <|
  match s.nthReq reqOfSlice n with
  | none => .next s
  | some r =>
    match homeOf r.addr with
    | .slice sl row =>
      let blk := sl / 8
      if r.core.any s.portShut then .next { s with reqs := s.reqs.erase r, xfers := s.xfers.filter (fun x => decide (x.id ≠ r.xfer)) }
      else if s.held.contains blk then
        .next ({ s with reqs := s.reqs.erase r, xfers := s.xfers.filter (fun x => decide (x.id ≠ r.xfer)) }.bump (modPg 4 0 + 0x110) 31 0 1)
      else if !s.xbarWins blk (10 + sl % 8) (coreIn blk r.core) (s.slicePktOut blk) then .next s
      else
        let s := { s with reqs := s.reqs.erase r }.xbarGrant blk (10 + sl % 8) (coreIn blk r.core)
        let s := s.tick (xbarPg blk + 0x108) waited
        let s := if err = 1 then s.ctrlErr (slicePg sl) (tclkCycle t) else if err = 2 then s.ctrlErr (xbarPg blk) (tclkCycle t) else s
        if s.sliceOk sl r.ctx then
          let u := Tbl.get 0 s.sliceUpset (sl * 4096 + row)
          let bad := (List.range 16).find? (fun w => decide (eccClass (upWord u w) = 2))
          let st := bad.map (fun w => sliceSynd row w (syndrome8 (upWord u w)))
          let (b, s) := s.storedBrand r.addr (tclkCycle t) 0
          let (e, s) := s.sliceRead sl row (tclkCycle t)
          .next ((s.rowBrand r b).rowDone r.xfer r.idx (some e) st)
        else .next ((s.bump (slicePg sl + 0x104) 31 0 1).rowDone r.xfer r.idx none none)
    | _ => .next s

/-! ### Packets at their destination: contexts and flows (R245, R248) -/

/-- The `n`-th arrived packet, if it has one of the types and all its rows have come (R72). -/
def State.arrival (s : State) (n : Nat) (types : List Nat) : Option NetPkt :=
  match s.arrived[n]? with
  | some p => if types.contains p.pkt.type ∧ p.src.isNone then some p else none
  | none => none

/-- A packet, or a request, that reaches a unit of the compute or memory domain while a reset holds it is discarded (R346). -/
def State.rstDrop (s : State) : State := s.bump (modPg 4 0 + 0x110) 31 0 1

/-- The unit at which a packet has arrived is held in reset: a slice's block, or the controllers, buckle bank and ports of the module
(R350 to R352). -/
def State.unitHeld (s : State) (p : NetPkt) : Bool :=
  match p.at_ with | .slice n => s.held.contains (n / 8) | .core gp => s.held.contains (gp / 10) | .local_ _ => s.memHeld | _ => false

/-- Take the `n`-th arrived packet away. -/
def State.takeArrival (s : State) (n : Nat) : State := { s with arrived := s.arrived.eraseIdx n }

/-- The context the flow table assigns to a JOB (R245). -/
def State.flowCtx (s : State) (job : Nat) : Option Nat :=
  (List.range 16).find? (fun c => decide (s.rf (rtPg + 0x180 + 4 * c) 31 31 = 1) && decide (s.rf (rtPg + 0x180 + 4 * c) 15 0 = job))

/-- The context of an arriving packet, and whether it is refused for want of a flow table entry (R245). -/
def State.inCtx (s : State) (p : NetPkt) : Option Nat × Bool :=
  if p.fabric then (match s.flowCtx p.pkt.job with | some c => (some c, false) | none => (none, true)) else (p.ctx, false)

/-- Count a discard of the routing page. -/
def State.rtDrop (s : State) (off : Nat) : State := s.bump (rtPg + off) 31 0 1

/-- What the window check says (R248). -/
inductive RxVerdict where
  | accept | dup | stale
  deriving DecidableEq, Repr

/-- A fresh receive entry. -/
def RxFlow.start (f : RxFlow) (gen seq now : Nat) : RxFlow := { f with gen := gen, top := seq, seen := [seq], last := now }

/-- The window check of an existing entry, row by row of the table of R248. -/
def RxFlow.judge (f : RxFlow) (gen seq now : Nat) : RxVerdict × RxFlow :=
  let g := (gen + 2 ^ 16 - f.gen) % 2 ^ 16
  let d := (seq + 2 ^ 16 - f.top) % 2 ^ 16
  if f.last + oneMs ≤ now then (.accept, f.start gen seq now)
  else if 1 ≤ g ∧ g ≤ 32767 then (.accept, f.start gen seq now)
  else if 32768 ≤ g then (.stale, f)
  else if d = 0 then (.dup, f)
  else if d ≤ 32767 then
    (.accept, { f with top := seq, seen := seq :: f.seen.filter (fun v => decide ((seq + 2 ^ 16 - v) % 2 ^ 16 < 1024)), last := now })
  else if 2 ^ 16 - d < 1024 then
    if f.seen.contains seq then (.dup, f) else (.accept, { f with seen := seq :: f.seen, last := now })
  else (.stale, f)

/-- The same flow (R248). -/
def RxFlow.isKey (f : RxFlow) (region smod score dcore : Nat) : Bool :=
  decide (f.region = region) && decide (f.smod = smod) && decide (f.score = score) && decide (f.dcore = dcore)

/-- The check by a region controller of a packet that arrives at a time in 1/16 ns (R248): accepted or discarded and counted. -/
def State.flowCheck (s : State) (region : Nat) (k : Packet) (dcore now : Nat) : Bool × State :=
  match s.flows.find? (fun f => f.isKey region k.smod k.score dcore) with
  | some f =>
    let (v, f') := f.judge k.gen k.seq now
    let s := { s with flows := s.flows.map (fun x => if x.isKey region k.smod k.score dcore then f' else x) }
    match v with
    | .accept => (true, s)
    | .dup => (false, s.rtDrop 0x120)
    | .stale => (false, s.rtDrop 0x124)
  | none =>
    let f : RxFlow := { region := region, smod := k.smod, score := k.score, dcore := dcore, gen := k.gen, top := k.seq,
                        seen := [k.seq], last := now }
    let mine := s.flows.filter (fun x => decide (x.region = region))
    if mine.length < 4096 then (true, { s with flows := s.flows ++ [f] })
    else
      match mine.find? (fun x => decide (x.last + oneMs ≤ now)) with
      | some old => (true, { s with flows := s.flows.erase old ++ [f] })
      | none => (false, s.rtDrop 0x134)

/-- The region whose controller checks a packet for a local address (R248). -/
def addrRegion (a : Nat) : Nat :=
  match homeOf a with
  | .dram region _ => region
  | .slice n _ => n / 64
  | .companion .qb _ => 7
  | _ => 0

/-- The rows of a packet: void rows carry no data (R74, R238). -/
def pktRows (p : Packet) : List Entry :=
  if p.void then List.replicate p.rows none
  else (List.range p.rows).map (fun i => if p.voidmask.getLsbD i then none else some (p.payload.getD i 0))

/-! ### Remote reads (R186, R239, R249) -/

/-- READ_REQ: a remote LOAD's request is checked for its context and its rows are requested; a refused READ_REQ returns
void rows (R245), and one for a unit held in reset nothing (R346). -/
def execReadReq (n : Nat) (s : State) : Host.Outcome State Fault Refusal :=
  match s.arrival n [3] with
  | none => .next s
  | some p =>
    let s := s.takeArrival n
    let k := p.pkt
    if s.unitHeld p then .next s.rstDrop else
    let (ctx, noFlow) := s.inCtx p
    if noFlow then .next (s.rtDrop 0x128)
    else
      let hdr : Packet := { type := 4, vc := 4, epoch := s.epoch, dmod := k.smod, smod := s.myId, dcore := k.score, dring := k.dring,
                            job := k.job, addr := k.addr, tag := k.tag, pidx := k.pidx, taggen := k.taggen, stride := k.stride,
                            loadRows := k.loadRows }
      let x : Xfer := { id := s.nextXfer, hdr := hdr, node := homeNode k.addr, ctx := ctx, core := none, rows := k.rows, addr := k.addr }
      let s := { s with nextXfer := s.nextXfer + 1, xfers := s.xfers ++ [x] }
      .next ((List.range k.rows).foldl (fun (s : State) i =>
        s.requestRow { xfer := x.id, idx := i, addr := (k.addr + 128 * i * k.stride) % 2 ^ 43, ctx := ctx, fabric := p.fabric,
                       core := none }) s)

/-! ### The return window (R376) -/

/-- The return window of a context takes a row: below ROWS, from its own context, once in this stroke. -/
def State.returns (s : State) (ctx : Option Nat) (c row : Nat) : Bool :=
  let e := s.ctxEng c
  decide (ctx = some c) && decide (row < e.rows) && (Tbl.find? (if s.stroke % 2 = 0 then e.bank0 else e.bank1) row).isNone && s.ctxActive c

/-- A row reaches the return window of a context in this stroke: it enters bank (stroke mod 2), or is counted and discarded. -/
def State.returnRow (s : State) (ctx : Option Nat) (c row : Nat) (r : Row) : State :=
  let e := s.ctxEng c
  if !s.returns ctx c row then s.bump (ctxPg c + 0x124) 31 0 1
  else
    let b := Tbl.put (if s.stroke % 2 = 0 then e.bank0 else e.bank1) row r
    s.setCtxEng c (if s.stroke % 2 = 0 then { e with bank0 := b } else { e with bank1 := b })

/-! ### Memory writes (R74, R183, R186, R286) -/

/-- One row of a MEM_WRITE: each row is checked, a void row writes nothing (R74, R186); the answer says whether it was
written. -/
def State.writeMemRow (s : State) (p : NetPkt) (ctx : Option Nat) (addr : Nat) (e : Entry) : State × Bool :=
  match homeOf addr with
  | .dram region off =>
    let s := s.tick (mcPg (mcOf region off) + 0x104) 1
    if s.pageOk region off ctx p.fabric then
      (match e with
      | some row => (s.dramWrite region off row, true)
      | none => (s, false))
    else (match p.reqCore with
      | some gp => s.bump (corePg gp + 0x700) 31 0 1
      | none => s, false)
  | .slice n r =>
    if s.sliceOk n ctx then
      (match e with
      | some row => (s.sliceWrite n r row, true)
      | none => (s, false))
    else (s.bump (slicePg n + 0x104) 31 0 1, false)
  | .companion q a =>
    (match e with
    | some row => if s.companionOk q ctx then (s.companionWrite q a row .stMem, true) else (s, false)
    | none => (s, false))
  | .window c r =>
    (match e with
    | some row => (s.returnRow ctx c r row, s.returns ctx c r)
    | none => (s, false))
  | .reserved => (s, false)

/-- Whether a row of a MEM_WRITE, void or not, is admitted where it goes (R183, R186, R151, R364, R376). -/
def State.rowAdmitted (s : State) (p : NetPkt) (ctx : Option Nat) (addr : Nat) : Bool :=
  match homeOf addr with
  | .dram region off => s.pageOk region off ctx p.fabric
  | .slice n _ => s.sliceOk n ctx
  | .companion q _ => s.companionOk q ctx
  | .window c r => s.returns ctx c r
  | .reserved => false

/-- Store the header brand of a 16-row unit that was written and covers exactly one granule (R286). -/
def State.brandUnit (s : State) (addr : Nat) (done : List Bool) (b : Word) : State :=
  if done.length = 16 ∧ done.all id then
    match homeOf addr with
    | .dram region off =>
      if off % 2048 = 0 then s.setHideBrand ((region * 2 ^ 34 + off) / 2048) (some b) else s
    | .slice n row =>
      if row % 16 = 0 then { s with sliceBrand := Tbl.set none s.sliceBrand ((n * 4096 + row) / 16) (some b) } else s
    | _ => s
  else s

/-- Every row of a MEM_WRITE has been served: the brands of its units, and its BKL count (R74, R104, R286). -/
def State.writeEnds (s : State) (w : MemWr) : State :=
  let k := w.pkt.pkt
  let at_ : Nat → Bool × Bool := fun i => ((w.done.find? (fun d => decide (d.1 = i))).map (·.2)).getD (false, false)
  let done := (List.range k.rows).map (fun i => (at_ i).1)
  let s := { s with memWrs := s.memWrs.filter (fun x => decide (x.id ≠ w.id)) }
  let s := s.brandUnit k.addr (done.take 16) k.brand0
  let s := s.brandUnit (k.addr + 2048) (done.drop 16) k.brand1
  if k.bkl ∧ (done.any id ∨ ((pktRows k).all Option.isNone ∧ (List.range k.rows).any (fun i => (at_ i).2))) then
    s.bklAdd w.ctx k.buckle 1
  else s

/-- A row of a MEM_WRITE has been served. -/
def State.writeServed (s : State) (id idx : Nat) (wrote admitted : Bool) : State :=
  match s.memWrs.find? (fun w => decide (w.id = id)) with
  | none => s
  | some w =>
    let w := { w with done := w.done ++ [(idx, wrote, admitted)] }
    if w.done.length = w.pkt.pkt.rows then s.writeEnds w
    else { s with memWrs := s.memWrs.map (fun x => if x.id = id then w else x) }

/-- Row `i` of a MEM_WRITE: a row of DRAM joins class 1 of its channel (R188); any other is written where it belongs. -/
def State.issueWrite (s : State) (p : NetPkt) (ctx : Option Nat) (id i : Nat) (e : Entry) : State :=
  let a := (p.pkt.addr + 128 * i) % 2 ^ 43
  match homeOf a with
  | .dram region off =>
    let r : RowReq := { xfer := id, idx := i, addr := a, ctx := ctx, fabric := p.fabric, core := p.reqCore, write := some e }
    { s with reqs := s.reqs ++ [r] }.peakQueue (mcOf region off)
  | _ =>
    let ok := s.rowAdmitted p ctx a
    let (s, b) := s.writeMemRow p ctx a e
    s.writeServed id i b ok

/-- MEM_WRITE: flow check and context; then each row of the packet is checked and written, a row of DRAM when its channel serves it (R186,
R188, R245, R248, R286, R376). A packet for a block or controller that a reset holds counts in RST_DROP (R346). -/
def execMemWrite (n waited t : Nat) (s : State) : Host.Outcome State Fault Refusal :=
  match s.arrival n [2] with
  | none => .next s
  | some p =>
    let s := s.takeArrival n
    let k := p.pkt
    if s.unitHeld p then .next s.rstDrop else
    let (ok, s) := s.flowCheck (addrRegion k.addr) k 0xFFF (s.gen.base + 16 * t)
    if !ok then .next s
    else
      let (ctx, noFlow) := s.inCtx p
      if noFlow then .next (s.rtDrop 0x128)
      else
        let s := match homeOf k.addr with | .slice sl _ => s.tick (xbarPg (sl / 8) + 0x108) waited | _ => s
        let id := s.nextXfer
        let s := { s with nextXfer := id + 1, memWrs := s.memWrs ++ [{ id := id, pkt := p, ctx := ctx }] }
        .next ((withIndex 0 (pktRows k)).foldl (fun (s : State) e => s.issueWrite p ctx id e.2 e.1) s)

/-! ### Write-back, refresh, scrubs, HOT (R187, R188, R191, R193, R195) -/

/-- Turn over the data bits of a burst that its error left wrong. -/
def State.flipBurst (s : State) (key mask : Nat) : State :=
  let a := key * 64
  let c := chanAddr (a % 2 ^ 34)
  if brandWordAt 0 ≤ c ∧ c < brandEnd then s.flipBrands (a / 2 ^ 34) (a / 2 ^ 11 % 2) c mask
  else s.setMemBytes a ((List.range 64).map (fun i => s.memByte (a + i) ^^^ BitVec.ofNat 8 (mask / 2 ^ (8 * i) % 256)))

/-- The first of a channel's corrected bursts in address order (R188, R193). -/
def State.nextBurst (s : State) (mc : Nat) : Option Nat :=
  match Tbl.get [] s.ceBursts mc with
  | [] => none
  | k :: rest => some (rest.foldl min k)

/-- ECC_WRITEBACK: in a slot that no higher class claims, the first corrected burst in address order is written back; it leaves the
brand alone (R188, R193, R286). -/
def execEccWriteback (mc : Nat) (s : State) : Host.Outcome State Fault Refusal := inRange (.eccWriteback mc) <|
  match s.nextBurst mc with
  | none => .next s
  | some key =>
    if !s.mcIdle mc then .next s else
    let m := (Tbl.get 0 s.dramUpset key).toNat
    let s := { s with ceBursts := Tbl.set [] s.ceBursts mc ((Tbl.get [] s.ceBursts mc).filter (· ≠ key)) }
    match dramClass m with
    | 1 => .next { s with dramUpset := Tbl.set 0 s.dramUpset key 0 }
    | 3 => .next { (s.flipBurst key (m % 2 ^ 512)) with dramUpset := Tbl.set 0 s.dramUpset key 0 }
    | _ => .next s

/-- REFRESH: per-bank refresh or RFM at the rate code MR4 reports closes the page of its bank (R179, R188); it changes no data. In
self-refresh the devices refresh themselves. -/
def execRefresh (mc rate bank : Nat) (s : State) : Host.Outcome State Fault Refusal := inRange (.refresh mc rate bank) <|
  if s.pwrState = 3 then .next s else .next { s.peak (mcPg mc + 0x100) (rate % 8) with openPages := Tbl.erase s.openPages (mc * 32 + bank) }

/-- The channel-local row address after a row that the patrol has read: the visible rows in order, then those of the brand region, and
round again (R180, R195). -/
def patrolNext (c : Nat) : Nat :=
  let n := c + 128
  if n = visibleEnd then brandWordAt 0 else if n = brandEnd then 0 else n

/-- PATROL_SCRUB: in a slot that no higher class claims and no write-back waits for, the patrol reads the row at a channel-local
address, if that is its next one, through the correction stage (R188, R193 to R195); an uncorrectable burst counts in PATROL_UE.
It reads while MC_PATROL is not 0 and no reset holds its controller (R350 to R352); `err` is what the read meets (R192). -/
def execPatrolScrub (mc addr err t : Nat) (s : State) : Host.Outcome State Fault Refusal := inRange (.patrolScrub mc addr err t) <|
  if s.memHeld ∨ s.rd (mcPg mc + 0x110) = 0 ∨ !s.mcIdle mc ∨ (s.nextBurst mc).isSome ∨ addr ≠ Tbl.get 0 s.patrolAt mc then .next s
  else
    let off := offOf (mc % 2) addr
    let s := { s with patrolAt := Tbl.set 0 s.patrolAt mc (patrolNext addr) }
    let (_, _, s) := s.burst (mc / 2) off (tclkCycle t) true
    let (_, _, s) := s.burst (mc / 2) (off + 64) (tclkCycle t) true
    let (_, _, s) := s.linkFault (mc / 2) off err (tclkCycle t) true 0 none
    .next s

/-- Set an owner entry (R184). -/
def State.setOwner (s : State) (region page v : Nat) : State := s.wrByte (ownerAddr region page) v

/-- STATE of a page. -/
def State.pageState (s : State) (region page : Nat) : Nat := s.rdByte (ownerAddr region page) / 64

/-- Set SCRUB_PEND on a page and count it in DRAM_PEND (R187). -/
def State.pendPage (s : State) (region page : Nat) : State :=
  (s.setOwner region page 0x80).bump (rcPg region 0 + 0x110) 12 0 1

/-- The brand of an all-zero hide (R187). -/
def zeroHideBrand : Word := brandOf (List.replicate 16 0)

/-- Zero a page: data, upsets, and the brand of every hide (R187, R286). -/
def State.clearPage (s : State) (region page : Nat) : State :=
  let lo := region * 2 ^ 34 + page * 2 ^ 21
  let inPage : Nat → Nat → Bool := fun unit k => decide (lo ≤ k * unit) && decide (k * unit < lo + 2 ^ 21)
  let inBrand : Nat → Bool := fun k => (List.range 2).any (fun ch =>
    let h := page * 512
    (decide (burstKey region ch (brandWordAt h) ≤ k) && decide (k < burstKey region ch (brandWordAt h) + 32))
      || decide (k = burstKey region ch (brandValidAt h)))
  { s with mem := s.mem.filter (fun p => !inPage 1 p.1),
           dramUpset := s.dramUpset.filter (fun p => !inPage 64 p.1 && !inBrand p.1),
           dramBrand := (List.range 1024).foldl (fun b i => Tbl.set s.brandBase b (lo / 2048 + i) (some zeroHideBrand)) s.dramBrand }

/-- A page that has become FREE is RETIRED when a row of it has failed in service (R195). -/
def State.freePage (s : State) (region page : Nat) : State :=
  if s.retirePend.contains (region, page) then
    { s.setOwner region page 0xC0 with retirePend := s.retirePend.erase (region, page) }
  else s.setOwner region page 0

/-- The region's channels have slots for the clearing scrub: no higher class and no write-back waits at either (R187, R188). -/
def State.clearIdle (s : State) (region : Nat) : Bool :=
  [2 * region, 2 * region + 1].all (fun mc => s.mcIdle mc && (s.nextBurst mc).isNone)

/-- CLEARING_SCRUB: the scrubber completes the clearing of a pending page, the lowest of its region, in slots that no higher class claims,
unless clearing is stopped (R187, R188). -/
def execClearingScrub (region page : Nat) (s : State) : Host.Outcome State Fault Refusal := inRange (.clearingScrub region page) <|
  if s.pageState region page ≠ 2 ∨ (List.range page).any (fun p => decide (s.pageState region p = 2)) ∨ s.rd (rcPg region 0 + 0x114) = 0
      ∨ !s.clearIdle region then .next s
  else
    let s := (s.clearPage region page).freePage region page
    let a := rcPg region 0 + 0x110
    .next (s.wf a 12 0 (s.rf a 12 0 - 1))

/-- HOT: a rank of a channel reports its refresh multiplier (R191). While one reports more than 2×, MC_STAT.HOT shows it from s16 on, and
the condition counts in the HOT source (class UNIT_ERR) when it begins. -/
def execHot (mc rank rate : Nat) (above : Bool) (t : Nat) (s : State) : Host.Outcome State Fault Refusal := inRange (.hot mc rank rate above t) <|
  let was := s.hotDevs.any (fun d => decide (d.1 = mc))
  let rest := s.hotDevs.filter (· ≠ (mc, rank))
  let s := { s.peak (mcPg mc + 0x100) (rate % 8) with hotDevs := if above then rest ++ [(mc, rank)] else rest }
  .next (if above ∧ !was then s.regionErr (mcPg mc) 4 0 0x7F (tclkCycle t) 4 else s)

/-- One owner entry of a written word (R185): ignored for a SCRUB_PEND page, for a write of SCRUB_PEND, and for a RETIRED
page outside bring-up. -/
def State.ownerWrite (s : State) (region page v : Nat) : State :=
  let st := s.pageState region page
  if 7680 ≤ page ∨ st = 2 ∨ v / 64 % 4 = 2 ∨ (st = 3 ∧ !s.aon.booting) then s
  else
    let v := v % 256 / 32 * 32 + v % 16
    if v / 64 = 0 then s.freePage region page |>.wrByte (ownerAddr region page)
        (if s.retirePend.contains (region, page) then 0xC0 else v)
    else s.setOwner region page v

/-- A write of a register of the owner table: four entries (R184, R185). -/
def State.ownerWord (s : State) (region word : Nat) (val : Word) : State :=
  (List.range 4).foldl (fun (s : State) i => s.ownerWrite region (4 * word + i) (fld val (8 * i + 7) (8 * i))) s

end Sys2Proof.Machine
end

