-- ==== Sys2Proof/Machine/Landing.lean ====
section
/-! DEFINITION. Packets landing in a core and in the buckle bank (R104, R109, R147, R198, R248, R249, R268 to R274,
R287, R288). -/

namespace Sys2Proof.Machine

/-! ### Windows of armed rings (R104) -/

/-- What becomes of a packet for an armed ring now: 0 it lands, 1 it waits, 2 it is discarded (R104, R109). A packet of which only some
rows have landed in the current window waits for the next one, like one of which all have (DESIGN CHOICE, log entry 69: R104 speaks of
rows that are already there). -/
def State.armVerdict (s : State) (gp n doff rows : Nat) (tree : Bool) (win : Option Nat) : Nat :=
  let c := s.core gp
  let g := s.ringCfg gp n
  match c.arm n with
  | none => 2
  | some a =>
    if !g.on ∨ c.zeroing ∨ (tree ∧ !a.tree) ∨ a.win < doff + rows ∨ (match win with | some w => decide (w ≠ a.win) | none => false) = true then 2
    else if !a.reserved ∨ a.got.any (fun i => decide (doff ≤ i) && decide (i < doff + rows)) then 1
    else if 256 ≤ g.sub (g.adv a.start (doff + rows - 1)) (c.ring n).tail then 1
    else 0

/-! ### A landing (R71, R137, R141, R147) -/

/-- Start a landing: one row an XCLK cycle, as the crossbar grants them, into ring rows from pointer `ptr` (R201, R408; log entry 20). -/
def State.startLanding (s : State) (gp cyc n ptr gen code : Nat) (rows : List Entry) (k : Packet) (bkl : Option Nat) : State :=
  let g := s.ringCfg gp n
  let x := s.xdiv
  let last := cyc + x * (rows.length - 1)
  let s := s.modCore gp (fun c =>
    let id := c.nextId
    let f : Flight := { id := id, unit := code, idx := 0, ent := 0, fired := cyc, busy := last + 1, retire := last,
                        finished := true, landing := true, ringNo := n, rowVals := rows, inPkt := some k, bklDue := bkl }
    let acc : List Access := (List.range rows.length).map (fun i =>
      let p := g.adv ptr i
      { cyc := cyc + x * i, fl := id, rank := 3, code := code, field := 0, op := .wr 0 i (.ring n p gen (g.la p)) })
    { c with nextId := id + 1, flights := c.flights ++ [f], acc := c.acc ++ acc })
  if s.gen.seamDone then s.reach gp (last + 1) else s

/-- Check one unit of a landing packet (R287 to R289). -/
def State.landUnit (s : State) (gp cyc n ptr point unit : Nat) (k : Packet) (rows : List Entry) (b : Word) : State :=
  let data := rows.filterMap id
  if data.isEmpty ∨ brandOf data = b then s
  else
    let g := s.ringCfg gp n
    let ue := k.err.any (fun e => decide (unit * 16 ≤ e.1) && decide (e.1 < unit * 16 + 16))
    let addr := match homeOf k.addr with
      | .dram _ _ => if point = 0 then (k.addr + 2048 * k.stride * unit) % 2 ^ 40 / 2 ^ 11 else 0
      | _ => 0
    s.brandFail gp (s.coreAt cyc) ue (brandSynd point unit n (g.la (g.adv ptr (16 * unit))) k.smod addr)

/-- A row of a packet came from a slice, which reports its own errors through region thresholds only (R150). -/
def sliceRow (k : Packet) (i : Nat) : Bool :=
  match homeOf ((k.addr + 128 * i * k.stride) % 2 ^ 43) with | .slice _ _ => true | _ => false

/-- Check a landing packet: error status of its memory rows (R194), then the brand of each unit. -/
def State.landChecks (s : State) (gp cyc n ptr point : Nat) (k : Packet) : State :=
  let rows := pktRows k
  let s := k.err.foldl (fun (s : State) e => if sliceRow k e.1 then s else s.coreErr gp 2 0x04 (s.coreAt cyc) e.2) s
  let s := s.landUnit gp cyc n ptr point 0 k (rows.take 16) k.brand0
  s.landUnit gp cyc n ptr point 1 k (rows.drop 16) k.brand1

/-- Land a packet in an armed ring's window (R104). -/
def State.landArmed (s : State) (gp cyc : Nat) (k : Packet) (point : Nat) : State :=
  let n := k.dring
  let c := s.core gp
  match c.arm n with
  | none => s
  | some a =>
    let g := s.ringCfg gp n
    let rows := pktRows k
    let ptr := g.adv a.start k.doff
    let gen := (c.ring n).gen
    let s := s.setCore gp (c.setArm n (some { a with got := a.got ++ (List.range rows.length).map (k.doff + ·) }))
    let s := s.landChecks gp cyc n ptr point k
    s.startLanding gp cyc n ptr gen 5 rows k a.buckle

/-- A packet discarded at its ring (R104). -/
def State.recvDrop (s : State) (gp : Nat) : State := s.bump (corePg gp + 0x260) 31 0 1

/-- Rows in the landing buffer: those of packets that wait for their window (R104), and landing rows that wait for their bank
(R141). -/
def Core.landRows (c : Core) : Nat :=
  c.landBuf.foldl (fun n p => n + p.rows) 0 + (c.acc.filter (fun a => decide (a.rank = 3) && a.waited)).length

/-- A TREE packet of a tree marked faulted in its epoch, which is discarded wherever it has come (R259). -/
def State.treeDead (s : State) (k : Packet) : Bool := decide (k.type = 5) && s.treeFaults.contains (k.tree, k.epoch)

/-- Count a TREE packet discarded under R259. -/
def State.treeDrop (s : State) : State := s.bump (rtPg + 0x13C) 31 16 1

/-- A packet is a multicast response: it lands in an armed ring (R198). -/
def isMcast (k : Packet) : Bool := decide (k.type = 4) && k.mset.isSome

/-- The verdict on a packet that lands by arming. -/
def State.pktVerdict (s : State) (gp : Nat) (k : Packet) : Nat :=
  s.armVerdict gp k.dring k.doff k.rows (decide (k.type = 5) || isMcast k) (if isMcast k then some k.loadRows else none)

/-- Where the packet's brand was made (R287): 0 memory and slice responses, 1 the rest. -/
def pktPoint (k : Packet) : Nat := if k.type = 4 then 0 else 1

/-- Rows discarded at a crossbar port that is not granted (R203). The counter moves with s16. -/
def State.fenceDrop (s : State) (gp rows : Nat) : State := s.tick (xbarPg (gp / 10) + 0x110 + 3) rows

/-- A packet that waits at the port of a core is discarded once the port is not granted any more (R203). A core that is being zeroised
discards what has reached it as one for an unarmed ring (R157). -/
def State.portDrops (s : State) (gp : Nat) : Bool := s.portShut gp && !(s.core gp).zeroing

/-- A packet for an armed ring arrives: it lands, waits in the landing buffer, or is discarded. `false` says that the full
buffer does not accept it. -/
def State.recvPkt (s : State) (gp cyc : Nat) (k : Packet) : Bool × State :=
  let s := s.armAdvance gp k.dring
  match s.pktVerdict gp k with
  | 0 => if 64 ≤ (s.core gp).landRows then (false, s) else (true, s.landArmed gp cyc k (pktPoint k))
  | 1 => if 64 < (s.core gp).landRows + k.rows then (false, s)
         else (true, s.modCore gp (fun c => { c with landBuf := c.landBuf ++ [k] }))
  | _ => (true, s.recvDrop gp)

/-- The core an arrived packet is at. -/
def NetPkt.coreOf (p : NetPkt) : Option Nat := match p.at_ with | .core gp => some gp | _ => none

/-- Whether a packet's context may land in a core (R245). -/
def State.landCtxOk (s : State) (gp : Nat) (ctx : Option Nat) : Bool := ctx.isSome && decide (ctx = s.coreCtx gp)

/-- RING_WRITE: an arrived RING_WRITE packet or tree delivery is checked (R248, R245, R104) and lands. A full landing
buffer leaves it at the crossbar port, where it is discarded if its core is fenced meanwhile (R203). -/
def execRingWrite (n cyc : Nat) (s : State) : Host.Outcome State Fault Refusal :=
  match s.arrival n [1, 5] with
  | none => .next s
  | some p =>
    match p.coreOf with
    | none => .next s
    | some gp =>
      let k := p.pkt
      let s := s.reach gp cyc
      if s.portDrops gp then .next ((s.takeArrival n).fenceDrop gp k.rows)
      else if 64 ≤ (s.core gp).landRows then .next s
      else
        let s1 := s.takeArrival n
        let (ok, s1) := if k.type = 1 then s1.flowCheck (gp / 80) k k.dcore (s.cycleAt cyc) else (true, s1)
        if !ok then .next s1
        else if s1.treeDead k then .next s1.treeDrop
        else
          let (ctx, noFlow) := s1.inCtx p
          if noFlow then .next (s1.rtDrop 0x128)
          else if !s1.landCtxOk gp ctx then .next (s1.recvDrop gp)
          else
            let (took, s2) := s1.recvPkt gp cyc k
            .next (if took then s2 else s)

/-- LANDING_BUFFER_DRAIN: the oldest packet of the landing buffer that can land now does (R104); one whose ring has lost its arming, or
whose tree has faulted (R259), is discarded. -/
def State.drainBuf (s : State) (gp cyc : Nat) : List Packet → State
  | [] => s
  | k :: r =>
    let s := s.armAdvance gp k.dring
    let take : State → State := fun s => s.modCore gp (fun c => { c with landBuf := c.landBuf.erase k })
    if s.treeDead k then (take s).treeDrop
    else
      match s.pktVerdict gp k with
      | 1 => s.drainBuf gp cyc r
      | 0 => (take s).landArmed gp cyc k (pktPoint k)
      | _ => (take s).recvDrop gp

/-- LANDING_BUFFER_DRAIN (R104). -/
def execLandingBufferDrain (gp cyc : Nat) (s : State) : Host.Outcome State Fault Refusal := inRange (.landingBufferDrain gp cyc) <|
  let s := s.reach gp cyc
  .next (s.drainBuf gp cyc (s.core gp).landBuf)

/-! ### Read responses (R149, R198, R239, R249) -/

/-- Rows of a response whose ring has begun a new generation (R149). -/
def State.ringStale (s : State) (gp rows : Nat) : State := s.bump (corePg gp + 0x27C) 31 0 rows

/-- A response to a LOAD of this module's memory lands at the rows reserved for it; a core that is being zeroised discards it as one for
an unarmed ring (R157). -/
def State.landReserved (s : State) (gp cyc n ptr gen : Nat) (k : Packet) : State :=
  if (s.core gp).zeroing then s.recvDrop gp
  else if ((s.core gp).ring n).gen ≠ gen then s.ringStale gp k.rows
  else
    let g := s.ringCfg gp n
    let ptr := g.adv ptr 0
    (s.landChecks gp cyc n ptr 0 k).startLanding gp cyc n ptr gen 0 (pktRows k) k none

/-- Packets of a remote LOAD. -/
def RemSlot.pkts (x : RemSlot) : Nat := (x.rows + 31) / 32

/-- A response to a remote LOAD finds its slot by TAG, TAGGEN and PIDX; otherwise it is a duplicate (R249). Its void rows
that are no slice's are rows the home refused, which count in FEED_DENY (R151, R183, R186). -/
def State.landRemote (s : State) (gp cyc : Nat) (k : Packet) : State :=
  let x : RemSlot := Tbl.get {} (s.core gp).slots k.tag
  if (s.core gp).zeroing then s.recvDrop gp
  else if x.gen ≠ k.taggen ∨ x.got.contains k.pidx ∨ !(x.busy || x.stale) then s.rtDrop 0x120
  else
    let got := x.got ++ [k.pidx]
    let free := x.pkts ≤ got.length
    let y : RemSlot := if free then { gen := x.gen } else { x with got := got }
    let s := s.modCore gp (fun c => { c with slots := Tbl.set {} c.slots k.tag y })
    if x.stale then (s.ringStale gp k.rows).rtDrop 0x120
    else
      let rows := pktRows k
      let s := s.bump (corePg gp + 0x700) 31 0
        ((List.range rows.length).filter (fun i => (rows.getD i none).isNone && !sliceRow k i)).length
      s.landReserved gp cyc x.dst (x.ptr + 32 * k.pidx) x.ringGen k

/-- READ_RSP: a response lands where it belongs: reserved rows, a remote-load slot, or the armed ring of a multicast
receiver (R198, R249). -/
def execReadRsp (n cyc : Nat) (s : State) : Host.Outcome State Fault Refusal :=
  match s.arrival n [4] with
  | none => .next s
  | some p =>
    match p.coreOf with
    | none => .next s
    | some gp =>
      let k := p.pkt
      let s := s.reach gp cyc
      if s.portDrops gp then .next ((s.takeArrival n).fenceDrop gp k.rows)
      else if 64 ≤ (s.core gp).landRows then .next s
      else
        let s1 := s.takeArrival n
        if isMcast k then
          let (took, s2) := s1.recvPkt gp cyc k
          .next (if took then s2 else s)
        else
          match k.land with
          | some (ptr, gen) => .next (s1.landReserved gp cyc k.dring ptr gen k)
          | none =>
            let (ctx, noFlow) := s1.inCtx p
            if noFlow then .next (s1.rtDrop 0x128)
            else if p.fabric ∧ !s1.landCtxOk gp ctx then .next s1
            else .next (s1.landRemote gp cyc k)

/-! ### The buckle bank (R248, R269 to R274) -/

/-- BUCKLE_ADD: an arrived addition is checked and applied (R248, R245, R270, R271); while a reset holds the bank it is discarded (R346).
With NCLK below 0.8 of ACLK the buckle banks are undefined (R409). -/
def execBuckleAdd (n t : Nat) (s : State) : Host.Outcome State Fault Refusal :=
  match s.arrival n [7] with
  | none => .next s
  | some p =>
    if !s.ratioOk then .fault .clockRatio else
    let k := p.pkt
    let s := s.takeArrival n
    if s.unitHeld p then .next s.rstDrop else
    let (ok, s) := s.flowCheck (k.buckle / 1024) k 0xFFE (s.gen.base + 16 * t)
    if !ok then .next s
    else
      let (ctx, noFlow) := s.inCtx p
      if noFlow then .next (s.rtDrop 0x128) else .next (s.bklAdd ctx k.buckle k.value)

/-- A register write of COUNT or TARGET, after which satisfaction is tested (R269, R272). -/
def State.bklWrite (s : State) (idx : Nat) (target : Bool) (val : Word) : State :=
  (s.wr (bklAddr idx + if target then 4 else 0) val).bklTest idx

/-- BUCKLE_TIMEOUT: an armed, unreleased buckle whose AGE has reached its TIMEOUT faults (R274). With NCLK
below 0.8 of ACLK the buckle banks are undefined (R409). -/
def execBuckleTimeout (idx : Nat) (s : State) : Host.Outcome State Fault Refusal := inRange (.buckleTimeout idx) <|
  if !s.ratioOk then .fault .clockRatio else
  let t := s.rf (bklAddr idx + 8) 29 14
  if s.bklOpen idx ∧ t ≠ 0 ∧ t ≤ s.rf (bklAddr idx + 12) 15 0 then .next (s.bklExpire idx (seamCycle 24)) else .next s

end Sys2Proof.Machine
end

