-- ==== Sys2Proof/Machine/Network.lean ====
section
/-! DEFINITION. The package network (R199 to R213): where a packet goes, one hop of its header, broadcast at a crossbar,
faulty elements and degraded tables, and the choice of an egress port at a router (R240 to R245). -/

namespace Sys2Proof.Machine

/-! ### Counters that the region's seam publishes (R203, R213, R439)

A running count is kept in `live` under the register's address: +0 the whole register, +1 its lower half, +2 its upper
half, all replaced at s16; +3 a cumulative register that grows at s16. -/

/-- Add to a cumulative register at the next s16. -/
def State.tickSum (s : State) (a n : Nat) : State := if n = 0 then s else s.tick (a + 3) n

/-! ### Where a packet goes -/

/-- The end of a packet's way inside the package. -/
inductive Goal where
  | block (b : Nat)
  | slice (n : Nat)
  | local_ (region : Nat)
  | egress (p : Nat)
  | away
  deriving DecidableEq, Repr

/-- Region that carries lanes 0 to 3 of a fabric port (R18). -/
def portRegion (p : Nat) : Nat := [8, 24, 15, 31, 1, 3, 57, 59, 40, 5, 47, 61].getD p 0

/-- Address of a tree entry: bank, tree (tree table pages). -/
def treeAddr (bank t : Nat) : Nat := modAddr 2 (64 + 64 * bank + t / 120) (0x100 + 32 * (t % 120))

/-- Region of the tree engine of a module for a tree (R256). -/
def State.treeRegion (s : State) (bank t : Nat) : Nat :=
  let a := treeAddr bank t
  if s.rf a 30 30 = 1 then s.rf (a + 4) 15 10 else portRegion (s.rf a 29 26)

/-- The goal of a packet in this module (R181, R238, R240, R252). -/
def State.goal (s : State) (p : NetPkt) : Goal :=
  let k := p.pkt
  if k.type = 5 then (if k.down then .block (k.dcore / 8) else .local_ (s.treeRegion k.epoch k.tree))
  else if k.dmod ≠ s.myId then (match p.egress with | some e => .egress e | none => .away)
  else if k.type = 7 then .local_ (k.buckle / 1024)
  else if k.type = 2 ∨ k.type = 3 then
    match homeOf k.addr with
    | .dram region _ => .local_ region
    | .slice n _ => .slice n
    | .companion .qb _ => .local_ 7
    | .companion .qa _ => .local_ 0
    | .window c _ => .local_ (match s.ctxPort c with | .qa => 0 | .qb => 7)
    | .reserved => .local_ 0
  else .block (k.dcore / 8)

/-- Block of a goal, if it lies in a block. -/
def Goal.blk (g : Goal) : Option Nat := match g with | .block b => some b | .slice n => some (n / 8) | _ => none

/-- Region of a goal; a packet that still has to choose its egress stays in its region `here`. -/
def Goal.region (g : Goal) (here : Nat) : Nat :=
  match g with
  | .block b => b / 8
  | .slice n => n / 64
  | .local_ r => r
  | .egress p => portRegion p
  | .away => here

/-! ### Ports of routers and die-mesh units (R204, R205, R209) -/

/-- Manhattan distance of two blocks in the 2 × 4 mesh (R20). -/
def blkDist (a b : Nat) : Nat := (a % 4 - b % 4) + (b % 4 - a % 4) + (a / 4 - b / 4) + (b / 4 - a / 4)

/-- The nearer of blocks 1 and 6, or both (R20). -/
def attachOf (b : Nat) : List Nat := if blkDist b 1 < blkDist b 6 then [1] else if blkDist b 6 < blkDist b 1 then [6] else [1, 6]

/-- Dimension-order and minimal ports of a grid with `w` columns: E or W for columns, then N or S for rows. -/
def gridPorts (w a b : Nat) : List Nat :=
  (if a % w < b % w then [1] else if b % w < a % w then [3] else []) ++ (if a / w < b / w then [2] else if b / w < a / w then [0] else [])

/-- Minimal output ports of a block router, in dimension order: a block of the region, or the die mesh (port 5). -/
def routerOut (b : Nat) (g : Goal) : List Nat :=
  match g.blk with
  | some t =>
    if t = b then [4]
    else if t / 8 = b / 8 then gridPorts 4 (b % 8) (t % 8)
    else if (attachOf (b % 8)).contains (b % 8) then [5] else (attachOf (b % 8)).flatMap (fun t => gridPorts 4 (b % 8) t)
  | none => if (attachOf (b % 8)).contains (b % 8) then [5] else (attachOf (b % 8)).flatMap (fun t => gridPorts 4 (b % 8) t)

/-- Minimal output ports of a die-mesh unit: edge links, an attachment, or the local units (port 6). -/
def meshOut (r : Nat) (g : Goal) : List Nat :=
  if g.region r ≠ r then gridPorts 8 r (g.region r)
  else match g.blk with
    | some b => (attachOf (b % 8)).map (fun t => if t = 1 then 4 else 5)
    | none => [6]

/-- The node and input port behind an output port of a node. -/
def Node.behind (n : Node) (port : Nat) : Option (Node × Nat) :=
  match n, port with
  | .router b, 0 => some (.router (b - 4), 2)
  | .router b, 1 => some (.router (b + 1), 3)
  | .router b, 2 => some (.router (b + 4), 0)
  | .router b, 3 => some (.router (b - 1), 1)
  | .router b, 5 => some (.mesh (b / 8), if b % 8 = 1 then 4 else 5)
  | .mesh r, 0 => some (.mesh (r - 8), 2)
  | .mesh r, 1 => some (.mesh (r + 1), 3)
  | .mesh r, 2 => some (.mesh (r + 8), 0)
  | .mesh r, 3 => some (.mesh (r - 1), 1)
  | .mesh r, 4 => some (.router (8 * r + 1), 5)
  | .mesh r, 5 => some (.router (8 * r + 6), 5)
  | _, _ => none

/-- Page of a router or die-mesh unit. -/
def Node.page (n : Node) : Option Nat := match n with | .router b => some (routerPg b) | .mesh r => some (meshPg r) | _ => none

/-- The whole-packet buffer of a channel at an input port is free (R207, R208). -/
def State.bufFree (s : State) (n : Node) (port vc : Nat) : Bool :=
  !s.net.any (fun q => decide (q.at_ = n) && decide (q.from_ = port) && decide (q.vc = vc))

/-- Input port of a die-mesh unit by which a packet of one of the region's local units comes: each controller, the buckle bank and the tree
engine, a Quexon port, and each fabric port have their own (R205, R207). -/
def NetPkt.localIn (p : NetPkt) : Nat :=
  match p.at_ with
  | .ingress e => 16 + e
  | _ =>
    if p.pkt.type = 5 then 8
    else match homeOf p.pkt.addr with
      | .dram region off => 10 + mcOf region off % 2
      | .companion _ _ => 9
      | _ => 12

/-- Packets waiting at a node. -/
def State.depth (s : State) (n : Node) : Nat := (s.net.filter (fun q => decide (q.at_ = n))).length

/-- The port a VC1 packet takes (R209): free channel-1 buffer behind it, shallower queue, E or W on a tie. -/
def State.pickPort (s : State) (n : Node) (ports : List Nat) : Option (Node × Nat) :=
  let open_ := (ports.filter (fun o => decide (o = 1 ∨ o = 3)) ++ ports.filter (fun o => decide (o ≠ 1 ∧ o ≠ 3))).filterMap (fun o => match n.behind o with
    | some (m, i) => if s.bufFree m i 1 then some (m, i) else none
    | none => none)
  match open_ with
  | [] => none
  | x :: r => some (r.foldl (fun best y => if s.depth y.1 < s.depth best.1 then y else best) x)

/-- Where a header goes next: nothing is free, the next node with its input port and channel, through the crossbar or to
a local unit, or nowhere (no valid entry of a degraded table). -/
inductive Hop where
  | wait
  | to_ (n : Node) (port vc : Nat)
  | final
  | lost
  deriving DecidableEq, Repr

/-- The degraded tables are in force at a node (R213). -/
def State.degraded (s : State) (n : Node) : Bool := match n.page with | some pg => decide (s.rf (pg + 0x100) 30 30 = 1) | none => false

/-- The table entry of a node for a goal, while DEGRADED = 1 (ROUTE_TBL). -/
def State.tablePort (s : State) (n : Node) (g : Goal) : Option Nat :=
  let entry : Nat → Option Nat := fun a => if s.rf a 31 31 = 1 then some (s.rf a 2 0) else none
  match n with
  | .router b => entry (routerPg b + 0x200 + 4 * (match g.blk with | some t => if t / 8 = b / 8 then t % 8 else 8 | none => 8))
  | .mesh r => if g.region r = r ∧ g.blk.isNone then some 6 else entry (meshPg r + 0x200 + 4 * g.region r)
  | _ => none

/-- The channel a packet has at a node: its own, or that of R213 where the degraded tables are in force. -/
def State.netVc (s : State) (n : Node) (p : NetPkt) : Nat :=
  if !s.degraded n then p.vc
  else if [1, 2, 3, 7].contains p.pkt.type then 2 else if p.pkt.type = 4 then 4 else p.vc

/-- The hop of a packet at a router or die-mesh unit (R208, R209); the degraded tables carry requests and responses, trees keep
their fixed paths (R209, R213). -/
def State.hopOf (s : State) (p : NetPkt) (g : Goal) : Hop :=
  let n := p.at_
  let outs := match n with | .router b => routerOut b g | .mesh r => meshOut r g | _ => []
  let vc := s.netVc n p
  if s.degraded n ∧ p.pkt.type ≠ 5 then
    match s.tablePort n g with
    | none => .lost
    | some o =>
      match n.behind o with
      | none => .final
      | some (m, i) => if s.bufFree m i vc then .to_ m i vc else .wait
  else if outs = [4] ∧ (match n with | .router _ => true | _ => false) = true ∨ outs = [6] then .final
  else
    let order := match outs with | o :: _ => n.behind o | [] => none
    if p.vc = 1 then
      match s.pickPort n outs with
      | some (m, i) => .to_ m i 1
      | none =>
        match order with
        | some (m, i) => if s.bufFree m i 2 then .to_ m i 2 else .wait
        | none => .wait
    else
      match order with
      | some (m, i) => if s.bufFree m i p.vc then .to_ m i p.vc else .wait
      | none => .wait

/-! ### Delivery -/

/-- Replace the `n`-th packet of the network. -/
def State.setPkt (s : State) (n : Nat) (p : NetPkt) : State := { s with net := s.net.set n p }

/-- Take the `n`-th packet out of the network. -/
def State.dropPkt (s : State) (n : Nat) : State := { s with net := s.net.eraseIdx n }

/-- Put a packet among those that have arrived at their destination. -/
def State.arrive (s : State) (p : NetPkt) : State := { s with arrived := s.arrived ++ [p] }

/-- The physical cores a unicast packet goes to by the map in force (R17). -/
def State.resolve (s : State) (p : NetPkt) : List Nat :=
  if p.cores.isEmpty then (s.physOf p.pkt.dcore).toList else p.cores

/-- A packet at a core, discarded where the core's port is not granted (R203). It counts in FENCE_DROP also at the port of a core that is being
zeroised, for which R157 names the discard of an unarmed ring (RECV_DROP): the crossbar refuses it first (DESIGN CHOICE, log entry 70). -/
def State.toCore (s : State) (b gp : Nat) (p : NetPkt) : State :=
  if s.portShut gp then s.tickSum (xbarPg b + 0x110) p.pkt.rows else s.arrive { p with at_ := .core gp }

/-- Deliver a packet through the crossbar of block `b` (R199, R203); a logical core that is absent receives nothing. -/
def State.xbarDeliver (s : State) (b : Nat) (p : NetPkt) (g : Goal) : State :=
  match g with
  | .slice n => s.arrive { p with at_ := .slice n }
  | _ => (s.resolve p).foldl (fun (s : State) gp => s.toCore b gp p) s

/-- A packet for a unit that a partition, chip or power-cycle reset holds is discarded (R346, R350 to R352). -/
def State.goalHeld (s : State) (p : NetPkt) (g : Goal) : Bool :=
  (match g.blk with | some b => s.held.contains b | none => false)
    || (s.memHeld && [2, 3, 7].contains p.pkt.type && (match g with | .local_ _ => true | _ => false))

/-- The header has reached the end of its way (R205, R211). A packet starts on a link when all its rows have come (R72, R208). -/
def State.finalHop (s0 : State) (n : Nat) (p : NetPkt) (g : Goal) : State :=
  let s := s0.dropPkt n
  match p.at_, g with
  | .router b, _ =>
    if s.held.contains b then s.tickSum (routerPg b + 0x108) 1 else s.xbarDeliver b p g
  | .mesh _, .local_ r => if s.goalHeld p g then s.bump (modPg 4 0 + 0x110) 31 0 1 else s.arrive { p with at_ := .local_ r }
  | .mesh _, .egress e =>
    if p.src.isSome then s0
    else if s.portLive e then s.linkSend e { p.pkt with vc := p.vc } else s0.setPkt n { p with egress := none }
  | _, _ => s

/-! ### Multicast responses (R197, R198) -/

/-- Logical cores of block `b` that a multicast reaches, the issuer's own position left out (R197). -/
def State.mcastLogical (s : State) (b : Nat) (p : NetPkt) : List Nat :=
  match p.pkt.mset with
  | some m =>
    let own := p.reqCore.bind s.logOf
    ((List.range 8).filter (fun i => m.2.2.getLsbD i)).filterMap (fun i => if some (8 * b + i) = own then none else some (8 * b + i))
  | none => []

/-- Destinations of a multicast that are excluded: absent, or of another context (R198). -/
def State.mcastExcluded (s : State) (p : NetPkt) (gl : Nat) : Bool :=
  (s.physOf gl).isNone || decide (s.logCtx gl ≠ p.ctx) || p.ctx.isNone

/-- Physical cores of block `b` that a multicast goes to by the map in force (R17, R198). -/
def State.mcastCores (s : State) (b : Nat) (p : NetPkt) : List Nat :=
  ((s.mcastLogical b p).filter (fun gl => !s.mcastExcluded p gl)).filterMap s.physOf

/-- A destination port that cannot accept: its ring would take the packet, and its landing buffer has no room for it (R104, R202). -/
def State.mcastBlocked (s : State) (gp : Nat) (k : Packet) : Bool :=
  !s.portShut gp &&
    (match s.pktVerdict gp k with
      | 0 => decide (64 ≤ (s.core gp).landRows)
      | 1 => decide (64 < (s.core gp).landRows + k.rows)
      | _ => false)

/-- Blocks a multicast response still has to reach, its issuer's first. -/
def NetPkt.targets (p : NetPkt) : List Nat :=
  let own := p.pkt.dcore / 8
  if p.own then own :: p.tree.filter (· ≠ own) else p.tree

/-- A multicast response at a block's router that is to be broadcast in the block. -/
def NetPkt.casts (p : NetPkt) (blk : Nat) : Bool := decide (p.at_ = .router blk) && isMcast p.pkt && p.tree.contains blk

/-- The packet without some of its targets. -/
def NetPkt.without (p : NetPkt) (gone : List Nat) : NetPkt :=
  { p with tree := p.tree.filter (fun b => !gone.contains b), own := p.own && !gone.contains (p.pkt.dcore / 8) }

/-- The packet for some of its targets only. -/
def NetPkt.only (p : NetPkt) (these : List Nat) : NetPkt :=
  { p with tree := p.tree.filter these.contains, own := p.own && these.contains (p.pkt.dcore / 8) }

/-- What is left of packet `n`; a packet without targets is gone. -/
def State.leave (s : State) (n : Nat) (p : NetPkt) : State := if p.targets.isEmpty then s.dropPkt n else s.setPkt n p

/-- The hop a multicast response makes for one of its targets; at the target's router it goes through the crossbar. -/
def State.castHop (s : State) (p : NetPkt) (t : Nat) : Hop := s.hopOf p (.block t)

/-! ### VC_FULL -/

/-- NCLK cycles in a time in 1/16 ns. -/
def State.nclkIn (s : State) (d : Nat) : Nat := d * s.rf (modPg 5 0 + 0x104) 10 0 / 16000

/-- What is left of a list of times once one span has been taken out. -/
def outside (cut : Nat × Nat) (spans : List (Nat × Nat)) : List (Nat × Nat) :=
  spans.flatMap (fun x =>
    ([(x.1, min x.2 cut.1), (max x.1 cut.2, x.2)]).filter (fun y => decide (y.1 < y.2)))

/-- A channel-1 buffer of a unit is full from the arrival of a packet until it leaves, whether it moves on, changes its channel or is lost;
VC_FULL counts the NCLK cycles in which any is. -/
def State.vcCount (s : State) (p : NetPkt) (now : Nat) : State :=
  match p.at_.page with
  | some pg =>
    if p.vc ≠ 1 ∨ now ≤ p.since then s
    else
      let seen := Tbl.get [] s.vcCov pg
      let new := seen.foldl (fun l c => outside c l) [(p.since, now)]
      { s.tick (pg + 0x105) (new.foldl (fun n x => n + (s.nclkIn x.2 - s.nclkIn x.1)) 0) with vcCov := Tbl.set [] s.vcCov pg (seen ++ new) }
  | none => s

/-! ### Faulty elements (R206, R212, R213) -/

/-- An edge link can carry packets. -/
def State.edgeLive (s : State) (r d : Nat) : Bool :=
  edgePresent r d && !s.badLinks.contains (r, d)

/-- A router or die-mesh unit is not declared faulty. -/
def State.nodeLive (s : State) (n : Node) : Bool := match n.page with | some pg => decide (s.rf (pg + 0x100) 31 31 = 0) | none => true

/-- Live neighbours of a die-mesh unit: region, port there. -/
def State.meshAdj (s : State) (r : Nat) : List (Nat × Nat) :=
  (List.range 4).filterMap (fun d =>
    match Node.behind (.mesh r) d with
    | some (.mesh m, i) => if s.edgeLive r d ∧ s.edgeLive m i ∧ s.nodeLive (.mesh m) then some (m, i) else none
    | _ => none)

/-- Live neighbours of a block router inside its region: block 0 to 7, port there. -/
def State.routerAdj (s : State) (r b : Nat) : List (Nat × Nat) :=
  (List.range 4).filterMap (fun d =>
    if routerPorts b / 2 ^ d % 2 = 0 then none
    else match Node.behind (.router (8 * r + b)) d with
      | some (.router m, i) => if s.nodeLive (.router m) then some (m % 8, i) else none
      | _ => none)

/-- A spanning tree by breadth: parent of each node reached and the port that leads to it. -/
def spanTree (adj : Nat → List (Nat × Nat)) : Nat → List Nat → Tbl (Nat × Nat) → Tbl (Nat × Nat)
  | 0, _, t => t
  | _, [], t => t
  | k + 1, a :: rest, t =>
    let new := (adj a).filter (fun x => (Tbl.find? t x.1).isNone)
    spanTree adj k (rest ++ new.map (·.1)) (new.foldl (fun t x => Tbl.put t x.1 (a, x.2)) t)

/-- The way from a node up to the root of a spanning tree, the node first. -/
def wayUp (t : Tbl (Nat × Nat)) (root : Nat) : Nat → Nat → List Nat
  | 0, a => [a]
  | k + 1, a => if a = root then [a] else match Tbl.find? t a with
    | some (p, _) => a :: wayUp t root k p
    | none => [a]

/-- Next port from `a` toward `d` along the tree: down when `a` lies on the way of `d`, else up. `portTo` gives the port
from a node to a neighbour. -/
def treeNext (t : Tbl (Nat × Nat)) (root fuel : Nat) (portTo : Nat → Nat → Option Nat) (a d : Nat) : Option Nat :=
  let w := wayUp t root fuel d
  if w.contains a then ((w.takeWhile (fun x => decide (x ≠ a))).getLast?).bind (portTo a)
  else (Tbl.find? t a).map (·.2)

/-- Reached nodes of a spanning tree, its root included. -/
def inTree (t : Tbl (Nat × Nat)) (a : Nat) : Bool := (Tbl.find? t a).isSome

/-- Port of a die-mesh unit to a neighbour. -/
def meshPortTo (a b : Nat) : Option Nat := (List.range 4).find? (fun d => decide ((Node.behind (.mesh a) d).map (·.1) = some (.mesh b)))

/-- Port of a block router to a neighbour of its region. -/
def routerPortTo (a b : Nat) : Option Nat :=
  (List.range 4).find? (fun d => decide (routerPorts a / 2 ^ d % 2 = 1) && decide ((Node.behind (.router a) d).map (·.1) = some (.router b)))

/-- Write a table entry. -/
def State.setEntry (s : State) (a : Nat) (o : Option Nat) : State :=
  s.wr a (match o with | some p => BitVec.ofNat 32 (2 ^ 31 + p) | none => 0)

/-- The attachment that serves a region's blocks in the degraded tables: block 1, else 6. -/
def State.liveAttach (s : State) (r : Nat) : Option Nat := [1, 6].find? (fun b => s.nodeLive (.router (8 * r + b)))

/-- Spanning trees over every live node of a list, each rooted at the first node that none before has reached. -/
def spanForest (live : Nat → Bool) (adj : Nat → List (Nat × Nat)) (up : Nat) (nodes : List Nat) : List (Nat × Tbl (Nat × Nat)) :=
  nodes.foldl (fun f b =>
    if !live b || f.any (fun x => inTree x.2 b) then f else f ++ [(b, spanTree adj 512 [b] [(b, (b, up))])]) []

/-- Entry of block router `b` of a region for destination `d` (8: off-region): along its own tree, whose root reaches the die mesh if it is
an attachment; blocks that the region's serving attachment reaches and it does not are reached through the die-mesh unit. -/
def routerEntry (forest : List (Nat × Tbl (Nat × Nat))) (main : Option Nat) (b d : Nat) : Option Nat :=
  match forest.find? (fun x => inTree x.2 b) with
  | none => none
  | some (root, t) =>
    let out := if root = 1 ∨ root = 6 then (if b = root then some 5 else (Tbl.find? t b).map (·.2)) else none
    if d = b then some 4
    else if d = 8 then out
    else if inTree t d then treeNext t root 8 routerPortTo b d
    else if main ≠ some root ∧ (forest.any (fun x => decide (main = some x.1) && inTree x.2 d)) = true then out
    else none

/-- Tables of one region's block routers: spanning trees rooted at the live attachments, and at other live blocks that none of them
reaches (R212). -/
def State.regionTables (s : State) (r : Nat) : State :=
  let f := spanForest (fun b => s.nodeLive (.router (8 * r + b))) (s.routerAdj r) 5 [1, 6, 0, 2, 3, 4, 5, 7]
  (List.range 8).foldl (fun (s : State) b =>
    (List.range 9).foldl (fun (s : State) d => s.setEntry (routerPg (8 * r + b) + 0x200 + 4 * d) (routerEntry f (s.liveAttach r) b d)) s) s

/-- Tables of the die mesh: up*/down* over a spanning tree rooted at region 0 (R212), or at the lowest live region; regions that it does
not reach have trees of their own. -/
def State.meshTables (s : State) : State :=
  let f := spanForest (fun r => s.nodeLive (.mesh r)) s.meshAdj 6 (List.range 64)
  (List.range 64).foldl (fun (s : State) r =>
    (List.range 64).foldl (fun (s : State) d =>
      let port := match f.find? (fun x => inTree x.2 r) with
        | none => none
        | some (root, t) =>
          if d = r then (s.liveAttach r).map (fun b => if b = 1 then 4 else 5)
          else if inTree t d then treeNext t root 64 meshPortTo r d else none
      s.setEntry (meshPg r + 0x200 + 4 * d) port) s) s

/-- Write every table (R212). -/
def State.writeTables (s : State) : State := (List.range 64).foldl (fun (s : State) r => s.regionTables r) s.meshTables

/-- Build every table, set NET_DEGRADE and request the drain (R212, R213, R326). Routers that already follow degraded tables adopt the new
ones together, at s32 (R213). -/
def State.degradeNet (s : State) (region block src cyc : Nat) : State :=
  let s := if s.degraded (.mesh 0) then { s with netPend := true } else s.writeTables
  { s with netDegrade := true }.requestDrain 0 region block src cyc

/-- Declare a router or die-mesh unit faulty; packets inside it are lost (R212, R213). -/
def State.nodeFails (s : State) (n : Node) (cyc now : Nat) : State :=
  match n.page with
  | none => s
  | some pg =>
    if s.rf (pg + 0x100) 31 31 = 1 then s
    else
      let s := s.wf (pg + 0x100) 31 31 1
      let s := (s.net.filter (fun q => decide (q.at_ = n))).foldl (fun (s : State) q => s.vcCount q now) s
      let s := { s with net := s.net.filter (fun q => decide (q.at_ ≠ n)) }
      let l := locOf pg
      s.degradeNet l.region (if l.blk < 8 then l.blk else 0) pg cyc

/-- Declare an edge link faulty. -/
def State.edgeFails (s : State) (r d cyc : Nat) : State :=
  if s.badLinks.contains (r, d) then s
  else { s with badLinks := s.badLinks ++ [(r, d)] }.degradeNet r 0 (edgePg r d) cyc

/-- The unit that reports a link error of a packet at a node: the edge link it came by, or the node itself (R206). -/
def NetPkt.linkPage (p : NetPkt) : Option Nat :=
  match p.at_ with
  | .mesh r => if p.from_ < 4 then some (edgePg r p.from_) else some (meshPg r)
  | n => n.page

/-- An error found with a packet at a router or die-mesh unit (R206, R212): 1 BUF_CE, 2 BUF_UE, 3 LINK_CE, 4 LINK_UE,
5 CTRL_UE, 6 an uncorrectable error of the control logic of the block's crossbar (R326). An uncorrectable word discards the packet; a first UE of buffers or control logic, or a link's count at
REP_UE_THRESH, declares the element faulty. -/
def State.hopError (s : State) (n : Nat) (p : NetPkt) (err t : Nat) : State :=
  let cyc := tclkCycle t
  let now := s.gen.base + 16 * t
  match p.at_.page, p.linkPage with
  | some pg, some lk =>
    let rep : State → Nat → Nat → Nat → State := fun s pg b sev => s.regionErr pg b sev 0x7F cyc (BitVec.ofNat 64 b)
    match err with
    | 1 => rep s pg 0 0
    | 2 => (rep ((s.vcCount p now).dropPkt n) pg 1 2).nodeFails p.at_ cyc now
    | 3 => rep s lk 2 0
    | 4 =>
      let s := rep ((s.vcCount p now).dropPkt n) lk 3 2
      let w := s.winOf lk
      let par := s.winParOf (locOf lk).region
      if par.ue ≠ 0 ∧ par.ue ≤ w.ue then
        (match p.at_ with
          | .mesh r => if p.from_ < 4 then s.edgeFails r p.from_ cyc else s.nodeFails p.at_ cyc now
          | m => s.nodeFails m cyc now)
      else s
    | 5 => (rep ((s.vcCount p now).dropPkt n) pg 4 2).nodeFails p.at_ cyc now
    | _ => (match p.at_ with | .router b => s.ctrlErr (xbarPg b) cyc | _ => s)
  | _, _ => s

/-! ### A hop -/

/-- Units of a packet freed in the input buffer of a port that it leaves (R226). -/
def State.freeUnits (s : State) (p : Nat) (k : Packet) : State :=
  let l := s.link p
  s.setLink p { l with freed := l.freed.set k.vc ((l.freed.getD k.vc 0 + pktUnits k) % 2 ^ 16) }

/-- A packet leaves the input buffer of port `e`; one that a retrain has already moved out of it (input 7) frees nothing
(R226, R230). -/
def State.freeIngress (s : State) (e : Nat) (p : NetPkt) : State := if p.from_ = 7 then s else s.freeUnits e p.pkt

/-- A packet type that R238 defines. -/
def typeKnown (k : Packet) : Bool := decide (1 ≤ k.type) && decide (k.type ≤ 8)

/-! ### Between modules (R240 to R245) -/

/-- Ports in a minimal direction of a packet that are clear in TOPO_ERR and enabled (R241), rail a first, then X, Y, Z, + before −. -/
def State.minimalPorts (s : State) (k : Packet) : List Nat :=
  let me := s.myId
  let dirs : List (Nat × Bool) := (List.range 3).flatMap (fun d =>
    let n := s.dimN d
    let up := (coord k.dmod d + n - coord me d % n) % n
    if up = 0 then [] else if 2 * up < n then [(d, true)] else if 2 * up = n then [(d, true), (d, false)] else [(d, false)])
  let all := [0, 1].flatMap (fun r => dirs.map (fun x => portOf x.1 x.2 r))
  all.filter (fun p => decide (s.rf (rtPg + 0x10C) p p = 0) && s.portEn k.epoch p)

/-- Candidate ports of a packet at this module (R241). -/
def State.candidates (s : State) (k : Packet) : List Nat := (s.minimalPorts k).filter s.portUp

/-- ESC entry of a dimension for a destination coordinate (ESC_X, ESC_Y, ESC_Z). -/
def State.escEntry (s : State) (bank d c : Nat) : Nat :=
  let a := rtPg + 0x204 + 0x40 * bank
  match d with
  | 0 => s.rf a (2 * c + 1) (2 * c)
  | 1 => s.rf (a + 4) (2 * c + 1) (2 * c)
  | _ => if c < 16 then s.rf (a + 8) (2 * c + 1) (2 * c) else s.rf (a + 12) (2 * (c - 16) + 1) (2 * (c - 16))

/-- Escape direction of a packet: the first dimension where it differs (R242). -/
def State.escDir (s : State) (k : Packet) : Option (Nat × Bool) :=
  let me := s.myId
  (List.range 3).findSome? (fun d =>
    let n := s.dimN d
    let up := (coord k.dmod d + n - coord me d % n) % n
    if up = 0 then none
    else match s.escEntry k.epoch d (coord k.dmod d) with
      | 1 => some (d, true)
      | 2 => some (d, false)
      | _ => some (d, decide (2 * up ≤ n)))

/-- The port by which a packet in transit came travels in a dimension and direction: its rail, and whether the link was the dateline. -/
def State.cameBy (s : State) (p : NetPkt) (d : Nat) (plus : Bool) : Option (Nat × Bool) :=
  match p.at_ with
  | .ingress e =>
    if portDim e = d ∧ portPlus e ≠ plus ∧ p.from_ ≠ 7 then
      some (portRail e, decide (coord s.myId d = if plus then 0 else s.dimN d - 1))
    else none
  | _ => none

/-- The packet has crossed the dateline of a dimension in its direction (R242; DEDUCED, log entry 61: no header field says it). A packet that
goes the minimal way has, once it is past the coordinate it started from. One that an ESC entry sends the long way round may have
entered channel 2 anywhere on the minimal way: the link it came by tells. -/
def State.crossed (s : State) (p : NetPkt) (d : Nat) (plus : Bool) : Bool :=
  let n := s.dimN d
  let me := coord s.myId d
  let from_ := coord p.pkt.smod d
  let to_ := coord p.pkt.dmod d
  let ahead := if plus then (to_ + n - from_ % n) % n else (from_ + n - to_ % n) % n
  if 2 * ahead ≤ n then (if plus then decide (me < from_) else decide (from_ < me))
  else match s.cameBy p d plus with
    | some (rail, dateline) => dateline || decide (rail = 1 ∧ p.vc ≠ 1)
    | none => false

/-- The escape port of a packet, and whether the other rail had to be taken (R242, R243); none when both rails are DOWN or
disabled. -/
def State.escPort (s : State) (p : NetPkt) : Option (Nat × Bool) :=
  match s.escDir p.pkt with
  | none => none
  | some (d, plus) =>
    let rail := bit (s.crossed p d plus)
    let ok : Nat → Bool := fun r => s.portLive (portOf d plus r) && s.portEn p.pkt.epoch (portOf d plus r)
    if ok rail then some (portOf d plus rail, false) else if ok (1 - rail) then some (portOf d plus (1 - rail), true) else none

/-- The candidate with the most free VC1 credit that covers the packet (R241). -/
def State.bestPort (s : State) (k : Packet) : Option Nat :=
  let fit := (s.candidates k).filter (fun p => decide (pktUnits k ≤ (s.link p).credit 1))
  match fit with
  | [] => none
  | x :: r => some (r.foldl (fun b y => if (s.link b).credit 1 < (s.link y).credit 1 then y else b) x)

/-- A packet that enters channel 2 on its way to an egress port takes the escape port of R242, on which it stays: its hop from here, the
packet, and whether the other rail had to be taken (R209, R242, R243). -/
def State.escape (s : State) (p : NetPkt) (h : Hop) : Option (NetPkt × Hop × Bool) :=
  match h with
  | .to_ _ _ vc =>
    if p.vc = 1 ∧ vc = 2 ∧ p.egress.isSome then
      (s.escPort p).map (fun q =>
        let p' := { p with egress := some q.1 }
        (p', s.hopOf { p' with vc := 2 } (s.goal p'), q.2))
    else some (p, h, false)
  | _ => some (p, h, false)

/-! ### Arbitration (R201, R208) -/

/-- Output port of a node that a hop uses. -/
def hopPort (n : Node) (h : Hop) : Option Nat :=
  match h with
  | .to_ m i _ => (List.range 6).find? (fun o => decide (n.behind o = some (m, i)))
  | .final => some (match n with | .router _ => 4 | _ => 6)
  | _ => none

/-- Two packets of the trees came by one VC3 buffer. -/
def NetPkt.sameTreeBuf (q p : NetPkt) : Bool :=
  (decide (q.pkt.type = 5) || decide (q.pkt.type = 6)) && decide (q.at_ = p.at_) && decide (q.from_ = p.from_)

/-- A contribution that waits for a key still fills the VC3 buffer of a die-mesh unit by which a packet for the tree engine came (R255). -/
def State.treeHeld (s : State) (p : NetPkt) : Bool :=
  match p.at_, s.goal p with
  | .mesh _, .local_ r => decide (p.pkt.type = 5) && s.arrived.any (·.sameTreeBuf { p with at_ := .local_ r })
  | _, _ => false

/-- Output ports by which a packet at a router or die-mesh unit could leave now; one that has still to choose its egress asks for none. -/
def State.netOuts (s : State) (p : NetPkt) : List Nat :=
  if s.treeHeld p ∨ (s.goal p = .away ∧ (match p.at_ with | .mesh _ => true | _ => false) = true) then []
  else if isMcast p.pkt then p.targets.filterMap (fun t => hopPort p.at_ (s.castHop p t))
  else ((s.escape p (s.hopOf p (s.goal p))).bind (fun x => hopPort p.at_ x.2.1)).toList

/-- Key of an output port's round-robin pointer. -/
def outKey (n : Node) (o : Nat) : Nat := match n with | .router b => 8 * b + o | .mesh r => 4096 + 8 * r + o | _ => 0

/-- At each output, channel 0 has strict priority and channels 1 to 4 share it round-robin, packet by packet (R208). -/
def State.netWins (s : State) (p : NetPkt) (o : Nat) : Bool :=
  let vcs := (s.net.filter (fun q => decide (q.at_ = p.at_) && (s.netOuts q).contains o)).map (·.vc)
  if vcs.contains 0 then decide (p.vc = 0) else decide (rrPick (Tbl.get 0 s.netRR (outKey p.at_ o)) 5 vcs = some p.vc)

/-- An output has sent a packet: the pointer moves to the channel after it. -/
def State.netGrant (s : State) (p : NetPkt) (o : Nat) : State := { s with netRR := Tbl.set 0 s.netRR (outKey p.at_ o) ((p.vc + 1) % 5) }

/-- A broadcast holds the router input of a block's crossbar (R202). -/
def State.inputHeld (s : State) (blk : Nat) : Bool := s.net.any (fun q => q.casts blk && q.holding)

/-- Output port of block `blk`'s crossbar that a packet asks for: a core, a slice, or the router; a packet at the router asks for none
while a broadcast holds the router input. -/
def State.pktOut (s : State) (blk : Nat) (p : NetPkt) : Option Nat :=
  if p.at_ = .router blk ∧ s.inputHeld blk then none
  else
    match s.goal p with
    | .slice n => if n / 8 = blk then some (10 + n % 8) else if p.at_ = .router blk then none else some 18
    | .block b =>
      if isMcast p.pkt then (if p.at_ = .router blk then none else some 18)
      else if b = blk then (s.resolve p).head?.map (· % 10) else if p.at_ = .router blk then none else some 18
    | _ => if p.at_ = .router blk then none else some 18

/-- A broadcast that every destination accepts takes precedence over unicast packets for a core's port (R202). -/
def State.castFirst (s : State) (blk gp : Nat) : Bool :=
  s.net.any (fun q => q.casts blk && q.cores.contains gp && !q.cores.any (fun x => s.mcastBlocked x q.pkt))

/-- Input port of block `blk`'s crossbar at which a packet is. -/
def NetPkt.xbarIn (p : NetPkt) : Nat := match p.at_ with | .core gp => gp % 10 | .slice n => 10 + n % 8 | _ => 18

/-- Whether the crossbar of block `blk` grants a packet the output port it asks for. -/
def State.xbarLets (s : State) (blk : Nat) (p : NetPkt) : Bool :=
  match s.pktOut blk p with
  | some o => s.xbarWins blk o p.xbarIn (s.pktOut blk) && !(decide (o < 10) && s.castFirst blk (10 * blk + o))
  | none => (s.goal p).blk = some blk && !(decide (p.at_ = .router blk) && s.inputHeld blk)

/-- The grant to a packet moves the pointer of its output. -/
def State.xbarDone (s : State) (blk : Nat) (p : NetPkt) : State :=
  match s.pktOut blk p with | some o => s.xbarGrant blk o p.xbarIn | none => s

/-! ### A hop of a header -/

/-- A packet at the buffer of a next node; at its block's router it takes the cores of the map in force (R17, R198). -/
def State.entered (s : State) (p : NetPkt) (m : Node) (port vc now : Nat) : NetPkt :=
  let q := { p with at_ := m, from_ := port, vc := vc, since := now }
  match m with
  | .router b =>
    if isMcast p.pkt then
      { q with cores := if p.tree.contains b then s.mcastCores b p else [],
               ownCore := if p.own && decide (p.pkt.dcore / 8 = b) then s.physOf p.pkt.dcore else none }
    else if (s.goal p).blk = some b then { q with cores := s.resolve p } else q
  | _ => q

/-- An entry into channel 2 counts in ESC_PKTS. -/
def State.noteEsc (s : State) (p : NetPkt) (vc : Nat) : State :=
  if p.vc = 1 ∧ vc = 2 then (match p.at_.page with | some pg => s.tick (pg + 0x106) 1 | none => s) else s

/-- The header of packet `n` moves to a next node. A faulty one loses it (R213). -/
def State.moveTo (s : State) (n : Nat) (p : NetPkt) (m : Node) (port vc now : Nat) : State :=
  let s := (s.vcCount p now).noteEsc p vc
  if s.nodeLive m then s.setPkt n (s.entered p m port vc now) else s.dropPkt n

/-- A hop of a packet by the output that grants it. -/
def State.granted (s : State) (p : NetPkt) (h : Hop) : Bool := match hopPort p.at_ h with | some o => s.netWins p o | none => true

/-- The pointer of the output that a hop used. -/
def State.noteGrant (s : State) (p : NetPkt) (h : Hop) : State := match hopPort p.at_ h with | some o => s.netGrant p o | none => s

/-- The issuer's own copy of a multicast response leaves its block's router through the crossbar (R197). -/
def State.ownCopy (s : State) (n b : Nat) (p : NetPkt) : State :=
  let k := { p.pkt with mset := none }
  let s := s.leave n { p with own := false }
  p.ownCore.toList.foldl (fun (s : State) gp => s.toCore b gp { p with pkt := k, tree := [], ownCore := none }) s

/-- A multicast response makes one of the hops it has to make: the first target whose hop is free and granted, with every target behind
the same output (R197: each link carries each row once). -/
def State.castStep (s : State) (n : Nat) (p : NetPkt) (now : Nat) : State :=
  let live := p.targets.filter (fun t => decide (s.castHop p t ≠ .lost))
  let free := live.filter (fun t => match s.castHop p t with | .to_ m i vc => s.granted p (.to_ m i vc) | _ => false)
  let p := p.only live
  match free with
  | [] => s.leave n p
  | t :: _ =>
    match s.castHop p t with
    | .to_ m i vc =>
      let these := live.filter (fun x => decide (s.castHop p x = .to_ m i vc))
      let s := s.noteGrant p (.to_ m i vc)
      let q := s.entered (p.only these) m i vc now
      let s := s.leave n (p.without these)
      if s.nodeLive m then { s with net := s.net ++ [q] } else s
    | _ => s

/-- A multicast response at a router or die-mesh unit (R197). A block that a reset holds is no target any more. -/
def State.castNode (s : State) (n : Nat) (p : NetPkt) (now : Nat) : State :=
  match p.at_ with
  | .router b =>
    if p.own ∧ p.pkt.dcore / 8 = b then
      if s.held.contains b then (s.leave n { p with own := false }).tickSum (routerPg b + 0x108) 1
      else if s.inputHeld b ∨ p.ownCore.any (fun gp => s.castFirst b gp) ∨ !s.granted p .final then s
      else (s.noteGrant p .final).ownCopy n b p
    else if p.tree = [b] then s
    else s.castStep n p now
  | .mesh r =>
    let shut := p.targets.filter (fun t => decide (t / 8 = r) && s.held.contains t)
    if shut.isEmpty then s.castStep n p now else (s.leave n (p.without shut)).bump (modPg 4 0 + 0x110) 31 0 shut.length
  | _ => s

/-- What a packet does at a router or die-mesh unit, given its hop. -/
def State.doHop (s : State) (n : Nat) (p : NetPkt) (g : Goal) (h : Hop) (now : Nat) : State :=
  match h with
  | .wait => s
  | .lost => (s.vcCount p now).dropPkt n
  | .to_ m i vc => if s.granted p h then (s.noteGrant p h).moveTo n p m i vc now else s
  | .final =>
    match p.at_ with
    | .router b =>
      if s.granted p h && (s.held.contains b || s.xbarLets b p) then
        (((s.noteGrant p h).xbarDone b p).vcCount p now).finalHop n p g
      else s
    | _ => if s.granted p h && !s.treeHeld p then ((s.noteGrant p h).vcCount p now).finalHop n p g else s

/-- The hop of a packet that waits at a router or die-mesh unit. -/
def State.nodeHop (s : State) (n : Nat) (p : NetPkt) (now : Nat) : State :=
  let g := s.goal p
  if isMcast p.pkt then s.castNode n p now
  else
    match p.at_, g with
    | .mesh _, .away => s
    | .mesh r, _ =>
      if g.region r = r ∧ s.goalHeld p g then ((s.vcCount p now).dropPkt n).bump (modPg 4 0 + 0x110) 31 0 1
      else
        match s.escape p (s.hopOf p g) with
        | none => s.setPkt n { p with egress := none }
        | some (q, .final, u) =>
          if q.egress = p.egress then s.doHop n p g .final now
          else if s.granted p .final then
            ((((if u then s.wf (rtPg + 0x108) 30 30 1 else s).noteEsc p 2).noteGrant p .final).vcCount p now).finalHop n { q with vc := 2 } (s.goal q)
          else s
        | some (q, h, u) => (if u then s.wf (rtPg + 0x108) 30 30 1 else s).doHop n q (s.goal q) h now
    | .router _, _ =>
      (match s.escape p (s.hopOf p g) with
      | some (q, h, u) => (if u then s.wf (rtPg + 0x108) 30 30 1 else s).doHop n q (s.goal q) h now
      | none => s.setPkt n { p with egress := none })
    | _, _ => s

/-- The first hop of a packet from a core or slice of block `b` through the crossbar: to a unit of the block, or to the block's router
(R199, R201, R207). -/
def State.sourceHop (s : State) (n b : Nat) (p : NetPkt) (now : Nat) : State :=
  let g := s.goal p
  let vc := s.netVc (.router b) p
  if !s.xbarLets b p then s
  else if g.blk = some b ∧ !isMcast p.pkt then ((s.xbarDone b p).dropPkt n).xbarDeliver b { p with cores := s.resolve p } g
  else if s.bufFree (.router b) 4 vc then (s.xbarDone b p).moveTo n p (.router b) 4 vc now
  else s

/-- PACKET_HOP: the header of packet `n` advances by one hop if a whole-packet buffer is free and the output grants it (R201, R203, R207
to R209). With NCLK below 0.8 of ACLK the routers are undefined (R409). -/
def execPacketHop (n err t : Nat) (s : State) : Host.Outcome State Fault Refusal :=
  let now := s.gen.base + 16 * t
  match s.net[n]? with
  | none => .next s
  | some p =>
    if !s.ratioOk then .fault .clockRatio else
    match p.at_ with
    | .core gp =>
      if s.portShut gp then .next (s.dropPkt n)
      else if !typeKnown p.pkt then .next ((s.dropPkt n).rtDrop 0x12C)
      else .next (s.sourceHop n (gp / 10) p now)
    | .slice m => .next (s.sourceHop n (m / 8) p now)
    | .local_ r =>
      let vc := s.netVc (.mesh r) p
      if s.bufFree (.mesh r) p.localIn vc then .next (s.moveTo n p (.mesh r) p.localIn vc now) else .next s
    | .ingress e =>
      if p.pkt.dmod ≠ s.myId ∧ p.pkt.type ≠ 5 then .next s
      else
        let m : Node := .mesh (portRegion e)
        let vc := s.netVc m p
        if s.bufFree m p.localIn vc then .next ((s.moveTo n p m p.localIn vc now).freeIngress e p) else .next s
    | .egress _ => .next s
    | .quexon _ => .next s
    | _ =>
      if err = 0 then .next (s.nodeHop n p now)
      else if err = 1 ∨ err = 3 ∨ err = 6 then .next ((s.hopError n p err t).nodeHop n p now)
      else .next (s.hopError n p err t)

/-! ### Broadcast (R197, R198, R202) -/

/-- BROADCAST_GRANT: the first multicast packet to be broadcast in block `blk` is written to every destination port at once, in the first
cycle in which all accept it, and until then holds the router input; `held` is how many cycles it held it (R202, R203). A core fenced
since the packet came is no destination any more, and its rows are discarded. The packet needs the grant of its router's crossbar output
(R208). With NCLK below 0.8 of ACLK the package network is undefined (R409). -/
def execBroadcastGrant (blk held : Nat) (s : State) : Host.Outcome State Fault Refusal := inRange (.broadcastGrant blk held) <|
  if !s.ratioOk then .fault .clockRatio else
  match s.net.findIdx? (fun q => q.casts blk) with
  | none => .next s
  | some n =>
    match s.net[n]? with
    | none => .next s
    | some p =>
      if s.held.contains blk then .next ((s.leave n (p.without [blk])).tickSum (routerPg blk + 0x108) 1)
      else if !s.netWins p 4 then .next s
      else if p.cores.any (fun gp => s.mcastBlocked gp p.pkt) then .next (s.setPkt n { p with holding := true })
      else
        let rest := { p with tree := p.tree.filter (· ≠ blk), holding := false, cores := [] }
        let s := (s.netGrant p 4).leave n rest
        let s := match p.reqCore with
          | some gp => s.bump (corePg gp + 0x704) 31 0 (((s.mcastLogical blk p).length - p.cores.length) * p.pkt.rows)
          | none => s
        let s := p.cores.foldl (fun (s : State) gp =>
          s.toCore blk gp { p with pkt := { p.pkt with land := none }, tree := [], own := false, ownCore := none, holding := false }) s
        .next ((s.tick (xbarPg blk + 0x10E) held).tick (xbarPg blk + 0x10D) p.pkt.rows)

/-! ### Leaving the module (R240 to R245) -/

/-- A packet at a die-mesh unit may take a channel: it is its own, or its input port's buffer of that channel is free (R207). -/
def State.mayRevc (s : State) (p : NetPkt) (vc : Nat) : Bool :=
  match p.at_ with | .mesh _ => decide (p.vc = vc) || s.bufFree p.at_ p.from_ vc | _ => true

/-- The packet takes an egress port: a transit packet goes straight to the link, another crosses the die mesh to the
port's region (R240), in the channel given, whose buffer it fills from then on (R207). -/
def State.takeEgress (s : State) (n : Nat) (p : NetPkt) (port vc now : Nat) : State :=
  let k := { p.pkt with vc := vc }
  match p.at_ with
  | .ingress e => (((s.dropPkt n).freeIngress e p).linkSend port k)
  | _ => ((if vc = p.vc then s else s.vcCount p now).noteEsc p vc).setPkt n { p with pkt := k, vc := vc, egress := some port }

/-- Choose the egress of a packet (R241 to R243). A port that retrains is not DOWN: the packet waits for it (R230). -/
def State.routeOut (s : State) (n : Nat) (p : NetPkt) (now : Nat) : State :=
  let k := p.pkt
  let drop : State → State := fun s =>
    match p.at_ with
    | .ingress e => ((s.dropPkt n).freeIngress e p).rtDrop 0x12C
    | _ => ((s.vcCount p now).dropPkt n).rtDrop 0x12C
  let note : State → Bool → State := fun s u => if u then s.wf (rtPg + 0x108) 30 30 1 else s
  if !s.idInside k.dmod then drop s
  else if p.vc = 1 then
    match s.bestPort k with
    | some q => s.takeEgress n p q 1 now
    | none =>
      match s.escPort p with
      | some (q, u) =>
        if s.portUp q ∧ pktUnits k ≤ (s.link q).credit 2 ∧ s.mayRevc p 2 then (note s u).takeEgress n p q 2 now else s
      | none => if (s.minimalPorts k).any s.portLive then s else drop s
  else
    match s.escPort p with
    | some (q, u) => (note s u).takeEgress n p q p.vc now
    | none => drop s

/-- FABRIC_ROUTE: the source region's die-mesh unit, or the transit switch, chooses the egress port of packet `n` of the
network (R240 to R243); at the source the packet takes its context's JOB, or is discarded (R245). With NCLK below 0.8 of ACLK the
package network is undefined (R409). -/
def execFabricRoute (n t : Nat) (s : State) : Host.Outcome State Fault Refusal :=
  let now := s.gen.base + 16 * t
  match s.net[n]? with
  | none => .next s
  | some p =>
    if !s.ratioOk then .fault .clockRatio else
    if p.pkt.dmod = s.myId ∨ p.egress.isSome ∨ p.pkt.type = 5 then .next s
    else
      match p.at_ with
      | .ingress _ => .next (s.routeOut n p now)
      | .mesh _ =>
        if p.pkt.type = 4 then .next (s.routeOut n p now)
        else
          match p.ctx with
          | none => .next (((s.vcCount p now).dropPkt n).rtDrop 0x128)
          | some c =>
            let a := rtPg + 0x180 + 4 * c
            if s.rf a 31 31 = 0 then .next (((s.vcCount p now).dropPkt n).rtDrop 0x128)
            else
              let k := { p.pkt with job := s.rf a 15 0 }
              let p := { p with pkt := k }
              .next ((s.setPkt n p).routeOut n p now)
      | _ => .next s

end Sys2Proof.Machine
end

