-- ==== Sys2Proof/Machine/Trees.lean ====
section
/-! DEFINITION. Trees and epochs (R250 to R264, R290): the entries of a tree, tree faults, multicast and reduction, and the
switch from one routing epoch to the next. -/

namespace Sys2Proof.Machine

/-! ### Entries (tree table pages, R251, R255) -/

/-- Bank and tree of a register address that is the first word of a tree entry. -/
def treeOf (a : Nat) : Option (Nat × Nat) :=
  let l := locOf a
  if l.module ∧ l.unit = 2 ∧ 64 ≤ l.page ∧ 0x100 ≤ l.off ∧ l.off % 32 = 0 ∧ l.off < 0x1000 then
    let b := (l.page - 64) / 64
    let t := (l.page - 64 - 64 * b) * 120 + (l.off - 0x100) / 32
    if b < 2 ∧ t < 4096 then some (b, t) else none
  else none

/-- The entry of a tree is in use. -/
def State.treeValid (s : State) (bank t : Nat) : Bool := decide (s.rf (treeAddr bank t) 31 31 = 1)

/-- Trees of a bank in use, in ascending order: only registers that differ from reset are listed. -/
def State.treesOf (s : State) (bank : Nat) : List Nat :=
  s.regs.filterMap (fun p => match treeOf p.1 with
    | some (b, t) => if b = bank ∧ s.treeValid b t then some t else none
    | none => none)

/-- This module is the root of a tree. -/
def State.treeRoot (s : State) (bank t : Nat) : Bool := decide (s.rf (treeAddr bank t) 30 30 = 1)

/-- CHILDREN ports of an entry. -/
def State.treeKids (s : State) (bank t : Nat) : List Nat :=
  (List.range 12).filter (fun p => decide (s.rf (treeAddr bank t) (14 + p) (14 + p) = 1))

/-- PARENT port of an entry, none at the root. -/
def State.treeParent (s : State) (bank t : Nat) : Option Nat :=
  if s.treeRoot bank t then none else some (s.rf (treeAddr bank t) 29 26)

/-- Every port of an entry. -/
def State.treePorts (s : State) (bank t : Nat) : List Nat := (s.treeParent bank t).toList ++ s.treeKids bank t

/-- Members: LREG × LBLK × LCORE without absent cores (R251). -/
def State.treeMembers (s : State) (bank t : Nat) : List Nat :=
  let a := treeAddr bank t
  let regs := (List.range 64).filter (fun r => decide (s.rd64 (a + 8) / 2 ^ r % 2 = 1))
  let blks := (List.range 8).filter (fun b => decide (s.rf (a + 16) (8 + b) (8 + b) = 1))
  let idx := (List.range 8).filter (fun c => decide (s.rf (a + 16) c c = 1))
  (regs.flatMap (fun r => blks.flatMap (fun b => idx.map (fun c => 64 * r + 8 * b + c)))).filter (fun gl => (s.physOf gl).isSome)

/-- Keys a tree receives: RKEYS, or 0 beyond the budget of 1,024 in ascending order (R255). -/
def State.treeKeys (s : State) (bank t : Nat) : Nat :=
  let used := ((s.treesOf bank).filter (fun u => decide (u ≤ t))).foldl (fun n u => n + s.rf (treeAddr bank u + 4) 9 0) 0
  if used ≤ 1024 then s.rf (treeAddr bank t + 4) 9 0 else 0

/-- The RKEYS of a bank exceed the reduce buffer (R255). -/
def State.keysOver (s : State) (bank : Nat) : Bool :=
  decide (1024 < (s.treesOf bank).foldl (fun n u => n + s.rf (treeAddr bank u + 4) 9 0) 0)

/-! ### Tree faults (R258 to R260, R267) -/

/-- Source page of a tree-engine record: region of the engine, module space, unit 0x02 (R419). -/
def treeSrc (region : Nat) : Nat := modAddr 2 (2048 + region) 0

/-- Header-only notice on VC3. -/
def State.sendNotice (s : State) (t e p : Nat) : State :=
  s.linkSend p { type := 6, vc := 3, epoch := e, tree := t, smod := s.myId, dmod := s.rf (fabPg p + 0x104) 12 0 }

/-- Mark a tree faulted in an epoch: notices, keys discarded, NOTE_BKL, record (R259). `port` is the port involved (0xF
none), `from_` the port a notice came by. -/
def State.treeFault (s : State) (t e cause port : Nat) (from_ : Option Nat) (cyc : Nat) : State :=
  if s.treeFaults.contains (t, e) then s
  else
    let s := { s with treeFaults := s.treeFaults ++ [(t, e)] }
    let outs := (s.treePorts e t).filter (fun p => s.portUp p && decide (some p ≠ from_))
    let s := outs.foldl (fun (s : State) p => s.sendNotice t e p) s
    let mine := s.keys.filter (fun k => decide (k.tree = t) && decide (k.epoch = e))
    let opid := match mine with | k :: _ => k.opid | [] => 0
    let s := { s with keys := s.keys.filter (fun k => !(decide (k.tree = t) && decide (k.epoch = e))) }
    let s := s.bklFault (s.rf (treeAddr e t + 4) 31 16) 9
    s.chipRec (treeSrc (s.treeRegion e t)) 2 0x22 cyc
      (BitVec.ofNat 64 (t + e * 2 ^ 12 + cause * 2 ^ 13 + port * 2 ^ 16 + opid * 2 ^ 20))

/-- Every tree of a live epoch that uses a port faults with cause 0 (R258). -/
def State.portTrees (s : State) (p cyc : Nat) : State :=
  s.liveEpochs.foldl (fun (s : State) e =>
    (s.treesOf e).foldl (fun (s : State) t => if (s.treePorts e t).contains p then s.treeFault t e 0 p none cyc else s) s) s

/-! ### Combining (R254, R290) -/

/-- The tree's maximum or minimum of two values: NaN when either is NaN, +0 above −0. -/
def treeMax (a b : FVal) : FVal :=
  if a.isNaN ∨ b.isNaN then .nan
  else if a.isZero ∧ b.isZero then (if a.isNeg then b else a)
  else if a.lt b then b else a

def treeMin (a b : FVal) : FVal :=
  if a.isNaN ∨ b.isNaN then .nan
  else if a.isZero ∧ b.isZero then (if a.isNeg then a else b)
  else if b.lt a then b else a

/-- The operation of a ROP: 1 sum, 2 max, 3 min. -/
def ropFn (rop : Nat) (a b : FVal) : FVal := match rop with | 2 => treeMax a b | 3 => treeMin a b | _ => a.add b

/-- Width of an element of a RFMT: 0 FP32, 1 BF16, 2 AX46 in slots of 48 bits. -/
def rfmtWidth (rfmt : Nat) : Nat := match rfmt with | 1 => 16 | 2 => 48 | _ => 32

/-- One combination of two elements, rounded once; the answer says whether an AX46 sum saturated. -/
def combineElem (rop rfmt x y : Nat) : Nat × Bool :=
  match rfmt with
  | 1 => ((fmtBF16.vround .rne (ropFn rop (fmtBF16.decode x) (fmtBF16.decode y))).1, false)
  | 2 =>
    let (v, f) := axEncode (ropFn rop (fmtAX46.decode (x % 2 ^ 46)) (fmtAX46.decode (y % 2 ^ 46)))
    (v.toNat, f.ovf)
  | _ => ((toF32 (ropFn rop (f32 (BitVec.ofNat 32 x)) (f32 (BitVec.ofNat 32 y)))).1.toNat, false)

/-- Rows an element touches. -/
def elemRows (w i : Nat) : List Nat := List.range' (w * i / 1024) ((w * i + w - 1) / 1024 - w * i / 1024 + 1)

/-- An element is present: none of its rows is void. -/
def elemHere (rows : List Entry) (w i : Nat) : Bool := (elemRows w i).all (fun r => (entAt rows r).isSome)

/-- All rows of a contribution as one number; void rows read 0. -/
def rowsNat (rows : List Entry) : Nat := (withIndex 0 rows).foldl (fun n p => n + (p.1.getD 0).toNat * 2 ^ (1024 * p.2)) 0

/-- Combine two contributions element by element: a void one acts as the identity (R254). -/
def combineRows (rop rfmt : Nat) (a b : List Entry) : List Entry × Nat :=
  let w := rfmtWidth rfmt
  let n := a.length
  let x := rowsNat a
  let y := rowsNat b
  let els := (List.range (1024 * n / w)).map (fun i =>
    let u := x / 2 ^ (w * i) % 2 ^ w
    let v := y / 2 ^ (w * i) % 2 ^ w
    if elemHere a w i then (if elemHere b w i then combineElem rop rfmt u v else (u, false)) else (v, false))
  let all := (withIndex 0 els).foldl (fun m p => m + p.1.1 * 2 ^ (w * p.2)) 0
  let rows := (List.range n).map (fun r =>
    if (entAt a r).isNone ∧ (entAt b r).isNone then (none : Entry) else some (BitVec.ofNat 1024 (all / 2 ^ (1024 * r))))
  (rows, (els.filter (fun e => e.2)).length)

/-- A packet with new rows, branded afresh; a key in which a check has failed sends inverted brands (R290). -/
def withRows (k : Packet) (rows : List Entry) (bad : Bool) : Packet :=
  let inv : Word → Word := fun b => if bad then b ^^^ 0xFFFFFFFF else b
  if rows.all Option.isNone then { k with void := true, payload := [], voidmask := 0, brand0 := 0, brand1 := 0 }
  else
    let u0 := rows.take 16
    let u1 := rows.drop 16
    { k with void := false, payload := rows.map (fun e => e.getD 0), voidmask := voidMask rows,
             brand0 := if u0.all Option.isNone then 0 else inv (unitBrand u0),
             brand1 := if u1.all Option.isNone then 0 else inv (unitBrand u1) }

/-- Units of a contribution whose brand fails (R287, R290). -/
def badUnits (k : Packet) : List Nat :=
  let rows := pktRows k
  let bad : List Entry → Word → Bool := fun u b => !(u.all Option.isNone) && decide (brandOf (u.filterMap id) ≠ b)
  (if bad (rows.take 16) k.brand0 then [0] else []) ++ (if bad (rows.drop 16) k.brand1 then [1] else [])

/-- BRAND_MISMATCH of a tree engine for some units of a contribution, with the context the flow table assigns (R289, R290). -/
def State.treeBrand (s : State) (k : Packet) (point cyc : Nat) (units : List Nat) : State :=
  units.foldl (fun (s : State) u =>
    s.chipRec (treeSrc (s.treeRegion k.epoch k.tree)) 2 0x05 cyc (brandSynd point u 0 0 k.smod 0) (s.flowCtx k.job)) s

/-- Rows of a combination as a datapath with some faults computes them; void rows carry nothing. -/
def faultyRows (w : Nat) (rows : List Entry) (fs : List CombFault) : List Entry :=
  let v := fs.foldl (fun v f => Nat.xor v (f.flip.toNat % 2 ^ w * 2 ^ (w * f.elem))) (rowsNat rows)
  (withIndex 0 rows).map (fun p => p.1.map (fun _ => BitVec.ofNat 1024 (v / 2 ^ (1024 * p.2))))

/-- The combination in both datapaths of a region's tree engine (R290): the rows of the first, how many AX46 sums saturated, the units in
which the two disagree, and the state without the faults that have passed. -/
def State.combine (s : State) (region rop rfmt : Nat) (a b : List Entry) : List Entry × Nat × List Nat × State :=
  let (rows, sat) := combineRows rop rfmt a b
  let w := rfmtWidth rfmt
  let here := s.combFaults.filter (fun f => decide (f.region = region) && decide (w * f.elem < 1024 * rows.length))
  let x := faultyRows w rows (here.filter (fun f => !f.second))
  let y := faultyRows w rows (here.filter (fun f => f.second))
  let bad := (if x.take 16 = y.take 16 then [] else [0]) ++ (if x.drop 16 = y.drop 16 then [] else [1])
  (x, sat, bad, { s with combFaults := s.combFaults.filter (fun f => !(f.once && here.contains f)) })

/-! ### TREE packets (R252, R253) -/

/-- Take a tree packet away from where it waits; units of a link's input buffer are freed (R226). -/
def State.takeTree (s : State) (n : Nat) (p : NetPkt) : State :=
  let s := s.takeArrival n
  match p.at_ with
  | .ingress e => s.freeIngress e p
  | _ => s

/-- Send a packet down: to every child and every member (R251, R252). -/
def State.sendDown (s : State) (p : NetPkt) (k : Packet) : State :=
  let e := k.epoch
  let k := { k with down := true, vc := 3 }
  let s := (s.treeKids e k.tree).foldl (fun (s : State) c => s.linkSend c { k with dmod := s.rf (fabPg c + 0x104) 12 0 }) s
  let r := s.treeRegion e k.tree
  let local_ := (s.treeMembers e k.tree).map (fun gl =>
    ({ pkt := { k with dmod := s.myId, dcore := gl }, at_ := .local_ r, vc := 3, ctx := p.ctx, fabric := p.fabric } : NetPkt))
  { s with net := s.net ++ local_ }

/-- Send a packet up, or down when this module is the root. -/
def State.sendUp (s : State) (p : NetPkt) (k : Packet) : State :=
  match s.treeParent k.epoch k.tree with
  | some q => s.linkSend q { k with down := false, vc := 3, dmod := s.rf (fabPg q + 0x104) 12 0 }
  | none => s.sendDown p k

/-- The contributor bit of a packet: a port, or 16 and the local core (R253). -/
def NetPkt.contributor (p : NetPkt) : Nat := match p.at_ with | .ingress e => e | _ => 16 + p.pkt.score

/-- Every contributor of a key has been heard (R253). -/
def State.keyDone (s : State) (k : TreeKey) : Bool :=
  (s.treeKids k.epoch k.tree).all k.from_.contains
    && (decide (s.rf (treeAddr k.epoch k.tree) 13 13 = 0) || (s.treeMembers k.epoch k.tree).all (fun gl => k.from_.contains (16 + gl)))

/-- A key that is complete leaves: up as one packet, or down from the root; otherwise it stays (R253). -/
def State.keySettle (s : State) (p : NetPkt) (x : TreeKey) : State :=
  let rest := s.keys.filter (fun k => !(decide (k.tree = x.tree) && decide (k.epoch = x.epoch) && decide (k.opid = x.opid) && decide (k.doff = x.doff)))
  if s.keyDone x then { s with keys := rest }.sendUp p { x.pkt with smod := s.myId }
  else { s with keys := rest ++ [x] }

/-- A contribution to a reduction (R253 to R255). `none`: it waits for a key. -/
def State.contribute (s : State) (n : Nat) (p : NetPkt) (cyc : Nat) : Option State :=
  let k := p.pkt
  let c := p.contributor
  let port := match p.at_ with | .ingress e => e | _ => 0xF
  match s.keys.find? (fun x => decide (x.tree = k.tree) && decide (x.epoch = k.epoch) && decide (x.opid = k.opid) && decide (x.doff = k.doff)) with
  | some x =>
    let s := s.takeTree n p
    if x.from_.contains c then some (s.rtDrop 0x120)
    else if x.pkt.rows ≠ k.rows ∨ x.pkt.rop ≠ k.rop ∨ x.pkt.rfmt ≠ k.rfmt then some (s.treeFault k.tree k.epoch 2 port none cyc)
    else
      let s := s.treeBrand k 4 cyc (badUnits k)
      let (rows, sat, differ, s) := s.combine (s.treeRegion k.epoch k.tree) k.rop k.rfmt (pktRows x.pkt) (pktRows k)
      let s := (s.treeBrand k 5 cyc differ).bump (rtPg + 0x13C) 15 0 sat
      let bad := x.bad || decide (badUnits k ≠ []) || decide (differ ≠ [])
      some (s.keySettle p { x with pkt := withRows x.pkt rows bad, from_ := x.from_ ++ [c], bad := bad })
  | none =>
    let open_ := (s.keys.filter (fun x => decide (x.tree = k.tree) && decide (x.epoch = k.epoch))).length
    let have_ := s.treeKeys k.epoch k.tree
    if have_ = 0 then some ((s.takeTree n p).treeFault k.tree k.epoch 3 port none cyc)
    else if have_ ≤ open_ then none
    else
      let s := (s.takeTree n p).treeBrand k 4 cyc (badUnits k)
      let bad := decide (badUnits k ≠ [])
      let x : TreeKey := { tree := k.tree, epoch := k.epoch, opid := k.opid, doff := k.doff,
                           pkt := withRows k (pktRows k) bad, from_ := [c], bad := bad }
      some (s.keySettle p x)

/-- An epoch bit that no bank in use has: retired and not armed for activation (R263). -/
def State.epochGone (s : State) (e : Nat) : Bool :=
  decide (e ≠ s.epoch) && decide (s.rf (rtPg + 0x108) 28 28 = 0) && decide (s.rf (rtPg + 0x108) 29 29 = 0)

/-- The packet is at the head of the VC3 buffer it came by: a contribution that waits for a key holds those behind it (R255). -/
def State.treeHead (s : State) (n : Nat) (p : NetPkt) : Bool := decide (s.arrived.findIdx? (·.sameTreeBuf p) = some n)

/-- A local TSEND whose tree leaves the module needs its context's flow table entry, and a packet from the fabric one of its JOB (R245). -/
def State.treeJobless (s : State) (p : NetPkt) : Bool :=
  match p.at_ with
  | .ingress _ => (s.flowCtx p.pkt.job).isNone
  | .local_ _ =>
    !(s.treePorts p.pkt.epoch p.pkt.tree).isEmpty
      && (match p.ctx with | some c => decide (s.rf (rtPg + 0x180 + 4 * c) 31 31 = 0) | none => true)
  | _ => false

/-- What the tree engine does with the `n`-th arrived packet, a TREE packet (R250 to R255). -/
def State.treeStep (s : State) (n : Nat) (p : NetPkt) (cyc : Nat) : State :=
  let k := p.pkt
  if !s.treeHead n p then s
  else if s.epochGone k.epoch then (s.takeTree n p).rtDrop 0x130
  else if s.treeFaults.contains (k.tree, k.epoch) then (s.takeTree n p).treeDrop
  else if !s.treeValid k.epoch k.tree then s.takeTree n p
  else if s.treeJobless p then (s.takeTree n p).rtDrop 0x128
  else if k.down then (s.takeTree n p).sendDown p k
  else if k.rop = 0 then (s.takeTree n p).sendUp p k
  else (s.contribute n p cyc).getD s

/-- TREE: a TREE packet reaches the tree engine (R252, R253). -/
def execTree (n t : Nat) (s : State) : Host.Outcome State Fault Refusal :=
  match s.arrival n [5] with
  | none => .next s
  | some p => if p.coreOf.isSome then .next s else .next (s.treeStep n p (tclkCycle t))

/-- KEY_WAIT_RESUME: a contribution that waited at the head of its VC3 buffer for a key of its tree is taken up (R255). -/
def execKeyWaitResume (n t : Nat) (s : State) : Host.Outcome State Fault Refusal :=
  match s.arrival n [5] with
  | none => .next s
  | some p => if p.coreOf.isSome ∨ p.pkt.down ∨ p.pkt.rop = 0 then .next s else .next (s.treeStep n p (tclkCycle t))

/-- TREE_NOTICE: an arriving notice marks the tree with cause 1 and floods on (R258, R259). -/
def execTreeNotice (n t : Nat) (s : State) : Host.Outcome State Fault Refusal :=
  match s.arrival n [6] with
  | none => .next s
  | some p =>
    if !s.treeHead n p then .next s else
    let k := p.pkt
    let s := s.takeTree n p
    if s.epochGone k.epoch then .next (s.rtDrop 0x130)
    else if !s.treeValid k.epoch k.tree then .next s
    else
      let port := match p.at_ with | .ingress e => e | _ => 0xF
      .next (s.treeFault k.tree k.epoch 1 port (some port) (tclkCycle t))

/-! ### The generator page (R36) -/

def genPg : Nat := modAddr 0 0 0
/-- STROKE_STAT: 9 AT_IGN, 8 AT_MISSED, 7 TRIM_LIMIT, 6 ACQUIRING, 5 LOCKED, 4 CLAMPED, 3 SRC_LOST, 2 COMMIT_PEND,
[1:0] SRC_ACTIVE. -/
def genStat : Nat := genPg + 0x118
def State.genBit (s : State) (n : Nat) : Bool := decide (s.rf genStat n n = 1)
def State.setGenBit (s : State) (n : Nat) (b : Bool) : State := s.wf genStat n n (bit b)
def State.srcActive (s : State) : Nat := s.rf genStat 1 0

/-- This module disciplines to the girth and is not its root (R281). -/
def State.girthChild (s : State) : Bool := !(s.girth s.epoch).root

/-- PATH_LOCKED as sent to children: own LOCKED and the parent's, the root's own alone (R283). -/
def State.pathLocked (s : State) : Bool := s.genBit 5 && (!s.girthChild || s.time.parentLocked)

/-- Follow PATH_LOCKED: its fall under girth discipline sets SKEW_LOST and is recorded (R283). -/
def State.followPath (s : State) (t : Nat) : State :=
  let a := girthPg + 0x100
  let was := decide (s.rf a 30 30 = 1)
  let now := s.pathLocked
  let s := s.wf a 30 30 (bit now)
  if now then s.wf a 31 31 0
  else if was ∧ s.srcActive = 1 then
    (s.wf a 31 31 1).chipRec genPg 1 0x24 (tclkCycle t) (BitVec.ofNat 64 (1 + s.time.sender * 16))
  else s

/-- A module whose girth role changes while SRC_ACTIVE = 0b01, at an activation or by a write of its identity: a new root is its own reference, with STROKE_PHASE 0 and
LOCKED 1 (R281); a new child has no reference boundary yet, so LOCKED clears and the 64 strokes of R39 begin (log entry 63). -/
def State.rootChanged (s : State) (wasRoot : Bool) (t : Nat) : State :=
  let isRoot := !s.girthChild
  let s :=
    if s.srcActive ≠ 1 ∨ isRoot = wasRoot then s
    else
      let g := { s.gen with extend := none, acquired := false, phases := [], girthSilent := 0, exchanged := true }
      let s := { ((s.setGenBit 5 isRoot).setGenBit 6 false) with gen := g }
      if isRoot then (s.setGenBit 7 false).wr (genPg + 0x11C) 0 else s
  s.followPath t

/-! ### Epochs (R261 to R263) -/

/-- GIRTH_STAT fields of the current epoch's girth tree. -/
def State.girthRegs (s : State) : State :=
  let g := s.girth s.epoch
  let a := girthPg + 0x100
  let s := (s.wf a 29 29 (bit g.root)).wf a 15 12 g.parent
  s.wf a 27 16 (g.children.foldl (fun n p => n + 2 ^ p) 0)

/-- Compute the girth tree of a bank anew (R277). -/
def State.girthRenew (s : State) (bank : Nat) : State :=
  let g := s.girthCompute bank
  (if bank = 0 then { s with girth0 := g } else { s with girth1 := g }).girthRegs

/-- A write of EP_CTL; ARM = 1 arms the activation at EP_AT unless one is armed or draining (R262). -/
def State.epCtl (s : State) (val : Word) : State :=
  let s := s.wf (rtPg + 0x110) 15 0 (fld val 15 0)
  let st := rtPg + 0x108
  if fld val 31 31 = 0 ∨ s.rf st 29 29 = 1 ∨ s.rf st 28 28 = 1 then s
  else (s.wf st 29 29 1).wf st 27 27 (bit (decide (s.rd64 (rtPg + 0x114) % 2 ^ 40 ≤ s.stroke)))

/-- Trees of a bank that use a port that is DOWN fault at activation with cause 0 (R258, R264). -/
def State.activationFaults (s : State) (e cyc : Nat) : State :=
  (s.treesOf e).foldl (fun (s : State) t =>
    match (s.treePorts e t).find? (fun p => decide (s.portState p = 0)) with
    | some p => s.treeFault t e 0 p none cyc
    | none => s) s

/-- EPOCH_RETIRE: the old banks retire at the boundary that begins stroke EP_AT + EP_DRAIN; trees with open keys of the
old epoch fault with cause 4, and the marks of that epoch end with it (R258, R260, R263). -/
def execEpochRetire (t : Nat) (s : State) : Host.Outcome State Fault Refusal :=
  let st := rtPg + 0x108
  match s.epRetire with
  | none => .next s
  | some k =>
    if s.rf st 28 28 = 0 ∨ s.stroke < k then .next s
    else
      let old := 1 - s.epoch
      let ts := ((s.keys.filter (fun x => decide (x.epoch = old))).map (·.tree)).dedup
      let s := ts.foldl (fun (s : State) t' => s.treeFault t' old 4 0xF none (tclkCycle t)) s
      .next { s.wf st 28 28 0 with epRetire := none, treeFaults := s.treeFaults.filter (fun x => decide (x.2 ≠ old)) }

end Sys2Proof.Machine
end

