-- ==== Sys2Proof/Machine/Fabric.lean ====
section
/-! DEFINITION. Fabric ports and links (R214 to R237, R257): what arrives on a link, acknowledgement and replay, training and
retraining, and a port going down. -/

namespace Sys2Proof.Machine

/-! ### Errors of a port (R233) -/

/-- An error source of the fabric-port unit: 0 FEC_CE, 1 FEC_UE, 2 CRC, 3 REPLAY, 4 RETRAIN, 5 LANE_LOST, 6 DOWN. Only
corrected codewords and replays count as CE, only DOWN counts as UE. -/
def State.fabErr (s : State) (src cls cyc : Nat) (synd : BitVec 64) : State :=
  let pg := fabPg 0
  let s := s.capture pg src (if src = 6 then 2 else 0) cls cyc synd
  s.countErr pg src (if src = 0 ∨ src = 3 then 0 else if src = 6 then 2 else 1)

/-- What the FEC decoder has counted: corrected codewords count as CE, and none of it emits a record (R233). -/
def State.fecNoted (s : State) (p : Nat) (f : FecCount) (cyc : Nat) : State :=
  let s := (s.bump (fabPg p + 0x11C) 31 0 f.corr).bump (fabPg p + 0x120) 31 0 f.unc
  let s := (withIndex 0 f.sym).foldl (fun (s : State) x => s.bump (fabPg p + 0x140 + 4 * x.2) 31 0 x.1) s
  let s := if f.unc = 0 then s else s.fabErr 1 0x7F cyc 1
  (List.range f.corr).foldl (fun (s : State) _ => s.fabErr 0 0x7F cyc 0) s

/-- A packet or block that fails its CRC (R220, R222). -/
def State.crcFail (s : State) (p cyc : Nat) : State := (s.bump (fabPg p + 0x118) 31 0 1).fabErr 2 0x7F cyc 2

/-! ### Reception (R220 to R224, R226) -/

/-- Send a control block. -/
def State.sendBlock (s : State) (p body : Nat) : State := s.send (.block p (mkBlock body))

/-- Send an ACK of everything received in order (R222). -/
def State.sendAck (s : State) (p : Nat) : State :=
  let l := s.link p
  (s.setLink p { l with pendAck := 0 }).sendBlock p (2 + (l.rx + 4095) % 4096 * 2 ^ 8)

/-- Discard a packet and send one NAK with the expected SEQ (R222). -/
def State.sendNak (s : State) (p : Nat) : State :=
  let l := s.link p
  if l.naked then s else (s.setLink p { l with naked := true }).sendBlock p (3 + l.rx * 2 ^ 8)

/-- An accepted packet enters the router: to the tree engine or girth engine, or on its way (R238, R240, R263). -/
def State.rxDeliver (s : State) (p : Nat) (k : Packet) : State :=
  if !typeKnown k then (s.freeUnits p k).rtDrop 0x12C
  else if s.epochGone k.epoch then (s.freeUnits p k).rtDrop 0x130
  else
    let x : NetPkt := { pkt := k, at_ := .ingress p, vc := k.vc, fabric := true }
    if k.type = 5 ∨ k.type = 6 ∨ k.type = 8 then s.arrive x else { s with net := s.net ++ [x] }

/-- Accept the packet that was expected; an ACK after every 8 (R222). -/
def State.rxAccept (s : State) (p : Nat) (k : Packet) : State :=
  let l := s.link p
  let s := s.setLink p { l with rx := (l.rx + 1) % 4096, naked := false, pendAck := l.pendAck + 1 }
  let s := s.rxDeliver p k
  if 8 ≤ l.pendAck + 1 then s.sendAck p else s

/-- Ports by which the head of an arriving packet has left, if it had: the egress of a packet in transit, in its channel, or the children
and the parent of a tree whose packets pass through (R208, R240 to R242, R252, R256); a contribution to a reduction is combined, and one
for this module has no outgoing copy. -/
def State.throughPorts (s : State) (p : Nat) (k : Packet) : List (Nat × Nat) :=
  if k.type = 5 then
    if !s.treeValid k.epoch k.tree ∨ s.treeDead k = true then []
    else if k.down then (s.treeKids k.epoch k.tree).map (·, 3)
    else if k.rop = 0 then (match s.treeParent k.epoch k.tree with | some q => [(q, 3)] | none => (s.treeKids k.epoch k.tree).map (·, 3))
    else []
  else if k.dmod = s.myId ∨ !typeKnown k then []
  else
    match (if k.vc = 1 then s.bestPort k else none) with
    | some q => [(q, 1)]
    | none =>
      match s.escPort { pkt := k, at_ := .ingress p, vc := k.vc, fabric := true } with
      | some (q, _) => [(q, if k.vc = 1 then 2 else k.vc)]
      | none => []

/-- The outgoing copies of a packet that fails its CRC, or that comes stomped itself, when its head had already left by virtual
cut-through: each ends with STOMP = 1 and the CRC inverted, without a SEQ of the outgoing link (R224). -/
def State.stompCopy (s : State) (p : Nat) (k : Packet) : State :=
  (s.throughPorts p k).foldl (fun (s : State) q =>
    let k := { k with vc := q.2 }
    if s.portUp q.1 then s.send (.packet q.1 (s.link q.1).tx k true (trailerOf k (s.link q.1).tx true)) else s) s

/-- LINK_PACKET_RX: a packet and its trailer arrive (R220 to R224). A packet with the expected SEQ ends the silence after a NAK, also
when its CRC fails (R222, log entry 43). A block of another TYPE is no trailer: it is discarded without being counted, and the packet
is not accepted (R220). `through` says that the head of a packet had left again before its tail came (R224). -/
def execLinkPacketRx (port : Nat) (pkt : Packet) (trailer : BitVec 256) (fec : FecCount) (through : Bool) (t : Nat) (s : State) :
    Host.Outcome State Fault Refusal := inRange (.linkPacketRx port pkt trailer fec through t) <|
  if !s.portUp port then .next s
  else
    let cyc := tclkCycle t
    let s := s.fecNoted port fec cyc
    let stomped : State → State := fun s => if through then s.stompCopy port pkt else s
    let fail : State → State := fun s => (stomped s).crcFail port cyc
    if !blockOk trailer then .next ((fail s).sendNak port)
    else if blk trailer 7 0 ≠ 1 then .next s
    else if blk trailer 23 23 = 1 then .next ((stomped s).bump (fabPg port + 0x124) 31 16 1)
    else
      let seq := blk trailer 19 8
      let l := s.link port
      let d := (seq + 4096 - l.rx) % 4096
      if blk trailer 63 32 ≠ pktCrc pkt then
        .next ((fail (s.setLink port { l with naked := l.naked && decide (d ≠ 0) })).sendNak port)
      else if d = 0 then .next (s.rxAccept port pkt)
      else if 2048 ≤ d then .next ((s.bump (fabPg port + 0x124) 15 0 1).sendAck port)
      else .next (s.sendNak port)

/-- A block of one type, with its CRC checked (R220). -/
def State.onBlock (s : State) (p type t : Nat) (b : BitVec 256) (f : State → State) : State :=
  if !s.portUp p then s else if !blockOk b then s.crcFail p (tclkCycle t) else if blk b 7 0 = type then f s else s

/-- Free everything up to and including a SEQ, if it is unacknowledged (R222). -/
def FabLink.acked (l : FabLink) (seq : Nat) : FabLink :=
  if l.unacked.any (fun x => decide (x.1 = seq)) then
    { l with unacked := (l.unacked.dropWhile (fun x => decide (x.1 ≠ seq))).drop 1 }
  else l

/-- ACK (R222, R223). -/
def execAck (port : Nat) (block : BitVec 256) (t : Nat) (s : State) : Host.Outcome State Fault Refusal := inRange (.ack port block t) <|
  .next (s.onBlock port 2 t block (fun s => (s.setLink port ((s.link port).acked (blk block 19 8))).linkGo port))

/-- CREDIT (R226). -/
def execCredit (port : Nat) (block : BitVec 256) (t : Nat) (s : State) : Host.Outcome State Fault Refusal := inRange (.credit port block t) <|
  .next (s.onBlock port 4 t block (fun s =>
    let l := s.link port
    (s.setLink port { l with freedSeen := (List.range 5).map (fun v => blk block (16 * v + 23) (16 * v + 8)) }).linkGo port))

/-- LINK_ACK_TIMER: while packets are unacknowledged, an ACK within 32 ns (R222). -/
def execLinkAckTimer (port : Nat) (s : State) : Host.Outcome State Fault Refusal := inRange (.linkAckTimer port) <|
  if s.portUp port ∧ 0 < (s.link port).pendAck then .next (s.sendAck port) else .next s

/-- CREDIT_TIMER: while a total has changed, a CREDIT block within 32 ns (R226). -/
def execCreditTimer (port : Nat) (s : State) : Host.Outcome State Fault Refusal := inRange (.creditTimer port) <|
  let l := s.link port
  if s.portUp port ∧ l.freed ≠ l.freedTold then
    .next ((s.setLink port { l with freedTold := l.freed }).sendBlock port
      (4 + packFields ((0, 8) :: l.freed.map (fun n => (n, 16)))))
  else .next s

/-! ### Replay (R223, R229, R234) -/

/-- LINK_REPLAY once per window at REP_THRESH (R234). -/
def State.replayRecord (s : State) (p seq cyc : Nat) : State :=
  let l := s.link p
  let th := (s.rd (fabPg p + 0x130)).toNat
  if th ≠ 0 ∧ th ≤ l.winReps ∧ !l.winDone then
    (s.setLink p { l with winDone := true }).srcRec (fabPg p) 3 0 0x20 cyc (BitVec.ofNat 64 (p + seq * 2 ^ 20 + l.winReps * 2 ^ 32))
  else s

/-- Training sequences of a port carry its module ID, its number and the SEQ it expects (R218, R230). -/
def State.sendTraining (s : State) (p : Nat) : State := s.send (.training p s.myId p (s.link p).rx)

/-- Begin a retrain: RETRAINING, counted, sender stopped, own identity and expected SEQ sent (R229, R230). -/
def State.startRetrain (s : State) (p cyc : Nat) : State :=
  (((s.wf (fabPg p + 0x100) 31 28 4).bump (fabPg p + 0x128) 31 0 1).fabErr 4 0x7F cyc 4).sendTraining p

/-- A retrain that lane loss or FEC triggers cuts the packet in transmission short (R230). -/
def State.cutPacket (s : State) (p : Nat) (cut : Bool) : State := if cut then s.send (.cut p) else s

/-- Retransmit every unacknowledged packet from a SEQ, in order. -/
def State.resendFrom (s : State) (p seq : Nat) : State :=
  ((s.link p).unacked.dropWhile (fun x => decide (x.1 ≠ seq))).foldl (fun (s : State) x => s.send (.packet p x.1 x.2 false (trailerOf x.2 x.1 false))) s

/-- Bytes that a replay in progress has sent by a time in 1/16 ns: 200 GB/s at ×8, 100 GB/s at ×4 (R216). -/
def State.replayed (s : State) (p start now : Nat) : Nat := (now - start) * (if s.portState p = 3 then 100 else 200) / 16

/-- A replay begins in this same cycle, or is still under way and has not yet resent a SEQ: a trigger that names it is one with it
(R223). -/
def State.replaying (s : State) (p seq now : Nat) : Bool :=
  let l := s.link p
  match l.replayAt with
  | none => false
  | some t =>
    let ahead := (l.unacked.dropWhile (fun x => decide (x.1 ≠ l.replayFrom))).takeWhile (fun x => decide (x.1 ≠ seq))
    let upTo := ahead.foldl (fun n x => n + 64 * pktUnits x.2) 0
      + ((l.unacked.find? (fun x => decide (x.1 = seq))).map (fun x => 64 * pktUnits x.2)).getD 0
    decide (t = now) || (decide (t < now) && (l.unacked.dropWhile (fun x => decide (x.1 ≠ l.replayFrom))).any (fun x => decide (x.1 = seq))
      && decide (s.replayed p t now < upTo))

/-- One replay from a SEQ that is unacknowledged; the fourth in a row from one SEQ starts a retrain (R223, R229). -/
def State.replay (s : State) (p seq t : Nat) : State :=
  let l := s.link p
  let now := s.gen.base + 16 * t
  let cyc := tclkCycle t
  if !l.unacked.any (fun x => decide (x.1 = seq)) || s.replaying p seq now then s
  else
    let same := if l.lastReplay = some seq then l.sameReplay + 1 else 1
    let s := s.setLink p { l with lastReplay := some seq, sameReplay := same, replayAt := some now, replayFrom := seq, winReps := l.winReps + 1 }
    let s := (s.bump (fabPg p + 0x114) 31 0 1).fabErr 3 0x20 cyc (BitVec.ofNat 64 (p + seq * 2 ^ 20))
    let s := s.replayRecord p seq cyc
    if 4 ≤ same then s.startRetrain p cyc else s.resendFrom p seq

/-- NAK: a replay from the named SEQ (R223). -/
def execNak (port : Nat) (block : BitVec 256) (t : Nat) (s : State) : Host.Outcome State Fault Refusal := inRange (.nak port block t) <|
  .next (s.onBlock port 3 t block (fun s => s.replay port (blk block 19 8) t))

/-- REPLAY_TIMEOUT: no ACK has advanced for REPLAY_TO: a replay from the oldest SEQ (R223). -/
def execReplayTimeout (port t : Nat) (s : State) : Host.Outcome State Fault Refusal := inRange (.replayTimeout port t) <|
  match (s.link port).unacked with
  | x :: _ => if s.portUp port then .next (s.replay port x.1 t) else .next s
  | [] => .next s

/-! ### A port going down (R231, R257, R279) -/

/-- SYND of LINK_DOWN of a fabric port (R234). -/
def State.downSynd (s : State) (p kind cause : Nat) : BitVec 64 :=
  BitVec.ofNat 64 (p + kind * 2 ^ 4 + cause * 2 ^ 8 + s.rf (fabPg p + 0x100) 27 20 * 2 ^ 12 + s.rf (fabPg p + 0x128) 11 0 * 2 ^ 20
    + s.rf (fabPg p + 0x104) 12 0 * 2 ^ 32)

/-- One packet handed back to the router (R257). -/
def State.handBack (s : State) (p cyc : Nat) (k : Packet) : State :=
  match k.vc with
  | 0 =>
    match (s.candidates k).find? (fun q => decide (q ≠ p) && decide (pktUnits k ≤ (s.link q).credit 0)) with
    | some q => s.linkSend q k
    | none => s.rtDrop 0x138
  | 3 => if k.type = 5 then s.treeFault k.tree k.epoch 0 p none cyc else s
  | _ =>
    let x : NetPkt := { pkt := { k with vc := 1 }, at_ := .ingress p, from_ := 7, vc := 1, fabric := true }
    { s with net := s.net ++ [x] }

/-- The girth trees after a change of the links; with both parent rails DOWN, open barriers complete with FAULT (R277,
R279). -/
def State.linksChanged (s : State) : State :=
  let s := s.liveEpochs.foldl (fun (s : State) e => s.girthRenew e) s
  if s.parentLost then s.parentDown else s

/-- Packets in the input buffers of a port are moved out of them (R230, R231). -/
def State.emptyInputs (s : State) (p : Nat) : State :=
  let mark : NetPkt → NetPkt := fun x => if x.at_ = .ingress p then { x with from_ := 7 } else x
  { s with net := s.net.map mark, arrived := s.arrived.map mark }

/-- A port goes DOWN: 0 retrain failures, 1 signal, 2 control blocks, 3 lanes, 4 miswire (R231, R257). -/
def State.portDown (s : State) (p cause cyc : Nat) : State :=
  if s.portState p = 0 ∨ s.portState p = 5 then s
  else
    let l := s.link p
    let s := (s.wf (fabPg p + 0x100) 31 28 0).wf (fabPg p + 0x100) 19 12 0
    let synd := s.downSynd p 0 cause
    let s := (s.fabErr 6 0x21 cyc synd).srcRec (fabPg p) 6 2 0x21 cyc synd
    let s := (s.setLink p { winReps := l.winReps, winDone := l.winDone }).emptyInputs p
    let s := s.portTrees p cyc
    let s := (l.unacked.map (·.2) ++ l.waiting).foldl (fun (s : State) k => s.handBack p cyc k) s
    s.linksChanged

/-- Cause code of LINK_DOWN. -/
def downCode (c : DownCause) : Nat := match c with | .retrain => 0 | .signal => 1 | .control => 2 | .lanes => 3 | .miswire => 4

/-- LINK_DOWN: a loss of signal or of lanes leaves `good` of the good lanes (R231, R234, R257). -/
def execLinkDown (port : Nat) (cause : DownCause) (good : BitVec 8) (t : Nat) (s : State) : Host.Outcome State Fault Refusal := inRange (.linkDown port cause good t) <|
  let a := fabPg port + 0x100
  let s := if s.portLive port ∧ (cause = .signal ∨ cause = .lanes) then s.wf a 27 20 (Nat.land (s.rf a 27 20) good.toNat) else s
  .next (s.portDown port (downCode cause) (tclkCycle t))

/-- CONTROL_BLOCK_TIMEOUT: no valid control block for more than 1 µs (R231). -/
def execControlBlockTimeout (port t : Nat) (s : State) : Host.Outcome State Fault Refusal := inRange (.controlBlockTimeout port t) <|
  if s.portUp port then .next (s.portDown port 2 (tclkCycle t)) else .next s

/-! ### Training and retraining (R217, R218, R230, R232, R237) -/

/-- Lanes of a mask in ascending order. -/
def lanesOf (m : Nat) : List Nat := (List.range 8).filter (fun i => decide (m / 2 ^ i % 2 = 1))

/-- A mask of lanes. -/
def laneMask (ls : List Nat) : Nat := ls.foldl (fun n i => n + 2 ^ i) 0

/-- Good lanes: not excluded by LANE_DIS or by link qualification (R217). -/
def State.goodLanes (s : State) (p : Nat) (good : BitVec 8) : List Nat :=
  (lanesOf good.toNat).filter (fun i =>
    decide (s.rf (fabPg p + 0x10C) i i = 0) && decide ((Tbl.get 0 s.flash.laneDis p) / 2 ^ i % 2 = 0))

/-- Lanes in use of a set of good lanes: all 8, the four lowest of 4 to 7 when X4_EN allows it, else none (R217). -/
def State.useLanes (s : State) (p : Nat) (good : List Nat) : List Nat :=
  if good.length = 8 then good
  else if 4 ≤ good.length ∧ s.rf (fabPg p + 0x108) 8 8 = 1 then good.take 4
  else []

/-- The peer's ID fits the torus: the expected neighbour, in a dimension of more than one module (R237). -/
def State.peerFits (s : State) (p id : Nat) : Bool :=
  decide (1 < s.dimN (portDim p)) && decide (id = s.neighbour s.myId (portDim p) (portPlus p))

/-- Full buffers again on both sides, and nothing NAKed (R226, R230). -/
def FabLink.freshCredit (l : FabLink) : FabLink :=
  let z := [0, 0, 0, 0, 0]
  { l with sent := z, freedSeen := z, freed := z, freedTold := z, naked := false, lastReplay := none, sameReplay := 0, replayAt := none }

/-- Step 5 of a retrain: packets before the peer's expected SEQ are acknowledged, the others are sent again (R230). -/
def State.resume (s : State) (p exp : Nat) : State :=
  let l := s.link p
  let keep := l.unacked.dropWhile (fun x => decide (x.1 ≠ exp))
  let l := { l.freshCredit with unacked := keep }
  let l := keep.foldl (fun (l : FabLink) x => { l with sent := l.sent.set x.2.vc ((l.sent.getD x.2.vc 0 + pktUnits x.2) % 2 ^ 16) }) l
  ((s.setLink p l).resendFrom p exp).linkGo p

/-- The port comes up on its lanes with a checked peer: `fresh` after a full training. At ×4 after a retrain it records
LINK_DOWN with KIND 1 (R217, R232, R234). -/
def State.portUpNow (s : State) (p : Nat) (use : List Nat) (exp : Nat) (fresh : Bool) (cyc : Nat) : State :=
  let x4 := decide (use.length = 4)
  let a := fabPg p + 0x100
  let s := ((s.wf a 31 28 (if x4 then 3 else 2)).wf a 19 12 (laneMask use)).wf a 11 9 0
  let s := s.wf (rtPg + 0x10C) p p 0
  let s := if x4 ∧ !fresh then s.srcRec (fabPg p) 6 0 0x21 cyc (s.downSynd p 1 0) else s
  let s := if fresh then (s.setLink p { (s.link p).freshCredit with tx := 0, rx := 0, unacked := [], pendAck := 0 }).linkGo p
    else s.resume p exp
  s.linksChanged

/-- A training or retrain that has completed: lanes, pairing, and the peer's ID (R217, R218, R237). -/
def State.trainDone (s : State) (p : Nat) (r : TrainResult) (fresh : Bool) (cyc : Nat) : State :=
  let a := fabPg p + 0x100
  let good := s.goodLanes p r.good
  let use := s.useLanes p good
  let s := (s.wf a 27 20 (laneMask good)).emptyInputs p
  if use.isEmpty then (if fresh then s.wf a 31 28 0 else s.portDown p 3 cyc)
  else
    let s := s.wr (fabPg p + 0x104) (BitVec.ofNat 32 (2 ^ 31 + r.peerPort % 16 * 2 ^ 13 + r.peerId % 2 ^ 13))
    if r.peerPort ≠ oppPort p then
      let s := s.wf a 9 9 1
      if fresh then s.wf a 31 28 0 else s.portDown p 4 cyc
    else if !s.peerFits p r.peerId then ((s.wf (rtPg + 0x10C) p p 1).wf a 9 9 0).portDown p 4 cyc
    else s.portUpNow p use r.peerExp fresh cyc

/-- Quexon and fabric lanes are in electrical idle: without main power, in steps 1 to 7 of a cold bring-up, and after one that failed
(R330, R433). -/
def State.lanesIdle (s : State) : Bool :=
  let st := modPg 0 1 + 0x100
  !s.aon.powered || decide (s.rf st 30 30 = 1) || (s.aon.booting && decide (s.rf st 29 29 = 0) && decide (s.rf st 27 24 < 8))

/-- A retrain of a port that is up, or a full training of one that is DOWN (R229, R230, R232). A result that is not `done`
leaves a retrain running until its timer, and a training back in DOWN. No port trains while its lanes stay idle (R330). -/
def State.train (s : State) (p : Nat) (r : TrainResult) (cyc : Nat) : State :=
  match s.portState p with
  | 0 =>
    if s.rf (rtPg + 0x108) 31 31 = 1 ∨ s.lanesIdle = true then s
    else
      let s := s.sendTraining p
      if !r.done then s else (s.wf (fabPg p + 0x100) 31 28 1).trainDone p r true cyc
  | 2 => let s := s.startRetrain p cyc; if r.done then s.trainDone p r false cyc else s
  | 3 => let s := s.startRetrain p cyc; if r.done then s.trainDone p r false cyc else s
  | 4 => if r.done then s.trainDone p r false cyc else s
  | _ => s

/-- Attempts of a retrain that has begun, with their outcomes: one that is not `done` fails, and the third failure in a row takes the port
DOWN (R230, R231). The answer keeps the outcomes not used; with none left the port goes on retraining. -/
def State.attempts (s : State) (p cyc : Nat) : Nat → List TrainResult → State × List TrainResult
  | 0, rs => (s, rs)
  | _, [] => (s, [])
  | n + 1, r :: rs =>
    let a := fabPg p + 0x100
    if r.done then (s.trainDone p r false cyc, rs)
    else
      let k := s.rf a 11 10 + 1
      if 3 ≤ k then ((s.wf a 11 10 0).portDown p 0 cyc, rs)
      else ((s.wf a 11 10 k).startRetrain p cyc).attempts p cyc n rs

/-- Qualification of a port that training brought UP, by the corrected bits of each lane in a first and a second measurement (R341). A
lane that fails makes its port retrain, and one that fails twice enters LANE_DIS, after which the port retrains without it; `again` are the
outcomes of these retrains (R230). On a cold bring-up, which measures every lane, one that passes leaves it. -/
def State.qualify (s : State) (p : Nat) (err1 err2 : Nat → Nat) (again : List TrainResult) (cold : Bool) (cyc : Nat) : State :=
  if !s.portUp p then s
  else
    let pg := fabPg p
    let old := Tbl.get 0 s.flash.laneDis p
    let bad1 := (List.range 8).filter (fun i => decide (200000 < err1 i))
    let bad2 := bad1.filter (fun i => decide (200000 < err2 i))
    let s := (List.range 8).foldl (fun (s : State) i =>
      s.wr (pg + 0x180 + 4 * i) (BitVec.ofNat 32 (min ((if bad1.contains i then err2 else err1) i) (2 ^ 32 - 1)))) s
    let s := (s.wf (pg + 0x1A0) 15 8 (laneMask bad1)).wf (pg + 0x1A0) 7 0 (laneMask bad2)
    let dis := lanesOf (s.rf (pg + 0x10C) 7 0)
    let kept := if cold then dis.filter (fun i => decide (old / 2 ^ i % 2 = 0)) else dis
    let fl := { s.flash with laneDis := Tbl.set 0 s.flash.laneDis p (if cold then laneMask bad2 else Nat.lor old (laneMask bad2)) }
    let s := { s.wf (pg + 0x10C) 7 0 (laneMask kept) with flash := fl }
    if bad1.isEmpty then s
    else
      let (s, again) := (s.startRetrain p cyc).attempts p cyc 3 again
      if bad2.isEmpty ∨ !s.portUp p then s
      else
        let s := s.wf (pg + 0x10C) 7 0 (Nat.lor (s.rf (pg + 0x10C) 7 0) (laneMask bad2))
        let good := (lanesOf (s.rf (pg + 0x100) 27 20)).filter (fun i => !bad2.contains i)
        if (s.useLanes p good).isEmpty then
          (((s.startRetrain p cyc).wf (pg + 0x100) 27 20 (laneMask good)).wf (pg + 0x100) 31 28 5).wf (pg + 0x100) 19 12 0 |>.setLink p {}
        else ((s.startRetrain p cyc).attempts p cyc 3 again).1

/-- Corrected bits of a lane in one measurement of a list (R341). -/
def qualErr (quals : List (Nat × Nat × Nat)) (second : Bool) (i : Nat) : Nat :=
  ((quals.find? (fun q => decide (q.1 = i))).map (fun q => if second then q.2.2 else q.2.1)).getD 0

/-- RETRAIN = 1: a retrain of a port that is up, or a full training with its qualification of one that is DOWN (R229, R232). -/
def State.softRetrain (s : State) (port : Nat) (res : TrainResult) (quals : List (Nat × Nat × Nat)) (again : List TrainResult) (cyc : Nat) : State :=
  let down := decide (s.portState port = 0)
  let s := s.train port res cyc
  if down then s.qualify port (qualErr quals false) (qualErr quals true) again false cyc else s

/-- FAB_RETRAIN: software writes RETRAIN (R229, R230, R232). -/
def execFabRetrain (port : Nat) (res : TrainResult) (quals : List (Nat × Nat × Nat)) (again : List TrainResult) (t : Nat) (s : State) :
    Host.Outcome State Fault Refusal := inRange (.fabRetrain port res quals again t) <|
  .next (s.softRetrain port res quals again (tclkCycle t))

/-- PEER_TRAINING: the peer sends a training sequence to a port that is up or retraining (R229, R230). -/
def execPeerTraining (port : Nat) (res : TrainResult) (t : Nat) (s : State) : Host.Outcome State Fault Refusal := inRange (.peerTraining port res t) <|
  if s.portUp port || decide (s.portState port = 4) then .next (s.train port res (tclkCycle t)) else .next s

/-- LANE_LOSS: good lanes without signal or lock for more than 1 µs: a retrain while 4 good lanes remain, else the link goes
down (R229, R231). `cut`: a packet was in transmission. -/
def execLaneLoss (port : Nat) (lanes : BitVec 8) (cut : Bool) (res : TrainResult) (t : Nat) (s : State) :
    Host.Outcome State Fault Refusal := inRange (.laneLoss port lanes cut res t) <|
  if !(s.portUp port || decide (s.portState port = 4)) then .next s
  else
    let a := fabPg port + 0x100
    let good := (lanesOf (s.rf a 27 20)).filter (fun i => !lanes.getLsbD i)
    let s := ((s.wf a 27 20 (laneMask good)).fabErr 5 0x7F (tclkCycle t) 5).cutPacket port (cut && s.portUp port)
    .next (if good.length < 4 then s.portDown port 1 (tclkCycle t) else s.train port res (tclkCycle t))

/-- FEC_RETRAIN_TRIGGER: four uncorrectable codewords within 1,024, not counted before (R229). `cut`: a packet was in transmission. -/
def execFecRetrainTrigger (port : Nat) (cut : Bool) (res : TrainResult) (t : Nat) (s : State) :
    Host.Outcome State Fault Refusal := inRange (.fecRetrainTrigger port cut res t) <|
  if s.portUp port then
    .next ((((s.bump (fabPg port + 0x120) 31 0 4).fabErr 1 0x7F (tclkCycle t) 1).cutPacket port cut).train port res (tclkCycle t))
  else .next s

/-- RETRAIN_TIMEOUT: a retrain not completed within 100 µs fails; a third failure in a row takes the link down, else the
next attempt runs (R230, R231). -/
def execRetrainTimeout (port : Nat) (res : TrainResult) (t : Nat) (s : State) : Host.Outcome State Fault Refusal := inRange (.retrainTimeout port res t) <|
  if s.portState port ≠ 4 then .next s
  else
    let a := fabPg port + 0x100
    let n := s.rf a 11 10 + 1
    if 3 ≤ n then .next ((s.wf a 11 10 0).portDown port 0 (tclkCycle t))
    else
      let s := (s.wf a 11 10 n).startRetrain port (tclkCycle t)
      .next (if res.done then s.trainDone port res false (tclkCycle t) else s)

/-! ### Identity (R235, R236) -/

/-- Every fabric port is DOWN or DISABLED. -/
def State.allPortsDown (s : State) : Bool := (List.range 12).all (fun p => decide (s.portState p = 0) || decide (s.portState p = 5))

/-- ID_BAD: a coordinate of MY_ID outside TORUS_DIM (R236). -/
def State.checkId (s : State) : State :=
  let s := s.wf (rtPg + 0x108) 31 31 (bit (!s.idInside s.myId))
  s.liveEpochs.foldl (fun (s : State) e => s.girthRenew e) s

/-- A write of FAB_ID (`off` 0x100) or TORUS_DIM (0x104), accepted while every fabric port is DOWN or DISABLED (R236). It may make this
module the girth root, or end that (R281); the cycle of a record it then gives is a free value (log entry 34). -/
def State.idWrite (s : State) (off : Nat) (val : Word) : State :=
  if s.allPortsDown then
    let wasRoot := !s.girthChild
    let s := (s.wf (rtPg + off) 12 0 (fld val 12 0)).checkId
    if s.girthChild = !wasRoot then s
    else
      let (n, s) := s.fresh
      s.rootChanged wasRoot (Config.freeWord n).toNat
  else s

end Sys2Proof.Machine
end

