-- ==== Sys2Proof/Machine/Access.lean ====
section
/-! DEFINITION. Register access: where an access lands (R21 to R24), reset domains (R345), who may make it (R393), and what a write does to RW, RWS
and RW1C bits (R7, R26). -/

namespace Sys2Proof.Machine

/-! ### Where an access lands -/

/-- A logical core page. -/
def Loc.logical (l : Loc) : Bool := !l.module && decide (l.blk < 8) && decide (l.unit < 8)

/-- A physical core page. -/
def Loc.physical (l : Loc) : Bool := !l.module && decide (l.blk < 8) && decide (0x10 ≤ l.unit) && decide (l.unit < 0x1A)

/-- Global logical number of a logical core page. -/
def Loc.gl (l : Loc) : Nat := l.region * 64 + l.blk * 8 + l.unit

/-- Number of a physical core page. -/
def Loc.gp (l : Loc) : Nat := l.region * 80 + l.blk * 10 + (l.unit - 0x10)

/-- The one home of the register an access reaches (R23, R24, R26): none when it completes without effect. -/
def State.homeReg (s : State) (a : Nat) : Option Nat :=
  let l := locOf a
  match rowOf l with
  | none => none
  | some _ =>
    if l.logical then
      if l.off = 0x708 then (if (s.physOf l.gl).isSome then some a else none)
      else if 0x800 ≤ l.off then none
      else (s.physOf l.gl).map (fun gp => corePg gp + l.off)
    else some (homeAddr a)

/-! ### Domains (R345) -/

/-- Reset domain of a page: 0 always-on, 1 fabric, 2 memory, 3 compute. -/
def Loc.domain (l : Loc) : Nat :=
  if l.module then (if l.unit = 2 ∨ l.unit = 3 then 1 else 0)
  else if l.blk < 8 then (if l.unit = 0x30 then 1 else 3)
  else match l.unit with
    | 0 => if l.page = 2 ∨ l.page = 3 then 2 else 3
    | 1 => 2
    | 2 => 2
    | 8 => 3
    | _ => 1

/-- A page that no access reaches now: compute pages in I2 (R399), and every page but the always-on ones without main power
(R345, R398). -/
def State.dark (s : State) (l : Loc) : Bool :=
  (decide (l.domain ≠ 0) && !s.aon.powered) || (decide (l.domain = 3) && decide (s.pwrState = 3))

/-! ### Access rights (R393) -/

/-- Core a core page stands for, as a logical number: none for a spare or fenced physical core. -/
def State.pageLog (s : State) (l : Loc) : Option Nat := if l.logical then some l.gl else s.logOf l.gp

/-- Context of the VALID partition entry of a core or slice page. -/
def State.pageCtx (s : State) (l : Loc) : Option Nat :=
  if 0x21 ≤ l.unit ∧ l.unit < 0x29 then partCtx (s.rdByte (partSliceAddr (64 * l.region + 8 * l.blk + (l.unit - 0x21))))
  else (s.pageLog l).bind s.logCtx

/-- Pages that R393 gives to the owner of a core or slice. -/
def Loc.owned (l : Loc) : Bool :=
  l.logical || (l.physical && decide (l.page = 0)) || (!l.module && decide (l.blk < 8) && decide (0x21 ≤ l.unit) && decide (l.unit < 0x29))

/-- The debug page of a physical core (R153, R396). -/
def Loc.debug (l : Loc) : Bool := l.physical && decide (l.page = 1)

/-- The host port of an agent. -/
def agentPort (ag : Agent) : Option QPort := match ag with | .qa => some .qa | .qb => some .qb | .mgmt => none

/-- Committed port of a context. -/
def State.ctxPortReg (s : State) (c : Nat) : QPort := if s.rf (ctxPg c + 0x100) 30 30 = 1 then .qb else .qa

/-- An agent has full access to an owned page. -/
def State.ownsPage (s : State) (ag : Agent) (l : Loc) : Bool :=
  match s.pageCtx l with
  | none => true
  | some c => decide (agentPort ag = some (s.ctxPortReg c))

/-- An agent holds D1 rights (R394): PROVISIONED is lifecycle state 1. -/
def State.d1Rights (s : State) (ag : Agent) : Bool :=
  decide (s.flash.lifecycle = 1) || (match s.dbg with | some d => decide (d.agent = ag) && decide (d.level ≤ 2) | none => false)

/-- A D2 session of an agent over the core of a debug page. -/
def State.d2Page (s : State) (ag : Agent) (l : Loc) : Bool :=
  match s.dbg with
  | some d => decide (d.level = 2) && decide (d.agent = ag) && decide (s.coreCtx l.gp = some d.ctx)
  | none => false

/-- The mailbox page of an agent (R388). -/
def mailboxOf (ag : Agent) : Nat := match ag with | .qa => 1 | .qb => 2 | .mgmt => 3

/-- A ROUTE_TBL register: host ports do not write it (R213, R393). -/
def Loc.routeTbl (l : Loc) : Bool :=
  !l.module && decide (0x200 ≤ l.off) && ((decide (l.blk < 8) && decide (l.unit = 0x30)) || (decide (l.blk = 0xE) && decide (l.unit = 3)))

/-- Whether R393 admits an access; the common header is readable to every agent. -/
def State.admits (s : State) (ag : Agent) (a : Nat) (write : Bool) : Bool :=
  let l := locOf a
  if l.off < 0x100 ∧ !write then true
  else if l.owned then s.ownsPage ag l || (!write && s.d1Rights ag)
  else if l.debug then decide (l.off < 0x300) || s.d2Page ag l
  else if l.module ∧ l.unit = 6 then
    if l.page = 0 then !write else decide (l.page = mailboxOf ag)
  else if l.routeTbl ∧ write then decide (ag = .mgmt)
  else true

/-- A refused access counts in SEC_DENY (R393). -/
def State.secDeny (s : State) : State := s.bump (modPg 6 0 + 0x168) 31 0 1

/-- A write command on a register: without effect on a page that no access reaches now, else if R393 admits it. -/
def State.ifAdmitted (s : State) (ag : Agent) (a : Nat) (f : State → State) : State :=
  if s.dark (locOf a) then s else if s.admits ag a true then f s else s.secDeny

/-! ### Writes (R7, R8, R26, R27) -/

/-- RWS bits of a register as a page offers them: FENCE stands in physical core pages only. -/
def rwsMask (a : Nat) : Word :=
  let l := locOf a
  match rowOf l with
  | none => 0
  | some r => if l.off = 0x010 ∧ !(l.physical) then r.rws &&& 0xFFFFFFFD else r.rws

/-- Writable bits of ERR_MASK: CNT_SAT and the page's sources that are not of severity UF (R26, R27). The others are reserved and read
0: [30:2] of the clock page, [30:7] of a fabric port, [30:5] of routers and die meshes, [30:6] of memory controllers, and every bit of
a page whose sources no chapter lists (log entry 12 numbers those of cores, slices and region controllers). REF_LOST is UF. -/
def errMaskBits (l : Loc) : Word :=
  0x80000000 |||
    (if l.module then (if l.unit = 5 then 0x2 else if l.unit = 2 then 0x7F else 0)
     else if l.blk < 8 then
       (if l.logical || l.physical then 0x7 else if l.unit = 0x30 then 0x1F else if 0x21 ≤ l.unit ∧ l.unit < 0x29 then 0x5 else 0)
     else match l.unit with
       | 0 => 0x1
       | 1 => 0x3F
       | 2 => 0x3F
       | 3 => 0x1F
       | u => if 4 ≤ u ∧ u < 8 then 0xC else 0)

/-- RW bits of a register. -/
def rwMask (a : Nat) : Word :=
  let l := locOf a
  match rowOf l with
  | none => 0
  | some r => if l.off = 0x01C then r.rw &&& errMaskBits l else r.rw

/-- RW1C bits. -/
def w1cMask (a : Nat) : Word := match rowOf (locOf a) with | none => 0 | some r => r.w1c

/-- A write to UNIT_CTL of a fenced core keeps its FENCE bit: a fence is never released in service (R323). -/
def State.keepFence (s : State) (h : Nat) (v : Word) : Word :=
  let l := locOf h
  if l.off = 0x010 ∧ l.physical ∧ (s.rf h 1 1 = 1 ∨ s.physState l.gp = 2) then setFld v 1 1 1 else v

/-- A 32-bit register write: RW bits at once, RW1C bits cleared, RWS bits into the shadow (R7). A 1 written to a reserved bit is
ignored and the rest of the write completes: R8 gives it no defined effect (DESIGN CHOICE, log entry 62). -/
def State.regWrite (s : State) (a : Nat) (v : Word) : State :=
  match s.homeReg a with
  | none => s
  | some h =>
    let rw := rwMask a
    let rws := rwsMask a
    let cur := s.rd h
    let v := s.keepFence h v
    let s := s.wr h (((cur &&& ~~~rw) ||| (v &&& rw)) &&& ~~~(v &&& w1cMask a))
    if rws = 0 then s else { s with shadow := Tbl.put s.shadow h ((s.rdPend h &&& ~~~rws) ||| (v &&& rws)) }

/-- Value of an RWS register as reads return it: the RWS bits last written, the others as they are (R7). -/
def State.rdShown (s : State) (h : Nat) : Word :=
  match Tbl.find? s.shadow h, rowOf (locOf h) with
  | some p, some r => (s.rd h &&& ~~~r.rws) ||| (p &&& r.rws)
  | _, _ => s.rd h

/-- Commit one pending value (R49). -/
def State.commitOne (s : State) (h : Nat) (p : Word) : State :=
  match rowOf (locOf h) with
  | some r => s.wr h ((s.rd h &&& ~~~r.rws) ||| (p &&& r.rws))
  | none => s

/-- The hearth sets FENCE of a core directly; it reads 1 also through a pending shadow (R26). -/
def State.setFence (s : State) (gp : Nat) (b : Bool) : State :=
  let a := corePg gp + 0x10
  let s := s.wf a 1 1 (bit b)
  match Tbl.find? s.shadow a with
  | some p => { s with shadow := Tbl.put s.shadow a (setFld p 1 1 (bit b)) }
  | none => s

end Sys2Proof.Machine
end

