-- ==== Sys2Proof/Machine/Grid.lean ====
section
/-! DEFINITION. The stroke generator's discipline (R36, R38 to R41, R47, R48, R436), the girth timing exchange (R281 to R283), and
the activation of an epoch (R262),
girth packets and barrier entries (R278, R279). -/

namespace Sys2Proof.Machine

/-! ### Time bases -/

/-- T_s in 1/16 ns (R33). -/
def State.ts16 (s : State) : Nat := 16 * s.rf (genPg + 0x100) 23 0

/-- The trim in force, in parts per billion. -/
def State.trim (s : State) : Int := (s.rd (genPg + 0x120)).toInt

/-! ### Reference boundaries (R39 to R41, R436) -/

/-- Limit a rate to ±100,000 ppb. -/
def clampRate (r : Rat) : Rat := max (-100000) (min 100000 r)

/-- A rate as STROKE_TRIM reads it: whole ppb toward zero (log entry 22). -/
def wholeRate (r : Rat) : Int := r.num.tdiv r.den

/-- Sum of phases. -/
def phaseSum (l : List Int) : Int := l.foldl (· + ·) 0

/-- The proportional-integral law at one reference boundary, with the phase error in 1/16 ns (R41, R436); LOCKED follows the
mean of the last 16 phases. -/
def State.reference (s : State) (ph : Int) : State :=
  let g := s.gen
  let e : Rat := mkRat ph 16
  let t : Rat := mkRat (s.ts16 : Int) 16
  let i := clampRate (g.integ + e * 1000000000 / (256 * t))
  let need := i + e * 1000000000 / (16 * t)
  let limit := decide (100000 < need) || decide (need < -100000)
  let phases := (g.phases ++ [ph]).drop ((g.phases.length + 1) - 16)
  let locked := !limit && decide (phases.length = 16) && decide ((phaseSum phases).natAbs * 10 ≤ 256)
  let g := { g with integ := i, phases := phases }
  let s := (s.wr (genPg + 0x11C) (BitVec.ofInt 32 ph)).wr (genPg + 0x120) (BitVec.ofInt 32 (wholeRate (clampRate need)))
  { ((s.setGenBit 7 limit).setGenBit 5 locked) with gen := g }

/-- Pair reference boundaries with local ones, in order. -/
def State.pairRefs (s : State) : List Nat → List Nat → State
  | r :: rs, l :: ls => (s.reference ((l : Int) - (r : Int))).pairRefs rs ls
  | rs, ls => { s with gen := { s.gen with refs := rs, locs := ls } }

/-- Acquisition begins: the next stroke is lengthened by T_s − e (R40). -/
def State.acquire (s : State) (e : Nat) : State := { s with gen := { s.gen with extend := some (s.ts16 - e % s.ts16) } }

/-- A source becomes active, or internal running begins (R38 to R40, R281, R436). The trim in force is kept. STROKE_PHASE goes to 0 and
TRIM_LIMIT clears, where the loss of a source leaves both as they are: the spec says neither (DESIGN CHOICE, log entry 63). -/
def State.activate (s : State) (src : Nat) : State :=
  let s := ((((s.setGenBit 5 false).setGenBit 6 false).setGenBit 7 false).wf genStat 1 0 src).wr (genPg + 0x11C) 0
  let back := if s.aclk = 0 then 0 else 32 * 16000 / s.aclk
  let g := s.gen
  let g := { g with extend := none, lastEdge := none, since := g.base + g.len - back, integ := (s.trim : Rat), phases := [],
                    refs := [], locs := [], acquired := false, girthSilent := 0, exchanged := true }
  let s := { s with gen := g }
  if src = 0 then s
  else if src = 1 ∧ !s.girthChild then s.setGenBit 5 true
  else s.setGenBit 6 true

/-- A commit of SRC (R39): SRC_LOST clears; a change of source activates it, at `t` ns after the boundary. -/
def State.commitSrc (s : State) (t : Nat) : State :=
  let v := s.rf (genPg + 0x114) 1 0
  let src := if v = 3 then 0 else v
  let s := s.setGenBit 3 false
  if src = s.srcActive then s else (s.activate src).followPath t

/-- Holdover: the last trim is kept (R39). -/
def State.sourceLost (s : State) (t : Nat) : State :=
  let s := (((s.wf genStat 1 0 0).setGenBit 3 true).setGenBit 5 false).setGenBit 6 false
  let s := { s with gen := { s.gen with extend := none, acquired := false, refs := [], locs := [] } }
  (s.followPath t).chipRec genPg 1 0x24 (tclkCycle t) 0

/-- STROKE_IN_EDGE: a rising edge `t16` sixteenths of a ns after the boundary (R39, R40). -/
def execStrokeInEdge (t16 : Nat) (s : State) : Host.Outcome State Fault Refusal :=
  if s.srcActive ≠ 2 then .next s
  else
    let g := s.gen
    let now := g.base + t16
    let early := match g.lastEdge with | some k => decide (2 * (now - k) < s.ts16) | none => false
    if early then .next (s.bump (genPg + 0x124) 31 0 1)
    else
      let s := { s with gen := { g with lastEdge := some now } }
      if s.genBit 6 then
        if g.acquired then
          if 2 * (g.base + g.len - now) < s.ts16 then .next { s with gen := { s.gen with refs := [now] } } else .next s
        else if g.extend.isSome then .next s
        else .next (s.acquire ((g.base + g.len - now) % s.ts16))
      else .next ((s.pairRefs (g.refs ++ [now]) g.locs).followPath (t16 / 16))

/-- STROKE_IN_LOST: 4·T_s have passed without an accepted edge (R39). -/
def execStrokeInLost (t : Nat) (s : State) : Host.Outcome State Fault Refusal :=
  let g := s.gen
  let last := match g.lastEdge with | some k => max k g.since | none => g.since
  if s.srcActive = 2 ∧ 4 * s.ts16 ≤ g.base + 16 * t - last then .next (s.sourceLost t) else .next s

/-- GIRTH_SOURCE_LOST: no timing exchange has completed for 64 strokes in a row (R39). -/
def execGirthSourceLost (t : Nat) (s : State) : Host.Outcome State Fault Refusal :=
  if s.srcActive = 1 ∧ s.girthChild ∧ 64 ≤ s.gen.girthSilent then .next (s.sourceLost t) else .next s

/-! ### STROKE_COUNT reads (R36) -/

/-- The latch of an agent. -/
def State.latch (s : State) (ag : Agent) : Option Nat :=
  match ag with | .qa => s.gen.latchQa | .qb => s.gen.latchQb | .mgmt => s.gen.latchM

def State.setLatch (s : State) (ag : Agent) (v : Option Nat) : State :=
  match ag with
  | .qa => { s with gen := { s.gen with latchQa := v } }
  | .qb => { s with gen := { s.gen with latchQb := v } }
  | .mgmt => { s with gen := { s.gen with latchM := v } }

/-- A 32-bit read of STROKE_COUNT[31:0] loads the agent's latch. -/
def State.countLo (s : State) (ag : Agent) : BitVec 64 × State :=
  (BitVec.ofNat 64 (s.stroke % 2 ^ 32), s.setLatch ag (some (s.stroke / 2 ^ 32)))

/-- A 32-bit read of STROKE_COUNT[39:32] returns and empties the latch. -/
def State.countHi (s : State) (ag : Agent) : BitVec 64 × State :=
  (BitVec.ofNat 64 ((s.latch ag).getD (s.stroke / 2 ^ 32)), s.setLatch ag none)

/-- STROKE_COUNT_LO_READ (R36). -/
def execStrokeCountLoRead (ag : Agent) (s : State) : Host.Outcome State Fault Refusal :=
  let (v, s) := s.countLo ag
  .next (s.send (.value ag (genPg + 0x108) v))

/-- STROKE_COUNT_HI_READ (R36). -/
def execStrokeCountHiRead (ag : Agent) (s : State) : Host.Outcome State Fault Refusal :=
  let (v, s) := s.countHi ag
  .next (s.send (.value ag (genPg + 0x10C) v))

/-! ### Arming a commit (R47, R48) -/

/-- A COMMIT write accepted at or after s0 of the hearth region's seam counts as after it (R47): it stands behind SEAM among the
commands, when the armed commit has taken place and COMMIT_AT is 0, so it arms the first seam after that one and sets no AT bit. COMMIT_AT and
STROKE_COUNT are compared as they stand, across the wrap of the count too (DESIGN CHOICE, log entry 69). -/
def State.armCommit (s : State) : State :=
  match s.gen.armed with
  | some _ => s
  | none =>
    let target := s.rd64 (genPg + 0x128) % 2 ^ 40
    let before := !s.gen.seamDone
    let nxt := if before then s.stroke else (s.stroke + 1) % 2 ^ 40
    let ok := decide (s.stroke < target) || (decide (target = s.stroke) && before)
    let late := decide (target ≠ 0) && !ok
    let at_ := if target ≠ 0 ∧ ok then target else nxt
    let s := (s.setGenBit 2 true)
    let s := if late then s.setGenBit 8 true else s
    { s with gen := { s.gen with armed := some at_, armedAt := decide (target ≠ 0) && ok, armedLate := late, armedAfterIgn := s.genBit 9 } }

/-- COMMIT: a write of 1 to COMMIT (R47). -/
def execCommit (ag : Agent) (s : State) : Host.Outcome State Fault Refusal := .next (s.ifAdmitted ag (genPg + 0x110) State.armCommit)

/-- A write to COMMIT_AT; ignored while a commit is armed (R48). -/
def State.commitAt (s : State) (half : Half) (v : BitVec 64) : State :=
  match s.gen.armed with
  | some _ => { (s.setGenBit 9 true) with gen := { s.gen with armedAfterIgn := false } }
  | none =>
    let lo := BitVec.ofNat 32 v.toNat
    match half with
    | .lo => s.wr (genPg + 0x128) lo
    | .hi => s.wf (genPg + 0x12C) 7 0 (v.toNat % 256)
    | .both => (s.wr (genPg + 0x128) lo).wf (genPg + 0x12C) 7 0 (v.toNat / 2 ^ 32)

/-- COMMIT_AT_WRITE (R48). -/
def execCommitAtWrite (ag : Agent) (half : Half) (val : BitVec 64) (s : State) : Host.Outcome State Fault Refusal :=
  .next (s.ifAdmitted ag (genPg + 0x128) (fun s => s.commitAt half val))

/-- The commit takes place: COMMIT_AT returns to 0, COMMIT_PEND clears, AT_MISSED after a commit whose arming was in time,
AT_IGN at the first commit armed after the ignored write (R47, R48). -/
def State.commitDone (s : State) : State :=
  let g := s.gen
  let s := ((s.wr (genPg + 0x128) 0).wf (genPg + 0x12C) 7 0 0).setGenBit 2 false
  let s := if g.armedLate then s else s.setGenBit 8 false
  let s := if g.armedAfterIgn then s.setGenBit 9 false else s
  { s with gen := { s.gen with armed := none, armedAt := false, armedLate := false, armedAfterIgn := false } }

/-! ### The timing exchange (R281 to R283) -/

/-- A TIME block: KIND 0 SYNC, 1 REQ, 2 RESP. -/
def timeBlock (kind : Nat) (locked : Bool) (stroke ts exch sender : Nat) : Nat :=
  packFields [(5, 8), (kind, 2), (bit locked, 1), (0, 5), (stroke, 32), (ts, 32), (exch, 16), (sender, 13)]

/-- SYNC to every child link that is up, at the boundary (R281). -/
def State.timeSyncSend (s : State) : State :=
  (s.girth s.epoch).children.foldl (fun (s : State) p =>
    if s.portUp p then s.sendBlock p (timeBlock 0 s.pathLocked s.stroke 0 (s.stroke % 2 ^ 16) s.myId) else s) s

/-- Signed difference of two stroke numbers of 32 bits. -/
def strokeDiff (a b : Nat) : Int := (BitVec.ofNat 32 a - BitVec.ofNat 32 b).toInt

/-- The port is a rail of the girth parent's direction. -/
def State.isParentPort (s : State) (p : Nat) : Bool :=
  s.girthChild && decide (p / 2 = (s.girth s.epoch).parent / 2)

/-- TIME_SYNC: the parent's SYNC arrives `t16` after the local boundary; REQ goes back at once (R281). -/
def execTimeSync (port : Nat) (block : BitVec 256) (t16 : Nat) (s : State) : Host.Outcome State Fault Refusal := inRange (.timeSync port block t16) <|
  .next (s.onBlock port 5 (t16 / 16) block (fun s =>
    if blk block 9 8 ≠ 0 ∨ !s.isParentPort port then s
    else
      let m := blk block 47 16
      let t2 : Int := (t16 : Int) + strokeDiff s.stroke m * (s.ts16 : Int)
      let x : TimeX := { t1 := (blk block 79 48 : Nat), t2 := t2, t3 := t2, exch := blk block 95 80, sender := blk block 108 96,
                         stroke := m, parentLocked := decide (blk block 10 10 = 1), heard := true }
      let s := ({ s with time := x }).followPath (t16 / 16)
      s.sendBlock port (timeBlock 1 s.pathLocked s.stroke t16 x.exch s.myId)))

/-- TIME_REQ: a child's REQ is answered with its receive time (R281). -/
def execTimeReq (port : Nat) (block : BitVec 256) (t16 : Nat) (s : State) : Host.Outcome State Fault Refusal := inRange (.timeReq port block t16) <|
  .next (s.onBlock port 5 (t16 / 16) block (fun s =>
    if blk block 9 8 ≠ 1 then s
    else s.sendBlock port (timeBlock 2 s.pathLocked s.stroke t16 (blk block 95 80) s.myId)))

/-- The exchange has completed with a phase in 1/16 ns: acquisition, or one reference boundary (R39, R40, R436). -/
def State.exchangeDone (s : State) (ph : Int) (t : Nat) : State :=
  if s.srcActive ≠ 1 then s
  else
    let s := { s with gen := { s.gen with girthSilent := 0, exchanged := true } }
    if s.genBit 6 then
      if s.gen.acquired ∨ s.gen.extend.isSome then s else s.acquire (ph % (s.ts16 : Int)).toNat
    else (s.reference ph).followPath t

/-- TIME_RESP: the exchange completes (R281). -/
def execTimeResp (port : Nat) (block : BitVec 256) (t16 : Nat) (s : State) : Host.Outcome State Fault Refusal := inRange (.timeResp port block t16) <|
  .next (s.onBlock port 5 (t16 / 16) block (fun s =>
    let x := s.time
    if blk block 9 8 ≠ 2 ∨ !s.isParentPort port ∨ !x.heard ∨ blk block 95 80 ≠ x.exch then s
    else
      let t4 : Int := ((blk block 79 48 : Nat) : Int) + strokeDiff (blk block 47 16) x.stroke * (s.ts16 : Int)
      let ph := ((t4 - x.t3) - (x.t2 - x.t1)) / 2
      let delay := ((x.t2 - x.t1) + (t4 - x.t3)) / 2
      let x := { x with parentLocked := decide (blk block 10 10 = 1), heard := false }
      let s := ({ s with time := x }).wr (girthPg + 0x10C) (BitVec.ofInt 32 delay)
      (s.followPath (t16 / 16)).exchangeDone ph (t16 / 16)))

/-! ### The generator at a boundary (R37, R40, R282) -/

/-- STROKE_COUNT steps; at the end of an acquisition to the girth it is taken from the parent (R37, R282). A commit armed for the next seam
that opens goes with it (R47). -/
def State.stepCount (s : State) : State :=
  let n := s.stroke + 1
  let n := if s.gen.acquired ∧ s.srcActive = 1 then n / 2 ^ 32 * 2 ^ 32 + (s.time.stroke + 1) % 2 ^ 32 else n
  let g := if s.gen.armedAt then s.gen else { s.gen with armed := s.gen.armed.map (fun _ => n % 2 ^ 40) }
  { s with gen := g }.wr64 (genPg + 0x108) (n % 2 ^ 40)

/-- The generator's own part of a boundary: count, the next stroke's length, and discipline (R32, R37 to R40). -/
def State.gridBoundary (s : State) : State :=
  let s := s.stepCount
  let g := s.gen
  let ended := g.acquired
  let base := g.base + g.len
  let len := s.ts16 + g.extend.getD 0
  let g := { g with base := base, len := len, seamDone := false, s0 := none, acquired := g.extend.isSome, extend := none,
                    girthSilent := if g.exchanged then 0 else g.girthSilent + 1, exchanged := false }
  let s := { s with gen := g }
  let s := if ended then ({ s with gen := { g with locs := [] } }).setGenBit 6 false else s
  let s := if s.srcActive = 2 ∧ !s.genBit 6 then s.pairRefs s.gen.refs (s.gen.locs ++ [base]) else s
  s.followPath 0

/-! ### Epoch activation (R262) -/

/-- EPOCH_FLIP: at the boundary that begins stroke EP_AT, or the next one when it has already begun, EPOCH flips (R262). -/
def execEpochFlip (t : Nat) (s : State) : Host.Outcome State Fault Refusal :=
  let st := rtPg + 0x108
  let at_ := s.rd64 (rtPg + 0x114) % 2 ^ 40
  if s.rf st 29 29 = 0 ∨ s.stroke < at_ then .next s
  else
    let e := 1 - s.epoch
    let wasRoot := !s.girthChild
    let s := ((((s.wf st 0 0 e).wf st 29 29 0).wf st 28 28 1).wf st 30 30 0).wf st 26 26 (bit (s.keysOver e))
    let s := { s with epRetire := some (at_ + s.rf (rtPg + 0x110) 15 0) }
    let s := (s.girthRenew e).wf (girthPg + 0x100) 28 28 0
    let s := (s.activationFaults e (tclkCycle t)).rootChanged wasRoot t
    .next (if s.parentLost then s.parentDown else s.barRecheck e)

/-! ### Girth packets and barrier entries (R278, R279) -/

/-- GIRTH: an arrived GIRTH packet advances or completes its barrier (R278). -/
def execGirth (n : Nat) (s : State) : Host.Outcome State Fault Refusal :=
  match s.arrival n [8] with
  | none => .next s
  | some p =>
    match p.at_ with
    | .ingress q =>
      let s := (s.takeArrival n).freeIngress q p
      .next (if s.epochGone p.pkt.epoch then s.rtDrop 0x130 else s.girthRx q p.pkt)
    | _ => .next s

/-- A write to a barrier entry discards its open arrivals (R278, R279). -/
def State.writeBarrier (s : State) (g : Nat) (gen : Bool) (val : Word) : State :=
  let s := if gen then s.wf (barAddr g + 4) 31 16 (fld val 31 16)
    else (s.wf (barAddr g) 31 31 (fld val 31 31)).wf (barAddr g) 15 0 (fld val 15 0)
  let b := s.barrier g
  let s := ((s.setBarrier g { lost := b.lost ++ b.sent }).wf (barAddr g) 30 30 0).wf (barAddr g + 4) 15 0 0
  s.barCheck g s.epoch 2

/-- BARRIER_ENTRY_WRITE (R278). -/
def execBarrierEntryWrite (ag : Agent) (g : Nat) (gen : Bool) (val : Word) (s : State) : Host.Outcome State Fault Refusal := inRange (.barrierEntryWrite ag g gen val) <|
  .next (s.ifAdmitted ag (barAddr g) (fun s => s.writeBarrier g gen val))

end Sys2Proof.Machine
end

