-- ==== Sys2Proof/Machine/Zero.lean ====
section
/-! DEFINITION. Zeroisation (R154 to R157), random keys (R175 to R177), the pattern load engine (R97 to R99), the debug window (R153)
and the dispute capture (R296). -/

namespace Sys2Proof.Machine

/-! ### Keys of the random streams (R175, R176) -/

/-- Give the three streams keys, counters at 0. -/
def State.setKeys (s : State) (gp : Nat) (key : Nat → BitVec 64) : State :=
  s.modCore gp (fun c => [0, 1, 2].foldl (fun (c : Core) n => c.setStream n { key := key n }) c)

/-- A delivery of fresh entropy keys; withheld while the region's source is failed (R176, R177). -/
def State.freshKeys (s : State) (gp : Nat) : State :=
  if s.entropyBad.contains (gp / 80) then s
  else
    let n := s.freeCtr
    let s := ({ s with freeCtr := n + 3 }).setKeys gp (fun k => Config.entropyKey (n + k))
    (s.wf (corePg gp + 0x2A0) 31 31 0).bump (corePg gp + 0x2A0) 15 0 1

/-- Seeded keys: RNG_SEED XOR ((global logical number << 2) | n) (R176). -/
def State.seedKeys (s : State) (gp : Nat) : State :=
  let seed := s.rd64 (corePg gp + 0x298)
  let gl := (s.logOf gp).getD 0
  s.setKeys gp (fun n => BitVec.ofNat 64 seed ^^^ BitVec.ofNat 64 (gl * 4 + n))

/-- ENTROPY_HEALTH_FAIL: a health test of a region's entropy source fails (R177). -/
def execEntropyHealthFail (region t : Nat) (s : State) : Host.Outcome State Fault Refusal := inRange (.entropyHealthFail region t) <|
  let s := { s with entropyBad := if s.entropyBad.contains region then s.entropyBad else s.entropyBad ++ [region] }
  let s := s.regionErr (rcPg region 0) 0 2 0x7F (tclkCycle t) 0
  .next ((List.range 80).foldl (fun (s : State) k => s.wf (corePg (80 * region + k) + 0x2A0) 31 31 1) s)

/-! ### Zeroising a core (R134, R154, R174, R349) -/

/-- Contents of a core as zeroisation leaves them: every ring begins a new generation and every remote-load slot frees, so that what
arrives for it counts in RING_STALE (R149, R154, R249); the streams discard their unused words (R175), and keep their keys until new ones
are delivered (R177). -/
def Core.zeroed (c : Core) : Core :=
  { rings := (List.range 32).foldl (fun (t : Tbl Ring) n => Tbl.set {} t n { gen := (c.ring n).gen + 1 }) [],
    slots := c.slots.map (fun p => (p.1, if p.2.busy then { p.2 with busy := false, stale := true } else p.2)),
    rng := c.rng.map (fun p => (p.1, { p.2 with buf := [], half := none })), now := c.now, nextId := c.nextId, opTag := c.opTag,
    loadNo := c.loadNo, anvilFaults := c.anvilFaults }

/-- A register of a core that zeroisation returns to its reset value: RW and RWS registers of the unit-specific part, ACT_FMT,
ARITH_STAT, VEC_STAT and the pattern load status (R99, R134, R154, R174). The registers of the debug page that a row read or a write has
filled (DBG_SEL, DBG_DATA, DBG_CTL, DBG_PC) return to reset with them: R154 names the logical page only (DESIGN CHOICE, log entry
70). -/
def zeroesReg (off : Nat) : Bool :=
  match findRow (if off < 4096 then coreRows else dbgRows) (off % 4096) with
  | none => false
  | some r => decide (0x100 ≤ off % 4096) && (decide (4096 ≤ off) || decide (r.rw ≠ 0) || decide (r.rws ≠ 0) || [0x26C, 0x264, 0x290].contains off)

/-- A register of a core page that a reset of the compute domain leaves alone: the counters of zeroisation and key deliveries, and those of
the assay manager, which is always on (R313, R345; log entry 23). UNIT_CTL keeps ENABLE and FENCE and loses its report level. -/
def resetKeeps (off : Nat) : Bool := [0x280, 0x2A0, 0x800, 0x804, 0x808, 0x80C].contains off

/-- UNIT_CTL of a physical core. -/
def isCoreCtl (a : Nat) : Bool :=
  let l := locOf a
  l.physical && decide (l.page = 0) && decide (l.off = 0x010)

/-- What a reset leaves of a register it clears: ENABLE and FENCE of a core, whose fence state is always on (R345), else nothing. -/
def clearedReg (p : Nat × Word) : Option (Nat × Word) :=
  if isCoreCtl p.1 ∧ p.2 &&& 3 ≠ 0 then some (p.1, p.2 &&& 3) else none

/-- Return registers of a core's two physical pages to their reset values, and discard every pending shadow of the core (R154). -/
def State.clearCoreRegs (s : State) (gp : Nat) (which : Nat → Bool) : State :=
  let lo := corePg gp
  let gone : Nat → Bool := fun a => decide (lo ≤ a) && decide (a < lo + 0x2000) && which (a - lo)
  { s with regs := s.regs.filterMap (fun p => if gone p.1 then clearedReg p else some p), shadow := s.shadow.filter (fun p => !(decide (lo ≤ p.1) && decide (p.1 < lo + 0x2000))),
           cap := if which 0x018 then Tbl.erase s.cap lo else s.cap }

/-- Neither bank is ready, and a load in progress stops with ERR 5 (R99). -/
def State.dropBanks (s : State) (gp : Nat) (loading : Bool) : State :=
  let a := corePg gp + 0x21C
  let s := (s.wf a 31 31 0).wf a 17 16 0
  if loading then s.wf a 30 28 5 else s

/-- Zeroisation begins: the core's contents are gone, its waiter registration ends at the bank, nothing of an assay segment is left, and
it accepts no request until it completes; a packet whose header has left ends with the rows it has (R154, R157, R273, R312). -/
def State.zeroCore (s : State) (gp : Nat) (which : Nat → Bool) : State :=
  let s := (s.dropWaiter gp).modAsy gp (fun x => { x with running := none, fl := 0, saved := [], slot := none })
  let loading := (s.core gp).loader.isSome
  let s := (s.cutPackets gp).modCore gp (fun c => { c.zeroed with zeroing := true })
  ((s.clearCoreRegs gp which).dropBanks gp loading).wf (corePg gp + 0x280) 31 31 1

/-- Zeroisation of a core completes, and fresh keys are drawn (R154, R176). -/
def State.zeroCoreDone (s : State) (gp : Nat) : State :=
  let a := corePg gp + 0x280
  let s := ((s.modCore gp (fun c => { c with zeroing := false })).wf a 31 31 0).bump a 15 0 1
  if s.rf (corePg gp + 0x294) 0 0 = 1 then s.seedKeys gp else s.freshKeys gp

/-- Zeroisation of a slice begins: rows zero, SLICE_OWN clear, requests refused (R154, R157). -/
def State.zeroSlice (s : State) (n : Nat) : State :=
  let mine : Nat → Bool := fun k => decide (k / 4096 = n)
  let s := { s with slices := s.slices.filter (fun p => !mine p.1), sliceUpset := s.sliceUpset.filter (fun p => !mine p.1),
                    sliceBrand := s.sliceBrand.filter (fun p => decide (p.1 / 256 ≠ n)),
                    sliceZero := if s.sliceZero.contains n then s.sliceZero else s.sliceZero ++ [n] }
  ((s.wr (slicePg n + 0x100) 0).wf (slicePg n + 0x108) 31 31 1)

/-- Zeroisation of a slice completes. -/
def State.zeroSliceDone (s : State) (n : Nat) : State :=
  let a := slicePg n + 0x108
  (({ s with sliceZero := s.sliceZero.filter (· ≠ n) }).wf a 31 31 0).bump a 15 0 1

/-! ### The pattern load engine (R97, R98) -/

def loadStat (gp : Nat) : Nat := corePg gp + 0x21C

/-- The load stops with an error. -/
def State.loadStop (s : State) (gp err : Nat) : State :=
  ((s.modCore gp (fun c => { c with loader := none })).wf (loadStat gp) 31 31 0).wf (loadStat gp) 30 28 err

/-- A GO accepted while BUSY = 0 (R97). -/
def State.loadGo (s : State) (gp : Nat) (v : Word) : State :=
  let st := loadStat gp
  let bank := fld v 28 28
  let first := fld v 27 16
  let count := fld v 12 0
  let s := (s.wf st 30 28 0).wf st 12 0 0
  if bank = s.rf (corePg gp + 0x200) 0 0 then s.wf st 30 28 1
  else if 4096 < first + count ∨ count = 0 then s.wf st 30 28 2
  else
    let s := (s.wf st (16 + bank) (16 + bank) 0).wf st 31 31 1
    let addr := (s.rd64 (corePg gp + 0x210)) % 2 ^ 43
    s.modCore gp (fun c => { c with loadNo := c.loadNo + 1,
                                    loader := some { addr := addr, bank := bank, first := first, count := count, no := c.loadNo + 1 } })

/-- A write of PAT_LOAD_CTL: ABORT takes precedence over GO (R97). -/
def State.loadCtl (s : State) (gp : Nat) (v : Word) : State :=
  let a := corePg gp + 0x218
  let s := s.wr a ((s.rd a &&& ~~~(0x1FFF1FFF : Word)) ||| (v &&& 0x1FFF1FFF))
  let busy := (s.core gp).loader.isSome
  if fld v 30 30 = 1 then (if busy then s.loadStop gp 6 else s)
  else if fld v 31 31 = 0 ∨ busy ∨ (s.core gp).zeroing then s
  else s.loadGo gp v

/-- PAT_LOAD_GO (R97). -/
def execPatLoadGo (ag : Agent) (gl : Nat) (val : Word) (s : State) : Host.Outcome State Fault Refusal := inRange (.patLoadGo ag gl val) <|
  .next (s.ifAdmitted ag (logPg gl + 0x218) (fun s =>
    match s.physOf gl with
    | some gp => s.loadCtl gp (val ||| 0x80000000)
    | none => s))

/-- PAT_LOAD_ABORT (R97). -/
def execPatLoadAbort (ag : Agent) (gl : Nat) (s : State) : Host.Outcome State Fault Refusal := inRange (.patLoadAbort ag gl) <|
  .next (s.ifAdmitted ag (logPg gl + 0x218) (fun s =>
    match s.physOf gl with
    | some gp => if (s.core gp).loader.isSome then s.loadStop gp 6 else s
    | none => s))

/-- Write the entries of an image row: those from the next entry on, up to COUNT. -/
def Core.loadEntries (c : Core) (l : Loader) (row : Row) : Core × Nat :=
  let from_ := (l.addr + 16 * l.done) % 128 / 16
  let n := min (8 - from_) (l.count - l.done)
  let c := (List.range n).foldl (fun (c : Core) i =>
    let idx := l.bank * 4096 + l.first + l.done + i
    { c with pmem := Tbl.set 0 c.pmem idx (BitVec.ofNat 128 (row.toNat / 2 ^ (128 * (from_ + i)))),
             pmemUpset := Tbl.set 0 c.pmemUpset idx 0 }) c
  (c, n)

/-- An image row has come with any error status: the brand of a hide that has been read whole is checked, and the entries are
written (R98). Of a hide that the image holds only in part, at its first or last edge, the engine does not read the whole granule, and
no brand is checked (DESIGN CHOICE, log entry 64: the rule does not speak of partial hides). `cyc` is the core's time, `mcAt` the
controller's, and `brandErr` what the read of the hide's brand meets. -/
def State.loadRow (s : State) (gp cyc mcAt brandErr : Nat) (row : Row) (err : Option (BitVec 64)) : State :=
  let c := s.core gp
  match c.loader, err with
  | none, _ => s
  | some _, some e => (s.coreErr gp 2 0x04 cyc e).loadStop gp 4
  | some l, none =>
    let a := l.rowAddr
    let rows := if a % 2048 = 0 then [row] else l.rows ++ [row]
    let whole := a % 2048 = 1920 ∧ rows.length = 16
    let (b, s) := if whole then s.storedBrand (a - 1920) mcAt brandErr else (none, s)
    let c := s.core gp
    if b.isSome ∧ b ≠ some (brandOf rows) then (s.brandFail gp cyc false (brandSynd 3 0 0 0 s.myId 0)).loadStop gp 3
    else
      let (c, n) := c.loadEntries l row
      let l := { l with done := l.done + n, rows := rows }
      let s := (s.setCore gp { c with loader := some l }).wf (loadStat gp) 12 0 l.done
      if l.done = l.count then
        ((s.modCore gp (fun c => { c with loader := none })).wf (loadStat gp) 31 31 0).wf (loadStat gp) (16 + l.bank) (16 + l.bank) 1
      else s

/-- A row that would return void stops the load with ERR 7 and counts in FEED_DENY (R98). So does an image row in a slice that R151 refuses,
which counts in SLICE_DENY as well: R98 names only R183, R186 and R364 (DESIGN CHOICE, log entry 64). -/
def State.loadDenied (s : State) (gp : Nat) : State := (s.bump (corePg gp + 0x700) 31 0 1).loadStop gp 7

/-! ### The debug window (R153) -/

/-- A fetch of the debug window waits behind landings for its bank (rank 6, R137): the core goes on, cycle by cycle, until it is served.
At most each access due can win against it once. -/
def State.dbgWait (s : State) (gp : Nat) : Nat → State
  | 0 => s
  | n + 1 =>
    if (s.core gp).acc.any (fun a => match a.op with | .rd _ _ (.dbg _) => true | _ => false) then
      (s.reach gp ((s.core gp).now + 1)).dbgWait gp n
    else s

/-- The fetch of a row. -/
def State.dbgFetch (s : State) (gp la : Nat) : State :=
  let s := s.modCore gp (fun c =>
    { c with nextId := c.nextId + 1,
             acc := c.acc ++ [{ cyc := c.now, fl := c.nextId, rank := 6, code := 8, field := 0, op := .rd 0 0 (.dbg la) }] })
  s.dbgWait gp ((s.core gp).acc.length + 1)

/-- A write of DBG_SEL; GO fetches a row from a core halted under a D2 session bound to its context (R153). A row past the end of the
W-store has no stated contents: a free value (log entry 4). -/
def State.dbgSel (s : State) (gp : Nat) (val : Word) : State :=
  let a := corePg gp + 0x1100
  let s := s.wr a ((s.rd a &&& ~~~(0x60001FFF : Word)) ||| (val &&& 0x60001FFF))
  let c := s.core gp
  if fld val 31 31 = 0 then s
  else if c.halted ∧ s.d2For gp then
    let s := s.wf a 28 28 0
    let st := fld val 30 29
    let row := fld val 12 0
    if st = 3 then s.dbgRow gp 0
    else if storeRows st ≤ row then
      let (n, s) := s.fresh
      s.dbgRow gp (Config.freeRow n)
    else s.dbgFetch gp (st * 8192 + row)
  else (s.wf a 28 28 1).dbgRow gp 0

/-- DBG_SEL_GO (R153). -/
def execDbgSelGo (ag : Agent) (gp : Nat) (val : Word) (s : State) : Host.Outcome State Fault Refusal := inRange (.dbgSelGo ag gp val) <|
  .next (s.ifAdmitted ag (corePg gp + 0x1100) (fun s => s.dbgSel gp (val ||| 0x80000000)))

/-! ### The dispute capture (R296) -/

/-- The capture of a dispute is cleared and re-enabled. -/
def State.clearDispute (s : State) (gp : Nat) : State :=
  let pg := corePg gp
  let s := [0x2B8, 0x2BC, 0x2C0, 0x2C4].foldl (fun (s : State) o => s.wr (pg + o) 0) s
  s.modCore gp (fun c => { c with watch := { c.watch with captures := c.watch.captures.filter (fun k => k.2.1), dispCap := none } })

/-- DISP_INFO_CLEAR: a write of 1 to DISP_INFO.VALID (R296). -/
def execDispInfoClear (ag : Agent) (gl : Nat) (s : State) : Host.Outcome State Fault Refusal := inRange (.dispInfoClear ag gl) <|
  .next (s.ifAdmitted ag (logPg gl + 0x2B8) (fun s =>
    match s.physOf gl with
    | some gp => s.clearDispute gp
    | none => s))

end Sys2Proof.Machine
end

