-- ==== Sys2Proof/Machine/Slots.lean ====
section
/-! DEFINITION. The coherence roles of the module (R361 to R365), hitches (R366 to R368), the partition table (R369), contexts and
slots (R370 to R376), and notifications (R377, R378). -/

namespace Sys2Proof.Machine

/-! ### Slot lines (R371) -/

/-- STATE of a slot line. -/
def slotState (r : Row) : Nat := r.toNat % 4

/-- The line with its STATE, and the line with DONE and its STATUS. -/
def setSlotState (r : Row) (v : Nat) : Row := BitVec.ofNat 1024 (r.toNat - r.toNat % 4 + v % 4)
def doneLine (r : Row) (status : Nat) : Row :=
  setSlotState (BitVec.ofNat 1024 (r.toNat - r.toNat / 2 ^ 8 % 256 * 2 ^ 8 + status % 256 * 2 ^ 8)) 3

/-- The entry row of a slot: its line with bytes 7:4 set to the slot index (R373). -/
def entryRow (r : Row) (i : Nat) : Row := BitVec.ofNat 1024 (r.toNat - r.toNat / 2 ^ 32 % 2 ^ 32 * 2 ^ 32 + i * 2 ^ 32)

/-- RES_ADDR of a slot line. -/
def resAddr (r : Row) : Nat := r.toNat / 2 ^ 64 % 2 ^ 40 / 128 * 128

/-- Companion address of a slot line. -/
def CtxEng.slotAddr (e : CtxEng) (i : Nat) : Nat := (e.base + 128 * i) % 2 ^ 40

/-- Latest completed read of a slot line. -/
def CtxEng.line (e : CtxEng) (i : Nat) : Row := Tbl.get 0 e.lines i

/-- Change a context's engines. -/
def State.modCtx (s : State) (c : Nat) (f : CtxEng → CtxEng) : State := s.setCtxEng c (f (s.ctxEng c))

/-- Set the TAKEN list, and its length in CTX_STAT. -/
def State.setTaken (s : State) (c : Nat) (l : List Nat) : State :=
  (s.modCtx c (fun e => { e with taken := l })).wf (ctxPg c + 0x114) 22 16 l.length

/-- A read of a slot line has completed. -/
def State.slotSeen (s : State) (c i : Nat) (r : Row) : State := s.modCtx c (fun e => { e with lines := Tbl.put e.lines i r })

/-- Read a slot line with RdShared, unless the module holds it (R373). -/
def State.slotFetch (s : State) (c i : Nat) : State :=
  let e := s.ctxEng c
  let l := Tbl.get {} s.cache (lineKey e.port (e.slotAddr i))
  if l.st ≠ 0 then s.slotSeen c i l.data
  else if s.qLive e.port then s.qReq e.port 0x01 (e.slotAddr i) [] (.slotRead c i)
  else s

/-! ### Admission (R370) -/

/-- Why a context is refused: 1 not ready, shutting down, in I1 or I2 (R399), or D3 open (R397), 2 drain, 3 port not UP, 4 entry core not owned; 0 none. -/
def State.ctxDeny (s : State) (c : Nat) : Nat :=
  let lcore := s.rf (ctxPg c + 0x10C) 11 0
  let d3 := match s.dbg with | some d => decide (d.level = 3) | none => false
  if s.rf (modPg 0 1 + 0x100) 31 31 = 0 ∨ s.rf (modPg 0 1 + 0x118) 31 30 ≠ 0 ∨ 2 ≤ s.rf (modPg 8 0 + 0x108) 31 29 ∨ d3 = true then 1
  else if s.rf (modPg 9 0 + 0x110) 31 31 = 1 then 2
  else if !s.qUp (s.ctxPortReg c) then 3
  else if s.logCtx lcore ≠ some c then 4
  else 0

/-- EN = 1 has committed for a context: it is admitted, or EN commits as 0. -/
def State.admitCtx (s : State) (c : Nat) : State :=
  let pg := ctxPg c
  if s.ctxActive c ∨ s.rf (pg + 0x100) 31 31 = 0 then s
  else
    match s.ctxDeny c with
    | 0 =>
      let e : CtxEng := { port := s.ctxPortReg c, base := s.rf (pg + 0x104) 31 13 * 2 ^ 13 + s.rf (pg + 0x108) 7 0 * 2 ^ 32,
                          ring := s.rf (pg + 0x10C) 20 16, lcore := s.rf (pg + 0x10C) 11 0, rows := s.rf (pg + 0x110) 5 0 + 1 }
      let s := (s.setCtxEng c e).wf (pg + 0x114) 31 31 1
      let inst := modPg 6 0 + 0x120 + 4 * c
      let s := s.wr inst (s.rd inst + 1)
      (List.range 64).foldl (fun (s : State) i => s.slotFetch c i) s
    | d => (s.wf (pg + 0x100) 31 31 0).wf (pg + 0x114) 30 28 d

/-! ### The cut (R373) -/

/-- Land one entry row in the entry ring; with no room, or a ring that is disabled, invalid or armed, the stroke counts in
ENTRY_FULL. The answer says whether the row was delivered. -/
def State.entryLand (s : State) (c cyc : Nat) (e : Entry) : Bool × State :=
  let x := s.ctxEng c
  let full := s.bump (ctxPg c + 0x11C) 31 0 1
  match s.physOf x.lcore with
  | none => (false, full)
  | some gp =>
    let s := s.reach gp cyc
    let full := s.bump (ctxPg c + 0x11C) 31 0 1
    let g := s.ringCfg gp x.ring
    let k := s.core gp
    let r := k.ring x.ring
    if !g.on ∨ (k.arm x.ring).isSome ∨ g.room r < 1 ∨ k.zeroing ∨ 256 ≤ g.sub r.resv r.tail then (false, full)
    else
      let ptr := r.resv
      let s := s.setCore gp (k.setRing x.ring { r with resv := g.adv ptr 1, outside := true })
      (true, s.startLanding gp cyc x.ring ptr r.gen 5 [e] { rows := 1 } none)

/-- The slot the engine picks: the first at or after NEXT that shows POSTED and is not TAKEN, while EN = 1 (R370, R373). -/
def State.pickSlot (s : State) (c : Nat) : Option Nat :=
  let e := s.ctxEng c
  let next := s.rf (ctxPg c + 0x114) 5 0
  if s.rf (ctxPg c + 0x100) 31 31 = 0 then none
  else ((List.range 64).map (fun k => (next + k) % 64)).find? (fun i => decide (slotState (e.line i) = 1) && !e.taken.contains i)

/-- One context's part of the cut. -/
def State.cutCtx (s : State) (cyc c : Nat) : State :=
  if !s.ctxActive c then s
  else
    let pick := s.pickSlot c
    let row : Entry := pick.map (fun i => entryRow ((s.ctxEng c).line i) i)
    let (ok, s) := s.entryLand c cyc row
    s.modCtx c (fun e => { e with chosen := if ok then pick else none })

/-- SLOT_CUT: 300 ns before a boundary each ACTIVE context's engine delivers one row (R373). -/
def execSlotCut (cyc : Nat) (s : State) : Host.Outcome State Fault Refusal :=
  .next ((List.range 16).foldl (fun (s : State) c => s.cutCtx cyc c) s)

/-! ### The boundary: taking slots, closing return banks (R375, R376) -/

/-- The chosen slot joins the TAKEN list and its line is taken with RdOwn (R375). -/
def State.takeSlot (s : State) (c : Nat) : State :=
  let e := s.ctxEng c
  match e.chosen with
  | none => s
  | some i =>
    let s := (s.modCtx c (fun e => { e with chosen := none })).setTaken c (e.taken ++ [i])
    let s := (s.wf (ctxPg c + 0x114) 5 0 ((i + 1) % 64)).bump (ctxPg c + 0x118) 31 0 1
    if s.qLive e.port then s.qReq e.port 0x02 (e.slotAddr i) [] (.slotOwn c i) else s

/-- The bank of the stroke that ends closes (R376). -/
def State.closeBank (s : State) (c stroke : Nat) : State :=
  let e := s.ctxEng c
  let bank := if stroke % 2 = 0 then e.bank0 else e.bank1
  let s := s.setCtxEng c (if stroke % 2 = 0 then { e with bank0 := [] } else { e with bank1 := [] })
  match Tbl.find? bank 0 with
  | none => s
  | some row0 =>
    let slot := row0.toNat / 2 ^ 32 % 64
    if !e.taken.contains slot then s.bump (ctxPg c + 0x124) 31 0 1
    else
      let line := e.line slot
      let co : CopyOut := { slot := slot, open_ := bank.length, status := if bank.length < e.rows then 1 else 0,
                            irq := decide (line.toNat / 4 % 2 = 1) }
      let s := s.modCtx c (fun e => { e with copies := e.copies ++ [co] })
      bank.foldl (fun (s : State) p => s.companionWrite e.port ((resAddr line + 128 * p.1) % 2 ^ 40) p.2 (.copyOut c slot)) s

/-- A context's part of a boundary: `stroke` is the stroke that ends. -/
def State.ctxBoundary (s : State) (stroke c : Nat) : State :=
  if !s.ctxActive c then s
  else
    let s := s.modCtx c (fun e => { e with copies := e.copies.map (fun k => if k.due then k else { k with due := true, late := decide (k.open_ ≠ 0) }) })
    (s.closeBank c stroke).takeSlot c

/-! ### DONE (R376) -/

/-- The module writes DONE into a slot line it holds, removes the slot from the TAKEN list, counts it in CTX_PROG, and sends the
completion interrupt. -/
def State.doneNow (s : State) (c slot : Nat) (line : Row) : State :=
  let e := s.ctxEng c
  match e.copies.find? (fun k => decide (k.slot = slot) && k.due) with
  | none => s
  | some k =>
    let r := doneLine line k.status
    let s := (s.cachePut (lineKey e.port (e.slotAddr slot)) { st := 3, data := r }).slotSeen c slot r
    let s := (s.modCtx c (fun e => { e with copies := e.copies.erase k })).setTaken c (e.taken.erase slot)
    let a := modPg 4 0 + 0x200 + 4 * c
    let s := s.wr a (s.rd a + 1)
    let s := if k.late then s.bump (ctxPg c + 0x128) 31 0 1 else s
    if k.irq then s.notify e.port c false else s

/-- DONE_WRITE: a step whose copy-out has every Cmp, at or after its boundary, is set DONE (R376). A line the module no longer
holds for writing is taken with RdOwn first. -/
def execDoneWrite (ctx : Nat) (s : State) : Host.Outcome State Fault Refusal := inRange (.doneWrite ctx) <|
  let e := s.ctxEng ctx
  match e.copies.find? (fun k => k.due && decide (k.open_ = 0) && !k.sent) with
  | none => .next s
  | some k =>
    let l := Tbl.get {} s.cache (lineKey e.port (e.slotAddr k.slot))
    if 2 ≤ l.st then .next (s.doneNow ctx k.slot l.data)
    else
      let s := s.modCtx ctx (fun e => { e with copies := e.copies.map (fun j => if j = k then { j with sent := true } else j) })
      .next (if s.qLive e.port then s.qReq e.port 0x02 (e.slotAddr k.slot) [] (.slotDone ctx k.slot) else s)

/-! ### Event queues (R378) -/

def State.evqAddr (s : State) (p : QPort) : Nat :=
  s.rf (qPg p + 0x120) 31 13 * 2 ^ 13 + s.rf (qPg p + 0x124) 7 0 * 2 ^ 32 + 32 * s.rf (qPg p + 0x128) 7 0

/-- The next waiting record is written, or dropped from a full queue; vector 63 is notified for a dropped one. -/
def State.evqGo (s : State) (p : QPort) : Nat → State
  | 0 => s
  | n + 1 =>
    let x := s.q p
    match x.evq with
    | [] => s
    | r :: rest =>
      if x.reqs.any (fun k => decide (k.why = .evq)) then s
      else if (s.rf (qPg p + 0x128) 7 0 + 1) % 256 = s.rf (qPg p + 0x12C) 7 0 then
        (((s.setQ p { x with evq := rest }).bump (qPg p + 0x130) 31 0 1).notify p 63 false).evqGo p n
      else
        let a := s.evqAddr p
        let at_ := a % 128
        s.qReq p 0x05 (a / 128 * 128) [BitVec.ofNat 1024 ((2 ^ 32 - 1) * 2 ^ at_), BitVec.ofNat 1024 (r.toNat % 2 ^ 256 * 2 ^ (8 * at_))] .evq

/-- A chip-level record is notified on each port that is UP (R13, R378). A port in RETRAINING, which loses no message, counts as one whose
link is up (DESIGN CHOICE, log entry 70). -/
def State.chipNotify (s : State) (r : Row) : State :=
  [QPort.qa, QPort.qb].foldl (fun (s : State) p =>
    if !s.qLive p then s
    else if s.rf (qPg p + 0x120) 0 0 = 0 then s.notify p 63 false
    else
      let x := s.q p
      (s.setQ p { x with evq := x.evq ++ [r] }).evqGo p (x.evq.length + 1)) s

/-! ### Completions (R361, R365) -/

/-- Take a request's answer: its slots are freed at the module. -/
def State.qTake (s : State) (p : QPort) (tag : Nat) (chans : List (Nat × Nat)) : Option QReq × State :=
  let x := s.q p
  match x.reqs.find? (fun r => decide (r.tag = tag)) with
  | none => (none, s)
  | some r =>
    let l := chans.foldl (fun (l : QLink) c => { l with freed := l.freed.set c.1 (l.freed.getD c.1 0 + c.2) }) x.link
    (some r, s.setQ p { x with reqs := x.reqs.erase r, link := l })

/-- SYND of a companion line returned with STATUS 3 (R365). -/
def companionSynd (addr : Nat) : BitVec 64 := BitVec.ofNat 64 (2 ^ 63 + addr / 128 % 2 ^ 33)

/-- A refused row of a transfer: void, counted in FEED_DENY of its core. -/
def State.xferDenied (s : State) (xid idx : Nat) : State :=
  let core := (s.xfers.find? (fun x => decide (x.id = xid))).bind (fun x => x.core)
  s.rowDenied { xfer := xid, idx := idx, addr := 0, ctx := none, fabric := false, core := core }

/-- The core's pattern load is the one with that number: the answer to a request of an earlier one is no row of it (R97, R98). -/
def Core.loads (c : Core) (no : Nat) : Bool := match c.loader with | some l => decide (l.no = no) | none => false

/-- A request to a port is answered with a line, or with nothing (`none`: refused or lost). A slot whose line is no longer POSTED leaves the
TAKEN list again, so that its step's return is refused (R375, R376). -/
def State.answered (s : State) (p : QPort) (r : QReq) (grant : Nat) (line : Option Row) (ue : Bool) : State :=
  let hold : State → Nat → Row → State := fun s st d => if st = 0 ∨ 2 < st then s else s.cachePut (lineKey p r.addr) { st := st, data := d }
  let err := if ue then some (companionSynd r.addr) else none
  match r.why, line with
  | .feed x i, some d => (hold s grant d).rowDone x i (some d) err
  | .feed x i, none => s.xferDenied x i
  | .load gp no, some d => if (s.core gp).loads no then (hold s grant d).loadRow gp (s.coreAt (s.core gp).now) 0 0 d err else hold s grant d
  | .load gp no, none => if (s.core gp).loads no then s.loadDenied gp else s
  | .slotRead c i, some d =>
    let s := hold s grant d
    if s.ctxActive c ∧ (s.ctxEng c).port = p then s.slotSeen c i d else s
  | .slotOwn c i, some d =>
    if s.ctxActive c ∧ (s.ctxEng c).taken.contains i then
      if slotState d = 1 then
        let d := setSlotState d 2
        (s.cachePut (lineKey p r.addr) { st := 3, data := d }).slotSeen c i d
      else (((hold s 2 d).slotSeen c i d).setTaken c ((s.ctxEng c).taken.erase i)).bump (ctxPg c + 0x120) 31 0 1
    else hold s 2 d
  | .slotDone c i, some d => if s.ctxActive c then s.doneNow c i d else hold s 2 d
  | _, _ => s

/-- CMP_DATA: a companion line comes back with its grant and status (R361, R365). -/
def execCmpData (p : QPort) (tag grant status : Nat) (line : Row) (s : State) : Host.Outcome State Fault Refusal := inRange (.cmpData p tag grant status line) <|
  match s.qTake p tag [(2, 1), (3, 8)] with
  | (none, s) => .next s
  | (some r, s) => .next (s.answered p r grant (if status = 0 ∨ status = 3 then some line else none) (decide (status = 3)))

/-- QUEXON_CMP: a Cmp completes a write, interrupt or write-back; copy-out comes nearer to DONE, or EVQ_PROD advances (R361,
R376, R378). -/
def execQuexonCmp (p : QPort) (tag _status : Nat) (s : State) : Host.Outcome State Fault Refusal := inRange (.quexonCmp p tag _status) <|
  match s.qTake p tag [(2, 1)] with
  | (none, s) => .next s
  | (some r, s) =>
    match r.why with
    | .copyOut c slot =>
      .next (s.modCtx c (fun e =>
        match e.copies.find? (fun k => decide (k.slot = slot) && decide (k.open_ ≠ 0)) with
        | none => e
        | some k => { e with copies := e.copies.map (fun j => if j = k then { j with open_ := j.open_ - 1 } else j) }))
    | .evq =>
      let s := s.wf (qPg p + 0x128) 7 0 ((s.rf (qPg p + 0x128) 7 0 + 1) % 256)
      let x := s.q p
      .next (((s.setQ p { x with evq := x.evq.drop 1 }).notify p 63 false).evqGo p x.evq.length)
    | _ => .next s

/-! ### Snoops (R361, R365, R373) -/

/-- The contexts and slots whose slot line an address of a port is. -/
def State.slotsAt (s : State) (p : QPort) (addr : Nat) : List (Nat × Nat) :=
  (List.range 16).filterMap (fun c =>
    let e := s.ctxEng c
    if s.ctxActive c ∧ e.port = p ∧ e.base ≤ addr ∧ addr < e.base + 8192 then some (c, (addr - e.base) / 128) else none)

/-- A received SNP message frees its slot. -/
def State.snpFree (s : State) (p : QPort) : State :=
  let x := s.q p
  s.setQ p { x with link := { x.link with freed := x.link.freed.set 1 (x.link.freed.getD 1 0 + 1) } }

/-- SNP_INV: the line is invalid after the answer; an M line is forwarded; a slot line is read again (R361, R373). -/
def execSnpInv (p : QPort) (addr tag : Nat) (s : State) : Host.Outcome State Fault Refusal := inRange (.snpInv p addr tag) <|
  if !s.qUp p then .next s
  else
    let s := s.snpFree p
    let key := lineKey p addr
    let l := Tbl.get {} s.cache key
    let s := { s with cache := Tbl.erase s.cache key }
    let s := if l.st = 3 then s.qMsg p { op := 0x1A, addr := addr, tag := tag, data := [l.data] }
      else s.qMsg p { op := 0x18, addr := addr, tag := tag }
    .next ((s.slotsAt p addr).foldl (fun (s : State) x => s.slotFetch x.1 x.2) s)

/-- SNP_DATA: the line is S after the answer; an M line is forwarded, a line not held is answered invalid (R361). -/
def execSnpData (p : QPort) (addr tag : Nat) (s : State) : Host.Outcome State Fault Refusal := inRange (.snpData p addr tag) <|
  if !s.qUp p then .next s
  else
    let s := s.snpFree p
    let key := lineKey p addr
    let l := Tbl.get {} s.cache key
    if l.st = 0 then .next (s.qMsg p { op := 0x18, addr := addr, tag := tag })
    else
      let s := { s with cache := Tbl.set {} s.cache key { l with st := 1 } }
      .next (if l.st = 3 then s.qMsg p { op := 0x1A, addr := addr, tag := tag, data := [l.data] }
        else s.qMsg p { op := 0x19, addr := addr, tag := tag })

/-! ### Hitches (R366 to R368) -/

/-- HITCH n. -/
def hitchAddr (n : Nat) : Nat := modPg 1 0 + 0x100 + 4 * n

/-- Owner code of an agent. -/
def hitchId (ag : Agent) : Nat := match ag with | .qa => 1 | .qb => 2 | .mgmt => 3

/-- A read claims a free hitch and returns the owner found. -/
def State.hitchRead (s : State) (ag : Agent) (n : Nat) : Nat × State :=
  let o := s.rf (hitchAddr n) 1 0
  (o, if o = 0 then s.wf (hitchAddr n) 1 0 (hitchId ag) else s)

/-- A write of 0 by the owner frees; any other write counts in HITCH_DENY (R367). -/
def State.hitchWrite (s : State) (ag : Agent) (n : Nat) (v : Word) : State :=
  if v = 0 ∧ s.rf (hitchAddr n) 1 0 = hitchId ag then s.wf (hitchAddr n) 1 0 0 else s.bump (modPg 1 0 + 0x540) 31 0 1

/-- HITCH_CLAIM (R366). -/
def execHitchClaim (ag : Agent) (n : Nat) (s : State) : Host.Outcome State Fault Refusal := inRange (.hitchClaim ag n) <|
  let (v, s) := s.hitchRead ag n
  .next (s.send (.value ag (hitchAddr n) (BitVec.ofNat 64 v)))

/-- HITCH_RELEASE (R367). -/
def execHitchRelease (ag : Agent) (n : Nat) (val : Word) (s : State) : Host.Outcome State Fault Refusal := inRange (.hitchRelease ag n val) <| .next (s.hitchWrite ag n val)

/-- Free every hitch of an owner. -/
def State.freeHitches (s : State) (id : Nat) : State :=
  (List.range 256).foldl (fun (s : State) n => if s.rf (hitchAddr n) 1 0 = id then s.wf (hitchAddr n) 1 0 0 else s) s

/-! ### The partition table (R369) -/

/-- One partition entry of a region: cores below 64, then slices, of which one that was drained for goes to no context (R337);
SLICE_OWN mirrors a slice's entry (R151). -/
def State.partEntry (s : State) (region i v : Nat) : State :=
  let a := rcPg region 1 + 0x100 + i
  if v / 128 % 2 = 0 ∨ s.rdByte a / 128 = 1 then s
  else if i < 64 then
    match s.physOf (64 * region + i) with
    | none => s
    | some gp => if (s.core gp).zeroing then s else s.wrByte a (v % 256 - v / 16 % 8 * 16)
  else
    let n := 64 * region + (i - 64)
    if s.sliceZero.contains n ∨ s.flash.badSlices.contains n then s
    else ((s.wrByte a (v % 256 - v / 16 % 8 * 16)).wr (slicePg n + 0x100) (BitVec.ofNat 32 (16 + v % 16)))

/-- A write of a partition register: four entries. -/
def State.partWrite (s : State) (region word : Nat) (val : Word) : State :=
  (List.range 4).foldl (fun (s : State) i => s.partEntry region (4 * word + i) (fld val (8 * i + 7) (8 * i))) s

/-- PARTITION_ENTRY_WRITE (R369). -/
def execPartitionEntryWrite (ag : Agent) (region word : Nat) (val : Word) (s : State) : Host.Outcome State Fault Refusal := inRange (.partitionEntryWrite ag region word val) <|
  .next (s.ifAdmitted ag (rcPg region 1 + 0x100 + 4 * word) (fun s => s.partWrite region word val))

/-! ### Vector masks (R377) -/

/-- A write of VEC_CTL: clearing MASK sends one IntWr for a held notification. Held notifications that differ in their fault
flag leave the flag of the one IntWr open: a free value (log entry 25). -/
def State.vecCtl (s : State) (p : QPort) (v : Nat) (val : Word) : State :=
  let a := qPg p + 0x40C + 16 * v
  let k := (match p with | .qa => 0 | .qb => 64) + v
  let s := s.wf a 0 0 (fld val 0 0)
  if fld val 0 0 = 0 ∧ s.rf a 1 1 = 1 then
    let seen := Tbl.get 0 s.vecHeld k
    let s := ({ s with vecHeld := Tbl.erase s.vecHeld k }).wf a 1 1 0
    let (n, s) := s.fresh
    let fault := if seen = 2 then true else if seen = 3 then (Config.freeWord n).toNat % 2 = 1 else false
    if s.qLive p then s.intWr p v fault else s
  else s

/-- VEC_MASK_WRITE (R377). -/
def execVecMaskWrite (ag : Agent) (p : QPort) (v : Nat) (val : Word) (s : State) : Host.Outcome State Fault Refusal := inRange (.vecMaskWrite ag p v val) <|
  .next (s.ifAdmitted ag (qPg p + 0x40C + 16 * v) (fun s => s.vecCtl p v val))

end Sys2Proof.Machine
end

