-- ==== Sys2Proof/Machine/Channel.lean ====
section
/-! DEFINITION. Service of a memory channel in its classes (R188, R189): class-1 rows of reads and writes (R186, R192 to R194), the host's
accesses (R363) and the pattern loads (R98) of class 2. -/

namespace Sys2Proof.Machine

/-! ### Class 2: host accesses (R363) -/

/-- The DRAM row a host address names, if the page is OWNED by an ACTIVE context on that port. -/
def State.hostHome (s : State) (p : QPort) (addr : Nat) : Option (Nat × Nat) :=
  match homeOf addr with
  | .dram region off =>
    let off := off / 128 * 128
    let b := s.rdByte (ownerAddr region (off / 2 ^ 21))
    if b / 64 = 1 ∧ s.ctxActive (b % 16) ∧ s.ctxPort (b % 16) = p then some (region, off) else none
  | _ => none

/-- A host request frees its slots when it has been served. -/
def State.reqFree (s : State) (p : QPort) (data : Nat) : State :=
  let x := s.q p
  let f := x.link.freed.set 0 (x.link.freed.getD 0 0 + 1)
  s.setQ p { x with link := { x.link with freed := f.set 3 (f.getD 3 0 + data) } }

/-- A refused host access (R363). -/
def State.memDeny (s : State) (p : QPort) (m : QMsg) : State := (s.bump (qPg p + 0x114) 31 0 1).qMsg p { m with status := 1 }

/-- Bytes of a row taken from another where the mask is set. -/
def mergeRow (old new : Row) (mask : BitVec 128) : Row :=
  BitVec.ofNat 1024 (ofBytesLE ((List.range 128).map (fun i =>
    (if mask.getLsbD i then new.toNat else old.toNat) / 2 ^ (8 * i) % 256)))

/-- Data slots that a host access has filled: a write's line, and with a partial write its mask (R361). -/
def hostSlots (op : Nat) : Nat := match op with | 0x04 => 8 | 0x05 => 9 | _ => 0

/-- What answers a host access: CmpData with GRANT 0 to a read, Cmp to a write (R361, R363). -/
def hostAnswer (op tag : Nat) : QMsg := if op = 0x01 then { op := 0x31, addr := 0, tag := tag, data := [0] } else { op := 0x30, addr := 0, tag := tag }

/-- Serve a host access to a DRAM row: a read returns the row as read, with STATUS 3 where it has an uncorrectable error; a write, or the
masked bytes of a partial write, leave the hide unbranded (R286, R363). A page that has left the context since is refused. `err` is what
the row meets on the link (R192). -/
def State.hostServe (s : State) (p : QPort) (op region off tag err : Nat) (mask : BitVec 128) (line : Row) (cyc : Nat) : State :=
  let m := hostAnswer op tag
  if s.hostHome p (region * 2 ^ 34 + off) ≠ some (region, off) then s.memDeny p m
  else if op = 0x04 then
    let (line, _, s) := s.linkFault region off err cyc false line none
    (s.dramWrite region off line).qMsg p m
  else
    let (row, st, s) := s.dramRead region off cyc
    let (row, st, s) := s.linkFault region off err cyc false row st
    if op = 0x05 then (s.dramWrite region off (mergeRow row line mask)).qMsg p m
    else s.qMsg p { m with status := if st.isSome then 3 else 0, data := [row] }

/-! ### Class 2: pattern loads (R98) -/

/-- The next row of a core's pattern load is read from DRAM: page check, row, error status (R98, R186, R192). -/
def State.loadDram (s : State) (gp region off err cyc : Nat) : State :=
  if s.pageOk region off (s.coreCtx gp) false then
    let (row, st, s) := s.dramRead region off cyc
    let (row, st, s) := s.linkFault region off err cyc false row st
    s.loadRow gp (s.coreAt (s.core gp).now) cyc 0 row st
  else s.loadDenied gp

/-- One class-2 request is served. -/
def State.serveTwo (s : State) (mc cyc : Nat) (x : Class2) : State :=
  match x with
  | .host p op off tag err mask line => s.hostServe p op (mc / 2) off tag err mask line cyc
  | .load gp no err =>
    match (s.core gp).loader with
    | none => s
    | some l =>
      if l.no ≠ no then s
      else match homeOf l.rowAddr with | .dram region off => s.loadDram gp region off err cyc | _ => s

/-- While no class-1 row waits at a channel, its class-2 requests are served in age order (R188); `n` bounds their number. -/
def State.classTwo (s : State) (mc cyc : Nat) : Nat → State
  | 0 => s
  | n + 1 =>
    if s.mcBusy mc ∨ s.memHeld then s
    else match s.class2.find? (fun x => decide (x.1 = mc)) with
      | none => s
      | some x => ({ s with class2 := s.class2.erase x }.serveTwo mc cyc x.2).classTwo mc cyc n

/-- A request of class 2 joins those of its channel, which are served as far as class 1 leaves slots. -/
def State.joinTwo (s : State) (mc cyc : Nat) (x : Class2) : State :=
  { s with class2 := s.class2 ++ [(mc, x)] }.classTwo mc cyc (s.class2.length + 1)

/-- A host access: refused, or a request of class 2 of its channel (R363, R188). -/
def State.hostAccess (s : State) (p : QPort) (op addr tag err t : Nat) (mask : BitVec 128) (line : Row) : State :=
  if !s.qUp p then s
  else
    let s := s.reqFree p (hostSlots op)
    match s.hostHome p addr with
    | none => s.memDeny p (hostAnswer op tag)
    | some (region, off) => s.joinTwo (mcOf region off) (tclkCycle t) (.host p op off tag err mask line)

/-- MEM_RD (R363): CmpData with GRANT 0; an uncorrectable error comes with STATUS 3 and the data as read. -/
def execMemRd (p : QPort) (addr tag err t : Nat) (s : State) : Host.Outcome State Fault Refusal := inRange (.memRd p addr tag err t) <|
  .next (s.hostAccess p 0x01 addr tag err t 0 0)

/-- MEM_WR (R363, R286). -/
def execMemWr (p : QPort) (addr tag err t : Nat) (line : Row) (s : State) : Host.Outcome State Fault Refusal := inRange (.memWr p addr tag err t line) <|
  .next (s.hostAccess p 0x04 addr tag err t 0 line)

/-- MEM_WR_PTL: the masked bytes of the row as read are replaced (R363, R286). -/
def execMemWrPtl (p : QPort) (addr tag err t : Nat) (mask : BitVec 128) (line : Row) (s : State) : Host.Outcome State Fault Refusal := inRange (.memWrPtl p addr tag err t mask line) <|
  .next (s.hostAccess p 0x05 addr tag err t mask line)

/-- Input port of a slice's crossbar by which a core's requests come, and the slice's output port. -/
def sliceOut (n : Nat) : Nat := 10 + n % 8

/-- The pattern load engine gets a slice port: round-robin would pick its input port, and nothing of that port waits before it, since the
engine never delays core traffic (R98, R201). -/
def State.loadGranted (s : State) (gp n : Nat) : Bool :=
  let blk := n / 8
  let in_ := coreIn blk (some gp)
  let waiting := s.xbarWaiting blk (sliceOut n) (s.slicePktOut blk)
  !waiting.contains in_ && decide (rrPick (Tbl.get 0 s.xbarRR (32 * blk + sliceOut n)) 19 (in_ :: waiting) = some in_)

/-- The engine's request has a slot at the core's port: the port carries nothing of the core (R98, R201), the way to the row is there (R212),
and a slice's port grants it. -/
def State.loadSlot (s : State) (gp : Nat) (l : Loader) : Bool :=
  let c := s.core gp
  !s.portShut gp && !c.outReady && (match c.feedQ with | d :: _ => decide (s.feedSpan gp d ≤ d.next) | [] => true)
    && s.pathLive gp l.rowAddr
    && (match homeOf l.rowAddr with | .slice n _ => s.loadGranted gp n | _ => true)

/-- PAT_LOAD_ROW: in a slot that core traffic leaves idle, the next image row is read: from DRAM as a request of class 2, which waits while
class-1 rows do (R188), from a slice at once, or over the context's port (R98). `err` is what a DRAM row meets (R192). The SYND of an
uncorrectable slice row is not stated: a free value (log entry 4). -/
def execPatLoadRow (gp cyc err t : Nat) (s : State) : Host.Outcome State Fault Refusal := inRange (.patLoadRow gp cyc err t) <|
  match (s.core gp).loader with
  | none => .next s
  | some l =>
    let ctx := s.coreCtx gp
    let cy := s.coreAt cyc
    if !s.loadSlot gp l then .next s else
    match homeOf l.rowAddr with
    | .dram region off =>
      if s.class2.any (fun x => match x.2 with | .load g no _ => decide (g = gp) && decide (no = l.no) | _ => false) then .next s
      else .next (s.joinTwo (mcOf region off) (tclkCycle t) (.load gp l.no err))
    | .slice n row =>
      let s := s.xbarGrant (n / 8) (sliceOut n) (coreIn (n / 8) (some gp))
      if s.sliceOk n ctx then
        let u := Tbl.get 0 s.sliceUpset (n * 4096 + row)
        let bad := (List.range 16).any (fun w => decide (eccClass (upWord u w) = 2))
        let (r, s) := s.sliceRead n row (tclkCycle t)
        let (k, s) := if bad then s.fresh else (0, s)
        let st := if bad then some ((Config.freeRow k).truncate 64) else none
        .next (s.loadRow gp cy (tclkCycle t) 0 r st)
      else .next ((s.bump (slicePg n + 0x104) 31 0 1).loadDenied gp)
    | .companion p addr =>
      if !s.companionOk p ctx then .next (s.loadDenied gp)
      else
        let x := Tbl.get {} s.cache (lineKey p addr)
        if x.st ≠ 0 then .next (s.loadRow gp cy (tclkCycle t) 0 x.data none)
        else if !s.qLive p then .next (s.loadDenied gp)
        else if (s.q p).reqs.any (fun r => decide (r.why = .load gp l.no)) then .next s
        else .next (s.qReq p 0x01 addr [] (.load gp l.no))
    | _ => .next (s.loadDenied gp)

/-! ### Class 1 (R186, R188, R189, R192) -/

/-- Serve a class-1 row that a controller has taken: a row to read goes to its transfer with its error status and the brand of a granule that
begins there, a row to write is written; a refused one counts in FEED_DENY (R183, R186, R192 to R194). `err` is what the row meets:
1 to 5 that of `linkFault`, 7 to 9 that of `readBrand` (1 to 3). -/
def State.serveRow (s : State) (r : RowReq) (region off err cyc : Nat) : State :=
  match r.write with
  | some e =>
    match s.memWrs.find? (fun w => decide (w.id = r.xfer)) with
    | none => s
    | some w =>
      let ok := s.rowAdmitted w.pkt r.ctx r.addr
      let (e, s) := match e with
        | some row => if ok then (let (row, _, s) := s.linkFault region off (if err < 6 then err else 0) cyc false row none; (some row, s)) else (some row, s)
        | none => ((none : Entry), s)
      let (s, b) := s.writeMemRow w.pkt r.ctx r.addr e
      s.writeServed r.xfer r.idx b ok
  | none =>
    let s := s.tick (mcPg (mcOf region off) + 0x104) 1
    if s.pageOk region off r.ctx r.fabric then
      let (row, st, s) := s.dramRead region off cyc
      let (row, st, s) := s.linkFault region off (if err < 6 then err else 0) cyc false row st
      let (b, s) := s.storedBrand r.addr cyc (err - 6)
      (s.rowBrand r b).rowDone r.xfer r.idx (some row) st
    else s.rowDenied r

/-- MC_REQUEST: the controller accepts its `n`-th waiting class-1 row, if that is the one it serves next, checks ownership and serves it
through the correction stage `served` ns after its acceptance (R186, R188, R189, R192 to R194); then class 2 has the slots that class 1
leaves. `err` is what the row meets (`serveRow`), or 6, an uncorrectable error of the controller's control logic (R326). While a reset
holds the controller, the request counts in RST_DROP and returns nothing (R346). -/
def execMcRequest (mc n served err t : Nat) (s : State) : Host.Outcome State Fault Refusal := inRange (.mcRequest mc n served err t) <|
  let now := s.gen.base + 16 * t
  match s.nthReq (reqOfMc mc) n with
  | none => .next s
  | some r =>
    if s.memHeld then
      .next { s.rstDrop with reqs := s.reqs.erase r, xfers := s.xfers.filter (fun x => r.write.isSome || decide (x.id ≠ r.xfer)),
                             memWrs := s.memWrs.filter (fun w => r.write.isNone || decide (w.id ≠ r.xfer)) }
    else if s.mcPick mc now ≠ some r then .next s
    else
      let s := s.mcTake mc now r
      let s := if err = 6 then s.ctrlErr (mcPg mc) (tclkCycle t) else s
      let s := s.peak (mcPg mc + 0x10C) served
      let s := match homeOf r.addr with
        | .dram region off => s.serveRow r region off (if err = 6 then 0 else err) (tclkCycle t)
        | _ => s.rowDenied r
      .next (s.classTwo mc (tclkCycle t) s.class2.length)

end Sys2Proof.Machine
end

