-- ==== Sys2Proof/Machine/View.lean ====
section
/-! DEFINITION. What a register read returns (R7, R21 to R26): stored registers, and the views that are computed from the state. -/

namespace Sys2Proof.Machine

/-! ### The header (R26) -/

/-- An uncommitted shadow is present in the unit of a page. -/
def State.shadowPend (s : State) (l : Loc) : Bool :=
  s.shadow.any (fun p =>
    let k := locOf p.1
    decide (k.module = l.module) && decide (k.region = l.region) && decide (k.blk = l.blk) && decide (k.unit = l.unit))

/-- UNIT_STAT of a unit whose header starts at `h`: ERR, FENCED, ENABLED. -/
def State.unitStat (s : State) (h : Nat) (fenced : Bool) : Word :=
  BitVec.ofNat 32 (bit (decide (s.rd (h + 0x18) ≠ 0)) * 8 + bit fenced * 2 + s.rf (h + 0x10) 0 0)

/-- A header register. -/
def State.hdrView (s : State) (a : Nat) (l : Loc) : Word :=
  match l.off with
  | 0 => unitId l
  | 4 => unitVer
  | _ =>
    let gp := if l.logical then s.physOf l.gl else if l.physical then some l.gp else none
    if l.logical ∧ gp.isNone then (if l.off = 0x14 then 4 else 0)
    else
      let home := match gp with
        | some p => corePg p
        | none => homeAddr (a - l.off)
      match l.off with
      | 0x14 => s.unitStat home (match gp with | some p => decide (s.physState p = 2) || decide (s.rf (corePg p + 0x10) 1 1 = 1) | none => false)
      | 0x40 => BitVec.ofNat 32 (bit (s.shadowPend (locOf home)))
      | 0x10 => if l.physical then s.rdShown (home + 0x10) else s.rdShown (home + 0x10) &&& 0xFFFFFFFD
      | o => match rowOf l with
        | some _ => s.rdShown (home + o)
        | none => 0

/-! ### Views of a core (R62, R66, R146, R148) -/

/-- TRACE_STAT n: HWM and RESID as of s16, OCC and MAPERR now. -/
def State.traceStat (s : State) (gp n : Nat) : Word :=
  let t := (s.core gp).trace n
  let w := setFld (s.rd (corePg gp + 0x380 + 4 * n)) 15 8 (t.ents.length + t.resv)
  setFld w 0 0 (bit (mapBad n (s.rd (corePg gp + 0x300 + 4 * n))))

/-- RING_ERR: rings whose committed descriptor is invalid (R148). -/
def State.ringErr (s : State) (gp : Nat) : Word :=
  BitVec.ofNat 32 ((List.range 32).foldl (fun k n => k + bit (s.ringBad gp n) * 2 ^ n) 0)

/-- Where a core's test debt counts from: the end of its last pass that confirmed no failure, or of bring-up for a core that has never
completed one (R313). -/
def State.debtFrom (s : State) (gp : Nat) : Nat :=
  let x := s.asyCore gp
  if x.since = 0 then s.asyFrom else x.since

/-- A unit-specific register of a core, `h` its home. -/
def State.coreView (s : State) (gp h : Nat) : Word :=
  let off := h - corePg gp
  if 0x380 ≤ off ∧ off < 0x3C8 then s.traceStat gp ((off - 0x380) / 4)
  else if off = 0x278 then s.ringErr gp
  else if 0x400 ≤ off ∧ off < 0x600 ∧ off % 16 = 8 then
    let r := (s.core gp).ring ((off - 0x400) / 16)
    BitVec.ofNat 32 (r.tail * 2 ^ 16 + r.head)
  else if 0x400 ≤ off ∧ off < 0x600 ∧ off % 16 = 12 then
    let r := (s.core gp).ring ((off - 0x400) / 16)
    BitVec.ofNat 32 (r.resv * 2 ^ 16 + r.claim)
  else if off = 0x804 then BitVec.ofNat 32 (min ((s.asyAt - s.debtFrom gp) / 16000000000) (2 ^ 32 - 1))
  else s.rdShown h

/-! ### Views of module units -/

/-- HITCH_MAP m (R366). -/
def State.hitchMap (s : State) (m : Nat) : Word :=
  BitVec.ofNat 32 ((List.range 16).foldl (fun n k => n + s.rf (hitchAddr (16 * m + k)) 1 0 * 2 ^ (2 * k)) 0)

/-- Seconds, rounded up, of a time in 1/16 ns. -/
def secondsUp (t : Nat) : Nat := (t + 15999999999) / 16000000000

/-- DBG_STAT (R394, R395). -/
def State.dbgStat (s : State) : Word :=
  match s.dbg with
  | none => 0
  | some d => BitVec.ofNat 32 (2 ^ 31 + d.level * 2 ^ 29 + hitchId d.agent * 2 ^ 27 + (if d.level = 2 then d.ctx * 2 ^ 23 else 0) + min (secondsUp d.left) 0x1FFFF)

/-- Spare cores of the module (HEAL_STAT.SPARES). -/
def State.spareCount (s : State) : Nat := ((List.range 5120).filter (fun gp => decide (s.physState gp = 1))).length

/-- Some channel is HOT (R191). -/
def State.anyHot (s : State) : Bool := (List.range 128).any (fun mc => decide (s.rf (mcPg mc + 0x100) 29 29 = 1))

/-- A register of a module unit. -/
def State.modView (s : State) (l : Loc) (h : Nat) : Word :=
  match l.unit, l.page, l.off with
  | 6, 0, 0x100 => BitVec.ofNat 32 (s.flash.lifecycle * 2 ^ 30 + bit s.flash.zeroPend * 2 ^ 29 + bit s.aon.recovery * 2 ^ 28)
  | 6, 0, 0x104 => BitVec.ofNat 32 (bit s.flash.owner.isSome * 2 ^ 31 + s.flash.minSvn * 2 ^ 4 + s.flash.revoked.toNat)
  | 6, 0, 0x108 => s.dbgStat
  | 6, 0, 0x160 => BitVec.ofNat 32 s.flash.deviceId.toNat
  | 6, 0, 0x164 => BitVec.ofNat 32 (s.flash.deviceId.toNat / 2 ^ 32)
  | 7, 0, 0x110 => BitVec.ofNat 32 s.flash.mac.toNat
  | 7, 0, 0x114 => BitVec.ofNat 32 (s.flash.mac.toNat / 2 ^ 32)
  | 8, 0, 0x108 => setFld (s.rd h) 24 24 (bit s.anyHot)
  | 9, 0, 0x104 => (match s.reserve.head? with | some a => BitVec.ofNat 32 (a.setId % 2 ^ 16 * 2 ^ 16 + a.version % 2 ^ 16) | none => 0)
  | 8, 0, 0x118 => setFld (s.rd h) 28 28 ((Config.freeWord s.freeCtr).toNat % 2)
  | 9, 0, 0x110 =>
    let w := setFld (setFld (s.rd h) 22 12 s.spareCount) 9 0 s.absentCount
    setFld w 30 30 (bit s.flash.replaceSoon)
  | 1, 0, o => if 0x500 ≤ o ∧ o < 0x540 then s.hitchMap ((o - 0x500) / 4) else s.rd h
  | _, _, _ => s.rdShown h

/-- What a read of the register at an address returns, before any effect of the read (R21 to R26). -/
def State.regView (s : State) (a : Nat) : Word :=
  let l := locOf a
  if (pageRows l).isNone ∨ s.dark l then 0
  else if l.off < 0x100 then s.hdrView a l
  else
    match s.homeReg a with
    | none => 0
    | some h =>
      if l.logical then (if l.off = 0x708 then s.rd h else match s.physOf l.gl with | some gp => s.coreView gp h | none => 0)
      else if l.physical ∧ l.page = 0 then s.coreView l.gp h
      else if l.module then s.modView l h
      else if l.blk < 8 ∧ l.unit = 0x30 ∧ l.off = 0x100 then setFld (s.rd h) 5 0 (routerPorts l.blk)
      else if l.blk = 0xE ∧ l.unit = 3 ∧ l.off = 0x100 then setFld (s.rd h) 5 0 (meshPorts l.region)
      else s.rdShown h

end Sys2Proof.Machine
end

