-- ==== Sys2Proof/Machine/Assay.lean ====
section
/-! DEFINITION. Assay of cores (R305 to R315), decisions, healing, holes and drains (R316 to R328). -/

namespace Sys2Proof.Machine

/-! ### The assay manager (R305 to R309) -/

/-- Page of the assay manager. -/
def asyPg : Nat := modPg 9 0

/-- The core that holds a region's assay turn. -/
def State.turn (s : State) (region : Nat) : Option Nat := Tbl.get none s.asyTurn region
def State.setTurn (s : State) (region : Nat) (o : Option Nat) : State := { s with asyTurn := Tbl.set none s.asyTurn region o }

/-- Segment length and segments per pass of a cut (R307). -/
def cutLen (cut : Nat) : Nat := match cut with | 0 => 64 | 1 => 256 | 2 => 1024 | _ => 4096
def cutSegs (cut : Nat) : Nat := match cut with | 0 => 61440 | 1 => 12288 | 2 => 2560 | _ => 576

/-- VERSION of the assay set in use (R305). -/
def State.setVersion (s : State) : Nat := (s.reserve.head?.map (·.version)).getD 0

/-- Committed CUT; EN, with a set to run. -/
def State.cut (s : State) : Nat := s.rf (asyPg + 0x100) 1 0
def State.asyOn (s : State) : Bool := decide (s.rf (asyPg + 0x100) 31 31 = 1) && !s.reserve.isEmpty

/-- A core that may be assayed: active or spare, not being zeroised, not halted (R308). -/
def State.eligible (s : State) (gp : Nat) : Bool :=
  decide (s.physState gp < 2) && s.coreOn gp && !(s.core gp).halted

/-- A core whose turn may come: those it waits for after a yield have had one, or are not eligible. -/
def State.mayTurn (s : State) (gp : Nat) : Bool := s.eligible gp && (s.asyCore gp).waits.all (fun q => !s.eligible q)

/-- The next core of a region: the greatest debt, then the lowest block, then the lowest physical index (R308). -/
def State.nextTurn (s : State) (region : Nat) : Option Nat :=
  let all := ((List.range 80).map (80 * region + ·)).filter (fun gp => s.mayTurn gp)
  all.foldl (fun (o : Option Nat) gp => match o with
    | none => some gp
    | some q => if s.debtFrom gp < s.debtFrom q then some gp else o) none

/-- A core takes the turn of its region. -/
def State.takeTurn (s : State) (gp : Nat) : State :=
  let r := gp / 80
  let s := s.setTurn r (some gp)
  { s with asy := s.asy.map (fun p => if p.1 / 80 = r then (p.1, { p.2 with waits := p.2.waits.filter (· ≠ gp) }) else p) }

/-- The body of the stroke is all slack for a core with RUN = 0 and for a spare; else slack begins when the pattern has completed
(R95, R309). -/
def State.inSlack (s : State) (gp : Nat) : Bool :=
  decide (s.physState gp = 1) || decide (s.rf (corePg gp + 0x200) 8 8 = 0) || (s.core gp).complete

/-- Cycles of the body in progress at the frequency in force (R44, R309). -/
def State.bodyNow (s : State) : Nat := s.gen.len * s.aclk / 16000 - 64

/-- The targeted assay of a region (R315). -/
def State.tgtOf (s : State) (region : Nat) : Option AsyTgt := s.asyTgt.filter (fun t => decide (t.gp / 80 = region))

/-- Where a region has no core under assay the manager chooses the next (R308). -/
def State.choose (s : State) (region : Nat) : State :=
  if s.asyOn && (s.tgtOf region).isNone && (s.turn region).isNone then
    match s.nextTurn region with
    | some gp => s.takeTurn gp
    | none => s
  else s

/-- A segment runs on some core of a region. -/
def State.segRuns (s : State) (region : Nat) : Bool := s.asy.any (fun p => decide (p.1 / 80 = region) && p.2.running.isSome)

/-- The segment's resources (R311): one access of rank 6 for the first touch of each row, one a cycle, and the tile it tests moved to
the assay slot; what stands in the tile meanwhile is not stated (free values, log entry 4). -/
def State.asyBegin (s : State) (gp cyc : Nat) (rows : List Nat) (tile : Option Nat) (tgt : Bool) : State :=
  let id := (s.core gp).nextId
  let accs : List Access := (withIndex 0 (rows.dedup)).map (fun p =>
    { cyc := cyc + p.2, fl := id, rank := 6, code := 8, field := 0, op := .rd 0 0 (.asy p.1) })
  let s := s.modCore gp (fun c => { c with nextId := id + 1, acc := c.acc ++ accs })
  let slot := tile.map (fun t => (t, ((s.core gp).tile t).elems))
  let s := match tile with
    | some t => s.freeTile gp t
    | none => s
  s.modAsy gp (fun x => { x with running := some cyc, tgt := tgt, fl := id, saved := [], slot := slot, gained := true })

/-- ASSAY_SEGMENT_START: a segment that uses `rows` of the stores (at most 32) and perhaps tests a tile starts in slack when at least S
cycles remain before s0, on the core under assay or on the core of a targeted assay, while no other segment of the region runs
(R308, R309, R311, R315); none in a stroke that a brake stop has ended (R312, R402). A core adopts the set in use at the start of its pass
(R306). -/
def execAssaySegmentStart (gp cyc : Nat) (rows : List Nat) (tile : Option Nat) (s : State) : Host.Outcome State Fault Refusal := inRange (.assaySegmentStart gp cyc rows tile) <|
  let r := gp / 80
  let s := (s.reach gp cyc).choose r
  let tgt := match s.tgtOf r with | some t => decide (t.gp = gp) && decide (t.left ≠ []) | none => false
  let mine := tgt || ((s.tgtOf r).isNone && s.asyOn && decide (s.turn r = some gp))
  if !mine ∨ s.gen.seamDone ∨ !s.eligible gp ∨ (s.core gp).gated ∨ s.segRuns r ∨ !s.inSlack gp ∨ s.bodyNow < cyc + cutLen s.cut then .next s
  else
    let s := if tgt then s else s.modAsy gp (fun x =>
      if x.seg = 0 ∧ !x.rerun then { x with set_ := s.setVersion, failed := false } else x)
    .next (s.asyBegin gp cyc rows tile tgt)

/-! ### Records (R328) -/

/-- A chip-level record about a core: SRC names the physical core, CTX the context of its logical core. -/
def State.coreChip (s : State) (gp sev cls t : Nat) (synd : BitVec 64) : State :=
  if s.lvlSuppresses asyPg sev ∧ sev < 3 then s
  else
    let src := match s.logOf gp with
      | some gl => logPg gl
      | none => corePg gp
    s.emit { stroke := s.stroke, cycle := stampCycle (tclkCycle t), src := src, pcore := gp % 10, cls := cls, sev := sev, ctx := s.coreCtx gp,
             synd := synd, chip := true }

/-- SYND of ASSAY_FAIL. -/
def asyFailSynd (seg cut : Nat) (tgt conf : Bool) (area : Nat) (diff : BitVec 64) : BitVec 64 :=
  BitVec.ofNat 64 (seg % 2 ^ 16 + cut * 2 ^ 16 + bit tgt * 2 ^ 18 + bit conf * 2 ^ 19 + area % 16 * 2 ^ 20 + diff.toNat % 2 ^ 32 * 2 ^ 24)

/-! ### Segment results (R306, R313, R314) -/

/-- Golden MISR and test area of a segment in the set of a pass. -/
def State.goldenOf (s : State) (version cut seg : Nat) : BitVec 64 × Nat :=
  match (s.reserve.find? (fun i => decide (i.version = version))).orElse (fun _ => s.reserve.head?) with
  | none => (0, 0)
  | some i => match i.golden.find? (fun g => decide (g.1 = cut) && decide (g.2.1 = seg)) with
    | some g => (g.2.2.1, g.2.2.2)
    | none => (0, 0)

/-- ASY_OVD counts the cores with OVERDUE set. -/
def State.overdueReg (s : State) : State := s.wr (asyPg + 0x118) (BitVec.ofNat 32 (s.asy.filter (fun p => p.2.overdue)).length)

/-- The core advances to its next segment; after the last one its pass is complete, at `t` ns after the boundary, and the manager chooses
the next core (R306, R308, R313). -/
def State.segmentPassed (s : State) (gp t : Nat) : State :=
  let x := s.asyCore gp
  if x.seg + 1 < cutSegs s.cut then s.setAsy gp { x with seg := x.seg + 1, rerun := false }
  else
    let x := { x with seg := 0, rerun := false, passes := x.passes + 1, overdue := false,
                      since := if x.failed then x.since else s.aon.time + 16 * t }
    let s := (s.setAsy gp x).overdueReg
    if s.turn (gp / 80) = some gp then (s.setTurn (gp / 80) none).choose (gp / 80) else s

/-- A confirmed failure goes to the decision table, once per core; the failed segment's test area names its kind, and one of the
checker lanes counts for its block in flash (R316 to R318). -/
def State.confirm (s : State) (gp cause area : Nat) : State :=
  if s.heals.any (fun h => decide (h.1 = gp)) ∨ s.physState gp = 2 then s
  else
    let b := gp / 10
    let checker := decide (area = 1)
    let fl := { s.flash with checkers := Tbl.set 0 s.flash.checkers b (Tbl.get 0 s.flash.checkers b + 1) }
    let s := if checker then { s with flash := fl } else s
    { s with heals := s.heals ++ [(gp, cause, checker)] }

/-- A core's own segment has ended with a MISR (R314). -/
def State.passEnd (s : State) (gp : Nat) (misr : BitVec 64) (t : Nat) : State :=
  let x := s.asyCore gp
  let cut := s.cut
  let (g, area) := s.goldenOf x.set_ cut x.seg
  if misr = g then
    let s := if x.rerun then s.bump (asyPg + 0x114) 15 0 1 else s
    s.segmentPassed gp t
  else
    let s := s.modAsy gp (fun x => { x with fails := min (x.fails + 1) 0xFFFF })
    let synd := asyFailSynd x.seg cut false x.rerun area (misr ^^^ g)
    if !x.rerun then (s.modAsy gp (fun x => { x with rerun := true })).coreChip gp 0 0x30 t synd
    else
      let s := (s.modAsy gp (fun x => { x with rerun := false, failed := true })).coreChip gp 2 0x30 t synd
      let s := if s.turn (gp / 80) = some gp then s.setTurn (gp / 80) none else s
      s.confirm gp 0 area

/-- A segment of the targeted assay has ended with a MISR: it is compared with the golden value of the set in use, and the first mismatch
is kept (R315). -/
def State.tgtEnd (s : State) (x : AsyTgt) (misr : BitVec 64) : State :=
  match x.left with
  | [] => s
  | seg :: rest =>
    let (g, area) := s.goldenOf s.setVersion s.cut seg
    let x := { x with left := rest, miss := if misr = g then x.miss else some (x.miss.getD (seg, misr ^^^ g, area)) }
    let s := { s with asyTgt := some x }
    if misr = g then s else s.modAsy x.gp (fun y => { y with fails := min (y.fails + 1) 0xFFFF })

/-- ASSAY_SEGMENT_END: the segment running on a core ends with its MISR; its rows and tile are restored. A segment of the core's own pass
that was under way when a targeted assay of it began counts for the pass (R311, R314, R315). -/
def execAssaySegmentEnd (gp : Nat) (misr : BitVec 64) (t : Nat) (s : State) : Host.Outcome State Fault Refusal := inRange (.assaySegmentEnd gp misr t) <|
  if (s.asyCore gp).running.isNone then .next s
  else
    let s := (s.reach gp (t * s.aclk / 1000)).asyRestore gp
    match (s.asyCore gp).tgt, s.asyTgt with
    | true, some x => .next (if x.gp = gp then s.tgtEnd x misr else s)
    | true, none => .next s
    | false, _ => .next (s.passEnd gp misr t)

/-- ASSAY_OVERDUE: a core's debt exceeds 6 h (R313). -/
def execAssayOverdue (gp t : Nat) (s : State) : Host.Outcome State Fault Refusal := inRange (.assayOverdue gp t) <|
  let past := s.aon.time + 16 * t - s.debtFrom gp
  let debt := past / 16000000000
  if past ≤ 21600 * 16000000000 ∨ (s.asyCore gp).overdue ∨ s.physState gp = 2 then .next s
  else
    let s := (s.modAsy gp (fun x => { x with overdue := true })).overdueReg
    .next (s.coreChip gp 1 0x31 t (BitVec.ofNat 64 (min debt (2 ^ 32 - 1))))

/-- ASSAY_TURN_YIELD: 65,536 strokes in a row without a segment (R308). -/
def execAssayTurnYield (region : Nat) (s : State) : Host.Outcome State Fault Refusal := inRange (.assayTurnYield region) <|
  match s.turn region with
  | none => .next s
  | some gp =>
    let x := s.asyCore gp
    if x.idle < 65536 then .next s
    else
      let others := ((List.range 80).map (80 * region + ·)).filter (fun q => decide (q ≠ gp) && s.eligible q)
      .next ((s.setAsy gp { x with idle := 0, waits := others }).setTurn region none)

/-- A segment in progress is abandoned without a result, and its rows and tile are restored (R312). -/
def State.abandonSegment (s : State) (gp : Nat) : State :=
  if (s.asyCore gp).running.isNone then s
  else (s.asyRestore gp).modAsy gp (fun x => { x with abandons := x.abandons + 1 })

/-- Cores whose assay registers may differ from reset: those with a history, a turn or a targeted assay, and those that show a state. -/
def State.asyListed (s : State) : List Nat :=
  (s.asy.map (·.1) ++ s.asyTurn.filterMap (·.2) ++ (s.asyTgt.map (·.gp)).toList
    ++ s.regs.filterMap (fun p => let l := locOf p.1; if l.physical ∧ l.page = 0 ∧ l.off = 0x800 then some l.gp else none)).dedup

/-- The assay registers of the cores take their values at s16 (R328). -/
def State.asyShow (s : State) : State :=
  let s := s.asyListed.foldl (fun (s : State) gp =>
    let x := s.asyCore gp
    let tgt := match s.asyTgt with | some t => decide (t.gp = gp) | none => false
    let st := if tgt then 2 else if s.turn (gp / 80) = some gp then 1 else 0
    let a := corePg gp
    ((s.wr (a + 0x800) (BitVec.ofNat 32 (st * 2 ^ 30 + bit x.overdue * 2 ^ 29 + x.seg % 2 ^ 16))).wr (a + 0x808)
      (BitVec.ofNat 32 (min x.passes 0xFFFF * 2 ^ 16 + min x.fails 0xFFFF))).wr (a + 0x80C) (BitVec.ofNat 32 (min x.abandons (2 ^ 32 - 1)))) s
  { s with asyAt := s.aon.time }

/-- The assay manager's part of a boundary: strokes without a segment of the cores that hold a turn, and a core under assay in every
region that has none (R308). -/
def State.asyBoundary (s : State) : State :=
  let s := s.asyTurn.foldl (fun (s : State) p => match p.2 with
    | some gp => s.modAsy gp (fun x => { x with idle := if x.gained then 0 else x.idle + 1, gained := false })
    | none => s) s
  if s.asyOn then (List.range 64).foldl (fun (s : State) r => s.choose r) s else s

/-- A commit that changes CUT restarts every pass at segment 0 (R307). -/
def State.restartPasses (s : State) : State :=
  { s with asy := (s.asy.map (fun p => (p.1, { p.2 with seg := 0, rerun := false, failed := false }))).filter (fun p => decide (p.2 ≠ ({} : AsyCore))) }

/-! ### Targeted assay (R315) -/

/-- Segments of a class in the set in use, at the committed cut: 0 ARRAY those of the anvil array, 1 CHECKER those of the checker lanes,
2 UNRESOLVED both (R315). -/
def State.classSegs (s : State) (cls : Nat) : List Nat :=
  match s.reserve.head? with
  | none => []
  | some i => i.golden.filterMap (fun g => if g.1 = s.cut ∧ (if cls = 2 then g.2.2.2 < 2 else g.2.2.2 = cls) then some g.2.1 else none)

/-- A write of ASY_TGT. The core under assay finishes its segment and yields its turn; the named core then runs every segment of the class
twice (R315). -/
def State.asyTgtWrite (s : State) (v : Word) : State :=
  let a := asyPg + 0x108
  let s := s.wr a ((s.rd a &&& ~~~(0x70000FFF : Word)) ||| (v &&& 0x70000FFF))
  if fld v 31 31 = 0 then s
  else
    let gl := fld v 11 0
    let st := asyPg + 0x10C
    let s := s.wf st 11 0 gl
    let refuse := s.wf st 30 28 3
    match s.physOf gl with
    | none => refuse
    | some gp =>
      if s.heals.any (fun h => decide (h.1 = gp)) ∨ s.reserve.isEmpty ∨ s.asyTgt.isSome ∨ 2 < fld v 30 28 then refuse
      else
        let s := (s.wf st 31 31 1).wf st 30 28 0
        let s := { s with asyTgt := some { gp := gp, cls := fld v 30 28, lcore := gl, left := s.classSegs (fld v 30 28) ++ s.classSegs (fld v 30 28) } }
        s.setTurn (gp / 80) none

/-- ASY_TGT_GO (R315). -/
def execAsyTgtGo (ag : Agent) (val : Word) (s : State) : Host.Outcome State Fault Refusal :=
  .next (s.ifAdmitted ag (asyPg + 0x108) (fun s => s.asyTgtWrite (val ||| 0x80000000)))

/-- TARGETED_ASSAY_DONE: the named core has run every segment of its class twice. All matches are transient; any mismatch is permanent and
a confirmed failure of its kind (R315). -/
def execTargetedAssayDone (t : Nat) (s : State) : Host.Outcome State Fault Refusal :=
  match s.asyTgt with
  | none => .next s
  | some x =>
    if x.left ≠ [] then .next s
    else
      let st := asyPg + 0x10C
      let s := ({ s with asyTgt := none }).wf st 31 31 0
      match x.miss with
      | none => .next ((s.wf st 30 28 1).bump (asyPg + 0x114) 15 0 1)
      | some (seg, diff, area) =>
        .next (((s.wf st 30 28 2).coreChip x.gp 2 0x30 t (asyFailSynd seg s.cut true true area diff)).confirm x.gp (x.cls + 1) area)

/-! ### Healing (R316 to R324) -/

/-- Traffic of a core that is reset or fenced: its requests and the responses being gathered for it are discarded, and FLOW_GEN of
its logical number increments (R247, R349). -/
def State.dropTraffic (s : State) (gp : Nat) : State :=
  let s := { s with reqs := s.reqs.filter (fun r => decide (r.core ≠ some gp)), xfers := s.xfers.filter (fun x => decide (x.core ≠ some gp)) }
  match s.logOf gp with
  | none => s
  | some gl =>
    let a := logPg gl + 0x708
    s.wf a 15 0 ((s.rf a 15 0 + 1) % 2 ^ 16)

/-- Spares of a block, lowest first, other than a core. -/
def State.sparesOf (s : State) (b gp : Nat) : List Nat :=
  ((List.range 10).map (10 * b + ·)).filter (fun q => decide (q ≠ gp) && decide (s.physState q = 1))

/-- Set a core's BLOCK_PHYS state (R16). -/
def State.setPhys (s : State) (gp st : Nat) : State := s.wf (xbarPg (gp / 10) + 0x104) (2 * (gp % 10) + 1) (2 * (gp % 10)) st

/-- Set the physical core of a logical core in BLOCK_MAP; 0xF is absent (R16). -/
def State.setLog (s : State) (gl p : Nat) : State := s.wf (xbarPg (gl / 8) + 0x100) (4 * (gl % 8) + 3) (4 * (gl % 8)) p

/-- A fence in module flash (R323). -/
def State.flashFence (s : State) (gp : Nat) : State :=
  let fl := { s.flash with fence := if s.flash.fence.contains gp then s.flash.fence else s.flash.fence ++ [gp] }
  { s with flash := fl }

/-- Registers that R320 copies: RW and RWS registers of the unit-specific part, committed values and shadows. -/
def healCopies (off : Nat) : Bool :=
  match findRow coreRows off with
  | none => false
  | some r => decide (0x100 ≤ off) && (decide (r.rw ≠ 0) || decide (r.rws ≠ 0))

/-- Copy the registers of R320. -/
def State.copyRegs (s : State) (p q : Nat) : State :=
  let lo := corePg p
  let mine : Nat → Bool := fun a => decide (lo ≤ a) && decide (a < lo + 0x1000) && healCopies (a - lo)
  let s := (s.regs.filter (fun r => mine r.1)).foldl (fun (s : State) r => s.wr (r.1 - lo + corePg q) r.2) s
  (s.shadow.filter (fun r => mine r.1)).foldl (fun (s : State) r => { s with shadow := Tbl.put s.shadow (r.1 - lo + corePg q) r.2 }) s

/-- A pattern bank has a word that is uncorrectable in transfer. -/
def Core.bankBad (c : Core) (bank : Nat) : Bool :=
  c.pmemUpset.any (fun u => decide (u.1 / 4096 = bank) && (decide (eccClass (u.2.toNat % 2 ^ 72) = 2) || decide (eccClass (u.2.toNat / 2 ^ 72) = 2)))

/-- Step 2 of a heal (R320): pattern banks, their READY bits and the configuration go from p to q. -/
def State.healCopy (s : State) (p q : Nat) : State :=
  let cp := s.core p
  let lost := s.cfgLost.contains p
  let s := s.clearCoreRegs q zeroesReg
  let s := s.modCore q (fun c => { c.zeroed with pmem := cp.pmem })
  let s := { s with cfgLost := s.cfgLost.filter (· ≠ p) }
  let s := if lost then s else s.copyRegs p q
  let a := corePg q + 0x21C
  let bad0 := cp.bankBad 0
  let bad1 := cp.bankBad 1
  let s := s.wf a 16 16 (if bad0 then 0 else s.rf (corePg p + 0x21C) 16 16)
  let s := s.wf a 17 17 (if bad1 then 0 else s.rf (corePg p + 0x21C) 17 17)
  let s := s.wf (asyPg + 0x110) 29 29 (bit (bad0 || bad1))
  (s.wf (asyPg + 0x110) 28 28 (bit lost)).wf (corePg q + 0x200) 8 8 0

/-- The fence: FENCE set, the core stops, its waiter registration ends at the bank, and its assay and debug halt end without restore
(R273, R319, R324). A targeted assay of the core ends as one of a core being healed is refused (DESIGN CHOICE, log entry 65). -/
def State.fenceCore (s : State) (gp : Nat) : State :=
  let s := ((s.setFence gp true).wr (corePg gp + 0x1304) 0).flashFence gp
  let s := (s.dropWaiter gp).modAsy gp (fun x => { x with running := none, fl := 0, saved := [], slot := none })
  let s : State := match s.asyTgt with
    | some t => if t.gp = gp then (({ s with asyTgt := none }).wf (asyPg + 0x10C) 31 31 0).wf (asyPg + 0x10C) 30 28 3 else s
    | none => s
  if s.turn (gp / 80) = some gp then s.setTurn (gp / 80) none else s

/-- Zeroise the fenced core (R154, R319). -/
def State.healZero (s : State) (gp : Nat) : State := (s.zeroCore gp zeroesReg).zeroCoreDone gp

/-- More than 8 logical cores are absent (R326). -/
def State.holesOver (s : State) : Bool := Nat.blt 8 s.absentCount

/-- A hole: the logical number is absent, REPLACE_SOON persists, and more than 8 absent cores drain the module (R325, R326). -/
def State.makeHole (s : State) (gl t : Nat) : State :=
  let s := s.setLog gl 0xF
  let fl := { s.flash with replaceSoon := true }
  let s := { s with flash := fl }
  if s.holesOver then s.requestDrain 5 (gl / 64) (gl / 8 % 8) (xbarPg (gl / 8)) (tclkCycle t) else s

/-- SYND of FENCED. -/
def fencedSynd (gp : Nat) (gl : Option Nat) (cause left action : Nat) : BitVec 64 :=
  BitVec.ofNat 64 (gp % 10 + (match gl with | some l => l % 8 | none => 0xF) * 2 ^ 4 + cause * 2 ^ 8 + left * 2 ^ 12 + action * 2 ^ 16)

/-- The promotion of spare `q` for core `p` with logical number `gl`: steps 2 to 4 (R319, R320). -/
def State.promote (s : State) (p q gl t : Nat) : State :=
  let s := s.healCopy p q
  let s := (s.dropTraffic p).healZero p
  let s := ((s.setLog gl (q % 10)).setPhys p 2).setPhys q 0
  let s := if s.rf (corePg q + 0x294) 0 0 = 1 then s.seedKeys q else s.freshKeys q
  let s := s.bump (asyPg + 0x114) 31 16 1
  let h := s.rd (asyPg + 0x110)
  s.coreChip q 0 0x33 t (BitVec.ofNat 64 (p % 10 + q % 10 * 2 ^ 4 + gl % 8 * 2 ^ 8 + fld h 29 29 * 2 ^ 11 + fld h 28 28 * 2 ^ 12 + gl * 2 ^ 16))

/-- A spare that is being zeroised: it is released to no context before its zeroisation has completed (R155). -/
def State.spareBusy (s : State) (q : Nat) : Bool := (s.core q).zeroing || s.rst.any (fun j => j.cores.contains q)

/-- HEAL: the hearth heals a confirmed core, the first of its block in order of confirmation, once no reset of it is in progress and the
spare it would promote has been zeroised (R155, R316 to R324). -/
def execHeal (gp t : Nat) (s : State) : Host.Outcome State Fault Refusal := inRange (.heal gp t) <|
  match s.heals.find? (fun h => decide (h.1 / 10 = gp / 10)) with
  | none => .next s
  | some (p, cause, checker) =>
    if p ≠ gp ∨ s.rst.any (fun j => j.cores.contains gp) then .next s
    else
      let s0 := s
      let s := { s with heals := s.heals.erase (p, cause, checker) }
      if s.physState gp = 2 then .next s
      else
        let gl := s.logOf gp
        let spares := s.sparesOf (gp / 10) gp
        let recurring := checker && (spares.isEmpty || decide (2 ≤ Tbl.get 0 s.flash.checkers (gp / 10)))
        let action := if gl.isNone then 3 else if recurring then 2 else if spares.isEmpty then 1 else 0
        let left := spares.length - (if action = 0 then 1 else 0)
        if action = 0 ∧ (spares.head?.any s.spareBusy) = true then .next s0 else
        let s := (s.fenceCore gp).coreChip gp 2 0x32 t (fencedSynd gp gl cause left action)
        match gl, action, spares with
        | some l, 0, q :: _ => .next (s.promote gp q l t)
        | some l, 2, _ =>
          let s := ((s.dropTraffic gp).healZero gp).setPhys gp 2
          .next ((s.requestDrain 6 (l / 64) (l / 8 % 8) (xbarPg (l / 8)) (tclkCycle t)).makeHole l t)
        | some l, _, _ =>
          let s := ((s.dropTraffic gp).healZero gp).setPhys gp 2
          .next (s.makeHole l t)
        | none, _, _ =>
          let s := (s.healZero gp).setPhys gp 2
          .next (if recurring then s.requestDrain 6 (gp / 80) (gp / 10 % 8) (xbarPg (gp / 10)) (tclkCycle t) else s)

/-- HEAL_CFG_TIMEOUT: the configuration read of a core under heal gets no answer within 20 µs (R320). -/
def execHealCfgTimeout (gp : Nat) (s : State) : Host.Outcome State Fault Refusal := inRange (.healCfgTimeout gp) <|
  .next { s with cfgLost := if s.cfgLost.contains gp then s.cfgLost else s.cfgLost ++ [gp] }

end Sys2Proof.Machine
end

