-- ==== Sys2Proof/Machine/Dumps.lean ====
section
/-! DEFINITION. Debug sessions closing (R395), datagrams (R422), and crash dumps (R355 to R357, R423). -/

namespace Sys2Proof.Machine

/-! ### A debug session closes (R395, R396) -/

/-- Halted cores of a context run again from the next boundary, and one in the body of a STEP does not halt at its end. -/
def State.releaseHalts (s : State) (ctx : Nat) : State :=
  s.cores.foldl (fun (s : State) p =>
    if (p.2.halted ∨ p.2.stepping) ∧ s.coreCtx p.1 = some ctx then s.modCore p.1 (fun c => { c with runPend := c.halted, stepping := false })
    else s) s

/-- The session closes at once; a D3 session closes only at power loss. -/
def State.closeSession (s : State) : State :=
  match s.dbg with
  | none => s
  | some d => if d.level = 3 then s else ({ s with dbg := none }).releaseHalts d.ctx

/-- The session closes when its bound context leaves ACTIVE. -/
def State.closeFor (s : State) (ctx : Nat) : State :=
  match s.dbg with
  | some d => if d.level = 2 ∧ d.ctx = ctx then s.closeSession else s
  | none => s

/-! ### Datagrams (R422) -/

/-- Events page. -/
def evtPg : Nat := modPg 7 0

/-- Datagrams are sent while STREAM_EN = 1 and LINK_UP = 1 (R421). -/
def State.streams (s : State) : Bool := decide (s.rf (evtPg + 0x100) 31 31 = 1) && decide (s.rf (evtPg + 0x104) 31 31 = 1)

/-- Bytes of a number, least significant first. -/
def byteList (n x : Nat) : List (BitVec 8) := (bytesLE n x).map (BitVec.ofNat 8)

/-- How the registers address a datagram; the IP header carries the don't-fragment flag. -/
def State.udpHead (s : State) : UdpHead :=
  { srcMac := s.flash.mac, dstMac := BitVec.ofNat 48 ((s.rd (evtPg + 0x120)).toNat + s.rf (evtPg + 0x124) 15 0 * 2 ^ 32),
    srcIp := s.rd (evtPg + 0x118), dstIp := s.rd (evtPg + 0x11C), srcPort := s.rf (evtPg + 0x128) 31 16, dstPort := s.rf (evtPg + 0x128) 15 0 }

/-- Send one datagram: the 16 B stream header, then the payload. -/
def State.sendDatagram (s : State) (kind count first offset : Nat) (payload : List (BitVec 8)) : State :=
  let q := Tbl.get 0 s.streamSeq kind
  let head := byteList 1 1 ++ byteList 1 kind ++ byteList 2 count ++ byteList 4 q ++ byteList 4 first ++ byteList 4 offset
  let s := { s with streamSeq := Tbl.set 0 s.streamSeq kind ((q + 1) % 2 ^ 32) }
  (s.bump (evtPg + 0x130) 31 0 1).send (.datagram s.udpHead kind first offset (head ++ payload))

/-- A datagram that carries nothing: 3 dump aborted, 4 idle. The spec states no COUNT for it: a free value (log entry 4). -/
def State.sendMark (s : State) (kind first : Nat) : State :=
  let (n, s) := s.fresh
  s.sendDatagram kind (Config.freeWord n).toNat first 0 []

/-! ### The units of a dump (R356) -/

/-- Page of the dump registers. -/
def dumpPg : Nat := modPg 7 1

/-- Words of a page from one offset to another. -/
def State.words (s : State) (pg lo hi : Nat) : List Word := (List.range ((hi - lo) / 4)).map (fun k => s.regView (pg + lo + 4 * k))

/-- Page a core is read through: the logical page it carries, or its physical page. -/
def State.dumpPage (s : State) (gp : Nat) : Nat := match s.logOf gp with | some gl => logPg gl | none => corePg gp

/-- Store rows of a core (R136, R356). -/
def Core.allRows (c : Core) : List Row :=
  [0, 1, 2].flatMap (fun st => (List.range (storeRows st)).map (fun r => Tbl.get 0 c.store (st * 8192 + r)))

/-- The record of a core: header, 0x100–0x2FF and 0x400–0x5FF; its store rows when asked for and halted. A unit does not answer when its
page is among the `silent` ones; a core has a logical and a physical page. -/
def State.dumpCore (s : State) (silent : List Nat) (data : Option Nat) (gp : Nat) : DumpUnit :=
  let pg := s.dumpPage gp
  if silent.contains pg ∨ silent.contains (corePg gp) then { addr := pg, words := [], silent := true }
  else
    let c := s.core gp
    let rows := match data with
      | some x => if c.halted ∧ s.coreCtx gp = some x then c.allRows else []
      | none => []
    { addr := pg, words := s.words pg 0 0x300 ++ s.words pg 0x400 0x600, rows := rows }

/-- The record of any other unit: header and 0x100–0x1FF, or a placeholder. -/
def State.dumpUnit (s : State) (silent : List Nat) (pg : Nat) : DumpUnit :=
  if silent.contains pg then { addr := pg, words := [], silent := true } else { addr := pg, words := s.words pg 0 0x200 }

/-- Buckle snapshots of logical cores, region by region. -/
def State.dumpSnaps (s : State) (silent : List Nat) (ls : List Nat) : List DumpUnit :=
  ((ls.map (· / 64)).dedup).map (fun r =>
    if silent.contains (bankPg r 8) then { addr := bankPg r 8, words := [], silent := true } else
    { addr := bankPg r 8, words := (ls.filter (fun l => decide (l / 64 = r))).flatMap (fun l =>
        (List.range 16).flatMap (fun k => [s.rd (snapAddr (16 * l + k)), s.rd (snapAddr (16 * l + k) + 4)])) })

/-- The units of one block: ten cores, crossbar, slices, router. -/
def State.dumpBlock (s : State) (silent : List Nat) (data : Option Nat) (b : Nat) : List DumpUnit :=
  (List.range 10).map (fun p => s.dumpCore silent data (10 * b + p))
    ++ (xbarPg b :: ((List.range 8).map (fun k => slicePg (8 * b + k)) ++ [routerPg b])).map (fun pg => s.dumpUnit silent pg)

/-- Units common to a region. -/
def regionUnits (r : Nat) : List Nat :=
  [rcPg r 0, mcPg (2 * r), mcPg (2 * r + 1), meshPg r] ++ ((List.range 4).filter (fun d => edgePresent r d)).map (fun d => edgePg r d)
    ++ [bankPg r 0, regionAddr r 0xE 9 0 0]

/-- Logical cores of a block that are not absent. -/
def State.blockLogs (s : State) (b : Nat) : List Nat := ((List.range 8).map (8 * b + ·)).filter (fun l => (s.physOf l).isSome)

/-- The event log as a record: 8 words for each record held. The words are filled in by the hearth's own layout of R419. -/
def recWords (r : Nat) : List Word := (List.range 8).map (fun k => BitVec.ofNat 32 (r / 2 ^ (32 * k)))

/-! ### The layout of a record (R419, R420) -/

/-- The 32 bytes of a numbered record, as a number. A tree engine's source stands at page 2048 + its region of unit 0x02. -/
def LogRec.nat (l : LogRec) : Nat :=
  let r := l.rec_
  let k := locOf r.src
  let region := if k.module then (if k.unit = 2 ∧ 2048 ≤ k.page then k.page - 2048 else 0) else k.region
  let blk := if k.module then 0xF else k.blk
  packFields [(r.stroke, 40), (r.cycle, 16), (region, 6), (blk, 4), (k.unit, 6), (r.pcore, 4), (0, 4), (r.cls, 8), (r.sev, 2),
    (r.ctx.getD 0, 4), (bit r.ctx.isSome, 1), (0, 1), (l.seq, 32), (r.synd.toNat, 64),
    (r.aux.toNat - r.aux.toNat / 2 % 2 * 2 + bit r.queued * 2, 64)]

/-- Every unit of a scope, in address order of its parts; the event log goes with the whole module (log entry 26). -/
def State.dumpUnits (s : State) (sc : DumpScope) (silent : List Nat) (data : Option Nat) : List DumpUnit :=
  match sc with
  | .module =>
    (List.range 64).flatMap (fun r =>
      (List.range 8).flatMap (fun b => s.dumpBlock silent data (8 * r + b)) ++ (regionUnits r).map (fun pg => s.dumpUnit silent pg))
      ++ (List.range 10).map (fun u => s.dumpUnit silent (modPg u 0))
      ++ s.dumpSnaps silent ((List.range 512).flatMap (fun b => s.blockLogs b))
      ++ [{ addr := evtPg, words := (s.log.take 32768).flatMap (fun l => recWords l.nat) }]
  | .blocks bs => bs.flatMap (fun b => s.dumpBlock silent data b) ++ s.dumpSnaps silent (bs.flatMap (fun b => s.blockLogs b))
  | .core gl => match s.physOf gl with
    | some gp => s.dumpCore silent data gp :: s.dumpSnaps silent [gl]
    | none => []

/-! ### The bytes of a dump (R357) -/

/-- Bytes of a unit record. -/
def DumpUnit.size (u : DumpUnit) : Nat := 16 + 4 * u.words.length + 128 * u.rows.length
def DumpUnit.bytes (u : DumpUnit) : List Nat :=
  bytesLE 8 u.addr ++ bytesLE 4 u.words.length ++ bytesLE 4 (bit u.silent + bit (!u.rows.isEmpty) * 2)
    ++ u.words.flatMap (fun w => bytesLE 4 w.toNat) ++ u.rows.flatMap rowBytes

/-- Units that fit in the 32 MiB buffer, and whether the buffer filled: store rows go in until it is full (R356, R357). -/
def fitUnits : Nat → List DumpUnit → List DumpUnit × Bool
  | _, [] => ([], false)
  | room, u :: r =>
    let head := 16 + 4 * u.words.length
    if room < head then ([], true)
    else if room < u.size then ([{ u with rows := u.rows.take ((room - head) / 128) }], true)
    else
      let (us, t) := fitUnits (room - u.size) r
      (u :: us, t)

/-- Length of a dump. -/
def Dump.len (d : Dump) : Nat := 64 + d.units.foldl (fun n u => n + u.size) 0

/-- A dump with its CRC field as given. -/
def Dump.raw (d : Dump) (crc : Nat) : List Nat :=
  bytesLE 4 d.seq ++ bytesLE 5 d.stroke ++ bytesLE 1 d.trigger ++ bytesLE 2 d.ctxMask ++ bytesLE 2 d.id ++ bytesLE 2 (unitVer.toNat / 2 ^ 16)
    ++ bytesLE 4 d.len ++ bytesLE 4 crc ++ List.replicate 40 0 ++ d.units.flatMap DumpUnit.bytes

/-- The bytes of a dump, with its CRC-32C. -/
def Dump.bytes (d : Dump) : List Nat := d.raw (crc32c (d.raw 0))

/-! ### Capture (R355 to R357, R423) -/

/-- The stream of a dump stops unfinished: a KIND 3 datagram (R423). -/
def State.abandonStream (s : State) : State :=
  match s.dump with
  | some d =>
    if s.rf (dumpPg + 0x104) 30 30 = 1 then
      let s := (s.wf (dumpPg + 0x104) 30 30 0).wf (evtPg + 0x104) 30 30 0
      if s.streams then s.sendMark 3 d.seq else s
    else s
  | none => s

/-- Place of a store address among the store rows of a unit record, W-store first. -/
def dumpIndex (la : Nat) : Nat := if la < 4096 then la else la - 4096

/-- The core of a core page. -/
def State.pageCore (s : State) (addr : Nat) : Option Nat :=
  let l := locOf addr
  if l.logical then s.physOf l.gl else if l.physical then some l.gp else none

/-- Store rows of a record go through the correction stage as they are read, and errors are reported (R142 to R144). The spec lists no
requester code for the dump: a free value (log entry 4). -/
def State.dumpCorrect (s : State) (u : DumpUnit) : DumpUnit × State :=
  match s.pageCore u.addr with
  | none => (u, s)
  | some gp =>
    let c := s.core gp
    let wrong := (c.upset.map (·.1)).filter (fun la => decide (dumpIndex la < u.rows.length))
    wrong.foldl (fun (x : DumpUnit × State) la =>
      let (n, s) := x.2.fresh
      let (r, s) := s.storeRead gp la ((Config.freeWord n).toNat % 16) (s.coreAt c.now)
      ({ x.1 with rows := x.1.rows.set (dumpIndex la) r }, s)) (u, s)

/-- The same for every record that holds store rows. -/
def State.dumpRows (s : State) (us : List DumpUnit) : List DumpUnit × State :=
  us.foldl (fun (x : List DumpUnit × State) u =>
    if u.rows.isEmpty then (x.1 ++ [u], x.2)
    else
      let (u, s) := x.2.dumpCorrect u
      (x.1 ++ [u], s)) ([], s)

/-- A capture begins: every unit of the scope is read (R356). -/
def State.dumpBegin (s : State) (sc : DumpScope) (trigger mask : Nat) (silent : List Nat) (data : Option Nat) : State :=
  let s := s.abandonStream
  let (us, trunc) := fitUnits (2 ^ 25 - 64) (s.dumpUnits sc silent data)
  let (us, s) := s.dumpRows us
  let s := s.wr (dumpPg + 0x108) (s.rd (dumpPg + 0x108) + 1)
  let d : Dump := { seq := (s.rd (dumpPg + 0x108)).toNat, stroke := s.stroke, trigger := trigger, ctxMask := mask, id := s.myId, scope := sc, units := us,
                    store := us.any (fun u => !u.rows.isEmpty) }
  (({ s with dump := some d }).wf (dumpPg + 0x104) 31 31 1).wf (dumpPg + 0x104) 29 29 (bit trunc)

/-- A capture completes: it goes to the next DRAM slot, unless it holds store data, and its stream starts (R357). -/
def State.dumpEnd (s : State) : State :=
  match s.dump with
  | none => s
  | some d =>
    if s.rf (dumpPg + 0x104) 31 31 = 0 then s
    else
      let st := dumpPg + 0x104
      let s := ((s.wf st 31 31 0).wf st 30 30 1).wf (evtPg + 0x104) 30 30 1
      let s := s.wr (dumpPg + 0x10C) (BitVec.ofNat 32 d.len)
      let s := s.wr (dumpPg + 0x110) (BitVec.ofNat 32 (d.units.filter (·.silent)).length)
      if d.store then { s with dump := some { d with sent := 0 } }
      else
        let n := s.dumpNext
        let d := { d with slot := some n, sent := 0 }
        ({ s with dump := some d, dumpSlots := Tbl.put s.dumpSlots n d, dumpNext := (n + 1) % 256 }).wf st 15 8 n

/-- A capture that a reset triggers (R355); none is in progress. -/
def State.dumpNow (s : State) (sc : DumpScope) (trigger mask : Nat) (silent : List Nat) : State :=
  (s.dumpBegin sc trigger mask silent none).dumpEnd

/-- A capture is in progress. -/
def State.capturing (s : State) : Bool := decide (s.rf (dumpPg + 0x104) 31 31 = 1)

/-- The capture in progress has this scope. -/
def State.sameScope (s : State) (sc : DumpScope) : Bool := match s.dump with | some d => decide (d.scope = sc) | none => false

/-- Blocks with a core or slice of a context (R350, R355). -/
def partEntriesOf (c : Nat) (a : Nat) (v : Word) : List (Nat × Nat) :=
  let l := locOf a
  if !l.module ∧ l.blk = 0xE ∧ l.unit = 0 ∧ l.page = 1 ∧ 0x100 ≤ l.off then
    (List.range 4).filterMap (fun i => if partCtx (fld v (8 * i + 7) (8 * i)) = some c then some (l.region, l.off - 0x100 + i) else none)
  else []

/-- Partition entries of a context: region and byte number. -/
def State.ctxEntries (s : State) (c : Nat) : List (Nat × Nat) := s.regs.flatMap (fun p => partEntriesOf c p.1 p.2)

/-- Logical cores, physical cores, slices and blocks of a context. -/
def State.ctxLogs (s : State) (c : Nat) : List Nat := (s.ctxEntries c).filterMap (fun e => if e.2 < 64 then some (64 * e.1 + e.2) else none)
def State.ctxCores (s : State) (c : Nat) : List Nat := (s.ctxLogs c).filterMap (fun l => s.physOf l)
def State.ctxSlices (s : State) (c : Nat) : List Nat := (s.ctxEntries c).filterMap (fun e => if 64 ≤ e.2 then some (64 * e.1 + (e.2 - 64)) else none)
def State.ctxBlocks (s : State) (c : Nat) : List Nat := ((s.ctxLogs c ++ s.ctxSlices c).map (· / 8)).dedup

/-- Mask of the ACTIVE contexts. -/
def State.activeMask (s : State) : Nat := ((List.range 16).filter (fun k => s.ctxActive k)).foldl (fun n k => n + 2 ^ k) 0

/-- Scope that a DUMP_CTL value names. -/
def State.ctlScope (s : State) (v : Word) : DumpScope :=
  if fld v 30 28 = 0 then .module else .blocks (s.ctxBlocks (fld v 3 0))

/-- A DUMP_CTL request runs (R355, R356). -/
def State.dumpRequest (s : State) (v : Word) (silent : List Nat) : State :=
  let c := fld v 3 0
  let want := decide (fld v 27 27 = 1)
  let data := match s.dbg with
    | some d => if want ∧ d.level = 2 ∧ (fld v 30 28 = 0 ∨ d.ctx = c) then some d.ctx else none
    | none => none
  let mask := if fld v 30 28 = 0 then s.activeMask else 2 ^ c
  (s.wf (dumpPg + 0x104) 28 28 (bit (want && data.isNone))).dumpBegin (s.ctlScope v) 0 mask silent data

/-- DUMP_CTL_GO: a capture starts, joins one of the same scope, or waits for one in progress (R355, R357). -/
def State.dumpCtl (s : State) (v : Word) (silent : List Nat) : State :=
  if fld v 31 31 = 0 ∨ 1 < fld v 30 28 then s
  else if !s.capturing then s.dumpRequest v silent
  else if s.sameScope (s.ctlScope v) then s
  else { s with dumpWait := s.dumpWait ++ [.ctl v silent] }

/-- DUMP_CTL_GO (R355). -/
def execDumpCtlGo (ag : Agent) (val : Word) (silent : List Nat) (s : State) : Host.Outcome State Fault Refusal := inRange (.dumpCtlGo ag val silent) <|
  .next (s.ifAdmitted ag (dumpPg + 0x100) (fun s => s.dumpCtl (val ||| 0x80000000) silent))

/-- DUMP_READ_TIMEOUT: a unit does not answer within 20 µs and gets a placeholder (R356). -/
def execDumpReadTimeout (addr : Nat) (s : State) : Host.Outcome State Fault Refusal := inRange (.dumpReadTimeout addr) <|
  if s.rf (dumpPg + 0x104) 31 31 = 0 then .next s
  else
    match s.dump with
    | none => .next s
    | some d =>
      .next { s with dump := some { d with units := d.units.map (fun u => if u.addr = addr then { addr := addr, words := [], silent := true } else u) } }

/-- Stream the dump held in a slot again; a slot without one gives a KIND 3 datagram, whose FIRST the spec does not state: a free value
(R423, log entry 4). -/
def State.resendSlot (s : State) (slot : Nat) : State :=
  match Tbl.find? s.dumpSlots slot with
  | none =>
    let (n, s) := s.fresh
    if s.streams then s.sendMark 3 (Config.freeWord n).toNat else s
  | some d => (({ s with dump := some { d with sent := 0 } }).wf (dumpPg + 0x104) 30 30 1).wf (evtPg + 0x104) 30 30 1

/-- A stream has ended: a waiting DUMP_RESEND starts. -/
def State.resendNext (s : State) : State :=
  match s.resend with
  | none => s
  | some k => ({ s with resend := none }).resendSlot k

/-- DUMP_CHUNK_SEND: the next 1,024 B of a completed dump, when no events datagram waits and the link is up (R422, R423). -/
def execDumpChunkSend (s : State) : Host.Outcome State Fault Refusal :=
  match s.dump with
  | none => .next s
  | some d =>
    if s.rf (dumpPg + 0x104) 30 30 = 0 ∨ !s.streams ∨ 44 ≤ s.log.length then .next s
    else
      let n := min 1024 (d.len - d.sent)
      let bytes := ((d.bytes.drop d.sent).take n).map (BitVec.ofNat 8)
      let s := s.sendDatagram 2 n d.seq d.sent bytes
      let d := { d with sent := d.sent + n }
      let s := { s with dump := some d }
      .next (if d.sent < d.len then s else ((s.wf (dumpPg + 0x104) 30 30 0).wf (evtPg + 0x104) 30 30 0).resendNext)

/-- DUMP_RESEND: GO waits until a capture or stream in progress ends (R423, log entry 27). -/
def State.dumpResend (s : State) (v : Word) : State :=
  let a := evtPg + 0x12C
  let s := s.wf a 7 0 (fld v 7 0)
  if fld v 31 31 = 0 then s
  else if s.rf (dumpPg + 0x104) 31 30 ≠ 0 then { s with resend := some (fld v 7 0) }
  else s.resendSlot (fld v 7 0)

/-- DUMP_RESEND (R423). -/
def execDumpResend (ag : Agent) (val : Word) (s : State) : Host.Outcome State Fault Refusal :=
  .next (s.ifAdmitted ag (evtPg + 0x12C) (fun s => s.dumpResend (val ||| 0x80000000)))

end Sys2Proof.Machine
end

