-- ==== Sys2Proof/Machine/Recovery.lean ====
section
/-! DEFINITION. Resets (R345 to R353), zeroisation completing (R154), and hearth takeover (R354). -/

namespace Sys2Proof.Machine

/-- Page of the reset unit. -/
def rstPg : Nat := modPg 4 0

/-! ### The core-level and context-level work of R349 -/

/-- The buckles of a logical core return to reset and drop their waiters (R270). -/
def State.resetBuckles (s : State) (gl : Nat) : State := (List.range 16).foldl (fun (s : State) k => s.bklReset (16 * gl + k)) s

/-- A core is stopped, drained and zeroised: its segment under assay is abandoned, its traffic dropped, FLOW_GEN moves on, and the
buckles of its logical core return to reset (R349). -/
def State.wipeCore (s : State) (gp : Nat) (which : Nat → Bool) : State :=
  let s := (s.abandonSegment gp).dropTraffic gp
  let s := match s.logOf gp with
    | some gl => s.resetBuckles gl
    | none => s
  s.zeroCore gp which

/-- Registers of a core that a reset of the compute domain clears: an engine, partition or chip compute reset (R28, R345). -/
def domainClears (off : Nat) : Bool := !resetKeeps off

/-- Registers of a core that a context reset clears: those of the zeroiser and the two captures of R296. Its counters and error registers
stay: R345 does not name it as a reset of the domain (R28, R154). -/
def ctxClears (off : Nat) : Bool := zeroesReg off || [0x2B8, 0x2BC, 0x2C0, 0x2C4, 0x2C8, 0x2CC].contains off

/-- A context leaves ACTIVE: its engines are empty, CTX_PROG and FLOW_CTX.EN are clear, the debug-perturbed mark goes, and a D2
session bound to it closes (R349, R370, R395). -/
def State.endCtx (s : State) (c : Nat) : State :=
  let pg := ctxPg c
  let s := ((s.wf (pg + 0x100) 31 31 0).wf (pg + 0x114) 31 31 0).wf (pg + 0x114) 22 16 0
  let s := (s.setCtxEng c {}).wr (rstPg + 0x200 + 4 * c) 0
  let s := s.wf (rtPg + 0x180 + 4 * c) 31 31 0
  let s := s.closeFor c
  { s with perturbed := s.perturbed.filter (· ≠ c) }

/-- Pages whose owner entry a test selects, from the owner registers that differ from reset. -/
def State.pagesWhere (s : State) (f : Nat → Bool) : List (Nat × Nat) :=
  s.regs.flatMap (fun p =>
    let l := locOf p.1
    if !l.module ∧ l.blk = 0xE ∧ l.unit = 0 ∧ (l.page = 2 ∨ l.page = 3) ∧ 0x100 ≤ l.off then
      (List.range 4).filterMap (fun i =>
        if f (fld p.2 (8 * i + 7) (8 * i)) then some (l.region, (l.page - 2) * 3840 + (l.off - 0x100) + i) else none)
    else [])

/-- The pages a context owns become SCRUB_PEND (R187). -/
def State.pendCtx (s : State) (c : Nat) : State :=
  (s.pagesWhere (fun b => decide (b / 64 = 1) && decide (b % 16 = c))).foldl (fun (s : State) p => s.pendPage p.1 p.2) s

/-- Every owned page becomes SCRUB_PEND (R343, R351). -/
def State.pendAll (s : State) : State :=
  (s.pagesWhere (fun b => decide (b / 64 = 1))).foldl (fun (s : State) p => s.pendPage p.1 p.2) s

/-- The work of a context reset on its cores, buckles and slices (R270, R349); cores that never stop are left out. -/
def State.resetCtx (s : State) (c : Nat) (hung : List Nat) : State :=
  let cores := (s.ctxCores c).filter (fun gp => !hung.contains gp)
  let slices := s.ctxSlices c
  let logs := s.ctxLogs c
  let s := cores.foldl (fun (s : State) gp => s.wipeCore gp ctxClears) s
  let s := logs.foldl (fun (s : State) gl => s.resetBuckles gl) s
  let s := slices.foldl (fun (s : State) n => s.zeroSlice n) s
  s.endCtx c

/-- A context's partition entries are cleared after zeroisation (R155, R369). -/
def State.clearEntries (s : State) (c : Nat) : State :=
  (s.ctxEntries c).foldl (fun (s : State) e => s.wrByte (rcPg e.1 1 + 0x100 + e.2) 0) s

/-! ### Register contents that a unit reset clears -/

/-- A register that the reset of its domain leaves alone: the maps that the hearth rewrites, owner tables, channel training and repair,
zeroisation counts, and FLOW_GEN, which is always on (R247, R345, R351; log entry 23). -/
def unitKeeps (a : Nat) : Bool :=
  let l := locOf a
  let o := l.off
  (l.logical && decide (o = 0x708))
    || (decide (l.blk < 8) && decide (l.unit = 0x20) && (decide (o = 0x100) || decide (o = 0x104)))
    || (decide (l.blk < 8) && decide (0x21 ≤ l.unit) && decide (l.unit < 0x29) && decide (o = 0x108))
    || (decide (l.blk < 8) && decide (0x10 ≤ l.unit) && decide (l.unit < 0x1A) && decide (l.page = 0) && resetKeeps o)
    || (decide (l.blk = 0xE) && decide (l.unit = 0) && (decide (l.page = 2) || decide (l.page = 3) || (decide (l.page = 0) && decide (o = 0x110))))
    || (decide (l.blk = 0xE) && (decide (l.unit = 1) || decide (l.unit = 2)) && (decide (o = 0x100) || decide (o = 0x114)))

/-- Return the registers of selected pages to their reset values. -/
def State.clearPages (s : State) (which : Loc → Bool) : State :=
  let gone : Nat → Bool := fun a => which (locOf a) && !unitKeeps a
  { s with regs := s.regs.filterMap (fun p => if gone p.1 then clearedReg p else some p), shadow := s.shadow.filter (fun p => !gone p.1),
           cap := s.cap.filter (fun p => !which (locOf p.1)) }

/-- Set UNIT_CTL.ENABLE of a unit. -/
def State.enableUnit (s : State) (pg : Nat) : State := s.wf (pg + 0x10) 0 0 1

/-- Enable every unit of a block that is not fenced (R26, R342, R350). -/
def State.enableBlock (s : State) (b : Nat) : State :=
  let s := (List.range 10).foldl (fun (s : State) p => if s.physState (10 * b + p) = 2 then s else s.enableUnit (corePg (10 * b + p))) s
  (List.range 8).foldl (fun (s : State) k => s.enableUnit (slicePg (8 * b + k))) (s.enableUnit (xbarPg b))

/-! ### Jobs (R348, R353) -/

/-- Rank of a level: a context reset and an engine reset stand on one rung, below the partition reset. -/
def rstRank (level : Nat) : Nat := if level ≤ 2 then 1 else level

/-- A reset in progress covers another one: its level is the same or higher, and so is its scope (R353). An engine reset clears no
partition, so it covers no context reset. -/
def RstJob.covers (j n : RstJob) : Bool :=
  decide (rstRank n.level ≤ rstRank j.level) && (decide (4 ≤ j.level) ||
    ((n.lcore.isSome || (j.lcore.isNone && decide (Nat.land n.ctxMask j.ctxMask = n.ctxMask)))
      && n.allCores.all j.allCores.contains && n.allSlices.all j.allSlices.contains))

/-- A reset in progress overlaps the scope of a new one. -/
def RstJob.meets (j n : RstJob) : Bool :=
  decide (4 ≤ n.level) || decide (4 ≤ j.level) || (decide (j.lcore = none) && decide (n.lcore = none) && decide (Nat.land j.ctxMask n.ctxMask ≠ 0))
    || j.allCores.any n.allCores.contains || j.allSlices.any n.allSlices.contains

/-- A reset starts; those it takes over count as complete when it completes (R353). -/
def State.startJob (s : State) (j : RstJob) (esc : Bool) : State :=
  let s := { s with rst := s.rst.filter (fun (k : RstJob) => !k.meets j) ++ [j] }
  let a := rstPg + 0x104
  s.wr a (BitVec.ofNat 32 (2 ^ 31 + j.level * 2 ^ 28 + bit esc * 2 ^ 27 + j.origin * 2 ^ 24 + j.ctxMask % 2 ^ 16))

/-- Duration of a reset in µs, from its request to `now` in 1/16 ns. -/
def RstJob.micros (j : RstJob) (now : Nat) : Nat := (now - j.since) / 16000

/-- A reset completes at `now`: the pages its contexts own become SCRUB_PEND (R187), their partition entries clear, RST_TIME holds its
duration, and BUSY clears with the last reset. -/
def State.endJob (s : State) (j : RstJob) (now : Nat) : State :=
  let s := { s with rst := s.rst.erase j }
  let s := if j.lcore.isNone ∧ j.level < 4 then
      ((List.range 16).filter (fun c => decide (j.ctxMask / 2 ^ c % 2 = 1))).foldl (fun (s : State) c => (s.pendCtx c).clearEntries c) s else s
  let s := s.wr (rstPg + 0x108) (BitVec.ofNat 32 (min (j.micros now) (2 ^ 32 - 1)))
  if s.rst.isEmpty then s.wf (rstPg + 0x104) 31 31 0 else s

/-- End every reset that has nothing left to zeroise. -/
def State.settleJobs (s : State) (now : Nat) : State :=
  (s.rst.filter (fun j => decide (j.level < 4) && j.cores.isEmpty && j.slices.isEmpty)).foldl (fun (s : State) j => s.endJob j now) s

/-- ZEROISATION_COMPLETE of a core, slice or landing buffer; a unit held in reset does not complete (R154, R349, R350). -/
def execZeroisationComplete (unit : SramUnit) (t : Nat) (s : State) : Host.Outcome State Fault Refusal := inRange (.zeroisationComplete unit t) <|
  let now := s.aon.time + 16 * t
  match unit with
  | .core gp =>
    if !(s.core gp).zeroing ∨ s.held.contains (gp / 10) then .next s
    else
      let s := s.zeroCoreDone gp
      let s := { s with rst := s.rst.map (fun (j : RstJob) => { j with cores := j.cores.filter (· ≠ gp) }) }
      .next (s.settleJobs now)
  | .slice n =>
    if !s.sliceZero.contains n ∨ s.held.contains (n / 8) then .next s
    else
      let s := s.zeroSliceDone n
      let s := { s with rst := s.rst.map (fun (j : RstJob) => { j with slices := j.slices.filter (· ≠ n) }) }
      .next (s.settleJobs now)
  | .landing _ => .next s
  | .pmem _ => .next s

/-! ### Scopes (R348 to R350) -/

/-- Contexts of a mask. -/
def maskCtxs (mask : Nat) : List Nat := (List.range 16).filter (fun c => decide (mask / 2 ^ c % 2 = 1))

/-- Mask of contexts with a core or slice in a set of blocks. -/
def State.blockMask (s : State) (bs : List Nat) : Nat :=
  ((List.range 16).filter (fun c => (s.ctxBlocks c).any (fun b => bs.contains b))).foldl (fun n c => n + 2 ^ c) 0

/-- Contexts a reset affects. -/
def State.rstMask (s : State) (r : RstGo) : Nat :=
  match r.level with
  | 1 => 2 ^ r.ctx
  | 2 => (match s.logCtx r.gl with | some c => 2 ^ c | none => 0)
  | 3 => Nat.lor (2 ^ r.ctx) (s.blockMask (s.ctxBlocks r.ctx))
  | _ => s.activeMask

/-- Physical cores of a partition reset: those of its blocks, spares included, and those of every context it affects (R350). -/
def State.partCores (s : State) (r : RstGo) : List Nat :=
  ((s.ctxBlocks r.ctx).flatMap (fun b => (List.range 10).map (10 * b + ·)) ++ (maskCtxs (s.rstMask r)).flatMap (fun k => s.ctxCores k)).dedup

/-- Slices of a partition reset. -/
def State.partSlices (s : State) (r : RstGo) : List Nat :=
  ((s.ctxBlocks r.ctx).flatMap (fun b => (List.range 8).map (8 * b + ·)) ++ (maskCtxs (s.rstMask r)).flatMap (fun k => s.ctxSlices k)).dedup

/-- The reset as it stands when it begins: its contexts, and the cores and slices it has to zeroise. -/
def State.rstJob (s : State) (r : RstGo) : RstJob :=
  let cores := match r.level with | 1 => s.ctxCores r.ctx | 2 => (s.physOf r.gl).toList | 3 => s.partCores r | _ => []
  let slices := match r.level with | 1 => s.ctxSlices r.ctx | 3 => s.partSlices r | _ => []
  { level := r.level, origin := r.origin, ctxMask := s.rstMask r, lcore := if r.level = 2 then some r.gl else none,
    cores := cores, slices := slices, allCores := cores, allSlices := slices, since := r.since }

/-- Scope of the dump of a reset (R355). -/
def State.rstScope (s : State) (r : RstGo) : DumpScope :=
  match r.level with | 1 => .blocks (s.ctxBlocks r.ctx) | 2 => .core r.gl | 3 => .blocks (s.ctxBlocks r.ctx) | _ => .module

/-- The compute and memory domains stay in reset whatever is asked: under a thermal trip and during a power cycle, until main power is
lost, and while a D3 session is open (R352, R397, R401). -/
def State.heldFast (s : State) : Bool :=
  s.aon.thermtrip || s.rst.any (fun j => decide (5 ≤ j.level)) || (match s.dbg with | some d => decide (d.level = 3) | none => false)

/-! ### The levels (R349 to R352) -/

/-- Level 1 (R349). -/
def State.goContext (s : State) (r : RstGo) : State :=
  ((s.startJob (s.rstJob r) r.esc).resetCtx r.ctx r.env.hung).settleJobs (s.aon.time + 16 * r.env.t)

/-- Level 2 (R349). -/
def State.goEngine (s : State) (r : RstGo) : State :=
  match s.physOf r.gl with
  | none => s
  | some gp =>
    let s := s.startJob (s.rstJob r) r.esc
    if r.env.stuck then s else s.wipeCore gp domainClears

/-- Level 3 (R350). A level that never completes leaves its blocks held in reset. -/
def State.goPartition (s : State) (r : RstGo) : State :=
  let bs := s.ctxBlocks r.ctx
  let phys := bs.flatMap (fun b => (List.range 10).map (10 * b + ·))
  let slices := s.partSlices r
  let ctxs := maskCtxs (s.rstMask r)
  let stuck := r.env.stuck || s.heldFast
  let now := s.aon.time + 16 * r.env.t
  let s := s.startJob (s.rstJob r) r.esc
  let s := ctxs.foldl (fun (s : State) k => s.resetCtx k []) s
  let s := phys.foldl (fun (s : State) gp =>
    if (s.core gp).zeroing then s.clearCoreRegs gp domainClears else s.wipeCore gp domainClears) s
  let s := slices.foldl (fun (s : State) n => if s.sliceZero.contains n then s else s.zeroSlice n) s
  let s := s.clearPages (fun l => decide (l.blk < 8) && !l.module && decide (0x20 ≤ l.unit) && decide (l.unit < 0x29) && bs.contains (8 * l.region + l.blk))
  if stuck then { s with held := (s.held ++ bs).dedup }
  else ((bs.foldl (fun (s : State) b => s.enableBlock b) { s with held := s.held.filter (fun b => !bs.contains b) })).settleJobs now

/-- A channel is trained (MC_STAT). -/
def State.trained (s : State) (mc : Nat) : Bool := decide (s.rf (mcPg mc + 0x100) 31 31 = 1)

/-- A channel fails training: the pages of its region are RETIRED and a drain is requested (R338). -/
def State.channelFails (s : State) (mc t : Nat) : State :=
  let r := mc / 2
  let s := s.wf (mcPg mc + 0x100) 31 31 0
  let s := (List.range 1920).foldl (fun (s : State) k => s.wr (rcPg r (2 + k / 960) + 0x100 + 4 * (k % 960)) 0xC0C0C0C0) s
  s.requestDrain 3 r 0 (mcPg mc) (tclkCycle t)

/-! ### Repair of DRAM rows (R195) -/

/-- A listed row finds a repair: hPPR, or an entry of its channel's remap table (R195). -/
def State.canRepair (s : State) (hppr : List (Nat × Nat)) (r : Nat × Nat) : Bool :=
  hppr.contains r || decide (s.rf (mcPg r.1 + 0x100) 22 16 < 64)

/-- Page of a listed row: 512 rows of a channel in each page (R182). -/
def rowPage (r : Nat × Nat) : Nat × Nat := (r.1 / 2, r.2 / 512)

/-- The page of a row that found no remap entry stays RETIRED (R195; log entry 67): at once when it is FREE, else when it returns. -/
def State.keepRetired (s : State) (r : Nat × Nat) : State :=
  let p := rowPage r
  if 7680 ≤ p.2 then s
  else
    match s.pageState p.1 p.2 with
    | 0 => s.setOwner p.1 p.2 0xC0
    | 3 => s
    | _ => { s with retirePend := if s.retirePend.contains p then s.retirePend else s.retirePend ++ [p] }

/-- A listed row is repaired by hPPR, or remapped, or finds no remap entry: REMAP_FULL and a drain (R195, R340). -/
def State.repairRow (s : State) (hppr : List (Nat × Nat)) (r : Nat × Nat) : State :=
  let pg := mcPg r.1
  if !s.canRepair hppr r then (((s.capture pg 5 1 0x7F 0 5).countErr pg 5 1).requestDrain 3 (r.1 / 2) 0 pg 0).keepRetired r
  else if hppr.contains r then s.bump (pg + 0x114) 31 16 1
  else (s.bump (pg + 0x100) 22 16 1).bump (pg + 0x114) 15 0 1

/-- A page that was RETIRED, or waited to be, for a row repaired now is in use again (R195). -/
def State.unretire (s : State) (r : Nat × Nat) : State :=
  let p := rowPage r
  let s := { s with retirePend := s.retirePend.filter (· ≠ p) }
  if s.trained (r.1 / 2 * 2) ∧ s.trained (r.1 / 2 * 2 + 1) ∧ p.2 < 7680 ∧ s.pageState p.1 p.2 = 3 then s.setOwner p.1 p.2 0 else s

/-- The rows of the repair list, each repaired if it can be: first the pages of repaired rows are freed, then those of the others are
RETIRED, so that a page with both stays RETIRED (R195, R338). Only a bring-up frees a page (R195). -/
def State.repairAll (s : State) (bringUp : Bool) (hppr rows : List (Nat × Nat)) : State :=
  let go : State × List (Nat × Nat) → Nat × Nat → State × List (Nat × Nat) := fun x r =>
    (x.1.repairRow hppr r, if x.1.canRepair hppr r then x.2 else x.2 ++ [r])
  let (s, lost) := rows.foldl go (s, [])
  let s := if bringUp then (rows.filter (fun r => !lost.contains r)).foldl (fun (s : State) r => s.unretire r) s else s
  lost.foldl (fun (s : State) r => s.keepRetired r) s

/-- Replay of the repair list on the trained channels: hPPR and the remap tables start anew (R195, R338, R351). -/
def State.replayRepairs (s : State) (bringUp : Bool) (hppr : List (Nat × Nat)) : State :=
  let s := (List.range 128).foldl (fun (s : State) mc => (s.wf (mcPg mc + 0x100) 22 16 0).wr (mcPg mc + 0x114) 0) s
  s.repairAll bringUp hppr (s.repairs.filter (fun r => s.trained r.1))

/-- The compute domain as it leaves reset: every core and slice zeroised with fresh keys, its registers at reset, every context
ended, receive entries, requests and buckles gone (R351). -/
def State.freshCompute (s : State) : State :=
  let s := (List.range 16).foldl (fun (s : State) c => (s.endCtx c).clearEntries c) s
  let s := (List.range 5120).foldl (fun (s : State) gp => ((s.abandonSegment gp).dropTraffic gp).zeroCore gp domainClears) s
  let s := (List.range 4096).foldl (fun (s : State) n => s.zeroSlice n) s
  let s := s.clearPages (fun l => decide (l.domain = 3) || decide (l.domain = 2))
  let s := { s with reqs := [], xfers := [], memWrs := [], class2 := [], flows := [], posted := [], win := [], winPar := [], entropyBad := [],
                    ceBursts := [], openPages := [], patrolAt := [], xbarRR := [] }
  let s := (List.range 5120).foldl (fun (s : State) gp => s.zeroCoreDone gp) s
  (List.range 4096).foldl (fun (s : State) n => s.zeroSliceDone n) s

/-- Enable the units of the compute and memory domains; the controller of a channel that is not trained is retired (R26, R338, R342). -/
def State.enableAll (s : State) : State :=
  let s := (List.range 512).foldl (fun (s : State) b => s.enableBlock b) s
  let s := ((List.range 128).filter s.trained).foldl (fun (s : State) mc => s.enableUnit (mcPg mc)) s
  (List.range 64).foldl (fun (s : State) r => [rcPg r 0, bankPg r 0].foldl (fun (s : State) pg => s.enableUnit pg) s) s

/-- Compute and memory domains are held in reset. -/
def State.holdAll (s : State) : State := { s with held := List.range 512, memHeld := true }

/-- Level 4 (R351). -/
def State.goChip (s : State) (r : RstGo) : State :=
  let j := s.rstJob r
  let stuck := r.env.stuck || s.heldFast
  let now := s.aon.time + 16 * r.env.t + 16000 * r.env.us
  let s := s.startJob j r.esc
  if stuck then ((List.range 16).foldl (fun (s : State) c => s.endCtx c) s).holdAll
  else
    let s := ({ s with held := [], memHeld := false }).freshCompute
    let s := r.env.badChannels.foldl (fun (s : State) mc => s.channelFails mc r.env.t) s
    (((s.replayRepairs false r.env.hppr).pendAll).enableAll).endJob j now

/-- Level 5 (R352): the post-mortem record is written, and PWRCYC_REQ_N asserted if PCYC_EN. -/
def State.goPower (s : State) (r : RstGo) : State :=
  let s := s.startJob (s.rstJob r) r.esc
  let n := s.recent.length
  let fl := { s.flash with postMortem := s.recent.drop (n - 120), postRst := s.rd (rstPg + 0x104) }
  let ao := { s.aon with pwrcyc := s.aon.pwrcyc || decide (s.rf (rstPg + 0x10C) 8 8 = 1) }
  ({ s with flash := fl, aon := ao }).holdAll

/-- A reset begins its work. -/
def State.goLevel (s : State) (r : RstGo) : State :=
  match r.level with
  | 1 => s.goContext r
  | 2 => s.goEngine r
  | 3 => s.goPartition r
  | 4 => s.goChip r
  | _ => s.goPower r

/-! ### Requests (R348, R353, R355) -/

/-- A requested reset joins one that covers it, or begins. -/
def State.runRst (s : State) (r : RstGo) : State := if s.rst.any (fun j => j.covers (s.rstJob r)) then s else s.goLevel r

/-- A reset begins once its dump has been captured. A capture in progress is its own if their scopes are the same, else it goes first
(R355, R357). -/
def State.dumpThen (s : State) (dump : Bool) (r : RstGo) : State :=
  if !dump then s.goLevel r
  else if s.capturing then { s with dumpWait := s.dumpWait ++ [.rst (s.sameScope (s.rstScope r)) r] }
  else (s.dumpNow (s.rstScope r) r.level (s.rstMask r) r.env.silent).goLevel r

/-- A reset is requested: it joins a reset that covers it, or runs; without main power there is nothing to reset. -/
def State.request (s : State) (dump : Bool) (r : RstGo) : State :=
  if !s.aon.powered ∨ s.rst.any (fun j => j.covers (s.rstJob r)) then s else s.dumpThen dump r

/-- What has waited for a capture goes on: a reset captures and begins, and a DUMP_CTL request starts the next capture. -/
def State.dumpDrain (s : State) : List DumpWait → State
  | [] => { s with dumpWait := [] }
  | .ctl v q :: l => ({ s with dumpWait := l }).dumpRequest v q
  | .rst join r :: l =>
    let s := if join then s else s.dumpNow (s.rstScope r) r.level (s.rstMask r) r.env.silent
    (s.runRst r).dumpDrain l

/-- The order in which what waits goes on: resets whose scope the capture had go first. -/
def joinedFirst (l : List DumpWait) : List DumpWait :=
  let j : DumpWait → Bool := fun w => match w with | .rst true _ => true | _ => false
  l.filter j ++ l.filter (fun w => !j w)

/-- DUMP_COMPLETE: the capture completes; what waits for it goes on (R355, R357). -/
def execDumpComplete (s : State) : Host.Outcome State Fault Refusal :=
  if !s.capturing then .next s else .next (s.dumpEnd.dumpDrain (joinedFirst s.dumpWait))

/-- A request at `env.t` ns after the boundary. -/
def State.rstGo (s : State) (level ctx gl : Nat) (env : RstEnv) : RstGo :=
  { level := level, origin := level, ctx := ctx, gl := gl, env := env, since := s.aon.time + 16 * env.t }

/-- A context reset is requested (R348, R349). -/
def State.reqContext (s : State) (ctx : Nat) (dump : Bool) (env : RstEnv) : State := s.request dump (s.rstGo 1 ctx 0 env)

/-- An engine reset is requested (R348, R349). -/
def State.reqEngine (s : State) (gl : Nat) (dump : Bool) (env : RstEnv) : State := s.request dump (s.rstGo 2 0 gl env)

/-- A partition reset is requested (R348, R350). -/
def State.reqPartition (s : State) (ctx : Nat) (dump : Bool) (env : RstEnv) : State := s.request dump (s.rstGo 3 ctx 0 env)

/-- A chip compute reset is requested (R348, R351). -/
def State.reqChip (s : State) (dump : Bool) (env : RstEnv) : State := s.request dump (s.rstGo 4 0 0 env)

/-- A power cycle is requested (R348, R352). -/
def State.reqPower (s : State) (dump : Bool) (env : RstEnv) : State := s.request dump (s.rstGo 5 0 0 env)

/-- CONTEXT_RESET (R348, R349). -/
def execContextReset (_ag : Agent) (ctx : Nat) (dump : Bool) (env : RstEnv) (s : State) : Host.Outcome State Fault Refusal := inRange (.contextReset _ag ctx dump env) <|
  .next (s.reqContext ctx dump env)

/-- ENGINE_RESET (R348, R349). -/
def execEngineReset (_ag : Agent) (gl : Nat) (dump : Bool) (env : RstEnv) (s : State) : Host.Outcome State Fault Refusal := inRange (.engineReset _ag gl dump env) <|
  .next (s.reqEngine gl dump env)

/-- PARTITION_RESET (R348, R350). -/
def execPartitionReset (_ag : Agent) (ctx : Nat) (dump : Bool) (env : RstEnv) (s : State) : Host.Outcome State Fault Refusal := inRange (.partitionReset _ag ctx dump env) <|
  .next (s.reqPartition ctx dump env)

/-- CHIP_COMPUTE_RESET (R348, R351). -/
def execChipComputeReset (_ag : Agent) (dump : Bool) (env : RstEnv) (s : State) : Host.Outcome State Fault Refusal := inRange (.chipComputeReset _ag dump env) <|
  .next (s.reqChip dump env)

/-- POWER_CYCLE (R348, R352). -/
def execPowerCycle (_ag : Agent) (dump : Bool) (env : RstEnv) (s : State) : Host.Outcome State Fault Refusal := inRange (.powerCycle _ag dump env) <|
  .next (s.reqPower dump env)

/-! ### Escalation (R348, R353, R355) -/

/-- The level after a level that has not completed: from an engine reset to the partition of its core's context, or to the chip. -/
def State.nextLevel (s : State) (j : RstJob) : Nat :=
  match j.level with
  | 1 => 3
  | 2 => (match j.lcore.bind s.logCtx with | some _ => 3 | none => 4)
  | 3 => 4
  | _ => 5

/-- The context whose partition an escalation to level 3 resets. -/
def State.escCtx (s : State) (j : RstJob) : Nat :=
  match j.lcore with
  | some gl => (s.logCtx gl).getD 0
  | none => ((maskCtxs j.ctxMask).head?).getD 0

/-- Global logical number of the first core that has not reported. -/
def State.firstLate (s : State) (j : RstJob) : Nat :=
  ((j.cores.filterMap (fun gp => s.logOf gp)).foldl (fun (o : Option Nat) l => match o with
    | none => some l
    | some k => some (min k l)) none).getD 0xFFF

/-- The reset that follows one whose timer has expired. -/
def State.escGo (s : State) (j : RstJob) (env : RstEnv) : RstGo :=
  { level := s.nextLevel j, origin := j.origin, esc := true, ctx := s.escCtx j, env := env, since := j.since }

/-- RESET_ESCALATED (R348): the timer of the `n`-th of the resets in progress, oldest first, expires `us` µs after its level began. -/
def execResetEscalated (n us : Nat) (env : RstEnv) (s : State) : Host.Outcome State Fault Refusal := inRange (.resetEscalated n us env) <|
  match s.rst[n]? with
  | none => .next s
  | some j =>
    if 5 ≤ j.level then .next s
    else
      let r := s.escGo j env
      let synd := BitVec.ofNat 64 (j.level + r.level * 2 ^ 3 + Nat.lor j.ctxMask (s.rstMask r) * 2 ^ 6 + s.firstLate j * 2 ^ 22 + us % 2 ^ 26 * 2 ^ 34)
      let s := s.chipRec rstPg (if r.level = 3 then 2 else 3) 0x43 (tclkCycle env.t) synd
      .next (s.dumpThen (decide (s.rf (rstPg + 0x10C) 9 9 = 1)) r)

/-! ### Hearth takeover (R354) -/

/-- HEARTBEAT: received by the standby, or missed (R354). -/
def execHeartbeat (received : Bool) (s : State) : Host.Outcome State Fault Refusal :=
  let ao := { s.aon with missed := if received then 0 else s.aon.missed + 1 }
  .next (({ s with aon := ao }).wf (rstPg + 0x114) 1 1 (bit received))

/-- Records that waited in the regions' queues of 64; those of module units wait in none (R354, R420), and those beyond count as CE of the region controller, in its window too (R31, R354). -/
def State.queueRecs (s : State) (t : Nat) : State :=
  let counts : Tbl Nat → List Rec → List Rec × List Rec := fun seen rs =>
    let step : (Tbl Nat × List Rec × List Rec) → Rec → (Tbl Nat × List Rec × List Rec) := fun acc r =>
      let l := locOf r.src
      let k := l.region
      let n := Tbl.get 0 acc.1 k
      if l.module then (acc.1, acc.2.1 ++ [r], acc.2.2)
      else if n < 64 then (Tbl.set 0 acc.1 k (n + 1), acc.2.1 ++ [{ r with queued := true }], acc.2.2) else (acc.1, acc.2.1, acc.2.2 ++ [r])
    let out := rs.foldl step (seen, [], [])
    (out.2.1, out.2.2)
  let (keep, lost) := counts [] s.recQ
  let s := { s with recQ := keep }
  lost.foldl (fun (s : State) r =>
    let pg := rcPg (locOf r.src).region 0
    if s.counts pg false then (s.errUp pg false).window pg 0 (tclkCycle t) else s) s

/-- HEARTH_TAKEOVER: after 10 missed heartbeats the standby takes over at a boundary; when it is the standby itself that has
failed, no hearth serves (R354). -/
def execHearthTakeover (t : Nat) (s : State) : Host.Outcome State Fault Refusal :=
  if s.aon.missed < 10 then .next s
  else
    let a := rstPg + 0x114
    if s.rf a 0 0 = 1 then
      let ao := { s.aon with hearthDead := true }
      .next { s with aon := ao }
    else
      let ao := { s.aon with missed := 0 }
      let s := (({ s with aon := ao }.queueRecs t).wf a 0 0 1).bump a 31 16 1
      let s := s.wf a 1 1 0
      let fl := { s.flash with replaceSoon := true }
      .next (({ s with flash := fl }).chipRec rstPg 3 0x43 (tclkCycle t) (BitVec.ofNat 64 (7 + 7 * 2 ^ 3 + 0xFFF * 2 ^ 22)))

/-- AON_WATCHDOG: 1 s without a heartbeat from either hearth asserts PWRCYC_REQ_N, whatever PCYC_EN (R354): no hearth is left, or the crystal
has stopped, or 10,000 heartbeats in a row have not come and no standby has taken over. Without main power the pin is released (R433). -/
def execAonWatchdog (s : State) : Host.Outcome State Fault Refusal :=
  if s.aon.powered ∧ (s.aon.hearthDead ∨ !s.aon.crystal ∨ 10000 ≤ s.aon.missed) then
    let ao := { s.aon with pwrcyc := true }
    .next { s with aon := ao }
  else .next s

end Sys2Proof.Machine
end

