-- ==== Sys2Proof/Machine/Quexon.lean ====
section
/-! DEFINITION. The link layer of the Quexon ports (R358 to R360) and the loss of a port (R379). -/

namespace Sys2Proof.Machine

/-! ### The port goes DOWN (R379) -/

/-- Number of lanes in a 16-bit mask. -/
def laneCount (m : Nat) : Nat := ((List.range 16).filter (fun i => decide (m / 2 ^ i % 2 = 1))).length

/-- SYND of LINK_DOWN of a Quexon port. -/
def State.qSynd (s : State) (p : QPort) (kind cause mask : Nat) : BitVec 64 :=
  BitVec.ofNat 64 ((match p with | .qa => 12 | .qb => 13) + kind * 2 ^ 4 + cause * 2 ^ 8 + laneCount (s.rf (qPg p + 0x100) 27 12) * 2 ^ 12
    + s.rf (qPg p + 0x100) 11 10 * 2 ^ 20 + mask * 2 ^ 48)

/-- Agent of a port. -/
def qAgent (p : QPort) : Agent := match p with | .qa => .qa | .qb => .qb

/-- A line key belongs to a port's companion space. -/
def keyOf (p : QPort) (key : Nat) : Bool := match p with | .qa => decide (key < 2 ^ 33) | .qb => decide (2 ^ 33 ≤ key)

/-- What a port loses (R379 steps 1 to 4): hitches, contexts, cache lines, outstanding requests; the session of its agent closes
(R395). The answer names the contexts reset. -/
def State.qLose (s : State) (p : QPort) : Nat × State :=
  let s := s.wf (qPg p + 0x100) 31 28 0
  let s := s.freeHitches (hitchId (qAgent p))
  let ctxs := (List.range 16).filter (fun c => s.ctxActive c && decide (s.ctxPort c = p))
  let s := ctxs.foldl (fun (s : State) c => s.reqContext c false {}) s
  let s := { s with cache := s.cache.filter (fun l => !keyOf p l.1) }
  let reqs := (s.q p).reqs
  let s := reqs.foldl (fun (s : State) r => s.answered p r 0 none false) (s.setQ p {})
  let s := match s.dbg with
    | some d => if d.agent = qAgent p then s.closeSession else s
    | none => s
  (ctxs.foldl (fun n c => n + 2 ^ c) 0, s)

/-- Port `p` goes DOWN: 0 retrain failures, 1 no whole half of lanes, 2 no valid header (R360, R379). -/
def State.qDown (s : State) (p : QPort) (cause cyc : Nat) : State :=
  if s.qLive p then
    let (mask, s) := s.qLose p
    s.chipRec (qPg p) 2 0x21 cyc (s.qSynd p 0 cause mask)
  else s

/-- Both ports go DOWN as their lanes fall into electrical idle, with the cause of a lost signal: the rule makes no exception for a bring-up
or a loss of power (R379; the cause is a DESIGN CHOICE, log entry 66). -/
def State.portsLost (s : State) : State := (s.qDown .qa 1 0).qDown .qb 1 0

/-- QUEXON_LINK_DOWN (R379). -/
def execQuexonLinkDown (p : QPort) (cause t : Nat) (s : State) : Host.Outcome State Fault Refusal := inRange (.quexonLinkDown p cause t) <|
  .next (s.qDown p cause (tclkCycle t))

/-! ### Training and retraining (R358, R360) -/

/-- Lanes in use of a set of good lanes: 16, or 8 of a whole half. -/
def qWidth (good : Nat) : Nat := if good % 2 ^ 16 = 0xFFFF then 16 else if good % 256 = 255 ∨ good / 256 % 256 = 255 then 8 else 0

/-- Send unacknowledged flits again, with the present acknowledgement. -/
def State.qResend (s : State) (p : QPort) : List (Nat × Nat × List (BitVec 128)) → State
  | [] => s
  | x :: r => (s.send (.flit p ((s.q p).link.header x.2.1 false x.2.2) x.2.2)).qResend p r

/-- The port is up on 16 or 8 lanes. -/
def State.qUpNow (s : State) (p : QPort) (width : Nat) : State :=
  (s.wf (qPg p + 0x100) 31 28 (if width = 16 then 2 else 3)).wf (qPg p + 0x100) 11 10 0

/-- A training of a port that is DOWN: it comes up with fresh credits and SEQ (R358, R361), or stays DOWN. It does not
train without power, under PERST_N, or after a bring-up that failed (R330, R332). -/
def State.qTrain (s : State) (p : QPort) (r : QTrainResult) : State :=
  if !r.done ∨ !s.aon.powered ∨ s.rf (modPg 8 0 + 0x118) 30 30 = 1 ∨ s.lanesIdle = true then s
  else
    let s := s.wf (qPg p + 0x100) 27 12 r.good.toNat
    if qWidth r.good.toNat = 0 then s else (s.setQ p {}).qUpNow p (qWidth r.good.toNat)

/-- A retrain attempt: messages before the peer's expected SEQ are acknowledged and the others sent again; at x8 it records
LINK_DOWN with KIND 1. An attempt that is not `done` within 100 µs fails, and the third failure takes the port DOWN (R360, R379). -/
def State.qRetrain (s : State) (p : QPort) (r : QTrainResult) (cyc : Nat) : State :=
  let a := qPg p + 0x100
  let s := s.wf a 31 28 4
  if !r.done then
    let n := s.rf a 11 10 + 1
    let s := s.wf a 11 10 n
    if 3 ≤ n then s.qDown p 0 cyc else s
  else
    let s := s.wf a 27 12 r.good.toNat
    let w := qWidth r.good.toNat
    if w = 0 then s.qDown p 1 cyc
    else
      let s := s.qUpNow p w
      let x := s.q p
      let keep := x.link.unacked.dropWhile (fun f => decide (f.1 ≠ r.peerExp))
      let s := s.setQ p { x with link := { x.link with unacked := keep, naked := false, nakDue := false, sameReplay := 0 } }
      let s := (s.qResend p keep).qFlush p
      if w = 8 then s.chipRec (qPg p) 0 0x21 cyc (s.qSynd p 1 0 0) else s

/-- RETRAIN = 1: a retrain of a port that is up, or a training of one that is DOWN (R358, R360). -/
def State.qSoft (s : State) (p : QPort) (res : QTrainResult) (cyc : Nat) : State := if s.qLive p then s.qRetrain p res cyc else s.qTrain p res

/-- Q_RETRAIN: Q_CTL.RETRAIN, a training sequence of the peer, or the next attempt of a retrain that failed (R360). -/
def execQRetrain (p : QPort) (res : QTrainResult) (t : Nat) (s : State) : Host.Outcome State Fault Refusal :=
  .next (s.qSoft p res (tclkCycle t))

/-- Q_LINK_LOSS: `lanes` are lost for more than 1 µs; a retrain while a whole half remains, else the port goes DOWN. With no lane
lost, no valid flit header has come for more than 1 µs (R360). -/
def execQLinkLoss (p : QPort) (lanes : BitVec 16) (res : QTrainResult) (t : Nat) (s : State) : Host.Outcome State Fault Refusal :=
  if !s.qLive p then .next s
  else if lanes = 0 then .next (s.qDown p 2 (tclkCycle t))
  else
    let a := qPg p + 0x100
    let good := (List.range 16).foldl (fun n i => if s.rf a (12 + i) (12 + i) = 1 ∧ !lanes.getLsbD i then n + 2 ^ i else n) 0
    let s := s.wf a 27 12 good
    .next (if qWidth good = 0 then s.qDown p 1 (tclkCycle t) else s.qRetrain p res (tclkCycle t))

/-! ### Flits (R359, R360, R222, R223) -/

/-- Everything up to and including a SEQ is acknowledged. -/
def QLink.acked (l : QLink) (seq : Nat) : QLink :=
  if l.unacked.any (fun x => decide (x.1 = seq)) then
    { l with unacked := (l.unacked.dropWhile (fun x => decide (x.1 ≠ seq))).drop 1 }
  else l

/-- One replay from a SEQ that is unacknowledged; it is over within its command, so no NAK can come that names a flit it has still to resend
(R223); after the fourth in a row from one SEQ the port is retraining (R360). -/
def State.qReplay (s : State) (p : QPort) (seq : Nat) : State :=
  let x := s.q p
  let l := x.link
  if !l.unacked.any (fun f => decide (f.1 = seq)) then s
  else
    let same := if l.sameReplay ≠ 0 ∧ l.lastReplay = seq then l.sameReplay + 1 else 1
    let s := (s.setQ p { x with link := { l with lastReplay := seq, sameReplay := same } }).bump (qPg p + 0x108) 31 0 1
    if 4 ≤ same then s.wf (qPg p + 0x100) 31 28 4
    else s.qResend p (l.unacked.dropWhile (fun f => decide (f.1 ≠ seq)))

/-- Q_REPLAY_TIMEOUT: no ACK has advanced for 2 µs (R360). -/
def execQReplayTimeout (p : QPort) (s : State) : Host.Outcome State Fault Refusal :=
  match (s.q p).link.unacked with
  | x :: _ => if s.qUp p then .next (s.qReplay p x.1) else .next s
  | [] => .next s

/-- One NAK for a flit that failed; it waits while the replay buffer is full (R222, R223). -/
def State.qNak (s : State) (p : QPort) : State :=
  let x := s.q p
  if x.link.naked then s else (s.setQ p { x with link := { x.link with naked := true, nakDue := true } }).qNakFlush p

/-- What the header of a sound flit says about this side's own flits. -/
def State.qHeard (s : State) (p : QPort) (h : Nat) : State :=
  let ack := h / 2 ^ 12 % 4096
  let nak := decide (h / 2 ^ 24 % 2 = 1)
  let x := s.q p
  let s := (s.setQ p { x with link := x.link.acked (if nak then (ack + 4095) % 4096 else ack) }).qNakFlush p
  if nak then s.qReplay p ack else s

/-- The flit that was expected: its freed slots return as credit, and an ACK goes back after 64 flits (R360, R361). -/
def State.qAccept (s : State) (p : QPort) (h : Nat) : State :=
  let x := s.q p
  let l := x.link
  let credits := (List.range 4).map (fun i => l.credits.getD i 0 + h / 2 ^ (32 + 8 * i) % 256)
  let s := s.setQ p { x with link := { l with rx := (l.rx + 1) % 4096, naked := false, nakDue := false, pendAck := l.pendAck + 1, credits := credits } }
  let s := s.qFlush p
  if 64 ≤ (s.q p).link.pendAck then s.flit p true false [] else s

/-- QUEXON_FLIT_RX: a flit is accepted in order, answered as a duplicate, or discarded and NAKed on CRC or sequence failure (R359,
R360, R222). Its messages are commands of their own. -/
def execQuexonFlitRx (p : QPort) (header : BitVec 128) (slots : List (BitVec 128)) (s : State) : Host.Outcome State Fault Refusal := inRange (.quexonFlitRx p header slots) <|
  let h := header.toNat % 2 ^ 64
  if !s.qUp p then .next s
  else if header.toNat / 2 ^ 64 ≠ flitCrc h slots then
    let x := s.q p
    let s := s.setQ p { x with link := { x.link with naked := x.link.naked && decide (h % 4096 ≠ x.link.rx) } }
    .next ((s.bump (qPg p + 0x10C) 31 0 1).qNak p)
  else
    let s := s.qHeard p h
    let d := (h % 4096 + 4096 - (s.q p).link.rx) % 4096
    if d = 0 then .next (s.qAccept p h)
    else if 2048 ≤ d then .next (s.flit p true false [])
    else .next (s.qNak p)

end Sys2Proof.Machine
end

