-- ==== Sys2Proof/Machine/Security.lean ====
section
/-! DEFINITION. The security unit (R382 to R392): signed objects, lifecycle, attestation; debug sessions and core control (R394 to
R397). -/

namespace Sys2Proof.Machine

/-! ### The security pages (R387, R388) -/

/-- Security page 0, and the mailbox page of an agent. -/
def secPg : Nat := modPg 6 0
def mbPg (ag : Agent) : Nat := modPg 6 (mailboxOf ag)

/-- Set SEC_RSP.RESULT. -/
def State.secResult (s : State) (ag : Agent) (r : Nat) : State := s.wf (mbPg ag + 0x104) 3 0 r

/-- Draw a nonce (R387). -/
def State.redraw (s : State) : State :=
  let v := (Config.nonce s.nonceCtr).toNat
  (({ s with nonceCtr := s.nonceCtr + 1 }).wr64 (secPg + 0x110) v).wr64 (secPg + 0x118) (v / 2 ^ 64)

/-- DBG_NONCE. -/
def State.nonceNow (s : State) : Nat := s.rd64 (secPg + 0x110) + s.rd64 (secPg + 0x118) * 2 ^ 64

/-! ### Signed objects (R383, R386) -/

/-- Bytes 0 to 95 of an object. -/
def secBytes (o : SecObject) : List (BitVec 8) :=
  [o.type, o.arg, o.signer, o.agent].flatMap (byteList 1) ++ byteList 8 o.deviceId.toNat ++ byteList 4 o.ctx ++ byteList 4 o.ctxInst.toNat
    ++ byteList 16 o.nonce.toNat ++ byteList 4 o.duration ++ byteList 32 o.key.toNat ++ byteList 24 0

/-- The bytes that an object's TYPE does not use are 0: a token has no KEY, and a context only at D2; the others have no context and no
DURATION; only an OWNER_KEY has a KEY, and it has no ARG (R386). `clean` says the same of the bytes that no TYPE uses. -/
def unusedZero (o : SecObject) : Bool :=
  o.clean && ((decide (o.type = 1) && decide (o.arg = 2)) || (decide (o.ctx = 0) && decide (o.ctxInst = 0)))
    && (decide (o.type = 1) || decide (o.duration = 0))
    && (decide (o.type = 3) || decide (o.key = 0)) && (decide (o.type ≠ 3) || decide (o.arg = 0))

/-- An object that is not of its command's type, or holds a value its layout does not allow (RESULT 8). -/
def secMalformed (type : Nat) (o : SecObject) : Bool :=
  decide (o.type ≠ type) || !unusedZero o || decide (o.agent = 0) || decide (3 < o.agent)
    || (match type with
      | 1 => decide (o.arg = 0) || decide (3 < o.arg) || decide (o.duration = 0) || decide (86400 < o.duration) || (decide (o.arg = 2) && decide (15 < o.ctx))
      | 2 => decide (3 < o.arg % 128)
      | 4 => decide (3 < o.arg)
      | _ => false)

/-- The order of the group of Ed25519 (RFC 8032; log entry 9). -/
def groupOrder : Nat := 2 ^ 252 + 27742317777372353535851937790883648493

/-- A signature verifies: S, its upper half, is below the group order, and the check of RFC 8032 section 5.1.7 passes (R383, check 3). -/
def sigOk (k : BitVec 256) (m : List (BitVec 8)) (sig : BitVec 512) : Bool :=
  decide (sig.toNat / 2 ^ 256 < groupOrder) && Config.ed25519Verify k m sig

/-- The manifest's root hashes to the fused value, and its signature verifies (R383, check 1). -/
def State.manifestOk (s : State) : Bool :=
  decide (Config.sha512 (byteList 32 s.flash.root.toNat) = s.flash.rootHash)
    && sigOk s.flash.root (s.flash.vks.flatMap (fun k => byteList 32 k.toNat)) s.flash.manifestSig

/-- A vendor signing key that is not revoked. -/
def State.vendorKey (s : State) (n : Nat) : Option (BitVec 256) :=
  if 4 ≤ n ∨ s.flash.revoked.getLsbD n then none else s.flash.vks[n]?

/-- The bytes of an image that its signature covers: its data and every field of its header, golden signatures included (R305, R383). The
spec gives no layout: each field least significant byte first, in this order (DESIGN CHOICE, log entry 68). -/
def imageBytes (m : Image) : List (BitVec 8) :=
  m.data ++ byteList 4 m.svn ++ byteList 1 (bit m.advance) ++ byteList 2 m.setId ++ byteList 2 m.version ++ byteList 2 m.silicon.toNat
    ++ m.golden.flatMap (fun g => byteList 1 g.1 ++ byteList 2 g.2.1 ++ byteList 8 g.2.2.1.toNat ++ byteList 1 g.2.2.2)

/-- Checks 1 to 3 of R383 on an image: the manifest, its signer, its signature. -/
def State.imageSigned (s : State) (m : Image) : Bool :=
  s.manifestOk && (match s.vendorKey m.signer with | none => false | some k => sigOk k (imageBytes m) m.sig)

/-- The checks of R383 on a firmware image, as VerifyResult codes: 0 passed, 0x90 refused, 0x91 SVN below MIN_SVN (R417). -/
def State.imageCheck (s : State) (m : Image) : Nat :=
  if !s.imageSigned m then 0x90 else if m.svn < s.flash.minSvn then 0x91 else 0

/-- The key a signer names: a vendor key that is not revoked, or the owner key; an OWNER_KEY in BLANK carries its own (R382). -/
def State.signerKey (s : State) (type : Nat) (o : SecObject) : Option (BitVec 256) :=
  if o.signer < 4 then s.vendorKey o.signer
  else if o.signer = 4 then (if type = 3 ∧ s.flash.lifecycle = 0 then some o.key else s.flash.owner)
  else none

/-- The checks of R383 on an object presented by an agent: the first that fails gives the RESULT. -/
def State.secCheck (s : State) (ag : Agent) (type : Nat) (o : SecObject) : Nat :=
  if !s.manifestOk then 1
  else
    match s.signerKey type o with
    | none => 2
    | some k =>
      if !sigOk k (secBytes o) o.sig then 1
      else if o.deviceId ≠ s.flash.deviceId then 3
      else if o.nonce.toNat ≠ s.nonceNow ∨ o.agent ≠ hitchId ag then 4
      else 0

/-- Process an object: layout, checks, the type's own rule, its effect; then a new nonce and the RESULT (R383, R387, R388; order
of the refusals: log entry 29). -/
def State.present (s : State) (ag : Agent) (type : Nat) (o : SecObject) (rule : State → Nat) (go : State → State) : State :=
  let r := if secMalformed type o then 8 else if s.secCheck ag type o ≠ 0 then s.secCheck ag type o else rule s
  ((if r = 0 then go s else s).redraw).secResult ag r

/-! ### Debug tokens (R394) -/

/-- Some context is ACTIVE. -/
def State.anyActive (s : State) : Bool := (List.range 16).any (fun c => s.ctxActive c)

/-- The conditions under which a token opens a session. -/
def State.tokenRule (s : State) (o : SecObject) : Nat :=
  let lc := s.flash.lifecycle
  let field := decide (lc = 1) || decide (lc = 2)
  if o.arg = 3 ∧ field then 5
  else if field ∧ o.signer ≠ 4 ∨ !field ∧ o.signer = 4 then 2
  else if !s.aon.powered ∨ (2 ≤ o.arg ∧ 2 ≤ s.pwrState) ∨ (o.arg = 3 ∧ s.anyActive) then 5
  else if s.dbg.isSome then 7
  else if o.arg = 2 ∧ (!s.ctxActive o.ctx ∨ s.rd (secPg + 0x120 + 4 * o.ctx) ≠ o.ctxInst) then 6
  else 0

/-- A session opens. D3 holds compute and memory in reset, and the next bring-up is cold (R397). -/
def State.openSession (s : State) (ag : Agent) (o : SecObject) : State :=
  let s := { s with dbg := some { level := o.arg, agent := ag, ctx := if o.arg = 2 then o.ctx else 0, left := o.duration * 16000000000 } }
  if o.arg = 3 then
    let ao := { s.aon with lastReady := false }
    ({ s with aon := ao }).holdAll
  else s

/-- A debug token is presented (R394). -/
def State.presentToken (s : State) (ag : Agent) (o : SecObject) : State := s.present ag 1 o (fun s => s.tokenRule o) (fun s => s.openSession ag o)

/-- PRESENT_DEBUG_TOKEN (R394). -/
def execPresentDebugToken (ag : Agent) (o : SecObject) (s : State) : Host.Outcome State Fault Refusal := .next (s.presentToken ag o)

/-! ### Lifecycle (R391, R392) -/

/-- The rule of a LIFECYCLE object: PROVISIONED to DEPLOYED by the owner; PROVISIONED or DEPLOYED to RETURNED by the owner or a
vendor key; in RETURNED, target RETURNED with ARG bit 7 by a vendor key, which clears the fence list (R386, R391; log entry 31). -/
def State.lifecycleRule (s : State) (o : SecObject) : Nat :=
  let lc := s.flash.lifecycle
  if !s.aon.powered then 5
  else if lc = 1 ∧ o.arg % 128 = 2 then (if o.signer = 4 then 0 else 2)
  else if (lc = 1 ∨ lc = 2) ∧ o.arg % 128 = 3 then 0
  else if lc = 3 ∧ o.arg = 131 then 0
  else 5

/-- Channel of a DRAM byte: bit 11 of the offset picks the channel of its region (R182). -/
def chanOf (a : Nat) : Nat := a / 2 ^ 34 * 2 + a / 2048 % 2

/-- Owner bytes of a register with every page FREE except RETIRED ones. -/
def freeOwners (v : Word) : Word :=
  BitVec.ofNat 32 ((List.range 4).foldl (fun n i => n + (if fld v (8 * i + 7) (8 * i + 6) = 3 then fld v (8 * i + 7) (8 * i) else 0) * 2 ^ (8 * i)) 0)

/-- An owner-table register. -/
def isOwnerReg (a : Nat) : Bool :=
  let l := locOf a
  !l.module && decide (l.blk = 0xE) && decide (l.unit = 0) && (decide (l.page = 2) || decide (l.page = 3)) && decide (0x100 ≤ l.off)

/-- Every page becomes FREE: the memory test leaves RETIRED pages alone (R338, R339), entry to RETURNED does not (R392). -/
def State.freeAllPages (s : State) (keepRetired : Bool) : State :=
  let go : Word → Word := fun v => if keepRetired then freeOwners v else 0
  let regs := (s.regs.map (fun p => if isOwnerReg p.1 then (p.1, go p.2) else p)).filter (fun p => !isOwnerReg p.1 || decide (p.2 ≠ 0))
  let s := { s with regs := regs }
  (List.range 64).foldl (fun (s : State) r => s.wf (rcPg r 0 + 0x110) 12 0 0) s

/-- Zero data and the brand of an all-zero hide on every trained channel; dump slots are lost (R339, R392). -/
def State.zeroDram (s : State) : State :=
  { s with mem := s.mem.filter (fun p => !s.trained (chanOf p.1)), dramUpset := s.dramUpset.filter (fun p => !s.trained (chanOf (64 * p.1))),
           dramBrand := [], brandBase := some zeroHideBrand, dumpSlots := [] }

/-- Pages that waited to be RETIRED when they return are RETIRED now that they have (R195, log entry 30). -/
def State.retirePending (s : State) : State :=
  { (s.retirePend.foldl (fun (s : State) p => s.setOwner p.1 p.2 0xC0) s) with retirePend := [] }

/-- Entry to RETURNED (R392). ARG bit 7 clears the fence list (R323, R386; log entry 31). -/
def State.enterReturned (s : State) (clear : Bool) : State :=
  let s := ((List.range 16).filter (fun c => s.ctxActive c)).foldl (fun (s : State) c => s.reqContext c false {}) s
  let s := ((s.closeSession.zeroDram).freeAllPages false).retirePending
  let fl := { s.flash with owner := none, lifecycle := 3, zeroPend := (List.range 128).any (fun mc => !s.trained mc),
                           fence := if clear then [] else s.flash.fence }
  { s with flash := fl }

/-- A LIFECYCLE object takes effect. -/
def State.lifecycleGo (s : State) (o : SecObject) : State :=
  if s.flash.lifecycle = 3 then
    let fl := { s.flash with fence := [] }
    { s with flash := fl }
  else if o.arg % 128 = 3 then s.enterReturned (decide (128 ≤ o.arg))
  else
    let s := s.closeSession
    let fl := { s.flash with lifecycle := 2 }
    { s with flash := fl }

/-- A LIFECYCLE object is presented (R391). -/
def State.presentLife (s : State) (ag : Agent) (o : SecObject) : State := s.present ag 2 o (fun s => s.lifecycleRule o) (fun s => s.lifecycleGo o)

/-- PRESENT_LIFECYCLE (R391). -/
def execPresentLifecycle (ag : Agent) (o : SecObject) (s : State) : Host.Outcome State Fault Refusal := .next (s.presentLife ag o)

/-- The rule of an OWNER_KEY object: by its own key in BLANK, by the owner in PROVISIONED and DEPLOYED, by a vendor key in
RETURNED (R382, R391). -/
def State.ownerRule (s : State) (o : SecObject) : Nat :=
  if !s.aon.powered then 5 else if (s.flash.lifecycle = 3) = (o.signer < 4) then 0 else 2

/-- The owner key is installed or rotated. -/
def State.ownerGo (s : State) (o : SecObject) : State :=
  let lc := s.flash.lifecycle
  let s := if lc = 0 ∨ lc = 3 then s.closeSession else s
  let fl := { s.flash with owner := some o.key, lifecycle := if lc = 0 ∨ lc = 3 then 1 else lc }
  { s with flash := fl }

/-- An OWNER_KEY object is presented (R391). -/
def State.presentOwner (s : State) (ag : Agent) (o : SecObject) : State := s.present ag 3 o (fun s => s.ownerRule o) (fun s => s.ownerGo o)

/-- PRESENT_OWNER_KEY (R391). -/
def execPresentOwnerKey (ag : Agent) (o : SecObject) (s : State) : Host.Outcome State Fault Refusal := .next (s.presentOwner ag o)

/-- A REVOKE object is presented: another vendor key revokes one; with it one key stays unrevoked (R384). -/
def State.presentRevoked (s : State) (ag : Agent) (o : SecObject) : State :=
  s.present ag 4 o (fun s => if !s.aon.powered then 5 else if o.signer = 4 ∨ o.signer = o.arg then 2 else 0) (fun s =>
    let fl := { s.flash with revoked := s.flash.revoked ||| BitVec.ofNat 4 (2 ^ o.arg) }
    { s with flash := fl })

/-- PRESENT_REVOKE (R384). -/
def execPresentRevoke (ag : Agent) (o : SecObject) (s : State) : Host.Outcome State Fault Refusal := .next (s.presentRevoked ag o)

/-- The agent's own session closes (R395). A D3 session closes only at power loss; its CLOSE is answered with 5 (log entry 29). -/
def State.closeReq (s : State) (ag : Agent) : State :=
  match s.dbg with
  | some d =>
    if d.agent ≠ ag then s.secResult ag 7
    else if d.level = 3 then s.secResult ag 5
    else s.closeSession.secResult ag 0
  | none => s.secResult ag 7

/-- CLOSE (R395). -/
def execClose (ag : Agent) (s : State) : Host.Outcome State Fault Refusal := .next (s.closeReq ag)

/-- DEBUG_SESSION_EXPIRE: the session's time ends in the stroke under way, or has ended (R395). -/
def execDebugSessionExpire (s : State) : Host.Outcome State Fault Refusal :=
  match s.dbg with
  | some d => if d.left ≤ s.gen.len then .next s.closeSession else .next s
  | none => .next s

/-! ### Attestation (R389, R390) -/

/-- An answer to a mailbox: its bytes from 0x200, its length and RESULT 0; or on MCTP. -/
def State.spdmReply (s : State) (mailbox : Option Agent) (bytes : List (BitVec 8)) : State :=
  let bytes := bytes.take 3584
  match mailbox with
  | none => s.send (.reply 5 (mctpUnits bytes))
  | some ag =>
    let s := (List.range ((bytes.length + 3) / 4)).foldl (fun (s : State) k =>
      s.wr (mbPg ag + 0x200 + 4 * k) (BitVec.ofNat 32 (ofBytesLE (((bytes.drop (4 * k)).take 4).map (·.toNat))))) s
    (s.wf (mbPg ag + 0x104) 15 4 bytes.length).secResult ag 0

/-- What the SPDM responder supports (R389): version 1.3; capabilities CERT, CHAL, MEAS = 2 and MEAS_FRESH, and no other; Ed25519; SHA-512
for the base and the measurement hash; the DMTF measurement specification; certificate slot 0; the largest message. Bits as DSP0274
places them (log entry 10). -/
def spdmFacts : List Nat := [0x13, 2 ^ 1 + 2 ^ 2 + 2 * 2 ^ 3 + 2 ^ 5, 2 ^ 9, 2 ^ 2, 2 ^ 3, 1, 1, 3584]

/-- The certificate chain of slot 0: vendor CA and device identity certificate, as manufacture wrote them, and the alias certificate that
the ROM issued at the last bring-up: the alias key, signed with the identity key (R389). -/
def State.certChain (s : State) : List (BitVec 8) :=
  s.flash.idChain ++ byteList 32 (Config.publicKey s.aon.aliasKey).toNat ++ byteList 64 s.aon.aliasCert.toNat

/-- An SPDM request (R389). The answer carries what the responder supports and its chain, in the layout of DSP0274, which the spec does
not give: its bytes are a free value (log entry 10). -/
def State.spdmReq (s : State) (mailbox : Option Agent) (msg : List (BitVec 8)) : State :=
  let (n, s) := s.fresh
  s.spdmReply mailbox (Config.spdmAnswer n spdmFacts s.certChain msg)

/-- SPDM_REQUEST (R389). -/
def execSpdmRequest (mailbox : Option Agent) (msg : List (BitVec 8)) (s : State) : Host.Outcome State Fault Refusal := .next (s.spdmReq mailbox msg)

/-! ### SEC_CMD (R386, R388) -/

/-- The first `n` bytes of an agent's buffer. -/
def State.secBuf (s : State) (ag : Agent) (n : Nat) : List (BitVec 8) :=
  (List.range n).map (fun i => BitVec.ofNat 8 (s.rdByte (mbPg ag + 0x200 + i)))

/-- The object in an agent's buffer; `clean`: the bytes that no TYPE uses are 0 (R386). -/
def State.bufObject (s : State) (ag : Agent) : SecObject :=
  let v := (List.range 40).foldl (fun n k => n + (s.rd (mbPg ag + 0x200 + 4 * k)).toNat * 2 ^ (32 * k)) 0
  let f : Nat → Nat → Nat := fun at_ len => v / 2 ^ (8 * at_) % 2 ^ (8 * len)
  let unused := decide (f 13 3 = 0) && decide (f 72 24 = 0)
  { type := f 0 1, arg := f 1 1, signer := f 2 1, agent := f 3 1, deviceId := BitVec.ofNat 64 (f 4 8), ctx := f 12 1, ctxInst := BitVec.ofNat 32 (f 16 4),
    nonce := BitVec.ofNat 128 (f 20 16), duration := f 36 4, key := BitVec.ofNat 256 (f 40 32), sig := BitVec.ofNat 512 (f 96 64), clean := unused }

/-- SEC_CMD with GO = 1: an object presented, CLOSE, or an SPDM request. A reserved CMD has no effect; an object of a reserved TYPE is
malformed (R386, R388, R395). -/
def State.secCmd (s : State) (ag : Agent) (v : Word) : State :=
  if fld v 31 31 = 0 then s
  else
    match fld v 3 0 with
    | 1 =>
      let o := s.bufObject ag
      match o.type with
      | 1 => s.presentToken ag o
      | 2 => s.presentLife ag o
      | 3 => s.presentOwner ag o
      | 4 => s.presentRevoked ag o
      | _ => s.redraw.secResult ag 8
    | 2 => s.closeReq ag
    | 3 => s.spdmReq (some ag) (s.secBuf ag (fld v 15 4))
    | _ => s

/-- Bytes of a SHA-512 value. -/
def hashBytes (h : BitVec 512) : List (BitVec 8) := byteList 64 h.toNat

/-- Image of a firmware component in use. -/
def State.fwData (s : State) (comp : Nat) : List (BitVec 8) := ((Tbl.find? s.flash.fw comp).map (·.data)).getD []

/-- Contents of the configuration digest (R390, index 5): the fields it covers, each least significant byte first (log entry
10). -/
def State.cfgBytes (s : State) : List (BitVec 8) :=
  byteList 1 s.flash.lifecycle ++ hashBytes (Config.sha512 (match s.flash.owner with | some k => byteList 32 k.toNat | none => []))
    ++ byteList 1 s.flash.revoked.toNat ++ byteList 1 s.flash.minSvn ++ byteList 4 s.myId ++ byteList 4 (s.rd (rtPg + 0x104)).toNat
    ++ (List.range 16).flatMap (fun c => byteList 4 (s.rd (rtPg + 0x180 + 4 * c)).toNat) ++ byteList 4 (s.rd (rstPg + 0x10C)).toNat

/-- Assay set that block 3 measures: the set in use, and in OFF that of the last bring-up (R390, R403). -/
def State.assayMeasured (s : State) : Option Image := if s.aon.powered then s.flash.assay else s.flash.assayBoot

/-- Measurement block `i` (R390). -/
def State.measurement (s : State) (i : Nat) : List (BitVec 8) :=
  match i with
  | 1 => hashBytes (Config.sha512 (s.fwData 1))
  | 2 => hashBytes (Config.sha512 (s.fwData 2))
  | 3 => (match s.assayMeasured with
    | some a => byteList 4 a.setId ++ byteList 4 a.version ++ hashBytes (Config.sha512 a.data)
    | none => byteList 4 0 ++ byteList 4 0 ++ hashBytes (Config.sha512 []))
  | 4 => hashBytes (Config.sha512 (Config.fuseMapBytes s.flash.variant s.flash.badFuse))
  | 5 => hashBytes (Config.sha512 s.cfgBytes)
  | 6 => byteList 4 s.dbgStat.toNat
  | _ => []

/-- Blocks of an index; 0xFF asks for all of them (DSP0274). -/
def State.measured (s : State) (index : Nat) : List (BitVec 8) :=
  if index = 0xFF then [1, 2, 3, 4, 5, 6].flatMap s.measurement else s.measurement index

/-- GET_MEASUREMENTS: signed with the alias key of the last bring-up (R389, R390). -/
def execGetMeasurements (mailbox : Option Agent) (index : Nat) (s : State) : Host.Outcome State Fault Refusal :=
  let m := s.measured index
  .next (s.spdmReply mailbox (Config.measurementAnswer index m (Config.ed25519Sign s.aon.aliasKey m)))

/-! ### Core control (R396) -/

/-- A write of DBG_CTL by the session's agent. -/
def State.dbgCtl (s : State) (ag : Agent) (gp : Nat) (f : State → State) : State := s.ifAdmitted ag (corePg gp + 0x1300) f

/-- Halt a core of the session. -/
def State.dbgHalt (s : State) (gp : Nat) : State := if (s.core gp).halted then s else s.haltCore gp (s.core gp).now 0 none

/-- A halted core runs from the next boundary; `step` for one body. -/
def State.dbgRun (s : State) (gp : Nat) (step : Bool) : State :=
  if (s.core gp).halted then s.modCore gp (fun c => { c with runPend := true, stepping := step }) else s

/-- HALT (R396). -/
def execHalt (ag : Agent) (gp : Nat) (s : State) : Host.Outcome State Fault Refusal := inRange (.halt ag gp) <| .next (s.dbgCtl ag gp (fun s => s.dbgHalt gp))

/-- RUN (R396). -/
def execRunCore (ag : Agent) (gp : Nat) (s : State) : Host.Outcome State Fault Refusal := inRange (.runCore ag gp) <| .next (s.dbgCtl ag gp (fun s => s.dbgRun gp false))

/-- STEP (R396). -/
def execStepCore (ag : Agent) (gp : Nat) (s : State) : Host.Outcome State Fault Refusal := inRange (.stepCore ag gp) <| .next (s.dbgCtl ag gp (fun s => s.dbgRun gp true))

/-! ### JTAG (R397, R426) -/

/-- A D3 session is open. -/
def State.d3Open (s : State) : Bool := match s.dbg with | some d => decide (d.level = 3) | none => false

/-- The TAP works with the auxiliary supply and TRST_N high; TRST_N low holds it in reset, and TDO is not driven (R426). -/
def State.tap (s : State) (trst : Bool) (f : State → State) : State :=
  if !s.aon.aux then s else if trst then { s with jtag := false } else f s

/-- The one-bit bypass register. -/
def State.bypass (s : State) (tdi : Bool) : State := ({ s with jtag := tdi }).send (.tdo (BitVec.ofNat 32 (bit s.jtag)))

/-- A scan register under D3: what it shifts out is undefined compute state, a free value (R395, log entry 4). -/
def State.scanOut (s : State) (tdi : Bool) : State :=
  if s.d3Open then
    let (n, s) := s.fresh
    s.send (.tdo (Config.freeWord n))
  else s.bypass tdi

/-- JTAG_BYPASS; `trst`: TRST_N is low (R397, R426). -/
def execJtagBypass (trst tdi : Bool) (s : State) : Host.Outcome State Fault Refusal := .next (s.tap trst (fun s => s.bypass tdi))

/-- JTAG_IDCODE (R397, R426). -/
def execJtagIdcode (trst : Bool) (s : State) : Host.Outcome State Fault Refusal := .next (s.tap trst (fun s => s.send (.tdo Config.idcode)))

/-- JTAG_SAMPLE_PRELOAD (R397, R426). -/
def execJtagSamplePreload (trst tdi : Bool) (s : State) : Host.Outcome State Fault Refusal := .next (s.tap trst (fun s => s.scanOut tdi))

/-- JTAG_EXTEST: EXTEST, or with `scan` one of the scan instructions (R397, R426). -/
def execJtagExtest (_scan trst tdi : Bool) (s : State) : Host.Outcome State Fault Refusal := .next (s.tap trst (fun s => s.scanOut tdi))

end Sys2Proof.Machine
end

