-- ==== Sys2Proof/Machine/Power.lean ====
section
/-! DEFINITION. Power states, the power controller, thermal rules and the brake (R398 to R404), and clocks (R405 to R414). -/

namespace Sys2Proof.Machine

/-- Power page, PWR_STAT, and the clock page. -/
def pwrPg : Nat := modPg 8 0
def pwrStat : Nat := pwrPg + 0x108
def clkPg : Nat := modPg 5 0

/-! ### Limits (R400) -/

/-- The variant's limit in W. -/
def State.fusedLimit (s : State) : Nat := Config.powerLimit s.flash.variant

/-- L_eff. -/
def State.limit (s : State) : Nat :=
  let v := s.fusedLimit
  let cap := s.rf (pwrPg + 0x104) 11 0
  let l := if cap = 0 then v else min v cap
  let l := if s.rf pwrStat 26 26 = 1 then min l (v / 2) else l
  if s.pow.brake then min l (Config.brakeFloor s.flash.variant) else l

/-- PWR_STAT.LIMIT follows L_eff. -/
def State.showLimit (s : State) : State := s.wf pwrStat 22 11 s.limit

/-- The power controller with a change. -/
def State.modPow (s : State) (f : Power → Power) : State := { s with pow := f s.pow }

/-- A D2 or D3 session is open. -/
def State.deepSession (s : State) : Bool := match s.dbg with | some d => decide (2 ≤ d.level) | none => false

/-- BOOT_STAT.READY. -/
def State.ready (s : State) : Bool := decide (s.rf (modPg 0 1 + 0x100) 31 31 = 1)

/-! ### Samples (R400, R416, R429) -/

/-- PWR_AVG: the mean of the samples of the last millisecond. -/
def Power.avg (p : Power) : Nat := if p.samples.isEmpty then 0 else p.samples.foldl (· + ·) 0 / p.samples.length

/-- Throttling ends when every sensor reads 92 °C or less and no channel is HOT (R401). -/
def State.throttleEnd (s : State) : State :=
  if s.pow.throttle ∧ s.pow.tj ≤ 1472 ∧ !s.anyHot then (s.modPow (fun p => { p with throttle := false })).wf pwrStat 25 25 0 else s

/-- POWER_SAMPLE: input power in W, input voltage in mV, input current in units of 10 mA, and the hottest junction in 1/16 °C (R400,
R429). A sample is 10 µs: while the generator stands still, the always-on clock counts them (R334). -/
def execPowerSample (watts mv i10ma : Nat) (tj16 : Int) (s : State) : Host.Outcome State Fault Refusal := inRange (.powerSample watts mv i10ma tj16) <|
  if !s.aon.powered then .next s
  else
    let keep : List Nat → List Nat := fun l => l.drop (l.length - 100)
    let low := (s.pow.low ++ [decide (38000 ≤ mv) && decide (mv < 40000)]).drop (s.pow.low.length + 1 - 100)
    let s := s.modPow (fun p => { p with samples := keep (p.samples ++ [watts]), peak := max p.peak watts, tj := tj16, vin := mv, iin := i10ma, low := low })
    let s : State := if s.gen.running then s else { s with aon := { s.aon with time := s.aon.time + 160000 } }
    let s := (s.wf (pwrPg + 0x10C) 31 16 (min s.pow.peak 0xFFFF)).wr (pwrPg + 0x110) (BitVec.ofNat 32 ((BitVec.ofInt 16 tj16).toNat))
    .next ((s.wf (pwrPg + 0x118) 27 27 (bit (low.any id))).throttleEnd)

/-- The sensor values of R416 held at a boundary: 1 average, 2 peak, 3 junction, 4 ACLK, 5 limit, 6 absent cores, 7 records lost. -/
def State.holdSensors (s : State) : State :=
  let v : List (Nat × Int) := [(1, s.pow.avg), (2, s.pow.peak), (3, s.pow.tj), (4, s.aclk), (5, s.limit), (6, s.absentCount), (7, (s.rd (evtPg + 0x10C)).toNat)]
  s.modPow (fun p => { p with held := v.foldl (fun (t : Tbl Int) x => Tbl.put t x.1 x.2) p.held })

/-! ### The controller's step (R400 to R402, R410) -/

/-- ACLK after a change of `n` steps of 25 MHz, inside 400 MHz and the ceiling. -/
def State.stepAclk (s : State) (up : Bool) (n : Nat) : Nat :=
  let a := if up then s.aclk + 25 * n else s.aclk - 25 * n
  max 400 (min a s.target)

/-- What the controller does at a boundary with the value it uses: steps down, or one up, or none. -/
def State.aclkChoice (s : State) (value : Nat) : Nat :=
  let l := s.limit
  let hot := decide (1520 ≤ s.pow.tj) || s.anyHot
  if l < value then s.stepAclk false 4
  else if s.pow.throttle then (if hot ∨ 98 * l < 100 * value then s.stepAclk false 1 else s.stepAclk false 0)
  else if 98 * l < 100 * value then s.stepAclk false 1
  else if 100 * value < 94 * l then s.stepAclk true 1
  else s.stepAclk false 0

/-- The ACLK of the strokes to come: 400 MHz under a brake just asserted; else a step, at most once in 100 µs; none while the PLLs
coast, in I2, in which the core PLL stands still (R410), or before READY. -/
def State.powerStep (s : State) : State :=
  if !s.aon.powered ∨ s.rf (clkPg + 0x104) 30 30 = 1 ∨ s.pwrState = 3 then s.modPow (fun p => { p with dropNext := false })
  else if s.pow.dropNext then
    (s.wf pwrStat 10 0 400).modPow (fun p => { p with dropNext := false, lastStep := s.gen.base })
  else if !s.ready then s
  else if s.pow.lastStep ≠ 0 ∧ s.gen.base < s.pow.lastStep + 1600000 then s.wf pwrStat 10 0 (s.stepAclk false 0)
  else
    let a := s.aclkChoice (if s.pow.brake then s.pow.peak else s.pow.avg)
    if a = s.aclk then s else (s.wf pwrStat 10 0 a).modPow (fun p => { p with lastStep := s.gen.base })

/-- Committed CLK_CTL.NCLK as it acts: a 25 MHz step from 400 to 1,250 (CLK_CTL). -/
def State.nclkSet (s : State) : Nat := max 400 (min 1250 (s.rf (clkPg + 0x100) 10 0 / 25 * 25))

/-- NCLK in force follows CLK_CTL unless the PLLs coast or nothing is powered (R35, R412). -/
def State.nclkNow (s : State) : State :=
  if !s.aon.powered ∨ s.rf (clkPg + 0x104) 30 30 = 1 then s else s.wf (clkPg + 0x104) 10 0 s.nclkSet

/-! ### Power states (R398, R399) -/

/-- REQ of PWR_CTL; 3 acts as 0. -/
def State.pwrReq (s : State) : Nat := if s.rf (pwrPg + 0x100) 31 30 = 3 then 0 else s.rf (pwrPg + 0x100) 31 30

/-- The module enters I1 or I2. In I2 compute is off and the core PLL stops (R410); MC_STAT shows self-refresh at s16, whose entry
refreshes all banks and closes their pages (R179, R398, R439). -/
def State.enterIdle (s : State) (st : Nat) : State :=
  let s := (s.wf pwrStat 31 29 st).wf pwrStat 23 23 0
  if st = 3 then { (s.wf (clkPg + 0x104) 29 29 0) with held := List.range 512, openPages := [] } else s

/-- The running state: P1 while a cap holds L_eff below the variant limit, else P0. -/
def State.runState (s : State) : Nat := if s.limit < s.fusedLimit then 1 else 0

/-- A request for an idle state can be met. -/
def State.idleOk (s : State) : Bool := s.ready && !s.anyActive && s.rst.isEmpty && !s.deepSession

/-- The power state at a boundary: a request met or refused, an idle state left, a cap entered or left (R398, R399, R403). I2 is left only
once power-up has ended. -/
def State.stateStep (s : State) : State :=
  let req := s.pwrReq
  let st := s.pwrState
  if !s.aon.powered ∨ (st = 3 ∧ !s.pow.runNext) then s
  else
    let s := s.modPow (fun p => { p with runNext := false })
    if req ≠ 0 ∧ (st ≠ req + 1 ∨ st = 3) then
      if s.idleOk then s.enterIdle (req + 1)
      else (s.wf pwrStat 23 23 1).wf pwrStat 31 29 (if st = 2 then 2 else s.runState)
    else if st = 2 ∧ req = 1 then s
    else s.wf pwrStat 31 29 s.runState

/-- SYND of POWER_BRAKE. -/
def State.brakeSynd (s : State) (on stop : Bool) (aclk : Nat) : BitVec 64 :=
  BitVec.ofNat 64 (bit on + bit stop * 2 + aclk % 2 ^ 11 * 2 ^ 2 + s.limit * 2 ^ 16)

/-- The record of a brake release: its STROKE and CYCLE are those of the release, its ACLK and L_eff those of the boundary that applies
it, which also sends it (R404; log entry 32). -/
def State.releaseRec (s : State) : State :=
  match s.pow.relAt with
  | none => s
  | some (st, cy) =>
    let s := s.modPow (fun p => { p with relAt := none })
    if s.lvlSuppresses pwrPg 1 then s
    else s.emit { stroke := st, cycle := stampCycle cy, src := pwrPg, cls := 0x42, sev := 1, synd := s.brakeSynd false false s.aclk, ctx := none, chip := true }

/-- The power controller's part of a boundary. XCLK takes the ratio that CLK_CTL.XDIV commits (R35, R408). -/
def State.powerBoundary (s : State) : State :=
  let s := if s.pow.liftNext then s.modPow (fun p => { p with brake := false, liftNext := false }) else s
  let s := (s.wf pwrStat 26 26 (bit s.deepSession)).showLimit
  let s := ((s.powerStep.nclkNow).releaseRec).stateStep
  let s := s.modPow (fun p => { p with xdiv2 := decide (s.rf (clkPg + 0x100) 17 17 = 1) })
  let s := s.holdSensors
  let s := (s.wf (pwrPg + 0x10C) 15 0 (min s.pow.avg 0xFFFF)).wr (pwrPg + 0x11C) (BitVec.ofNat 32 (min s.pow.vin 0xFFFF * 2 ^ 16 + min s.pow.iin 0xFFFF))
  (s.modPow (fun p => { p with peak := 0 })).wf (pwrPg + 0x10C) 31 16 0

/-- A write of PWR_CTL: TARGET, and a request that stands until it is met or withdrawn. IDLE_DENY reads 1 while it waits (R399).
A request for another state leaves I2 by powering up (R398); one for I1 is then met at the boundary at which power-up has ended (log
entry 69). -/
def State.pwrCtl (s : State) (req target : Nat) : State :=
  let s := (s.wf (pwrPg + 0x100) 31 30 req).wf (pwrPg + 0x100) 10 0 target
  let idle := decide (req = 1) || decide (req = 2)
  let s := s.wf pwrStat 23 23 (bit (s.aon.powered && idle && decide (s.pwrState ≠ req + 1)))
  s.modPow (fun p => { p with leaving := decide (s.pwrState = 3) && decide (req ≠ 2) && !s.pow.runNext })

/-- PWR_CTL_RUN (R398). -/
def execPwrCtlRun (ag : Agent) (target : Nat) (s : State) : Host.Outcome State Fault Refusal := inRange (.pwrCtlRun ag target) <|
  .next (s.ifAdmitted ag (pwrPg + 0x100) (fun s => s.pwrCtl 0 target))

/-- PWR_CTL_I1 (R399). -/
def execPwrCtlI1 (ag : Agent) (target : Nat) (s : State) : Host.Outcome State Fault Refusal := inRange (.pwrCtlI1 ag target) <|
  .next (s.ifAdmitted ag (pwrPg + 0x100) (fun s => s.pwrCtl 1 target))

/-- PWR_CTL_I2 (R399). -/
def execPwrCtlI2 (ag : Agent) (target : Nat) (s : State) : Host.Outcome State Fault Refusal := inRange (.pwrCtlI2 ag target) <|
  .next (s.ifAdmitted ag (pwrPg + 0x100) (fun s => s.pwrCtl 2 target))

/-- SLICE_OWN mirrors the entries of the partition table that are VALID (R151, R369). -/
def State.mirrorSlices (s : State) : State :=
  (List.range 4096).foldl (fun (s : State) n =>
    let v := s.rdByte (rcPg (n / 64) 1 + 0x140 + n % 64)
    if v / 128 = 1 then s.wr (slicePg n + 0x100) (BitVec.ofNat 32 (16 + v % 16)) else s) s

/-- I2_EXIT_DONE: compute is powered up and zeroised, the core PLL has relocked unless REFCLK is lost (R410), and memory has left
self-refresh with all its pages closed (R179); the module runs from the next boundary (R398, R154). Under a thermal trip compute stays in
reset (R401). -/
def execI2ExitDone (s : State) : Host.Outcome State Fault Refusal :=
  if s.pwrState ≠ 3 ∨ !s.pow.leaving then .next s
  else
    let s := { s with held := if s.heldFast then s.held else [], openPages := [] }
    let s := s.wf (clkPg + 0x104) 29 29 (bit (decide (s.rf (clkPg + 0x104) 30 30 = 0)))
    let s := (List.range 5120).foldl (fun (s : State) gp => (s.zeroCore gp zeroesReg).zeroCoreDone gp) s
    let s := (List.range 4096).foldl (fun (s : State) n => (s.zeroSlice n).zeroSliceDone n) s
    .next (s.mirrorSlices.modPow (fun p => { p with leaving := false, runNext := true }))

/-! ### Thermal rules (R401, R404) -/

/-- SYND of THERMAL. -/
def State.thermalSynd (s : State) (tj16 : Int) (region : Nat) (trip : Bool) : BitVec 64 :=
  BitVec.ofNat 64 ((BitVec.ofInt 16 tj16).toNat + region * 2 ^ 16 + bit s.anyHot * 2 ^ 22 + bit trip * 2 ^ 23 + s.aclk * 2 ^ 28)

/-- THERMAL_THROTTLE: a junction at 95 °C or a HOT channel starts an episode (R401). -/
def execThermalThrottle (tj16 : Int) (region t : Nat) (s : State) : Host.Outcome State Fault Refusal := inRange (.thermalThrottle tj16 region t) <|
  if !s.aon.powered ∨ s.pow.throttle ∨ (tj16 < 1520 ∧ !s.anyHot) then .next s
  else
    let s := (s.modPow (fun p => { p with throttle := true, tj := tj16 })).wf pwrStat 25 25 1
    let s := s.wr (pwrPg + 0x110) (BitVec.ofNat 32 ((BitVec.ofInt 16 tj16).toNat))
    .next (s.chipRec pwrPg 1 0x41 (tclkCycle t) (s.thermalSynd tj16 region false))

/-- THERMAL_TRIP: at 115 °C compute and memory go into reset at once and every context ends; held until main power is lost (R401,
R333). -/
def execThermalTrip (tj16 : Int) (region t : Nat) (s : State) : Host.Outcome State Fault Refusal := inRange (.thermalTrip tj16 region t) <|
  if !s.aon.powered ∨ s.aon.thermtrip ∨ tj16 < 1840 then .next s
  else
    let ao := { s.aon with thermtrip := true, excursion := true }
    let s := (List.range 16).foldl (fun (s : State) c => if s.ctxActive c then s.endCtx c else s) ({ s with aon := ao }).holdAll
    let s := (s.modPow (fun p => { p with tj := tj16 })).wr (pwrPg + 0x110) (BitVec.ofNat 32 ((BitVec.ofInt 16 tj16).toNat))
    .next (s.chipRec pwrPg 3 0x41 (tclkCycle t) (s.thermalSynd tj16 region true))

/-! ### The power brake (R402, R404) -/

/-- A brake stop abandons the assay segment of a core: its rows and tile come back in the seam that follows (R312). -/
def State.brakeAssay (s : State) (gp : Nat) : State :=
  if (s.asyCore gp).running.isNone then s
  else (s.modCore gp (fun c => { c with acc := c.acc.filter (fun a => match a.op with | .rd _ _ (.asy _) => false | _ => true) })).modAsy gp
    (fun x => { x with running := none, abandons := x.abandons + 1 })

/-- A brake stop: every core's clock is gated; one whose pattern has not completed stops issuing, operations in flight stop as at s0, and
the queues stand until then (R92, R402). -/
def State.brakeStop (s : State) (gp cyc : Nat) : State :=
  if !s.coreOn gp then s
  else if (s.core gp).complete ∨ (s.core gp).halted then s.modCore gp (fun c => { c with gated := true })
  else
    let s := s.reach gp cyc
    let q := (s.core gp).queues
    (s.stopPattern gp cyc).modCore gp (fun c => { c with queues := q, gated := true, seq := { c.seq with reading := false, endRead := false } })

/-- POWER_BRAKE_ASSERT: PWRBRK_N is qualified, `tToBoundary` ns before the next boundary and at body cycle `cyc` (R402, R431). In I1, I2,
during bring-up, under a trip or while the PLLs coast it changes no clock; in OFF it is ignored. -/
def execPowerBrakeAssert (tToBoundary cyc t : Nat) (s : State) : Host.Outcome State Fault Refusal :=
  if !s.aon.powered ∨ s.rf (pwrPg + 0x118) 29 29 = 1 then .next s
  else
    let s := ((s.wf (pwrPg + 0x118) 29 29 1).wf pwrStat 28 28 1).bump (pwrPg + 0x114) 31 16 1
    let s := (s.modPow (fun p => { p with brake := true, liftNext := false })).showLimit
    let still := !s.ready || decide (2 ≤ s.pwrState) || s.aon.thermtrip
    let coast := decide (s.rf (clkPg + 0x104) 30 30 = 1)
    let stop := !still && !coast && decide (15000 < tToBoundary) && !s.gen.seamDone
    let s := s.wf pwrStat 27 27 (bit stop)
    let s := if still || coast then s else s.modPow (fun p => { p with dropNext := true })
    let s := if stop then ((List.range 5120).foldl (fun (s : State) gp => s.brakeStop gp cyc)
      (s.asy.foldl (fun (s : State) p => s.brakeAssay p.1) s)).bump (pwrPg + 0x114) 15 0 1 else s
    .next (s.chipRec pwrPg 1 0x42 (tclkCycle t) (s.brakeSynd true stop (if still then s.aclk else 400)))

/-- POWER_BRAKE_RELEASE: the floor lifts at the next boundary, which sends the record with the ACLK from then on (R404). -/
def execPowerBrakeRelease (t : Nat) (s : State) : Host.Outcome State Fault Refusal :=
  if s.rf (pwrPg + 0x118) 29 29 = 0 then .next s
  else
    let s := (s.wf (pwrPg + 0x118) 29 29 0).wf pwrStat 28 28 0
    .next (s.modPow (fun p => { p with liftNext := true, relAt := if s.aon.powered then some (s.stroke, tclkCycle t) else none }))

/-! ### REFCLK (R411 to R413) -/

/-- An error source of the clock page: 0 REF_LOST, 1 REF_OOT. -/
def State.clkErr (s : State) (src sev cls cyc : Nat) (synd : BitVec 64) : State :=
  (s.capture clkPg src sev cls cyc synd).countErr clkPg src sev

/-- The monitor declares REFCLK lost: no edge for `gap` ns, at least 100, or `edges` edges in a 10 µs window, outside 990 to 1,010
(R411). -/
def refLost (gap edges : Nat) : Bool := decide (100 ≤ gap) || decide (edges < 990) || decide (1010 < edges)

/-- REFCLK_LOST: what the monitor has counted against the crystal. When it is a loss, the PLLs coast, every SerDes port goes down, and
CLK_REF_LOST is recorded with its cause: no edges, or else a count out of range (R411, R412). -/
def execRefclkLost (gap edges t : Nat) (s : State) : Host.Outcome State Fault Refusal :=
  let st := clkPg + 0x104
  let outOfRange := decide (gap < 100)
  if !s.aon.powered ∨ s.rf st 30 30 = 1 ∨ !refLost gap edges then .next s
  else
    let cy := tclkCycle t
    let s := (s.wf st 31 27 0x18).wf st 10 0 400
    let s := (s.wf pwrStat 10 0 400).bump (clkPg + 0x108) 31 0 1
    let synd := BitVec.ofNat 64 (1 + bit outOfRange * 2 + (s.rd (clkPg + 0x10C)).toNat % 2 ^ 16 * 2 ^ 16)
    let s := (s.clkErr 0 3 0x40 cy synd).chipRec clkPg 3 0x40 cy synd
    let s := (List.range 12).foldl (fun (s : State) p => s.portDown p 1 cy) s
    .next ((s.qDown .qa 1 cy).qDown .qb 1 cy)

/-- REF_PPM_WINDOW: a 1 ms window has been measured; inside ±150 ppm it ends a loss (R411, R413). NCLK follows CLK_CTL again at the
next boundary (R35). -/
def execRefPpmWindow (ppm : Int) (t : Nat) (s : State) : Host.Outcome State Fault Refusal :=
  let st := clkPg + 0x104
  if !s.aon.powered then .next s
  else
    let s := s.wr (clkPg + 0x10C) (BitVec.ofInt 32 ppm)
    let s := s.wf st 25 25 (bit (decide (100 < ppm.natAbs)))
    if s.rf st 30 30 = 1 then
      if ppm.natAbs ≤ 150 then
        let s := s.wf st 30 27 7
        .next (s.chipRec clkPg 0 0x40 (tclkCycle t) (BitVec.ofNat 64 ((BitVec.ofInt 16 ppm).toNat * 2 ^ 16)))
      else .next s
    else if 100 < ppm.natAbs then .next (s.clkErr 1 1 0x7F (tclkCycle t) 1)
    else .next s

/-- A write of CLK_OBS_SEL: the pin carries the chosen clock divided by 2^DIV after its current low phase (R414); it is low without main
power (R426). -/
def State.clkObsWrite (s : State) (val : Word) : State :=
  let a := clkPg + 0x110
  let s := s.regWrite a val
  let c := (s.rf a 10 8, s.rf a 19 14, s.rf a 3 0)
  if s.aon.powered then (s.modPow (fun p => { p with clkObs := c })).send (.clkObs c.1 c.2.1 c.2.2) else s

/-- CLK_OBS_SEL_WRITE (R414). -/
def execClkObsSelWrite (ag : Agent) (val : Word) (s : State) : Host.Outcome State Fault Refusal :=
  .next (s.ifAdmitted ag (clkPg + 0x110) (fun s => s.clkObsWrite val))

end Sys2Proof.Machine
end

