-- ==== Sys2Proof/Machine/Boot.lean ====
section
/-! DEFINITION. Supplies and pins (R426 to R433), power-on, bring-up and shutdown (R329 to R344). -/

namespace Sys2Proof.Machine

/-! ### Loss of power (R345, R398, R429) -/

/-- Page of the bring-up registers, and BOOT_STAT. -/
def bootPg : Nat := modPg 0 1
def bootStat : Nat := bootPg + 0x100

/-- The always-on domain with a change. -/
def State.modAon (s : State) (f : Aon → Aon) : State := { s with aon := f s.aon }

/-- Flash with a change. -/
def State.modFlash (s : State) (f : Flash → Flash) : State := { s with flash := f s.flash }

/-- A register that the always-on domain holds: its own pages, the maps and fence state of every block, FLOW_GEN (R345). -/
def alwaysOn (a : Nat) : Bool :=
  let l := locOf a
  decide (l.domain = 0) || (decide (l.blk < 8) && !l.module && decide (l.unit = 0x20) && (decide (l.off = 0x100) || decide (l.off = 0x104)))
    || (l.logical && decide (l.off = 0x708))

/-- The compute, memory and fabric domains as power-up leaves them: nothing of them is left (R345). -/
def State.blank (s : State) : State :=
  let d : State := {}
  { d with regs := s.regs.filter (fun p => alwaysOn p.1), shadow := s.shadow.filter (fun p => alwaysOn p.1), gen := s.gen,
           cap := s.cap.filter (fun p => alwaysOn p.1), recQ := s.recQ, dbg := s.dbg, repairs := s.repairs, retirePend := s.retirePend,
           out := s.out, aon := s.aon, flash := s.flash, pow := s.pow, asy := s.asy.map (fun p => (p.1, { p.2 with running := none, fl := 0, saved := [], slot := none })),
           asyFrom := s.asyFrom, asyAt := s.asyAt, dump := s.dump, dumpWait := s.dumpWait, dumpNext := s.dumpNext, resend := s.resend,
           log := s.log, recent := s.recent, streamSeq := s.streamSeq, update := s.update, time := s.time, nonceCtr := s.nonceCtr,
           jtag := s.jtag, freeCtr := s.freeCtr, pending := s.pending }

/-- OFF: main power is gone, PGOOD is low, the cable supply is off, every session closes, ROM recovery ends, and the generator stops (R395,
R398, R425, R429). -/
def State.enterOff (s : State) : State :=
  let s := ({ s.portsLost with dbg := none }).blank
  let s := s.modAon (fun a => { a with recovery := false, powered := false, pgood := false, cable := false, thermtrip := false, pwrcyc := false, booting := false, waitPerst := none, shutWait := none })
  let s := { s with gen := { s.gen with running := false }, pow := { held := s.pow.held } }
  let s := ((s.wf (pwrPg + 0x118) 27 27 0).wf pwrStat 31 23 0).wf pwrStat 10 0 0
  let s := (s.wf (clkPg + 0x104) 30 26 0).wf (clkPg + 0x104) 10 0 0
  (s.wf (rstPg + 0x104) 31 31 0).showLimit

/-! ### Starting a bring-up -/

/-- Firmware that ActivateFirmware has made active comes into use; the copy it replaces stays in flash (R417). -/
def State.useFirmware (s : State) : State :=
  [1, 2].foldl (fun (s : State) c =>
    match Tbl.find? s.flash.fwNew c with
    | some m => if s.flash.activated.contains c then
        s.modFlash (fun f => { f with
          fwPrev := match Tbl.find? f.fw c with | some old => Tbl.put f.fwPrev c old | none => f.fwPrev,
          fw := Tbl.put f.fw c m, fwNew := Tbl.erase f.fwNew c, activated := f.activated.filter (· ≠ c) }) else s
    | none => s) s

/-- The copies that an update has brought and nothing has activated are discarded (R417, R418). -/
def State.discardCopies (s : State) : State :=
  s.modFlash (fun f => { f with fwNew := f.fwNew.filter (fun p => f.activated.contains p.1), verified := [] })

/-- An update in progress is cancelled: what it has brought and not activated is discarded (R418). -/
def State.cancelUpdate (s : State) : State :=
  match s.update with
  | none => s
  | some _ => { s.discardCopies with update := none }

/-- What the ROM derives from the device secret at a bring-up: the identity key, and for the first-stage firmware in use the alias key and
the certificate that the identity key signs for it (R382, R389). -/
def State.deriveKeys (s : State) : State :=
  let id := Config.deriveKey s.flash.secret []
  let ak := Config.deriveKey s.flash.secret (hashBytes (Config.sha512 (s.fwData 1)))
  s.modAon (fun a => { a with idKey := id, aliasKey := ak, aliasCert := Config.ed25519Sign id (byteList 32 (Config.publicKey ak).toNat) })

/-- A bring-up begins: its registers return to reset, sessions close, an update is cancelled, a nonce is drawn, FLOW_GEN moves on
(R387, R395, R418, R247), and the assay set of this bring-up is noted (R403). -/
def State.bootStart (s : State) (warm : Bool) : State :=
  let s := { s with regs := s.regs.filter (fun p => !(decide (bootPg ≤ p.1) && decide (p.1 < bootPg + 0x1000))) }.cancelUpdate
  let s := ((s.wf bootStat 29 29 (bit warm)).closeSession.redraw).useFirmware
  let s := (List.range 4096).foldl (fun (s : State) gl => s.wf (logPg gl + 0x708) 15 0 ((s.rf (logPg gl + 0x708) 15 0 + 1) % 2 ^ 16)) s
  let s := { s with rst := [], dumpWait := s.dumpWait.filter (fun w => match w with | .ctl _ _ => true | .rst _ _ => false) }
  let s := s.modFlash (fun f => { f with assayBoot := f.assay })
  (s.wf (rstPg + 0x104) 31 31 0).modAon (fun a => { a with lastReady := false, booting := true, recovery := false, waitPerst := none, shutWait := none })

/-- A bring-up step that has ended: its time in ms (R329). -/
def State.stepDone (s : State) (env : BootEnv) (k : Nat) : State :=
  let ms := env.dur.getD (k - 1) 0
  let s := (s.bump (bootPg + 0x140 + 4 * (k - 1)) 31 0 ms).bump (bootPg + 0x104) 31 0 ms
  s.modAon (fun a => { a with time := a.time + ms * 16000000 })

/-- Every fabric and Quexon lane is in electrical idle: the ports are DOWN, and what their links held is gone (R330). No LINK_DOWN of a
fabric port is recorded, as no event of R234 has happened (DEDUCED, log entry 66). -/
def State.idlePorts (s : State) : State :=
  let s := (List.range 12).foldl (fun (s : State) p =>
    if s.portState p = 0 then s
    else (((s.wf (fabPg p + 0x100) 31 28 0).wf (fabPg p + 0x100) 19 12 0).setLink p {}).emptyInputs p) s
  s.portsLost

/-- Bring-up stops with FAIL, and the lanes stay in electrical idle (R330). -/
def State.bootFail (s : State) (cause : Nat) : State :=
  (((s.wf bootStat 30 30 1).wf bootStat 23 20 cause).modAon (fun a => { a with booting := false })).idlePorts

/-! ### Tests and the bad-core set (R334 to R337) -/

/-- The first condition of R334 that fails; 0: the record is trusted. The seconds counter counts whole seconds. -/
def State.recTrust (s : State) : Nat :=
  match s.flash.shut with
  | none => 1
  | some r =>
    if r.consumed then 1 else if !r.crcOk then 2
    else if 259200 ≤ s.aon.time / 16000000000 - r.at_ / 16000000000 then 3
    else if r.epoch ≠ s.aon.epoch then 4
    else if s.aon.excursion then 5 else 0

/-- The banks that hold spares: a core's store banks and the banks of a slice (R337). -/
def unitSpares (u : SramUnit) : Bool := match u with | .core _ => true | .slice _ => true | .landing _ => false | .pmem _ => false

/-- A failing row or column: repaired while its bank has a spare of that kind, else its core is bad, or its unit drains the module
(R337). The answer adds to the bad cores. -/
def State.repairLine (s : State) (bad : List Nat) (l : SramLine) : State × List Nat :=
  let used := (s.flash.sramFix.filter (fun f => decide (f.unit = l.unit) && decide (f.bank = l.bank) && decide (f.col = l.col))).length
  if unitSpares l.unit ∧ used < 2 then (s.modFlash (fun f => { f with sramFix := f.sramFix ++ [l] }), bad)
  else
    match l.unit with
    | .core gp => (s, bad ++ [gp])
    | .pmem gp => (s, bad ++ [gp])
    | .slice n => (s.requestDrain 2 (n / 64) (n / 8 % 8) (slicePg n) 0, bad)
    | .landing b => (s.requestDrain 1 (b / 8) (b % 8) (xbarPg b) 0, bad)

/-- What a BIST does: repairs, and the cores that failed (R333, R337). -/
def State.runBist (s : State) (b : BistResult) : State × List Nat :=
  let (s, bad) := b.sram.foldl (fun (x : State × List Nat) l => x.1.repairLine x.2 l) (s, b.logic)
  (b.xbar.foldl (fun (s : State) n => s.requestDrain 1 (n / 8) (n % 8) (xbarPg n) 0) s, bad.dedup)

/-- The bad-core set of a cold bring-up and its counts, from the cores that failed a BIST; `none`: no BIST result counts yet, so no core is
known to have passed one (R336). -/
def State.setBad (s : State) (bist : Option (List Nat)) : State :=
  let fuse := s.flash.badFuse
  let failed := bist.getD []
  let testOnly := failed.filter (fun gp => !fuse.contains gp)
  let fuseOnly := if bist.isSome then fuse.dedup.filter (fun gp => !failed.contains gp) else []
  let s := testOnly.foldl (fun (s : State) gp => s.flashFence gp) s
  let bad := (fuse ++ failed ++ s.flash.fence).dedup
  let s := s.modAon (fun a => { a with bad := bad })
  let s := (s.wf (bootPg + 0x108) 28 16 testOnly.length).wf (bootPg + 0x108) 12 0 fuseOnly.length
  s.wf (bootPg + 0x10C) 12 0 bad.length

/-! ### Memory (R195, R338 to R340) -/

/-- Training of the channels, then replay of the repair list (R338). On the warm path a channel retrains from its stored training results,
and one without them, which failed the last training, stays untrained (R343). -/
def State.trainDram (s : State) (env : BootEnv) (warm : Bool) : State :=
  let s := if warm then s else (List.range 128).foldl (fun (s : State) mc => s.wf (mcPg mc + 0x100) 31 31 1) s
  let s := (env.badChannels.filter s.trained).foldl (fun (s : State) mc => s.channelFails mc 0) s
  s.replayRepairs true env.hppr

/-- The hearth copies the assay sets from module flash into the module reserve, two slots a region: the set in use and the one before it
(R305, R339). -/
def State.copySets (s : State) : State := { s with reserve := s.flash.assay.toList ++ s.flash.assayPrev.toList }

/-- The memory test: failing rows are repaired at once, and what fails again is remapped again; everything is zero, and the assay sets go
into the reserve (R339, R340). What RETURNED could not erase is zero now on every trained channel (R392). -/
def State.memTest (s : State) (env : BootEnv) : State :=
  let fails := env.failRows.filter (fun r => s.trained r.1)
  let again := env.failAgain.filter (fun r => s.trained r.1)
  let s := { s with repairs := (s.repairs ++ fails).dedup }
  let s := fails.foldl (fun (s : State) r => s.repairRow env.hppr r) s
  let s := again.foldl (fun (s : State) r => s.repairRow [] r) s
  let s := (s.bump (bootPg + 0x110) 31 16 fails.length).bump (bootPg + 0x110) 15 0 again.length
  let s := s.modFlash (fun f => { f with zeroPend := f.zeroPend && (List.range 128).any (fun mc => !s.trained mc) })
  (s.zeroDram.freeAllPages true).copySets

/-! ### Links (R332, R341) -/

/-- MY_ID and TORUS_DIM from the stored system configuration, or 0 (R332, R236). -/
def State.writeConfig (s : State) : State :=
  let (id, dim) := s.flash.sysCfg.getD (0, 0)
  ((s.wf (rtPg + 0x100) 12 0 id).wf (rtPg + 0x104) 12 0 dim).checkId

/-- Fabric training of the ports that are not UP, with the lanes that qualification has disabled left out: a full training of one that is
DOWN, and a retrain of one that is RETRAINING (R217, R341, R343). -/
def State.trainPorts (s : State) (env : BootEnv) : State :=
  let s := (List.range 12).foldl (fun (s : State) p =>
    let s := s.wf (fabPg p + 0x10C) 7 0 (Nat.lor (s.rf (fabPg p + 0x10C) 7 0) (Tbl.get 0 s.flash.laneDis p))
    if s.portState p = 5 then s.wf (fabPg p + 0x100) 31 28 0 else s) s
  env.fabric.foldl (fun (s : State) x => if x.1 < 12 ∧ !s.portUp x.1 then s.train x.1 x.2 0 else s) s

/-- Corrected bits that a measurement found on a lane. -/
def laneErrs (l : List (Nat × Nat × Nat)) (p lane : Nat) : Nat := ((l.find? (fun x => decide (x.1 = p) && decide (x.2.1 = lane))).map (·.2.2)).getD 0

/-! ### Step 10 (R15, R342) -/

/-- The map of a block under R15. -/
def State.mapBlock (s : State) (b : Nat) : State :=
  let good := (List.range 10).filter (fun p => !s.aon.bad.contains (10 * b + p))
  let s := (List.range 8).foldl (fun (s : State) l => s.setLog (8 * b + l) (good.getD l 0xF)) s
  (List.range 10).foldl (fun (s : State) p =>
    let gp := 10 * b + p
    let s := s.setPhys gp (if !good.contains p then 2 else if (good.take 8).contains p then 0 else 1)
    s.setFence gp (!good.contains p)) s

/-- Holes that the bad cores leave: REPLACE_SOON, and a drain beyond eight (R325, R326). -/
def State.bootHoles (s : State) : State :=
  let n := s.absentCount
  if n = 0 then s
  else
    let s := s.modFlash (fun f => { f with replaceSoon := true })
    if s.holesOver then s.requestDrain 5 0 0 (modPg 9 0) 0 else s

/-- Page of the SerDes complex of a region (R22, R26). -/
def serdesPg (r : Nat) : Nat := regionAddr r 0xE 9 0 0

/-- UNIT_CTL.ENABLE of every unit that is neither fenced, absent nor retired (R26). -/
def State.enableUnits (s : State) : State :=
  let s := s.enableAll
  let s := (List.range 512).foldl (fun (s : State) b => s.enableUnit (routerPg b)) s
  let s := (List.range 64).foldl (fun (s : State) r =>
    ((List.range 4).filter (fun d => edgePresent r d)).foldl (fun (s : State) d => s.enableUnit (edgePg r d))
      ((s.enableUnit (meshPg r)).enableUnit (serdesPg r))) s
  (List.range 10).foldl (fun (s : State) u => s.enableUnit (modPg u 0)) s

/-- MIN_SVN rises to the SVN of an image with ADVANCE that has brought the module to READY (R384). -/
def State.advanceSvn (s : State) : State :=
  [1, 2].foldl (fun (s : State) c => match Tbl.find? s.flash.fw c with
    | some m => if m.advance then s.modFlash (fun f => { f with minSvn := max f.minSvn (min m.svn 64) }) else s
    | none => s) s

/-- The generator is released: STROKE_COUNT, SRC and STROKE_TRIM are 0, and no path is locked (R37, R39, R283, R342). CLAMPED stays, as
STROKE_PERIOD does (R33). AT_IGN, AT_MISSED and COMMIT_PEND clear, an armed commit is dropped, and the latches of STROKE_COUNT are empty:
the spec says nothing of them here (DESIGN CHOICE, log entry 66). -/
def State.releaseGen (s : State) : State :=
  let s := ((s.wr64 (genPg + 0x108) 0).wf (genPg + 0x114) 1 0 0).wr genStat (s.rd genStat &&& 0x10)
  let s := (s.wr (genPg + 0x120) 0).followPath 0
  { s with gen := { running := true, len := s.ts16 }, pow := { s.pow with lastStep := 0 } }

/-- Step 10 in both paths: enables, assay, READY; debt counts from now (R313, R342). -/
def State.setReady (s : State) : State :=
  let s := (s.enableUnits.wf (asyPg + 0x100) 31 31 1).advanceSvn
  let s := (s.wf bootStat 31 31 1).modAon (fun a => { a with lastReady := true, booting := false })
  { s with asyFrom := s.aon.time }

/-- What READY waits for, apart from the memory test, which step 7 has completed: no fabric port is still training or retraining, and each
Quexon port whose lanes see a peer has trained. A port is in `env.quexon` when its lanes see one (R342). -/
def State.readyOk (s : State) (env : BootEnv) : Bool :=
  (List.range 12).all (fun p => s.portUp p || decide (s.portState p = 0) || decide (s.portState p = 5))
    && env.quexon.all (fun x => s.qUp x.1)

/-- A record of an orderly shutdown counts for one bring-up (R335). -/
def State.consumeRec (s : State) : State := s.modFlash (fun f => { f with shut := f.shut.map (fun (r : ShutRec) => { r with consumed := true }) })

/-- Firmware images that R383 refuses are not run: the first stage must be there and pass, and the hearth runtime image passes if it is
there (R329, R384; the runtime image is a DEDUCED part of ROM verification, log entry 66). -/
def State.imagesOk (s : State) : Bool :=
  (match Tbl.find? s.flash.fw 1 with | some m => decide (s.imageCheck m = 0) | none => false)
    && (match Tbl.find? s.flash.fw 2 with | some m => decide (s.imageCheck m = 0) | none => true)

/-! ### The steps (R329, R343) -/

/-- A step of the cold path, or of the warm one, and whether bring-up goes on after it. -/
def State.coldStep (s : State) (env : BootEnv) (k : Nat) : Bool × State :=
  match k with
  | 1 => (true, s.modAon (fun a => { a with powered := true, pgood := true }))
  | 3 => if s.imagesOk then (true, s.deriveKeys)
    else (false, (s.bootFail 1).modAon (fun a => { a with recovery := true }))
  | 4 =>
    let rec_ := s.recTrust
    let failed := match s.flash.shut with | some r => if rec_ = 0 then some r.failed else none | none => none
    (true, (((s.wf bootStat 19 16 rec_).consumeRec).setBad failed).writeConfig)
  | 5 =>
    if s.rf bootStat 19 16 = 0 then (true, s)
    else
      let (s, failed) := s.runBist env.bist
      (true, (s.wf bootStat 28 28 1).setBad (some failed))
  | 6 => (true, s.trainDram env false)
  | 7 => (true, s.memTest env)
  | 8 => (true, (s.modAon (fun a => { a with cable := true })).trainPorts env)
  | 9 => (true, (List.range 12).foldl (fun (s : State) p => s.qualify p (laneErrs env.laneErr1 p) (laneErrs env.laneErr2 p) ((env.again.find? (fun x => decide (x.1 = p))).map (·.2) |>.getD []) true 0) s)
  | 10 =>
    let s := ((List.range 512).foldl (fun (s : State) b => s.mapBlock b) s).bootHoles
    let s := (List.range 5120).foldl (fun (s : State) gp => s.freshKeys gp) s
    if s.readyOk env then (true, s.releaseGen.setReady) else (false, s.releaseGen)
  | _ => (true, s)

/-- A step of the warm path: 3 ROM, 4 bad cores, 5 zeroisation, 6 memory, 8 ports, 10 release (R343). -/
def State.warmStep (s : State) (env : BootEnv) (k : Nat) : Bool × State :=
  match k with
  | 3 => (true, s.deriveKeys)
  | 4 =>
    let bad := (s.aon.bad ++ s.flash.fence).dedup
    (true, (s.consumeRec.modAon (fun a => { a with bad := bad })).wf (bootPg + 0x10C) 12 0 bad.length)
  | 5 => (true, ({ s with held := [], memHeld := false }).freshCompute)
  | 6 => (true, (s.trainDram env true).pendAll)
  | 8 => (true, s.trainPorts env)
  | 10 => if s.readyOk env then (true, s.setReady) else (false, s)
  | _ => (true, s)

/-- Quexon training at the end of step 8 (R332). -/
def State.quexonTrain (s : State) (env : BootEnv) : State :=
  env.quexon.foldl (fun (s : State) x => if s.qLive x.1 then s else s.qTrain x.1 x.2) s

/-- Run steps in order. A step whose work never ends stays in progress; in step 8 that is Quexon training. Step 2 does not end without a
crystal (R329, R407). After the fabric's part of step 8 the module waits for PERST_N (R330, R332). -/
def State.runSteps (s : State) (warm : Bool) (env : BootEnv) : List Nat → State
  | [] => s
  | k :: r =>
    let s := s.wf bootStat 27 24 k
    if (env.hang = k ∧ k ≠ 8) ∨ (k = 2 ∧ !s.aon.crystal) then s
    else
      let (go, s) := if warm then s.warmStep env k else s.coldStep env k
      if !go then s
      else if k = 8 ∧ s.rf (pwrPg + 0x118) 30 30 = 1 then s.modAon (fun a => { a with waitPerst := some (warm, env) })
      else if env.hang = k then s
      else ((if k = 8 then s.quexonTrain env else s).stepDone env k).runSteps warm env r

/-- The hearths of a bring-up: after a power cycle the hearth of region 0 is active, and TAKEOVERS counts from each cold bring-up (R354). -/
def State.bootHearths (s : State) (from1 : Bool) : State :=
  let s := s.wf (rstPg + 0x114) 31 16 0
  if from1 then (s.wf (rstPg + 0x114) 0 0 0).modAon (fun a => { a with hearthDead := false, missed := 0 }) else s

/-- The clocks of a cold bring-up: ACLK runs at 400 MHz and the PLLs lock (R410), unless REFCLK is lost, when they go on coasting (R412). From
step 1 REFCLK has come up (R427). -/
def State.bootClocks (s : State) (env : BootEnv) (from1 : Bool) : State :=
  if from1 ∧ env.hang = 1 then s
  else
    let s := s.wf pwrStat 10 0 400
    if !from1 ∧ s.rf (clkPg + 0x104) 30 30 = 1 then s
    else (s.wf (clkPg + 0x104) 30 26 0xF).wf (clkPg + 0x104) 10 0 s.nclkSet

/-- A cold bring-up from step 1 or from step 3 (R329, R344); ports that are up go DOWN (R379, R433). -/
def State.cold (s : State) (env : BootEnv) (from1 : Bool) : State :=
  let s := ((s.portsLost.bootStart false).bootHearths from1).blank
  let s := { s with gen := { s.gen with running := false } }
  let s := ((s.wf pwrStat 31 29 0).wf pwrStat 23 23 0).bootClocks env from1
  s.runSteps false env (if from1 then [1, 2, 3, 4, 5, 6, 7, 8, 9, 10] else [3, 4, 5, 6, 7, 8, 9, 10])

/-- A warm bring-up (R343); a failed ROM check falls back to the cold path, for which the record counts as consumed (R344). ACLK drops to 400
MHz at the next boundary, as the generator runs on (R35, R410). -/
def State.warm (s : State) (env : BootEnv) : State :=
  let s := (s.bootStart true).portsLost
  let s := (s.wf pwrStat 31 29 0).wf pwrStat 23 23 0
  let s := s.modPow (fun p => { p with dropNext := true })
  if s.imagesOk then s.runSteps true env [3, 4, 5, 6, 8, 10] else s.consumeRec.cold env false

/-- What a warm request starts (R343). Under a thermal trip and in a power cycle the compute and memory domains stay in reset until main
power is lost, and nothing starts (R352, R401); without a crystal no hearth runs (R407). -/
def State.warmOrCold (s : State) (env : BootEnv) : State :=
  if s.aon.thermtrip ∨ !s.aon.crystal ∨ s.rst.any (fun j => decide (5 ≤ j.level)) then s
  else if s.aon.lastReady then s.warm env else s.cold env false

/-- The conditions of a cold bring-up from step 1 hold (R329, R428, R429). -/
def State.mayStart (s : State) : Bool := s.aon.aux && s.aon.main && s.aon.pwrEn && !s.aon.mainBad && !s.aon.powered && !s.aon.booting

/-- PWR_EN_ASSERT: one that comes before the auxiliary supply is valid takes effect 10 ms after it has become so (R329, R426, R428). -/
def execPwrEnAssert (env : BootEnv) (s : State) : Host.Outcome State Fault Refusal := inRange (.pwrEnAssert env) <|
  if !s.aon.aux then .next (s.modAon (fun a => { a with pwrEnv := some env }))
  else
    let s := (s.wf (pwrPg + 0x118) 31 31 1).modAon (fun a => { a with pwrEn := true })
    .next (if s.mayStart then s.cold env true else s)

/-- MAIN_POWER_APPLIED (R329). -/
def execMainPowerApplied (env : BootEnv) (s : State) : Host.Outcome State Fault Refusal := inRange (.mainPowerApplied env) <|
  let s := s.modAon (fun a => { a with main := true })
  .next (if s.mayStart then s.cold env true else s)

/-- PWR_EN_DEASSERT: OFF without the steps of a shutdown (R429). -/
def execPwrEnDeassert (s : State) : Host.Outcome State Fault Refusal :=
  let s := (s.wf (pwrPg + 0x118) 31 31 0).modAon (fun a => { a with pwrEn := false, mainBad := false, pwrEnv := none })
  .next (if s.aon.powered ∨ s.aon.booting then s.enterOff else s)

/-- MAIN_POWER_FAULT: OFF until PWR_EN has been cycled, in step 1 of a bring-up too (R429). -/
def execMainPowerFault (f : PowerFault) (s : State) : Host.Outcome State Fault Refusal :=
  if !s.aon.powered ∧ !s.aon.booting then .next s
  else
    let s := s.bump (pwrPg + 0x120) 15 0 1
    .next ((s.modAon (fun a => { a with mainBad := true, main := a.main && decide (f ≠ .under) })).enterOff)

/-- BRINGUP_STEP_TIMEOUT: the timer of the step in progress expires (R330, R344). Step 2 has no timer, and none runs while step 8
waits for PERST_N (R329, R332). From step 3 on the timers count the crystal's cycles (R329, R407). -/
def execBringupStepTimeout (env : BootEnv) (s : State) : Host.Outcome State Fault Refusal := inRange (.bringupStepTimeout env) <|
  if !s.aon.booting ∨ s.aon.waitPerst.isSome ∨ s.rf bootStat 27 24 = 2 ∨ (s.rf bootStat 27 24 ≠ 1 ∧ !s.aon.crystal) then .next s
  else if s.rf bootStat 29 29 = 1 then .next (s.consumeRec.cold env false)
  else .next (s.bootFail 2)

/-- Management writes BOOT_CTL.WARM (R343, R344). After a bring-up that failed in step 1, it is tried again from step 3 with power held
(R330; log entry 66). -/
def State.warmReq (s : State) (ag : Agent) (env : BootEnv) : State :=
  if ag ≠ .mgmt ∨ !s.aon.crystal then s
  else if s.aon.powered then s.warmOrCold env
  else if s.rf bootStat 30 30 = 1 ∧ s.aon.aux ∧ s.aon.main ∧ s.aon.pwrEn ∧ !s.aon.mainBad then
    (s.modAon (fun a => { a with powered := true, pgood := true })).cold env false
  else s

/-- WARM (R330, R343, R344). -/
def execWarm (ag : Agent) (env : BootEnv) (s : State) : Host.Outcome State Fault Refusal := inRange (.warm ag env) <| .next (s.warmReq ag env)

/-! ### PERST_N (R332, R343, R430) -/

/-- PERST_ASSERT: Quexon is held in reset, and after READY a warm bring-up starts (R332, R343). During Quexon training it stops the timer
of step 8, and that training starts again at the release (R332). -/
def execPerstAssert (env : BootEnv) (t : Nat) (s : State) : Host.Outcome State Fault Refusal := inRange (.perstAssert env t) <|
  if s.rf (pwrPg + 0x118) 30 30 = 1 then .next s
  else
    let s := s.wf (pwrPg + 0x118) 30 30 1
    if !s.aon.pwrEn ∨ !s.aon.powered then .next s
    else
      let s := [QPort.qa, QPort.qb].foldl (fun (s : State) p => s.qDown p 2 (tclkCycle t)) s
      .next (if s.ready then s.warmOrCold env
        else if s.aon.booting ∧ s.aon.waitPerst.isNone ∧ s.rf bootStat 27 24 = 8 then
          s.modAon (fun a => { a with waitPerst := some (decide (s.rf bootStat 29 29 = 1), env) })
        else s)

/-- PERST_RELEASE: a bring-up that waited goes on with Quexon training; otherwise ports that are DOWN train after READY (R332,
R360). -/
def execPerstRelease (q : List (QPort × QTrainResult)) (s : State) : Host.Outcome State Fault Refusal :=
  if s.rf (pwrPg + 0x118) 30 30 = 0 then .next s
  else
    let s := (s.wf (pwrPg + 0x118) 30 30 0).wf (pwrPg + 0x118) 26 26 0
    match s.aon.waitPerst with
    | some (warm, env) =>
      let env := { env with quexon := q }
      let s := s.modAon (fun a => { a with waitPerst := none })
      .next (if env.hang = 8 then s else ((s.quexonTrain env).stepDone env 8).runSteps warm env (if warm then [10] else [9, 10]))
    | none => .next (if s.ready then s.quexonTrain { quexon := q } else s)

/-- CHATTER: more than two edges within 1 µs after a qualified assertion (R430). -/
def execChatter (s : State) : Host.Outcome State Fault Refusal :=
  if s.rf (pwrPg + 0x118) 30 30 = 0 ∨ s.rf (pwrPg + 0x118) 26 26 = 1 ∨ !s.aon.pwrEn then .next s
  else .next ((s.wf (pwrPg + 0x118) 26 26 1).bump (pwrPg + 0x120) 31 16 1)

/-! ### Shutdown (R333) -/

/-- Steps 2 and 3 of a shutdown, once no reset is in progress: the BIST, and the record (R333, R353). -/
def State.shutGo (s : State) : State :=
  match s.aon.shutWait with
  | none => s
  | some b =>
    if !s.rst.isEmpty ∨ !s.aon.crystal then s
    else
      let old := s.flash.sramFix.length
      let (s, failed) := s.runBist b
      let r : ShutRec := { failed := failed, repairs := s.flash.sramFix.drop old, epoch := s.aon.epoch, at_ := s.aon.time }
      let s := s.modFlash (fun f => { f with shut := some r })
      (s.wf (bootPg + 0x118) 31 30 2).modAon (fun a => { a with shutWait := none, excursion := false })

/-- BOOT_CTL.SHUTDOWN is written: contexts are refused and reset; the BIST and the record follow (R333). -/
def State.shutReq (s : State) (bist : BistResult) : State :=
  if !s.aon.powered ∨ !s.aon.crystal ∨ s.aon.booting ∨ s.aon.shutWait.isSome then s
  else
    let s := ((s.wf (bootPg + 0x118) 31 30 1).modAon (fun a => { a with shutWait := some bist })).cancelUpdate
    let s := ((List.range 16).filter (fun c => s.ctxActive c)).foldl (fun (s : State) c =>
      s.reqContext c false {}) s
    s.shutGo

/-- SHUTDOWN (R333). -/
def execShutdown (_ag : Agent) (bist : BistResult) (s : State) : Host.Outcome State Fault Refusal := inRange (.shutdown _ag bist) <| .next (s.shutReq bist)

/-- AON_THERMAL_SAMPLE: with main power off, one second has passed; a package temperature (1/16 °C) above 85 °C or below −20 °C is a
thermal excursion. Sensor 3 is kept up to date (R333, R432). -/
def execAonThermalSample (temp : Int) (s : State) : Host.Outcome State Fault Refusal :=
  if !s.aon.aux ∨ s.aon.powered then .next s
  else
    let s := s.modAon (fun a => { a with time := a.time + 16000000000, excursion := a.excursion || decide (1360 < temp) || decide (temp < -320) })
    .next (s.modPow (fun p => { p with tj := temp, held := Tbl.put p.held 3 temp }))

/-! ### The auxiliary supply (R345, R431) and the crystal (R407) -/

/-- AUX_VALID: the always-on domain starts at its reset values, SLOT_ID is sampled, what flash keeps is shown, and a PWR_EN asserted before
takes effect when the supply has been valid for 10 ms (R326, R333, R421, R428, R431). -/
def execAuxValid (slot : BitVec 6) (s : State) : Host.Outcome State Fault Refusal :=
  if s.aon.aux then .next s
  else
    let s := s.modAon (fun a => { a with aux := true, epoch := a.epoch + 1, crystal := true })
    let s := (s.wf (pwrPg + 0x118) 5 0 slot.toNat).wf (pwrPg + 0x100) 10 0 s.maxAclk
    let s := s.showLimit
    let s := match s.flash.drain with
      | some k => (s.wf (modPg 9 0 + 0x110) 31 31 1).wf (modPg 9 0 + 0x110) 27 24 k
      | none => s
    .next (match s.aon.pwrEnv with
      | some env =>
        let s := (s.wf (pwrPg + 0x118) 31 31 1).modAon (fun a => { a with pwrEn := true, pwrEnv := none })
        if s.mayStart then s.cold env true else s
      | none => s)

/-- AUX_LOSS: everything is lost but fuses, flash and the count of epochs; OFF (R345, R429). -/
def execAuxLoss (s : State) : Host.Outcome State Fault Refusal :=
  .next { State.reset with flash := s.flash, aon := { epoch := s.aon.epoch, main := s.aon.main }, repairs := s.repairs, out := s.out,
                           nonceCtr := s.nonceCtr, freeCtr := s.freeCtr, pending := s.pending }

/-- CRYSTAL_STOPS: the stroke generator and both hearths halt (R407). -/
def execCrystalStops (s : State) : Host.Outcome State Fault Refusal :=
  .next ((s.modAon (fun a => { a with crystal := false })))

end Sys2Proof.Machine
end

