-- ==== Sys2Proof/Machine/Mgmt.lean ====
section
/-! DEFINITION. Management: MCTP over I3C, PLDM, firmware update (R415 to R418), the event log and stream (R419 to R422). -/

namespace Sys2Proof.Machine

/-- A hearth drives the management interfaces: the auxiliary supply is valid, the crystal runs, and a hearth beats (R19, R354, R407). -/
def State.hearthUp (s : State) : Bool := s.aon.aux && s.aon.crystal && !s.aon.hearthDead && decide (s.aon.missed < 10)

/-- An answer on I3C: exchange and the values it carries; its bytes are laid out by the DMTF documents (log entry 10). -/
def State.mctpReply (s : State) (what : Nat) (vals : List Nat) : State := s.send (.reply what (mctpUnits (Config.pldmAnswer what vals)))

/-- What a hearth does, if one is up. -/
def State.ifHearth (s : State) (f : State → State) : State := if s.hearthUp then f s else s

/-! ### I3C and MCTP (R415) -/

/-- I3C_STAT. -/
def i3cStat : Nat := evtPg + 0x144

/-- The dynamic address. -/
def State.setDynAddr (s : State) (addr : Nat) : State := (s.wf i3cStat 30 24 addr).wf i3cStat 31 31 1

/-- The static address: 0x10 + SLOT_ID, as sampled when the auxiliary supply became valid (R415, R431). -/
def State.staticAddr (s : State) : Nat := 0x10 + s.rf (pwrPg + 0x118) 5 0

/-- SETDASA: the module answers to its static address (R415, R431). -/
def execSetdasa (static addr : Nat) (s : State) : Host.Outcome State Fault Refusal := inRange (.setdasa static addr) <|
  .next (s.ifHearth (fun s => if static = s.staticAddr then s.setDynAddr addr else s))

/-- ENTDAA (R415). -/
def execEntdaa (addr : Nat) (s : State) : Host.Outcome State Fault Refusal := inRange (.entdaa addr) <| .next (s.ifHearth (fun s => s.setDynAddr addr))

/-- SET_ENDPOINT_ID (R415). -/
def execSetEndpointId (eid : Nat) (s : State) : Host.Outcome State Fault Refusal := inRange (.setEndpointId eid) <|
  .next (s.ifHearth (fun s => (s.wf i3cStat 7 0 eid).mctpReply 1 [eid]))

/-- GET_ENDPOINT_ID (R415). -/
def execGetEndpointId (s : State) : Host.Outcome State Fault Refusal := .next (s.ifHearth (fun s => s.mctpReply 2 [s.rf i3cStat 7 0]))

/-- GET_MCTP_VERSION_SUPPORT (R415). -/
def execGetMctpVersionSupport (s : State) : Host.Outcome State Fault Refusal := .next (s.ifHearth (fun s => s.mctpReply 3 []))

/-- GET_MESSAGE_TYPE_SUPPORT: MCTP control, PLDM and SPDM (R415). -/
def execGetMessageTypeSupport (s : State) : Host.Outcome State Fault Refusal := .next (s.ifHearth (fun s => s.mctpReply 4 [0, 1, 5]))

/-! ### PLDM monitoring (R416) -/

/-- GET_PDR (R416). -/
def execGetPdr (handle : Nat) (s : State) : Host.Outcome State Fault Refusal := inRange (.getPdr handle) <| .next (s.ifHearth (fun s => s.mctpReply 5 [handle]))

/-- State sensor 8: READY, FAIL, DRAIN, RECOVERY. -/
def State.stateSensor (s : State) : Nat :=
  bit s.ready + s.rf bootStat 30 30 * 2 + s.rf (modPg 9 0 + 0x110) 31 31 * 4 + bit s.aon.recovery * 8

/-- A sensor's reading as 32 bits, two's complement; none for a sensor that does not exist. -/
def State.sensor (s : State) (id : Nat) : Option Nat :=
  if id = 8 then some s.stateSensor
  else if 1 ≤ id ∧ id ≤ 7 then some (BitVec.ofInt 32 (Tbl.get 0 s.pow.held id)).toNat
  else none

/-- SENSOR_READ: the value held at the last boundary (R416). -/
def execSensorRead (id : Nat) (s : State) : Host.Outcome State Fault Refusal := inRange (.sensorRead id) <|
  .next (s.ifHearth (fun s => s.mctpReply 6 (id :: (s.sensor id).toList)))

/-- PLDM_BASE_REQUEST (R415). -/
def execPldmBaseRequest (cmd : Nat) (s : State) : Host.Outcome State Fault Refusal := inRange (.pldmBaseRequest cmd) <| .next (s.ifHearth (fun s => s.mctpReply 7 [cmd]))

/-! ### Firmware update (R385, R417, R418) -/

/-- Completion codes of DSP0267 that R418 and the update flow use: not in update mode, and ALREADY_IN_UPDATE_MODE. -/
def notInUpdate : Nat := 0x80
def alreadyInUpdate : Nat := 0x81

/-- REQUEST_UPDATE: one update at a time; what an earlier one left verified is discarded (R418). -/
def execRequestUpdate (s : State) : Host.Outcome State Fault Refusal :=
  .next (s.ifHearth (fun s =>
    match s.update with
    | none => { s.discardCopies with update := some {} }.mctpReply 8 [0]
    | some _ => s.mctpReply 8 [alreadyInUpdate]))

/-- Components the module accepts: 1 to 3; only the first-stage image in ROM recovery (R385, R417). -/
def State.mayUpdate (s : State) (comp : Nat) : Bool := decide (comp = 1) || (!s.aon.recovery && (decide (comp = 2) || decide (comp = 3)))

/-- PASS_COMPONENT_TABLE (R417). -/
def execPassComponentTable (comps : List Nat) (s : State) : Host.Outcome State Fault Refusal := inRange (.passComponentTable comps) <|
  .next (s.ifHearth (fun s =>
    match s.update with
    | none => s.mctpReply 9 [notInUpdate]
    | some u =>
      let s := { s with update := some { u with comps := comps.filter (fun c => s.mayUpdate c) } }
      s.mctpReply 9 (0 :: comps.map (fun c => bit (s.mayUpdate c)))))

/-- The module pulls data of a component from an offset (RequestFirmwareData, R417). -/
def State.pull (s : State) (comp offset : Nat) : State := s.mctpReply 13 [comp, offset]

/-- UPDATE_COMPONENT: the transfer of one component begins, and its inactive copy, which held the previous one, is overwritten; the module
asks for the first data (R417). -/
def execUpdateComponent (comp : Nat) (s : State) : Host.Outcome State Fault Refusal := inRange (.updateComponent comp) <|
  .next (s.ifHearth (fun s =>
    match s.update with
    | none => s.mctpReply 10 [notInUpdate]
    | some u =>
      if !u.comps.contains comp then s.mctpReply 10 [0, 1]
      else
        let s := { s with update := some { u with current := some comp, data := [] } }
        let s := s.modFlash (fun f => { f with fwNew := Tbl.erase f.fwNew comp, fwPrev := Tbl.erase f.fwPrev comp, verified := f.verified.filter (· ≠ comp),
                                               activated := f.activated.filter (· ≠ comp), assayPrev := if comp = 3 then none else f.assayPrev })
        (s.mctpReply 10 [0, 0]).pull comp 0))

/-- VerifyResult of a component: of firmware by R383; of an assay set its signature, silicon revision and version, with no SVN (R305,
R417). -/
def State.verifyResult (s : State) (comp : Nat) (m : Image) : Nat :=
  if comp ≠ 3 then s.imageCheck m
  else if !s.imageSigned m then 0x90
  else if m.silicon.toNat ≠ unitVer.toNat / 2 ^ 16 then 0x92
  else if m.version ≤ ((s.flash.assay.map (·.version)).getD 0) ∧ s.flash.assay.isSome then 0x93
  else 0

/-- The inactive copy holds a verified component: ApplyComplete (R417). -/
def State.applied (s : State) (comp : Nat) (m : Image) : State :=
  (s.modFlash (fun f => { f with fwNew := Tbl.put f.fwNew comp m, verified := f.verified ++ [comp] })).mctpReply 15 [0]

/-- REQUEST_FIRMWARE_DATA: data for the component come, and the module pulls more; with the last of them it sends TransferComplete and
VerifyComplete, and keeps the component in the inactive copy, with ApplyComplete, or discards it (R417). In ROM recovery a verified first
stage is written and bring-up restarts at step 3 (R385). -/
def execRequestFirmwareData (last : Bool) (img : Image) (env : BootEnv) (s : State) : Host.Outcome State Fault Refusal := inRange (.requestFirmwareData last img env) <|
  .next (s.ifHearth (fun s =>
    match s.update with
    | none => s
    | some u =>
      match u.current with
      | none => s
      | some comp =>
        let data := u.data ++ img.data
        if !last then ({ s with update := some { u with data := data } }).pull comp data.length
        else
          let m := { img with data := data }
          let r := s.verifyResult comp m
          let s := (({ s with update := some { u with current := none, data := [] } }).mctpReply 14 [0]).mctpReply 11 [r]
          if r ≠ 0 then s
          else if s.aon.recovery ∧ s.aon.powered then ((s.modFlash (fun f => { f with fw := Tbl.put f.fw 1 m })).mctpReply 15 [0]).cold env false
          else s.applied comp m))

/-- A verified assay set becomes the one in use; while main power is up it goes into a slot of the module reserve, which keeps the set before
it (R305, R417). -/
def State.newSet (s : State) (m : Image) : State :=
  let s := s.modFlash (fun f => { f with assayPrev := f.assay, assay := some m, fwNew := Tbl.erase f.fwNew 3 })
  if s.aon.powered then { s with reserve := (m :: s.reserve).take 2 } else s

/-- ACTIVATE_FIRMWARE: verified copies become active: firmware at the next bring-up, an assay set at each core's next pass (R417). -/
def execActivateFirmware (s : State) : Host.Outcome State Fault Refusal :=
  .next (s.ifHearth (fun s =>
    match s.update with
    | none => s.mctpReply 12 [notInUpdate]
    | some _ =>
      let v := s.flash.verified
      let s := s.modFlash (fun f => { f with verified := [], activated := (f.activated ++ v.filter (fun c => decide (c ≠ 3))).dedup })
      let s := match v.contains 3, Tbl.find? s.flash.fwNew 3 with
        | true, some m => s.newSet m
        | _, _ => s
      { s with update := none }.mctpReply 12 [0]))

/-! ### The event log (R420, R421) -/

/-- The number after another: 1 follows 0xFFFFFFFF. -/
def nextSeq (n : Nat) : Nat := if n + 1 = 2 ^ 32 then 1 else n + 1

/-- FILL follows the log. -/
def State.showFill (s : State) : State := s.wf (evtPg + 0x104) 15 0 (min s.log.length 32768)

/-- A record discarded. -/
def State.recLost (s : State) : State := s.bump (evtPg + 0x10C) 31 0 1

/-- A numbered record goes into the log: in a full log a UC or UF record replaces the oldest CE or DV record (R421). -/
def State.logRec (s : State) (l : LogRec) : State :=
  if s.log.length < 32768 then { s with log := s.log ++ [l] }.showFill
  else if l.rec_.sev < 2 then s.recLost
  else
    match s.log.find? (fun k => decide (k.rec_.sev < 2)) with
    | none => s.recLost
    | some k => { s with log := s.log.erase k ++ [l] }.recLost

/-- EVENT_RECORD: record `n` of those under way reaches the active hearth (R419 to R421, R378). -/
def execEventRecord (n : Nat) (s : State) : Host.Outcome State Fault Refusal :=
  .next (s.ifHearth (fun s =>
    match s.recQ[n]? with
    | none => s
    | some r =>
      let seq := nextSeq (s.rd (evtPg + 0x108)).toNat
      let l : LogRec := { seq := seq, rec_ := r }
      let s := ({ s with recQ := s.recQ.eraseIdx n, recent := (s.recent ++ [l]).drop (s.recent.length + 1 - 120) }).wr (evtPg + 0x108) (BitVec.ofNat 32 seq)
      let s := (s.bump (evtPg + 0x134 + 4 * min r.sev 3) 31 0 1).logRec l
      let s := if r.sev = 3 then ((s.modAon (fun a => { a with alert := true })).wf (evtPg + 0x104) 29 29 1).send .ibi else s
      if r.chip then s.chipNotify (BitVec.ofNat 1024 l.nat) else s))

/-- EVT_STAT.ALERT is cleared by management (R421). -/
def State.alertClear (s : State) : State := (s.modAon (fun a => { a with alert := false })).wf (evtPg + 0x104) 29 29 0

/-- ALERT_RELEASE: management writes EVT_STAT.ALERT (R421). -/
def execAlertRelease (ag : Agent) (s : State) : Host.Outcome State Fault Refusal :=
  .next (if ag = .mgmt then s.alertClear else s)

/-! ### The stream (R421, R422) -/

/-- EVENT_DATAGRAM_SEND: up to 44 records, when 44 wait or the oldest has waited 100 µs (`aged`) (R422). -/
def execEventDatagramSend (aged : Bool) (s : State) : Host.Outcome State Fault Refusal :=
  .next (s.ifHearth (fun s =>
    match s.log with
    | [] => s
    | l :: _ =>
      if !s.streams ∨ (!aged ∧ s.log.length < 44) then s
      else
        let ls := s.log.take 44
        let s := s.sendDatagram 1 ls.length l.seq 0 (ls.flatMap (fun k => byteList 32 k.nat))
        { s with log := s.log.drop 44 }.showFill))

/-- IDLE_DATAGRAM: one second has passed with nothing sent; FIRST is not stated for it: a free value (R422, log entry 4). -/
def execIdleDatagram (s : State) : Host.Outcome State Fault Refusal :=
  .next (s.ifHearth (fun s =>
    if !s.streams ∨ !s.log.isEmpty ∨ s.rf (dumpPg + 0x104) 30 30 = 1 then s
    else
      let (n, s) := s.fresh
      s.sendMark 4 (Config.freeWord n).toNat))

/-- ARP_REQUEST: a request for SRC_IP is answered (R422). -/
def execArpRequest (ip : Word) (s : State) : Host.Outcome State Fault Refusal :=
  .next (s.ifHearth (fun s => if s.rf (evtPg + 0x104) 31 31 = 1 ∧ ip = s.rd (evtPg + 0x118) then s.send (.arp ip s.flash.mac) else s))

/-- MGMT_LINK_UP: with AN_EN = 1 the link comes up only once auto-negotiation of clause 37 has completed, for full duplex (R422). -/
def execMgmtLinkUp (negotiated : Bool) (s : State) : Host.Outcome State Fault Refusal :=
  .next (s.ifHearth (fun s => if s.rf (evtPg + 0x100) 30 30 = 0 ∨ negotiated then s.wf (evtPg + 0x104) 31 31 1 else s))

/-- MGMT_LINK_DOWN (R422). -/
def execMgmtLinkDown (s : State) : Host.Outcome State Fault Refusal := .next (s.wf (evtPg + 0x104) 31 31 0)

end Sys2Proof.Machine
end

