-- ==== Sys2Proof/Machine/Stroke.lean ====
section
/-! DEFINITION. The seam (R46 to R56, R84, R92 to R96, R140, R143, R149, R176, R439) and the stroke boundary (R32 to R42). -/

namespace Sys2Proof.Machine

/-! ### What a core shows of the stroke (R53, R95, R96, R108, SEQ_POS) -/

/-- Why a unit's head operation had not finished at s0, its entry index, and DONE (SEQ_POS). The index is none where the unit has
no operation. -/
def State.seqWhy (s : State) (gp u body : Nat) : Nat × Option Nat × Bool :=
  let c := s.core gp
  let halt : List Nat := if c.halted then [10] else []
  match c.flights.find? (fun f => decide (f.unit = u) && !f.landing && (decide (body < f.busy) || f.hold)) with
  | some f => (if f.hold then 9 else if entOp f.ent = 0 then 8 else 0, some f.idx, false)
  | none =>
    match c.queue u with
    | q :: _ =>
      match decodeEntry (gp / 80) q.ent with
      | some op => ((lowWhy (s.whys gp u body op ++ halt)).getD 0, some q.idx, false)
      | none => (0, some q.idx, false)
    | [] =>
      match c.flights.find? (fun f => decide (f.unit = u) && !f.landing && decide (body ≤ f.retire)) with
      | some f => (0, some f.idx, false)
      | none => if c.seq.endRead then (0, none, true) else ((lowWhy (halt ++ [11])).getD 0, none, false)

/-- SEQ_POS u, and the state after it. INDEX of a unit without an operation is a free value: the spec gives it no meaning
(UNVERIFIED, log entry 4). -/
def State.seqPos (s : State) (gp u body : Nat) : Word × State :=
  let (why, idx, done) := s.seqWhy gp u body
  let word : Nat → Word := fun i => BitVec.ofNat 32 (bit done * 2 ^ 31 + why * 2 ^ 24 + i)
  match idx with
  | some i => (word i, s)
  | none =>
    let (n, s) := s.fresh
    (word ((Config.freeWord n).toNat % 8192), s)

/-- SEQ_POS of the eight units, captured at s0. -/
def State.showPos (s : State) (gp body : Nat) : State :=
  (List.range 8).foldl (fun (s : State) u =>
    let (w, s) := s.seqPos gp u body
    s.wr (corePg gp + 0x220 + 4 * u) w) s

/-- STATE of TILE_STAT. -/
def tileCode (t : TileSt) : Nat := match t with | .idle => 0 | .accum => 1 | .draining => 2 | .loading => 3

/-- TILE_STAT of a tile whose state at s0 was `st`. -/
def Tile.stat (t : Tile) (st : TileSt) : Word :=
  BitVec.ofNat 32 (tileCode st * 2 ^ 30 + bit t.void * 2 ^ 29 + bit t.disputed * 2 ^ 28 + bit t.ovf * 2 ^ 27 + bit t.lapsed * 2 ^ 26 + t.pass)

/-- Read cycles lost to full queues, one still going on at s0 included (R93). -/
def Seq.stalled (q : Seq) (body : Nat) : Nat := q.stall + (match q.blocked with | some b => 64 + body - b | none => 0)

/-- PAT_STAT after a stroke whose pattern completed or not. -/
def Seq.patStat (q : Seq) (complete : Bool) : Word :=
  BitVec.ofNat 32 (bit q.bad * 2 ^ 31 + bit q.notReady * 2 ^ 30 + bit q.pmemUe * 2 ^ 29 + bit complete * 2 ^ 13
    + if q.bad || q.pmemUe then q.badIdx else 0)

/-- SYND of OVERRUN (R54, R96, R100). -/
def Seq.overSynd (q : Seq) (perturbed : Bool) (body : Nat) : BitVec 64 :=
  BitVec.ofNat 64 (q.last + bit (q.bad || q.pmemUe) * 2 ^ 13 + bit q.notReady * 2 ^ 14 + bit perturbed * 2 ^ 15 + body % 2 ^ 24 * 2 ^ 16)

/-- The context of a core is debug-perturbed (R56). -/
def State.isPerturbed (s : State) (gp : Nat) : Bool := match s.coreCtx gp with | some x => s.perturbed.contains x | none => false

/-! ### s0 to s15 (R46, R54, R55, R82, R84, R92) -/

/-- Deviations of the body whose records carry a count or a length: BANK_CONFLICT, TILE_HAZARD and the outside wait of LATE_INPUT
(R82, R108, R140), each with the cycle at which it began. -/
def State.bodyRecords (s : State) (gp : Nat) (w : Watch) : State :=
  let s := match w.confInfo with
    | some i => s.coreErr gp 1 0x10 (bodyCycle (i.toNat / 2 ^ 16 % 2 ^ 16)) (i ||| BitVec.ofNat 64 (min w.confCnt 0xFFFF * 2 ^ 32))
    | none => s
  let s := match w.hold with
    | some h => s.coreErr gp 1 0x11 (bodyCycle h.start) (BitVec.ofNat 64 (h.info (h.len.getD 0)))
    | none => s
  match w.outWait with
  | some o => (s.bump (corePg gp + 0x110) 31 0 1).coreErr gp 1 0x12 (bodyCycle o.start) (o.synd (o.len.getD 0))
  | none => s

/-- OVERRUN: counted by R56, recorded, and the pattern stops (R54). -/
def State.overrun (s : State) (gp body : Nat) (q : Seq) : State :=
  let p := s.isPerturbed gp
  let s := s.bump (corePg gp + (if p then 0x10C else 0x108)) 31 0 1
  (s.coreErr gp 1 0x13 (seamCycle 0) (q.overSynd p body)).stopPattern gp body

/-- Every trace is emptied; TRACE_STAT and TRACE_SUM (R66, R84). -/
def State.emptyTraces (s : State) (gp : Nat) (tokErr : Bool) : State :=
  let c := s.core gp
  let pg := corePg gp
  let s := (List.range 18).foldl (fun (s : State) n =>
    let t := c.trace n
    s.wr (pg + 0x380 + 4 * n) (BitVec.ofNat 32 (min t.hwm 255 * 2 ^ 24 + t.ents.length * 2 ^ 16))) s
  let resid := (List.range 18).foldl (fun k n => k + bit (!(c.trace n).ents.isEmpty) * 2 ^ n) 0
  let bad := (List.range 18).any (fun n => mapBad n (s.rd (pg + 0x300 + 4 * n)))
  (s.wr (pg + 0x3E0) (BitVec.ofNat 32 (bit tokErr * 2 ^ 31 + bit bad * 2 ^ 30 + resid))).setCore gp { c with traces := [] }

/-! ### s16 (R46, R51, R53) -/

/-- The due-count check: LATE_RINGS, LATE_CNT and LATE_INPUT for each ring with fewer rows than DUE (R51, R83). Rows that land later are
late, land in order, and count in the window in which they land (R52). -/
def State.dueCheck (s : State) (gp : Nat) : State :=
  let pg := corePg gp
  (List.range 32).foldl (fun (s : State) n =>
    let d := s.rd (pg + 0x180 + 4 * n)
    let got := ((s.core gp).ring n).landed
    if fld d 31 31 = 1 ∧ got < fld d 15 0 then
      ((s.wf (pg + 0x118) n n 1).bump (pg + 0x110) 31 0 1).coreErr gp 1 0x12 (seamCycle 16)
        (BitVec.ofNat 64 (n + fld d 15 0 * 2 ^ 16 + min got 0xFFFF * 2 ^ 32))
    else s) (s.wr (pg + 0x118) 0)

/-- The ledger, conflict, hazard, outbound (R83: OB_STALL) and sequencer registers of the stroke. -/
def State.ledger (s : State) (gp body : Nat) (w : Watch) (q : Seq) (ovr complete : Bool) (st0 st1 : TileSt) : State :=
  let pg := corePg gp
  let late := decide (s.rd (pg + 0x118) ≠ 0) || w.outWait.isSome
  let haz := match w.hold with | some h => h.info (h.len.getD 0) | none => 0
  let c := s.core gp
  let conf := match w.confInfo with | some i => i.toNat % 2 ^ 32 | none => 0
  let vals : List (Nat × Nat) :=
    [(0x100, if ovr then body % 2 ^ 24 else w.used), (0x104, body % 2 ^ 24),
     (0x114, bit (s.isPerturbed gp) * 16 + bit ovr * 8 + bit late * 4 + bit w.hold.isSome * 2 + bit w.confInfo.isSome),
     (0x11C, s.stroke % 2 ^ 32), (0x240, min (q.stalled body) 0xFFFF), (0x25C, haz), (0x270, conf),
     (0x274, min w.confLand 0xFFFF * 2 ^ 16 + min w.confCnt 0xFFFF),
     (0x3E4, min w.fqPeak 64 * 2 ^ 24 + min w.obPeak 256 * 2 ^ 15 + min w.obStall 0x7FFF)]
  let s := vals.foldl (fun (s : State) v => s.wr (pg + v.1) (BitVec.ofNat 32 v.2)) s
  ((s.wr (pg + 0x208) (q.patStat complete)).wr (pg + 0x250) (c.t0.stat st0)).wr (pg + 0x254) (c.t1.stat st1)

/-! ### One core, s0 to s31 -/

/-- The core as the next stroke finds it: queues and sequencer empty, tiles idle, a new landing window, in which rows that land from here
on count (R52). What stays in the FEED queue and the outbound buffer is the first peak of the next stroke (OUT_STAT). -/
def Core.endStroke (c : Core) (x : Nat) : Core :=
  { c with queues := [], seq := {}, watch := { fqPeak := c.feedQ.length, obPeak := c.outHas x c.now }, gated := false, t0 := { c.t0 with st := .idle, stTo := 0 }, t1 := { c.t1 with st := .idle, stTo := 0 },
           rings := (c.rings.map (fun p => (p.1, { p.2 with landed := 0 }))).filter (fun p => decide (p.2 ≠ ({} : Ring))) }

/-- A stepping core halts at its s0, while the session is open (R396). -/
def State.stepHalt (s : State) (gp body : Nat) : State :=
  let c := s.core gp
  let s := if c.stepping then s.modCore gp (fun c => { c with stepping := false }) else s
  if c.stepping ∧ !c.halted ∧ s.d2For gp then s.haltCore gp body 2 none else s

/-- The seam scrub's accesses: each logged row holds its bank for 3 cycles between s16 and s31, above landings (R143). Row `i` takes s16 +
3i to s16 + 3i + 2 and is corrected in the first (DESIGN CHOICE, log entry 69). -/
def scrubAccess (body fl : Nat) (rows : List Nat) : List Access :=
  (withIndex 0 rows).flatMap (fun r => (List.range 3).map (fun k =>
    { cyc := body + 16 + 3 * r.2 + k, fl := fl, rank := 0, code := scrubCode, field := 0, waited := true, op := .rd 0 k (.scrub r.1) }))

/-- The scrub of the rows a stroke has logged falls due (R143). -/
def State.scrubSeam (s : State) (gp body : Nat) (rows : List Nat) : State :=
  if rows.isEmpty then s
  else s.modCore gp (fun c => { c with nextId := c.nextId + 1, acc := c.acc ++ scrubAccess body c.nextId rows })

/-- A segment that has not ended by s0 is abandoned, and what a segment has moved, one that a brake stop ended included, is restored ahead
of the due-count check (R312). -/
def State.assaySeam (s : State) (gp : Nat) : State :=
  let x := s.asyCore gp
  if x.running.isSome then s.abandonSegment gp else if x.saved.isEmpty && x.slot.isNone then s else s.asyRestore gp

/-- The seam of one core up to s16. `body` is the body cycle at which s0 falls. -/
def State.seamCore (s : State) (gp body : Nat) : State :=
  let s := (s.reach gp body).assaySeam gp
  let c := s.core gp
  let run := decide (s.rf (corePg gp + 0x200) 8 8 = 1)
  let complete := run && c.complete
  let ovr := run && (c.halted || !c.complete)
  let s := s.showPos gp body
  let w := (List.range 8).foldl (fun (w : Watch) u => w.endWaits u body) c.watch
  let s := s.bodyRecords gp w
  let s := if ovr then s.overrun gp body c.seq else s
  let s := ((s.dropWaiter gp).emptyTraces gp w.tokErr).dueCheck gp
  let s := s.ledger gp body w c.seq ovr complete (c.t0.stAt body) (c.t1.stAt body)
  ((s.modCore gp (fun c => c.endStroke s.xdiv)).scrubSeam gp body w.scrub).stepHalt gp body

/-! ### Units outside the cores at s16 (R439) -/

/-- A register of a unit outside the cores that describes the last completed stroke. -/
def seamReg (a : Nat) : Bool :=
  let l := locOf a
  !l.module &&
    (if l.blk < 8 then
      (decide (l.unit = 0x20) && (decide (l.off = 0x108) || decide (l.off = 0x10C))) || (decide (l.unit = 0x30) && decide (l.off = 0x104))
    else
      decide (l.blk = 0xE) && decide (l.page = 0) &&
        (((decide (l.unit = 1) || decide (l.unit = 2)) && (decide (l.off = 0x104) || decide (l.off = 0x108) || decide (l.off = 0x10C)))
          || ((decide (l.unit = 3) || decide (l.unit = 8)) && decide (l.off = 0x104))))

/-- MC_QPEAK and MC_AGE hold 16 bits. -/
def liveWidth (a : Nat) : Nat :=
  let l := locOf a
  if l.blk = 0xE ∧ (l.unit = 1 ∨ l.unit = 2) ∧ l.off ≠ 0x104 then 15 else 31

/-- MC_STAT of a channel. -/
def isMcStat (a : Nat) : Bool :=
  let l := locOf a
  !l.module && decide (l.blk = 0xE) && decide (l.page = 0) && (decide (l.unit = 1) || decide (l.unit = 2)) && decide (l.off = 0x100)

/-- MC_STAT at s16, before the peak of the refresh rate is in it: TRAINED and REMAP_USED stay, and a trained channel is in self-refresh in
I2 (R398, MC_STAT). -/
def mcStatSeam (sref : Bool) (v : Word) : Word := if sref ∧ fld v 31 31 = 1 then v &&& 0x9FFFFFF8 ||| 0x40000000 else v &&& 0x9FFFFFF8

/-- MC_STAT of every channel at s16: HOT shows the ranks that report more than 2× (R191, R439). -/
def State.publishMc (s : State) : State :=
  let sref := decide (s.pwrState = 3)
  let regs := (s.regs.map (fun p => if isMcStat p.1 then (p.1, mcStatSeam sref p.2) else p)).filter (fun p => !isMcStat p.1 || decide (p.2 ≠ 0))
  s.hotDevs.foldl (fun (s : State) d => s.wf (mcPg d.1 + 0x100) 29 29 1) { s with regs := regs }

/-- Channel of a waiting row, if it is one of DRAM. -/
def reqChan (r : RowReq) : Option Nat := match homeOf r.addr with | .dram region off => some (mcOf region off) | _ => none

/-- The registers take the counts of the window that has closed, and a new window begins: with the rows that still wait, and the buffers
that are full at its beginning, `now` (R439). -/
def State.publish (s : State) (now : Nat) : State :=
  let s := s.net.foldl (fun (s : State) p => s.vcCount p now) s
  let s := { s with regs := s.regs.filter (fun p => !seamReg p.1) }.publishMc
  let s := s.live.foldl (fun (s : State) p =>
    let a := p.1 / 4 * 4
    match p.1 % 4 with
    | 0 => s.bump a (liveWidth a) 0 p.2
    | 1 => s.bump a 15 0 p.2
    | 2 => s.bump a 31 16 p.2
    | _ => s.bump a 31 0 p.2) s
  (s.reqs.filterMap reqChan).dedup.foldl (fun (s : State) mc => s.peakQueue mc) { s with live := [] }

/-! ### s32: the commit (R33, R49, R149, R176, R296, R307, R324, R370) -/

/-- Physical core of a register of its page 0. -/
def coreOfReg (a : Nat) : Option Nat :=
  let l := locOf a
  if l.physical ∧ l.page = 0 then some l.gp else none

/-- Ring of a RING_DESC or RING_PTR register. -/
def ringOfReg (a : Nat) : Option (Nat × Nat) :=
  let l := locOf a
  if l.physical ∧ l.page = 0 ∧ 0x400 ≤ l.off ∧ l.off < 0x600 then some (l.gp, (l.off - 0x400) / 16) else none

/-- A ring after a commit of its registers: a change of EN, STORE, BASE or SIZE, or LOAD = 1, starts a new generation, disarms it and
frees the remote-load slots of its rows (R148, R149, R249). The committed LOAD bit reads 0. -/
def State.ringCommit (s old : State) (gp n : Nat) : State :=
  let a := corePg gp + 0x400 + 16 * n
  let d := s.rd a
  let ptr := s.rd (a + 4)
  let load := decide (fld ptr 31 31 = 1)
  let s := s.wf (a + 4) 31 31 0
  if !load ∧ d = old.rd a then s
  else
    let size := fld d 28 16 + 1
    let bad := load && decide (2 * size ≤ fld ptr 13 0)
    let p := if load && !bad then fld ptr 13 0 else 0
    s.modCore gp (fun c =>
      let r := c.ring n
      let r' : Ring := { head := p, tail := p, claim := p, resv := p, gen := r.gen + 1, landed := r.landed, outside := r.outside,
                         badLoad := if load then bad else r.badLoad }
      let slots := c.slots.map (fun x => if x.2.busy ∧ x.2.dst = n then (x.1, { x.2 with busy := false, stale := true }) else x)
      { ((c.setRing n r').setArm n none) with slots := slots })

/-- The random streams of a core after a commit of RNG_CTL or RNG_SEED (R176). The committed RESEED bit reads 0. -/
def State.rngCommit (s old : State) (gp : Nat) : State :=
  let a := corePg gp + 0x294
  let new := s.rd a
  let s := s.wf a 1 1 0
  let changed := decide (new ≠ old.rd a) || decide (s.rd64 (a + 4) ≠ old.rd64 (a + 4))
  if fld new 0 0 = 1 then (if changed then s.seedKeys gp else s)
  else if fld new 1 1 = 1 ∨ fld (old.rd a) 0 0 = 1 then s.freshKeys gp else s

/-- STROKE_PERIOD commits inside its limits (R33). -/
def State.periodCommit (s : State) : State :=
  let v := s.rf (genPg + 0x100) 23 0
  let k := max 2000 (min 10000000 v)
  (s.wf (genPg + 0x100) 23 0 k).setGenBit 4 (decide (v ≠ k))

/-- What the commit of one register does besides its value, at `t` ns after the boundary. -/
def State.commitEffect (s old : State) (t a : Nat) : State :=
  let l := locOf a
  if a = genPg + 0x100 then s.periodCommit
  else if a = genPg + 0x114 then s.commitSrc t
  else if a = asyPg + 0x100 then (if s.cut = old.cut then s else s.restartPasses)
  else if l.module ∧ l.unit = 3 ∧ 16 ≤ l.page ∧ l.off = 0x100 then s.admitCtx (l.page - 16)
  else
    match coreOfReg a with
    | none => s
    | some gp =>
      if l.off = 0x10 then (if fld (s.rd a) 1 1 = 1 ∧ fld (old.rd a) 1 1 = 0 then s.confirm gp 4 15 else s)
      else if l.off = 0x2B0 then (if fld (s.rd a) 31 31 = 1 then s.wf (corePg gp + 0x2CC) 31 31 0 else s)
      else s

/-- Every pending RWS value across the module takes effect (R49), at `t` ns after the boundary. -/
def State.commitAll (old : State) (t : Nat) : State :=
  let pend := old.shadow
  let s := pend.foldl (fun (s : State) p => s.commitOne p.1 p.2) { old with shadow := [] }
  let s := pend.foldl (fun (s : State) p => s.commitEffect old t p.1) s
  let s := (pend.filterMap (fun p => ringOfReg p.1)).dedup.foldl (fun (s : State) r => s.ringCommit old r.1 r.2) s
  let rng := pend.filterMap (fun p => if [0x294, 0x298, 0x29C].contains (locOf p.1).off then coreOfReg p.1 else none)
  (rng.dedup.foldl (fun (s : State) gp => s.rngCommit old gp) s).commitDone

/-- s32 of the armed seam (R47, R49), with s0 at body cycle `body`. -/
def State.commitSeam (s : State) (body : Nat) : State :=
  if s.gen.armed = some s.stroke then s.commitAll ((body + 32) * 1000 / s.aclk) else s

/-- Routers and die-mesh units adopt the degraded tables, or those of a later fault, together at s32 (R213). -/
def State.adoptTables (s : State) : State :=
  if s.netPend then { s.writeTables with netPend := false }
  else if !s.netDegrade ∨ s.degraded (.mesh 0) = true then s
  else
    let s := (List.range 512).foldl (fun (s : State) b => s.wf (routerPg b + 0x100) 30 30 1) s
    (List.range 64).foldl (fun (s : State) r => s.wf (meshPg r + 0x100) 30 30 1) s

/-! ### s40: the next body (R92, R100) -/

/-- The sequencer starts at the entry point of the committed bank, or finds the bank not ready. -/
def State.seqStart (s : State) (gp : Nat) : State :=
  let pg := corePg gp
  let c := s.core gp
  if !s.coreOn gp ∨ c.halted ∨ s.rf (pg + 0x200) 8 8 = 0 then s
  else
    let bank := s.rf (pg + 0x200) 0 0
    let pos := if bank = 0 then s.rf (pg + 0x204) 11 0 else s.rf (pg + 0x204) 27 16
    let ready := decide (s.rf (loadStat gp) (16 + bank) (16 + bank) = 1)
    s.setCore gp { c with seq := { reading := ready, bank := bank, pos := pos, last := bank * 4096 + pos, notReady := !ready } }

/-! ### The seam -/

/-- Cores with UNIT_CTL.ENABLE that take part in the seam. -/
def State.seamCores (s : State) : List Nat :=
  (s.regs.filterMap (fun p => if (locOf p.1).off = 0x10 then coreOfReg p.1 else none)).filter s.coreOn

/-- Landings and the scrub go on up to a cycle, and buckles are paid (R46, R104, R143). -/
def State.landTo (s : State) (stop : Nat) : State :=
  s.cores.foldl (fun (s : State) p => (s.advance p.1 stop).payBuckles p.1) s

/-- SEAM: s0 to s63 (R46). `body` is the body cycle at which s0 falls in every core (log entry 33). -/
def execSeam (body : Nat) (s : State) : Host.Outcome State Fault Refusal :=
  if !s.gen.running ∨ !s.aon.crystal ∨ s.gen.seamDone then .next s
  else
    let s := { s with gen := { s.gen with s0 := some body }, suppNext := [] }
    let s := s.seamCores.foldl (fun (s : State) gp => s.seamCore gp body) s
    let s := s.asy.foldl (fun (s : State) p => s.assaySeam p.1) s
    let now := s.gen.base + 16000 * body / s.aclk
    let s := (s.publish now).asyShow.landTo (body + 24)
    let s := s.bklSeam.landTo (body + 32)
    let s := (s.commitSeam body).adoptTables
    let s := s.seamCores.foldl (fun (s : State) gp => s.seqStart gp) s
    .next { s with gen := { s.gen with seamDone := true } }

/-! ### The boundary (R32, R34, R42) -/

/-- A core begins its body: landings of the seam have landed (R52), rows that were leaving the outbound buffer have gone on leaving, `x` cycles
to each, through a stroke of `span` cycles, and a core told to run starts at its entry point (R34, R72, R396). -/
def State.bodyStart (s : State) (span x gp : Nat) : State :=
  let c := s.core gp
  let s := (s.advance gp (c.acc.foldl (fun m a => max m (a.cyc + 1)) c.now)).payBuckles gp
  let s := s.modCore gp (fun c =>
    let left := (c.leaving.map (fun p => (0, rowsLeft x p.1 p.2 (max c.now span)))).filter (fun p => decide (p.2 ≠ 0))
    { c with now := 0, leaving := left, seq := { c.seq with readAt := none } })
  if c.halted ∧ c.runPend then
    let s := (s.modCore gp (fun c => { c with halted := false, runPend := false })).wr (corePg gp + 0x1304) 0
    s.seqStart gp
  else s

/-- A LINK_REPLAY window starts at each stroke count that is a multiple of REP_WIN, 0 acting as 1 (REP_WIN). -/
def State.repWindow (s : State) (p : Nat) : State :=
  if s.stroke % max 1 (s.rd (fabPg p + 0x12C)).toNat = 0 then s.setLink p { s.link p with winReps := 0, winDone := false } else s

/-- The stroke's time passes: the always-on clock, and the time left of a debug session (R395). -/
def State.timePass (s : State) (len : Nat) : State :=
  let s := s.modAon (fun a => { a with time := a.time + len })
  match s.dbg with
  | some d => if d.left ≤ len then s.closeSession else { s with dbg := some { d with left := d.left - len } }
  | none => s

/-- STROKE_BOUNDARY: TCLK reaches the end of the stroke (R32, R34, R37). The reads of s40 to s63 that no command has made have been made
(R92). -/
def execStrokeBoundary (s : State) : Host.Outcome State Fault Refusal :=
  if !s.gen.running ∨ !s.aon.crystal then .next s
  else
    let k := s.stroke
    let len := s.gen.len
    let span := len * s.aclk / 16000
    let s := if s.gen.seamDone then (s.cores.filter (fun p => p.2.seq.reading)).foldl (fun (s : State) p => s.seqSeam p.1) s else s
    let s : State := { s with supp := s.suppNext, suppNext := [] }
    let s := s.gridBoundary.timePass len
    let s := if s.rf (genPg + 0x114) 8 8 = 1 then s.send .strokeOut else s
    let s := s.timeSyncSend
    let s := (List.range 12).foldl (fun (s : State) p => s.repWindow p) s
    let s := (List.range 16).foldl (fun (s : State) c => s.ctxBoundary k c) s
    let x := s.xdiv
    let s := s.powerBoundary.shutGo
    let s := s.cores.foldl (fun (s : State) p => s.bodyStart span x p.1) s
    .next s.asyBoundary

/-! ### Region windows (R31) -/

/-- Units of a region whose counts the region controller keeps. -/
def unitOfRegion (r a : Nat) : Bool := let l := locOf a; !l.module && decide (l.region = r)

/-- REP_WINDOW_BOUNDARY: at a stroke count that is a multiple of the window's length a new window starts, and written values take
effect (R31). `ctrl`: the controller's own logic has raised an uncorrectable error, which drains the module the first time (R326). -/
def execRepWindowBoundary (region : Nat) (ctrl : Bool) (t : Nat) (s : State) : Host.Outcome State Fault Refusal := inRange (.repWindowBoundary region ctrl t) <|
  let s := if ctrl then s.ctrlErr (rcPg region 0) (tclkCycle t) else s
  if s.stroke % max 1 (s.winParOf region).len ≠ 0 then .next s
  else
    let a := rcPg region 0 + 0x100
    let par : WinPar := { len := (s.rd a).toNat, ce := (s.rd (a + 4)).toNat, ue := (s.rd (a + 8)).toNat }
    .next { s with win := s.win.filter (fun p => !unitOfRegion region p.1), winPar := Tbl.set {} s.winPar region par }

end Sys2Proof.Machine
end

