-- ==== Sys2Proof/Machine/Mmio.lean ====
section
/-! DEFINITION. MMIO: reads and writes of the register map by the host ports and management (R7, R8, R21 to R27, R36, R362, R393), and
the commands that are writes of registers of the fabric, memory and buckle units. -/

namespace Sys2Proof.Machine

/-! ### Banks of the epochs (R261, R263) -/

/-- The tables of an epoch bank take no write while they are active or draining. -/
def State.bankLocked (s : State) (bank : Nat) : Bool := decide (bank = s.epoch) || decide (s.rf (rtPg + 0x108) 28 28 = 1)

/-- Epoch bank of a register: PORT_EN, the escape tables, GIRTH_ROOT and the tree tables. -/
def bankOfReg (l : Loc) : Option Nat :=
  if !l.module ∨ l.unit ≠ 2 then none
  else if l.page = 16 ∧ 0x200 ≤ l.off ∧ l.off < 0x280 then some ((l.off - 0x200) / 64)
  else if l.page = 17 ∧ (l.off = 0x104 ∨ l.off = 0x108) then some ((l.off - 0x104) / 4)
  else if 64 ≤ l.page ∧ l.page < 99 then some 0
  else if 128 ≤ l.page ∧ l.page < 163 then some 1
  else none

/-! ### Writes with an effect of their own -/

/-- A write of DBG_CTL by the session's agent: HALT, RUN, STEP and BRK_EN (R396). -/
def State.dbgCtlWrite (s : State) (gp : Nat) (v : Word) : State :=
  let s := s.regWrite (corePg gp + 0x1300) v
  let s := if fld v 31 31 = 1 then s.dbgHalt gp else s
  if fld v 29 29 = 1 then s.dbgRun gp true else if fld v 30 30 = 1 then s.dbgRun gp false else s

/-! Writes of RETRAIN, BOOT_CTL and RST_REQ take effect at once, as their commands do (R7). What the outside world then finds, which is
an operand of the command, is here a free value (log entry 34). -/

/-- A free training result of a fabric port. -/
def freeTrain (b : Row) : TrainResult :=
  let x := b.toNat
  { done := decide (x % 2 = 1), good := BitVec.ofNat 8 (x / 2), peerId := x / 2 ^ 9 % 8192, peerPort := x / 2 ^ 22 % 16, peerExp := x / 2 ^ 26 % 4096 }

/-- A write of FAB_CTL (R229, R232). -/
def State.fabCtl (s : State) (p a : Nat) (v : Word) : State :=
  let s := s.regWrite a v
  if fld v 0 0 = 0 ∨ 12 ≤ p then s
  else
    let (n, s) := s.fresh
    let b := Config.freeRow n
    let quals := (List.range 8).map (fun i => (i, b.toNat / 2 ^ (64 + 64 * i) % 2 ^ 32, b.toNat / 2 ^ (96 + 64 * i) % 2 ^ 32))
    s.softRetrain p (freeTrain b) quals ((List.range 6).map (fun i => freeTrain (b >>> (576 + 64 * i)))) (b.toNat / 2 ^ 40 % 2 ^ 16)

/-- A write of Q_CTL (R358, R360). -/
def State.qCtl (s : State) (p : QPort) (a : Nat) (v : Word) : State :=
  let s := s.regWrite a v
  if fld v 0 0 = 0 then s
  else
    let (n, s) := s.fresh
    let x := (Config.freeRow n).toNat
    s.qSoft p { done := decide (x % 2 = 1), good := BitVec.ofNat 16 (x / 2), peerExp := x / 2 ^ 17 % 4096 } (x / 2 ^ 40 % 2 ^ 16)

/-- A write of RST_REQ; a reserved level has no effect (R348). -/
def State.rstReq (s : State) (v : Word) : State :=
  if fld v 31 31 = 0 then s
  else
    let dump := decide (fld v 27 27 = 1)
    let ctx := fld v 15 12
    let (n, s) := s.fresh
    let env := if (Config.rstEnv n).wf then Config.rstEnv n else {}
    match fld v 30 28 with
    | 1 => s.reqContext ctx dump env
    | 2 => s.reqEngine (fld v 11 0) dump env
    | 3 => s.reqPartition ctx dump env
    | 4 => s.reqChip dump env
    | 5 => s.reqPower dump env
    | _ => s

/-- A write of BOOT_CTL (R333, R343). -/
def State.bootCtl (s : State) (ag : Agent) (v : Word) : State :=
  let s :=
    if fld v 0 0 = 0 then s
    else
      let (n, s) := s.fresh
      let b := Config.shutBist n
      s.shutReq (if b.wf then b else {})
  if fld v 1 1 = 0 then s
  else
    let (n, s) := s.fresh
    let env := Config.bootEnv n
    s.warmReq ag (if env.wf then env else {})

/-- A register of a module unit. EVT_STAT.ALERT stands until management writes it (R421): a host port's write of 1 leaves it (log entry
48). -/
def State.writeModule (s : State) (ag : Agent) (l : Loc) (a : Nat) (v : Word) : State :=
  match l.unit, l.page with
  | 0, 1 => if l.off = 0x114 then s.bootCtl ag v else s.regWrite a v
  | 4, 0 => if l.off = 0x100 then s.rstReq v else s.regWrite a v
  | 6, p => if 1 ≤ p ∧ l.off = 0x100 then s.secCmd ag v else s.regWrite a v
  | 0, 0 =>
    if l.off = 0x110 then (if fld v 0 0 = 1 then s.armCommit else s)
    else if l.off = 0x128 then s.commitAt .lo (v.zeroExtend 64)
    else if l.off = 0x12C then s.commitAt .hi (v.zeroExtend 64)
    else s.regWrite a v
  | 1, 0 => if 0x100 ≤ l.off ∧ l.off < 0x500 then s.hitchWrite ag ((l.off - 0x100) / 4) v else s.regWrite a v
  | 2, 16 =>
    if l.off = 0x100 ∨ l.off = 0x104 then s.idWrite l.off v
    else if l.off = 0x110 then s.epCtl v
    else s.regWrite a v
  | 2, 18 => if 0x100 ≤ l.off then s.writeBarrier ((l.off - 0x100) / 8) (decide (l.off % 8 = 4)) v else s.regWrite a v
  | 7, 0 =>
    if l.off = 0x104 then (if ag = .mgmt ∧ fld v 29 29 = 1 then s.alertClear else s)
    else if l.off = 0x12C then s.dumpResend v
    else s.regWrite a v
  | 7, 1 => if l.off = 0x100 then s.dumpCtl v [] else s.regWrite a v
  | 8, 0 =>
    if l.off = 0x100 then s.pwrCtl (fld v 31 30) (fld v 10 0)
    else if l.off = 0x104 then (s.regWrite a v).showLimit
    else s.regWrite a v
  | 5, 0 => if l.off = 0x110 then s.clkObsWrite v else s.regWrite a v
  | 9, 0 => if l.off = 0x108 then s.asyTgtWrite v else s.regWrite a v
  | 3, p =>
    if p < 2 ∧ l.off = 0x104 then s.qCtl (if p = 0 then .qa else .qb) a v
    else if p < 2 ∧ 0x400 ≤ l.off ∧ l.off < 0x800 ∧ l.off % 16 = 12 then s.vecCtl (if p = 0 then .qa else .qb) ((l.off - 0x400) / 16) v
    else s.regWrite a v
  | 2, p => if p < 12 ∧ l.off = 0x108 then s.fabCtl p a v else s.regWrite a v
  | _, _ => s.regWrite a v

/-- A register of a core page; `gp` carries it. -/
def State.writeCore (s : State) (gp : Nat) (l : Loc) (a : Nat) (v : Word) : State :=
  if l.page = 1 ∧ l.off = 0x100 then s.dbgSel gp v
  else if l.page = 1 ∧ l.off = 0x300 then s.dbgCtlWrite gp v
  else if l.page = 0 ∧ l.off = 0x218 then s.loadCtl gp v
  else if l.page = 0 ∧ l.off = 0x2B8 then (if fld v 31 31 = 1 then s.clearDispute gp else s)
  else s.regWrite a v

/-- A register of a region-common unit. -/
def State.writeRegion (s : State) (l : Loc) (a : Nat) (v : Word) : State :=
  match l.unit with
  | 0 =>
    if l.page = 1 ∧ 0x100 ≤ l.off ∧ l.off < 0x180 then s.partWrite l.region ((l.off - 0x100) / 4) v
    else if 2 ≤ l.page ∧ l.page < 4 ∧ 0x100 ≤ l.off then s.ownerWord l.region ((l.page - 2) * 960 + (l.off - 0x100) / 4) v
    else s.regWrite a v
  | 8 =>
    let k := (l.page - 1) * 240 + (l.off - 0x100) / 16
    if 1 ≤ l.page ∧ l.page < 6 ∧ 0x100 ≤ l.off ∧ l.off % 16 < 8 then
      (if k < 1024 then s.bklWrite (l.region * 1024 + k) (decide (l.off % 16 = 4)) v else s)
    else s.regWrite a v
  | _ => s.regWrite a v

/-- A 32-bit write that R393 has admitted. -/
def State.writeReg32 (s : State) (ag : Agent) (a : Nat) (v : Word) : State :=
  let l := locOf a
  if (match bankOfReg l with | some b => s.bankLocked b | none => false) = true then s
  else if l.off < 0x100 then s.regWrite a v
  else if l.module then s.writeModule ag l a v
  else if l.logical then (match s.physOf l.gl with | some gp => s.writeCore gp l a v | none => s)
  else if l.physical then s.writeCore l.gp l a v
  else if l.blk = 0xE then s.writeRegion l a v
  else s.regWrite a v

/-- A 32-bit register write by an agent (R22 to R24, R393). -/
def State.writeReg (s : State) (ag : Agent) (a : Nat) (v : Word) : State :=
  let l := locOf a
  if (pageRows l).isNone ∨ s.dark l then s
  else if !s.admits ag a true then s.secDeny
  else if (rowOf l).isNone then s
  else s.writeReg32 ag a v

/-- A register write of 32 or 64 bits: the lower address first (R25). COMMIT_AT is written as one access (R48). -/
def State.mmioWrite (s : State) (ag : Agent) (a : Nat) (wide : Bool) (v : BitVec 64) : State :=
  if wide ∧ a = genPg + 0x128 then s.commitAt .both v
  else
    let s := s.writeReg ag a (v.truncate 32)
    if wide then s.writeReg ag (a + 4) ((v >>> 32).truncate 32) else s

/-- An access that R25 permits: 4 or 8 bytes, naturally aligned, in the map. -/
def mmioOk (a size : Nat) : Bool := (decide (size = 4) || decide (size = 8)) && decide (a % size = 0) && decide (a < 2 ^ 33)

/-- REGISTER_WRITE: a write by management or a host port to any register (R7). A misaligned address has no effect, and
counts in MMIO_BAD of the host port it came by (R25). -/
def execRegisterWrite (ag : Agent) (addr : Nat) (wide : Bool) (val : BitVec 64) (s : State) : Host.Outcome State Fault Refusal := inRange (.registerWrite ag addr wide val) <|
  if mmioOk addr (if wide then 8 else 4) then .next (s.mmioWrite ag addr wide val)
  else .next (match ag with | .qa => s.bump (qPg .qa + 0x110) 31 0 1 | .qb => s.bump (qPg .qb + 0x110) 31 0 1 | .mgmt => s)

/-! ### Reads -/

/-- A 32-bit register read and what it does (R8, R21 to R26, R36, R366, R393). -/
def State.readReg (s : State) (ag : Agent) (a : Nat) : Word × State :=
  let l := locOf a
  if (pageRows l).isNone ∨ s.dark l then (0, s)
  else if !s.admits ag a false then (0, s.secDeny)
  else if l.module ∧ l.unit = 1 ∧ l.page = 0 ∧ 0x100 ≤ l.off ∧ l.off < 0x500 ∧ l.off % 4 = 0 then
    let (v, s) := s.hitchRead ag ((l.off - 0x100) / 4)
    (BitVec.ofNat 32 v, s)
  else if a = genPg + 0x108 then (let (v, s) := s.countLo ag; (v.truncate 32, s))
  else if a = genPg + 0x10C then (let (v, s) := s.countHi ag; (v.truncate 32, s))
  else (s.regView a, s)

/-- A read of 32 or 64 bits: STROKE_COUNT is consistent across both halves and leaves the latches alone (R25, R36). -/
def State.mmioRead (s : State) (ag : Agent) (a : Nat) (wide : Bool) : BitVec 64 × State :=
  if wide ∧ a = genPg + 0x108 then (BitVec.ofNat 64 s.stroke, s)
  else
    let (lo, s) := s.readReg ag a
    if wide then
      let (hi, s) := s.readReg ag (a + 4)
      (BitVec.ofNat 64 (lo.toNat + hi.toNat * 2 ^ 32), s)
    else (lo.zeroExtend 64, s)

/-! ### Messages of a host port (R25, R361, R362) -/

/-- The one slot of data of an MmioRd's CmpData, in the low bytes of a row. -/
def mmioSlot (v : BitVec 64) : Row := v.zeroExtend 1024

/-- MMIO_RD: `size` in bytes (R25, R362). Its CmpData has one data slot. -/
def execMmioRd (p : QPort) (addr size tag : Nat) (s : State) : Host.Outcome State Fault Refusal := inRange (.mmioRd p addr size tag) <|
  if !s.qUp p then .next s
  else
    let s := s.reqFree p 0
    let reply : State → BitVec 64 → State := fun s v => s.qMsg p { op := 0x31, addr := 0, tag := tag, grant := 4, data := [mmioSlot v] }
    if mmioOk addr size then
      let (v, s) := s.mmioRead (qAgent p) addr (decide (size = 8))
      .next (reply s v)
    else .next (reply (s.bump (qPg p + 0x110) 31 0 1) (if size = 4 then 0xFFFFFFFF else 0xFFFFFFFFFFFFFFFF))

/-- MMIO_WR: `size` in bytes (R25, R362). -/
def execMmioWr (p : QPort) (addr size tag : Nat) (val : BitVec 64) (s : State) : Host.Outcome State Fault Refusal := inRange (.mmioWr p addr size tag val) <|
  if !s.qUp p then .next s
  else
    let s := s.reqFree p 1
    let s := if mmioOk addr size then s.mmioWrite (qAgent p) addr (decide (size = 8)) val else s.bump (qPg p + 0x110) 31 0 1
    .next (s.qMsg p { op := 0x30, addr := 0, tag := tag })

/-! ### Writes with a command of their own -/

/-- BUCKLE_REG_WRITE (R269). -/
def execBuckleRegWrite (ag : Agent) (idx : Nat) (target : Bool) (val : Word) (s : State) : Host.Outcome State Fault Refusal := inRange (.buckleRegWrite ag idx target val) <|
  .next (s.ifAdmitted ag (bklAddr idx) (fun s => s.bklWrite idx target val))

/-- OWNER_TABLE_WRITE (R184, R185). -/
def execOwnerTableWrite (ag : Agent) (region word : Nat) (val : Word) (s : State) : Host.Outcome State Fault Refusal := inRange (.ownerTableWrite ag region word val) <|
  .next (s.ifAdmitted ag (rcPg region 2 + 0x100) (fun s => s.ownerWord region word val))

/-- FAB_ID_WRITE (R236). -/
def execFabIdWrite (ag : Agent) (val : Word) (s : State) : Host.Outcome State Fault Refusal :=
  .next (s.ifAdmitted ag (rtPg + 0x100) (fun s => s.idWrite 0x100 val))

/-- TORUS_DIM_WRITE (R236). -/
def execTorusDimWrite (ag : Agent) (val : Word) (s : State) : Host.Outcome State Fault Refusal :=
  .next (s.ifAdmitted ag (rtPg + 0x104) (fun s => s.idWrite 0x104 val))

/-- EP_CTL_ARM (R262). -/
def execEpCtlArm (ag : Agent) (val : Word) (s : State) : Host.Outcome State Fault Refusal :=
  .next (s.ifAdmitted ag (rtPg + 0x110) (fun s => s.epCtl val))

end Sys2Proof.Machine
end

