-- ==== Sys2Proof/Machine/Movement.lean ====
section
/-! DEFINITION. STEER (R76 to R79), SEND (R72, R239), STORE (R102, R286), RECV arming (R104, R105) and the outbound
buffer. -/

namespace Sys2Proof.Machine

/-! ### STEER -/

/-- SWITCH (R76, R77). -/
def execSwitch (gp cyc : Nat) (s : State) : Host.Outcome State Fault Refusal := inRange (.switchOp gp cyc) <|
  .next (s.tryFire gp 3 cyc (fun o => match o with | .switch _ => true | _ => false) noExtra)

/-- MERGE (R76, R78). -/
def execMerge (gp cyc : Nat) (s : State) : Host.Outcome State Fault Refusal := inRange (.mergeOp gp cyc) <|
  .next (s.tryFire gp 3 cyc (fun o => match o with | .merge _ => true | _ => false) noExtra)

/-! ### SEND and STORE -/

/-- SEND (R102, R239, R247). -/
def execSend (gp cyc : Nat) (s : State) : Host.Outcome State Fault Refusal := inRange (.send gp cyc) <|
  .next (s.tryFire gp 4 cyc (fun o => match o with | .send _ => true | _ => false) (sendFired gp))

/-- TSEND (R102, R252, R253). -/
def execTsend (gp cyc : Nat) (s : State) : Host.Outcome State Fault Refusal := inRange (.tsend gp cyc) <|
  .next (s.tryFire gp 4 cyc (fun o => match o with | .tsend _ => true | _ => false) (tsendFired gp))

/-- ST: rows to the core's own stores and rings (R71, R286). -/
def execSt (gp cyc : Nat) (s : State) : Host.Outcome State Fault Refusal := inRange (.st gp cyc) <|
  .next (s.tryFire gp 6 cyc (fun o => match o with | .st _ _ _ _ => true | _ => false) noExtra)

/-- ST_MEM (R102, R239). -/
def execStMem (gp cyc : Nat) (s : State) : Host.Outcome State Fault Refusal := inRange (.stMem gp cyc) <|
  .next (s.tryFire gp 6 cyc (fun o => match o with | .stMem _ => true | _ => false) (stMemFired gp))

/-- ST_RING (R102): as SEND, by the store unit. -/
def execStRing (gp cyc : Nat) (s : State) : Host.Outcome State Fault Refusal := inRange (.stRing gp cyc) <|
  .next (s.tryFire gp 6 cyc (fun o => match o with | .stRing _ => true | _ => false) (sendFired gp))

/-- OUTBOUND_PACKET_DEPART: the crossbar grants the core port, and the oldest packet with a row in the buffer leaves with
its first row, unless the port still carries rows of an earlier one; a core that is fenced, spare or being zeroised is not granted,
and what it had queued is discarded (R72, R203). -/
def execOutboundPacketDepart (gp cyc : Nat) (s : State) : Host.Outcome State Fault Refusal := inRange (.outboundPacketDepart gp cyc) <|
  let s := s.reach gp cyc
  let c := s.core gp
  if s.portShut gp then .next ((s.cutPackets gp).modCore gp (fun c => { c with outb := [], leaving := [] }))
  else if c.portBusy then .next s
  else
    match c.outb.find? (fun p => !p.left && !p.rows.isEmpty) with
    | none => .next s
    | some p => .next (s.depart gp cyc p)

/-! ### RECV -/

/-- ARM (R104, R105). -/
def execArm (gp cyc : Nat) (s : State) : Host.Outcome State Fault Refusal := inRange (.arm gp cyc) <|
  .next (s.tryFire gp 5 cyc (fun o => match o with | .arm _ _ _ _ => true | _ => false) (armFired gp))

/-- DISARM (R104, R105). -/
def execDisarm (gp cyc : Nat) (s : State) : Host.Outcome State Fault Refusal := inRange (.disarm gp cyc) <|
  .next (s.tryFire gp 5 cyc (fun o => match o with | .disarm _ => true | _ => false) (disarmFired gp))

end Sys2Proof.Machine
end

