-- ==== Sys2Proof/Machine/Sync.lean ====
section
/-! DEFINITION. SYNC operations (R102, R268 to R275) and what the bank and its host do: BUCKLE_ADD, register writes,
timeouts. -/

namespace Sys2Proof.Machine

/-- SYNC ADD (R102, R271). -/
def execSyncAdd (gp cyc : Nat) (s : State) : Host.Outcome State Fault Refusal := inRange (.syncAdd gp cyc) <|
  .next (s.tryFire gp 7 cyc (fun o => match o with | .syncAdd _ _ _ _ => true | _ => false) (syncAddFired gp))

/-- WAITB (R273). -/
def execWaitb (gp cyc : Nat) (s : State) : Host.Outcome State Fault Refusal := inRange (.waitb gp cyc) <|
  .next (s.tryFire gp 7 cyc (fun o => match o with | .waitb _ => true | _ => false) (waitbFired gp cyc))

/-- TOKEN (R273). -/
def execToken (gp cyc : Nat) (s : State) : Host.Outcome State Fault Refusal := inRange (.tokenOp gp cyc) <|
  .next (s.tryFire gp 7 cyc (fun o => match o with | .token _ _ => true | _ => false) (tokenFired gp cyc))

/-- EMIT writes its constant token in f + 2 (R102). -/
def execEmit (gp cyc : Nat) (s : State) : Host.Outcome State Fault Refusal := inRange (.emitOp gp cyc) <|
  .next (s.tryFire gp 7 cyc (fun o => match o with | .emit _ _ => true | _ => false) noExtra)

/-- ARMB (R102, R272). -/
def execArmb (gp cyc : Nat) (s : State) : Host.Outcome State Fault Refusal := inRange (.armb gp cyc) <|
  .next (s.tryFire gp 7 cyc (fun o => match o with | .armb _ _ => true | _ => false) (armbFired gp))

end Sys2Proof.Machine
end

