-- ==== Sys2Proof/Machine/Vector.lean ====
section
/-! DEFINITION. VEC operations (R158 to R174): each fires its own opcode; what it computes is in VecArith.lean. -/

namespace Sys2Proof.Machine

/-- A VEC operation of an opcode. -/
def isVec (code : Nat) (o : Op) : Bool := match o with | .vec a => decide (a.op = code) | _ => false

/-- ADD (R160, R162). -/
def execVecAdd (gp cyc : Nat) (s : State) : Host.Outcome State Fault Refusal := inRange (.vecAdd gp cyc) <| .next (s.tryFire gp 2 cyc (isVec 0x01) noExtra)

/-- SUB (R160, R162). -/
def execVecSub (gp cyc : Nat) (s : State) : Host.Outcome State Fault Refusal := inRange (.vecSub gp cyc) <| .next (s.tryFire gp 2 cyc (isVec 0x02) noExtra)

/-- MUL (R160, R162). -/
def execVecMul (gp cyc : Nat) (s : State) : Host.Outcome State Fault Refusal := inRange (.vecMul gp cyc) <| .next (s.tryFire gp 2 cyc (isVec 0x03) noExtra)

/-- FMA (R160, R162, R442). -/
def execVecFma (gp cyc : Nat) (s : State) : Host.Outcome State Fault Refusal := inRange (.vecFma gp cyc) <| .next (s.tryFire gp 2 cyc (isVec 0x04) noExtra)

/-- MAX (R160, R162). -/
def execVecMax (gp cyc : Nat) (s : State) : Host.Outcome State Fault Refusal := inRange (.vecMax gp cyc) <| .next (s.tryFire gp 2 cyc (isVec 0x05) noExtra)

/-- MIN (R160, R162). -/
def execVecMin (gp cyc : Nat) (s : State) : Host.Outcome State Fault Refusal := inRange (.vecMin gp cyc) <| .next (s.tryFire gp 2 cyc (isVec 0x06) noExtra)

/-- MOV (R162). -/
def execVecMov (gp cyc : Nat) (s : State) : Host.Outcome State Fault Refusal := inRange (.vecMov gp cyc) <| .next (s.tryFire gp 2 cyc (isVec 0x07) noExtra)

/-- CVT (R165, R166, R438). -/
def execCvt (gp cyc : Nat) (s : State) : Host.Outcome State Fault Refusal := inRange (.cvt gp cyc) <| .next (s.tryFire gp 2 cyc (isVec 0x08) noExtra)

/-- EXP (R163). -/
def execExp (gp cyc : Nat) (s : State) : Host.Outcome State Fault Refusal := inRange (.exp gp cyc) <| .next (s.tryFire gp 2 cyc (isVec 0x09) noExtra)

/-- LOG (R163). -/
def execLog (gp cyc : Nat) (s : State) : Host.Outcome State Fault Refusal := inRange (.log gp cyc) <| .next (s.tryFire gp 2 cyc (isVec 0x0A) noExtra)

/-- RSQRT (R163). -/
def execRsqrt (gp cyc : Nat) (s : State) : Host.Outcome State Fault Refusal := inRange (.rsqrt gp cyc) <| .next (s.tryFire gp 2 cyc (isVec 0x0B) noExtra)

/-- SIGMOID (R163). -/
def execSigmoid (gp cyc : Nat) (s : State) : Host.Outcome State Fault Refusal := inRange (.sigmoid gp cyc) <| .next (s.tryFire gp 2 cyc (isVec 0x0C) noExtra)

/-- ERF (R163). -/
def execErf (gp cyc : Nat) (s : State) : Host.Outcome State Fault Refusal := inRange (.erf gp cyc) <| .next (s.tryFire gp 2 cyc (isVec 0x0D) noExtra)

/-- NORM (R164). -/
def execNorm (gp cyc : Nat) (s : State) : Host.Outcome State Fault Refusal := inRange (.norm gp cyc) <| .next (s.tryFire gp 2 cyc (isVec 0x0E) noExtra)

/-- CMP (R167). -/
def execCmp (gp cyc : Nat) (s : State) : Host.Outcome State Fault Refusal := inRange (.cmp gp cyc) <| .next (s.tryFire gp 2 cyc (isVec 0x0F) noExtra)

/-- RRED (R168). -/
def execRred (gp cyc : Nat) (s : State) : Host.Outcome State Fault Refusal := inRange (.rred gp cyc) <| .next (s.tryFire gp 2 cyc (isVec 0x10) noExtra)

/-- CRED (R168). -/
def execCred (gp cyc : Nat) (s : State) : Host.Outcome State Fault Refusal := inRange (.cred gp cyc) <| .next (s.tryFire gp 2 cyc (isVec 0x11) noExtra)

/-- TOPK (R169). -/
def execTopk (gp cyc : Nat) (s : State) : Host.Outcome State Fault Refusal := inRange (.topk gp cyc) <| .next (s.tryFire gp 2 cyc (isVec 0x12) noExtra)

/-- SAMPLE (R170). -/
def execSample (gp cyc : Nat) (s : State) : Host.Outcome State Fault Refusal := inRange (.sample gp cyc) <| .next (s.tryFire gp 2 cyc (isVec 0x13) noExtra)

/-- VERIFY (R171). -/
def execVerify (gp cyc : Nat) (s : State) : Host.Outcome State Fault Refusal := inRange (.verify gp cyc) <| .next (s.tryFire gp 2 cyc (isVec 0x14) noExtra)

/-- SCAN (R173, R174). -/
def execScan (gp cyc : Nat) (s : State) : Host.Outcome State Fault Refusal := inRange (.scan gp cyc) <| .next (s.tryFire gp 2 cyc (isVec 0x15) noExtra)

/-- SMAXD (R172, R174). -/
def execSmaxd (gp cyc : Nat) (s : State) : Host.Outcome State Fault Refusal := inRange (.smaxd gp cyc) <| .next (s.tryFire gp 2 cyc (isVec 0x16) noExtra)

end Sys2Proof.Machine
end

