-- ==== Sys2Proof/Machine/Dispatch.lean ====
section
/-! DEFINITION. One arm for each command: a direct call of its meaning. -/

namespace Sys2Proof.Machine

def exec (i : Instr) (s : State) : Host.Outcome State Fault Refusal :=
  match i with
  | .registerWrite ag addr wide val => Sys2Proof.Machine.execRegisterWrite ag addr wide val s
  | .repWindowBoundary region ctrl t => Sys2Proof.Machine.execRepWindowBoundary region ctrl t s
  | .strokeBoundary => Sys2Proof.Machine.execStrokeBoundary s
  | .seam body => Sys2Proof.Machine.execSeam body s
  | .commit ag => Sys2Proof.Machine.execCommit ag s
  | .commitAtWrite ag half val => Sys2Proof.Machine.execCommitAtWrite ag half val s
  | .strokeCountLoRead ag => Sys2Proof.Machine.execStrokeCountLoRead ag s
  | .strokeCountHiRead ag => Sys2Proof.Machine.execStrokeCountHiRead ag s
  | .strokeInEdge t16 => Sys2Proof.Machine.execStrokeInEdge t16 s
  | .strokeInLost t => Sys2Proof.Machine.execStrokeInLost t s
  | .girthSourceLost t => Sys2Proof.Machine.execGirthSourceLost t s
  | .seqReadEntry gp cyc => Sys2Proof.Machine.execSeqReadEntry gp cyc s
  | .repeatOp gp cyc => Sys2Proof.Machine.execRepeat gp cyc s
  | .endOp gp cyc => Sys2Proof.Machine.execEnd gp cyc s
  | .waitOp gp unit cyc => Sys2Proof.Machine.execWait gp unit cyc s
  | .opRetire gp unit cyc => Sys2Proof.Machine.execOpRetire gp unit cyc s
  | .tileComplete gp tile cyc => Sys2Proof.Machine.execTileComplete gp tile cyc s
  | .feedLoad gp cyc => Sys2Proof.Machine.execFeedLoad gp cyc s
  | .feedDescriptorIssue gp => Sys2Proof.Machine.execFeedDescriptorIssue gp s
  | .loadAct gp cyc => Sys2Proof.Machine.execLoadAct gp cyc s
  | .acc gp cyc => Sys2Proof.Machine.execAcc gp cyc s
  | .drain gp cyc => Sys2Proof.Machine.execDrain gp cyc s
  | .loadTile gp cyc => Sys2Proof.Machine.execLoadTile gp cyc s
  | .vecAdd gp cyc => Sys2Proof.Machine.execVecAdd gp cyc s
  | .vecSub gp cyc => Sys2Proof.Machine.execVecSub gp cyc s
  | .vecMul gp cyc => Sys2Proof.Machine.execVecMul gp cyc s
  | .vecFma gp cyc => Sys2Proof.Machine.execVecFma gp cyc s
  | .vecMax gp cyc => Sys2Proof.Machine.execVecMax gp cyc s
  | .vecMin gp cyc => Sys2Proof.Machine.execVecMin gp cyc s
  | .vecMov gp cyc => Sys2Proof.Machine.execVecMov gp cyc s
  | .cvt gp cyc => Sys2Proof.Machine.execCvt gp cyc s
  | .exp gp cyc => Sys2Proof.Machine.execExp gp cyc s
  | .log gp cyc => Sys2Proof.Machine.execLog gp cyc s
  | .rsqrt gp cyc => Sys2Proof.Machine.execRsqrt gp cyc s
  | .sigmoid gp cyc => Sys2Proof.Machine.execSigmoid gp cyc s
  | .erf gp cyc => Sys2Proof.Machine.execErf gp cyc s
  | .norm gp cyc => Sys2Proof.Machine.execNorm gp cyc s
  | .cmp gp cyc => Sys2Proof.Machine.execCmp gp cyc s
  | .rred gp cyc => Sys2Proof.Machine.execRred gp cyc s
  | .cred gp cyc => Sys2Proof.Machine.execCred gp cyc s
  | .topk gp cyc => Sys2Proof.Machine.execTopk gp cyc s
  | .sample gp cyc => Sys2Proof.Machine.execSample gp cyc s
  | .verify gp cyc => Sys2Proof.Machine.execVerify gp cyc s
  | .scan gp cyc => Sys2Proof.Machine.execScan gp cyc s
  | .smaxd gp cyc => Sys2Proof.Machine.execSmaxd gp cyc s
  | .switchOp gp cyc => Sys2Proof.Machine.execSwitch gp cyc s
  | .mergeOp gp cyc => Sys2Proof.Machine.execMerge gp cyc s
  | .send gp cyc => Sys2Proof.Machine.execSend gp cyc s
  | .tsend gp cyc => Sys2Proof.Machine.execTsend gp cyc s
  | .arm gp cyc => Sys2Proof.Machine.execArm gp cyc s
  | .disarm gp cyc => Sys2Proof.Machine.execDisarm gp cyc s
  | .st gp cyc => Sys2Proof.Machine.execSt gp cyc s
  | .stMem gp cyc => Sys2Proof.Machine.execStMem gp cyc s
  | .stRing gp cyc => Sys2Proof.Machine.execStRing gp cyc s
  | .syncAdd gp cyc => Sys2Proof.Machine.execSyncAdd gp cyc s
  | .waitb gp cyc => Sys2Proof.Machine.execWaitb gp cyc s
  | .tokenOp gp cyc => Sys2Proof.Machine.execToken gp cyc s
  | .emitOp gp cyc => Sys2Proof.Machine.execEmit gp cyc s
  | .armb gp cyc => Sys2Proof.Machine.execArmb gp cyc s
  | .outboundPacketDepart gp cyc => Sys2Proof.Machine.execOutboundPacketDepart gp cyc s
  | .ringWrite n cyc => Sys2Proof.Machine.execRingWrite n cyc s
  | .landingBufferDrain gp cyc => Sys2Proof.Machine.execLandingBufferDrain gp cyc s
  | .readReq n => Sys2Proof.Machine.execReadReq n s
  | .readRsp n cyc => Sys2Proof.Machine.execReadRsp n cyc s
  | .memWrite n waited t => Sys2Proof.Machine.execMemWrite n waited t s
  | .buckleAdd n t => Sys2Proof.Machine.execBuckleAdd n t s
  | .buckleRegWrite ag idx target val => Sys2Proof.Machine.execBuckleRegWrite ag idx target val s
  | .buckleTimeout idx => Sys2Proof.Machine.execBuckleTimeout idx s
  | .sliceAccess n waited err t => Sys2Proof.Machine.execSliceAccess n waited err t s
  | .mcRequest mc n served err t => Sys2Proof.Machine.execMcRequest mc n served err t s
  | .eccWriteback mc => Sys2Proof.Machine.execEccWriteback mc s
  | .refresh mc rate bank => Sys2Proof.Machine.execRefresh mc rate bank s
  | .patrolScrub mc addr err t => Sys2Proof.Machine.execPatrolScrub mc addr err t s
  | .clearingScrub region page => Sys2Proof.Machine.execClearingScrub region page s
  | .hot mc rank rate above t => Sys2Proof.Machine.execHot mc rank rate above t s
  | .ownerTableWrite ag region word val => Sys2Proof.Machine.execOwnerTableWrite ag region word val s
  | .broadcastGrant blk held => Sys2Proof.Machine.execBroadcastGrant blk held s
  | .packetHop n err t => Sys2Proof.Machine.execPacketHop n err t s
  | .fabricRoute n t => Sys2Proof.Machine.execFabricRoute n t s
  | .linkPacketRx port pkt trailer fec through t => Sys2Proof.Machine.execLinkPacketRx port pkt trailer fec through t s
  | .ack port block t => Sys2Proof.Machine.execAck port block t s
  | .nak port block t => Sys2Proof.Machine.execNak port block t s
  | .credit port block t => Sys2Proof.Machine.execCredit port block t s
  | .linkAckTimer port => Sys2Proof.Machine.execLinkAckTimer port s
  | .creditTimer port => Sys2Proof.Machine.execCreditTimer port s
  | .replayTimeout port t => Sys2Proof.Machine.execReplayTimeout port t s
  | .fabRetrain port res quals again t => Sys2Proof.Machine.execFabRetrain port res quals again t s
  | .peerTraining port res t => Sys2Proof.Machine.execPeerTraining port res t s
  | .laneLoss port lanes cut res t => Sys2Proof.Machine.execLaneLoss port lanes cut res t s
  | .fecRetrainTrigger port cut res t => Sys2Proof.Machine.execFecRetrainTrigger port cut res t s
  | .controlBlockTimeout port t => Sys2Proof.Machine.execControlBlockTimeout port t s
  | .retrainTimeout port res t => Sys2Proof.Machine.execRetrainTimeout port res t s
  | .linkDown port cause good t => Sys2Proof.Machine.execLinkDown port cause good t s
  | .fabIdWrite ag val => Sys2Proof.Machine.execFabIdWrite ag val s
  | .torusDimWrite ag val => Sys2Proof.Machine.execTorusDimWrite ag val s
  | .tree n t => Sys2Proof.Machine.execTree n t s
  | .keyWaitResume n t => Sys2Proof.Machine.execKeyWaitResume n t s
  | .treeNotice n t => Sys2Proof.Machine.execTreeNotice n t s
  | .epCtlArm ag val => Sys2Proof.Machine.execEpCtlArm ag val s
  | .epochFlip t => Sys2Proof.Machine.execEpochFlip t s
  | .epochRetire t => Sys2Proof.Machine.execEpochRetire t s
  | .girth n => Sys2Proof.Machine.execGirth n s
  | .barrierEntryWrite ag g gen val => Sys2Proof.Machine.execBarrierEntryWrite ag g gen val s
  | .timeSync port block t16 => Sys2Proof.Machine.execTimeSync port block t16 s
  | .timeReq port block t16 => Sys2Proof.Machine.execTimeReq port block t16 s
  | .timeResp port block t16 => Sys2Proof.Machine.execTimeResp port block t16 s
  | .patLoadGo ag gl val => Sys2Proof.Machine.execPatLoadGo ag gl val s
  | .patLoadAbort ag gl => Sys2Proof.Machine.execPatLoadAbort ag gl s
  | .patLoadRow gp cyc err t => Sys2Proof.Machine.execPatLoadRow gp cyc err t s
  | .dbgSelGo ag gp val => Sys2Proof.Machine.execDbgSelGo ag gp val s
  | .dispInfoClear ag gl => Sys2Proof.Machine.execDispInfoClear ag gl s
  | .zeroisationComplete unit t => Sys2Proof.Machine.execZeroisationComplete unit t s
  | .entropyHealthFail region t => Sys2Proof.Machine.execEntropyHealthFail region t s
  | .assaySegmentStart gp cyc rows tile => Sys2Proof.Machine.execAssaySegmentStart gp cyc rows tile s
  | .assaySegmentEnd gp misr t => Sys2Proof.Machine.execAssaySegmentEnd gp misr t s
  | .assayOverdue gp t => Sys2Proof.Machine.execAssayOverdue gp t s
  | .assayTurnYield region => Sys2Proof.Machine.execAssayTurnYield region s
  | .asyTgtGo ag val => Sys2Proof.Machine.execAsyTgtGo ag val s
  | .targetedAssayDone t => Sys2Proof.Machine.execTargetedAssayDone t s
  | .heal gp t => Sys2Proof.Machine.execHeal gp t s
  | .healCfgTimeout gp => Sys2Proof.Machine.execHealCfgTimeout gp s
  | .pwrEnAssert env => Sys2Proof.Machine.execPwrEnAssert env s
  | .bringupStepTimeout env => Sys2Proof.Machine.execBringupStepTimeout env s
  | .shutdown ag bist => Sys2Proof.Machine.execShutdown ag bist s
  | .warm ag env => Sys2Proof.Machine.execWarm ag env s
  | .perstAssert env t => Sys2Proof.Machine.execPerstAssert env t s
  | .perstRelease q => Sys2Proof.Machine.execPerstRelease q s
  | .aonThermalSample temp => Sys2Proof.Machine.execAonThermalSample temp s
  | .contextReset ag ctx dump env => Sys2Proof.Machine.execContextReset ag ctx dump env s
  | .engineReset ag gl dump env => Sys2Proof.Machine.execEngineReset ag gl dump env s
  | .partitionReset ag ctx dump env => Sys2Proof.Machine.execPartitionReset ag ctx dump env s
  | .chipComputeReset ag dump env => Sys2Proof.Machine.execChipComputeReset ag dump env s
  | .powerCycle ag dump env => Sys2Proof.Machine.execPowerCycle ag dump env s
  | .resetEscalated n us env => Sys2Proof.Machine.execResetEscalated n us env s
  | .heartbeat received => Sys2Proof.Machine.execHeartbeat received s
  | .hearthTakeover t => Sys2Proof.Machine.execHearthTakeover t s
  | .aonWatchdog => Sys2Proof.Machine.execAonWatchdog s
  | .dumpCtlGo ag val silent => Sys2Proof.Machine.execDumpCtlGo ag val silent s
  | .dumpReadTimeout addr => Sys2Proof.Machine.execDumpReadTimeout addr s
  | .dumpComplete => Sys2Proof.Machine.execDumpComplete s
  | .dumpChunkSend => Sys2Proof.Machine.execDumpChunkSend s
  | .dumpResend ag val => Sys2Proof.Machine.execDumpResend ag val s
  | .quexonFlitRx p header slots => Sys2Proof.Machine.execQuexonFlitRx p header slots s
  | .qReplayTimeout p => Sys2Proof.Machine.execQReplayTimeout p s
  | .qRetrain p res t => Sys2Proof.Machine.execQRetrain p res t s
  | .qLinkLoss p lanes res t => Sys2Proof.Machine.execQLinkLoss p lanes res t s
  | .quexonLinkDown p cause t => Sys2Proof.Machine.execQuexonLinkDown p cause t s
  | .snpInv p addr tag => Sys2Proof.Machine.execSnpInv p addr tag s
  | .snpData p addr tag => Sys2Proof.Machine.execSnpData p addr tag s
  | .memRd p addr tag err t => Sys2Proof.Machine.execMemRd p addr tag err t s
  | .memWr p addr tag err t line => Sys2Proof.Machine.execMemWr p addr tag err t line s
  | .memWrPtl p addr tag err t mask line => Sys2Proof.Machine.execMemWrPtl p addr tag err t mask line s
  | .mmioRd p addr size tag => Sys2Proof.Machine.execMmioRd p addr size tag s
  | .mmioWr p addr size tag val => Sys2Proof.Machine.execMmioWr p addr size tag val s
  | .cmpData p tag grant status line => Sys2Proof.Machine.execCmpData p tag grant status line s
  | .hitchClaim ag n => Sys2Proof.Machine.execHitchClaim ag n s
  | .hitchRelease ag n val => Sys2Proof.Machine.execHitchRelease ag n val s
  | .partitionEntryWrite ag region word val => Sys2Proof.Machine.execPartitionEntryWrite ag region word val s
  | .slotCut cyc => Sys2Proof.Machine.execSlotCut cyc s
  | .doneWrite ctx => Sys2Proof.Machine.execDoneWrite ctx s
  | .vecMaskWrite ag p v val => Sys2Proof.Machine.execVecMaskWrite ag p v val s
  | .presentDebugToken ag o => Sys2Proof.Machine.execPresentDebugToken ag o s
  | .presentLifecycle ag o => Sys2Proof.Machine.execPresentLifecycle ag o s
  | .presentOwnerKey ag o => Sys2Proof.Machine.execPresentOwnerKey ag o s
  | .presentRevoke ag o => Sys2Proof.Machine.execPresentRevoke ag o s
  | .close ag => Sys2Proof.Machine.execClose ag s
  | .spdmRequest mailbox msg => Sys2Proof.Machine.execSpdmRequest mailbox msg s
  | .getMeasurements mailbox index => Sys2Proof.Machine.execGetMeasurements mailbox index s
  | .debugSessionExpire => Sys2Proof.Machine.execDebugSessionExpire s
  | .halt ag gp => Sys2Proof.Machine.execHalt ag gp s
  | .runCore ag gp => Sys2Proof.Machine.execRunCore ag gp s
  | .stepCore ag gp => Sys2Proof.Machine.execStepCore ag gp s
  | .jtagBypass trst tdi => Sys2Proof.Machine.execJtagBypass trst tdi s
  | .jtagIdcode trst => Sys2Proof.Machine.execJtagIdcode trst s
  | .jtagSamplePreload trst tdi => Sys2Proof.Machine.execJtagSamplePreload trst tdi s
  | .jtagExtest scan trst tdi => Sys2Proof.Machine.execJtagExtest scan trst tdi s
  | .pwrCtlRun ag target => Sys2Proof.Machine.execPwrCtlRun ag target s
  | .pwrCtlI1 ag target => Sys2Proof.Machine.execPwrCtlI1 ag target s
  | .pwrCtlI2 ag target => Sys2Proof.Machine.execPwrCtlI2 ag target s
  | .i2ExitDone => Sys2Proof.Machine.execI2ExitDone s
  | .powerSample watts mv i10ma tj16 => Sys2Proof.Machine.execPowerSample watts mv i10ma tj16 s
  | .thermalThrottle tj16 region t => Sys2Proof.Machine.execThermalThrottle tj16 region t s
  | .thermalTrip tj16 region t => Sys2Proof.Machine.execThermalTrip tj16 region t s
  | .powerBrakeAssert tToBoundary cyc t => Sys2Proof.Machine.execPowerBrakeAssert tToBoundary cyc t s
  | .powerBrakeRelease t => Sys2Proof.Machine.execPowerBrakeRelease t s
  | .refclkLost gap edges t => Sys2Proof.Machine.execRefclkLost gap edges t s
  | .refPpmWindow ppm t => Sys2Proof.Machine.execRefPpmWindow ppm t s
  | .clkObsSelWrite ag val => Sys2Proof.Machine.execClkObsSelWrite ag val s
  | .setdasa static addr => Sys2Proof.Machine.execSetdasa static addr s
  | .entdaa addr => Sys2Proof.Machine.execEntdaa addr s
  | .setEndpointId eid => Sys2Proof.Machine.execSetEndpointId eid s
  | .getEndpointId => Sys2Proof.Machine.execGetEndpointId s
  | .getMctpVersionSupport => Sys2Proof.Machine.execGetMctpVersionSupport s
  | .getMessageTypeSupport => Sys2Proof.Machine.execGetMessageTypeSupport s
  | .getPdr handle => Sys2Proof.Machine.execGetPdr handle s
  | .sensorRead id => Sys2Proof.Machine.execSensorRead id s
  | .requestUpdate => Sys2Proof.Machine.execRequestUpdate s
  | .passComponentTable comps => Sys2Proof.Machine.execPassComponentTable comps s
  | .updateComponent comp => Sys2Proof.Machine.execUpdateComponent comp s
  | .requestFirmwareData last img env => Sys2Proof.Machine.execRequestFirmwareData last img env s
  | .activateFirmware => Sys2Proof.Machine.execActivateFirmware s
  | .eventRecord n => Sys2Proof.Machine.execEventRecord n s
  | .eventDatagramSend aged => Sys2Proof.Machine.execEventDatagramSend aged s
  | .idleDatagram => Sys2Proof.Machine.execIdleDatagram s
  | .arpRequest ip => Sys2Proof.Machine.execArpRequest ip s
  | .alertRelease ag => Sys2Proof.Machine.execAlertRelease ag s
  | .pwrEnDeassert => Sys2Proof.Machine.execPwrEnDeassert s
  | .mainPowerFault f => Sys2Proof.Machine.execMainPowerFault f s
  | .auxValid slot => Sys2Proof.Machine.execAuxValid slot s
  | .auxLoss => Sys2Proof.Machine.execAuxLoss s
  | .mainPowerApplied env => Sys2Proof.Machine.execMainPowerApplied env s
  | .quexonCmp p tag status => Sys2Proof.Machine.execQuexonCmp p tag status s
  | .mgmtLinkUp negotiated => Sys2Proof.Machine.execMgmtLinkUp negotiated s
  | .mgmtLinkDown => Sys2Proof.Machine.execMgmtLinkDown s
  | .crystalStops => Sys2Proof.Machine.execCrystalStops s
  | .chatter => Sys2Proof.Machine.execChatter s
  | .pldmBaseRequest cmd => Sys2Proof.Machine.execPldmBaseRequest cmd s

end Sys2Proof.Machine
end

