-- ==== Sys2Proof/Safety.lean ====
section
/-! DEFINITION. The vocabulary of the statements: what a kept state is, and which core commands fire which operations. -/

namespace Sys2Proof.Machine

/-- What every step keeps: memory stays in its canonical form. -/
abbrev State.Inv (s : State) : Prop := Memory.wf s.mem = true

/-- The operations a core command fires. -/
def isWait (o : Op) : Bool := match o with | .wait _ => true | _ => false
def isLoad (o : Op) : Bool := match o with | .load _ => true | _ => false
def isLoadAct (o : Op) : Bool := match o with | .loadAct _ => true | _ => false
def isAcc (o : Op) : Bool := match o with | .acc _ => true | _ => false
def isDrain (o : Op) : Bool := match o with | .drain _ => true | _ => false
def isLoadTile (o : Op) : Bool := match o with | .loadTile _ => true | _ => false
def isSwitch (o : Op) : Bool := match o with | .switch _ => true | _ => false
def isMerge (o : Op) : Bool := match o with | .merge _ => true | _ => false
def isSend (o : Op) : Bool := match o with | .send _ => true | _ => false
def isTsend (o : Op) : Bool := match o with | .tsend _ => true | _ => false
def isArm (o : Op) : Bool := match o with | .arm _ _ _ _ => true | _ => false
def isDisarm (o : Op) : Bool := match o with | .disarm _ => true | _ => false
def isSt (o : Op) : Bool := match o with | .st _ _ _ _ => true | _ => false
def isStMem (o : Op) : Bool := match o with | .stMem _ => true | _ => false
def isStRing (o : Op) : Bool := match o with | .stRing _ => true | _ => false
def isSyncAdd (o : Op) : Bool := match o with | .syncAdd _ _ _ _ => true | _ => false
def isWaitb (o : Op) : Bool := match o with | .waitb _ => true | _ => false
def isToken (o : Op) : Bool := match o with | .token _ _ => true | _ => false
def isEmit (o : Op) : Bool := match o with | .emit _ _ => true | _ => false
def isArmb (o : Op) : Bool := match o with | .armb _ _ => true | _ => false

/-- Unit and operations of a command that fires the operation at the head of a unit's queue (R60, R88). -/
structure FireCmd where
  cmd : Instr
  gp : Nat
  unit : Nat
  cyc : Nat
  mine : Op → Bool

/-- The firing commands of a core at a cycle. -/
def fireCmds (gp cyc : Nat) : List FireCmd :=
  [⟨.feedLoad gp cyc, gp, 0, cyc, isLoad⟩, ⟨.loadAct gp cyc, gp, 1, cyc, isLoadAct⟩, ⟨.acc gp cyc, gp, 1, cyc, isAcc⟩,
   ⟨.drain gp cyc, gp, 1, cyc, isDrain⟩, ⟨.loadTile gp cyc, gp, 1, cyc, isLoadTile⟩,
   ⟨.vecAdd gp cyc, gp, 2, cyc, isVec 0x01⟩, ⟨.vecSub gp cyc, gp, 2, cyc, isVec 0x02⟩, ⟨.vecMul gp cyc, gp, 2, cyc, isVec 0x03⟩,
   ⟨.vecFma gp cyc, gp, 2, cyc, isVec 0x04⟩, ⟨.vecMax gp cyc, gp, 2, cyc, isVec 0x05⟩, ⟨.vecMin gp cyc, gp, 2, cyc, isVec 0x06⟩,
   ⟨.vecMov gp cyc, gp, 2, cyc, isVec 0x07⟩, ⟨.cvt gp cyc, gp, 2, cyc, isVec 0x08⟩, ⟨.exp gp cyc, gp, 2, cyc, isVec 0x09⟩,
   ⟨.log gp cyc, gp, 2, cyc, isVec 0x0A⟩, ⟨.rsqrt gp cyc, gp, 2, cyc, isVec 0x0B⟩, ⟨.sigmoid gp cyc, gp, 2, cyc, isVec 0x0C⟩,
   ⟨.erf gp cyc, gp, 2, cyc, isVec 0x0D⟩, ⟨.norm gp cyc, gp, 2, cyc, isVec 0x0E⟩, ⟨.cmp gp cyc, gp, 2, cyc, isVec 0x0F⟩,
   ⟨.rred gp cyc, gp, 2, cyc, isVec 0x10⟩, ⟨.cred gp cyc, gp, 2, cyc, isVec 0x11⟩, ⟨.topk gp cyc, gp, 2, cyc, isVec 0x12⟩,
   ⟨.sample gp cyc, gp, 2, cyc, isVec 0x13⟩, ⟨.verify gp cyc, gp, 2, cyc, isVec 0x14⟩, ⟨.scan gp cyc, gp, 2, cyc, isVec 0x15⟩,
   ⟨.smaxd gp cyc, gp, 2, cyc, isVec 0x16⟩, ⟨.switchOp gp cyc, gp, 3, cyc, isSwitch⟩, ⟨.mergeOp gp cyc, gp, 3, cyc, isMerge⟩,
   ⟨.send gp cyc, gp, 4, cyc, isSend⟩, ⟨.tsend gp cyc, gp, 4, cyc, isTsend⟩, ⟨.arm gp cyc, gp, 5, cyc, isArm⟩,
   ⟨.disarm gp cyc, gp, 5, cyc, isDisarm⟩, ⟨.st gp cyc, gp, 6, cyc, isSt⟩, ⟨.stMem gp cyc, gp, 6, cyc, isStMem⟩,
   ⟨.stRing gp cyc, gp, 6, cyc, isStRing⟩, ⟨.syncAdd gp cyc, gp, 7, cyc, isSyncAdd⟩, ⟨.waitb gp cyc, gp, 7, cyc, isWaitb⟩,
   ⟨.tokenOp gp cyc, gp, 7, cyc, isToken⟩, ⟨.emitOp gp cyc, gp, 7, cyc, isEmit⟩, ⟨.armb gp cyc, gp, 7, cyc, isArmb⟩]
  ++ (List.range 8).map (fun u => ⟨.waitOp gp u cyc, gp, u, cyc, isWait⟩)

/-- The head operation of a unit is one that a command fires, and the unit is not reading for an earlier one (R60). -/
abbrev State.headIs (s : State) (f : FireCmd) (q : QEnt) (rest : List QEnt) (op : Op) : Prop :=
  (s.core f.gp).queue f.unit = q :: rest ∧ decodeEntry (f.gp / 80) q.ent = some op ∧ f.mine op = true
    ∧ (s.core f.gp).unitBusy f.unit f.cyc = false

/-- Nothing keeps the head operation from firing (R68), and neither it nor the next entry halts the core (R396). -/
abbrev State.mayFire (s : State) (f : FireCmd) (q : QEnt) (rest : List QEnt) (op : Op) : Prop :=
  s.whys f.gp f.unit f.cyc op = [] ∧ (s.dbg = none ∨ ∀ r ∈ (q :: rest).take 2, ebits r.ent 119 119 = 0)

/-- The sequencer reads an entry in this cycle, in a core that has come to it: the core is on and not halted, reading goes on, the cycle is
one of its reads and has had none yet, and entries are left (R91, R92, R94). -/
abbrev State.seqReads (s : State) (gp cyc : Nat) : Prop :=
  s.coreOn gp = true ∧ (s.core gp).halted = false ∧ (s.core gp).seq.reading = true
    ∧ s.seqOpen gp cyc = true ∧ (s.core gp).seq.readAt.getD 0 < s.seqCycle cyc ∧ (s.core gp).seq.pos ≠ 4096

/-- Rows, DOFF, ADDR and LAST of an operation that fills the outbound buffer (R239); ADDR moves on only for a store to memory. -/
def outOf (op : Op) : Option (Nat × Nat × Nat × Bool) :=
  match op with
  | .send a => some (a.rows, a.doff, 0, a.last)
  | .stRing a => some (a.rows, a.doff, 0, a.last)
  | .tsend a => some (a.rows, a.doff, 0, a.last)
  | .stMem a => some (a.rows, 0, a.addr, false)
  | _ => none

/-- Nothing of a core's operations is still due: no access, no packet, no dispute or capture, no buckle owed, no window, no landing. -/
abbrev Core.settled (c : Core) : Prop :=
  c.acc = [] ∧ c.outb = [] ∧ c.watch.pendDisp = [] ∧ c.watch.captures = [] ∧ c.bklOut = [] ∧ c.arms = [] ∧ ∀ f ∈ c.flights, f.landing = false

/-- A core with no more to read or fire: nothing is queued, or it issues nothing (R54, R92, R396). -/
abbrev State.quiet (s : State) (gp : Nat) : Prop := (s.core gp).still = true ∨ s.issues gp = false

/-- Bytes of memory outside the rows of 128 bytes at the listed addresses. -/
abbrev outsideRows (addrs : List Nat) (b : Nat) : Prop := ∀ a ∈ addrs, ¬ (a ≤ b ∧ b < a + 128)

/-- A register write by an agent is admitted at an address (R345, R393, R399). -/
abbrev State.mayWrite (s : State) (ag : Agent) (a : Nat) : Prop := s.dark (locOf a) = false ∧ s.admits ag a true = true

/-- A message of the module has been given to a host port: it is out, or it waits there for credit (R361). -/
abbrev State.hasSent (t : State) (p : QPort) (m : QMsg) : Prop :=
  m ∈ (t.q p).waiting ∨ .quexon p m.op m.addr m.tag m.status (if m.grant = 4 then 0 else m.grant) m.data ∈ t.out

end Sys2Proof.Machine
end

