-- ==== Sys2Proof/Certificates/Slice0/Obligations.lean ====
section
/-! DEFINITION. The statements for the provers. Each is a `Prop` named `Obligations.<Name>`; its docstring names the rules of the
spec it rests on, or the log entry of a choice of the model. -/

open Sys2Proof Sys2Proof.Machine

/-! ### The machine and the core operations -/

/-- A step takes the command at the front of the queue, runs it with the queue's rest and answers its outcome; an empty queue
idles (log entry 35: the model's choice). -/
def Obligations.StepRunsFrontCommand : Prop :=
  (∀ (c : Instr) (rest : List Instr) (s : State), step { s with pending := c :: rest } = exec c { s with pending := rest })
    ∧ ∀ s : State, s.pending = [] → step s = .next s

/-- A command whose operands name no unit of the module stops the machine, whatever the state; every other command runs, but for
the five whose result R409 leaves undefined when NCLK is too slow for ACLK: a packet hop, a fabric route, a broadcast grant, a buckle
addition and a buckle time-out (log entry 36: the model's choice; R409 for the five). -/
def Obligations.OnlyIllFormedCommandsStop : Prop :=
  ∀ (c : Instr) (s : State),
    (c.wf = false → exec c s = .fault .noSuchUnit)
      ∧ (c.wf = true → (s.ratioOk = true ∨ ((∀ n err t, c ≠ .packetHop n err t) ∧ (∀ n t, c ≠ .fabricRoute n t)
          ∧ (∀ b h, c ≠ .broadcastGrant b h) ∧ (∀ n t, c ≠ .buckleAdd n t) ∧ ∀ i, c ≠ .buckleTimeout i)) → ∃ t, exec c s = .next t)
      ∧ (c.wf = true → s.ratioOk = false → (∃ t, exec c s = .next t) ∨ exec c s = .fault .clockRatio)

/-- Decoding the entry that encodes a decoded operation gives the operation back, with every operand at every value an entry
admits (R88, R89, R102). -/
def Obligations.PatternEntryRoundTrip : Prop :=
  ∀ (region : Nat) (e : BitVec 128) (op : Op), decodeEntry region e = some op → decodeEntry region (encodeEntry op) = some op

/-- Right after reset memory is in its canonical form and no command waits; registers hold the values of the spec's Reset columns:
STROKE_COUNT 0, STROKE_PERIOD 100,000, every port enabled in PORT_EN of both epochs, the escalation enables 1, NCLK 1,250, CUT 3,
and AN_EN 1. -/
def Obligations.ResetLeavesSpecValues : Prop :=
  State.reset.Inv ∧ State.reset.pending = [] ∧ State.reset.stroke = 0 ∧ State.reset.rd (genPg + 0x100) = 100000
    ∧ (∀ b, b < 2 → State.reset.rd (rtPg + 0x200 + 0x40 * b) = 0xFFF) ∧ State.reset.rd (rstPg + 0x10C) = 0x300
    ∧ State.reset.rd (clkPg + 0x100) = 1250 ∧ State.reset.rd (asyPg + 0x100) = 3 ∧ State.reset.rd (evtPg + 0x100) = 0x40000000

/-- Every step keeps memory in its canonical form, in every state that has it. -/
def Obligations.StepKeepsMemoryCanonical : Prop :=
  ∀ s t : State, s.Inv → step s = .next t → t.Inv

/-- No command touches the queue of waiting commands: a step removes exactly the one it runs. -/
def Obligations.StepConsumesOneCommand : Prop :=
  ∀ s t : State, step s = .next t → t.pending = s.pending.tail

/-- A core command fires the operation at the head of its unit's queue when nothing keeps it (R60, R68): the operation leaves the
queue (R91) and is in flight from that cycle, and memory stays as it was. ARMB has a statement of its own. -/
def Obligations.CoreCommandFiresHead : Prop :=
  ∀ (gp cyc : Nat) (f : FireCmd) (s : State) (q : QEnt) (rest : List QEnt) (op : Op),
    gp < 5120 → f ∈ fireCmds gp cyc → f.cmd ≠ .armb gp cyc →
    (s.reachUnit gp f.unit cyc).issues gp = true → (s.reachUnit gp f.unit cyc).headIs f q rest op → (s.reachUnit gp f.unit cyc).mayFire f q rest op →
    ∃ t, exec f.cmd s = .next t ∧ (t.core gp).queue f.unit = rest
      ∧ (∃ fl ∈ (t.core gp).flights, fl.id = ((s.reachUnit gp f.unit cyc).core gp).nextId ∧ fl.unit = f.unit ∧ fl.idx = q.idx
          ∧ fl.ent = q.ent ∧ fl.fired = cyc)
      ∧ t.mem = (s.reachUnit gp f.unit cyc).mem

/-- A WAIT or an operation of the vector engine, the steering unit, STORE ST or SYNC EMIT that fires changes its own core only:
every register, memory, every other core, the network, the fabric links and the barriers are as they were (R60, R61). -/
def Obligations.LocalFiringFrame : Prop :=
  ∀ (gp cyc : Nat) (f : FireCmd) (s : State) (q : QEnt) (rest : List QEnt) (op : Op),
    gp < 5120 → f ∈ fireCmds gp cyc → (f.unit = 2 ∨ f.unit = 3 ∨ isWait op = true ∨ isSt op = true ∨ isEmit op = true) →
    (s.reachUnit gp f.unit cyc).issues gp = true → (s.reachUnit gp f.unit cyc).headIs f q rest op → (s.reachUnit gp f.unit cyc).mayFire f q rest op →
    ∃ t, exec f.cmd s = .next t ∧ t.regs = (s.reachUnit gp f.unit cyc).regs ∧ (∀ a, t.memByte a = (s.reachUnit gp f.unit cyc).memByte a)
      ∧ (∀ g, g ≠ gp → t.core g = (s.reachUnit gp f.unit cyc).core g) ∧ t.net = (s.reachUnit gp f.unit cyc).net ∧ t.links = (s.reachUnit gp f.unit cyc).links
      ∧ t.barriers = (s.reachUnit gp f.unit cyc).barriers ∧ t.slices = (s.reachUnit gp f.unit cyc).slices ∧ t.recQ = (s.reachUnit gp f.unit cyc).recQ

/-- An operation that something keeps waits: it and what stands behind it stay in the queue (R60, R68), and nothing new is in
flight. A BRK entry at the head of its unit's queue halts the core without firing while a D2 session is open over its context and
BRK_EN is 1 (R88, R396): DBG_HSTAT shows HALTED, cause BRK and the entry's index, the lowest unit's where several are at a head (the
model's choice, log entry 58). -/
def Obligations.HeldOrHaltedOperationStays : Prop :=
  (∀ (gp cyc : Nat) (f : FireCmd) (s : State) (q : QEnt) (rest : List QEnt) (op : Op),
      gp < 5120 → f ∈ fireCmds gp cyc → (s.reachUnit gp f.unit cyc).headIs f q rest op → (s.reachUnit gp f.unit cyc).brkHalts gp q = false →
      (s.reachUnit gp f.unit cyc).whys gp f.unit cyc op ≠ [] →
      ∃ t, exec f.cmd s = .next t ∧ (t.core gp).queues = ((s.reachUnit gp f.unit cyc).core gp).queues
        ∧ (t.core gp).flights = ((s.reachUnit gp f.unit cyc).core gp).flights ∧ t.regs = (s.reachUnit gp f.unit cyc).regs ∧ t.mem = (s.reachUnit gp f.unit cyc).mem)
    ∧ (∀ (gp cyc : Nat) (f : FireCmd) (s : State) (q : QEnt) (rest : List QEnt), gp < 5120 → f ∈ fireCmds gp cyc →
      let s0 := s.reach gp cyc
      s0.issues gp = true → (s0.core gp).now ≤ cyc → (s0.core gp).queue f.unit = q :: rest → s0.brkHalts gp q = true →
      (∀ u h, u < f.unit → ((s0.core gp).queue u).head? = some h → s0.brkHalts gp h = false) →
      ∃ t, exec f.cmd s = .next t ∧ (t.core gp).halted = true
        ∧ t.rd (corePg gp + 0x1304) = BitVec.ofNat 32 (2 ^ 31 + 1 * 2 ^ 29 + q.idx))

/-- LOAD_ACT writes its format and scale to ACT_FMT in the cycle it fires, and no other register (R115). ACC, DRAIN and LOAD_TILE
put their tile in the state of R106, which lasts through the end of the cycle the table gives. -/
def Obligations.TensorOpsSetTileAndFormat : Prop :=
  (∀ (gp cyc : Nat) (s : State) (q : QEnt) (rest : List QEnt) (a : LoadActArgs),
      gp < 5120 → (s.reachUnit gp 1 cyc).issues gp = true →
      (s.reachUnit gp 1 cyc).headIs ⟨.loadAct gp cyc, gp, 1, cyc, isLoadAct⟩ q rest (.loadAct a) →
      (s.reachUnit gp 1 cyc).mayFire ⟨.loadAct gp cyc, gp, 1, cyc, isLoadAct⟩ q rest (.loadAct a) →
      ∃ t, exec (.loadAct gp cyc) s = .next t ∧ t.rd (corePg gp + 0x26C) = BitVec.ofNat 32 (a.fmt * 2 ^ 8 + a.tscale)
        ∧ ∀ b, b ≠ corePg gp + 0x26C → t.rd b = (s.reachUnit gp 1 cyc).rd b)
    ∧ (∀ (gp cyc : Nat) (f : FireCmd) (s : State) (q : QEnt) (rest : List QEnt) (op : Op),
      gp < 5120 → f ∈ fireCmds gp cyc → f.unit = 1 →
      (s.reachUnit gp f.unit cyc).issues gp = true → (s.reachUnit gp f.unit cyc).headIs f q rest op → (s.reachUnit gp f.unit cyc).mayFire f q rest op →
      ∃ t, exec f.cmd s = .next t
        ∧ (∀ a, op = .acc a → ((t.core gp).tile a.tile).st = .accum
            ∧ ((t.core gp).tile a.tile).stTo = cyc + a.k * (s.reachUnit gp f.unit cyc).accCycles gp a - 1 + 24)
        ∧ (∀ a, op = .drain a → ((t.core gp).tile a.tile).st = .draining ∧ ((t.core gp).tile a.tile).stTo = cyc + drainRows a.ofmt + 3)
        ∧ (∀ a, op = .loadTile a → ((t.core gp).tile a.tile).st = .loading
            ∧ ((t.core gp).tile a.tile).stTo = cyc + (if a.sfmt = 0xB then 8 else 12) + 3))

/-- A ring with an arming accepts no operation that names it as its output, ARM included; a DISARM takes the arming away, and one
of a ring that has none changes no arming (R104, R105). -/
def Obligations.ArmingGuardsItsRing : Prop :=
  (∀ (s : State) (gp unit n : Nat) (outs : List OutPort) (o : OutPort), o.dst = .ring n → ((s.core gp).arm n).isSome = true →
      s.outWhy gp unit outs o = [4])
    ∧ ∀ (gp cyc n : Nat) (s : State) (q : QEnt) (rest : List QEnt),
        gp < 5120 → (s.reachUnit gp 5 cyc).issues gp = true →
        (s.reachUnit gp 5 cyc).headIs ⟨.disarm gp cyc, gp, 5, cyc, isDisarm⟩ q rest (.disarm n) →
        (s.reachUnit gp 5 cyc).mayFire ⟨.disarm gp cyc, gp, 5, cyc, isDisarm⟩ q rest (.disarm n) →
        ∃ t, exec (.disarm gp cyc) s = .next t ∧ (t.core gp).arm n = none
          ∧ ∀ m, m ≠ n → (t.core gp).arm m = ((s.reachUnit gp 5 cyc).core gp).arm m

/-! ### Sequencer, retirement, outbound buffer -/

/-- The sequencer reads the next entry and places it at the tail of the queue of its unit (R91). While the queue of the unit an
entry names is full, the sequencer waits and reads no later entry (R91, R93). A REPEAT that breaks no rule of R94 makes the LEN
entries after it the body, to be read COUNT times; it takes one read cycle and queues nothing. END outside a body stops reading
for the stroke, and END has been read (R94, R95). An invalid entry stops reading for the stroke and its index is kept; operations
already queued stay queued (R96). -/
def Obligations.SequencerReadRules : Prop :=
  (∀ (gp cyc : Nat) (s : State) (op : Op), gp < 5120 →
      let s1 := s.seqReach gp cyc
      let c := s1.core gp
      let idx := c.seq.bank * 4096 + c.seq.pos
      let e := (c.pmemRead idx).1
      s1.seqReads gp cyc → (c.pmemRead idx).2.1 = false → decodeEntry (gp / 80) e = some op → (∀ l n, op ≠ .rep l n) → op ≠ .fin →
      c.queued (entUnit e) (s1.seqCycle cyc) < 16 →
      ∃ t, exec (.seqReadEntry gp cyc) s = .next t
        ∧ (t.core gp).queue (entUnit e) = c.queue (entUnit e) ++ [⟨idx, e⟩]
        ∧ (∀ u, u ≠ entUnit e → (t.core gp).queue u = c.queue u) ∧ (t.core gp).seq.last = idx
        ∧ (t.core gp).seq.readAt = some (s1.seqCycle cyc) ∧ t.mem = s1.mem)
    ∧ (∀ (gp cyc : Nat) (s : State) (op : Op), gp < 5120 →
      let s1 := s.seqReach gp cyc
      let c := s1.core gp
      let idx := c.seq.bank * 4096 + c.seq.pos
      let e := (c.pmemRead idx).1
      s1.seqReads gp cyc → (c.pmemRead idx).2.1 = false → decodeEntry (gp / 80) e = some op → (∀ l n, op ≠ .rep l n) → op ≠ .fin →
      16 ≤ c.queued (entUnit e) (s1.seqCycle cyc) →
      ∃ t, exec (.seqReadEntry gp cyc) s = .next t ∧ (t.core gp).queues = c.queues ∧ (t.core gp).seq.pos = c.seq.pos
        ∧ (t.core gp).seq.last = idx ∧ (t.core gp).seq.blocked = some (c.seq.blocked.getD (s1.seqCycle cyc)))
    ∧ ((∀ (gp cyc len count : Nat) (s : State), gp < 5120 →
      let s1 := s.seqReach gp cyc
      let c := s1.core gp
      let idx := c.seq.bank * 4096 + c.seq.pos
      s1.seqReads gp cyc → (c.pmemRead idx).2.1 = false → entOp (c.pmemRead idx).1 = 0x1E →
      decodeEntry (gp / 80) (c.pmemRead idx).1 = some (.rep len count) → c.seq.repOk len = true →
      ∃ t, exec (.repeatOp gp cyc) s = .next t ∧ (t.core gp).queues = c.queues ∧ (t.core gp).seq.pos = c.seq.pos + 1
        ∧ (t.core gp).seq.reps = ⟨c.seq.pos + 1, c.seq.pos + 1 + len, count - 1⟩ :: c.seq.reps
        ∧ (t.core gp).seq.readAt = some (s1.seqCycle cyc))
    ∧ ∀ (gp cyc : Nat) (s : State), gp < 5120 →
      let s1 := s.seqReach gp cyc
      let c := s1.core gp
      let idx := c.seq.bank * 4096 + c.seq.pos
      s1.seqReads gp cyc → (c.pmemRead idx).2.1 = false → entOp (c.pmemRead idx).1 = 0x1F →
      decodeEntry (gp / 80) (c.pmemRead idx).1 = some .fin → c.seq.reps = [] →
      ∃ t, exec (.endOp gp cyc) s = .next t ∧ (t.core gp).queues = c.queues ∧ (t.core gp).seq.reading = false
        ∧ (t.core gp).seq.endRead = true ∧ (t.core gp).seq.readAt = some (s1.seqCycle cyc))
    ∧ (∀ (gp cyc : Nat) (s : State), gp < 5120 →
      let s1 := s.seqReach gp cyc
      let c := s1.core gp
      let idx := c.seq.bank * 4096 + c.seq.pos
      s1.seqReads gp cyc → (c.pmemRead idx).2.1 = false → decodeEntry (gp / 80) (c.pmemRead idx).1 = none →
      ∃ t, exec (.seqReadEntry gp cyc) s = .next t ∧ (t.core gp).queues = c.queues ∧ (t.core gp).seq.reading = false
        ∧ (t.core gp).seq.bad = true ∧ (t.core gp).seq.badIdx = idx)

/-- In a core with nothing outstanding and nothing more to read or fire, exactly the operations whose retirement cycle has passed and that wait for no buckle
leave (R95), and a tile whose state lasts through the cycle becomes IDLE at its end (R106). -/
def Obligations.RetirementAndTileCompletion : Prop :=
  ∀ (gp cyc unit tile : Nat) (s : State), gp < 5120 → unit < 8 → tile < 2 → (s.core gp).settled → s.quiet gp →
    (∃ t, exec (.opRetire gp unit cyc) s = .next t
      ∧ (t.core gp).flights = (s.core gp).flights.filter (fun f => f.hold || decide (cyc < f.retire))
      ∧ (t.core gp).now = max (s.core gp).now (cyc + 1) ∧ t.regs = s.regs ∧ t.mem = s.mem)
    ∧ (((s.core gp).tile tile).stTo ≤ cyc → ∃ t, exec (.tileComplete gp tile cyc) s = .next t
      ∧ ((t.core gp).tile tile).st = .idle ∧ ((t.core gp).tile tile).elems = ((s.core gp).tile tile).elems
      ∧ ((t.core gp).tile tile).pass = ((s.core gp).tile tile).pass ∧ t.regs = s.regs ∧ t.mem = s.mem)

/-- At a grant, the oldest outbound packet with a row leaves its core (R72, R203): its header is in the package network at once, with its
destination and the number of its rows. When all its rows are there it leaves the buffer; one of which rows are still to come has
the port until they are there. While the port still carries rows of an earlier packet nothing leaves; what a core that is not granted
had in the buffer is discarded. -/
def Obligations.OutboundPacketLeaves : Prop :=
  ∀ (gp cyc : Nat) (s : State), gp < 5120 →
    let s0 := s.reach gp cyc
    (∀ (p : OutPkt) (rest : List OutPkt), s0.portShut gp = false → (s0.core gp).portBusy = false → (s0.core gp).outb = p :: rest →
      p.rows ≠ [] → p.left = false → (∀ x ∈ rest, x.id ≠ p.id) → (∀ q ∈ s0.net, q.src ≠ some (gp, p.id)) →
      ∃ t e, exec (.outboundPacketDepart gp cyc) s = .next t ∧ t.net = s0.net ++ [e] ∧ e.at_ = .core gp
        ∧ e.ctx = s0.coreCtx gp ∧ e.pkt.type = p.pkt.type ∧ e.pkt.dmod = p.pkt.dmod ∧ e.pkt.dcore = p.pkt.dcore ∧ e.pkt.seq = p.pkt.seq
        ∧ e.pkt.rows = p.need ∧ t.mem = s0.mem
        ∧ (p.rows.length = p.need → e.src = none ∧ (t.core gp).outb = rest ∧ (t.core gp).leaving = [(cyc, p.need)])
        ∧ (p.rows.length ≠ p.need → e.src = some (gp, p.id) ∧ (t.core gp).outb = { p with left := true, leftAt := cyc } :: rest
          ∧ t.regs = s0.regs))
      ∧ (s0.portShut gp = false → (s0.core gp).portBusy = true → exec (.outboundPacketDepart gp cyc) s = .next s0)
      ∧ (s0.portShut gp = true → (∀ p ∈ (s0.core gp).outb, p.left = false) → ∃ t, exec (.outboundPacketDepart gp cyc) s = .next t
        ∧ (t.core gp).outb = [] ∧ (t.core gp).leaving = [] ∧ t.net = s0.net ∧ t.regs = s0.regs ∧ t.mem = s0.mem)

/-- A SEND, ST_RING, ST_MEM or TSEND of n rows that fires puts ⌈n/32⌉ packets behind those of its core's outbound buffer: every one but
the last is to carry 32 rows, packet i carries DOFF + 32i, or ADDR + 4,096i for a store to memory, only the final one carries LAST, and
none has a row yet (R239). -/
def Obligations.OperationSplitsIntoPackets : Prop :=
  ∀ (gp cyc rows doff addr : Nat) (last : Bool) (f : FireCmd) (s : State) (q : QEnt) (rest : List QEnt) (op : Op),
    gp < 5120 → f ∈ fireCmds gp cyc → outOf op = some (rows, doff, addr, last) →
    (s.reachUnit gp f.unit cyc).issues gp = true → (s.reachUnit gp f.unit cyc).headIs f q rest op → (s.reachUnit gp f.unit cyc).mayFire f q rest op →
    ∃ t ps, exec f.cmd s = .next t ∧ (t.core gp).outb = ((s.reachUnit gp f.unit cyc).core gp).outb ++ ps
      ∧ ps.length = (rows + 31) / 32
      ∧ ∀ i p, ps[i]? = some p →
          p.need = (if i + 1 < ps.length then 32 else rows - 32 * i) ∧ p.pkt.rows = p.need
            ∧ p.pkt.addr = addr + (if isStMem op = true then 4096 * i else 0)
            ∧ p.pkt.doff = doff + (if isStMem op = true then 0 else 32 * i)
            ∧ p.pkt.last = (last && decide (i + 1 = ps.length)) ∧ p.rows = []

/-! ### Feed, landing, memory -/

/-- A descriptor granted at the crossbar port leaves the FEED queue: a remote LOAD of up to 32 rows whose rows may all be
requested sends one READ_REQ that names its slot, its rows and its address (R196, R239, R249). The outbound buffer comes first at the
port (R201); a core that is not granted loses what it had queued (R203). -/
def Obligations.FeedDescriptorIssues : Prop :=
  (∀ (gp m : Nat) (d : FeedDesc) (rest : List FeedDesc) (s : State), gp < 5120 → s.portShut gp = false → (s.core gp).outReady = false →
    (s.core gp).feedQ = d :: rest → d.module = some m → 0 < d.rows → d.rows ≤ 32 → d.next = 0 → d.rows ≤ s.feedSpan gp d →
    ∃ t e, exec (.feedDescriptorIssue gp) s = .next t ∧ (t.core gp).feedQ = rest ∧ t.net = s.net ++ [e] ∧ e.pkt.type = 3
      ∧ e.pkt.dmod = m ∧ e.pkt.rows = d.rows ∧ e.pkt.addr = d.addr % 2 ^ 43 ∧ e.pkt.tag = d.slot ∧ e.pkt.taggen = d.tagGen
      ∧ t.regs = s.regs ∧ t.mem = s.mem)
    ∧ (∀ (gp : Nat) (s : State), gp < 5120 → s.portShut gp = false → (s.core gp).outReady = true →
        exec (.feedDescriptorIssue gp) s = .next s)
    ∧ ∀ (gp : Nat) (s : State), gp < 5120 → s.portShut gp = true →
        ∃ t, exec (.feedDescriptorIssue gp) s = .next t ∧ (t.core gp).feedQ = [] ∧ t.net = s.net

/-- An arrived RING_WRITE that passes its flow check and belongs to the core's context lands its rows in the armed ring's window
from row DOFF on; one that the ring does not take is discarded and counted in RECV_DROP (R104, R245, R248). The oldest packet of
the landing buffer leaves it when its ring takes its rows; one whose ring has lost its arming is discarded and counted (R104), and so
is a TREE packet of a faulted tree (R259). -/
def Obligations.RingLandings : Prop :=
  (∀ (n cyc gp : Nat) (p : NetPkt) (ctx : Option Nat) (s s2 : State),
      s.arrival n [1, 5] = some p → p.pkt.type = 1 → p.coreOf = some gp →
      let s0 := s.reach gp cyc
      let s3 := s2.armAdvance gp p.pkt.dring
      s0.portDrops gp = false → (s0.core gp).landRows < 64 → s0.gen.seamDone = false →
      (s0.takeArrival n).flowCheck (gp / 80) p.pkt p.pkt.dcore (s0.cycleAt cyc) = (true, s2) → s2.inCtx p = (ctx, false) → s2.landCtxOk gp ctx = true →
      (s3.pktVerdict gp p.pkt = 0 → ∃ t a a', exec (.ringWrite n cyc) s = .next t ∧ t.arrived = s0.arrived.eraseIdx n
          ∧ (s3.core gp).arm p.pkt.dring = some a ∧ (t.core gp).arm p.pkt.dring = some a' ∧ a'.start = a.start
          ∧ a'.got = a.got ++ (List.range (pktRows p.pkt).length).map (p.pkt.doff + ·)
          ∧ (∃ f ∈ (t.core gp).flights, f.landing = true ∧ f.ringNo = p.pkt.dring ∧ f.rowVals = pktRows p.pkt) ∧ t.mem = s3.mem)
        ∧ (s3.pktVerdict gp p.pkt = 2 → ∃ t, exec (.ringWrite n cyc) s = .next t ∧ t.arrived = s0.arrived.eraseIdx n
          ∧ t.rf (corePg gp + 0x260) 31 0 = min (s3.rf (corePg gp + 0x260) 31 0 + 1) (2 ^ 32 - 1) ∧ t.cores = s3.cores ∧ t.mem = s3.mem))
    ∧ (∀ (gp cyc : Nat) (k : Packet) (rest : List Packet) (s : State), gp < 5120 →
      let s0 := s.reach gp cyc
      let s1 := s0.armAdvance gp k.dring
      (s0.core gp).landBuf = k :: rest → s0.gen.seamDone = false →
      (s0.treeDead k = true → ∃ t, exec (.landingBufferDrain gp cyc) s = .next t ∧ (t.core gp).landBuf = rest
          ∧ t.rf (rtPg + 0x13C) 31 16 = min (s1.rf (rtPg + 0x13C) 31 16 + 1) (2 ^ 16 - 1))
        ∧ (s0.treeDead k = false → s1.pktVerdict gp k = 0 → ∃ t, exec (.landingBufferDrain gp cyc) s = .next t ∧ (t.core gp).landBuf = rest
          ∧ ∃ f ∈ (t.core gp).flights, f.landing = true ∧ f.ringNo = k.dring ∧ f.rowVals = pktRows k)
        ∧ (s0.treeDead k = false → s1.pktVerdict gp k = 2 → ∃ t, exec (.landingBufferDrain gp cyc) s = .next t ∧ (t.core gp).landBuf = rest
          ∧ t.rf (corePg gp + 0x260) 31 0 = min (s1.rf (corePg gp + 0x260) 31 0 + 1) (2 ^ 32 - 1)))

/-- An arrived READ_REQ for one row of module DRAM opens a response of one row to its requester and asks the row's controller for
it (R186, R239, R249); one for a unit that a reset holds counts in RST_DROP and asks for nothing (R346). A READ_RSP of the module's own
memory lands at the rows its LOAD reserved; when its ring has begun a new generation its rows are discarded and counted in RING_STALE
(R149, R198), at a core that is being zeroised it is discarded and counted in RECV_DROP (R157), and at a port that is not granted, as a
fenced core's, it is discarded there and lands nothing (R203). -/
def Obligations.ReadRequestsAndResponses : Prop :=
  (∀ (n region off : Nat) (p : NetPkt) (ctx : Option Nat) (s : State), s.arrival n [3] = some p →
      (s.unitHeld p = true → exec (.readReq n) s = .next (s.takeArrival n).rstDrop)
      ∧ (s.unitHeld p = false → (s.takeArrival n).inCtx p = (ctx, false) → p.pkt.rows = 1 → p.pkt.addr < 2 ^ 43 → homeOf p.pkt.addr = .dram region off →
      ∃ t x r, exec (.readReq n) s = .next t ∧ t.arrived = s.arrived.eraseIdx n ∧ t.xfers = s.xfers ++ [x] ∧ t.reqs = s.reqs ++ [r]
        ∧ x.rows = 1 ∧ x.hdr.type = 4 ∧ x.hdr.dmod = p.pkt.smod ∧ x.hdr.dcore = p.pkt.score ∧ x.hdr.tag = p.pkt.tag
        ∧ r.xfer = x.id ∧ r.addr = p.pkt.addr ∧ r.ctx = ctx ∧ r.write = none ∧ t.mem = s.mem ∧ t.regs = s.regs))
    ∧ (∀ (n cyc gp ptr gen : Nat) (p : NetPkt) (s : State), s.arrival n [4] = some p → p.coreOf = some gp → isMcast p.pkt = false →
      p.pkt.land = some (ptr, gen) →
      let s0 := s.reach gp cyc
      (s0.portDrops gp = true → ∃ t, exec (.readRsp n cyc) s = .next t ∧ t.arrived = s0.arrived.eraseIdx n ∧ t.cores = s0.cores ∧ t.regs = s0.regs)
      ∧ (s0.portDrops gp = false → (s0.core gp).landRows < 64 → s0.gen.seamDone = false →
      (((s0.core gp).ring p.pkt.dring).gen = gen → (s0.core gp).zeroing = false → ∃ t, exec (.readRsp n cyc) s = .next t
          ∧ t.arrived = s0.arrived.eraseIdx n
          ∧ ∃ f ∈ (t.core gp).flights, f.landing = true ∧ f.ringNo = p.pkt.dring ∧ f.rowVals = pktRows p.pkt)
        ∧ ((s0.core gp).zeroing = true → ∃ t, exec (.readRsp n cyc) s = .next t ∧ t.arrived = s0.arrived.eraseIdx n
          ∧ t.rf (corePg gp + 0x260) 31 0 = min (s0.rf (corePg gp + 0x260) 31 0 + 1) (2 ^ 32 - 1) ∧ t.cores = s0.cores)
        ∧ (((s0.core gp).ring p.pkt.dring).gen ≠ gen → (s0.core gp).zeroing = false → ∃ t, exec (.readRsp n cyc) s = .next t ∧ t.arrived = s0.arrived.eraseIdx n
          ∧ t.rf (corePg gp + 0x27C) 31 0 = min (s0.rf (corePg gp + 0x27C) 31 0 + p.pkt.rows) (2 ^ 32 - 1) ∧ t.cores = s0.cores)))

/-- A MEM_WRITE of one DRAM row joins class 1 of the row's channel as one request that carries the row, and leaves memory as it is
(R188). Served there, as the row the controller serves next, a request that writes a row writes it when its context owns the page, and a
row of a page it does not own is not written (R183, R186); no byte outside the row changes. Whatever the packet, the MEM_WRITE command
itself leaves memory unchanged. -/
def Obligations.MemWriteWritesItsRows : Prop :=
  (∀ (n waited t0 region off : Nat) (p : NetPkt) (ctx : Option Nat) (s s2 : State), s.arrival n [2] = some p → s.unitHeld p = false →
    (s.takeArrival n).flowCheck (addrRegion p.pkt.addr) p.pkt 0xFFF (s.gen.base + 16 * t0) = (true, s2) → s2.inCtx p = (ctx, false) →
    p.pkt.rows = 1 → p.pkt.void = false → p.pkt.voidmask = 0 → p.pkt.addr < 2 ^ 43 → homeOf p.pkt.addr = .dram region off →
    ∃ t r w, exec (.memWrite n waited t0) s = .next t ∧ t.arrived = s.arrived.eraseIdx n ∧ t.reqs = s.reqs ++ [r] ∧ t.memWrs = s.memWrs ++ [w]
      ∧ r.addr = p.pkt.addr ∧ r.ctx = ctx ∧ r.write = some (some (p.pkt.payload.getD 0 0)) ∧ r.xfer = w.id ∧ w.pkt = p
      ∧ t.mem = s.mem ∧ t.dramBrand = s.dramBrand)
    ∧ (∀ (mc n served t0 region off : Nat) (r : RowReq) (row : Row) (w : MemWr) (s : State), mc < 128 → s.memHeld = false →
      s.nthReq (reqOfMc mc) n = some r → s.mcPick mc (s.gen.base + 16 * t0) = some r → r.addr < 2 ^ 43 → homeOf r.addr = .dram region off →
      r.write = some (some row) → s.memWrs = [w] → w.id = r.xfer → w.done.length + 1 < w.pkt.pkt.rows → (∀ x ∈ s.class2, x.1 ≠ mc) →
      ∃ t, exec (.mcRequest mc n served 0 t0) s = .next t ∧ t.reqs = (s.mcTake mc (s.gen.base + 16 * t0) r).reqs
        ∧ (s.pageOk region off r.ctx w.pkt.fabric = true → t.memRow r.addr = row
            ∧ ∀ b, (b < r.addr ∨ r.addr + 128 ≤ b) → t.memByte b = s.memByte b)
        ∧ (s.pageOk region off r.ctx w.pkt.fabric = false → ∀ b, t.memByte b = s.memByte b))
    ∧ ∀ (n waited t0 : Nat) (p : NetPkt) (s : State), s.arrival n [2] = some p →
        ∃ t, exec (.memWrite n waited t0) s = .next t ∧ t.mem = s.mem

/-- A row of DRAM that the controller serves next and its requester's context owns comes back as memory holds it, and one of another
owner comes back void, counted in FEED_DENY of a core that asked (R183, R186, R189); a row that is not the one served next waits
(R188), and one asked of a controller that a reset holds counts in RST_DROP and returns nothing (R346). A slice serves the row its owner
asks for when its port grants it, and answers any other requester with a void row, counted in the slice's page (R151); a row whose port is
not granted waits (R201), and one whose core's port has been shut is discarded (R203). The rows the two statements return are read without
errors. -/
def Obligations.UnitsServeRows : Prop :=
  (∀ (mc n served t0 region off : Nat) (r : RowReq) (x : Xfer) (s : State), mc < 128 → s.memHeld = false → s.nthReq (reqOfMc mc) n = some r →
      s.mcPick mc (s.gen.base + 16 * t0) = some r → r.write = none → (∀ y ∈ s.class2, y.1 ≠ mc) →
      homeOf r.addr = .dram region off → s.dramUpset = [] → s.xfers = [x] → x.id = r.xfer → x.got.length + 1 < x.rows →
      ∃ t x', exec (.mcRequest mc n served 0 t0) s = .next t ∧ t.reqs = (s.mcTake mc (s.gen.base + 16 * t0) r).reqs
        ∧ t.xfers = [x'] ∧ x'.id = x.id ∧ x'.hdr = x.hdr ∧ (∀ b, t.memByte b = s.memByte b)
        ∧ (s.pageOk region off r.ctx r.fabric = true →
            x'.got = x.got ++ [(r.idx, some (s.memRow (region * 2 ^ 34 + off)), none)] ∧ t.regs = s.regs)
        ∧ (s.pageOk region off r.ctx r.fabric = false → x' = { x with got := x.got ++ [(r.idx, none, none)] }
            ∧ ∀ gp, r.core = some gp → t.rf (corePg gp + 0x700) 31 0 = min (s.rf (corePg gp + 0x700) 31 0 + 1) (2 ^ 32 - 1)))
    ∧ (∀ (mc n served err t0 : Nat) (r : RowReq) (s : State), mc < 128 → err < 10 → s.nthReq (reqOfMc mc) n = some r →
      (s.memHeld = false → s.mcPick mc (s.gen.base + 16 * t0) ≠ some r → exec (.mcRequest mc n served err t0) s = .next s)
        ∧ (s.memHeld = true → ∃ t, exec (.mcRequest mc n served err t0) s = .next t ∧ t.reqs = s.reqs.erase r ∧ t.mem = s.mem
          ∧ t.rf (modPg 4 0 + 0x110) 31 0 = min (s.rf (modPg 4 0 + 0x110) 31 0 + 1) (2 ^ 32 - 1)))
    ∧ (∀ (n waited t0 sl row : Nat) (r : RowReq) (x : Xfer) (s : State), s.nthReq reqOfSlice n = some r → homeOf r.addr = .slice sl row →
      let won := s.xbarWins (sl / 8) (10 + sl % 8) (coreIn (sl / 8) r.core) (s.slicePktOut (sl / 8))
      (r.core.any s.portShut = true → ∃ t, exec (.sliceAccess n waited 0 t0) s = .next t ∧ t.reqs = s.reqs.erase r ∧ t.regs = s.regs
          ∧ t.slices = s.slices ∧ t.mem = s.mem ∧ ∀ y ∈ t.xfers, y.id ≠ r.xfer)
        ∧ (r.core.any s.portShut = false → s.held.contains (sl / 8) = false → won = false → exec (.sliceAccess n waited 0 t0) s = .next s)
        ∧ (r.core.any s.portShut = false → s.held.contains (sl / 8) = false → won = true → s.sliceUpset = [] → s.xfers = [x] → x.id = r.xfer →
          x.got.length + 1 < x.rows →
          ∃ t x', exec (.sliceAccess n waited 0 t0) s = .next t ∧ t.reqs = s.reqs.erase r ∧ t.slices = s.slices ∧ t.mem = s.mem
            ∧ t.xfers = [x'] ∧ x'.id = x.id ∧ x'.hdr = x.hdr
            ∧ (s.sliceOk sl r.ctx = true →
                x'.got = x.got ++ [(r.idx, some (Tbl.get 0 s.slices (sl * 4096 + row)), none)] ∧ t.regs = s.regs)
            ∧ (s.sliceOk sl r.ctx = false → x' = { x with got := x.got ++ [(r.idx, none, none)] }
                ∧ t.rf (slicePg sl + 0x104) 31 0 = min (s.rf (slicePg sl + 0x104) 31 0 + 1) (2 ^ 32 - 1))))

/-- In a slot that no higher class claims, the write-back of the first corrected burst clears its error and leaves memory and brands
alone; refresh closes the page of its bank and changes no data, and in self-refresh does nothing (R179); the patrol reads its next row with one corrected burst, queues that
burst for write-back and changes no data (R188, R193, R195). The clearing scrub zeroes every byte of the lowest SCRUB_PEND page,
leaves every other byte, and makes the page FREE, or RETIRED when a row of it has failed in service (R187, R195). None of the last
three takes a slot while a row of class 1 waits at its channel (R188). Ranks that report a refresh multiplier above 2× (R191): a
report is kept for its rank and for no other, and at s16 MC_STAT.HOT of a channel shows whether any rank of it reports so. -/
def Obligations.MemoryUpkeep : Prop :=
  (((∀ (mc key : Nat) (s : State), mc < 128 → s.nextBurst mc = some key →
       (s.mcIdle mc = true → dramClass (Tbl.get 0 s.dramUpset key).toNat = 1 →
         ∃ t, exec (.eccWriteback mc) s = .next t ∧ Tbl.get 0 t.dramUpset key = 0
           ∧ Tbl.get [] t.ceBursts mc = (Tbl.get [] s.ceBursts mc).filter (· ≠ key) ∧ t.mem = s.mem
           ∧ t.dramBrand = s.dramBrand ∧ t.regs = s.regs)
         ∧ (s.mcBusy mc = true → exec (.eccWriteback mc) s = .next s))
       ∧ (∀ (mc rate bank : Nat) (s : State), mc < 128 → rate < 8 → bank < 32 → (s.pwrState = 3 → exec (.refresh mc rate bank) s = .next s)
         ∧ (s.pwrState ≠ 3 → ∃ t, exec (.refresh mc rate bank) s = .next t ∧ t.mem = s.mem
         ∧ t.openPages = Tbl.erase s.openPages (mc * 32 + bank)
         ∧ t.dramUpset = s.dramUpset ∧ t.dramBrand = s.dramBrand ∧ t.regs = s.regs ∧ t.cores = s.cores))
       ∧ ∀ (mc addr t0 : Nat) (s : State), mc < 128 → addr < 2 ^ 33 → addr = Tbl.get 0 s.patrolAt mc →
         let off := offOf (mc % 2) addr
         let key := (mc / 2 * 2 ^ 34 + off) / 64
         (s.memHeld = false → s.rd (mcPg mc + 0x110) ≠ 0 → s.mcIdle mc = true → Tbl.get [] s.ceBursts mc = [] →
             dramClass (Tbl.get 0 s.dramUpset key).toNat = 1 → Tbl.get 0 s.dramUpset (key + 1) = 0 →
             ∃ t, exec (.patrolScrub mc addr 0 t0) s = .next t ∧ Tbl.get [] t.ceBursts mc = [key]
               ∧ Tbl.get 0 t.patrolAt mc = patrolNext addr ∧ t.mem = s.mem ∧ t.dramUpset = s.dramUpset)
           ∧ (s.mcBusy mc = true → exec (.patrolScrub mc addr 0 t0) s = .next s))
     ∧ ∀ (region page : Nat) (s : State), region < 64 → page < 7680 → s.pageState region page = 2 →
       (∀ p, p < page → s.pageState region p ≠ 2) → s.rd (rcPg region 0 + 0x114) ≠ 0 →
       (s.clearIdle region = true → ∃ t, exec (.clearingScrub region page) s = .next t
           ∧ (∀ b, region * 2 ^ 34 + page * 2 ^ 21 ≤ b → b < region * 2 ^ 34 + page * 2 ^ 21 + 2 ^ 21 → t.memByte b = 0)
           ∧ (∀ b, (b < region * 2 ^ 34 + page * 2 ^ 21 ∨ region * 2 ^ 34 + page * 2 ^ 21 + 2 ^ 21 ≤ b) → t.memByte b = s.memByte b)
           ∧ t.pageState region page = (if s.retirePend.contains (region, page) then 3 else 0))
         ∧ (s.mcBusy (2 * region) = true → exec (.clearingScrub region page) s = .next s))
    ∧ ((∀ (mc rank rate t0 : Nat) (above : Bool) (s : State), mc < 128 → rank < 2 → rate < 8 →
           ∃ t, exec (.hot mc rank rate above t0) s = .next t ∧ ((mc, rank) ∈ t.hotDevs ↔ above = true)
             ∧ (∀ d, d ≠ (mc, rank) → (d ∈ t.hotDevs ↔ d ∈ s.hotDevs)) ∧ t.rf (mcPg mc + 0x100) 29 29 = s.rf (mcPg mc + 0x100) 29 29
             ∧ t.mem = s.mem ∧ t.cores = s.cores)
         ∧ ∀ (mc : Nat) (s : State), mc < 128 → (∀ d ∈ s.hotDevs, d.1 < 128) →
             (s.publishMc.rf (mcPg mc + 0x100) 29 29 = 1 ↔ ∃ r, (mc, r) ∈ s.hotDevs))

/-- A write of an owner-table register changes the entries that R185 lets it change: one that awaits clearing keeps its value, a
write of SCRUB_PEND is ignored, a RETIRED entry changes during bring-up only, and every other entry takes the value written, its
reserved bit clear, but that a page with a failed row becomes RETIRED in place of FREE (R184, R185, R195). -/
def Obligations.OwnerTableWriteRules : Prop :=
  ∀ (ag : Agent) (region word i : Nat) (val : Word) (s : State), region < 64 → word < 1920 → i < 4 →
    s.mayWrite ag (rcPg region 2 + 0x100) →
    let page := 4 * word + i
    let old := s.rdByte (ownerAddr region page)
    let v := fld val (8 * i + 7) (8 * i)
    ∃ t, exec (.ownerTableWrite ag region word val) s = .next t
      ∧ ((old / 64 = 2 ∨ v / 64 = 2 ∨ (old / 64 = 3 ∧ s.aon.booting = false)) → t.rdByte (ownerAddr region page) = old)
      ∧ (old / 64 ≠ 2 → v / 64 ≠ 2 → (old / 64 ≠ 3 ∨ s.aon.booting = true) →
          t.rdByte (ownerAddr region page)
            = if v / 64 = 0 ∧ s.retirePend.contains (region, page) = true then 0xC0 else v / 32 * 32 + v % 16)

/-! ### Buckles, barriers, network, trees, epochs -/

/-- An addition by the context that owns an unarmed buckle adds its value to COUNT modulo 2^32 and writes no other register; one
by any other context changes no buckle and counts in BKL_DENY (R270, R271). One for a bank that a reset holds counts in RST_DROP and is
discarded (R346). -/
def Obligations.BuckleAdditionByOwner : Prop :=
  ∀ (n t0 : Nat) (p : NetPkt) (ctx : Option Nat) (s s2 : State), s.arrival n [7] = some p → s.ratioOk = true → p.pkt.buckle < 65536 →
    (s.unitHeld p = true → exec (.buckleAdd n t0) s = .next (s.takeArrival n).rstDrop)
    ∧ (s.unitHeld p = false → (s.takeArrival n).flowCheck (p.pkt.buckle / 1024) p.pkt 0xFFE (s.gen.base + 16 * t0) = (true, s2) →
    s2.inCtx p = (ctx, false) → s2.bklBit p.pkt.buckle 12 = false →
    (ctx.isSome = true → ctx = s2.bklCtx p.pkt.buckle → ∃ t, exec (.buckleAdd n t0) s = .next t
        ∧ t.rd (bklAddr p.pkt.buckle) = s2.rd (bklAddr p.pkt.buckle) + p.pkt.value
        ∧ (∀ a, a ≠ bklAddr p.pkt.buckle → t.rd a = s2.rd a) ∧ t.cores = s2.cores ∧ t.mem = s2.mem)
      ∧ ((ctx = none ∨ ctx ≠ s2.bklCtx p.pkt.buckle) → ∃ t, exec (.buckleAdd n t0) s = .next t
        ∧ t.rf (bankPg (p.pkt.buckle / 1024) 0 + 0x100) 31 0
            = min (s2.rf (bankPg (p.pkt.buckle / 1024) 0 + 0x100) 31 0 + 1) (2 ^ 32 - 1)
        ∧ (∀ i, i < 65536 → t.bklCount i = s2.bklCount i)))

/-- A write of COUNT to an armed, unreleased buckle of mode 0 releases it exactly when (COUNT − TARGET) mod 2^32 is below 2^31; a
write of COUNT or TARGET to an unarmed buckle changes that register and no other (R269, R272). A buckle of mode 0 that is armed
and unreleased when its AGE reaches its TIMEOUT gets FAULT_TO and is released by it (R274). -/
def Obligations.BuckleWritesAndTimeouts : Prop :=
  ((∀ (ag : Agent) (i : Nat) (val : Word) (s : State), i < 65536 → s.mayWrite ag (bklAddr i) → s.bklBit i 12 = true →
      s.bklBit i 11 = false → s.bklMode i = 0 →
      ∃ t, exec (.buckleRegWrite ag i false val) s = .next t ∧ t.rd (bklAddr i) = val
        ∧ t.bklBit i 11 = decide ((val.toNat + 2 ^ 32 - s.bklTarget i) % 2 ^ 32 < 2 ^ 31))
      ∧ ∀ (ag : Agent) (i : Nat) (target : Bool) (val : Word) (s : State), i < 65536 → s.mayWrite ag (bklAddr i) →
          s.bklBit i 12 = false →
          ∃ t, exec (.buckleRegWrite ag i target val) s = .next t ∧ t.rd (bklAddr i + if target then 4 else 0) = val
            ∧ (∀ a, a ≠ (bklAddr i + if target then 4 else 0) → t.rd a = s.rd a) ∧ t.cores = s.cores ∧ t.mem = s.mem)
    ∧ (∀ (i : Nat) (s : State), i < 65536 → s.ratioOk = true → s.bklOpen i = true → s.rf (bklAddr i + 8) 29 14 ≠ 0 →
      s.rf (bklAddr i + 12) 15 0 = s.rf (bklAddr i + 8) 29 14 → s.bklMode i = 0 →
      ∃ t, exec (.buckleTimeout i) s = .next t ∧ t.bklBit i 10 = true ∧ t.bklBit i 11 = true ∧ t.bklBit i 12 = true
        ∧ t.rd (bklAddr i) = s.rd (bklAddr i) ∧ t.mem = s.mem)

/-- An ARMB that fires completes: by the owning context it sets COUNT to 0, writes TARGET, clears the flags and AGE and arms the buckle.
A TARGET above 0 and at most 2^31 leaves it unreleased, any other releases one of mode RELEASE at once (R102, R270, R272). By any
other context, or none, it changes no buckle and counts in BKL_DENY (R270). -/
def Obligations.ArmbArmsItsBuckle : Prop :=
  ∀ (gp cyc b target : Nat) (s : State) (q : QEnt) (rest : List QEnt), gp < 5120 → b < 65536 → target < 2 ^ 32 →
    let s1 := s.reachUnit gp 7 cyc
    s1.issues gp = true → s1.headIs ⟨.armb gp cyc, gp, 7, cyc, isArmb⟩ q rest (.armb b target) →
    s1.mayFire ⟨.armb gp cyc, gp, 7, cyc, isArmb⟩ q rest (.armb b target) →
    ((s1.coreCtx gp).isSome = true → s1.coreCtx gp = s1.bklCtx b →
        (0 < target → target ≤ 2 ^ 31 → ∃ t, exec (.armb gp cyc) s = .next t ∧ (t.core gp).queue 7 = rest ∧ t.bklCount b = 0 ∧ t.bklTarget b = target
            ∧ t.bklBit b 12 = true ∧ t.bklBit b 11 = false ∧ t.bklBit b 10 = false ∧ t.bklBit b 9 = false
            ∧ t.rf (bklAddr b + 12) 15 0 = 0 ∧ t.mem = s1.mem)
          ∧ ((target = 0 ∨ 2 ^ 31 < target) → s1.bklMode b = 0 → ∃ t, exec (.armb gp cyc) s = .next t ∧ (t.core gp).queue 7 = rest
            ∧ t.bklCount b = 0 ∧ t.bklTarget b = target ∧ t.bklBit b 12 = true ∧ t.bklBit b 11 = true ∧ t.bklBit b 10 = false
            ∧ t.bklBit b 9 = false ∧ t.mem = s1.mem))
      ∧ ((s1.coreCtx gp = none ∨ s1.coreCtx gp ≠ s1.bklCtx b) → ∃ t, exec (.armb gp cyc) s = .next t ∧ (t.core gp).queue 7 = rest
        ∧ t.rf (bankPg (b / 1024) 0 + 0x100) 31 0 = min (s1.rf (bankPg (b / 1024) 0 + 0x100) 31 0 + 1) (2 ^ 32 - 1)
        ∧ (∀ a, a ≠ bankPg (b / 1024) 0 + 0x100 → t.rd a = s1.rd a) ∧ t.mem = s1.mem)

/-- A write to a barrier entry discards its open arrivals: the entry takes VALID and LCNT from the value, and no arrival stays
counted (R278, R279). A GIRTH packet for a barrier entry that is not valid, or of another generation, is discarded and counted in
VC0_DROP; an UP for a valid entry that still waits for its own module is kept as its child's arrival (R278) while a rail of the
parent direction is not DOWN. -/
def Obligations.BarriersAndGirthPackets : Prop :=
  (∀ (ag : Agent) (g : Nat) (val : Word) (s : State), g < 256 → s.mayWrite ag (barAddr g) → 0 < fld val 15 0 →
      ∃ t, exec (.barrierEntryWrite ag g false val) s = .next t ∧ t.rf (barAddr g) 31 31 = fld val 31 31
        ∧ t.rf (barAddr g) 15 0 = fld val 15 0 ∧ t.rf (barAddr g + 4) 15 0 = 0 ∧ t.barFault g = false
        ∧ (t.barrier g).sent = [] ∧ (t.barrier g).ups = []
        ∧ t.barGen g = s.barGen g)
    ∧ (∀ (n q : Nat) (p : NetPkt) (s : State), s.arrival n [8] = some p → p.at_ = .ingress q → s.epochGone p.pkt.epoch = false →
      let g := p.pkt.tree % 256
      ((s.barValid g = false ∨ p.pkt.opid ≠ s.barGen g) → ∃ t, exec (.girth n) s = .next t ∧ t.arrived = s.arrived.eraseIdx n
          ∧ t.rf (rtPg + 0x138) 31 0 = min (s.rf (rtPg + 0x138) 31 0 + 1) (2 ^ 32 - 1) ∧ t.barriers = s.barriers)
        ∧ (s.barValid g = true → p.pkt.opid = s.barGen g → p.pkt.down = false → s.parentLost = false →
            s.rf (barAddr g + 4) 15 0 < s.rf (barAddr g) 15 0 → (s.barrier g).ups.contains (q / 2 * 2) = false →
            ∃ t, exec (.girth n) s = .next t ∧ (t.barrier g).ups = (s.barrier g).ups ++ [q / 2 * 2]
              ∧ (p.pkt.value.toNat % 2 = 1 → t.barFault g = true)))

/-- A packet of a reserved TYPE is discarded at its first hop and counted in UNREACH_DROP (R238); one of a defined TYPE that
leaves its core for another block moves to the block's router when the crossbar grants it the port and a whole-packet buffer is free,
and stays where it is when not (R201, R208). At an output of a router a packet of another channel stays while one of channel 0 waits
for it (R208). A broadcast whose output is not granted stays (R208); one that some destination cannot take now stays and holds its router input; once every destination accepts, it
has left the router and every destination that may receive has its copy in the same step (R197, R198, R202). At the source a packet
for another module takes the JOB of its context's flow-table entry and is discarded, and counted, when the context has none (R245);
with a VC1 candidate that has credit, it takes the candidate with the most (R241). -/
def Obligations.PacketsMoveOrWait : Prop :=
  (∀ (n err t0 gp : Nat) (p : NetPkt) (s : State), s.net[n]? = some p → s.ratioOk = true → p.at_ = .core gp → s.portShut gp = false →
      let vc := s.netVc (.router (gp / 10)) p
      (typeKnown p.pkt = false → ∃ t, exec (.packetHop n err t0) s = .next t ∧ t.net = s.net.eraseIdx n
          ∧ t.rf (rtPg + 0x12C) 31 0 = min (s.rf (rtPg + 0x12C) 31 0 + 1) (2 ^ 32 - 1) ∧ t.cores = s.cores ∧ t.mem = s.mem)
        ∧ (typeKnown p.pkt = true → (s.goal p).blk ≠ some (gp / 10) → s.xbarLets (gp / 10) p = true →
            s.bufFree (.router (gp / 10)) 4 vc = true → s.nodeLive (.router (gp / 10)) = true →
            ∃ (t : State) (e : NetPkt), exec (.packetHop n err t0) s = .next t ∧ t.net = s.net.set n e
              ∧ e.at_ = .router (gp / 10) ∧ e.vc = vc ∧ e.pkt = p.pkt ∧ e.ctx = p.ctx ∧ t.regs = s.regs ∧ t.mem = s.mem)
        ∧ (typeKnown p.pkt = true → (s.goal p).blk ≠ some (gp / 10) →
            (s.xbarLets (gp / 10) p = false ∨ s.bufFree (.router (gp / 10)) 4 vc = false) → exec (.packetHop n err t0) s = .next s))
    ∧ (∀ (n t0 b i vc o : Nat) (m : Node) (p q : NetPkt) (s : State), s.net[n]? = some p → s.ratioOk = true → p.at_ = .router b →
      isMcast p.pkt = false → s.escape p (s.hopOf p (s.goal p)) = some (p, .to_ m i vc, false) →
      hopPort (.router b) (.to_ m i vc) = some o → q ∈ s.net → q.at_ = .router b → o ∈ s.netOuts q → q.vc = 0 → p.vc ≠ 0 →
      exec (.packetHop n 0 t0) s = .next s)
    ∧ (∀ (blk held n : Nat) (p : NetPkt) (s : State), blk < 512 → s.ratioOk = true → s.held.contains blk = false →
      s.net.findIdx? (fun q => q.casts blk) = some n → s.net[n]? = some p →
      (s.netWins p 4 = false → exec (.broadcastGrant blk held) s = .next s)
        ∧ (s.netWins p 4 = true → p.cores.any (fun gp => s.mcastBlocked gp p.pkt) = true → ∃ t, exec (.broadcastGrant blk held) s = .next t
          ∧ t.net = s.net.set n { p with holding := true } ∧ t.arrived = s.arrived ∧ t.regs = s.regs ∧ t.mem = s.mem)
        ∧ (s.netWins p 4 = true → p.cores.any (fun gp => s.mcastBlocked gp p.pkt) = false → (∀ gp ∈ p.cores, s.portShut gp = false) →
            ∃ (t : State) (l : List NetPkt), exec (.broadcastGrant blk held) s = .next t ∧ t.arrived = s.arrived ++ l ∧ l.length = p.cores.length
              ∧ (∀ (i gp : Nat), p.cores[i]? = some gp → ∃ e : NetPkt, l[i]? = some e ∧ e.at_ = Node.core gp ∧ e.pkt = { p.pkt with land := none } ∧ e.ctx = p.ctx)
              ∧ (t.net = s.net.eraseIdx n ∨ ∃ e, t.net = s.net.set n e ∧ e.casts blk = false) ∧ t.mem = s.mem))
    ∧ (∀ (n r t0 : Nat) (p : NetPkt) (s : State), s.net[n]? = some p → s.ratioOk = true → p.at_ = .mesh r → p.pkt.dmod ≠ s.myId → p.egress = none →
      p.pkt.type ≠ 5 → p.pkt.type ≠ 4 →
      (∀ c, p.ctx = some c → s.rf (rtPg + 0x180 + 4 * c) 31 31 = 0 → ∃ t, exec (.fabricRoute n t0) s = .next t ∧ t.net = s.net.eraseIdx n
          ∧ t.rf (rtPg + 0x128) 31 0 = min (s.rf (rtPg + 0x128) 31 0 + 1) (2 ^ 32 - 1))
        ∧ ∀ c port, p.ctx = some c → s.rf (rtPg + 0x180 + 4 * c) 31 31 ≠ 0 → p.vc = 1 → s.idInside p.pkt.dmod = true →
            s.bestPort { p.pkt with job := s.rf (rtPg + 0x180 + 4 * c) 15 0 } = some port →
            ∃ t e, exec (.fabricRoute n t0) s = .next t ∧ t.net = s.net.set n e ∧ e.egress = some port ∧ e.vc = 1
              ∧ e.pkt.job = s.rf (rtPg + 0x180 + 4 * c) 15 0 ∧ (∀ q ∈ s.candidates e.pkt, pktUnits e.pkt ≤ (s.link q).credit 1 →
                  (s.link q).credit 1 ≤ (s.link port).credit 1))

/-- A TREE packet of a retired epoch is discarded and counted in EP_DROP, one of a faulted tree in TREE_DROP; a contribution that
finds no key free waits where it is, and no packet behind it in its VC3 buffer is taken (R255, R259, R263). The first contribution of a reduction opens a key that holds its rows and
its contributor, whether it comes at once or after it waited for a key, unless it is the only one (R253, R255). A notice marks its
tree faulted in its epoch and drops the tree's open keys (R259). -/
def Obligations.TreesCombineOnce : Prop :=
  (∀ (n t0 r : Nat) (p : NetPkt) (s : State), s.arrival n [5] = some p → p.at_ = .local_ r →
      s.treeHead n p = true →
      (s.epochGone p.pkt.epoch = true → ∃ t, exec (.tree n t0) s = .next t ∧ t.arrived = s.arrived.eraseIdx n
          ∧ t.rf (rtPg + 0x130) 31 0 = min (s.rf (rtPg + 0x130) 31 0 + 1) (2 ^ 32 - 1) ∧ t.keys = s.keys)
        ∧ (s.epochGone p.pkt.epoch = false → s.treeFaults.contains (p.pkt.tree, p.pkt.epoch) = true →
            ∃ t, exec (.tree n t0) s = .next t ∧ t.arrived = s.arrived.eraseIdx n
              ∧ t.rf (rtPg + 0x13C) 31 16 = min (s.rf (rtPg + 0x13C) 31 16 + 1) (2 ^ 16 - 1) ∧ t.keys = s.keys)
        ∧ (s.epochGone p.pkt.epoch = false → s.treeFaults.contains (p.pkt.tree, p.pkt.epoch) = false →
            s.treeValid p.pkt.epoch p.pkt.tree = true → s.treeJobless p = false → p.pkt.down = false → p.pkt.rop ≠ 0 →
            0 < s.treeKeys p.pkt.epoch p.pkt.tree →
            (∀ x ∈ s.keys, ¬ (x.tree = p.pkt.tree ∧ x.epoch = p.pkt.epoch ∧ x.opid = p.pkt.opid ∧ x.doff = p.pkt.doff)) →
            s.treeKeys p.pkt.epoch p.pkt.tree ≤ (s.keys.filter (fun x => decide (x.tree = p.pkt.tree) && decide (x.epoch = p.pkt.epoch))).length →
            exec (.tree n t0) s = .next s ∧ exec (.keyWaitResume n t0) s = .next s))
    ∧ (∀ (n t0 r : Nat) (p : NetPkt) (s : State), s.arrival n [5] = some p → p.at_ = .local_ r →
      (∃ i q, i < n ∧ s.arrived[i]? = some q ∧ q.sameTreeBuf p = true) → exec (.tree n t0) s = .next s ∧ exec (.keyWaitResume n t0) s = .next s)
    ∧ (∀ (n t0 r : Nat) (p : NetPkt) (s : State), s.arrival n [5] = some p → p.at_ = .local_ r → s.treeHead n p = true → s.epochGone p.pkt.epoch = false →
      s.treeFaults.contains (p.pkt.tree, p.pkt.epoch) = false → s.treeValid p.pkt.epoch p.pkt.tree = true → s.treeJobless p = false →
      p.pkt.down = false → p.pkt.rop ≠ 0 → badUnits p.pkt = [] →
      (∀ x ∈ s.keys, ¬ (x.tree = p.pkt.tree ∧ x.epoch = p.pkt.epoch ∧ x.opid = p.pkt.opid ∧ x.doff = p.pkt.doff)) →
      (s.keys.filter (fun x => decide (x.tree = p.pkt.tree) && decide (x.epoch = p.pkt.epoch))).length < s.treeKeys p.pkt.epoch p.pkt.tree →
      (∃ c ∈ s.treeKids p.pkt.epoch p.pkt.tree, c ≠ 16 + p.pkt.score) →
      ∃ x, x.tree = p.pkt.tree ∧ x.opid = p.pkt.opid ∧ x.from_ = [16 + p.pkt.score] ∧ x.bad = false
        ∧ (∃ t, exec (.tree n t0) s = .next t ∧ t.keys = s.keys ++ [x] ∧ t.arrived = s.arrived.eraseIdx n)
        ∧ (∃ t, exec (.keyWaitResume n t0) s = .next t ∧ t.keys = s.keys ++ [x] ∧ t.arrived = s.arrived.eraseIdx n))
    ∧ (∀ (n t0 e : Nat) (p : NetPkt) (s : State), s.arrival n [6] = some p → p.at_ = .ingress e → s.treeHead n p = true → s.epochGone p.pkt.epoch = false →
      s.treeValid p.pkt.epoch p.pkt.tree = true → s.treeFaults.contains (p.pkt.tree, p.pkt.epoch) = false →
      ∃ t, exec (.treeNotice n t0) s = .next t ∧ t.treeFaults = s.treeFaults ++ [(p.pkt.tree, p.pkt.epoch)]
        ∧ (∀ k ∈ t.keys, ¬ (k.tree = p.pkt.tree ∧ k.epoch = p.pkt.epoch)) ∧ t.mem = s.mem)

/-- ARM arms an epoch switch only while none is armed or draining; at the boundary of stroke EP_AT the module takes the other
epoch and starts to drain; at stroke EP_AT + EP_DRAIN the drain ends, and with it the fault marks of the retired epoch's trees (R260, R262,
R263). -/
def Obligations.EpochSwitch : Prop :=
  (∀ (ag : Agent) (val : Word) (s : State), s.mayWrite ag (rtPg + 0x110) → fld val 31 31 = 1 →
    ∃ t, exec (.epCtlArm ag val) s = .next t
      ∧ (s.rf (rtPg + 0x108) 29 29 = 0 → s.rf (rtPg + 0x108) 28 28 = 0 → t.rf (rtPg + 0x108) 29 29 = 1)
      ∧ ((s.rf (rtPg + 0x108) 29 29 = 1 ∨ s.rf (rtPg + 0x108) 28 28 = 1) → t.rd (rtPg + 0x108) = s.rd (rtPg + 0x108))
      ∧ t.mem = s.mem ∧ t.cores = s.cores)
    ∧ (∀ (t0 : Nat) (s : State), s.rf (rtPg + 0x108) 29 29 = 1 → s.rd64 (rtPg + 0x114) % 2 ^ 40 ≤ s.stroke →
        s.treesOf (1 - s.epoch) = [] → s.barriers = [] →
        ∃ t, exec (.epochFlip t0) s = .next t ∧ t.epoch = 1 - s.epoch ∧ t.rf (rtPg + 0x108) 29 29 = 0 ∧ t.rf (rtPg + 0x108) 28 28 = 1
          ∧ t.epRetire = some (s.rd64 (rtPg + 0x114) % 2 ^ 40 + s.rf (rtPg + 0x110) 15 0))
    ∧ ∀ (t0 k : Nat) (s : State), s.epRetire = some k → s.rf (rtPg + 0x108) 28 28 = 1 → k ≤ s.stroke → s.keys = [] →
        ∃ t, exec (.epochRetire t0) s = .next t ∧ t.rf (rtPg + 0x108) 28 28 = 0 ∧ t.epoch = s.epoch ∧ t.epRetire = none
          ∧ t.treeFaults = s.treeFaults.filter (fun x => decide (x.2 ≠ 1 - s.epoch)) ∧ t.cores = s.cores ∧ t.mem = s.mem

/-! ### Fabric links -/

/-- LINK_PACKET_RX completes on every port that is up. A packet whose trailer or CRC fails is counted and not delivered, and a NAK is
owed; a trailer of another TYPE is discarded without being counted; a stomped packet is dropped and counted; a packet already received is
discarded; one beyond the expected SEQ is not delivered and a NAK is owed. The expected one takes the next SEQ and is delivered: a TREE,
NOTICE or GIRTH packet to its engine, any other to its way; one of a reserved TYPE or of a retired epoch is discarded and counted
(R220, R222, R224, R238, R263). Corrected codewords count in FEC_CE and in ERR_CE_CNT of the port unit (R233). -/
def Obligations.LinkReceptionInOrder : Prop :=
  (∀ (port : Nat) (pkt : Packet) (trailer : BitVec 256) (fec : FecCount) (through : Bool) (t0 : Nat) (s : State),
    let c := Instr.linkPacketRx port pkt trailer fec through t0
    c.wf = true → s.portUp port = true →
    let d := (blk trailer 19 8 + 4096 - (s.link port).rx) % 4096
    let good := blockOk trailer = true ∧ blk trailer 7 0 = 1 ∧ blk trailer 23 23 = 0 ∧ blk trailer 63 32 = pktCrc pkt
    let engine := pkt.type = 5 ∨ pkt.type = 6 ∨ pkt.type = 8
    ((blockOk trailer = false ∨ (blk trailer 7 0 = 1 ∧ blk trailer 23 23 = 0 ∧ blk trailer 63 32 ≠ pktCrc pkt)) →
        ∃ t, exec c s = .next t ∧ t.net = s.net ∧ t.arrived = s.arrived
          ∧ (t.link port).rx = (s.link port).rx ∧ (t.link port).naked = true
          ∧ t.rf (fabPg port + 0x118) 31 0 = min (s.rf (fabPg port + 0x118) 31 0 + 1) (2 ^ 32 - 1))
      ∧ (blockOk trailer = true → blk trailer 7 0 ≠ 1 →
        ∃ t, exec c s = .next t ∧ t.net = s.net ∧ t.arrived = s.arrived ∧ t.out = s.out
          ∧ t.link port = s.link port ∧ t.rf (fabPg port + 0x118) 31 0 = s.rf (fabPg port + 0x118) 31 0)
      ∧ (blockOk trailer = true → blk trailer 7 0 = 1 → blk trailer 23 23 = 1 →
        ∃ t, exec c s = .next t ∧ t.net = s.net ∧ t.arrived = s.arrived ∧ (t.link port).rx = (s.link port).rx
          ∧ t.rf (fabPg port + 0x124) 31 16 = min (s.rf (fabPg port + 0x124) 31 16 + 1) (2 ^ 16 - 1))
      ∧ (good →
          (2048 ≤ d → ∃ t, exec c s = .next t ∧ t.net = s.net ∧ t.arrived = s.arrived ∧ (t.link port).rx = (s.link port).rx
              ∧ t.rf (fabPg port + 0x124) 15 0 = min (s.rf (fabPg port + 0x124) 15 0 + 1) (2 ^ 16 - 1))
            ∧ (0 < d → d < 2048 → ∃ t, exec c s = .next t ∧ t.net = s.net ∧ t.arrived = s.arrived
              ∧ (t.link port).rx = (s.link port).rx ∧ (t.link port).naked = true)
            ∧ (d = 0 → ∃ t, exec c s = .next t ∧ (t.link port).rx = ((s.link port).rx + 1) % 4096 ∧ (t.link port).naked = false
              ∧ (typeKnown pkt = true → s.epochGone pkt.epoch = false → ¬ engine →
                  t.net = s.net ++ [{ pkt := pkt, at_ := .ingress port, vc := pkt.vc, fabric := true }] ∧ t.arrived = s.arrived)
              ∧ (typeKnown pkt = true → s.epochGone pkt.epoch = false → engine →
                  t.arrived = s.arrived ++ [{ pkt := pkt, at_ := .ingress port, vc := pkt.vc, fabric := true }] ∧ t.net = s.net)
              ∧ ((typeKnown pkt = false ∨ s.epochGone pkt.epoch = true) → t.net = s.net ∧ t.arrived = s.arrived))))
    ∧ ∀ (port : Nat) (f : FecCount) (cyc : Nat) (s : State), port < 12 → f.unc = 0 → f.sym = [] →
        s.rf (fabPg 0 + 0x20) 31 0 + f.corr < 2 ^ 32 - 1 →
        (s.fecNoted port f cyc).rf (fabPg 0 + 0x20) 31 0 = s.rf (fabPg 0 + 0x20) 31 0 + f.corr
          ∧ (s.fecNoted port f cyc).rf (fabPg port + 0x11C) 31 0 = min (s.rf (fabPg port + 0x11C) 31 0 + f.corr) (2 ^ 32 - 1)

/-- An ACK frees every packet up to the one it names and no other; a CREDIT block sets the freed total of every channel; the
timers send what is owed (R222, R223, R226). A NAK, or the replay timeout, sends every unacknowledged packet from the named or
oldest SEQ again, in order, each under its trailer with the CRC regenerated (R221, R223), and a trigger of the cycle in which the replay
began adds none; the fourth replay in a row from one SEQ starts a retrain instead, whose training carries the module's ID, the port
and the SEQ it expects (R218, R229, R230). -/
def Obligations.AcknowledgeAndReplay : Prop :=
  (∀ (port t0 : Nat) (block : BitVec 256) (s : State), port < 12 → s.portUp port = true → (s.link port).waiting = [] →
      (blockOk block = true → blk block 7 0 = 2 → ((s.link port).unacked.any (fun x => decide (x.1 = blk block 19 8))) = true →
          ∃ t, exec (.ack port block t0) s = .next t
            ∧ (t.link port).unacked = ((s.link port).unacked.dropWhile (fun x => decide (x.1 ≠ blk block 19 8))).drop 1 ∧ t.net = s.net)
        ∧ (blockOk block = true → blk block 7 0 = 4 → ∃ t, exec (.credit port block t0) s = .next t
            ∧ (t.link port).freedSeen = (List.range 5).map (fun v => blk block (16 * v + 23) (16 * v + 8))
            ∧ (t.link port).unacked = (s.link port).unacked)
        ∧ (0 < (s.link port).pendAck → ∃ t b, exec (.linkAckTimer port) s = .next t ∧ t.out = s.out ++ [.block port b] ∧ blk b 7 0 = 2
            ∧ blk b 19 8 = ((s.link port).rx + 4095) % 4096 ∧ (t.link port).pendAck = 0)
        ∧ ((s.link port).freed ≠ (s.link port).freedTold → ∃ t b, exec (.creditTimer port) s = .next t ∧ t.out = s.out ++ [.block port b]
            ∧ blk b 7 0 = 4 ∧ (t.link port).freedTold = (s.link port).freed))
    ∧ (∀ (port seq t0 : Nat) (block : BitVec 256) (s : State), port < 12 → s.portUp port = true →
      ((s.link port).unacked.any (fun x => decide (x.1 = seq))) = true → blockOk block = true → blk block 7 0 = 3 → blk block 19 8 = seq →
      s.replaying port seq (s.gen.base + 16 * t0) = false →
      let again := ((s.link port).unacked.dropWhile (fun x => decide (x.1 ≠ seq))).map
        (fun x => Out.packet port x.1 x.2 false (trailerOf x.2 x.1 false))
      (((s.link port).lastReplay ≠ some seq ∨ (s.link port).sameReplay < 3) →
          (∃ t, exec (.nak port block t0) s = .next t ∧ t.out = s.out ++ again ∧ (t.link port).unacked = (s.link port).unacked
              ∧ exec (.nak port block t0) t = .next t)
          ∧ (∀ x l, (s.link port).unacked = x :: l → x.1 = seq → ∃ t, exec (.replayTimeout port t0) s = .next t ∧ t.out = s.out ++ again))
        ∧ ((s.link port).lastReplay = some seq → 3 ≤ (s.link port).sameReplay →
            ∃ t, exec (.nak port block t0) s = .next t ∧ t.out = s.out ++ [.training port s.myId port (s.link port).rx]
              ∧ t.portState port = 4))

/-- A port that is up starts a retrain when software writes RETRAIN, when its peer trains, on four uncorrectable codewords, and on
the loss of lanes that leaves four; an attempt that does not complete leaves it RETRAINING, counted (R229, R230). A third retrain
failure in a row takes the link down, an earlier one counts (R230, R231). A port that goes down is DOWN with no lane in use and
nothing left unacknowledged, and LINK_DOWN of severity UC is on its way to the hearth unless its source is masked (R27, R231, R234,
R257). -/
def Obligations.RetrainAndLinkDown : Prop :=
  (∀ (port t0 : Nat) (lanes : BitVec 8) (cut : Bool) (quals : List (Nat × Nat × Nat)) (res : TrainResult) (again : List TrainResult) (s : State) (c : Instr),
      port < 12 → res.wf = true → res.done = false → (∀ q ∈ quals, q.1 < 8) → (∀ r ∈ again, r.wf = true) → s.portUp port = true →
      4 ≤ ((lanesOf (s.rf (fabPg port + 0x100) 27 20)).filter (fun i => !lanes.getLsbD i)).length →
      c ∈ [.fabRetrain port res quals again t0, .peerTraining port res t0, .fecRetrainTrigger port cut res t0, .laneLoss port lanes cut res t0] →
      ∃ t, exec c s = .next t ∧ t.portState port = 4
        ∧ t.rf (fabPg port + 0x128) 31 0 = min (s.rf (fabPg port + 0x128) 31 0 + 1) (2 ^ 32 - 1)
        ∧ .training port s.myId port (s.link port).rx ∈ t.out
        ∧ (t.link port).unacked = (s.link port).unacked ∧ t.net = s.net ∧ t.mem = s.mem)
    ∧ (∀ (port t0 : Nat) (res : TrainResult) (s : State), port < 12 → res.wf = true → res.done = false → s.portState port = 4 →
      (2 ≤ s.rf (fabPg port + 0x100) 11 10 → ∃ t, exec (.retrainTimeout port res t0) s = .next t ∧ t.portState port = 0)
        ∧ (s.rf (fabPg port + 0x100) 11 10 < 2 → ∃ t, exec (.retrainTimeout port res t0) s = .next t ∧ t.portState port = 4
            ∧ t.rf (fabPg port + 0x100) 11 10 = s.rf (fabPg port + 0x100) 11 10 + 1))
    ∧ (∀ (port t0 : Nat) (cause : DownCause) (good : BitVec 8) (s : State) (c : Instr), port < 12 → s.portUp port = true →
      s.rf (homeAddr (fabPg port + 0x1C)) 6 6 = 0 → c ∈ [.linkDown port cause good t0, .controlBlockTimeout port t0] →
      ∃ t, exec c s = .next t ∧ t.portState port = 0 ∧ t.rf (fabPg port + 0x100) 19 12 = 0 ∧ (t.link port).unacked = []
        ∧ ∃ r ∈ t.recQ, r.cls = 0x21 ∧ r.sev = 2 ∧ r.src = fabPg port)

/-- MY_ID and TORUS_DIM accept writes only while every fabric port is DOWN or DISABLED and ignore other writes; a MY_ID with a
coordinate outside TORUS_DIM sets ID_BAD, and no port trains while that bit is set (R236). -/
def Obligations.ModuleIdentityWrites : Prop :=
  ∀ (ag : Agent) (val : Word) (s : State), s.mayWrite ag (rtPg + 0x100) → s.mayWrite ag (rtPg + 0x104) →
    (s.allPortsDown = true →
        (∃ t, exec (.fabIdWrite ag val) s = .next t ∧ t.myId = fld val 12 0 ∧ t.rf (rtPg + 0x108) 31 31 = bit (!t.idInside t.myId))
        ∧ ∃ t, exec (.torusDimWrite ag val) s = .next t ∧ t.rf (rtPg + 0x104) 12 0 = fld val 12 0
            ∧ t.rf (rtPg + 0x108) 31 31 = bit (!t.idInside t.myId))
      ∧ (s.allPortsDown = false → exec (.fabIdWrite ag val) s = .next s ∧ exec (.torusDimWrite ag val) s = .next s)
      ∧ ∀ port res quals again t0, port < 12 → res.wf = true → (∀ q ∈ quals, q.1 < 8) → (∀ r ∈ again, r.wf = true) → s.portState port = 0 → s.rf (rtPg + 0x108) 31 31 = 1 →
          exec (.fabRetrain port res quals again t0) s = .next s

/-! ### Registers and the stroke -/

/-- A register write with admission (R7, R24, R25, R393): RW bits take the value at once, each 1 clears an RW1C bit, RWS bits wait
in the shadow, every other bit and every other register stays; a 64-bit write is two writes, the lower address first; an access
that is not naturally aligned changes nothing, and counts in MMIO_BAD of the host port it came by. The two registers of a core
page whose write is a command of its own are left out. -/
def Obligations.RegisterWriteKinds : Prop :=
  (∀ (ag : Agent) (gp o : Nat) (val : BitVec 64) (s : State), gp < 5120 → 0x100 ≤ o → o < 4096 → o % 4 = 0 → o ≠ 0x218 → o ≠ 0x2B8 →
      (rowOf (locOf (corePg gp + o))).isSome = true → s.mayWrite ag (corePg gp + o) →
      ∃ t, exec (.registerWrite ag (corePg gp + o) false val) s = .next t
        ∧ t.rd (corePg gp + o) = ((s.rd (corePg gp + o) &&& ~~~(rwMask (corePg gp + o))) ||| (val.truncate 32 &&& rwMask (corePg gp + o)))
            &&& ~~~(val.truncate 32 &&& w1cMask (corePg gp + o))
        ∧ t.rdPend (corePg gp + o) &&& rwsMask (corePg gp + o) = val.truncate 32 &&& rwsMask (corePg gp + o)
        ∧ (∀ b, b ≠ corePg gp + o → t.rd b = s.rd b) ∧ t.cores = s.cores ∧ t.mem = s.mem ∧ t.out = s.out)
    ∧ (∀ (ag : Agent) (a : Nat) (val : BitVec 64) (s : State), a % 8 = 0 → a < 2 ^ 33 → a ≠ genPg + 0x128 →
        exec (.registerWrite ag a true val) s = .next ((s.writeReg ag a (val.truncate 32)).writeReg ag (a + 4) ((val >>> 32).truncate 32)))
    ∧ (∀ (a : Nat) (wide : Bool) (val : BitVec 64) (s : State), a < 2 ^ 33 → a % (if wide then 8 else 4) ≠ 0 →
        exec (.registerWrite .mgmt a wide val) s = .next s
          ∧ ∀ p : QPort, ∃ t, exec (.registerWrite (qAgent p) a wide val) s = .next t
              ∧ t.rf (qPg p + 0x110) 31 0 = min (s.rf (qPg p + 0x110) 31 0 + 1) (2 ^ 32 - 1)
              ∧ (∀ b, b ≠ qPg p + 0x110 → t.rd b = s.rd b) ∧ t.cores = s.cores ∧ t.mem = s.mem ∧ t.out = s.out)
    ∧ ∀ (ag : Agent) (a : Nat) (v : Word) (s : State), s.dark (locOf a) = false → (rowOf (locOf a)).isSome = true →
        s.admits ag a true = false → s.writeReg ag a v = s.secDeny

/-- An access to a page that no unit implements, or to a reserved space, block or unit code, completes without effect, and a read
returns 0 (R24). -/
def Obligations.UnimplementedPagesDoNothing : Prop :=
  ∀ (ag : Agent) (a : Nat) (wide : Bool) (val : BitVec 64) (s : State), a < 2 ^ 33 → pageRows (locOf a) = none →
    (a % (if wide then 8 else 4) = 0 → exec (.registerWrite ag a wide val) s = .next s) ∧ s.readReg ag a = (0, s) ∧ (a % 8 = 0 → s.mmioRead ag a wide = (0, s))

/-- A 32-bit read of STROKE_COUNT[31:0] loads the reading agent's latch with bits [39:32] of the same count; its read of the upper
word returns and empties that latch, or the live bits when the latch is empty; no other agent's latch and no register changes; a
64-bit read is consistent and leaves every latch alone; the count wraps from 2^40 − 1 to 0 (R36). -/
def Obligations.StrokeCountLatches : Prop :=
  (∀ (ag : Agent) (s : State), ∃ t, exec (.strokeCountLoRead ag) s = .next t
      ∧ t.out = s.out ++ [.value ag (genPg + 0x108) (BitVec.ofNat 64 (s.stroke % 2 ^ 32))] ∧ t.latch ag = some (s.stroke / 2 ^ 32)
      ∧ (∀ ag', ag' ≠ ag → t.latch ag' = s.latch ag') ∧ t.regs = s.regs)
    ∧ (∀ (ag : Agent) (s : State), ∃ t, exec (.strokeCountHiRead ag) s = .next t
      ∧ t.out = s.out ++ [.value ag (genPg + 0x10C) (BitVec.ofNat 64 ((s.latch ag).getD (s.stroke / 2 ^ 32)))] ∧ t.latch ag = none
      ∧ (∀ ag', ag' ≠ ag → t.latch ag' = s.latch ag') ∧ t.regs = s.regs)
    ∧ (∀ s : State, (s.gen.acquired = false ∨ s.srcActive ≠ 1) → s.stroke = 2 ^ 40 - 1 → s.stepCount.stroke = 0)
    ∧ ∀ (ag : Agent) (s : State), s.mmioRead ag (genPg + 0x108) true = (BitVec.ofNat 64 s.stroke, s)

/-- COMMIT arms the stroke COMMIT_AT names while that stroke's seam is still to come, else the next seam, with AT_MISSED when a
stroke it names has passed; an armed commit is never retargeted: a write of COMMIT_AT sets AT_IGN and changes nothing else of it
(R47, R48). While none is armed a write of COMMIT_AT, whole or by halves, takes its value. At the commit each pending value takes
the RWS bits of its register, COMMIT_AT returns to 0 and COMMIT_PEND clears (R48, R49). -/
def Obligations.CommitArmsOneSeam : Prop :=
  (∀ (ag : Agent) (s : State), s.mayWrite ag (genPg + 0x110) → s.gen.armed = none →
      let target := s.rd64 (genPg + 0x128) % 2 ^ 40
      let ahead := s.stroke < target ∨ (target = s.stroke ∧ s.gen.seamDone = false)
      ∃ t, exec (.commit ag) s = .next t ∧ t.genBit 2 = true
        ∧ t.gen.armed = some (if target ≠ 0 ∧ ahead then target else if s.gen.seamDone then (s.stroke + 1) % 2 ^ 40 else s.stroke)
        ∧ (target ≠ 0 → ¬ ahead → t.genBit 8 = true) ∧ (∀ a, a ≠ genStat → t.rd a = s.rd a) ∧ t.shadow = s.shadow)
    ∧ (∀ (ag : Agent) (h : Half) (val : BitVec 64) (s : State), s.mayWrite ag (genPg + 0x128) → s.gen.armed.isSome = true →
      ∃ t, exec (.commitAtWrite ag h val) s = .next t ∧ t.genBit 9 = true ∧ t.gen.armed = s.gen.armed
        ∧ ∀ a, a ≠ genStat → t.rd a = s.rd a)
    ∧ (∀ (ag : Agent) (val : BitVec 64) (s : State), s.mayWrite ag (genPg + 0x128) → s.gen.armed = none →
      (∃ t, exec (.commitAtWrite ag .both val) s = .next t ∧ t.rd (genPg + 0x128) = val.truncate 32
          ∧ t.rf (genPg + 0x12C) 7 0 = val.toNat / 2 ^ 32 % 256 ∧ t.gen = s.gen)
        ∧ (∃ t, exec (.commitAtWrite ag .lo val) s = .next t ∧ t.rd (genPg + 0x128) = val.truncate 32 ∧ t.gen = s.gen
          ∧ ∀ a, a ≠ genPg + 0x128 → t.rd a = s.rd a)
        ∧ ∃ t, exec (.commitAtWrite ag .hi val) s = .next t ∧ t.rf (genPg + 0x12C) 7 0 = val.toNat % 256 ∧ t.gen = s.gen
          ∧ ∀ a, a ≠ genPg + 0x12C → t.rd a = s.rd a)
    ∧ (∀ (a : Nat) (p : Word) (r : RegRow) (s : State), rowOf (locOf a) = some r →
      (s.commitOne a p).rd a = (s.rd a &&& ~~~r.rws) ||| (p &&& r.rws) ∧ ∀ b, b ≠ a → (s.commitOne a p).rd b = s.rd b)
    ∧ ∀ (old : State) (n : Nat), (old.commitAll n).rd (genPg + 0x128) = 0 ∧ (old.commitAll n).rf (genPg + 0x12C) 7 0 = 0
        ∧ (old.commitAll n).genBit 2 = false ∧ (old.commitAll n).gen.armed = none

/-- The seam runs once in a stroke, while TCLK runs: after it the bodies have ended, and a seam for which no commit is armed arms none. The
once-a-stroke records may be emitted again from s48 on: what a core records before s48 is no mark for a record found from s48 on, and
one found from s48 on is none for the stroke that ends (R11, R46). The boundary after it adds the stroke's length to TCLK's time and opens
the next body, and STROKE_COUNT steps modulo 2^40; a commit armed for the next seam goes with it to the stroke that begins (R32, R36, R37,
R47). A region's window that ends takes the written parameters and starts every count of the region at 0 (R31); the first uncorrectable
error of the region controller's own logic requests a drain (R326). -/
def Obligations.SeamAndBoundary : Prop :=
  (∀ (body : Nat) (s : State), s.gen.running = true → s.aon.crystal = true → s.gen.seamDone = false →
      ∃ t, exec (.seam body) s = .next t ∧ t.gen.seamDone = true ∧ t.gen.base = s.gen.base ∧ t.gen.len = s.gen.len
        ∧ (s.gen.armed = none → t.gen.armed = none))
    ∧ (∀ (gp sev cls cyc : Nat) (synd : BitVec 64) (s : State), s.rf (corePg gp + 0x1C) sev sev = 0 → s.lvlSuppresses (corePg gp) sev = false →
      (cyc / 2 ^ 16 < seam48 → (s.emitCore gp sev sev cls cyc synd).suppNext = s.suppNext
          ∧ ((corePg gp, cls) ∉ s.supp → ∃ r, (s.emitCore gp sev sev cls cyc synd).recQ = s.recQ ++ [r] ∧ r.cls = cls))
        ∧ (seam48 ≤ cyc / 2 ^ 16 → (s.emitCore gp sev sev cls cyc synd).supp = s.supp
          ∧ ((corePg gp, cls) ∉ s.suppNext → ∃ r, (s.emitCore gp sev sev cls cyc synd).recQ = s.recQ ++ [r] ∧ r.cls = cls
              ∧ (corePg gp, cls) ∈ (s.emitCore gp sev sev cls cyc synd).suppNext)
          ∧ ((corePg gp, cls) ∈ s.suppNext → (s.emitCore gp sev sev cls cyc synd).recQ = s.recQ)))
    ∧ (∀ s : State, s.gen.running = true → s.aon.crystal = true →
      ∃ t, exec .strokeBoundary s = .next t ∧ t.gen.seamDone = false ∧ t.gen.base = s.gen.base + s.gen.len
        ∧ ((s.gen.armedAt = true ∨ s.gen.armed = none) → t.gen.armed = s.gen.armed))
    ∧ (∀ s : State, (s.gen.acquired = false ∨ s.srcActive ≠ 1) → s.gridBoundary.stroke = (s.stroke + 1) % 2 ^ 40
        ∧ (s.gen.armedAt = false → s.gridBoundary.gen.armed = s.gen.armed.map (fun _ => s.gridBoundary.stroke)))
    ∧ ∀ (region n : Nat) (s : State), region < 64 → s.stroke % max 1 (s.winParOf region).len = 0 →
        (∃ t, exec (.repWindowBoundary region true n) s = .next t ∧ t.rf (modPg 9 0 + 0x110) 31 31 = 1
          ∧ (t.winParOf region).len = (s.rd (rcPg region 0 + 0x100)).toNat ∧ t.cores = s.cores ∧ t.mem = s.mem)
        ∧ ∃ t, exec (.repWindowBoundary region false n) s = .next t ∧ (t.winParOf region).len = (s.rd (rcPg region 0 + 0x100)).toNat
          ∧ (t.winParOf region).ce = (s.rd (rcPg region 0 + 0x104)).toNat ∧ (t.winParOf region).ue = (s.rd (rcPg region 0 + 0x108)).toNat
          ∧ (∀ pg, unitOfRegion region pg = true → t.winOf pg = {}) ∧ (∀ pg, unitOfRegion region pg = false → t.winOf pg = s.winOf pg)
          ∧ t.regs = s.regs ∧ t.cores = s.cores ∧ t.mem = s.mem

/-- Sources of the stroke (R39, R40): an accepted edge on STROKE_IN that begins an acquisition lengthens the next stroke by
T_s − e; an edge sooner than T_s/2 after the last accepted one only counts; a lost source leaves holdover with the trim in force;
while another source is active an edge changes nothing and no loss is declared. The timing exchange over the girth (R281): a parent's
SYNC is answered at once by a REQ that names the child's own stroke; a child's REQ by a RESP with its receive time; the RESP completes
the exchange and writes the one-way delay, and STROKE_PHASE under girth discipline. A block of the kind that comes by another link
than the parent's changes nothing. -/
def Obligations.StrokeSources : Prop :=
  ((∀ (t16 : Nat) (s : State), s.srcActive = 2 →
       (∀ k, s.gen.lastEdge = some k → 2 * (s.gen.base + t16 - k) < s.ts16 →
         ∃ t, exec (.strokeInEdge t16) s = .next t ∧ t.rf (genPg + 0x124) 31 0 = min (s.rf (genPg + 0x124) 31 0 + 1) (2 ^ 32 - 1)
           ∧ t.gen = s.gen)
       ∧ (s.gen.lastEdge = none → s.genBit 6 = true → s.gen.acquired = false → s.gen.extend = none →
         ∃ t, exec (.strokeInEdge t16) s = .next t ∧ t.gen.lastEdge = some (s.gen.base + t16)
           ∧ t.gen.extend = some (s.ts16 - (s.gen.base + s.gen.len - (s.gen.base + t16)) % s.ts16) ∧ t.regs = s.regs))
     ∧ (∀ (n : Nat) (s : State), s.srcActive = 2 → s.gen.since + 4 * s.ts16 ≤ s.gen.base + 16 * n →
       (∀ k, s.gen.lastEdge = some k → k + 4 * s.ts16 ≤ s.gen.base + 16 * n) →
       ∃ t, exec (.strokeInLost n) s = .next t ∧ t.srcActive = 0 ∧ t.genBit 3 = true ∧ t.genBit 5 = false ∧ t.trim = s.trim)
     ∧ (∀ (n : Nat) (s : State), s.srcActive = 1 → s.girthChild = true → 64 ≤ s.gen.girthSilent →
       ∃ t, exec (.girthSourceLost n) s = .next t ∧ t.srcActive = 0 ∧ t.genBit 3 = true ∧ t.genBit 5 = false ∧ t.trim = s.trim)
     ∧ ∀ (n : Nat) (s : State), (s.srcActive ≠ 2 → exec (.strokeInEdge n) s = .next s ∧ exec (.strokeInLost n) s = .next s)
         ∧ (s.srcActive ≠ 1 → exec (.girthSourceLost n) s = .next s))
    ∧ ((∀ (port t16 : Nat) (block : BitVec 256) (s : State), port < 12 → s.portUp port = true → blockOk block = true → blk block 7 0 = 5 →
           blk block 9 8 = 0 →
           (s.isParentPort port = true → ∃ t, exec (.timeSync port block t16) s = .next t ∧ t.time.exch = blk block 95 80
               ∧ t.time.sender = blk block 108 96 ∧ t.time.heard = true ∧ t.time.t1 = ((blk block 79 48 : Nat) : Int)
               ∧ t.time.t2 = (t16 : Int) + strokeDiff s.stroke (blk block 47 16) * (s.ts16 : Int) ∧ t.time.t3 = t.time.t2
               ∧ ∃ b, t.out = s.out ++ [.block port b] ∧ blk b 9 8 = 1 ∧ blk b 47 16 = s.stroke % 2 ^ 32 ∧ blk b 79 48 = t16 % 2 ^ 32
                   ∧ blk b 95 80 = blk block 95 80)
             ∧ (s.isParentPort port = false → exec (.timeSync port block t16) s = .next s))
         ∧ (∀ (port t16 : Nat) (block : BitVec 256) (s : State), port < 12 → s.portUp port = true → blockOk block = true → blk block 7 0 = 5 →
           blk block 9 8 = 1 →
           ∃ t, exec (.timeReq port block t16) s = .next t ∧ t.regs = s.regs ∧ t.time = s.time
             ∧ ∃ b, t.out = s.out ++ [.block port b] ∧ blk b 9 8 = 2 ∧ blk b 47 16 = s.stroke % 2 ^ 32 ∧ blk b 79 48 = t16 % 2 ^ 32
                 ∧ blk b 95 80 = blk block 95 80)
         ∧ ∀ (port t16 : Nat) (block : BitVec 256) (s : State), port < 12 → s.portUp port = true → blockOk block = true → blk block 7 0 = 5 →
             blk block 9 8 = 2 →
             (s.isParentPort port = true → s.time.heard = true → blk block 95 80 = s.time.exch →
               let t4 : Int := ((blk block 79 48 : Nat) : Int) + strokeDiff (blk block 47 16) s.time.stroke * (s.ts16 : Int)
               ∃ t, exec (.timeResp port block t16) s = .next t ∧ t.time.heard = false ∧ t.time.parentLocked = decide (blk block 10 10 = 1)
                 ∧ t.rd (girthPg + 0x10C) = BitVec.ofInt 32 (((s.time.t2 - s.time.t1) + (t4 - s.time.t3)) / 2)
                 ∧ (s.srcActive = 1 → s.genBit 6 = false →
                   t.rd (genPg + 0x11C) = BitVec.ofInt 32 (((t4 - s.time.t3) - (s.time.t2 - s.time.t1)) / 2)))
               ∧ ((s.isParentPort port = false ∨ s.time.heard = false ∨ blk block 95 80 ≠ s.time.exch) →
                 exec (.timeResp port block t16) s = .next s))

/-! ### Host ports -/

/-- The link layer of a Quexon port (R222, R358, R359, R360): a flit whose CRC fails is counted and not accepted; the one expected
advances the SEQ expected; a duplicate changes no SEQ; the replay timeout sends every unacknowledged flit again in order, and
after the fourth replay in a row from one SEQ the port retrains; a port that is DOWN trains with fresh link state; a failed
retrain is counted. A port that goes DOWN (R379): every session of its agent but a D3 session is closed whatever else is under
way; with no context and no request of its own, its hitches are free, its lines leave the cache and its link state is new. No
valid header for more than 1 µs takes the port DOWN in the same way (R360). -/
def Obligations.QuexonLinkLayer : Prop :=
  ((∀ (p : QPort) (h : BitVec 128) (slots : List (BitVec 128)) (s : State), slots.length = 15 → s.qUp p = true →
        let n := h.toNat % 2 ^ 64
        (h.toNat / 2 ^ 64 ≠ flitCrc n slots → ∃ t, exec (.quexonFlitRx p h slots) s = .next t ∧ (t.q p).link.rx = (s.q p).link.rx
            ∧ (t.q p).link.naked = true ∧ t.rf (qPg p + 0x10C) 31 0 = min (s.rf (qPg p + 0x10C) 31 0 + 1) (2 ^ 32 - 1))
          ∧ (h.toNat / 2 ^ 64 = flitCrc n slots → n % 4096 = (s.q p).link.rx % 4096 → (s.q p).link.rx < 4096 →
            ∃ t, exec (.quexonFlitRx p h slots) s = .next t ∧ (t.q p).link.rx = ((s.q p).link.rx + 1) % 4096 ∧ (t.q p).link.naked = false)
          ∧ (h.toNat / 2 ^ 64 = flitCrc n slots → 2048 ≤ (n % 4096 + 4096 - (s.q p).link.rx) % 4096 →
            ∃ t, exec (.quexonFlitRx p h slots) s = .next t ∧ (t.q p).link.rx = (s.q p).link.rx))
      ∧ (∀ (p : QPort) (x : Nat × Nat × List (BitVec 128)) (rest : List (Nat × Nat × List (BitVec 128))) (s : State),
        (s.q p).link.unacked = x :: rest → s.qUp p = true →
        (¬ (3 ≤ (s.q p).link.sameReplay ∧ (s.q p).link.lastReplay = x.1) → ∃ t, exec (.qReplayTimeout p) s = .next t
            ∧ t.out = s.out ++ (x :: rest).map (fun f => .flit p ((s.q p).link.header f.2.1 false f.2.2) f.2.2)
            ∧ (t.q p).link.unacked = x :: rest ∧ t.rf (qPg p + 0x108) 31 0 = min (s.rf (qPg p + 0x108) 31 0 + 1) (2 ^ 32 - 1))
          ∧ (3 ≤ (s.q p).link.sameReplay → (s.q p).link.lastReplay = x.1 → ∃ t, exec (.qReplayTimeout p) s = .next t
            ∧ t.rf (qPg p + 0x100) 31 28 = 4 ∧ t.out = s.out))
      ∧ (∀ (p : QPort) (res : QTrainResult) (n : Nat) (s : State),
        (s.qLive p = false → res.done = true → s.aon.powered = true → s.rf (modPg 8 0 + 0x118) 30 30 = 0 → s.lanesIdle = false →
          qWidth res.good.toNat = 16 →
            ∃ t, exec (.qRetrain p res n) s = .next t ∧ t.qUp p = true ∧ t.q p = {})
          ∧ (s.qLive p = true → res.done = false → s.rf (qPg p + 0x100) 11 10 < 2 → ∃ t, exec (.qRetrain p res n) s = .next t
            ∧ t.rf (qPg p + 0x100) 31 28 = 4 ∧ t.rf (qPg p + 0x100) 11 10 = s.rf (qPg p + 0x100) 11 10 + 1 ∧ t.q p = s.q p)))
    ∧ ((∀ (p : QPort) (cause n : Nat) (s : State), cause < 3 → s.qLive p = true →
        ∃ t, exec (.quexonLinkDown p cause n) s = .next t ∧ ∀ d, t.dbg = some d → d.agent = qAgent p → d.level = 3)
      ∧ (∀ (p : QPort) (cause n : Nat) (s : State), cause < 3 → s.qLive p = true →
        (∀ c, c < 16 → s.ctxActive c = true → s.ctxPort c ≠ p) → (s.q p).reqs = [] → s.dbg = none →
        ∃ t, exec (.quexonLinkDown p cause n) s = .next t ∧ t.qLive p = false ∧ t.q p = {}
          ∧ (∀ k, k < 256 → t.rf (hitchAddr k) 1 0 ≠ hitchId (qAgent p)) ∧ (∀ l ∈ t.cache, keyOf p l.1 = false) ∧ t.mem = s.mem
          ∧ t.cores = s.cores)
      ∧ ∀ (p : QPort) (res : QTrainResult) (n : Nat) (s : State), s.qLive p = true →
          (∀ c, c < 16 → s.ctxActive c = true → s.ctxPort c ≠ p) → (s.q p).reqs = [] → s.dbg = none →
          ∃ t, exec (.qLinkLoss p 0 res n) s = .next t ∧ t.qLive p = false ∧ t.q p = {})

/-- Snoops and host accesses to module memory (R361, R363): an invalidation takes the line from the cache and forwards an M line;
a data snoop leaves it shared; at a channel with no other request a permitted read answers with the row as the controller reads it, a
permitted write stores the line, or its masked bytes over the row as read, and changes no other byte; while rows of class 1 wait at the
channel the access waits behind them as a request of class 2 (R188); a refused access is answered with STATUS 1 and counted. -/
def Obligations.HostCoherence : Prop :=
  (∀ (p : QPort) (addr tag : Nat) (s : State), addr < 2 ^ 43 → tag < 4096 → s.qUp p = true →
      let l : CLine := Tbl.get {} s.cache (lineKey p addr)
      (∃ t, exec (.snpInv p addr tag) s = .next t ∧ Tbl.get {} t.cache (lineKey p addr) = {} ∧ t.mem = s.mem
          ∧ t.hasSent p (if l.st = 3 then { op := 0x1A, addr := addr, tag := tag, data := [l.data] } else { op := 0x18, addr := addr, tag := tag }))
        ∧ (∃ t, exec (.snpData p addr tag) s = .next t ∧ t.mem = s.mem
          ∧ (l.st = 0 → Tbl.get {} t.cache (lineKey p addr) = l ∧ t.hasSent p { op := 0x18, addr := addr, tag := tag })
          ∧ (l.st ≠ 0 → Tbl.get {} t.cache (lineKey p addr) = { l with st := 1 })
          ∧ (l.st = 3 → t.hasSent p { op := 0x1A, addr := addr, tag := tag, data := [l.data] })
          ∧ (l.st = 1 ∨ l.st = 2 → t.hasSent p { op := 0x19, addr := addr, tag := tag })))
    ∧ (∀ (p : QPort) (addr tag t0 region off : Nat) (line : Row) (mask : BitVec 128) (s : State), addr < 2 ^ 43 → tag < 4096 → s.qUp p = true →
      s.hostHome p addr = some (region, off) →
      (s.mcBusy (mcOf region off) = false → s.memHeld = false → s.class2 = [] →
        (∃ t, exec (.memRd p addr tag 0 t0) s = .next t ∧ t.mem = s.mem
          ∧ ∃ st, t.hasSent p { op := 0x31, addr := 0, tag := tag, status := st, data := [((s.reqFree p 0).dramRead region off (tclkCycle t0)).1] })
        ∧ (∃ t, exec (.memWr p addr tag 0 t0 line) s = .next t ∧ t.memRow (region * 2 ^ 34 + off) = line
          ∧ (∀ b, outsideRows [region * 2 ^ 34 + off] b → t.memByte b = s.memByte b) ∧ t.hasSent p { op := 0x30, addr := 0, tag := tag })
        ∧ (∃ t, exec (.memWrPtl p addr tag 0 t0 mask line) s = .next t
          ∧ t.memRow (region * 2 ^ 34 + off) = mergeRow ((s.reqFree p 9).dramRead region off (tclkCycle t0)).1 line mask
          ∧ (∀ b, outsideRows [region * 2 ^ 34 + off] b → t.memByte b = s.memByte b) ∧ t.hasSent p { op := 0x30, addr := 0, tag := tag }))
      ∧ (s.mcBusy (mcOf region off) = true → ∀ c ∈ [Instr.memRd p addr tag 0 t0, .memWr p addr tag 0 t0 line, .memWrPtl p addr tag 0 t0 mask line],
          ∃ t x, exec c s = .next t ∧ t.class2 = s.class2 ++ [(mcOf region off, x)] ∧ t.mem = s.mem ∧ t.out = s.out))
    ∧ ∀ (p : QPort) (addr tag t0 : Nat) (line : Row) (s : State), addr < 2 ^ 43 → tag < 4096 → s.qUp p = true → s.hostHome p addr = none →
        ∃ t, exec (.memWr p addr tag 0 t0 line) s = .next t ∧ t.mem = s.mem
          ∧ t.rf (qPg p + 0x114) 31 0 = min (s.rf (qPg p + 0x114) 31 0 + 1) (2 ^ 32 - 1)
          ∧ t.hasSent p { op := 0x30, addr := 0, tag := tag, status := 1 }

/-- Register accesses of a host port (R25, R362): a permitted read answers with one data slot that holds the value, a permitted
write does what a register write does; any other access is counted, and a read answers all ones. Answers to the module's own
requests: a slot line read is kept for its context, a completed copy-out write comes off its step's count, and the event queue's
producer advances (R361, R376, R378). -/
def Obligations.HostMessages : Prop :=
  (∀ (p : QPort) (addr size tag : Nat) (val : BitVec 64) (s : State), addr < 2 ^ 43 → (size = 4 ∨ size = 8) → tag < 4096 → s.qUp p = true →
      (mmioOk addr size = true →
          (∃ t, exec (.mmioRd p addr size tag) s = .next t ∧ t.mem = s.mem ∧ t.hasSent p
              { op := 0x31, addr := 0, tag := tag, grant := 4, data := [mmioSlot ((s.reqFree p 0).mmioRead (qAgent p) addr (decide (size = 8))).1] })
            ∧ ∃ t, exec (.mmioWr p addr size tag val) s = .next t ∧ t.hasSent p { op := 0x30, addr := 0, tag := tag }
              ∧ ∀ a, t.rd a = ((s.reqFree p 1).mmioWrite (qAgent p) addr (decide (size = 8)) val).rd a)
        ∧ (mmioOk addr size = false → ∃ t, exec (.mmioRd p addr size tag) s = .next t
            ∧ t.rf (qPg p + 0x110) 31 0 = min (s.rf (qPg p + 0x110) 31 0 + 1) (2 ^ 32 - 1)
            ∧ t.hasSent p { op := 0x31, addr := 0, tag := tag, grant := 4, data := [mmioSlot (if size = 4 then 0xFFFFFFFF else 0xFFFFFFFFFFFFFFFF)] }))
    ∧ (∀ (p : QPort) (tag grant c i : Nat) (line : Row) (r : QReq) (s : State), tag < 4096 → grant < 4 →
      (s.q p).reqs.find? (fun r => decide (r.tag = tag)) = some r → r.why = .slotRead c i → s.ctxActive c = true → (s.ctxEng c).port = p →
      ∃ t, exec (.cmpData p tag grant 0 line) s = .next t ∧ (t.ctxEng c).line i = line ∧ t.mem = s.mem
        ∧ (grant = 1 ∨ grant = 2 → Tbl.get {} t.cache (lineKey p r.addr) = { st := grant, data := line }))
    ∧ (∀ (p : QPort) (tag status c slot : Nat) (r : QReq) (k : CopyOut) (s : State), tag < 4096 → status < 16 →
      (s.q p).reqs.find? (fun r => decide (r.tag = tag)) = some r → r.why = .copyOut c slot → (s.ctxEng c).copies = [k] → k.slot = slot →
      k.open_ ≠ 0 → ∃ t, exec (.quexonCmp p tag status) s = .next t ∧ (t.ctxEng c).copies = [{ k with open_ := k.open_ - 1 }]
        ∧ t.regs = s.regs)
    ∧ ∀ (p : QPort) (tag status : Nat) (r : QReq) (s : State), tag < 4096 → status < 16 →
        (s.q p).reqs.find? (fun r => decide (r.tag = tag)) = some r → r.why = .evq →
        ∃ t, exec (.quexonCmp p tag status) s = .next t ∧ t.rf (qPg p + 0x128) 7 0 = (s.rf (qPg p + 0x128) 7 0 + 1) % 256

/-- A write of 0 by the owner frees the hitch; every other write is ignored and counted in HITCH_DENY (R367). -/
def Obligations.HitchWriteByOwner : Prop :=
  ∀ (ag : Agent) (n : Nat) (v : Word) (s : State), n < 256 →
    (v = 0 → s.rf (hitchAddr n) 1 0 = hitchId ag → ∃ t, exec (.hitchRelease ag n v) s = .next t ∧ t.rf (hitchAddr n) 1 0 = 0
        ∧ ∀ a, a ≠ hitchAddr n → t.rd a = s.rd a)
      ∧ ((v ≠ 0 ∨ s.rf (hitchAddr n) 1 0 ≠ hitchId ag) → ∃ t, exec (.hitchRelease ag n v) s = .next t
        ∧ (∀ a, a ≠ modPg 1 0 + 0x540 → t.rd a = s.rd a) ∧ t.cores = s.cores ∧ t.mem = s.mem ∧ t.out = s.out
        ∧ t.rf (modPg 1 0 + 0x540) 31 0 = min (s.rf (modPg 1 0 + 0x540) 31 0 + 1) (2 ^ 32 - 1))

/-- The partition table, the slot engines and the vector masks: a valid entry written over an invalid one takes effect, and one
written over a valid one changes nothing (R369); at the cut the chosen slot is one that shows POSTED and is not TAKEN, while EN is
1 (R373); a step whose copy-out is complete is set DONE and leaves the TAKEN list, and CTX_PROG counts it (R376); clearing MASK
sends a held notification once (R377). A read of a free hitch claims it for the reader and returns 0; a read of an owned hitch
returns its owner and changes nothing (R366). -/
def Obligations.ContextsSlotsAndHitches : Prop :=
  ((∀ (ag : Agent) (region word i : Nat) (val : Word) (s : State), region < 64 → word < 16 → i < 4 →
        s.mayWrite ag (rcPg region 1 + 0x100 + 4 * word) →
        ∃ t, exec (.partitionEntryWrite ag region word val) s = .next t
          ∧ (s.rdByte (rcPg region 1 + 0x100 + (4 * word + i)) / 128 = 1 →
              t.rdByte (rcPg region 1 + 0x100 + (4 * word + i)) = s.rdByte (rcPg region 1 + 0x100 + (4 * word + i)))
          ∧ (∀ gp, s.rdByte (rcPg region 1 + 0x100 + (4 * word + i)) / 128 = 0 → fld val (8 * i + 7) (8 * i + 7) = 1 →
              s.physOf (64 * region + (4 * word + i)) = some gp → (s.core gp).zeroing = false →
              t.rdByte (rcPg region 1 + 0x100 + (4 * word + i)) = 128 + fld val (8 * i + 3) (8 * i)))
      ∧ (∀ (cyc c : Nat) (s : State), c < 16 → s.ctxActive c = true → (∀ d, d < c → s.ctxActive d = false) →
        (∀ d, c < d → d < 16 → (s.cutCtx cyc c).ctxActive d = false) →
        exec (.slotCut cyc) s = .next (s.cutCtx cyc c)
          ∧ ∀ i, ((s.cutCtx cyc c).ctxEng c).chosen = some i →
              i < 64 ∧ slotState ((s.ctxEng c).line i) = 1 ∧ i ∉ (s.ctxEng c).taken ∧ s.rf (ctxPg c + 0x100) 31 31 = 1)
      ∧ (∀ (c : Nat) (k : CopyOut) (s : State), c < 16 → (s.ctxEng c).copies = [k] → k.due = true → k.open_ = 0 → k.sent = false →
        2 ≤ (Tbl.get {} s.cache (lineKey (s.ctxEng c).port ((s.ctxEng c).slotAddr k.slot)) : CLine).st →
        ∃ t, exec (.doneWrite c) s = .next t ∧ (t.ctxEng c).copies = [] ∧ (t.ctxEng c).taken = (s.ctxEng c).taken.erase k.slot
          ∧ t.rd (modPg 4 0 + 0x200 + 4 * c) = s.rd (modPg 4 0 + 0x200 + 4 * c) + 1
          ∧ (Tbl.get {} t.cache (lineKey (s.ctxEng c).port ((s.ctxEng c).slotAddr k.slot)) : CLine).st = 3
          ∧ slotState (Tbl.get {} t.cache (lineKey (s.ctxEng c).port ((s.ctxEng c).slotAddr k.slot)) : CLine).data = 3)
      ∧ ∀ (ag : Agent) (p : QPort) (v : Nat) (val : Word) (s : State), v < 64 → s.mayWrite ag (qPg p + 0x40C + 16 * v) →
          (fld val 0 0 = 1 → ∃ t, exec (.vecMaskWrite ag p v val) s = .next t ∧ t.rf (qPg p + 0x40C + 16 * v) 0 0 = 1 ∧ t.out = s.out)
            ∧ (fld val 0 0 = 0 → s.rf (qPg p + 0x40C + 16 * v) 1 1 = 1 → s.qLive p = true →
              ∃ t m, exec (.vecMaskWrite ag p v val) s = .next t ∧ t.rf (qPg p + 0x40C + 16 * v) 1 0 = 0 ∧ t.hasSent p m ∧ m.op = 0x07
                ∧ m.addr = (s.rd (qPg p + 0x400 + 16 * v)).toNat + s.rf (qPg p + 0x404 + 16 * v) 7 0 * 2 ^ 32))
    ∧ (∀ (ag : Agent) (n : Nat) (s : State), n < 256 →
      ∃ t, exec (.hitchClaim ag n) s = .next t
        ∧ t.out = s.out ++ [.value ag (hitchAddr n) (BitVec.ofNat 64 (s.rf (hitchAddr n) 1 0))]
        ∧ (s.rf (hitchAddr n) 1 0 = 0 → t.rf (hitchAddr n) 1 0 = hitchId ag) ∧ (s.rf (hitchAddr n) 1 0 ≠ 0 → t.regs = s.regs)
        ∧ ∀ a, a ≠ hitchAddr n → t.rd a = s.rd a)

/-! ### Security and debug -/

/-- A signed object is answered with the first refusal that applies, or takes effect and is answered with 0 (R382 to R394): a
debug token opens its session, a LIFECYCLE object changes the state, or with bit 7 of ARG clears the fence list, an OWNER_KEY installs the key and leaves BLANK and RETURNED
for PROVISIONED, a REVOKE sets its bit. A refused object changes neither flash nor session. A new nonce is drawn for every token.
The order of the refusals is the model's choice (log entry 29). -/
def Obligations.SignedObjectsTakeEffect : Prop :=
  (∀ (ag : Agent) (o : SecObject) (s : State),
      let r := if secMalformed 1 o then 8 else if s.secCheck ag 1 o ≠ 0 then s.secCheck ag 1 o else s.tokenRule o
      ∃ t, exec (.presentDebugToken ag o) s = .next t ∧ t.rf (mbPg ag + 0x104) 3 0 = r ∧ t.flash = s.flash
        ∧ t.nonceCtr = s.nonceCtr + 1 ∧ t.nonceNow = (Config.nonce s.nonceCtr).toNat
        ∧ (r ≠ 0 → t.dbg = s.dbg)
        ∧ (r = 0 → ∃ d, t.dbg = some d ∧ d.level = o.arg ∧ d.agent = ag ∧ (o.arg = 2 → d.ctx = o.ctx) ∧ d.left = o.duration * 16000000000))
    ∧ (∀ (ag : Agent) (o : SecObject) (s : State),
      let r := if secMalformed 2 o then 8 else if s.secCheck ag 2 o ≠ 0 then s.secCheck ag 2 o else s.lifecycleRule o
      ∃ t, exec (.presentLifecycle ag o) s = .next t ∧ t.rf (mbPg ag + 0x104) 3 0 = r
        ∧ (r ≠ 0 → t.flash = s.flash ∧ t.dbg = s.dbg)
        ∧ (r = 0 → t.flash.lifecycle = (if o.arg % 128 = 3 then 3 else 2) ∧ (o.arg % 128 = 3 → s.flash.lifecycle ≠ 3 → t.flash.owner = none)
          ∧ (o.arg = 131 → t.flash.fence = [])))
    ∧ (∀ (ag : Agent) (o : SecObject) (s : State),
      let r := if secMalformed 3 o then 8 else if s.secCheck ag 3 o ≠ 0 then s.secCheck ag 3 o else s.ownerRule o
      ∃ t, exec (.presentOwnerKey ag o) s = .next t ∧ t.rf (mbPg ag + 0x104) 3 0 = r
        ∧ (r ≠ 0 → t.flash = s.flash ∧ t.dbg = s.dbg)
        ∧ (r = 0 → t.flash.owner = some o.key
            ∧ t.flash.lifecycle = (if s.flash.lifecycle = 0 ∨ s.flash.lifecycle = 3 then 1 else s.flash.lifecycle)))
    ∧ ∀ (ag : Agent) (o : SecObject) (s : State),
        let r := if secMalformed 4 o then 8 else if s.secCheck ag 4 o ≠ 0 then s.secCheck ag 4 o
          else if s.aon.powered = false then 5 else if o.signer = 4 ∨ o.signer = o.arg then 2 else 0
        ∃ t, exec (.presentRevoke ag o) s = .next t ∧ t.rf (mbPg ag + 0x104) 3 0 = r ∧ t.dbg = s.dbg
          ∧ t.flash = (if r = 0 then { s.flash with revoked := s.flash.revoked ||| BitVec.ofNat 4 (2 ^ o.arg) } else s.flash)

/-- A session closes on its agent's CLOSE and when its time is over, a D3 session excepted (R395); HALT halts the core with cause
0, RUN and STEP let a halted core run from the next boundary (R396); a fetch of the debug window shows the row of a halted core of
the session's context, at once when no landing wins its bank (R137), and zeros for the reserved store; any other is denied and shows
zeros (R153). -/
def Obligations.DebugSessionControl : Prop :=
  (∀ (ag : Agent) (s : State),
      (∀ d, s.dbg = some d → d.agent = ag → d.level ≠ 3 → ∃ t, exec (.close ag) s = .next t ∧ t.dbg = none ∧ t.rf (mbPg ag + 0x104) 3 0 = 0)
        ∧ ((s.dbg = none ∨ ∃ d, s.dbg = some d ∧ d.agent ≠ ag) →
          ∃ t, exec (.close ag) s = .next t ∧ t.dbg = s.dbg ∧ t.rf (mbPg ag + 0x104) 3 0 = 7))
    ∧ (∀ (s : State) (d : DbgSession), s.dbg = some d → d.level ≠ 3 → d.left ≤ s.gen.len →
      ∃ t, exec .debugSessionExpire s = .next t ∧ t.dbg = none ∧ t.regs = s.regs ∧ t.mem = s.mem)
    ∧ (∀ (ag : Agent) (gp : Nat) (s : State), gp < 5120 → s.mayWrite ag (corePg gp + 0x1300) →
      ((s.core gp).halted = false →
          ∃ t, exec (.halt ag gp) s = .next t ∧ (t.core gp).halted = true ∧ t.rf (corePg gp + 0x1304) 31 29 = 4)
        ∧ ((s.core gp).halted = true →
          (∃ t, exec (.runCore ag gp) s = .next t ∧ t.core gp = { s.core gp with runPend := true, stepping := false } ∧ t.regs = s.regs)
            ∧ ∃ t, exec (.stepCore ag gp) s = .next t ∧ t.core gp = { s.core gp with runPend := true, stepping := true } ∧ t.regs = s.regs))
    ∧ ∀ (ag : Agent) (gp : Nat) (val : Word) (s : State), gp < 5120 → s.mayWrite ag (corePg gp + 0x1100) →
        ((s.core gp).halted = true → s.d2For gp = true → fld val 30 29 < 3 → fld val 12 0 < storeRows (fld val 30 29) →
            (s.core gp).settled → Tbl.get 0 (s.core gp).upset (fld val 30 29 * 8192 + fld val 12 0) = 0 →
            ∃ t, exec (.dbgSelGo ag gp val) s = .next t ∧ t.rf (corePg gp + 0x1100) 28 28 = 0
              ∧ ∀ k, k < 32 → t.rd (corePg gp + 0x1200 + 4 * k)
                  = BitVec.ofNat 32 ((Tbl.get 0 (s.core gp).store (fld val 30 29 * 8192 + fld val 12 0)).toNat / 2 ^ (32 * k)))
          ∧ ((s.core gp).halted = true → s.d2For gp = true → fld val 30 29 = 3 →
            ∃ t, exec (.dbgSelGo ag gp val) s = .next t ∧ t.rf (corePg gp + 0x1100) 28 28 = 0 ∧ t.cores = s.cores
              ∧ ∀ k, k < 32 → t.rd (corePg gp + 0x1200 + 4 * k) = 0)
          ∧ (((s.core gp).halted = false ∨ s.d2For gp = false) →
            ∃ t, exec (.dbgSelGo ag gp val) s = .next t ∧ t.rf (corePg gp + 0x1100) 28 28 = 1
              ∧ ∀ k, k < 32 → t.rd (corePg gp + 0x1200 + 4 * k) = 0)

/-- Attestation and JTAG complete on every operand (R389, R390, R397, R426). SPDM_REQUEST and GET_MEASUREMENTS: an answer goes out on
MCTP in units of 64 B (R415), or into the agent's mailbox with its length and RESULT 0; an SPDM answer carries what the responder supports
and the chain of slot 0; its bytes are free (log entry 10). While the auxiliary supply is valid and TRST_N is high, JTAG_BYPASS passes TDI
through one bit, JTAG_IDCODE shifts out the identity, and JTAG_SAMPLE_PRELOAD and JTAG_EXTEST act as BYPASS unless a D3 session is open,
when what they shift out is a free value (log entry 4). With TRST_N low each resets the TAP and drives nothing; without the auxiliary
supply none does anything. -/
def Obligations.AttestationAndJtag : Prop :=
  (∀ (msg : List (BitVec 8)) (s : State),
      let a := (Config.spdmAnswer s.freeCtr spdmFacts s.certChain msg).take 3584
      (∃ t, exec (.spdmRequest none msg) s = .next t ∧ t.regs = s.regs ∧ t.out = s.out ++ [.reply 5 (mctpUnits a)])
        ∧ ∀ ag, ∃ t, exec (.spdmRequest (some ag) msg) s = .next t ∧ t.out = s.out ∧ t.rf (mbPg ag + 0x104) 3 0 = 0
          ∧ t.rf (mbPg ag + 0x104) 15 4 = a.length)
    ∧ (∀ (index : Nat) (s : State),
      let a := (Config.measurementAnswer index (s.measured index) (Config.ed25519Sign s.aon.aliasKey (s.measured index))).take 3584
      (∃ t, exec (.getMeasurements none index) s = .next t ∧ t.regs = s.regs ∧ t.out = s.out ++ [.reply 5 (mctpUnits a)])
        ∧ ∀ ag, ∃ t, exec (.getMeasurements (some ag) index) s = .next t ∧ t.out = s.out ∧ t.rf (mbPg ag + 0x104) 3 0 = 0
          ∧ t.rf (mbPg ag + 0x104) 15 4 = a.length)
    ∧ (∀ (tdi scan : Bool) (s : State), s.aon.aux = true →
        (∃ t, exec (.jtagBypass false tdi) s = .next t ∧ t.jtag = tdi ∧ t.out = s.out ++ [.tdo (BitVec.ofNat 32 (bit s.jtag))] ∧ t.regs = s.regs)
          ∧ (∃ t, exec (.jtagIdcode false) s = .next t ∧ t.out = s.out ++ [.tdo Config.idcode] ∧ t.regs = s.regs ∧ t.jtag = s.jtag)
          ∧ (s.d3Open = false → ∀ c ∈ [Instr.jtagSamplePreload false tdi, Instr.jtagExtest scan false tdi], ∃ t, exec c s = .next t ∧ t.jtag = tdi
            ∧ t.out = s.out ++ [.tdo (BitVec.ofNat 32 (bit s.jtag))] ∧ t.regs = s.regs)
          ∧ (s.d3Open = true → ∀ c ∈ [Instr.jtagSamplePreload false tdi, Instr.jtagExtest scan false tdi], ∃ t, exec c s = .next t
            ∧ t.out = s.out ++ [.tdo (Config.freeWord s.freeCtr)] ∧ t.regs = s.regs))
    ∧ ∀ (tdi scan : Bool) (s : State),
        ∀ c ∈ [Instr.jtagBypass true tdi, Instr.jtagIdcode true, Instr.jtagSamplePreload true tdi, Instr.jtagExtest scan true tdi],
          exec c s = .next (if s.aon.aux then { s with jtag := false } else s)

/-! ### Pattern loads, zeroisation, assay, healing -/

/-- GO starts a load unless the bank is the active one (ERR 1) or the entries do not fit (ERR 2); ABORT stops it with ERR 6; a row
of a page its context does not own stops it with ERR 7 and counts in FEED_DENY; a row of DRAM without upsets writes its entries in
order, and the last one makes the bank ready; a row of DRAM waits in class 2 while rows of class 1 wait at its channel (R188); without a
slot that core traffic leaves idle nothing is read (R97, R98). -/
def Obligations.PatternLoadRules : Prop :=
  (∀ (ag : Agent) (gl gp : Nat) (val : Word) (s : State), gl < 4096 → s.mayWrite ag (logPg gl + 0x218) → s.physOf gl = some gp →
      (s.core gp).zeroing = false → (s.core gp).loader = none → fld val 30 30 = 0 →
      (fld val 28 28 = s.rf (corePg gp + 0x200) 0 0 → ∃ t, exec (.patLoadGo ag gl val) s = .next t ∧ t.rf (loadStat gp) 30 28 = 1
          ∧ (t.core gp).loader = none)
        ∧ (fld val 28 28 ≠ s.rf (corePg gp + 0x200) 0 0 → (4096 < fld val 27 16 + fld val 12 0 ∨ fld val 12 0 = 0) →
          ∃ t, exec (.patLoadGo ag gl val) s = .next t ∧ t.rf (loadStat gp) 30 28 = 2 ∧ (t.core gp).loader = none)
        ∧ (fld val 28 28 ≠ s.rf (corePg gp + 0x200) 0 0 → fld val 27 16 + fld val 12 0 ≤ 4096 → fld val 12 0 ≠ 0 →
          ∃ t l, exec (.patLoadGo ag gl val) s = .next t ∧ (t.core gp).loader = some l ∧ l.bank = fld val 28 28 ∧ l.first = fld val 27 16
            ∧ l.count = fld val 12 0 ∧ l.done = 0 ∧ l.addr = s.rd64 (corePg gp + 0x210) % 2 ^ 43 ∧ t.rf (loadStat gp) 31 31 = 1
            ∧ t.rf (loadStat gp) (16 + fld val 28 28) (16 + fld val 28 28) = 0))
    ∧ (∀ (ag : Agent) (gl gp : Nat) (s : State), gl < 4096 → s.mayWrite ag (logPg gl + 0x218) → s.physOf gl = some gp →
      (s.core gp).loader.isSome = true →
      ∃ t, exec (.patLoadAbort ag gl) s = .next t ∧ (t.core gp).loader = none ∧ t.rf (loadStat gp) 31 28 = 6)
    ∧ ∀ (gp cyc t0 region off : Nat) (l : Loader) (s : State), gp < 5120 → (s.core gp).loader = some l →
        (s.loadSlot gp l = false → exec (.patLoadRow gp cyc 0 t0) s = .next s)
          ∧ (s.loadSlot gp l = true → homeOf l.rowAddr = .dram region off → s.class2 = [] →
            (s.mcBusy (mcOf region off) = true → ∃ t, exec (.patLoadRow gp cyc 0 t0) s = .next t ∧ t.class2 = [(mcOf region off, .load gp l.no 0)]
              ∧ t.cores = s.cores ∧ t.regs = s.regs)
            ∧ (s.mcBusy (mcOf region off) = false → s.memHeld = false →
              (s.pageOk region off (s.coreCtx gp) false = false → ∃ t, exec (.patLoadRow gp cyc 0 t0) s = .next t ∧ (t.core gp).loader = none
                ∧ t.rf (loadStat gp) 31 28 = 7 ∧ t.rf (corePg gp + 0x700) 31 0 = min (s.rf (corePg gp + 0x700) 31 0 + 1) (2 ^ 32 - 1))
              ∧ (s.pageOk region off (s.coreCtx gp) false = true →
                Tbl.get 0 s.dramUpset ((region * 2 ^ 34 + off) / 64) = 0 →
                Tbl.get 0 s.dramUpset ((region * 2 ^ 34 + (off + 64)) / 64) = 0 → l.rowAddr % 2048 ≠ 1920 → l.bank < 2 →
                let p := (l.addr + 16 * l.done) % 128 / 16
                let n := min (8 - p) (l.count - l.done)
                ∃ t, exec (.patLoadRow gp cyc 0 t0) s = .next t ∧ t.mem = s.mem
                  ∧ (∀ i, i < n → Tbl.get 0 (t.core gp).pmem (l.bank * 4096 + l.first + l.done + i)
                      = BitVec.ofNat 128 ((s.memRow (region * 2 ^ 34 + off)).toNat / 2 ^ (128 * (p + i))))
                  ∧ (l.done + n = l.count → (t.core gp).loader = none ∧ t.rf (loadStat gp) (16 + l.bank) (16 + l.bank) = 1))))

/-- A failed entropy source withholds keys and is counted (R177); zeroisation completing returns the unit to service and takes it
off every reset that waits for it (R154, R349); a cleared dispute capture reads zero (R296). -/
def Obligations.ZeroisationAndEntropy : Prop :=
  (∀ (region t0 : Nat) (s : State), region < 64 → ∃ t, exec (.entropyHealthFail region t0) s = .next t ∧ region ∈ t.entropyBad
      ∧ (∀ k, k < 80 → t.rf (corePg (80 * region + k) + 0x2A0) 31 31 = 1)
      ∧ t.rf (rcPg region 0 + 0x24) 31 0 = min (s.rf (rcPg region 0 + 0x24) 31 0 + 1) (2 ^ 32 - 1)
      ∧ ∀ gp, gp / 80 = region → t.freshKeys gp = t)
    ∧ (∀ (gp t0 : Nat) (s : State), gp < 5120 → (s.core gp).zeroing = true → s.held.contains (gp / 10) = false →
      ∃ t, exec (.zeroisationComplete (.core gp) t0) s = .next t ∧ (t.core gp).zeroing = false ∧ ∀ j ∈ t.rst, gp ∉ j.cores)
    ∧ (∀ (n t0 : Nat) (s : State), n < 4096 → s.sliceZero.contains n = true → s.held.contains (n / 8) = false →
      ∃ t, exec (.zeroisationComplete (.slice n) t0) s = .next t ∧ n ∉ t.sliceZero ∧ ∀ j ∈ t.rst, n ∉ j.slices)
    ∧ ∀ (ag : Agent) (gl gp : Nat) (s : State), gl < 4096 → s.mayWrite ag (logPg gl + 0x2B8) → s.physOf gl = some gp →
        ∃ t, exec (.dispInfoClear ag gl) s = .next t
          ∧ t.rd (corePg gp + 0x2B8) = 0 ∧ t.rd (corePg gp + 0x2BC) = 0 ∧ t.rd (corePg gp + 0x2C0) = 0 ∧ t.rd (corePg gp + 0x2C4) = 0

/-- Assay (R306 to R315): a segment starts in slack that holds it, for the core that has its region's turn, while no other segment of
the region runs; one whose MISR is the golden value advances; the first mismatch reruns the segment, the second confirms a failure; an
overdue core is marked; a turn without segments is yielded; a segment of the core's own pass counts for the pass whatever else is under way;
a targeted assay takes its core's region, compares the MISR of every segment
of its class, twice, and reports what it found. -/
def Obligations.AssaySegmentsDecide : Prop :=
  (∀ (gp cyc : Nat) (rows : List Nat) (tile : Option Nat) (s : State), gp < 5120 → rows.length ≤ 32 → (∀ la ∈ rows, laReal la = true) →
      (∀ k, tile = some k → k < 2) →
      let s0 := (s.reach gp cyc).choose (gp / 80)
      s0.tgtOf (gp / 80) = none → s0.asyOn = true → s0.turn (gp / 80) = some gp → s0.eligible gp = true → s0.segRuns (gp / 80) = false →
      (s0.core gp).gated = false → s0.gen.seamDone = false →
      s0.inSlack gp = true → cyc + cutLen s0.cut ≤ s0.bodyNow →
      ∃ t, exec (.assaySegmentStart gp cyc rows tile) s = .next t ∧ (t.asyCore gp).running = some cyc ∧ (t.asyCore gp).gained = true
        ∧ t.regs = s0.regs ∧ (∀ g, g ≠ gp → t.core g = s0.core g) ∧ (t.core gp).store = (s0.core gp).store ∧ t.mem = s0.mem)
    ∧ (∀ (gp n : Nat) (misr : BitVec 64) (s : State), gp < 5120 → (s.asyCore gp).running.isSome = true →
      let s0 := (s.reach gp (n * s.aclk / 1000)).asyRestore gp
      let x := s0.asyCore gp
      let g := (s0.goldenOf x.set_ s0.cut x.seg).1
      x.tgt = false →
      (misr = g → x.seg + 1 < cutSegs s0.cut → ∃ t, exec (.assaySegmentEnd gp misr n) s = .next t ∧ (t.asyCore gp).seg = x.seg + 1
          ∧ (t.asyCore gp).running = none ∧ (t.asyCore gp).rerun = false ∧ t.heals = s0.heals)
        ∧ (misr = g → cutSegs s0.cut ≤ x.seg + 1 → ∃ t, exec (.assaySegmentEnd gp misr n) s = .next t ∧ (t.asyCore gp).seg = 0
          ∧ (t.asyCore gp).passes = x.passes + 1 ∧ (t.asyCore gp).overdue = false)
        ∧ (misr ≠ g → x.rerun = false → ∃ t, exec (.assaySegmentEnd gp misr n) s = .next t ∧ (t.asyCore gp).seg = x.seg
          ∧ (t.asyCore gp).rerun = true ∧ (t.asyCore gp).fails = min (x.fails + 1) 0xFFFF ∧ t.heals = s0.heals)
        ∧ (misr ≠ g → x.rerun = true → s0.physState gp ≠ 2 →
          ∃ t, exec (.assaySegmentEnd gp misr n) s = .next t ∧ (∃ c k, (gp, c, k) ∈ t.heals) ∧ (t.asyCore gp).failed = true))
    ∧ (∀ (gp n seg : Nat) (rest : List Nat) (misr : BitVec 64) (y : AsyTgt) (s : State), gp < 5120 → (s.asyCore gp).running.isSome = true →
      let s0 := (s.reach gp (n * s.aclk / 1000)).asyRestore gp
      let g := s0.goldenOf s0.setVersion s0.cut seg
      (s0.asyCore gp).tgt = true → s0.asyTgt = some y → y.gp = gp → y.left = seg :: rest →
      ∃ t y', exec (.assaySegmentEnd gp misr n) s = .next t ∧ t.asyTgt = some y' ∧ y'.gp = gp ∧ y'.left = rest ∧ t.heals = s0.heals
        ∧ (misr = g.1 → y'.miss = y.miss) ∧ (misr ≠ g.1 → y.miss = none → y'.miss = some (seg, misr ^^^ g.1, g.2)))
    ∧ (∀ (gp n : Nat) (s : State), gp < 5120 → 21600 * 16000000000 < s.aon.time + 16 * n - s.debtFrom gp →
      (s.asyCore gp).overdue = false → s.physState gp ≠ 2 →
      ∃ t, exec (.assayOverdue gp n) s = .next t ∧ (t.asyCore gp).overdue = true)
    ∧ (∀ (region gp : Nat) (s : State), region < 64 → s.turn region = some gp → 65536 ≤ (s.asyCore gp).idle →
      ∃ t, exec (.assayTurnYield region) s = .next t ∧ t.turn region = none ∧ (t.asyCore gp).idle = 0 ∧ t.regs = s.regs)
    ∧ (∀ (ag : Agent) (val : Word) (s : State), s.mayWrite ag (asyPg + 0x108) →
      (s.physOf (fld val 11 0) = none → ∃ t, exec (.asyTgtGo ag val) s = .next t ∧ t.rf (asyPg + 0x10C) 30 28 = 3 ∧ t.asyTgt = s.asyTgt)
        ∧ (∀ gp, s.physOf (fld val 11 0) = some gp → (∀ h ∈ s.heals, h.1 ≠ gp) → s.reserve ≠ [] → s.asyTgt = none →
          fld val 30 28 ≤ 2 → ∃ t, exec (.asyTgtGo ag val) s = .next t ∧ t.rf (asyPg + 0x10C) 31 31 = 1 ∧ t.rf (asyPg + 0x10C) 30 28 = 0
            ∧ t.asyTgt = some { gp := gp, cls := fld val 30 28, lcore := fld val 11 0,
                                left := s.classSegs (fld val 30 28) ++ s.classSegs (fld val 30 28) } ∧ t.turn (gp / 80) = none))
    ∧ ∀ (n : Nat) (y : AsyTgt) (s : State), s.asyTgt = some y →
        (y.left ≠ [] → exec (.targetedAssayDone n) s = .next s)
          ∧ (y.left = [] → y.miss = none → ∃ t, exec (.targetedAssayDone n) s = .next t ∧ t.asyTgt = none ∧ t.rf (asyPg + 0x10C) 31 28 = 1
            ∧ t.heals = s.heals)
          ∧ (y.left = [] → y.miss.isSome = true → s.physState y.gp ≠ 2 → ∃ t, exec (.targetedAssayDone n) s = .next t ∧ t.asyTgt = none
            ∧ t.rf (asyPg + 0x10C) 31 28 = 2 ∧ ∃ c k, (y.gp, c, k) ∈ t.heals)

/-- A heal fences its core, whose BLOCK_PHYS state becomes 2; with a spare in the block the spare carries its logical number from
then on, once it has been zeroised (R155, R319, R320, R324); a checker failure that recurs in its block, or finds no spare, requests a
drain (R316, R317, R326). A configuration read without answer is remembered (R320). -/
def Obligations.HealFencesAndPromotes : Prop :=
  (∀ (gp n cause : Nat) (checker : Bool) (s : State), gp < 5120 →
      s.heals.find? (fun h => decide (h.1 / 10 = gp / 10)) = some (gp, cause, checker) →
      (∀ j ∈ s.rst, gp ∉ j.cores) → s.physState gp ≠ 2 →
      ((s.sparesOf (gp / 10) gp).head?.any s.spareBusy = false →
          ∃ t, exec (.heal gp n) s = .next t ∧ t.physState gp = 2 ∧ t.rf (corePg gp + 0x10) 1 1 = 1
            ∧ t.heals = s.heals.erase (gp, cause, checker) ∧ t.mem = s.mem
            ∧ (∀ gl q rest, s.logOf gp = some gl → checker = false → s.sparesOf (gp / 10) gp = q :: rest →
                t.physOf gl = some q ∧ t.physState q = 0)
            ∧ (checker = true → (s.sparesOf (gp / 10) gp = [] ∨ 2 ≤ Tbl.get 0 s.flash.checkers (gp / 10)) → t.rf (modPg 9 0 + 0x110) 31 31 = 1))
        ∧ ∀ gl q rest, s.logOf gp = some gl → checker = false → s.sparesOf (gp / 10) gp = q :: rest → s.spareBusy q = true →
            exec (.heal gp n) s = .next s)
    ∧ ∀ (gp : Nat) (s : State), gp < 5120 → ∃ t, exec (.healCfgTimeout gp) s = .next t ∧ gp ∈ t.cfgLost ∧ t.regs = s.regs ∧ t.cores = s.cores

/-! ### Resets, bring-up, supplies -/

/-- Resets (R348 to R353): a request that a reset in progress covers joins it; a context reset ends the context, its engines empty and EN,
CTX_PROG and FLOW_CTX.EN clear; an engine reset begins the zeroisation of its core; a partition reset that does not complete, or comes while
the domains are held fast (R397, R401), holds its blocks, one that completes releases them; a chip reset of that kind holds compute and
memory, one that completes releases them; a power cycle writes the post-mortem record and asserts PWRCYC_REQ_N under PCYC_EN; the timer of
any partition reset in progress escalates to the chip level. A dump asked for comes first, and behind a capture in progress the reset waits
(R355, R357). -/
def Obligations.ResetsByLevel : Prop :=
  (∀ (ag : Agent) (c : Nat) (dump : Bool) (env : RstEnv) (s : State), c < 16 → env.wf = true → s.aon.powered = true →
      let r := s.rstGo 1 c 0 env
      (s.rst.any (fun j => j.covers (s.rstJob r)) = true → exec (.contextReset ag c dump env) s = .next s)
      ∧ (s.rst.any (fun j => j.covers (s.rstJob r)) = false → (dump = false ∨ s.capturing = false) →
        ∃ t, exec (.contextReset ag c dump env) s = .next t ∧ t.ctxActive c = false ∧ t.ctxEng c = {} ∧ t.rf (ctxPg c + 0x100) 31 31 = 0
          ∧ t.rd (rstPg + 0x200 + 4 * c) = 0 ∧ t.rf (rtPg + 0x180 + 4 * c) 31 31 = 0)
      ∧ (s.rst.any (fun j => j.covers (s.rstJob r)) = false → dump = true → s.capturing = true →
        ∃ t b, exec (.contextReset ag c dump env) s = .next t ∧ t.dumpWait = s.dumpWait ++ [.rst b r] ∧ t.rst = s.rst ∧ t.regs = s.regs))
    ∧ (∀ (ag : Agent) (gl gp : Nat) (env : RstEnv) (s : State), gl < 4096 → env.wf = true → env.stuck = false → s.physOf gl = some gp →
      s.aon.powered = true → s.rst.any (fun j => j.covers (s.rstJob (s.rstGo 2 0 gl env))) = false →
      ∃ t, exec (.engineReset ag gl false env) s = .next t ∧ (t.core gp).zeroing = true ∧ t.rf (corePg gp + 0x280) 31 31 = 1
        ∧ ∃ j ∈ t.rst, j.level = 2 ∧ j.cores = [gp])
    ∧ (∀ (ag : Agent) (c : Nat) (dump : Bool) (env : RstEnv) (s : State), c < 16 → env.wf = true → s.aon.powered = true →
      s.rst.any (fun j => j.covers (s.rstJob (s.rstGo 3 c 0 env))) = false → (dump = false ∨ s.capturing = false) →
      let s1 := if dump then s.dumpNow (.blocks (s.ctxBlocks c)) 3 (s.rstMask (s.rstGo 3 c 0 env)) env.silent else s
      ∃ t, exec (.partitionReset ag c dump env) s = .next t ∧ ∀ b ∈ s1.ctxBlocks c, (b ∈ t.held ↔ env.stuck = true ∨ s1.heldFast = true))
    ∧ (∀ (ag : Agent) (dump : Bool) (env : RstEnv) (s : State), env.wf = true → s.aon.powered = true →
      s.rst.any (fun j => j.covers (s.rstJob (s.rstGo 4 0 0 env))) = false → (dump = false ∨ s.capturing = false) →
      let s1 := if dump then s.dumpNow .module 4 s.activeMask env.silent else s
      let stuck := env.stuck || s1.heldFast
      ∃ t, exec (.chipComputeReset ag dump env) s = .next t ∧ t.held = (if stuck then List.range 512 else []) ∧ t.memHeld = stuck)
    ∧ (∀ (ag : Agent) (dump : Bool) (env : RstEnv) (s : State), env.wf = true → s.aon.powered = true →
      s.rst.any (fun j => j.covers (s.rstJob (s.rstGo 5 0 0 env))) = false → (dump = false ∨ s.capturing = false) →
      let s1 := if dump then s.dumpNow .module 5 s.activeMask env.silent else s
      ∃ t, exec (.powerCycle ag dump env) s = .next t ∧ t.memHeld = true ∧ t.rf (rstPg + 0x104) 31 28 = 8 + 5
        ∧ t.flash.postMortem = s1.recent.drop (s1.recent.length - 120)
        ∧ t.aon.pwrcyc = (s1.aon.pwrcyc || decide (s1.rf (rstPg + 0x10C) 8 8 = 1)))
    ∧ ∀ (n us : Nat) (env : RstEnv) (j : RstJob) (s : State), env.wf = true → s.rst[n]? = some j → j.level = 3 →
        (s.rf (rstPg + 0x10C) 9 9 = 0 ∨ s.capturing = false) →
        ∃ t, exec (.resetEscalated n us env) s = .next t ∧ t.held = (if env.stuck || s.heldFast then List.range 512 else [])
          ∧ t.memHeld = (env.stuck || s.heldFast)

/-- Hearths (R354): a heartbeat clears the count of missed ones and a miss adds to it; after ten missed ones the standby takes
over once, and when it is itself the one that fails no hearth serves; with main power and no hearth, or no heartbeat for 1 s, the
watchdog asserts PWRCYC_REQ_N. -/
def Obligations.HearthsWatchEachOther : Prop :=
  (∀ (ok : Bool) (s : State), ∃ t, exec (.heartbeat ok) s = .next t ∧ t.aon.missed = (if ok then 0 else s.aon.missed + 1)
      ∧ t.rf (rstPg + 0x114) 1 1 = bit ok ∧ ∀ a, a ≠ rstPg + 0x114 → t.rd a = s.rd a)
    ∧ (∀ (n : Nat) (s : State), 10 ≤ s.aon.missed →
      (s.rf (rstPg + 0x114) 0 0 = 1 → ∃ t, exec (.hearthTakeover n) s = .next t ∧ t.aon.hearthDead = true ∧ t.regs = s.regs)
        ∧ (s.rf (rstPg + 0x114) 0 0 = 0 → ∃ t, exec (.hearthTakeover n) s = .next t ∧ t.rf (rstPg + 0x114) 0 0 = 1 ∧ t.aon.missed = 0
          ∧ t.flash.replaceSoon = true ∧ t.mem = s.mem ∧ t.cores = s.cores ∧ ∃ r ∈ t.recQ, r.cls = 0x43 ∧ r.sev = 3))
    ∧ ∀ s : State, s.aon.powered = true → (s.aon.hearthDead = true ∨ s.aon.crystal = false ∨ 10000 ≤ s.aon.missed) →
        ∃ t, exec .aonWatchdog s = .next t ∧ t.aon.pwrcyc = true ∧ t.regs = s.regs

/-- Bring-up (R329 to R344): PWR_EN or main power begins a cold bring-up only when nothing is missing, a PWR_EN before the auxiliary
supply is kept for later, and a step whose work never ends stays in progress; its timer stops a cold bring-up with FAIL and cause 2, and
sends a warm one to the cold path with its shutdown record spent; a warm request runs from step 3; PERST_N holds the ports, stops the timer
of step 8 while Quexon trains, and its release lets a bring-up that waits for it go on to READY, unless a fabric port is still training or a
Quexon port with a peer has not trained. The cable supply comes on in step 8 (R425). Loss of main power is OFF at once, in a bring-up too:
nothing is powered, no session, no stroke (R429). -/
def Obligations.BringUpAndPins : Prop :=
  (∀ (env : BootEnv) (s : State), env.wf = true →
      (s.aon.aux = false → ∃ t, exec (.pwrEnAssert env) s = .next t ∧ t.aon = { s.aon with pwrEnv := some env } ∧ t.regs = s.regs)
        ∧ (s.aon.aux = true → s.aon.main = false → ∃ t, exec (.pwrEnAssert env) s = .next t ∧ t.aon = { s.aon with pwrEn := true }
          ∧ t.rf (pwrPg + 0x118) 31 31 = 1)
        ∧ (s.aon.aux = true → s.aon.main = true → s.aon.mainBad = false → s.aon.powered = false → s.aon.booting = false → env.hang = 1 →
          ∃ t, exec (.pwrEnAssert env) s = .next t ∧ t.rf bootStat 27 24 = 1 ∧ t.aon.booting = true ∧ t.aon.powered = false)
        ∧ (s.aon.pwrEn = false → ∃ t, exec (.mainPowerApplied env) s = .next t ∧ t.aon = { s.aon with main := true } ∧ t.regs = s.regs)
        ∧ (s.aon.aux = true → s.aon.pwrEn = true → s.aon.mainBad = false → s.aon.powered = false → s.aon.booting = false → env.hang = 2 →
          ∃ t, exec (.mainPowerApplied env) s = .next t ∧ t.rf bootStat 27 24 = 2 ∧ t.aon.booting = true ∧ t.aon.powered = true
            ∧ t.aon.pgood = true))
    ∧ (∀ s : State, (s.aon.powered = true ∨ s.aon.booting = true) →
      (∃ t, exec .pwrEnDeassert s = .next t ∧ t.aon.powered = false ∧ t.aon.booting = false ∧ t.aon.pgood = false ∧ t.aon.cable = false
          ∧ t.aon.pwrEn = false ∧ t.dbg = none ∧ t.gen.running = false ∧ t.cores = [] ∧ t.mem = [])
        ∧ ∀ f, ∃ t, exec (.mainPowerFault f) s = .next t ∧ t.aon.powered = false ∧ t.aon.booting = false ∧ t.aon.mainBad = true
          ∧ t.aon.cable = false ∧ t.dbg = none ∧ t.gen.running = false ∧ t.cores = [] ∧ t.mem = [])
    ∧ (∀ (env : BootEnv) (s : State), env.wf = true → s.aon.booting = true → s.aon.waitPerst = none → s.rf bootStat 27 24 ≠ 2 →
      (s.rf bootStat 27 24 = 1 ∨ s.aon.crystal = true) →
      (s.rf bootStat 29 29 = 0 → ∃ t, exec (.bringupStepTimeout env) s = .next t ∧ t.rf bootStat 30 30 = 1 ∧ t.rf bootStat 23 20 = 2
          ∧ t.aon.booting = false ∧ (∀ p, p < 12 → t.portState p = 0))
        ∧ (s.rf bootStat 29 29 = 1 → env.hang = 3 → ∃ t, exec (.bringupStepTimeout env) s = .next t ∧ t.rf bootStat 27 24 = 3
          ∧ t.rf bootStat 29 29 = 0 ∧ ∀ r, t.flash.shut = some r → r.consumed = true))
    ∧ (∀ (env : BootEnv) (s : State), env.wf = true → s.aon.crystal = true → s.aon.thermtrip = false → (∀ j ∈ s.rst, j.level < 5) →
      s.aon.powered = true → env.hang = 3 → ∃ t, exec (.warm .mgmt env) s = .next t ∧ t.rf bootStat 27 24 = 3)
    ∧ (∀ (env : BootEnv) (n : Nat) (s : State), env.wf = true → s.rf (pwrPg + 0x118) 30 30 = 0 → s.aon.powered = true → s.aon.pwrEn = true →
      s.qLive .qa = false → s.qLive .qb = false →
      (s.ready = false → (s.aon.booting = false ∨ s.aon.waitPerst.isSome = true ∨ s.rf bootStat 27 24 ≠ 8) →
          ∃ t, exec (.perstAssert env n) s = .next t ∧ t.rf (pwrPg + 0x118) 30 30 = 1 ∧ t.aon = s.aon ∧ t.mem = s.mem)
        ∧ (s.ready = false → s.aon.booting = true → s.aon.waitPerst = none → s.rf bootStat 27 24 = 8 →
          ∃ t, exec (.perstAssert env n) s = .next t ∧ t.rf (pwrPg + 0x118) 30 30 = 1 ∧ t.mem = s.mem
            ∧ t.aon = { s.aon with waitPerst := some (decide (s.rf bootStat 29 29 = 1), env) })
        ∧ (s.ready = true → s.aon.crystal = true → s.aon.thermtrip = false → (∀ j ∈ s.rst, j.level < 5) → env.hang = 3 →
          ∃ t, exec (.perstAssert env n) s = .next t ∧ t.rf bootStat 27 24 = 3))
    ∧ (∀ (q : List (QPort × QTrainResult)) (warm : Bool) (env : BootEnv) (s : State), s.rf (pwrPg + 0x118) 30 30 = 1 →
      s.aon.waitPerst = some (warm, env) → env.hang = 0 →
      ∃ t, exec (.perstRelease q) s = .next t ∧ t.aon.waitPerst = none
        ∧ ((t.ready = true ∧ t.aon.booting = false ∧ t.aon.lastReady = true) ∨ (∃ x ∈ q, t.qUp x.1 = false)
          ∨ ∃ p, p < 12 ∧ t.portUp p = false ∧ t.portState p ≠ 0 ∧ t.portState p ≠ 5))
    ∧ (∀ (env : BootEnv) (s : State), (s.coldStep env 8).2.aon.cable = true)
    ∧ ∀ s : State, s.rf (pwrPg + 0x118) 30 30 = 1 → s.rf (pwrPg + 0x118) 26 26 = 0 → s.aon.pwrEn = true →
        ∃ t, exec .chatter s = .next t ∧ t.rf (pwrPg + 0x118) 26 26 = 1
          ∧ t.rf (pwrPg + 0x120) 31 16 = min (s.rf (pwrPg + 0x120) 31 16 + 1) 65535 ∧ t.aon = s.aon

/-- Shutdown and the auxiliary domain (R333, R345, R407, R428, R431, R432): with nothing to reset a shutdown writes its record at once,
else it waits; in OFF a sample outside the limits is an excursion; the auxiliary supply starts the always-on domain, samples the slot, and
lets a PWR_EN that came before it take effect; without it all is at reset but fuses, flash and the count of epochs; a stopped crystal
stops the generator. -/
def Obligations.ShutdownAndAuxiliaryDomain : Prop :=
  (∀ (ag : Agent) (b : BistResult) (s : State), b.wf = true → s.aon.powered = true → s.aon.crystal = true → s.aon.booting = false →
      s.aon.shutWait = none → (∀ c, c < 16 → s.ctxActive c = false) →
      (s.rst = [] → ∃ t r, exec (.shutdown ag b) s = .next t ∧ t.rf (bootPg + 0x118) 31 30 = 2 ∧ t.flash.shut = some r
          ∧ r.consumed = false ∧ r.crcOk = true ∧ r.epoch = s.aon.epoch ∧ r.at_ = s.aon.time ∧ t.aon.shutWait = none ∧ t.update = none)
        ∧ (s.rst ≠ [] → ∃ t, exec (.shutdown ag b) s = .next t ∧ t.rf (bootPg + 0x118) 31 30 = 1 ∧ t.aon.shutWait = some b
          ∧ t.update = none ∧ t.flash.shut = s.flash.shut ∧ (s.update = none → t.flash = s.flash)))
    ∧ (∀ (temp : Int) (s : State), s.aon.aux = true → s.aon.powered = false →
      ∃ t, exec (.aonThermalSample temp) s = .next t ∧ t.aon.time = s.aon.time + 16000000000
        ∧ t.aon.excursion = (s.aon.excursion || decide (1360 < temp) || decide (temp < -320)) ∧ t.regs = s.regs)
    ∧ (∀ (slot : BitVec 6) (s : State), s.aon.aux = false →
      (s.aon.pwrEnv = none → ∃ t, exec (.auxValid slot) s = .next t ∧ t.aon.aux = true ∧ t.aon.epoch = s.aon.epoch + 1
          ∧ t.rf (pwrPg + 0x118) 5 0 = slot.toNat ∧ t.aon.pwrEn = s.aon.pwrEn ∧ ∀ k, s.flash.drain = some k → t.rf (modPg 9 0 + 0x110) 31 31 = 1)
        ∧ (∀ env, s.aon.pwrEnv = some env →
          (s.aon.main = false → ∃ t, exec (.auxValid slot) s = .next t ∧ t.aon.aux = true ∧ t.aon.pwrEn = true ∧ t.aon.pwrEnv = none
              ∧ t.rf (pwrPg + 0x118) 31 31 = 1 ∧ t.rf (pwrPg + 0x118) 5 0 = slot.toNat)
            ∧ (s.aon.main = true → s.aon.mainBad = false → s.aon.powered = false → s.aon.booting = false → env.hang = 1 →
              ∃ t, exec (.auxValid slot) s = .next t ∧ t.aon.aux = true ∧ t.aon.booting = true ∧ t.rf bootStat 27 24 = 1)))
    ∧ (∀ s : State, ∃ t, exec .auxLoss s = .next t ∧ t.regs = State.reset.regs ∧ t.flash = s.flash ∧ t.aon.epoch = s.aon.epoch
      ∧ t.aon.aux = false ∧ t.aon.powered = false ∧ t.mem = [] ∧ t.cores = [] ∧ t.dbg = none)
    ∧ ∀ s : State, ∃ t, exec .crystalStops s = .next t ∧ t = s.modAon (fun a => { a with crystal := false })
        ∧ exec .strokeBoundary t = .next t ∧ ∀ body, exec (.seam body) t = .next t

/-! ### Dumps, event log, management, power -/

/-- Dumps (R355 to R357, R422, R423): a capture starts with the next DUMP_SEQ, or the request joins a capture of its own scope or waits for another; a unit without
answer becomes a placeholder; a completed capture goes to the next slot and its stream starts; the stream goes out 1,024 B at a
time; DUMP_RESEND streams the dump of a slot again, or waits for the capture or stream in progress. -/
def Obligations.DumpsCaptureAndStream : Prop :=
  (∀ (ag : Agent) (val : Word) (silent : List Nat) (s : State), (∀ a ∈ silent, a < 2 ^ 33) → s.mayWrite ag (dumpPg + 0x100) →
      fld val 30 28 ≤ 1 →
      (s.rf (dumpPg + 0x104) 31 31 = 0 → ∃ t d, exec (.dumpCtlGo ag val silent) s = .next t ∧ t.rf (dumpPg + 0x104) 31 31 = 1
          ∧ t.rd (dumpPg + 0x108) = s.rd (dumpPg + 0x108) + 1 ∧ t.dump = some d ∧ d.seq = (t.rd (dumpPg + 0x108)).toNat ∧ d.trigger = 0
          ∧ d.scope = s.ctlScope (val ||| 0x80000000))
        ∧ (s.rf (dumpPg + 0x104) 31 31 = 1 → ∃ t, exec (.dumpCtlGo ag val silent) s = .next t ∧ t.dump = s.dump ∧ t.regs = s.regs
          ∧ t.dumpWait = (if s.sameScope (s.ctlScope (val ||| 0x80000000)) then s.dumpWait
              else s.dumpWait ++ [.ctl (val ||| 0x80000000) silent])))
    ∧ (∀ (addr : Nat) (d : Dump) (s : State), addr < 2 ^ 33 → s.rf (dumpPg + 0x104) 31 31 = 1 → s.dump = some d →
      ∃ t d', exec (.dumpReadTimeout addr) s = .next t ∧ t.dump = some d' ∧ (∀ u ∈ d'.units, u.addr = addr → u.silent = true ∧ u.words = [])
        ∧ (∀ u ∈ d.units, u.addr ≠ addr → u ∈ d'.units) ∧ t.regs = s.regs)
    ∧ (∀ (d : Dump) (s : State), s.rf (dumpPg + 0x104) 31 31 = 1 → s.dump = some d → s.dumpWait = [] → d.store = false →
      ∃ t d', exec .dumpComplete s = .next t ∧ t.rf (dumpPg + 0x104) 31 30 = 1 ∧ t.rd (dumpPg + 0x10C) = BitVec.ofNat 32 d.len
        ∧ Tbl.find? t.dumpSlots s.dumpNext = some d' ∧ d'.units = d.units ∧ d'.seq = d.seq ∧ t.dumpNext = (s.dumpNext + 1) % 256)
    ∧ (∀ (d : Dump) (s : State), s.dump = some d → s.rf (dumpPg + 0x104) 30 30 = 1 → s.streams = true → s.log.length < 44 →
      d.sent + 1024 < d.len →
      ∃ t bytes, exec .dumpChunkSend s = .next t ∧ t.out = s.out ++ [.datagram s.udpHead 2 d.seq d.sent bytes] ∧ bytes.length = 16 + 1024
        ∧ t.dump = some { d with sent := d.sent + 1024 })
    ∧ ∀ (ag : Agent) (val : Word) (s : State), s.mayWrite ag (evtPg + 0x12C) →
        (s.rf (dumpPg + 0x104) 31 30 ≠ 0 → ∃ t, exec (.dumpResend ag val) s = .next t ∧ t.resend = some (fld val 7 0) ∧ t.dump = s.dump)
          ∧ (s.rf (dumpPg + 0x104) 31 30 = 0 → ∀ d, Tbl.find? s.dumpSlots (fld val 7 0) = some d →
            ∃ t, exec (.dumpResend ag val) s = .next t ∧ t.dump = some { d with sent := 0 } ∧ t.rf (dumpPg + 0x104) 30 30 = 1)

/-- The event log and the stream (R419 to R422): a record that reaches the hearth takes the next number and joins a log with room,
a UF record raises ALERT; up to 44 records leave in one datagram, addressed by the management registers; an idle second sends its mark; a
request for SRC_IP is answered with the MAC address;
management alone clears ALERT (a host's write does not: the model's choice, log entry 48); LINK_UP follows the link, with AN_EN only once
auto-negotiation has completed. -/
def Obligations.EventLogAndStream : Prop :=
  (∀ (n : Nat) (r : Rec) (s : State), s.hearthUp = true → s.recQ[n]? = some r →
      let seq := nextSeq (s.rd (evtPg + 0x108)).toNat
      ∃ t, exec (.eventRecord n) s = .next t ∧ t.rd (evtPg + 0x108) = BitVec.ofNat 32 seq ∧ t.recQ = s.recQ.eraseIdx n
        ∧ (s.log.length < 32768 → t.log = s.log ++ [{ seq := seq, rec_ := r }]) ∧ (r.sev = 3 → t.aon.alert = true ∧ .ibi ∈ t.out)
        ∧ t.mem = s.mem ∧ t.cores = s.cores)
    ∧ (∀ (aged : Bool) (s : State), s.hearthUp = true → s.log ≠ [] → s.streams = true → (aged = true ∨ 44 ≤ s.log.length) →
      ∃ t first bytes, exec (.eventDatagramSend aged) s = .next t ∧ t.log = s.log.drop 44 ∧ t.out = s.out ++ [.datagram s.udpHead 1 first 0 bytes]
        ∧ bytes.length = 16 + 32 * min 44 s.log.length)
    ∧ (∀ s : State, s.hearthUp = true → s.streams = true → s.log = [] → s.rf (dumpPg + 0x104) 30 30 = 0 →
      ∃ t first bytes, exec .idleDatagram s = .next t ∧ t.out = s.out ++ [.datagram s.udpHead 4 first 0 bytes] ∧ bytes.length = 16)
    ∧ (∀ s : State, s.hearthUp = true →
      (s.rf (evtPg + 0x104) 31 31 = 1 → ∃ t, exec (.arpRequest (s.rd (evtPg + 0x118))) s = .next t
          ∧ t.out = s.out ++ [.arp (s.rd (evtPg + 0x118)) s.flash.mac] ∧ t.regs = s.regs)
        ∧ (∀ ok, (s.rf (evtPg + 0x100) 30 30 = 0 ∨ ok = true) → ∃ t, exec (.mgmtLinkUp ok) s = .next t ∧ t.rf (evtPg + 0x104) 31 31 = 1
          ∧ ∀ a, a ≠ evtPg + 0x104 → t.rd a = s.rd a)
        ∧ (s.rf (evtPg + 0x100) 30 30 = 1 → exec (.mgmtLinkUp false) s = .next s))
    ∧ ∀ s : State, (∃ t, exec .mgmtLinkDown s = .next t ∧ t.rf (evtPg + 0x104) 31 31 = 0 ∧ ∀ a, a ≠ evtPg + 0x104 → t.rd a = s.rd a)
        ∧ (∃ t, exec (.alertRelease .mgmt) s = .next t ∧ t.aon.alert = false ∧ t.rf (evtPg + 0x104) 29 29 = 0)
        ∧ ∀ ag, ag ≠ .mgmt → exec (.alertRelease ag) s = .next s

/-- MCTP control and PLDM monitoring (R415, R416), while a hearth serves: SETDASA to the static address 0x10 + SLOT_ID and ENTDAA give
the dynamic address, Set Endpoint ID the endpoint; every request is answered in units of 64 B, a sensor with the value held at the last
boundary. Firmware update (R385, R417, R418), while a hearth serves: one update at a time, which starts without what an earlier one left;
components 1 to 3 are accepted, in ROM recovery the first alone; a component's transfer begins by giving up its inactive copy, and the
module asks for its data; data gather; the last data are verified, and what fails is not kept; activation ends the update and makes
verified copies active. -/
def Obligations.ManagementMessages : Prop :=
  let ans (s : State) (n : Nat) (vals : List Nat) : List Out := s.out ++ [.reply n (mctpUnits (Config.pldmAnswer n vals))]
  (∀ s : State, s.hearthUp = true →
      (∀ addr, addr < 128 → ∀ c ∈ [Instr.setdasa (0x10 + s.rf (pwrPg + 0x118) 5 0) addr, Instr.entdaa addr],
          ∃ t, exec c s = .next t ∧ t.rf i3cStat 31 24 = 128 + addr ∧ t.out = s.out ∧ ∀ a, a ≠ i3cStat → t.rd a = s.rd a)
        ∧ (∀ static addr, static < 128 → addr < 128 → static ≠ 0x10 + s.rf (pwrPg + 0x118) 5 0 → exec (.setdasa static addr) s = .next s)
        ∧ (∀ eid, eid < 256 → ∃ t, exec (.setEndpointId eid) s = .next t ∧ t.rf i3cStat 7 0 = eid ∧ t.out = ans s 1 [eid])
        ∧ (∃ t, exec .getEndpointId s = .next t ∧ t.regs = s.regs ∧ t.out = ans s 2 [s.rf i3cStat 7 0])
        ∧ (∃ t, exec .getMctpVersionSupport s = .next t ∧ t.regs = s.regs ∧ t.out = ans s 3 [])
        ∧ (∃ t, exec .getMessageTypeSupport s = .next t ∧ t.regs = s.regs ∧ t.out = ans s 4 [0, 1, 5])
        ∧ (∀ h, h < 2 ^ 32 → ∃ t, exec (.getPdr h) s = .next t ∧ t.regs = s.regs ∧ t.out = ans s 5 [h])
        ∧ (∀ id, 1 ≤ id → id ≤ 7 → ∃ t, exec (.sensorRead id) s = .next t ∧ t.regs = s.regs
          ∧ t.out = ans s 6 [id, (BitVec.ofInt 32 (Tbl.get 0 s.pow.held id)).toNat])
        ∧ (∀ c, c < 256 → ∃ t, exec (.pldmBaseRequest c) s = .next t ∧ t.regs = s.regs ∧ t.out = ans s 7 [c])
        ∧ ∀ l : List (BitVec 8), (mctpUnits l).flatten = l ∧ ∀ u ∈ mctpUnits l, u.length ≤ 64)
    ∧ (∀ s : State, s.hearthUp = true →
      (s.update = none → (∃ t, exec .requestUpdate s = .next t ∧ t.update = some {} ∧ t.regs = s.regs ∧ t.flash.verified = []
            ∧ (∀ c, c ∉ s.flash.activated → Tbl.find? t.flash.fwNew c = none) ∧ t.flash.fw = s.flash.fw)
          ∧ ∃ t, exec .activateFirmware s = .next t ∧ t.flash = s.flash ∧ t.update = none)
        ∧ ∀ u, s.update = some u →
          (∃ t, exec .requestUpdate s = .next t ∧ t.update = some u ∧ t.regs = s.regs ∧ t.flash = s.flash)
            ∧ (∀ comps, (∀ c ∈ comps, c < 65536) → ∃ t u', exec (.passComponentTable comps) s = .next t ∧ t.update = some u'
              ∧ ∀ c, (c ∈ u'.comps ↔ c ∈ comps ∧ s.mayUpdate c = true))
            ∧ (∀ c, c < 65536 → u.comps.contains c = true → ∃ t u', exec (.updateComponent c) s = .next t ∧ t.update = some u'
              ∧ u'.current = some c ∧ u'.data = [] ∧ Tbl.find? t.flash.fwNew c = none ∧ c ∉ t.flash.verified ∧ t.flash.fw = s.flash.fw
              ∧ t.out = ans s 10 [0, 0] ++ [.reply 13 (mctpUnits (Config.pldmAnswer 13 [c, 0]))])
            ∧ (∀ c img env, env.wf = true → u.current = some c →
              (∃ t u', exec (.requestFirmwareData false img env) s = .next t ∧ t.update = some u' ∧ u'.data = u.data ++ img.data
                  ∧ t.flash = s.flash ∧ t.out = ans s 13 [c, (u.data ++ img.data).length])
                ∧ (s.verifyResult c { img with data := u.data ++ img.data } ≠ 0 →
                  ∃ t u', exec (.requestFirmwareData true img env) s = .next t ∧ t.update = some u' ∧ u'.current = none ∧ t.flash = s.flash)
                ∧ (s.verifyResult c { img with data := u.data ++ img.data } = 0 → s.aon.recovery = false →
                  ∃ t, exec (.requestFirmwareData true img env) s = .next t ∧ c ∈ t.flash.verified
                    ∧ Tbl.find? t.flash.fwNew c = some { img with data := u.data ++ img.data }))
            ∧ (∃ t, exec .activateFirmware s = .next t ∧ t.update = none ∧ t.flash.verified = []
              ∧ (∀ c ∈ s.flash.verified, c ≠ 3 → c ∈ t.flash.activated)
              ∧ ∀ m, 3 ∈ s.flash.verified → Tbl.find? s.flash.fwNew 3 = some m → t.flash.assay = some m ∧ t.flash.assayPrev = s.flash.assay
                ∧ (s.aon.powered = true → t.reserve = (m :: s.reserve).take 2)))

/-- PWR_CTL keeps the request and the target, and IDLE_DENY shows a request that waits; leaving I2 begins with a request for another state
(for I1 too: the model's choice, log entry 69) and ends with compute powered and zeroised and the core PLL relocked, to run from the next
boundary; MC_STAT shows self-refresh of a trained channel at the s16 of a stroke in I2 and of no other (R398, R399, R439).
A sample joins those of the last millisecond and raises the peak (R400). -/
def Obligations.PowerRequestsAndSamples : Prop :=
  (∀ (ag : Agent) (target : Nat) (s : State), target < 2048 → s.mayWrite ag (pwrPg + 0x100) →
      (∃ t, exec (.pwrCtlRun ag target) s = .next t ∧ t.rf (pwrPg + 0x100) 31 30 = 0 ∧ t.rf (pwrPg + 0x100) 10 0 = target
          ∧ t.rf pwrStat 23 23 = 0 ∧ (s.pwrState = 3 → s.pow.runNext = false → t.pow.leaving = true))
        ∧ (∃ t, exec (.pwrCtlI1 ag target) s = .next t ∧ t.rf (pwrPg + 0x100) 31 30 = 1 ∧ t.rf (pwrPg + 0x100) 10 0 = target
          ∧ t.rf pwrStat 23 23 = bit (s.aon.powered && decide (s.pwrState ≠ 2))
          ∧ t.pow.leaving = (decide (s.pwrState = 3) && !s.pow.runNext))
        ∧ ∃ t, exec (.pwrCtlI2 ag target) s = .next t ∧ t.rf (pwrPg + 0x100) 31 30 = 2 ∧ t.rf (pwrPg + 0x100) 10 0 = target
          ∧ t.rf pwrStat 23 23 = bit (s.aon.powered && decide (s.pwrState ≠ 3)) ∧ t.pow.leaving = false)
    ∧ (∀ s : State, s.pwrState = 3 → s.pow.leaving = true →
      ∃ t, exec .i2ExitDone s = .next t ∧ (s.heldFast = false → t.held = []) ∧ t.openPages = []
        ∧ (s.rf (clkPg + 0x104) 30 30 = 0 → t.rf (clkPg + 0x104) 29 29 = 1) ∧ t.pow.leaving = false ∧ t.pow.runNext = true
        ∧ (∀ gp, gp < 5120 → (t.core gp).zeroing = false ∧ (t.core gp).store = [] ∧ (t.core gp).queues = [])
        ∧ t.mem = s.mem)
    ∧ (∀ (mc : Nat) (s : State), mc < 128 → (s.pwrState ≠ 3 → s.publishMc.rf (mcPg mc + 0x100) 30 30 = 0)
      ∧ (s.pwrState = 3 → s.rf (mcPg mc + 0x100) 31 31 = 1 → s.publishMc.rf (mcPg mc + 0x100) 30 30 = 1))
    ∧ ∀ (watts mv i10ma : Nat) (tj : Int) (s : State), watts < 65536 → mv < 65536 → i10ma < 65536 → s.aon.powered = true →
        ∃ t, exec (.powerSample watts mv i10ma tj) s = .next t ∧ t.pow.peak = max s.pow.peak watts ∧ t.pow.tj = tj ∧ t.pow.vin = mv
          ∧ (s.pow.samples.length < 100 → t.pow.samples = s.pow.samples ++ [watts])
          ∧ t.rd (pwrPg + 0x110) = BitVec.ofNat 32 (BitVec.ofInt 16 tj).toNat ∧ t.cores = s.cores ∧ t.mem = s.mem

/-- A hot junction starts throttling once and is recorded; a trip holds compute and memory in reset; the brake sets its pin and
counts, and its release lifts the floor at the next boundary, which sends the record (R401, R402, R404). No edge of REFCLK for 100 ns, or a
count outside 990 to 1,010 in 10 µs, leaves NCLK and ACLK at 400 MHz, coasting, and every port down; a gap and a count inside the limits
change nothing; a window inside 150 ppm ends it (R411 to R413). CLK_OBS_SEL takes the value written to it, and the CLK_OBS pin follows
it (R414). -/
def Obligations.ThermalBrakeAndClocks : Prop :=
  (∀ (tj : Int) (region n : Nat) (s : State), region < 64 → s.aon.powered = true →
      (1520 ≤ tj → s.pow.throttle = false → s.lvlSuppresses pwrPg 1 = false → ∃ t r, exec (.thermalThrottle tj region n) s = .next t
          ∧ t.pow.throttle = true ∧ t.rf pwrStat 25 25 = 1 ∧ t.recQ = s.recQ ++ [r] ∧ r.cls = 0x41 ∧ r.sev = 1)
        ∧ (1840 ≤ tj → s.aon.thermtrip = false → ∃ t, exec (.thermalTrip tj region n) s = .next t ∧ t.aon.thermtrip = true
          ∧ t.aon.excursion = true ∧ t.held = List.range 512 ∧ t.memHeld = true ∧ ∃ r ∈ t.recQ, r.cls = 0x41 ∧ r.sev = 3))
    ∧ (∀ (tb cyc n : Nat) (s : State), s.aon.powered = true → s.rf (pwrPg + 0x118) 29 29 = 0 →
      ∃ t, exec (.powerBrakeAssert tb cyc n) s = .next t ∧ t.pow.brake = true
        ∧ (tb ≤ 15000 → t.rf (pwrPg + 0x118) 29 29 = 1 ∧ t.rf pwrStat 28 27 = 2 ∧ t.cores = s.cores
            ∧ t.rf (pwrPg + 0x114) 31 16 = min (s.rf (pwrPg + 0x114) 31 16 + 1) 65535))
    ∧ (∀ (n : Nat) (s : State), s.rf (pwrPg + 0x118) 29 29 = 1 →
      ∃ t, exec (.powerBrakeRelease n) s = .next t ∧ t.pow.liftNext = true ∧ t.rf (pwrPg + 0x118) 29 29 = 0 ∧ t.rf pwrStat 28 28 = 0
        ∧ t.pow.brake = s.pow.brake ∧ (s.aon.powered = true → t.pow.relAt = some (s.stroke, tclkCycle n)) ∧ t.recQ = s.recQ)
    ∧ (∀ (gap edges n : Nat) (s : State), ¬ (100 ≤ gap ∨ edges < 990 ∨ 1010 < edges) → exec (.refclkLost gap edges n) s = .next s)
    ∧ (∀ (gap edges n : Nat) (s : State), s.aon.powered = true → s.rf (clkPg + 0x104) 30 30 = 0 → (100 ≤ gap ∨ edges < 990 ∨ 1010 < edges) →
      ∃ t, exec (.refclkLost gap edges n) s = .next t ∧ (∃ r ∈ t.recQ, r.cls = 0x40 ∧ r.sev = 3)
        ∧ ((∀ p, p < 12 → s.portState p = 0 ∨ s.portState p = 5) → s.qLive .qa = false → s.qLive .qb = false →
          t.rf (clkPg + 0x104) 30 30 = 1 ∧ t.rf (clkPg + 0x104) 10 0 = 400 ∧ t.rf pwrStat 10 0 = 400
            ∧ t.rf (clkPg + 0x108) 31 0 = min (s.rf (clkPg + 0x108) 31 0 + 1) (2 ^ 32 - 1)))
    ∧ (∀ (ppm : Int) (n : Nat) (s : State), s.aon.powered = true →
      (s.rf (clkPg + 0x104) 30 30 = 1 → ppm.natAbs ≤ 150 → ∃ t, exec (.refPpmWindow ppm n) s = .next t ∧ t.rf (clkPg + 0x104) 30 30 = 0
          ∧ t.rd (clkPg + 0x10C) = BitVec.ofInt 32 ppm)
        ∧ (s.rf (clkPg + 0x104) 30 30 = 0 → ∃ t, exec (.refPpmWindow ppm n) s = .next t ∧ t.rd (clkPg + 0x10C) = BitVec.ofInt 32 ppm
          ∧ t.rf (clkPg + 0x104) 25 25 = bit (decide (100 < ppm.natAbs))))
    ∧ ∀ (ag : Agent) (val : Word) (s : State), s.mayWrite ag (clkPg + 0x110) →
        ∃ t, exec (.clkObsSelWrite ag val) s = .next t ∧ t.rd (clkPg + 0x110) &&& 0xFC70F = val &&& 0xFC70F
          ∧ (s.aon.powered = true → t.pow.clkObs = (t.rf (clkPg + 0x110) 10 8, t.rf (clkPg + 0x110) 19 14, t.rf (clkPg + 0x110) 3 0)
              ∧ t.out = s.out ++ [.clkObs t.pow.clkObs.1 t.pow.clkObs.2.1 t.pow.clkObs.2.2])
          ∧ ∀ a, a ≠ clkPg + 0x110 → t.rd a = s.rd a
end

