-- ==== Sys2Proof/Laws/State.lean ====
section
/-! SUPPORT. What each basic update of the state does to each field: one lemma per field and update, all by `rfl`. -/

namespace Sys2Proof.Machine

variable (s : State)

section
variable (a : Nat) (v : Word)
@[simp] theorem State.wr_shadow : (s.wr a v).shadow = s.shadow := rfl
@[simp] theorem State.wr_gen : (s.wr a v).gen = s.gen := rfl
@[simp] theorem State.wr_cores : (s.wr a v).cores = s.cores := rfl
@[simp] theorem State.wr_supp : (s.wr a v).supp = s.supp := rfl
@[simp] theorem State.wr_cap : (s.wr a v).cap = s.cap := rfl
@[simp] theorem State.wr_win : (s.wr a v).win = s.win := rfl
@[simp] theorem State.wr_winPar : (s.wr a v).winPar = s.winPar := rfl
@[simp] theorem State.wr_recQ : (s.wr a v).recQ = s.recQ := rfl
@[simp] theorem State.wr_net : (s.wr a v).net = s.net := rfl
@[simp] theorem State.wr_arrived : (s.wr a v).arrived = s.arrived := rfl
@[simp] theorem State.wr_mem : (s.wr a v).mem = s.mem := rfl
@[simp] theorem State.wr_dbg : (s.wr a v).dbg = s.dbg := rfl
@[simp] theorem State.wr_perturbed : (s.wr a v).perturbed = s.perturbed := rfl
@[simp] theorem State.wr_nextXfer : (s.wr a v).nextXfer = s.nextXfer := rfl
@[simp] theorem State.wr_xfers : (s.wr a v).xfers = s.xfers := rfl
@[simp] theorem State.wr_reqs : (s.wr a v).reqs = s.reqs := rfl
@[simp] theorem State.wr_flows : (s.wr a v).flows = s.flows := rfl
@[simp] theorem State.wr_ceBursts : (s.wr a v).ceBursts = s.ceBursts := rfl
@[simp] theorem State.wr_openPages : (s.wr a v).openPages = s.openPages := rfl
@[simp] theorem State.wr_hotDevs : (s.wr a v).hotDevs = s.hotDevs := rfl
@[simp] theorem State.wr_patrolAt : (s.wr a v).patrolAt = s.patrolAt := rfl
@[simp] theorem State.wr_xbarRR : (s.wr a v).xbarRR = s.xbarRR := rfl
@[simp] theorem State.wr_netRR : (s.wr a v).netRR = s.netRR := rfl
@[simp] theorem State.wr_suppNext : (s.wr a v).suppNext = s.suppNext := rfl
@[simp] theorem State.wr_memWrs : (s.wr a v).memWrs = s.memWrs := rfl
@[simp] theorem State.wr_class2 : (s.wr a v).class2 = s.class2 := rfl
@[simp] theorem State.wr_vcCov : (s.wr a v).vcCov = s.vcCov := rfl
@[simp] theorem State.wr_reserve : (s.wr a v).reserve = s.reserve := rfl
@[simp] theorem State.wr_repairs : (s.wr a v).repairs = s.repairs := rfl
@[simp] theorem State.wr_retirePend : (s.wr a v).retirePend = s.retirePend := rfl
@[simp] theorem State.wr_dramBrand : (s.wr a v).dramBrand = s.dramBrand := rfl
@[simp] theorem State.wr_brandBase : (s.wr a v).brandBase = s.brandBase := rfl
@[simp] theorem State.wr_dramUpset : (s.wr a v).dramUpset = s.dramUpset := rfl
@[simp] theorem State.wr_slices : (s.wr a v).slices = s.slices := rfl
@[simp] theorem State.wr_sliceUpset : (s.wr a v).sliceUpset = s.sliceUpset := rfl
@[simp] theorem State.wr_sliceBrand : (s.wr a v).sliceBrand = s.sliceBrand := rfl
@[simp] theorem State.wr_sliceZero : (s.wr a v).sliceZero = s.sliceZero := rfl
@[simp] theorem State.wr_qa : (s.wr a v).qa = s.qa := rfl
@[simp] theorem State.wr_qb : (s.wr a v).qb = s.qb := rfl
@[simp] theorem State.wr_vecHeld : (s.wr a v).vecHeld = s.vecHeld := rfl
@[simp] theorem State.wr_cache : (s.wr a v).cache = s.cache := rfl
@[simp] theorem State.wr_engines : (s.wr a v).engines = s.engines := rfl
@[simp] theorem State.wr_links : (s.wr a v).links = s.links := rfl
@[simp] theorem State.wr_posted : (s.wr a v).posted = s.posted := rfl
@[simp] theorem State.wr_live : (s.wr a v).live = s.live := rfl
@[simp] theorem State.wr_barriers : (s.wr a v).barriers = s.barriers := rfl
@[simp] theorem State.wr_girth0 : (s.wr a v).girth0 = s.girth0 := rfl
@[simp] theorem State.wr_girth1 : (s.wr a v).girth1 = s.girth1 := rfl
@[simp] theorem State.wr_keys : (s.wr a v).keys = s.keys := rfl
@[simp] theorem State.wr_treeFaults : (s.wr a v).treeFaults = s.treeFaults := rfl
@[simp] theorem State.wr_combFaults : (s.wr a v).combFaults = s.combFaults := rfl
@[simp] theorem State.wr_out : (s.wr a v).out = s.out := rfl
@[simp] theorem State.wr_badLinks : (s.wr a v).badLinks = s.badLinks := rfl
@[simp] theorem State.wr_netDegrade : (s.wr a v).netDegrade = s.netDegrade := rfl
@[simp] theorem State.wr_netPend : (s.wr a v).netPend = s.netPend := rfl
@[simp] theorem State.wr_held : (s.wr a v).held = s.held := rfl
@[simp] theorem State.wr_memHeld : (s.wr a v).memHeld = s.memHeld := rfl
@[simp] theorem State.wr_aon : (s.wr a v).aon = s.aon := rfl
@[simp] theorem State.wr_flash : (s.wr a v).flash = s.flash := rfl
@[simp] theorem State.wr_pow : (s.wr a v).pow = s.pow := rfl
@[simp] theorem State.wr_asy : (s.wr a v).asy = s.asy := rfl
@[simp] theorem State.wr_asyTurn : (s.wr a v).asyTurn = s.asyTurn := rfl
@[simp] theorem State.wr_asyTgt : (s.wr a v).asyTgt = s.asyTgt := rfl
@[simp] theorem State.wr_asyFrom : (s.wr a v).asyFrom = s.asyFrom := rfl
@[simp] theorem State.wr_asyAt : (s.wr a v).asyAt = s.asyAt := rfl
@[simp] theorem State.wr_heals : (s.wr a v).heals = s.heals := rfl
@[simp] theorem State.wr_cfgLost : (s.wr a v).cfgLost = s.cfgLost := rfl
@[simp] theorem State.wr_rst : (s.wr a v).rst = s.rst := rfl
@[simp] theorem State.wr_dump : (s.wr a v).dump = s.dump := rfl
@[simp] theorem State.wr_dumpWait : (s.wr a v).dumpWait = s.dumpWait := rfl
@[simp] theorem State.wr_dumpSlots : (s.wr a v).dumpSlots = s.dumpSlots := rfl
@[simp] theorem State.wr_dumpNext : (s.wr a v).dumpNext = s.dumpNext := rfl
@[simp] theorem State.wr_resend : (s.wr a v).resend = s.resend := rfl
@[simp] theorem State.wr_log : (s.wr a v).log = s.log := rfl
@[simp] theorem State.wr_recent : (s.wr a v).recent = s.recent := rfl
@[simp] theorem State.wr_streamSeq : (s.wr a v).streamSeq = s.streamSeq := rfl
@[simp] theorem State.wr_update : (s.wr a v).update = s.update := rfl
@[simp] theorem State.wr_time : (s.wr a v).time = s.time := rfl
@[simp] theorem State.wr_entropyBad : (s.wr a v).entropyBad = s.entropyBad := rfl
@[simp] theorem State.wr_epRetire : (s.wr a v).epRetire = s.epRetire := rfl
@[simp] theorem State.wr_nonceCtr : (s.wr a v).nonceCtr = s.nonceCtr := rfl
@[simp] theorem State.wr_jtag : (s.wr a v).jtag = s.jtag := rfl
@[simp] theorem State.wr_freeCtr : (s.wr a v).freeCtr = s.freeCtr := rfl
@[simp] theorem State.wr_pending : (s.wr a v).pending = s.pending := rfl
@[simp] theorem State.wr_regs : (s.wr a v).regs = Tbl.set (resetOf a) s.regs a v := rfl
end

section
variable (a hi lo v : Nat)
@[simp] theorem State.wf_shadow : (s.wf a hi lo v).shadow = s.shadow := rfl
@[simp] theorem State.wf_gen : (s.wf a hi lo v).gen = s.gen := rfl
@[simp] theorem State.wf_cores : (s.wf a hi lo v).cores = s.cores := rfl
@[simp] theorem State.wf_supp : (s.wf a hi lo v).supp = s.supp := rfl
@[simp] theorem State.wf_cap : (s.wf a hi lo v).cap = s.cap := rfl
@[simp] theorem State.wf_win : (s.wf a hi lo v).win = s.win := rfl
@[simp] theorem State.wf_winPar : (s.wf a hi lo v).winPar = s.winPar := rfl
@[simp] theorem State.wf_recQ : (s.wf a hi lo v).recQ = s.recQ := rfl
@[simp] theorem State.wf_net : (s.wf a hi lo v).net = s.net := rfl
@[simp] theorem State.wf_arrived : (s.wf a hi lo v).arrived = s.arrived := rfl
@[simp] theorem State.wf_mem : (s.wf a hi lo v).mem = s.mem := rfl
@[simp] theorem State.wf_dbg : (s.wf a hi lo v).dbg = s.dbg := rfl
@[simp] theorem State.wf_perturbed : (s.wf a hi lo v).perturbed = s.perturbed := rfl
@[simp] theorem State.wf_nextXfer : (s.wf a hi lo v).nextXfer = s.nextXfer := rfl
@[simp] theorem State.wf_xfers : (s.wf a hi lo v).xfers = s.xfers := rfl
@[simp] theorem State.wf_reqs : (s.wf a hi lo v).reqs = s.reqs := rfl
@[simp] theorem State.wf_flows : (s.wf a hi lo v).flows = s.flows := rfl
@[simp] theorem State.wf_ceBursts : (s.wf a hi lo v).ceBursts = s.ceBursts := rfl
@[simp] theorem State.wf_openPages : (s.wf a hi lo v).openPages = s.openPages := rfl
@[simp] theorem State.wf_hotDevs : (s.wf a hi lo v).hotDevs = s.hotDevs := rfl
@[simp] theorem State.wf_patrolAt : (s.wf a hi lo v).patrolAt = s.patrolAt := rfl
@[simp] theorem State.wf_xbarRR : (s.wf a hi lo v).xbarRR = s.xbarRR := rfl
@[simp] theorem State.wf_netRR : (s.wf a hi lo v).netRR = s.netRR := rfl
@[simp] theorem State.wf_suppNext : (s.wf a hi lo v).suppNext = s.suppNext := rfl
@[simp] theorem State.wf_memWrs : (s.wf a hi lo v).memWrs = s.memWrs := rfl
@[simp] theorem State.wf_class2 : (s.wf a hi lo v).class2 = s.class2 := rfl
@[simp] theorem State.wf_vcCov : (s.wf a hi lo v).vcCov = s.vcCov := rfl
@[simp] theorem State.wf_reserve : (s.wf a hi lo v).reserve = s.reserve := rfl
@[simp] theorem State.wf_repairs : (s.wf a hi lo v).repairs = s.repairs := rfl
@[simp] theorem State.wf_retirePend : (s.wf a hi lo v).retirePend = s.retirePend := rfl
@[simp] theorem State.wf_dramBrand : (s.wf a hi lo v).dramBrand = s.dramBrand := rfl
@[simp] theorem State.wf_brandBase : (s.wf a hi lo v).brandBase = s.brandBase := rfl
@[simp] theorem State.wf_dramUpset : (s.wf a hi lo v).dramUpset = s.dramUpset := rfl
@[simp] theorem State.wf_slices : (s.wf a hi lo v).slices = s.slices := rfl
@[simp] theorem State.wf_sliceUpset : (s.wf a hi lo v).sliceUpset = s.sliceUpset := rfl
@[simp] theorem State.wf_sliceBrand : (s.wf a hi lo v).sliceBrand = s.sliceBrand := rfl
@[simp] theorem State.wf_sliceZero : (s.wf a hi lo v).sliceZero = s.sliceZero := rfl
@[simp] theorem State.wf_qa : (s.wf a hi lo v).qa = s.qa := rfl
@[simp] theorem State.wf_qb : (s.wf a hi lo v).qb = s.qb := rfl
@[simp] theorem State.wf_vecHeld : (s.wf a hi lo v).vecHeld = s.vecHeld := rfl
@[simp] theorem State.wf_cache : (s.wf a hi lo v).cache = s.cache := rfl
@[simp] theorem State.wf_engines : (s.wf a hi lo v).engines = s.engines := rfl
@[simp] theorem State.wf_links : (s.wf a hi lo v).links = s.links := rfl
@[simp] theorem State.wf_posted : (s.wf a hi lo v).posted = s.posted := rfl
@[simp] theorem State.wf_live : (s.wf a hi lo v).live = s.live := rfl
@[simp] theorem State.wf_barriers : (s.wf a hi lo v).barriers = s.barriers := rfl
@[simp] theorem State.wf_girth0 : (s.wf a hi lo v).girth0 = s.girth0 := rfl
@[simp] theorem State.wf_girth1 : (s.wf a hi lo v).girth1 = s.girth1 := rfl
@[simp] theorem State.wf_keys : (s.wf a hi lo v).keys = s.keys := rfl
@[simp] theorem State.wf_treeFaults : (s.wf a hi lo v).treeFaults = s.treeFaults := rfl
@[simp] theorem State.wf_combFaults : (s.wf a hi lo v).combFaults = s.combFaults := rfl
@[simp] theorem State.wf_out : (s.wf a hi lo v).out = s.out := rfl
@[simp] theorem State.wf_badLinks : (s.wf a hi lo v).badLinks = s.badLinks := rfl
@[simp] theorem State.wf_netDegrade : (s.wf a hi lo v).netDegrade = s.netDegrade := rfl
@[simp] theorem State.wf_netPend : (s.wf a hi lo v).netPend = s.netPend := rfl
@[simp] theorem State.wf_held : (s.wf a hi lo v).held = s.held := rfl
@[simp] theorem State.wf_memHeld : (s.wf a hi lo v).memHeld = s.memHeld := rfl
@[simp] theorem State.wf_aon : (s.wf a hi lo v).aon = s.aon := rfl
@[simp] theorem State.wf_flash : (s.wf a hi lo v).flash = s.flash := rfl
@[simp] theorem State.wf_pow : (s.wf a hi lo v).pow = s.pow := rfl
@[simp] theorem State.wf_asy : (s.wf a hi lo v).asy = s.asy := rfl
@[simp] theorem State.wf_asyTurn : (s.wf a hi lo v).asyTurn = s.asyTurn := rfl
@[simp] theorem State.wf_asyTgt : (s.wf a hi lo v).asyTgt = s.asyTgt := rfl
@[simp] theorem State.wf_asyFrom : (s.wf a hi lo v).asyFrom = s.asyFrom := rfl
@[simp] theorem State.wf_asyAt : (s.wf a hi lo v).asyAt = s.asyAt := rfl
@[simp] theorem State.wf_heals : (s.wf a hi lo v).heals = s.heals := rfl
@[simp] theorem State.wf_cfgLost : (s.wf a hi lo v).cfgLost = s.cfgLost := rfl
@[simp] theorem State.wf_rst : (s.wf a hi lo v).rst = s.rst := rfl
@[simp] theorem State.wf_dump : (s.wf a hi lo v).dump = s.dump := rfl
@[simp] theorem State.wf_dumpWait : (s.wf a hi lo v).dumpWait = s.dumpWait := rfl
@[simp] theorem State.wf_dumpSlots : (s.wf a hi lo v).dumpSlots = s.dumpSlots := rfl
@[simp] theorem State.wf_dumpNext : (s.wf a hi lo v).dumpNext = s.dumpNext := rfl
@[simp] theorem State.wf_resend : (s.wf a hi lo v).resend = s.resend := rfl
@[simp] theorem State.wf_log : (s.wf a hi lo v).log = s.log := rfl
@[simp] theorem State.wf_recent : (s.wf a hi lo v).recent = s.recent := rfl
@[simp] theorem State.wf_streamSeq : (s.wf a hi lo v).streamSeq = s.streamSeq := rfl
@[simp] theorem State.wf_update : (s.wf a hi lo v).update = s.update := rfl
@[simp] theorem State.wf_time : (s.wf a hi lo v).time = s.time := rfl
@[simp] theorem State.wf_entropyBad : (s.wf a hi lo v).entropyBad = s.entropyBad := rfl
@[simp] theorem State.wf_epRetire : (s.wf a hi lo v).epRetire = s.epRetire := rfl
@[simp] theorem State.wf_nonceCtr : (s.wf a hi lo v).nonceCtr = s.nonceCtr := rfl
@[simp] theorem State.wf_jtag : (s.wf a hi lo v).jtag = s.jtag := rfl
@[simp] theorem State.wf_freeCtr : (s.wf a hi lo v).freeCtr = s.freeCtr := rfl
@[simp] theorem State.wf_pending : (s.wf a hi lo v).pending = s.pending := rfl
end

section
variable (a hi lo n : Nat)
@[simp] theorem State.bump_shadow : (s.bump a hi lo n).shadow = s.shadow := rfl
@[simp] theorem State.bump_gen : (s.bump a hi lo n).gen = s.gen := rfl
@[simp] theorem State.bump_cores : (s.bump a hi lo n).cores = s.cores := rfl
@[simp] theorem State.bump_supp : (s.bump a hi lo n).supp = s.supp := rfl
@[simp] theorem State.bump_cap : (s.bump a hi lo n).cap = s.cap := rfl
@[simp] theorem State.bump_win : (s.bump a hi lo n).win = s.win := rfl
@[simp] theorem State.bump_winPar : (s.bump a hi lo n).winPar = s.winPar := rfl
@[simp] theorem State.bump_recQ : (s.bump a hi lo n).recQ = s.recQ := rfl
@[simp] theorem State.bump_net : (s.bump a hi lo n).net = s.net := rfl
@[simp] theorem State.bump_arrived : (s.bump a hi lo n).arrived = s.arrived := rfl
@[simp] theorem State.bump_mem : (s.bump a hi lo n).mem = s.mem := rfl
@[simp] theorem State.bump_dbg : (s.bump a hi lo n).dbg = s.dbg := rfl
@[simp] theorem State.bump_perturbed : (s.bump a hi lo n).perturbed = s.perturbed := rfl
@[simp] theorem State.bump_nextXfer : (s.bump a hi lo n).nextXfer = s.nextXfer := rfl
@[simp] theorem State.bump_xfers : (s.bump a hi lo n).xfers = s.xfers := rfl
@[simp] theorem State.bump_reqs : (s.bump a hi lo n).reqs = s.reqs := rfl
@[simp] theorem State.bump_flows : (s.bump a hi lo n).flows = s.flows := rfl
@[simp] theorem State.bump_ceBursts : (s.bump a hi lo n).ceBursts = s.ceBursts := rfl
@[simp] theorem State.bump_openPages : (s.bump a hi lo n).openPages = s.openPages := rfl
@[simp] theorem State.bump_hotDevs : (s.bump a hi lo n).hotDevs = s.hotDevs := rfl
@[simp] theorem State.bump_patrolAt : (s.bump a hi lo n).patrolAt = s.patrolAt := rfl
@[simp] theorem State.bump_xbarRR : (s.bump a hi lo n).xbarRR = s.xbarRR := rfl
@[simp] theorem State.bump_netRR : (s.bump a hi lo n).netRR = s.netRR := rfl
@[simp] theorem State.bump_suppNext : (s.bump a hi lo n).suppNext = s.suppNext := rfl
@[simp] theorem State.bump_memWrs : (s.bump a hi lo n).memWrs = s.memWrs := rfl
@[simp] theorem State.bump_class2 : (s.bump a hi lo n).class2 = s.class2 := rfl
@[simp] theorem State.bump_vcCov : (s.bump a hi lo n).vcCov = s.vcCov := rfl
@[simp] theorem State.bump_reserve : (s.bump a hi lo n).reserve = s.reserve := rfl
@[simp] theorem State.bump_repairs : (s.bump a hi lo n).repairs = s.repairs := rfl
@[simp] theorem State.bump_retirePend : (s.bump a hi lo n).retirePend = s.retirePend := rfl
@[simp] theorem State.bump_dramBrand : (s.bump a hi lo n).dramBrand = s.dramBrand := rfl
@[simp] theorem State.bump_brandBase : (s.bump a hi lo n).brandBase = s.brandBase := rfl
@[simp] theorem State.bump_dramUpset : (s.bump a hi lo n).dramUpset = s.dramUpset := rfl
@[simp] theorem State.bump_slices : (s.bump a hi lo n).slices = s.slices := rfl
@[simp] theorem State.bump_sliceUpset : (s.bump a hi lo n).sliceUpset = s.sliceUpset := rfl
@[simp] theorem State.bump_sliceBrand : (s.bump a hi lo n).sliceBrand = s.sliceBrand := rfl
@[simp] theorem State.bump_sliceZero : (s.bump a hi lo n).sliceZero = s.sliceZero := rfl
@[simp] theorem State.bump_qa : (s.bump a hi lo n).qa = s.qa := rfl
@[simp] theorem State.bump_qb : (s.bump a hi lo n).qb = s.qb := rfl
@[simp] theorem State.bump_vecHeld : (s.bump a hi lo n).vecHeld = s.vecHeld := rfl
@[simp] theorem State.bump_cache : (s.bump a hi lo n).cache = s.cache := rfl
@[simp] theorem State.bump_engines : (s.bump a hi lo n).engines = s.engines := rfl
@[simp] theorem State.bump_links : (s.bump a hi lo n).links = s.links := rfl
@[simp] theorem State.bump_posted : (s.bump a hi lo n).posted = s.posted := rfl
@[simp] theorem State.bump_live : (s.bump a hi lo n).live = s.live := rfl
@[simp] theorem State.bump_barriers : (s.bump a hi lo n).barriers = s.barriers := rfl
@[simp] theorem State.bump_girth0 : (s.bump a hi lo n).girth0 = s.girth0 := rfl
@[simp] theorem State.bump_girth1 : (s.bump a hi lo n).girth1 = s.girth1 := rfl
@[simp] theorem State.bump_keys : (s.bump a hi lo n).keys = s.keys := rfl
@[simp] theorem State.bump_treeFaults : (s.bump a hi lo n).treeFaults = s.treeFaults := rfl
@[simp] theorem State.bump_combFaults : (s.bump a hi lo n).combFaults = s.combFaults := rfl
@[simp] theorem State.bump_out : (s.bump a hi lo n).out = s.out := rfl
@[simp] theorem State.bump_badLinks : (s.bump a hi lo n).badLinks = s.badLinks := rfl
@[simp] theorem State.bump_netDegrade : (s.bump a hi lo n).netDegrade = s.netDegrade := rfl
@[simp] theorem State.bump_netPend : (s.bump a hi lo n).netPend = s.netPend := rfl
@[simp] theorem State.bump_held : (s.bump a hi lo n).held = s.held := rfl
@[simp] theorem State.bump_memHeld : (s.bump a hi lo n).memHeld = s.memHeld := rfl
@[simp] theorem State.bump_aon : (s.bump a hi lo n).aon = s.aon := rfl
@[simp] theorem State.bump_flash : (s.bump a hi lo n).flash = s.flash := rfl
@[simp] theorem State.bump_pow : (s.bump a hi lo n).pow = s.pow := rfl
@[simp] theorem State.bump_asy : (s.bump a hi lo n).asy = s.asy := rfl
@[simp] theorem State.bump_asyTurn : (s.bump a hi lo n).asyTurn = s.asyTurn := rfl
@[simp] theorem State.bump_asyTgt : (s.bump a hi lo n).asyTgt = s.asyTgt := rfl
@[simp] theorem State.bump_asyFrom : (s.bump a hi lo n).asyFrom = s.asyFrom := rfl
@[simp] theorem State.bump_asyAt : (s.bump a hi lo n).asyAt = s.asyAt := rfl
@[simp] theorem State.bump_heals : (s.bump a hi lo n).heals = s.heals := rfl
@[simp] theorem State.bump_cfgLost : (s.bump a hi lo n).cfgLost = s.cfgLost := rfl
@[simp] theorem State.bump_rst : (s.bump a hi lo n).rst = s.rst := rfl
@[simp] theorem State.bump_dump : (s.bump a hi lo n).dump = s.dump := rfl
@[simp] theorem State.bump_dumpWait : (s.bump a hi lo n).dumpWait = s.dumpWait := rfl
@[simp] theorem State.bump_dumpSlots : (s.bump a hi lo n).dumpSlots = s.dumpSlots := rfl
@[simp] theorem State.bump_dumpNext : (s.bump a hi lo n).dumpNext = s.dumpNext := rfl
@[simp] theorem State.bump_resend : (s.bump a hi lo n).resend = s.resend := rfl
@[simp] theorem State.bump_log : (s.bump a hi lo n).log = s.log := rfl
@[simp] theorem State.bump_recent : (s.bump a hi lo n).recent = s.recent := rfl
@[simp] theorem State.bump_streamSeq : (s.bump a hi lo n).streamSeq = s.streamSeq := rfl
@[simp] theorem State.bump_update : (s.bump a hi lo n).update = s.update := rfl
@[simp] theorem State.bump_time : (s.bump a hi lo n).time = s.time := rfl
@[simp] theorem State.bump_entropyBad : (s.bump a hi lo n).entropyBad = s.entropyBad := rfl
@[simp] theorem State.bump_epRetire : (s.bump a hi lo n).epRetire = s.epRetire := rfl
@[simp] theorem State.bump_nonceCtr : (s.bump a hi lo n).nonceCtr = s.nonceCtr := rfl
@[simp] theorem State.bump_jtag : (s.bump a hi lo n).jtag = s.jtag := rfl
@[simp] theorem State.bump_freeCtr : (s.bump a hi lo n).freeCtr = s.freeCtr := rfl
@[simp] theorem State.bump_pending : (s.bump a hi lo n).pending = s.pending := rfl
end

section
variable (gp : Nat) (c : Core)
@[simp] theorem State.setCore_regs : (s.setCore gp c).regs = s.regs := rfl
@[simp] theorem State.setCore_shadow : (s.setCore gp c).shadow = s.shadow := rfl
@[simp] theorem State.setCore_gen : (s.setCore gp c).gen = s.gen := rfl
@[simp] theorem State.setCore_supp : (s.setCore gp c).supp = s.supp := rfl
@[simp] theorem State.setCore_cap : (s.setCore gp c).cap = s.cap := rfl
@[simp] theorem State.setCore_win : (s.setCore gp c).win = s.win := rfl
@[simp] theorem State.setCore_winPar : (s.setCore gp c).winPar = s.winPar := rfl
@[simp] theorem State.setCore_recQ : (s.setCore gp c).recQ = s.recQ := rfl
@[simp] theorem State.setCore_net : (s.setCore gp c).net = s.net := rfl
@[simp] theorem State.setCore_arrived : (s.setCore gp c).arrived = s.arrived := rfl
@[simp] theorem State.setCore_mem : (s.setCore gp c).mem = s.mem := rfl
@[simp] theorem State.setCore_dbg : (s.setCore gp c).dbg = s.dbg := rfl
@[simp] theorem State.setCore_perturbed : (s.setCore gp c).perturbed = s.perturbed := rfl
@[simp] theorem State.setCore_nextXfer : (s.setCore gp c).nextXfer = s.nextXfer := rfl
@[simp] theorem State.setCore_xfers : (s.setCore gp c).xfers = s.xfers := rfl
@[simp] theorem State.setCore_reqs : (s.setCore gp c).reqs = s.reqs := rfl
@[simp] theorem State.setCore_flows : (s.setCore gp c).flows = s.flows := rfl
@[simp] theorem State.setCore_ceBursts : (s.setCore gp c).ceBursts = s.ceBursts := rfl
@[simp] theorem State.setCore_openPages : (s.setCore gp c).openPages = s.openPages := rfl
@[simp] theorem State.setCore_hotDevs : (s.setCore gp c).hotDevs = s.hotDevs := rfl
@[simp] theorem State.setCore_patrolAt : (s.setCore gp c).patrolAt = s.patrolAt := rfl
@[simp] theorem State.setCore_xbarRR : (s.setCore gp c).xbarRR = s.xbarRR := rfl
@[simp] theorem State.setCore_netRR : (s.setCore gp c).netRR = s.netRR := rfl
@[simp] theorem State.setCore_suppNext : (s.setCore gp c).suppNext = s.suppNext := rfl
@[simp] theorem State.setCore_memWrs : (s.setCore gp c).memWrs = s.memWrs := rfl
@[simp] theorem State.setCore_class2 : (s.setCore gp c).class2 = s.class2 := rfl
@[simp] theorem State.setCore_vcCov : (s.setCore gp c).vcCov = s.vcCov := rfl
@[simp] theorem State.setCore_reserve : (s.setCore gp c).reserve = s.reserve := rfl
@[simp] theorem State.setCore_repairs : (s.setCore gp c).repairs = s.repairs := rfl
@[simp] theorem State.setCore_retirePend : (s.setCore gp c).retirePend = s.retirePend := rfl
@[simp] theorem State.setCore_dramBrand : (s.setCore gp c).dramBrand = s.dramBrand := rfl
@[simp] theorem State.setCore_brandBase : (s.setCore gp c).brandBase = s.brandBase := rfl
@[simp] theorem State.setCore_dramUpset : (s.setCore gp c).dramUpset = s.dramUpset := rfl
@[simp] theorem State.setCore_slices : (s.setCore gp c).slices = s.slices := rfl
@[simp] theorem State.setCore_sliceUpset : (s.setCore gp c).sliceUpset = s.sliceUpset := rfl
@[simp] theorem State.setCore_sliceBrand : (s.setCore gp c).sliceBrand = s.sliceBrand := rfl
@[simp] theorem State.setCore_sliceZero : (s.setCore gp c).sliceZero = s.sliceZero := rfl
@[simp] theorem State.setCore_qa : (s.setCore gp c).qa = s.qa := rfl
@[simp] theorem State.setCore_qb : (s.setCore gp c).qb = s.qb := rfl
@[simp] theorem State.setCore_vecHeld : (s.setCore gp c).vecHeld = s.vecHeld := rfl
@[simp] theorem State.setCore_cache : (s.setCore gp c).cache = s.cache := rfl
@[simp] theorem State.setCore_engines : (s.setCore gp c).engines = s.engines := rfl
@[simp] theorem State.setCore_links : (s.setCore gp c).links = s.links := rfl
@[simp] theorem State.setCore_posted : (s.setCore gp c).posted = s.posted := rfl
@[simp] theorem State.setCore_live : (s.setCore gp c).live = s.live := rfl
@[simp] theorem State.setCore_barriers : (s.setCore gp c).barriers = s.barriers := rfl
@[simp] theorem State.setCore_girth0 : (s.setCore gp c).girth0 = s.girth0 := rfl
@[simp] theorem State.setCore_girth1 : (s.setCore gp c).girth1 = s.girth1 := rfl
@[simp] theorem State.setCore_keys : (s.setCore gp c).keys = s.keys := rfl
@[simp] theorem State.setCore_treeFaults : (s.setCore gp c).treeFaults = s.treeFaults := rfl
@[simp] theorem State.setCore_combFaults : (s.setCore gp c).combFaults = s.combFaults := rfl
@[simp] theorem State.setCore_out : (s.setCore gp c).out = s.out := rfl
@[simp] theorem State.setCore_badLinks : (s.setCore gp c).badLinks = s.badLinks := rfl
@[simp] theorem State.setCore_netDegrade : (s.setCore gp c).netDegrade = s.netDegrade := rfl
@[simp] theorem State.setCore_netPend : (s.setCore gp c).netPend = s.netPend := rfl
@[simp] theorem State.setCore_held : (s.setCore gp c).held = s.held := rfl
@[simp] theorem State.setCore_memHeld : (s.setCore gp c).memHeld = s.memHeld := rfl
@[simp] theorem State.setCore_aon : (s.setCore gp c).aon = s.aon := rfl
@[simp] theorem State.setCore_flash : (s.setCore gp c).flash = s.flash := rfl
@[simp] theorem State.setCore_pow : (s.setCore gp c).pow = s.pow := rfl
@[simp] theorem State.setCore_asy : (s.setCore gp c).asy = s.asy := rfl
@[simp] theorem State.setCore_asyTurn : (s.setCore gp c).asyTurn = s.asyTurn := rfl
@[simp] theorem State.setCore_asyTgt : (s.setCore gp c).asyTgt = s.asyTgt := rfl
@[simp] theorem State.setCore_asyFrom : (s.setCore gp c).asyFrom = s.asyFrom := rfl
@[simp] theorem State.setCore_asyAt : (s.setCore gp c).asyAt = s.asyAt := rfl
@[simp] theorem State.setCore_heals : (s.setCore gp c).heals = s.heals := rfl
@[simp] theorem State.setCore_cfgLost : (s.setCore gp c).cfgLost = s.cfgLost := rfl
@[simp] theorem State.setCore_rst : (s.setCore gp c).rst = s.rst := rfl
@[simp] theorem State.setCore_dump : (s.setCore gp c).dump = s.dump := rfl
@[simp] theorem State.setCore_dumpWait : (s.setCore gp c).dumpWait = s.dumpWait := rfl
@[simp] theorem State.setCore_dumpSlots : (s.setCore gp c).dumpSlots = s.dumpSlots := rfl
@[simp] theorem State.setCore_dumpNext : (s.setCore gp c).dumpNext = s.dumpNext := rfl
@[simp] theorem State.setCore_resend : (s.setCore gp c).resend = s.resend := rfl
@[simp] theorem State.setCore_log : (s.setCore gp c).log = s.log := rfl
@[simp] theorem State.setCore_recent : (s.setCore gp c).recent = s.recent := rfl
@[simp] theorem State.setCore_streamSeq : (s.setCore gp c).streamSeq = s.streamSeq := rfl
@[simp] theorem State.setCore_update : (s.setCore gp c).update = s.update := rfl
@[simp] theorem State.setCore_time : (s.setCore gp c).time = s.time := rfl
@[simp] theorem State.setCore_entropyBad : (s.setCore gp c).entropyBad = s.entropyBad := rfl
@[simp] theorem State.setCore_epRetire : (s.setCore gp c).epRetire = s.epRetire := rfl
@[simp] theorem State.setCore_nonceCtr : (s.setCore gp c).nonceCtr = s.nonceCtr := rfl
@[simp] theorem State.setCore_jtag : (s.setCore gp c).jtag = s.jtag := rfl
@[simp] theorem State.setCore_freeCtr : (s.setCore gp c).freeCtr = s.freeCtr := rfl
@[simp] theorem State.setCore_pending : (s.setCore gp c).pending = s.pending := rfl
@[simp] theorem State.setCore_cores : (s.setCore gp c).cores = Tbl.set {} s.cores gp c := rfl
end

section
variable (gp : Nat) (f : Core → Core)
@[simp] theorem State.modCore_regs : (s.modCore gp f).regs = s.regs := rfl
@[simp] theorem State.modCore_shadow : (s.modCore gp f).shadow = s.shadow := rfl
@[simp] theorem State.modCore_gen : (s.modCore gp f).gen = s.gen := rfl
@[simp] theorem State.modCore_supp : (s.modCore gp f).supp = s.supp := rfl
@[simp] theorem State.modCore_cap : (s.modCore gp f).cap = s.cap := rfl
@[simp] theorem State.modCore_win : (s.modCore gp f).win = s.win := rfl
@[simp] theorem State.modCore_winPar : (s.modCore gp f).winPar = s.winPar := rfl
@[simp] theorem State.modCore_recQ : (s.modCore gp f).recQ = s.recQ := rfl
@[simp] theorem State.modCore_net : (s.modCore gp f).net = s.net := rfl
@[simp] theorem State.modCore_arrived : (s.modCore gp f).arrived = s.arrived := rfl
@[simp] theorem State.modCore_mem : (s.modCore gp f).mem = s.mem := rfl
@[simp] theorem State.modCore_dbg : (s.modCore gp f).dbg = s.dbg := rfl
@[simp] theorem State.modCore_perturbed : (s.modCore gp f).perturbed = s.perturbed := rfl
@[simp] theorem State.modCore_nextXfer : (s.modCore gp f).nextXfer = s.nextXfer := rfl
@[simp] theorem State.modCore_xfers : (s.modCore gp f).xfers = s.xfers := rfl
@[simp] theorem State.modCore_reqs : (s.modCore gp f).reqs = s.reqs := rfl
@[simp] theorem State.modCore_flows : (s.modCore gp f).flows = s.flows := rfl
@[simp] theorem State.modCore_ceBursts : (s.modCore gp f).ceBursts = s.ceBursts := rfl
@[simp] theorem State.modCore_openPages : (s.modCore gp f).openPages = s.openPages := rfl
@[simp] theorem State.modCore_hotDevs : (s.modCore gp f).hotDevs = s.hotDevs := rfl
@[simp] theorem State.modCore_patrolAt : (s.modCore gp f).patrolAt = s.patrolAt := rfl
@[simp] theorem State.modCore_xbarRR : (s.modCore gp f).xbarRR = s.xbarRR := rfl
@[simp] theorem State.modCore_netRR : (s.modCore gp f).netRR = s.netRR := rfl
@[simp] theorem State.modCore_suppNext : (s.modCore gp f).suppNext = s.suppNext := rfl
@[simp] theorem State.modCore_memWrs : (s.modCore gp f).memWrs = s.memWrs := rfl
@[simp] theorem State.modCore_class2 : (s.modCore gp f).class2 = s.class2 := rfl
@[simp] theorem State.modCore_vcCov : (s.modCore gp f).vcCov = s.vcCov := rfl
@[simp] theorem State.modCore_reserve : (s.modCore gp f).reserve = s.reserve := rfl
@[simp] theorem State.modCore_repairs : (s.modCore gp f).repairs = s.repairs := rfl
@[simp] theorem State.modCore_retirePend : (s.modCore gp f).retirePend = s.retirePend := rfl
@[simp] theorem State.modCore_dramBrand : (s.modCore gp f).dramBrand = s.dramBrand := rfl
@[simp] theorem State.modCore_brandBase : (s.modCore gp f).brandBase = s.brandBase := rfl
@[simp] theorem State.modCore_dramUpset : (s.modCore gp f).dramUpset = s.dramUpset := rfl
@[simp] theorem State.modCore_slices : (s.modCore gp f).slices = s.slices := rfl
@[simp] theorem State.modCore_sliceUpset : (s.modCore gp f).sliceUpset = s.sliceUpset := rfl
@[simp] theorem State.modCore_sliceBrand : (s.modCore gp f).sliceBrand = s.sliceBrand := rfl
@[simp] theorem State.modCore_sliceZero : (s.modCore gp f).sliceZero = s.sliceZero := rfl
@[simp] theorem State.modCore_qa : (s.modCore gp f).qa = s.qa := rfl
@[simp] theorem State.modCore_qb : (s.modCore gp f).qb = s.qb := rfl
@[simp] theorem State.modCore_vecHeld : (s.modCore gp f).vecHeld = s.vecHeld := rfl
@[simp] theorem State.modCore_cache : (s.modCore gp f).cache = s.cache := rfl
@[simp] theorem State.modCore_engines : (s.modCore gp f).engines = s.engines := rfl
@[simp] theorem State.modCore_links : (s.modCore gp f).links = s.links := rfl
@[simp] theorem State.modCore_posted : (s.modCore gp f).posted = s.posted := rfl
@[simp] theorem State.modCore_live : (s.modCore gp f).live = s.live := rfl
@[simp] theorem State.modCore_barriers : (s.modCore gp f).barriers = s.barriers := rfl
@[simp] theorem State.modCore_girth0 : (s.modCore gp f).girth0 = s.girth0 := rfl
@[simp] theorem State.modCore_girth1 : (s.modCore gp f).girth1 = s.girth1 := rfl
@[simp] theorem State.modCore_keys : (s.modCore gp f).keys = s.keys := rfl
@[simp] theorem State.modCore_treeFaults : (s.modCore gp f).treeFaults = s.treeFaults := rfl
@[simp] theorem State.modCore_combFaults : (s.modCore gp f).combFaults = s.combFaults := rfl
@[simp] theorem State.modCore_out : (s.modCore gp f).out = s.out := rfl
@[simp] theorem State.modCore_badLinks : (s.modCore gp f).badLinks = s.badLinks := rfl
@[simp] theorem State.modCore_netDegrade : (s.modCore gp f).netDegrade = s.netDegrade := rfl
@[simp] theorem State.modCore_netPend : (s.modCore gp f).netPend = s.netPend := rfl
@[simp] theorem State.modCore_held : (s.modCore gp f).held = s.held := rfl
@[simp] theorem State.modCore_memHeld : (s.modCore gp f).memHeld = s.memHeld := rfl
@[simp] theorem State.modCore_aon : (s.modCore gp f).aon = s.aon := rfl
@[simp] theorem State.modCore_flash : (s.modCore gp f).flash = s.flash := rfl
@[simp] theorem State.modCore_pow : (s.modCore gp f).pow = s.pow := rfl
@[simp] theorem State.modCore_asy : (s.modCore gp f).asy = s.asy := rfl
@[simp] theorem State.modCore_asyTurn : (s.modCore gp f).asyTurn = s.asyTurn := rfl
@[simp] theorem State.modCore_asyTgt : (s.modCore gp f).asyTgt = s.asyTgt := rfl
@[simp] theorem State.modCore_asyFrom : (s.modCore gp f).asyFrom = s.asyFrom := rfl
@[simp] theorem State.modCore_asyAt : (s.modCore gp f).asyAt = s.asyAt := rfl
@[simp] theorem State.modCore_heals : (s.modCore gp f).heals = s.heals := rfl
@[simp] theorem State.modCore_cfgLost : (s.modCore gp f).cfgLost = s.cfgLost := rfl
@[simp] theorem State.modCore_rst : (s.modCore gp f).rst = s.rst := rfl
@[simp] theorem State.modCore_dump : (s.modCore gp f).dump = s.dump := rfl
@[simp] theorem State.modCore_dumpWait : (s.modCore gp f).dumpWait = s.dumpWait := rfl
@[simp] theorem State.modCore_dumpSlots : (s.modCore gp f).dumpSlots = s.dumpSlots := rfl
@[simp] theorem State.modCore_dumpNext : (s.modCore gp f).dumpNext = s.dumpNext := rfl
@[simp] theorem State.modCore_resend : (s.modCore gp f).resend = s.resend := rfl
@[simp] theorem State.modCore_log : (s.modCore gp f).log = s.log := rfl
@[simp] theorem State.modCore_recent : (s.modCore gp f).recent = s.recent := rfl
@[simp] theorem State.modCore_streamSeq : (s.modCore gp f).streamSeq = s.streamSeq := rfl
@[simp] theorem State.modCore_update : (s.modCore gp f).update = s.update := rfl
@[simp] theorem State.modCore_time : (s.modCore gp f).time = s.time := rfl
@[simp] theorem State.modCore_entropyBad : (s.modCore gp f).entropyBad = s.entropyBad := rfl
@[simp] theorem State.modCore_epRetire : (s.modCore gp f).epRetire = s.epRetire := rfl
@[simp] theorem State.modCore_nonceCtr : (s.modCore gp f).nonceCtr = s.nonceCtr := rfl
@[simp] theorem State.modCore_jtag : (s.modCore gp f).jtag = s.jtag := rfl
@[simp] theorem State.modCore_freeCtr : (s.modCore gp f).freeCtr = s.freeCtr := rfl
@[simp] theorem State.modCore_pending : (s.modCore gp f).pending = s.pending := rfl
end

section
variable (a : Nat) (v : BitVec 8)
@[simp] theorem State.setMemByte_regs : (s.setMemByte a v).regs = s.regs := rfl
@[simp] theorem State.setMemByte_shadow : (s.setMemByte a v).shadow = s.shadow := rfl
@[simp] theorem State.setMemByte_gen : (s.setMemByte a v).gen = s.gen := rfl
@[simp] theorem State.setMemByte_cores : (s.setMemByte a v).cores = s.cores := rfl
@[simp] theorem State.setMemByte_supp : (s.setMemByte a v).supp = s.supp := rfl
@[simp] theorem State.setMemByte_cap : (s.setMemByte a v).cap = s.cap := rfl
@[simp] theorem State.setMemByte_win : (s.setMemByte a v).win = s.win := rfl
@[simp] theorem State.setMemByte_winPar : (s.setMemByte a v).winPar = s.winPar := rfl
@[simp] theorem State.setMemByte_recQ : (s.setMemByte a v).recQ = s.recQ := rfl
@[simp] theorem State.setMemByte_net : (s.setMemByte a v).net = s.net := rfl
@[simp] theorem State.setMemByte_arrived : (s.setMemByte a v).arrived = s.arrived := rfl
@[simp] theorem State.setMemByte_dbg : (s.setMemByte a v).dbg = s.dbg := rfl
@[simp] theorem State.setMemByte_perturbed : (s.setMemByte a v).perturbed = s.perturbed := rfl
@[simp] theorem State.setMemByte_nextXfer : (s.setMemByte a v).nextXfer = s.nextXfer := rfl
@[simp] theorem State.setMemByte_xfers : (s.setMemByte a v).xfers = s.xfers := rfl
@[simp] theorem State.setMemByte_reqs : (s.setMemByte a v).reqs = s.reqs := rfl
@[simp] theorem State.setMemByte_flows : (s.setMemByte a v).flows = s.flows := rfl
@[simp] theorem State.setMemByte_ceBursts : (s.setMemByte a v).ceBursts = s.ceBursts := rfl
@[simp] theorem State.setMemByte_openPages : (s.setMemByte a v).openPages = s.openPages := rfl
@[simp] theorem State.setMemByte_hotDevs : (s.setMemByte a v).hotDevs = s.hotDevs := rfl
@[simp] theorem State.setMemByte_patrolAt : (s.setMemByte a v).patrolAt = s.patrolAt := rfl
@[simp] theorem State.setMemByte_xbarRR : (s.setMemByte a v).xbarRR = s.xbarRR := rfl
@[simp] theorem State.setMemByte_netRR : (s.setMemByte a v).netRR = s.netRR := rfl
@[simp] theorem State.setMemByte_suppNext : (s.setMemByte a v).suppNext = s.suppNext := rfl
@[simp] theorem State.setMemByte_memWrs : (s.setMemByte a v).memWrs = s.memWrs := rfl
@[simp] theorem State.setMemByte_class2 : (s.setMemByte a v).class2 = s.class2 := rfl
@[simp] theorem State.setMemByte_vcCov : (s.setMemByte a v).vcCov = s.vcCov := rfl
@[simp] theorem State.setMemByte_reserve : (s.setMemByte a v).reserve = s.reserve := rfl
@[simp] theorem State.setMemByte_repairs : (s.setMemByte a v).repairs = s.repairs := rfl
@[simp] theorem State.setMemByte_retirePend : (s.setMemByte a v).retirePend = s.retirePend := rfl
@[simp] theorem State.setMemByte_dramBrand : (s.setMemByte a v).dramBrand = s.dramBrand := rfl
@[simp] theorem State.setMemByte_brandBase : (s.setMemByte a v).brandBase = s.brandBase := rfl
@[simp] theorem State.setMemByte_dramUpset : (s.setMemByte a v).dramUpset = s.dramUpset := rfl
@[simp] theorem State.setMemByte_slices : (s.setMemByte a v).slices = s.slices := rfl
@[simp] theorem State.setMemByte_sliceUpset : (s.setMemByte a v).sliceUpset = s.sliceUpset := rfl
@[simp] theorem State.setMemByte_sliceBrand : (s.setMemByte a v).sliceBrand = s.sliceBrand := rfl
@[simp] theorem State.setMemByte_sliceZero : (s.setMemByte a v).sliceZero = s.sliceZero := rfl
@[simp] theorem State.setMemByte_qa : (s.setMemByte a v).qa = s.qa := rfl
@[simp] theorem State.setMemByte_qb : (s.setMemByte a v).qb = s.qb := rfl
@[simp] theorem State.setMemByte_vecHeld : (s.setMemByte a v).vecHeld = s.vecHeld := rfl
@[simp] theorem State.setMemByte_cache : (s.setMemByte a v).cache = s.cache := rfl
@[simp] theorem State.setMemByte_engines : (s.setMemByte a v).engines = s.engines := rfl
@[simp] theorem State.setMemByte_links : (s.setMemByte a v).links = s.links := rfl
@[simp] theorem State.setMemByte_posted : (s.setMemByte a v).posted = s.posted := rfl
@[simp] theorem State.setMemByte_live : (s.setMemByte a v).live = s.live := rfl
@[simp] theorem State.setMemByte_barriers : (s.setMemByte a v).barriers = s.barriers := rfl
@[simp] theorem State.setMemByte_girth0 : (s.setMemByte a v).girth0 = s.girth0 := rfl
@[simp] theorem State.setMemByte_girth1 : (s.setMemByte a v).girth1 = s.girth1 := rfl
@[simp] theorem State.setMemByte_keys : (s.setMemByte a v).keys = s.keys := rfl
@[simp] theorem State.setMemByte_treeFaults : (s.setMemByte a v).treeFaults = s.treeFaults := rfl
@[simp] theorem State.setMemByte_combFaults : (s.setMemByte a v).combFaults = s.combFaults := rfl
@[simp] theorem State.setMemByte_out : (s.setMemByte a v).out = s.out := rfl
@[simp] theorem State.setMemByte_badLinks : (s.setMemByte a v).badLinks = s.badLinks := rfl
@[simp] theorem State.setMemByte_netDegrade : (s.setMemByte a v).netDegrade = s.netDegrade := rfl
@[simp] theorem State.setMemByte_netPend : (s.setMemByte a v).netPend = s.netPend := rfl
@[simp] theorem State.setMemByte_held : (s.setMemByte a v).held = s.held := rfl
@[simp] theorem State.setMemByte_memHeld : (s.setMemByte a v).memHeld = s.memHeld := rfl
@[simp] theorem State.setMemByte_aon : (s.setMemByte a v).aon = s.aon := rfl
@[simp] theorem State.setMemByte_flash : (s.setMemByte a v).flash = s.flash := rfl
@[simp] theorem State.setMemByte_pow : (s.setMemByte a v).pow = s.pow := rfl
@[simp] theorem State.setMemByte_asy : (s.setMemByte a v).asy = s.asy := rfl
@[simp] theorem State.setMemByte_asyTurn : (s.setMemByte a v).asyTurn = s.asyTurn := rfl
@[simp] theorem State.setMemByte_asyTgt : (s.setMemByte a v).asyTgt = s.asyTgt := rfl
@[simp] theorem State.setMemByte_asyFrom : (s.setMemByte a v).asyFrom = s.asyFrom := rfl
@[simp] theorem State.setMemByte_asyAt : (s.setMemByte a v).asyAt = s.asyAt := rfl
@[simp] theorem State.setMemByte_heals : (s.setMemByte a v).heals = s.heals := rfl
@[simp] theorem State.setMemByte_cfgLost : (s.setMemByte a v).cfgLost = s.cfgLost := rfl
@[simp] theorem State.setMemByte_rst : (s.setMemByte a v).rst = s.rst := rfl
@[simp] theorem State.setMemByte_dump : (s.setMemByte a v).dump = s.dump := rfl
@[simp] theorem State.setMemByte_dumpWait : (s.setMemByte a v).dumpWait = s.dumpWait := rfl
@[simp] theorem State.setMemByte_dumpSlots : (s.setMemByte a v).dumpSlots = s.dumpSlots := rfl
@[simp] theorem State.setMemByte_dumpNext : (s.setMemByte a v).dumpNext = s.dumpNext := rfl
@[simp] theorem State.setMemByte_resend : (s.setMemByte a v).resend = s.resend := rfl
@[simp] theorem State.setMemByte_log : (s.setMemByte a v).log = s.log := rfl
@[simp] theorem State.setMemByte_recent : (s.setMemByte a v).recent = s.recent := rfl
@[simp] theorem State.setMemByte_streamSeq : (s.setMemByte a v).streamSeq = s.streamSeq := rfl
@[simp] theorem State.setMemByte_update : (s.setMemByte a v).update = s.update := rfl
@[simp] theorem State.setMemByte_time : (s.setMemByte a v).time = s.time := rfl
@[simp] theorem State.setMemByte_entropyBad : (s.setMemByte a v).entropyBad = s.entropyBad := rfl
@[simp] theorem State.setMemByte_epRetire : (s.setMemByte a v).epRetire = s.epRetire := rfl
@[simp] theorem State.setMemByte_nonceCtr : (s.setMemByte a v).nonceCtr = s.nonceCtr := rfl
@[simp] theorem State.setMemByte_jtag : (s.setMemByte a v).jtag = s.jtag := rfl
@[simp] theorem State.setMemByte_freeCtr : (s.setMemByte a v).freeCtr = s.freeCtr := rfl
@[simp] theorem State.setMemByte_pending : (s.setMemByte a v).pending = s.pending := rfl
@[simp] theorem State.setMemByte_mem : (s.setMemByte a v).mem = Tbl.set memDefault s.mem a v := rfl
end

section
variable (r : Rec)
@[simp] theorem State.emit_regs : (s.emit r).regs = s.regs := rfl
@[simp] theorem State.emit_shadow : (s.emit r).shadow = s.shadow := rfl
@[simp] theorem State.emit_gen : (s.emit r).gen = s.gen := rfl
@[simp] theorem State.emit_cores : (s.emit r).cores = s.cores := rfl
@[simp] theorem State.emit_supp : (s.emit r).supp = s.supp := rfl
@[simp] theorem State.emit_cap : (s.emit r).cap = s.cap := rfl
@[simp] theorem State.emit_win : (s.emit r).win = s.win := rfl
@[simp] theorem State.emit_winPar : (s.emit r).winPar = s.winPar := rfl
@[simp] theorem State.emit_net : (s.emit r).net = s.net := rfl
@[simp] theorem State.emit_arrived : (s.emit r).arrived = s.arrived := rfl
@[simp] theorem State.emit_mem : (s.emit r).mem = s.mem := rfl
@[simp] theorem State.emit_dbg : (s.emit r).dbg = s.dbg := rfl
@[simp] theorem State.emit_perturbed : (s.emit r).perturbed = s.perturbed := rfl
@[simp] theorem State.emit_nextXfer : (s.emit r).nextXfer = s.nextXfer := rfl
@[simp] theorem State.emit_xfers : (s.emit r).xfers = s.xfers := rfl
@[simp] theorem State.emit_reqs : (s.emit r).reqs = s.reqs := rfl
@[simp] theorem State.emit_flows : (s.emit r).flows = s.flows := rfl
@[simp] theorem State.emit_ceBursts : (s.emit r).ceBursts = s.ceBursts := rfl
@[simp] theorem State.emit_openPages : (s.emit r).openPages = s.openPages := rfl
@[simp] theorem State.emit_hotDevs : (s.emit r).hotDevs = s.hotDevs := rfl
@[simp] theorem State.emit_patrolAt : (s.emit r).patrolAt = s.patrolAt := rfl
@[simp] theorem State.emit_xbarRR : (s.emit r).xbarRR = s.xbarRR := rfl
@[simp] theorem State.emit_netRR : (s.emit r).netRR = s.netRR := rfl
@[simp] theorem State.emit_suppNext : (s.emit r).suppNext = s.suppNext := rfl
@[simp] theorem State.emit_memWrs : (s.emit r).memWrs = s.memWrs := rfl
@[simp] theorem State.emit_class2 : (s.emit r).class2 = s.class2 := rfl
@[simp] theorem State.emit_vcCov : (s.emit r).vcCov = s.vcCov := rfl
@[simp] theorem State.emit_reserve : (s.emit r).reserve = s.reserve := rfl
@[simp] theorem State.emit_repairs : (s.emit r).repairs = s.repairs := rfl
@[simp] theorem State.emit_retirePend : (s.emit r).retirePend = s.retirePend := rfl
@[simp] theorem State.emit_dramBrand : (s.emit r).dramBrand = s.dramBrand := rfl
@[simp] theorem State.emit_brandBase : (s.emit r).brandBase = s.brandBase := rfl
@[simp] theorem State.emit_dramUpset : (s.emit r).dramUpset = s.dramUpset := rfl
@[simp] theorem State.emit_slices : (s.emit r).slices = s.slices := rfl
@[simp] theorem State.emit_sliceUpset : (s.emit r).sliceUpset = s.sliceUpset := rfl
@[simp] theorem State.emit_sliceBrand : (s.emit r).sliceBrand = s.sliceBrand := rfl
@[simp] theorem State.emit_sliceZero : (s.emit r).sliceZero = s.sliceZero := rfl
@[simp] theorem State.emit_qa : (s.emit r).qa = s.qa := rfl
@[simp] theorem State.emit_qb : (s.emit r).qb = s.qb := rfl
@[simp] theorem State.emit_vecHeld : (s.emit r).vecHeld = s.vecHeld := rfl
@[simp] theorem State.emit_cache : (s.emit r).cache = s.cache := rfl
@[simp] theorem State.emit_engines : (s.emit r).engines = s.engines := rfl
@[simp] theorem State.emit_links : (s.emit r).links = s.links := rfl
@[simp] theorem State.emit_posted : (s.emit r).posted = s.posted := rfl
@[simp] theorem State.emit_live : (s.emit r).live = s.live := rfl
@[simp] theorem State.emit_barriers : (s.emit r).barriers = s.barriers := rfl
@[simp] theorem State.emit_girth0 : (s.emit r).girth0 = s.girth0 := rfl
@[simp] theorem State.emit_girth1 : (s.emit r).girth1 = s.girth1 := rfl
@[simp] theorem State.emit_keys : (s.emit r).keys = s.keys := rfl
@[simp] theorem State.emit_treeFaults : (s.emit r).treeFaults = s.treeFaults := rfl
@[simp] theorem State.emit_combFaults : (s.emit r).combFaults = s.combFaults := rfl
@[simp] theorem State.emit_out : (s.emit r).out = s.out := rfl
@[simp] theorem State.emit_badLinks : (s.emit r).badLinks = s.badLinks := rfl
@[simp] theorem State.emit_netDegrade : (s.emit r).netDegrade = s.netDegrade := rfl
@[simp] theorem State.emit_netPend : (s.emit r).netPend = s.netPend := rfl
@[simp] theorem State.emit_held : (s.emit r).held = s.held := rfl
@[simp] theorem State.emit_memHeld : (s.emit r).memHeld = s.memHeld := rfl
@[simp] theorem State.emit_aon : (s.emit r).aon = s.aon := rfl
@[simp] theorem State.emit_flash : (s.emit r).flash = s.flash := rfl
@[simp] theorem State.emit_pow : (s.emit r).pow = s.pow := rfl
@[simp] theorem State.emit_asy : (s.emit r).asy = s.asy := rfl
@[simp] theorem State.emit_asyTurn : (s.emit r).asyTurn = s.asyTurn := rfl
@[simp] theorem State.emit_asyTgt : (s.emit r).asyTgt = s.asyTgt := rfl
@[simp] theorem State.emit_asyFrom : (s.emit r).asyFrom = s.asyFrom := rfl
@[simp] theorem State.emit_asyAt : (s.emit r).asyAt = s.asyAt := rfl
@[simp] theorem State.emit_heals : (s.emit r).heals = s.heals := rfl
@[simp] theorem State.emit_cfgLost : (s.emit r).cfgLost = s.cfgLost := rfl
@[simp] theorem State.emit_rst : (s.emit r).rst = s.rst := rfl
@[simp] theorem State.emit_dump : (s.emit r).dump = s.dump := rfl
@[simp] theorem State.emit_dumpWait : (s.emit r).dumpWait = s.dumpWait := rfl
@[simp] theorem State.emit_dumpSlots : (s.emit r).dumpSlots = s.dumpSlots := rfl
@[simp] theorem State.emit_dumpNext : (s.emit r).dumpNext = s.dumpNext := rfl
@[simp] theorem State.emit_resend : (s.emit r).resend = s.resend := rfl
@[simp] theorem State.emit_log : (s.emit r).log = s.log := rfl
@[simp] theorem State.emit_recent : (s.emit r).recent = s.recent := rfl
@[simp] theorem State.emit_streamSeq : (s.emit r).streamSeq = s.streamSeq := rfl
@[simp] theorem State.emit_update : (s.emit r).update = s.update := rfl
@[simp] theorem State.emit_time : (s.emit r).time = s.time := rfl
@[simp] theorem State.emit_entropyBad : (s.emit r).entropyBad = s.entropyBad := rfl
@[simp] theorem State.emit_epRetire : (s.emit r).epRetire = s.epRetire := rfl
@[simp] theorem State.emit_nonceCtr : (s.emit r).nonceCtr = s.nonceCtr := rfl
@[simp] theorem State.emit_jtag : (s.emit r).jtag = s.jtag := rfl
@[simp] theorem State.emit_freeCtr : (s.emit r).freeCtr = s.freeCtr := rfl
@[simp] theorem State.emit_pending : (s.emit r).pending = s.pending := rfl
@[simp] theorem State.emit_recQ : (s.emit r).recQ = s.recQ ++ [r] := rfl
end

section
variable (o : Out)
@[simp] theorem State.send_regs : (s.send o).regs = s.regs := rfl
@[simp] theorem State.send_shadow : (s.send o).shadow = s.shadow := rfl
@[simp] theorem State.send_gen : (s.send o).gen = s.gen := rfl
@[simp] theorem State.send_cores : (s.send o).cores = s.cores := rfl
@[simp] theorem State.send_supp : (s.send o).supp = s.supp := rfl
@[simp] theorem State.send_cap : (s.send o).cap = s.cap := rfl
@[simp] theorem State.send_win : (s.send o).win = s.win := rfl
@[simp] theorem State.send_winPar : (s.send o).winPar = s.winPar := rfl
@[simp] theorem State.send_recQ : (s.send o).recQ = s.recQ := rfl
@[simp] theorem State.send_net : (s.send o).net = s.net := rfl
@[simp] theorem State.send_arrived : (s.send o).arrived = s.arrived := rfl
@[simp] theorem State.send_mem : (s.send o).mem = s.mem := rfl
@[simp] theorem State.send_dbg : (s.send o).dbg = s.dbg := rfl
@[simp] theorem State.send_perturbed : (s.send o).perturbed = s.perturbed := rfl
@[simp] theorem State.send_nextXfer : (s.send o).nextXfer = s.nextXfer := rfl
@[simp] theorem State.send_xfers : (s.send o).xfers = s.xfers := rfl
@[simp] theorem State.send_reqs : (s.send o).reqs = s.reqs := rfl
@[simp] theorem State.send_flows : (s.send o).flows = s.flows := rfl
@[simp] theorem State.send_ceBursts : (s.send o).ceBursts = s.ceBursts := rfl
@[simp] theorem State.send_openPages : (s.send o).openPages = s.openPages := rfl
@[simp] theorem State.send_hotDevs : (s.send o).hotDevs = s.hotDevs := rfl
@[simp] theorem State.send_patrolAt : (s.send o).patrolAt = s.patrolAt := rfl
@[simp] theorem State.send_xbarRR : (s.send o).xbarRR = s.xbarRR := rfl
@[simp] theorem State.send_netRR : (s.send o).netRR = s.netRR := rfl
@[simp] theorem State.send_suppNext : (s.send o).suppNext = s.suppNext := rfl
@[simp] theorem State.send_memWrs : (s.send o).memWrs = s.memWrs := rfl
@[simp] theorem State.send_class2 : (s.send o).class2 = s.class2 := rfl
@[simp] theorem State.send_vcCov : (s.send o).vcCov = s.vcCov := rfl
@[simp] theorem State.send_reserve : (s.send o).reserve = s.reserve := rfl
@[simp] theorem State.send_repairs : (s.send o).repairs = s.repairs := rfl
@[simp] theorem State.send_retirePend : (s.send o).retirePend = s.retirePend := rfl
@[simp] theorem State.send_dramBrand : (s.send o).dramBrand = s.dramBrand := rfl
@[simp] theorem State.send_brandBase : (s.send o).brandBase = s.brandBase := rfl
@[simp] theorem State.send_dramUpset : (s.send o).dramUpset = s.dramUpset := rfl
@[simp] theorem State.send_slices : (s.send o).slices = s.slices := rfl
@[simp] theorem State.send_sliceUpset : (s.send o).sliceUpset = s.sliceUpset := rfl
@[simp] theorem State.send_sliceBrand : (s.send o).sliceBrand = s.sliceBrand := rfl
@[simp] theorem State.send_sliceZero : (s.send o).sliceZero = s.sliceZero := rfl
@[simp] theorem State.send_qa : (s.send o).qa = s.qa := rfl
@[simp] theorem State.send_qb : (s.send o).qb = s.qb := rfl
@[simp] theorem State.send_vecHeld : (s.send o).vecHeld = s.vecHeld := rfl
@[simp] theorem State.send_cache : (s.send o).cache = s.cache := rfl
@[simp] theorem State.send_engines : (s.send o).engines = s.engines := rfl
@[simp] theorem State.send_links : (s.send o).links = s.links := rfl
@[simp] theorem State.send_posted : (s.send o).posted = s.posted := rfl
@[simp] theorem State.send_live : (s.send o).live = s.live := rfl
@[simp] theorem State.send_barriers : (s.send o).barriers = s.barriers := rfl
@[simp] theorem State.send_girth0 : (s.send o).girth0 = s.girth0 := rfl
@[simp] theorem State.send_girth1 : (s.send o).girth1 = s.girth1 := rfl
@[simp] theorem State.send_keys : (s.send o).keys = s.keys := rfl
@[simp] theorem State.send_treeFaults : (s.send o).treeFaults = s.treeFaults := rfl
@[simp] theorem State.send_combFaults : (s.send o).combFaults = s.combFaults := rfl
@[simp] theorem State.send_badLinks : (s.send o).badLinks = s.badLinks := rfl
@[simp] theorem State.send_netDegrade : (s.send o).netDegrade = s.netDegrade := rfl
@[simp] theorem State.send_netPend : (s.send o).netPend = s.netPend := rfl
@[simp] theorem State.send_held : (s.send o).held = s.held := rfl
@[simp] theorem State.send_memHeld : (s.send o).memHeld = s.memHeld := rfl
@[simp] theorem State.send_aon : (s.send o).aon = s.aon := rfl
@[simp] theorem State.send_flash : (s.send o).flash = s.flash := rfl
@[simp] theorem State.send_pow : (s.send o).pow = s.pow := rfl
@[simp] theorem State.send_asy : (s.send o).asy = s.asy := rfl
@[simp] theorem State.send_asyTurn : (s.send o).asyTurn = s.asyTurn := rfl
@[simp] theorem State.send_asyTgt : (s.send o).asyTgt = s.asyTgt := rfl
@[simp] theorem State.send_asyFrom : (s.send o).asyFrom = s.asyFrom := rfl
@[simp] theorem State.send_asyAt : (s.send o).asyAt = s.asyAt := rfl
@[simp] theorem State.send_heals : (s.send o).heals = s.heals := rfl
@[simp] theorem State.send_cfgLost : (s.send o).cfgLost = s.cfgLost := rfl
@[simp] theorem State.send_rst : (s.send o).rst = s.rst := rfl
@[simp] theorem State.send_dump : (s.send o).dump = s.dump := rfl
@[simp] theorem State.send_dumpWait : (s.send o).dumpWait = s.dumpWait := rfl
@[simp] theorem State.send_dumpSlots : (s.send o).dumpSlots = s.dumpSlots := rfl
@[simp] theorem State.send_dumpNext : (s.send o).dumpNext = s.dumpNext := rfl
@[simp] theorem State.send_resend : (s.send o).resend = s.resend := rfl
@[simp] theorem State.send_log : (s.send o).log = s.log := rfl
@[simp] theorem State.send_recent : (s.send o).recent = s.recent := rfl
@[simp] theorem State.send_streamSeq : (s.send o).streamSeq = s.streamSeq := rfl
@[simp] theorem State.send_update : (s.send o).update = s.update := rfl
@[simp] theorem State.send_time : (s.send o).time = s.time := rfl
@[simp] theorem State.send_entropyBad : (s.send o).entropyBad = s.entropyBad := rfl
@[simp] theorem State.send_epRetire : (s.send o).epRetire = s.epRetire := rfl
@[simp] theorem State.send_nonceCtr : (s.send o).nonceCtr = s.nonceCtr := rfl
@[simp] theorem State.send_jtag : (s.send o).jtag = s.jtag := rfl
@[simp] theorem State.send_freeCtr : (s.send o).freeCtr = s.freeCtr := rfl
@[simp] theorem State.send_pending : (s.send o).pending = s.pending := rfl
@[simp] theorem State.send_out : (s.send o).out = s.out ++ [o] := rfl
end

section
variable (a n : Nat)
@[simp] theorem State.tick_regs : (s.tick a n).regs = s.regs := rfl
@[simp] theorem State.tick_shadow : (s.tick a n).shadow = s.shadow := rfl
@[simp] theorem State.tick_gen : (s.tick a n).gen = s.gen := rfl
@[simp] theorem State.tick_cores : (s.tick a n).cores = s.cores := rfl
@[simp] theorem State.tick_supp : (s.tick a n).supp = s.supp := rfl
@[simp] theorem State.tick_cap : (s.tick a n).cap = s.cap := rfl
@[simp] theorem State.tick_win : (s.tick a n).win = s.win := rfl
@[simp] theorem State.tick_winPar : (s.tick a n).winPar = s.winPar := rfl
@[simp] theorem State.tick_recQ : (s.tick a n).recQ = s.recQ := rfl
@[simp] theorem State.tick_net : (s.tick a n).net = s.net := rfl
@[simp] theorem State.tick_arrived : (s.tick a n).arrived = s.arrived := rfl
@[simp] theorem State.tick_mem : (s.tick a n).mem = s.mem := rfl
@[simp] theorem State.tick_dbg : (s.tick a n).dbg = s.dbg := rfl
@[simp] theorem State.tick_perturbed : (s.tick a n).perturbed = s.perturbed := rfl
@[simp] theorem State.tick_nextXfer : (s.tick a n).nextXfer = s.nextXfer := rfl
@[simp] theorem State.tick_xfers : (s.tick a n).xfers = s.xfers := rfl
@[simp] theorem State.tick_reqs : (s.tick a n).reqs = s.reqs := rfl
@[simp] theorem State.tick_flows : (s.tick a n).flows = s.flows := rfl
@[simp] theorem State.tick_ceBursts : (s.tick a n).ceBursts = s.ceBursts := rfl
@[simp] theorem State.tick_openPages : (s.tick a n).openPages = s.openPages := rfl
@[simp] theorem State.tick_hotDevs : (s.tick a n).hotDevs = s.hotDevs := rfl
@[simp] theorem State.tick_patrolAt : (s.tick a n).patrolAt = s.patrolAt := rfl
@[simp] theorem State.tick_xbarRR : (s.tick a n).xbarRR = s.xbarRR := rfl
@[simp] theorem State.tick_netRR : (s.tick a n).netRR = s.netRR := rfl
@[simp] theorem State.tick_suppNext : (s.tick a n).suppNext = s.suppNext := rfl
@[simp] theorem State.tick_memWrs : (s.tick a n).memWrs = s.memWrs := rfl
@[simp] theorem State.tick_class2 : (s.tick a n).class2 = s.class2 := rfl
@[simp] theorem State.tick_vcCov : (s.tick a n).vcCov = s.vcCov := rfl
@[simp] theorem State.tick_reserve : (s.tick a n).reserve = s.reserve := rfl
@[simp] theorem State.tick_repairs : (s.tick a n).repairs = s.repairs := rfl
@[simp] theorem State.tick_retirePend : (s.tick a n).retirePend = s.retirePend := rfl
@[simp] theorem State.tick_dramBrand : (s.tick a n).dramBrand = s.dramBrand := rfl
@[simp] theorem State.tick_brandBase : (s.tick a n).brandBase = s.brandBase := rfl
@[simp] theorem State.tick_dramUpset : (s.tick a n).dramUpset = s.dramUpset := rfl
@[simp] theorem State.tick_slices : (s.tick a n).slices = s.slices := rfl
@[simp] theorem State.tick_sliceUpset : (s.tick a n).sliceUpset = s.sliceUpset := rfl
@[simp] theorem State.tick_sliceBrand : (s.tick a n).sliceBrand = s.sliceBrand := rfl
@[simp] theorem State.tick_sliceZero : (s.tick a n).sliceZero = s.sliceZero := rfl
@[simp] theorem State.tick_qa : (s.tick a n).qa = s.qa := rfl
@[simp] theorem State.tick_qb : (s.tick a n).qb = s.qb := rfl
@[simp] theorem State.tick_vecHeld : (s.tick a n).vecHeld = s.vecHeld := rfl
@[simp] theorem State.tick_cache : (s.tick a n).cache = s.cache := rfl
@[simp] theorem State.tick_engines : (s.tick a n).engines = s.engines := rfl
@[simp] theorem State.tick_links : (s.tick a n).links = s.links := rfl
@[simp] theorem State.tick_posted : (s.tick a n).posted = s.posted := rfl
@[simp] theorem State.tick_barriers : (s.tick a n).barriers = s.barriers := rfl
@[simp] theorem State.tick_girth0 : (s.tick a n).girth0 = s.girth0 := rfl
@[simp] theorem State.tick_girth1 : (s.tick a n).girth1 = s.girth1 := rfl
@[simp] theorem State.tick_keys : (s.tick a n).keys = s.keys := rfl
@[simp] theorem State.tick_treeFaults : (s.tick a n).treeFaults = s.treeFaults := rfl
@[simp] theorem State.tick_combFaults : (s.tick a n).combFaults = s.combFaults := rfl
@[simp] theorem State.tick_out : (s.tick a n).out = s.out := rfl
@[simp] theorem State.tick_badLinks : (s.tick a n).badLinks = s.badLinks := rfl
@[simp] theorem State.tick_netDegrade : (s.tick a n).netDegrade = s.netDegrade := rfl
@[simp] theorem State.tick_netPend : (s.tick a n).netPend = s.netPend := rfl
@[simp] theorem State.tick_held : (s.tick a n).held = s.held := rfl
@[simp] theorem State.tick_memHeld : (s.tick a n).memHeld = s.memHeld := rfl
@[simp] theorem State.tick_aon : (s.tick a n).aon = s.aon := rfl
@[simp] theorem State.tick_flash : (s.tick a n).flash = s.flash := rfl
@[simp] theorem State.tick_pow : (s.tick a n).pow = s.pow := rfl
@[simp] theorem State.tick_asy : (s.tick a n).asy = s.asy := rfl
@[simp] theorem State.tick_asyTurn : (s.tick a n).asyTurn = s.asyTurn := rfl
@[simp] theorem State.tick_asyTgt : (s.tick a n).asyTgt = s.asyTgt := rfl
@[simp] theorem State.tick_asyFrom : (s.tick a n).asyFrom = s.asyFrom := rfl
@[simp] theorem State.tick_asyAt : (s.tick a n).asyAt = s.asyAt := rfl
@[simp] theorem State.tick_heals : (s.tick a n).heals = s.heals := rfl
@[simp] theorem State.tick_cfgLost : (s.tick a n).cfgLost = s.cfgLost := rfl
@[simp] theorem State.tick_rst : (s.tick a n).rst = s.rst := rfl
@[simp] theorem State.tick_dump : (s.tick a n).dump = s.dump := rfl
@[simp] theorem State.tick_dumpWait : (s.tick a n).dumpWait = s.dumpWait := rfl
@[simp] theorem State.tick_dumpSlots : (s.tick a n).dumpSlots = s.dumpSlots := rfl
@[simp] theorem State.tick_dumpNext : (s.tick a n).dumpNext = s.dumpNext := rfl
@[simp] theorem State.tick_resend : (s.tick a n).resend = s.resend := rfl
@[simp] theorem State.tick_log : (s.tick a n).log = s.log := rfl
@[simp] theorem State.tick_recent : (s.tick a n).recent = s.recent := rfl
@[simp] theorem State.tick_streamSeq : (s.tick a n).streamSeq = s.streamSeq := rfl
@[simp] theorem State.tick_update : (s.tick a n).update = s.update := rfl
@[simp] theorem State.tick_time : (s.tick a n).time = s.time := rfl
@[simp] theorem State.tick_entropyBad : (s.tick a n).entropyBad = s.entropyBad := rfl
@[simp] theorem State.tick_epRetire : (s.tick a n).epRetire = s.epRetire := rfl
@[simp] theorem State.tick_nonceCtr : (s.tick a n).nonceCtr = s.nonceCtr := rfl
@[simp] theorem State.tick_jtag : (s.tick a n).jtag = s.jtag := rfl
@[simp] theorem State.tick_freeCtr : (s.tick a n).freeCtr = s.freeCtr := rfl
@[simp] theorem State.tick_pending : (s.tick a n).pending = s.pending := rfl
@[simp] theorem State.tick_live : (s.tick a n).live = Tbl.set 0 s.live a (Tbl.get 0 s.live a + n) := rfl
end

section
variable (a n : Nat)
@[simp] theorem State.peak_regs : (s.peak a n).regs = s.regs := rfl
@[simp] theorem State.peak_shadow : (s.peak a n).shadow = s.shadow := rfl
@[simp] theorem State.peak_gen : (s.peak a n).gen = s.gen := rfl
@[simp] theorem State.peak_cores : (s.peak a n).cores = s.cores := rfl
@[simp] theorem State.peak_supp : (s.peak a n).supp = s.supp := rfl
@[simp] theorem State.peak_cap : (s.peak a n).cap = s.cap := rfl
@[simp] theorem State.peak_win : (s.peak a n).win = s.win := rfl
@[simp] theorem State.peak_winPar : (s.peak a n).winPar = s.winPar := rfl
@[simp] theorem State.peak_recQ : (s.peak a n).recQ = s.recQ := rfl
@[simp] theorem State.peak_net : (s.peak a n).net = s.net := rfl
@[simp] theorem State.peak_arrived : (s.peak a n).arrived = s.arrived := rfl
@[simp] theorem State.peak_mem : (s.peak a n).mem = s.mem := rfl
@[simp] theorem State.peak_dbg : (s.peak a n).dbg = s.dbg := rfl
@[simp] theorem State.peak_perturbed : (s.peak a n).perturbed = s.perturbed := rfl
@[simp] theorem State.peak_nextXfer : (s.peak a n).nextXfer = s.nextXfer := rfl
@[simp] theorem State.peak_xfers : (s.peak a n).xfers = s.xfers := rfl
@[simp] theorem State.peak_reqs : (s.peak a n).reqs = s.reqs := rfl
@[simp] theorem State.peak_flows : (s.peak a n).flows = s.flows := rfl
@[simp] theorem State.peak_ceBursts : (s.peak a n).ceBursts = s.ceBursts := rfl
@[simp] theorem State.peak_openPages : (s.peak a n).openPages = s.openPages := rfl
@[simp] theorem State.peak_hotDevs : (s.peak a n).hotDevs = s.hotDevs := rfl
@[simp] theorem State.peak_patrolAt : (s.peak a n).patrolAt = s.patrolAt := rfl
@[simp] theorem State.peak_xbarRR : (s.peak a n).xbarRR = s.xbarRR := rfl
@[simp] theorem State.peak_netRR : (s.peak a n).netRR = s.netRR := rfl
@[simp] theorem State.peak_suppNext : (s.peak a n).suppNext = s.suppNext := rfl
@[simp] theorem State.peak_memWrs : (s.peak a n).memWrs = s.memWrs := rfl
@[simp] theorem State.peak_class2 : (s.peak a n).class2 = s.class2 := rfl
@[simp] theorem State.peak_vcCov : (s.peak a n).vcCov = s.vcCov := rfl
@[simp] theorem State.peak_reserve : (s.peak a n).reserve = s.reserve := rfl
@[simp] theorem State.peak_repairs : (s.peak a n).repairs = s.repairs := rfl
@[simp] theorem State.peak_retirePend : (s.peak a n).retirePend = s.retirePend := rfl
@[simp] theorem State.peak_dramBrand : (s.peak a n).dramBrand = s.dramBrand := rfl
@[simp] theorem State.peak_brandBase : (s.peak a n).brandBase = s.brandBase := rfl
@[simp] theorem State.peak_dramUpset : (s.peak a n).dramUpset = s.dramUpset := rfl
@[simp] theorem State.peak_slices : (s.peak a n).slices = s.slices := rfl
@[simp] theorem State.peak_sliceUpset : (s.peak a n).sliceUpset = s.sliceUpset := rfl
@[simp] theorem State.peak_sliceBrand : (s.peak a n).sliceBrand = s.sliceBrand := rfl
@[simp] theorem State.peak_sliceZero : (s.peak a n).sliceZero = s.sliceZero := rfl
@[simp] theorem State.peak_qa : (s.peak a n).qa = s.qa := rfl
@[simp] theorem State.peak_qb : (s.peak a n).qb = s.qb := rfl
@[simp] theorem State.peak_vecHeld : (s.peak a n).vecHeld = s.vecHeld := rfl
@[simp] theorem State.peak_cache : (s.peak a n).cache = s.cache := rfl
@[simp] theorem State.peak_engines : (s.peak a n).engines = s.engines := rfl
@[simp] theorem State.peak_links : (s.peak a n).links = s.links := rfl
@[simp] theorem State.peak_posted : (s.peak a n).posted = s.posted := rfl
@[simp] theorem State.peak_barriers : (s.peak a n).barriers = s.barriers := rfl
@[simp] theorem State.peak_girth0 : (s.peak a n).girth0 = s.girth0 := rfl
@[simp] theorem State.peak_girth1 : (s.peak a n).girth1 = s.girth1 := rfl
@[simp] theorem State.peak_keys : (s.peak a n).keys = s.keys := rfl
@[simp] theorem State.peak_treeFaults : (s.peak a n).treeFaults = s.treeFaults := rfl
@[simp] theorem State.peak_combFaults : (s.peak a n).combFaults = s.combFaults := rfl
@[simp] theorem State.peak_out : (s.peak a n).out = s.out := rfl
@[simp] theorem State.peak_badLinks : (s.peak a n).badLinks = s.badLinks := rfl
@[simp] theorem State.peak_netDegrade : (s.peak a n).netDegrade = s.netDegrade := rfl
@[simp] theorem State.peak_netPend : (s.peak a n).netPend = s.netPend := rfl
@[simp] theorem State.peak_held : (s.peak a n).held = s.held := rfl
@[simp] theorem State.peak_memHeld : (s.peak a n).memHeld = s.memHeld := rfl
@[simp] theorem State.peak_aon : (s.peak a n).aon = s.aon := rfl
@[simp] theorem State.peak_flash : (s.peak a n).flash = s.flash := rfl
@[simp] theorem State.peak_pow : (s.peak a n).pow = s.pow := rfl
@[simp] theorem State.peak_asy : (s.peak a n).asy = s.asy := rfl
@[simp] theorem State.peak_asyTurn : (s.peak a n).asyTurn = s.asyTurn := rfl
@[simp] theorem State.peak_asyTgt : (s.peak a n).asyTgt = s.asyTgt := rfl
@[simp] theorem State.peak_asyFrom : (s.peak a n).asyFrom = s.asyFrom := rfl
@[simp] theorem State.peak_asyAt : (s.peak a n).asyAt = s.asyAt := rfl
@[simp] theorem State.peak_heals : (s.peak a n).heals = s.heals := rfl
@[simp] theorem State.peak_cfgLost : (s.peak a n).cfgLost = s.cfgLost := rfl
@[simp] theorem State.peak_rst : (s.peak a n).rst = s.rst := rfl
@[simp] theorem State.peak_dump : (s.peak a n).dump = s.dump := rfl
@[simp] theorem State.peak_dumpWait : (s.peak a n).dumpWait = s.dumpWait := rfl
@[simp] theorem State.peak_dumpSlots : (s.peak a n).dumpSlots = s.dumpSlots := rfl
@[simp] theorem State.peak_dumpNext : (s.peak a n).dumpNext = s.dumpNext := rfl
@[simp] theorem State.peak_resend : (s.peak a n).resend = s.resend := rfl
@[simp] theorem State.peak_log : (s.peak a n).log = s.log := rfl
@[simp] theorem State.peak_recent : (s.peak a n).recent = s.recent := rfl
@[simp] theorem State.peak_streamSeq : (s.peak a n).streamSeq = s.streamSeq := rfl
@[simp] theorem State.peak_update : (s.peak a n).update = s.update := rfl
@[simp] theorem State.peak_time : (s.peak a n).time = s.time := rfl
@[simp] theorem State.peak_entropyBad : (s.peak a n).entropyBad = s.entropyBad := rfl
@[simp] theorem State.peak_epRetire : (s.peak a n).epRetire = s.epRetire := rfl
@[simp] theorem State.peak_nonceCtr : (s.peak a n).nonceCtr = s.nonceCtr := rfl
@[simp] theorem State.peak_jtag : (s.peak a n).jtag = s.jtag := rfl
@[simp] theorem State.peak_freeCtr : (s.peak a n).freeCtr = s.freeCtr := rfl
@[simp] theorem State.peak_pending : (s.peak a n).pending = s.pending := rfl
@[simp] theorem State.peak_live : (s.peak a n).live = Tbl.set 0 s.live a (max (Tbl.get 0 s.live a) n) := rfl
end

section
variable (f : Aon → Aon)
@[simp] theorem State.modAon_regs : (s.modAon f).regs = s.regs := rfl
@[simp] theorem State.modAon_shadow : (s.modAon f).shadow = s.shadow := rfl
@[simp] theorem State.modAon_gen : (s.modAon f).gen = s.gen := rfl
@[simp] theorem State.modAon_cores : (s.modAon f).cores = s.cores := rfl
@[simp] theorem State.modAon_supp : (s.modAon f).supp = s.supp := rfl
@[simp] theorem State.modAon_cap : (s.modAon f).cap = s.cap := rfl
@[simp] theorem State.modAon_win : (s.modAon f).win = s.win := rfl
@[simp] theorem State.modAon_winPar : (s.modAon f).winPar = s.winPar := rfl
@[simp] theorem State.modAon_recQ : (s.modAon f).recQ = s.recQ := rfl
@[simp] theorem State.modAon_net : (s.modAon f).net = s.net := rfl
@[simp] theorem State.modAon_arrived : (s.modAon f).arrived = s.arrived := rfl
@[simp] theorem State.modAon_mem : (s.modAon f).mem = s.mem := rfl
@[simp] theorem State.modAon_dbg : (s.modAon f).dbg = s.dbg := rfl
@[simp] theorem State.modAon_perturbed : (s.modAon f).perturbed = s.perturbed := rfl
@[simp] theorem State.modAon_nextXfer : (s.modAon f).nextXfer = s.nextXfer := rfl
@[simp] theorem State.modAon_xfers : (s.modAon f).xfers = s.xfers := rfl
@[simp] theorem State.modAon_reqs : (s.modAon f).reqs = s.reqs := rfl
@[simp] theorem State.modAon_flows : (s.modAon f).flows = s.flows := rfl
@[simp] theorem State.modAon_ceBursts : (s.modAon f).ceBursts = s.ceBursts := rfl
@[simp] theorem State.modAon_openPages : (s.modAon f).openPages = s.openPages := rfl
@[simp] theorem State.modAon_hotDevs : (s.modAon f).hotDevs = s.hotDevs := rfl
@[simp] theorem State.modAon_patrolAt : (s.modAon f).patrolAt = s.patrolAt := rfl
@[simp] theorem State.modAon_xbarRR : (s.modAon f).xbarRR = s.xbarRR := rfl
@[simp] theorem State.modAon_netRR : (s.modAon f).netRR = s.netRR := rfl
@[simp] theorem State.modAon_suppNext : (s.modAon f).suppNext = s.suppNext := rfl
@[simp] theorem State.modAon_memWrs : (s.modAon f).memWrs = s.memWrs := rfl
@[simp] theorem State.modAon_class2 : (s.modAon f).class2 = s.class2 := rfl
@[simp] theorem State.modAon_vcCov : (s.modAon f).vcCov = s.vcCov := rfl
@[simp] theorem State.modAon_reserve : (s.modAon f).reserve = s.reserve := rfl
@[simp] theorem State.modAon_repairs : (s.modAon f).repairs = s.repairs := rfl
@[simp] theorem State.modAon_retirePend : (s.modAon f).retirePend = s.retirePend := rfl
@[simp] theorem State.modAon_dramBrand : (s.modAon f).dramBrand = s.dramBrand := rfl
@[simp] theorem State.modAon_brandBase : (s.modAon f).brandBase = s.brandBase := rfl
@[simp] theorem State.modAon_dramUpset : (s.modAon f).dramUpset = s.dramUpset := rfl
@[simp] theorem State.modAon_slices : (s.modAon f).slices = s.slices := rfl
@[simp] theorem State.modAon_sliceUpset : (s.modAon f).sliceUpset = s.sliceUpset := rfl
@[simp] theorem State.modAon_sliceBrand : (s.modAon f).sliceBrand = s.sliceBrand := rfl
@[simp] theorem State.modAon_sliceZero : (s.modAon f).sliceZero = s.sliceZero := rfl
@[simp] theorem State.modAon_qa : (s.modAon f).qa = s.qa := rfl
@[simp] theorem State.modAon_qb : (s.modAon f).qb = s.qb := rfl
@[simp] theorem State.modAon_vecHeld : (s.modAon f).vecHeld = s.vecHeld := rfl
@[simp] theorem State.modAon_cache : (s.modAon f).cache = s.cache := rfl
@[simp] theorem State.modAon_engines : (s.modAon f).engines = s.engines := rfl
@[simp] theorem State.modAon_links : (s.modAon f).links = s.links := rfl
@[simp] theorem State.modAon_posted : (s.modAon f).posted = s.posted := rfl
@[simp] theorem State.modAon_live : (s.modAon f).live = s.live := rfl
@[simp] theorem State.modAon_barriers : (s.modAon f).barriers = s.barriers := rfl
@[simp] theorem State.modAon_girth0 : (s.modAon f).girth0 = s.girth0 := rfl
@[simp] theorem State.modAon_girth1 : (s.modAon f).girth1 = s.girth1 := rfl
@[simp] theorem State.modAon_keys : (s.modAon f).keys = s.keys := rfl
@[simp] theorem State.modAon_treeFaults : (s.modAon f).treeFaults = s.treeFaults := rfl
@[simp] theorem State.modAon_combFaults : (s.modAon f).combFaults = s.combFaults := rfl
@[simp] theorem State.modAon_out : (s.modAon f).out = s.out := rfl
@[simp] theorem State.modAon_badLinks : (s.modAon f).badLinks = s.badLinks := rfl
@[simp] theorem State.modAon_netDegrade : (s.modAon f).netDegrade = s.netDegrade := rfl
@[simp] theorem State.modAon_netPend : (s.modAon f).netPend = s.netPend := rfl
@[simp] theorem State.modAon_held : (s.modAon f).held = s.held := rfl
@[simp] theorem State.modAon_memHeld : (s.modAon f).memHeld = s.memHeld := rfl
@[simp] theorem State.modAon_flash : (s.modAon f).flash = s.flash := rfl
@[simp] theorem State.modAon_pow : (s.modAon f).pow = s.pow := rfl
@[simp] theorem State.modAon_asy : (s.modAon f).asy = s.asy := rfl
@[simp] theorem State.modAon_asyTurn : (s.modAon f).asyTurn = s.asyTurn := rfl
@[simp] theorem State.modAon_asyTgt : (s.modAon f).asyTgt = s.asyTgt := rfl
@[simp] theorem State.modAon_asyFrom : (s.modAon f).asyFrom = s.asyFrom := rfl
@[simp] theorem State.modAon_asyAt : (s.modAon f).asyAt = s.asyAt := rfl
@[simp] theorem State.modAon_heals : (s.modAon f).heals = s.heals := rfl
@[simp] theorem State.modAon_cfgLost : (s.modAon f).cfgLost = s.cfgLost := rfl
@[simp] theorem State.modAon_rst : (s.modAon f).rst = s.rst := rfl
@[simp] theorem State.modAon_dump : (s.modAon f).dump = s.dump := rfl
@[simp] theorem State.modAon_dumpWait : (s.modAon f).dumpWait = s.dumpWait := rfl
@[simp] theorem State.modAon_dumpSlots : (s.modAon f).dumpSlots = s.dumpSlots := rfl
@[simp] theorem State.modAon_dumpNext : (s.modAon f).dumpNext = s.dumpNext := rfl
@[simp] theorem State.modAon_resend : (s.modAon f).resend = s.resend := rfl
@[simp] theorem State.modAon_log : (s.modAon f).log = s.log := rfl
@[simp] theorem State.modAon_recent : (s.modAon f).recent = s.recent := rfl
@[simp] theorem State.modAon_streamSeq : (s.modAon f).streamSeq = s.streamSeq := rfl
@[simp] theorem State.modAon_update : (s.modAon f).update = s.update := rfl
@[simp] theorem State.modAon_time : (s.modAon f).time = s.time := rfl
@[simp] theorem State.modAon_entropyBad : (s.modAon f).entropyBad = s.entropyBad := rfl
@[simp] theorem State.modAon_epRetire : (s.modAon f).epRetire = s.epRetire := rfl
@[simp] theorem State.modAon_nonceCtr : (s.modAon f).nonceCtr = s.nonceCtr := rfl
@[simp] theorem State.modAon_jtag : (s.modAon f).jtag = s.jtag := rfl
@[simp] theorem State.modAon_freeCtr : (s.modAon f).freeCtr = s.freeCtr := rfl
@[simp] theorem State.modAon_pending : (s.modAon f).pending = s.pending := rfl
@[simp] theorem State.modAon_aon : (s.modAon f).aon = f s.aon := rfl
end

section
variable (f : Flash → Flash)
@[simp] theorem State.modFlash_regs : (s.modFlash f).regs = s.regs := rfl
@[simp] theorem State.modFlash_shadow : (s.modFlash f).shadow = s.shadow := rfl
@[simp] theorem State.modFlash_gen : (s.modFlash f).gen = s.gen := rfl
@[simp] theorem State.modFlash_cores : (s.modFlash f).cores = s.cores := rfl
@[simp] theorem State.modFlash_supp : (s.modFlash f).supp = s.supp := rfl
@[simp] theorem State.modFlash_cap : (s.modFlash f).cap = s.cap := rfl
@[simp] theorem State.modFlash_win : (s.modFlash f).win = s.win := rfl
@[simp] theorem State.modFlash_winPar : (s.modFlash f).winPar = s.winPar := rfl
@[simp] theorem State.modFlash_recQ : (s.modFlash f).recQ = s.recQ := rfl
@[simp] theorem State.modFlash_net : (s.modFlash f).net = s.net := rfl
@[simp] theorem State.modFlash_arrived : (s.modFlash f).arrived = s.arrived := rfl
@[simp] theorem State.modFlash_mem : (s.modFlash f).mem = s.mem := rfl
@[simp] theorem State.modFlash_dbg : (s.modFlash f).dbg = s.dbg := rfl
@[simp] theorem State.modFlash_perturbed : (s.modFlash f).perturbed = s.perturbed := rfl
@[simp] theorem State.modFlash_nextXfer : (s.modFlash f).nextXfer = s.nextXfer := rfl
@[simp] theorem State.modFlash_xfers : (s.modFlash f).xfers = s.xfers := rfl
@[simp] theorem State.modFlash_reqs : (s.modFlash f).reqs = s.reqs := rfl
@[simp] theorem State.modFlash_flows : (s.modFlash f).flows = s.flows := rfl
@[simp] theorem State.modFlash_ceBursts : (s.modFlash f).ceBursts = s.ceBursts := rfl
@[simp] theorem State.modFlash_openPages : (s.modFlash f).openPages = s.openPages := rfl
@[simp] theorem State.modFlash_hotDevs : (s.modFlash f).hotDevs = s.hotDevs := rfl
@[simp] theorem State.modFlash_patrolAt : (s.modFlash f).patrolAt = s.patrolAt := rfl
@[simp] theorem State.modFlash_xbarRR : (s.modFlash f).xbarRR = s.xbarRR := rfl
@[simp] theorem State.modFlash_netRR : (s.modFlash f).netRR = s.netRR := rfl
@[simp] theorem State.modFlash_suppNext : (s.modFlash f).suppNext = s.suppNext := rfl
@[simp] theorem State.modFlash_memWrs : (s.modFlash f).memWrs = s.memWrs := rfl
@[simp] theorem State.modFlash_class2 : (s.modFlash f).class2 = s.class2 := rfl
@[simp] theorem State.modFlash_vcCov : (s.modFlash f).vcCov = s.vcCov := rfl
@[simp] theorem State.modFlash_reserve : (s.modFlash f).reserve = s.reserve := rfl
@[simp] theorem State.modFlash_repairs : (s.modFlash f).repairs = s.repairs := rfl
@[simp] theorem State.modFlash_retirePend : (s.modFlash f).retirePend = s.retirePend := rfl
@[simp] theorem State.modFlash_dramBrand : (s.modFlash f).dramBrand = s.dramBrand := rfl
@[simp] theorem State.modFlash_brandBase : (s.modFlash f).brandBase = s.brandBase := rfl
@[simp] theorem State.modFlash_dramUpset : (s.modFlash f).dramUpset = s.dramUpset := rfl
@[simp] theorem State.modFlash_slices : (s.modFlash f).slices = s.slices := rfl
@[simp] theorem State.modFlash_sliceUpset : (s.modFlash f).sliceUpset = s.sliceUpset := rfl
@[simp] theorem State.modFlash_sliceBrand : (s.modFlash f).sliceBrand = s.sliceBrand := rfl
@[simp] theorem State.modFlash_sliceZero : (s.modFlash f).sliceZero = s.sliceZero := rfl
@[simp] theorem State.modFlash_qa : (s.modFlash f).qa = s.qa := rfl
@[simp] theorem State.modFlash_qb : (s.modFlash f).qb = s.qb := rfl
@[simp] theorem State.modFlash_vecHeld : (s.modFlash f).vecHeld = s.vecHeld := rfl
@[simp] theorem State.modFlash_cache : (s.modFlash f).cache = s.cache := rfl
@[simp] theorem State.modFlash_engines : (s.modFlash f).engines = s.engines := rfl
@[simp] theorem State.modFlash_links : (s.modFlash f).links = s.links := rfl
@[simp] theorem State.modFlash_posted : (s.modFlash f).posted = s.posted := rfl
@[simp] theorem State.modFlash_live : (s.modFlash f).live = s.live := rfl
@[simp] theorem State.modFlash_barriers : (s.modFlash f).barriers = s.barriers := rfl
@[simp] theorem State.modFlash_girth0 : (s.modFlash f).girth0 = s.girth0 := rfl
@[simp] theorem State.modFlash_girth1 : (s.modFlash f).girth1 = s.girth1 := rfl
@[simp] theorem State.modFlash_keys : (s.modFlash f).keys = s.keys := rfl
@[simp] theorem State.modFlash_treeFaults : (s.modFlash f).treeFaults = s.treeFaults := rfl
@[simp] theorem State.modFlash_combFaults : (s.modFlash f).combFaults = s.combFaults := rfl
@[simp] theorem State.modFlash_out : (s.modFlash f).out = s.out := rfl
@[simp] theorem State.modFlash_badLinks : (s.modFlash f).badLinks = s.badLinks := rfl
@[simp] theorem State.modFlash_netDegrade : (s.modFlash f).netDegrade = s.netDegrade := rfl
@[simp] theorem State.modFlash_netPend : (s.modFlash f).netPend = s.netPend := rfl
@[simp] theorem State.modFlash_held : (s.modFlash f).held = s.held := rfl
@[simp] theorem State.modFlash_memHeld : (s.modFlash f).memHeld = s.memHeld := rfl
@[simp] theorem State.modFlash_aon : (s.modFlash f).aon = s.aon := rfl
@[simp] theorem State.modFlash_pow : (s.modFlash f).pow = s.pow := rfl
@[simp] theorem State.modFlash_asy : (s.modFlash f).asy = s.asy := rfl
@[simp] theorem State.modFlash_asyTurn : (s.modFlash f).asyTurn = s.asyTurn := rfl
@[simp] theorem State.modFlash_asyTgt : (s.modFlash f).asyTgt = s.asyTgt := rfl
@[simp] theorem State.modFlash_asyFrom : (s.modFlash f).asyFrom = s.asyFrom := rfl
@[simp] theorem State.modFlash_asyAt : (s.modFlash f).asyAt = s.asyAt := rfl
@[simp] theorem State.modFlash_heals : (s.modFlash f).heals = s.heals := rfl
@[simp] theorem State.modFlash_cfgLost : (s.modFlash f).cfgLost = s.cfgLost := rfl
@[simp] theorem State.modFlash_rst : (s.modFlash f).rst = s.rst := rfl
@[simp] theorem State.modFlash_dump : (s.modFlash f).dump = s.dump := rfl
@[simp] theorem State.modFlash_dumpWait : (s.modFlash f).dumpWait = s.dumpWait := rfl
@[simp] theorem State.modFlash_dumpSlots : (s.modFlash f).dumpSlots = s.dumpSlots := rfl
@[simp] theorem State.modFlash_dumpNext : (s.modFlash f).dumpNext = s.dumpNext := rfl
@[simp] theorem State.modFlash_resend : (s.modFlash f).resend = s.resend := rfl
@[simp] theorem State.modFlash_log : (s.modFlash f).log = s.log := rfl
@[simp] theorem State.modFlash_recent : (s.modFlash f).recent = s.recent := rfl
@[simp] theorem State.modFlash_streamSeq : (s.modFlash f).streamSeq = s.streamSeq := rfl
@[simp] theorem State.modFlash_update : (s.modFlash f).update = s.update := rfl
@[simp] theorem State.modFlash_time : (s.modFlash f).time = s.time := rfl
@[simp] theorem State.modFlash_entropyBad : (s.modFlash f).entropyBad = s.entropyBad := rfl
@[simp] theorem State.modFlash_epRetire : (s.modFlash f).epRetire = s.epRetire := rfl
@[simp] theorem State.modFlash_nonceCtr : (s.modFlash f).nonceCtr = s.nonceCtr := rfl
@[simp] theorem State.modFlash_jtag : (s.modFlash f).jtag = s.jtag := rfl
@[simp] theorem State.modFlash_freeCtr : (s.modFlash f).freeCtr = s.freeCtr := rfl
@[simp] theorem State.modFlash_pending : (s.modFlash f).pending = s.pending := rfl
@[simp] theorem State.modFlash_flash : (s.modFlash f).flash = f s.flash := rfl
end

section
variable (f : Power → Power)
@[simp] theorem State.modPow_regs : (s.modPow f).regs = s.regs := rfl
@[simp] theorem State.modPow_shadow : (s.modPow f).shadow = s.shadow := rfl
@[simp] theorem State.modPow_gen : (s.modPow f).gen = s.gen := rfl
@[simp] theorem State.modPow_cores : (s.modPow f).cores = s.cores := rfl
@[simp] theorem State.modPow_supp : (s.modPow f).supp = s.supp := rfl
@[simp] theorem State.modPow_cap : (s.modPow f).cap = s.cap := rfl
@[simp] theorem State.modPow_win : (s.modPow f).win = s.win := rfl
@[simp] theorem State.modPow_winPar : (s.modPow f).winPar = s.winPar := rfl
@[simp] theorem State.modPow_recQ : (s.modPow f).recQ = s.recQ := rfl
@[simp] theorem State.modPow_net : (s.modPow f).net = s.net := rfl
@[simp] theorem State.modPow_arrived : (s.modPow f).arrived = s.arrived := rfl
@[simp] theorem State.modPow_mem : (s.modPow f).mem = s.mem := rfl
@[simp] theorem State.modPow_dbg : (s.modPow f).dbg = s.dbg := rfl
@[simp] theorem State.modPow_perturbed : (s.modPow f).perturbed = s.perturbed := rfl
@[simp] theorem State.modPow_nextXfer : (s.modPow f).nextXfer = s.nextXfer := rfl
@[simp] theorem State.modPow_xfers : (s.modPow f).xfers = s.xfers := rfl
@[simp] theorem State.modPow_reqs : (s.modPow f).reqs = s.reqs := rfl
@[simp] theorem State.modPow_flows : (s.modPow f).flows = s.flows := rfl
@[simp] theorem State.modPow_ceBursts : (s.modPow f).ceBursts = s.ceBursts := rfl
@[simp] theorem State.modPow_openPages : (s.modPow f).openPages = s.openPages := rfl
@[simp] theorem State.modPow_hotDevs : (s.modPow f).hotDevs = s.hotDevs := rfl
@[simp] theorem State.modPow_patrolAt : (s.modPow f).patrolAt = s.patrolAt := rfl
@[simp] theorem State.modPow_xbarRR : (s.modPow f).xbarRR = s.xbarRR := rfl
@[simp] theorem State.modPow_netRR : (s.modPow f).netRR = s.netRR := rfl
@[simp] theorem State.modPow_suppNext : (s.modPow f).suppNext = s.suppNext := rfl
@[simp] theorem State.modPow_memWrs : (s.modPow f).memWrs = s.memWrs := rfl
@[simp] theorem State.modPow_class2 : (s.modPow f).class2 = s.class2 := rfl
@[simp] theorem State.modPow_vcCov : (s.modPow f).vcCov = s.vcCov := rfl
@[simp] theorem State.modPow_reserve : (s.modPow f).reserve = s.reserve := rfl
@[simp] theorem State.modPow_repairs : (s.modPow f).repairs = s.repairs := rfl
@[simp] theorem State.modPow_retirePend : (s.modPow f).retirePend = s.retirePend := rfl
@[simp] theorem State.modPow_dramBrand : (s.modPow f).dramBrand = s.dramBrand := rfl
@[simp] theorem State.modPow_brandBase : (s.modPow f).brandBase = s.brandBase := rfl
@[simp] theorem State.modPow_dramUpset : (s.modPow f).dramUpset = s.dramUpset := rfl
@[simp] theorem State.modPow_slices : (s.modPow f).slices = s.slices := rfl
@[simp] theorem State.modPow_sliceUpset : (s.modPow f).sliceUpset = s.sliceUpset := rfl
@[simp] theorem State.modPow_sliceBrand : (s.modPow f).sliceBrand = s.sliceBrand := rfl
@[simp] theorem State.modPow_sliceZero : (s.modPow f).sliceZero = s.sliceZero := rfl
@[simp] theorem State.modPow_qa : (s.modPow f).qa = s.qa := rfl
@[simp] theorem State.modPow_qb : (s.modPow f).qb = s.qb := rfl
@[simp] theorem State.modPow_vecHeld : (s.modPow f).vecHeld = s.vecHeld := rfl
@[simp] theorem State.modPow_cache : (s.modPow f).cache = s.cache := rfl
@[simp] theorem State.modPow_engines : (s.modPow f).engines = s.engines := rfl
@[simp] theorem State.modPow_links : (s.modPow f).links = s.links := rfl
@[simp] theorem State.modPow_posted : (s.modPow f).posted = s.posted := rfl
@[simp] theorem State.modPow_live : (s.modPow f).live = s.live := rfl
@[simp] theorem State.modPow_barriers : (s.modPow f).barriers = s.barriers := rfl
@[simp] theorem State.modPow_girth0 : (s.modPow f).girth0 = s.girth0 := rfl
@[simp] theorem State.modPow_girth1 : (s.modPow f).girth1 = s.girth1 := rfl
@[simp] theorem State.modPow_keys : (s.modPow f).keys = s.keys := rfl
@[simp] theorem State.modPow_treeFaults : (s.modPow f).treeFaults = s.treeFaults := rfl
@[simp] theorem State.modPow_combFaults : (s.modPow f).combFaults = s.combFaults := rfl
@[simp] theorem State.modPow_out : (s.modPow f).out = s.out := rfl
@[simp] theorem State.modPow_badLinks : (s.modPow f).badLinks = s.badLinks := rfl
@[simp] theorem State.modPow_netDegrade : (s.modPow f).netDegrade = s.netDegrade := rfl
@[simp] theorem State.modPow_netPend : (s.modPow f).netPend = s.netPend := rfl
@[simp] theorem State.modPow_held : (s.modPow f).held = s.held := rfl
@[simp] theorem State.modPow_memHeld : (s.modPow f).memHeld = s.memHeld := rfl
@[simp] theorem State.modPow_aon : (s.modPow f).aon = s.aon := rfl
@[simp] theorem State.modPow_flash : (s.modPow f).flash = s.flash := rfl
@[simp] theorem State.modPow_asy : (s.modPow f).asy = s.asy := rfl
@[simp] theorem State.modPow_asyTurn : (s.modPow f).asyTurn = s.asyTurn := rfl
@[simp] theorem State.modPow_asyTgt : (s.modPow f).asyTgt = s.asyTgt := rfl
@[simp] theorem State.modPow_asyFrom : (s.modPow f).asyFrom = s.asyFrom := rfl
@[simp] theorem State.modPow_asyAt : (s.modPow f).asyAt = s.asyAt := rfl
@[simp] theorem State.modPow_heals : (s.modPow f).heals = s.heals := rfl
@[simp] theorem State.modPow_cfgLost : (s.modPow f).cfgLost = s.cfgLost := rfl
@[simp] theorem State.modPow_rst : (s.modPow f).rst = s.rst := rfl
@[simp] theorem State.modPow_dump : (s.modPow f).dump = s.dump := rfl
@[simp] theorem State.modPow_dumpWait : (s.modPow f).dumpWait = s.dumpWait := rfl
@[simp] theorem State.modPow_dumpSlots : (s.modPow f).dumpSlots = s.dumpSlots := rfl
@[simp] theorem State.modPow_dumpNext : (s.modPow f).dumpNext = s.dumpNext := rfl
@[simp] theorem State.modPow_resend : (s.modPow f).resend = s.resend := rfl
@[simp] theorem State.modPow_log : (s.modPow f).log = s.log := rfl
@[simp] theorem State.modPow_recent : (s.modPow f).recent = s.recent := rfl
@[simp] theorem State.modPow_streamSeq : (s.modPow f).streamSeq = s.streamSeq := rfl
@[simp] theorem State.modPow_update : (s.modPow f).update = s.update := rfl
@[simp] theorem State.modPow_time : (s.modPow f).time = s.time := rfl
@[simp] theorem State.modPow_entropyBad : (s.modPow f).entropyBad = s.entropyBad := rfl
@[simp] theorem State.modPow_epRetire : (s.modPow f).epRetire = s.epRetire := rfl
@[simp] theorem State.modPow_nonceCtr : (s.modPow f).nonceCtr = s.nonceCtr := rfl
@[simp] theorem State.modPow_jtag : (s.modPow f).jtag = s.jtag := rfl
@[simp] theorem State.modPow_freeCtr : (s.modPow f).freeCtr = s.freeCtr := rfl
@[simp] theorem State.modPow_pending : (s.modPow f).pending = s.pending := rfl
@[simp] theorem State.modPow_pow : (s.modPow f).pow = f s.pow := rfl
end

section
variable (n : Nat)
@[simp] theorem State.takeArrival_regs : (s.takeArrival n).regs = s.regs := rfl
@[simp] theorem State.takeArrival_shadow : (s.takeArrival n).shadow = s.shadow := rfl
@[simp] theorem State.takeArrival_gen : (s.takeArrival n).gen = s.gen := rfl
@[simp] theorem State.takeArrival_cores : (s.takeArrival n).cores = s.cores := rfl
@[simp] theorem State.takeArrival_supp : (s.takeArrival n).supp = s.supp := rfl
@[simp] theorem State.takeArrival_cap : (s.takeArrival n).cap = s.cap := rfl
@[simp] theorem State.takeArrival_win : (s.takeArrival n).win = s.win := rfl
@[simp] theorem State.takeArrival_winPar : (s.takeArrival n).winPar = s.winPar := rfl
@[simp] theorem State.takeArrival_recQ : (s.takeArrival n).recQ = s.recQ := rfl
@[simp] theorem State.takeArrival_net : (s.takeArrival n).net = s.net := rfl
@[simp] theorem State.takeArrival_mem : (s.takeArrival n).mem = s.mem := rfl
@[simp] theorem State.takeArrival_dbg : (s.takeArrival n).dbg = s.dbg := rfl
@[simp] theorem State.takeArrival_perturbed : (s.takeArrival n).perturbed = s.perturbed := rfl
@[simp] theorem State.takeArrival_nextXfer : (s.takeArrival n).nextXfer = s.nextXfer := rfl
@[simp] theorem State.takeArrival_xfers : (s.takeArrival n).xfers = s.xfers := rfl
@[simp] theorem State.takeArrival_reqs : (s.takeArrival n).reqs = s.reqs := rfl
@[simp] theorem State.takeArrival_flows : (s.takeArrival n).flows = s.flows := rfl
@[simp] theorem State.takeArrival_ceBursts : (s.takeArrival n).ceBursts = s.ceBursts := rfl
@[simp] theorem State.takeArrival_openPages : (s.takeArrival n).openPages = s.openPages := rfl
@[simp] theorem State.takeArrival_hotDevs : (s.takeArrival n).hotDevs = s.hotDevs := rfl
@[simp] theorem State.takeArrival_patrolAt : (s.takeArrival n).patrolAt = s.patrolAt := rfl
@[simp] theorem State.takeArrival_xbarRR : (s.takeArrival n).xbarRR = s.xbarRR := rfl
@[simp] theorem State.takeArrival_netRR : (s.takeArrival n).netRR = s.netRR := rfl
@[simp] theorem State.takeArrival_suppNext : (s.takeArrival n).suppNext = s.suppNext := rfl
@[simp] theorem State.takeArrival_memWrs : (s.takeArrival n).memWrs = s.memWrs := rfl
@[simp] theorem State.takeArrival_class2 : (s.takeArrival n).class2 = s.class2 := rfl
@[simp] theorem State.takeArrival_vcCov : (s.takeArrival n).vcCov = s.vcCov := rfl
@[simp] theorem State.takeArrival_reserve : (s.takeArrival n).reserve = s.reserve := rfl
@[simp] theorem State.takeArrival_repairs : (s.takeArrival n).repairs = s.repairs := rfl
@[simp] theorem State.takeArrival_retirePend : (s.takeArrival n).retirePend = s.retirePend := rfl
@[simp] theorem State.takeArrival_dramBrand : (s.takeArrival n).dramBrand = s.dramBrand := rfl
@[simp] theorem State.takeArrival_brandBase : (s.takeArrival n).brandBase = s.brandBase := rfl
@[simp] theorem State.takeArrival_dramUpset : (s.takeArrival n).dramUpset = s.dramUpset := rfl
@[simp] theorem State.takeArrival_slices : (s.takeArrival n).slices = s.slices := rfl
@[simp] theorem State.takeArrival_sliceUpset : (s.takeArrival n).sliceUpset = s.sliceUpset := rfl
@[simp] theorem State.takeArrival_sliceBrand : (s.takeArrival n).sliceBrand = s.sliceBrand := rfl
@[simp] theorem State.takeArrival_sliceZero : (s.takeArrival n).sliceZero = s.sliceZero := rfl
@[simp] theorem State.takeArrival_qa : (s.takeArrival n).qa = s.qa := rfl
@[simp] theorem State.takeArrival_qb : (s.takeArrival n).qb = s.qb := rfl
@[simp] theorem State.takeArrival_vecHeld : (s.takeArrival n).vecHeld = s.vecHeld := rfl
@[simp] theorem State.takeArrival_cache : (s.takeArrival n).cache = s.cache := rfl
@[simp] theorem State.takeArrival_engines : (s.takeArrival n).engines = s.engines := rfl
@[simp] theorem State.takeArrival_links : (s.takeArrival n).links = s.links := rfl
@[simp] theorem State.takeArrival_posted : (s.takeArrival n).posted = s.posted := rfl
@[simp] theorem State.takeArrival_live : (s.takeArrival n).live = s.live := rfl
@[simp] theorem State.takeArrival_barriers : (s.takeArrival n).barriers = s.barriers := rfl
@[simp] theorem State.takeArrival_girth0 : (s.takeArrival n).girth0 = s.girth0 := rfl
@[simp] theorem State.takeArrival_girth1 : (s.takeArrival n).girth1 = s.girth1 := rfl
@[simp] theorem State.takeArrival_keys : (s.takeArrival n).keys = s.keys := rfl
@[simp] theorem State.takeArrival_treeFaults : (s.takeArrival n).treeFaults = s.treeFaults := rfl
@[simp] theorem State.takeArrival_combFaults : (s.takeArrival n).combFaults = s.combFaults := rfl
@[simp] theorem State.takeArrival_out : (s.takeArrival n).out = s.out := rfl
@[simp] theorem State.takeArrival_badLinks : (s.takeArrival n).badLinks = s.badLinks := rfl
@[simp] theorem State.takeArrival_netDegrade : (s.takeArrival n).netDegrade = s.netDegrade := rfl
@[simp] theorem State.takeArrival_netPend : (s.takeArrival n).netPend = s.netPend := rfl
@[simp] theorem State.takeArrival_held : (s.takeArrival n).held = s.held := rfl
@[simp] theorem State.takeArrival_memHeld : (s.takeArrival n).memHeld = s.memHeld := rfl
@[simp] theorem State.takeArrival_aon : (s.takeArrival n).aon = s.aon := rfl
@[simp] theorem State.takeArrival_flash : (s.takeArrival n).flash = s.flash := rfl
@[simp] theorem State.takeArrival_pow : (s.takeArrival n).pow = s.pow := rfl
@[simp] theorem State.takeArrival_asy : (s.takeArrival n).asy = s.asy := rfl
@[simp] theorem State.takeArrival_asyTurn : (s.takeArrival n).asyTurn = s.asyTurn := rfl
@[simp] theorem State.takeArrival_asyTgt : (s.takeArrival n).asyTgt = s.asyTgt := rfl
@[simp] theorem State.takeArrival_asyFrom : (s.takeArrival n).asyFrom = s.asyFrom := rfl
@[simp] theorem State.takeArrival_asyAt : (s.takeArrival n).asyAt = s.asyAt := rfl
@[simp] theorem State.takeArrival_heals : (s.takeArrival n).heals = s.heals := rfl
@[simp] theorem State.takeArrival_cfgLost : (s.takeArrival n).cfgLost = s.cfgLost := rfl
@[simp] theorem State.takeArrival_rst : (s.takeArrival n).rst = s.rst := rfl
@[simp] theorem State.takeArrival_dump : (s.takeArrival n).dump = s.dump := rfl
@[simp] theorem State.takeArrival_dumpWait : (s.takeArrival n).dumpWait = s.dumpWait := rfl
@[simp] theorem State.takeArrival_dumpSlots : (s.takeArrival n).dumpSlots = s.dumpSlots := rfl
@[simp] theorem State.takeArrival_dumpNext : (s.takeArrival n).dumpNext = s.dumpNext := rfl
@[simp] theorem State.takeArrival_resend : (s.takeArrival n).resend = s.resend := rfl
@[simp] theorem State.takeArrival_log : (s.takeArrival n).log = s.log := rfl
@[simp] theorem State.takeArrival_recent : (s.takeArrival n).recent = s.recent := rfl
@[simp] theorem State.takeArrival_streamSeq : (s.takeArrival n).streamSeq = s.streamSeq := rfl
@[simp] theorem State.takeArrival_update : (s.takeArrival n).update = s.update := rfl
@[simp] theorem State.takeArrival_time : (s.takeArrival n).time = s.time := rfl
@[simp] theorem State.takeArrival_entropyBad : (s.takeArrival n).entropyBad = s.entropyBad := rfl
@[simp] theorem State.takeArrival_epRetire : (s.takeArrival n).epRetire = s.epRetire := rfl
@[simp] theorem State.takeArrival_nonceCtr : (s.takeArrival n).nonceCtr = s.nonceCtr := rfl
@[simp] theorem State.takeArrival_jtag : (s.takeArrival n).jtag = s.jtag := rfl
@[simp] theorem State.takeArrival_freeCtr : (s.takeArrival n).freeCtr = s.freeCtr := rfl
@[simp] theorem State.takeArrival_pending : (s.takeArrival n).pending = s.pending := rfl
@[simp] theorem State.takeArrival_arrived : (s.takeArrival n).arrived = s.arrived.eraseIdx n := rfl
end

section
variable (n : Nat)
@[simp] theorem State.dropPkt_regs : (s.dropPkt n).regs = s.regs := rfl
@[simp] theorem State.dropPkt_shadow : (s.dropPkt n).shadow = s.shadow := rfl
@[simp] theorem State.dropPkt_gen : (s.dropPkt n).gen = s.gen := rfl
@[simp] theorem State.dropPkt_cores : (s.dropPkt n).cores = s.cores := rfl
@[simp] theorem State.dropPkt_supp : (s.dropPkt n).supp = s.supp := rfl
@[simp] theorem State.dropPkt_cap : (s.dropPkt n).cap = s.cap := rfl
@[simp] theorem State.dropPkt_win : (s.dropPkt n).win = s.win := rfl
@[simp] theorem State.dropPkt_winPar : (s.dropPkt n).winPar = s.winPar := rfl
@[simp] theorem State.dropPkt_recQ : (s.dropPkt n).recQ = s.recQ := rfl
@[simp] theorem State.dropPkt_arrived : (s.dropPkt n).arrived = s.arrived := rfl
@[simp] theorem State.dropPkt_mem : (s.dropPkt n).mem = s.mem := rfl
@[simp] theorem State.dropPkt_dbg : (s.dropPkt n).dbg = s.dbg := rfl
@[simp] theorem State.dropPkt_perturbed : (s.dropPkt n).perturbed = s.perturbed := rfl
@[simp] theorem State.dropPkt_nextXfer : (s.dropPkt n).nextXfer = s.nextXfer := rfl
@[simp] theorem State.dropPkt_xfers : (s.dropPkt n).xfers = s.xfers := rfl
@[simp] theorem State.dropPkt_reqs : (s.dropPkt n).reqs = s.reqs := rfl
@[simp] theorem State.dropPkt_flows : (s.dropPkt n).flows = s.flows := rfl
@[simp] theorem State.dropPkt_ceBursts : (s.dropPkt n).ceBursts = s.ceBursts := rfl
@[simp] theorem State.dropPkt_openPages : (s.dropPkt n).openPages = s.openPages := rfl
@[simp] theorem State.dropPkt_hotDevs : (s.dropPkt n).hotDevs = s.hotDevs := rfl
@[simp] theorem State.dropPkt_patrolAt : (s.dropPkt n).patrolAt = s.patrolAt := rfl
@[simp] theorem State.dropPkt_xbarRR : (s.dropPkt n).xbarRR = s.xbarRR := rfl
@[simp] theorem State.dropPkt_netRR : (s.dropPkt n).netRR = s.netRR := rfl
@[simp] theorem State.dropPkt_suppNext : (s.dropPkt n).suppNext = s.suppNext := rfl
@[simp] theorem State.dropPkt_memWrs : (s.dropPkt n).memWrs = s.memWrs := rfl
@[simp] theorem State.dropPkt_class2 : (s.dropPkt n).class2 = s.class2 := rfl
@[simp] theorem State.dropPkt_vcCov : (s.dropPkt n).vcCov = s.vcCov := rfl
@[simp] theorem State.dropPkt_reserve : (s.dropPkt n).reserve = s.reserve := rfl
@[simp] theorem State.dropPkt_repairs : (s.dropPkt n).repairs = s.repairs := rfl
@[simp] theorem State.dropPkt_retirePend : (s.dropPkt n).retirePend = s.retirePend := rfl
@[simp] theorem State.dropPkt_dramBrand : (s.dropPkt n).dramBrand = s.dramBrand := rfl
@[simp] theorem State.dropPkt_brandBase : (s.dropPkt n).brandBase = s.brandBase := rfl
@[simp] theorem State.dropPkt_dramUpset : (s.dropPkt n).dramUpset = s.dramUpset := rfl
@[simp] theorem State.dropPkt_slices : (s.dropPkt n).slices = s.slices := rfl
@[simp] theorem State.dropPkt_sliceUpset : (s.dropPkt n).sliceUpset = s.sliceUpset := rfl
@[simp] theorem State.dropPkt_sliceBrand : (s.dropPkt n).sliceBrand = s.sliceBrand := rfl
@[simp] theorem State.dropPkt_sliceZero : (s.dropPkt n).sliceZero = s.sliceZero := rfl
@[simp] theorem State.dropPkt_qa : (s.dropPkt n).qa = s.qa := rfl
@[simp] theorem State.dropPkt_qb : (s.dropPkt n).qb = s.qb := rfl
@[simp] theorem State.dropPkt_vecHeld : (s.dropPkt n).vecHeld = s.vecHeld := rfl
@[simp] theorem State.dropPkt_cache : (s.dropPkt n).cache = s.cache := rfl
@[simp] theorem State.dropPkt_engines : (s.dropPkt n).engines = s.engines := rfl
@[simp] theorem State.dropPkt_links : (s.dropPkt n).links = s.links := rfl
@[simp] theorem State.dropPkt_posted : (s.dropPkt n).posted = s.posted := rfl
@[simp] theorem State.dropPkt_live : (s.dropPkt n).live = s.live := rfl
@[simp] theorem State.dropPkt_barriers : (s.dropPkt n).barriers = s.barriers := rfl
@[simp] theorem State.dropPkt_girth0 : (s.dropPkt n).girth0 = s.girth0 := rfl
@[simp] theorem State.dropPkt_girth1 : (s.dropPkt n).girth1 = s.girth1 := rfl
@[simp] theorem State.dropPkt_keys : (s.dropPkt n).keys = s.keys := rfl
@[simp] theorem State.dropPkt_treeFaults : (s.dropPkt n).treeFaults = s.treeFaults := rfl
@[simp] theorem State.dropPkt_combFaults : (s.dropPkt n).combFaults = s.combFaults := rfl
@[simp] theorem State.dropPkt_out : (s.dropPkt n).out = s.out := rfl
@[simp] theorem State.dropPkt_badLinks : (s.dropPkt n).badLinks = s.badLinks := rfl
@[simp] theorem State.dropPkt_netDegrade : (s.dropPkt n).netDegrade = s.netDegrade := rfl
@[simp] theorem State.dropPkt_netPend : (s.dropPkt n).netPend = s.netPend := rfl
@[simp] theorem State.dropPkt_held : (s.dropPkt n).held = s.held := rfl
@[simp] theorem State.dropPkt_memHeld : (s.dropPkt n).memHeld = s.memHeld := rfl
@[simp] theorem State.dropPkt_aon : (s.dropPkt n).aon = s.aon := rfl
@[simp] theorem State.dropPkt_flash : (s.dropPkt n).flash = s.flash := rfl
@[simp] theorem State.dropPkt_pow : (s.dropPkt n).pow = s.pow := rfl
@[simp] theorem State.dropPkt_asy : (s.dropPkt n).asy = s.asy := rfl
@[simp] theorem State.dropPkt_asyTurn : (s.dropPkt n).asyTurn = s.asyTurn := rfl
@[simp] theorem State.dropPkt_asyTgt : (s.dropPkt n).asyTgt = s.asyTgt := rfl
@[simp] theorem State.dropPkt_asyFrom : (s.dropPkt n).asyFrom = s.asyFrom := rfl
@[simp] theorem State.dropPkt_asyAt : (s.dropPkt n).asyAt = s.asyAt := rfl
@[simp] theorem State.dropPkt_heals : (s.dropPkt n).heals = s.heals := rfl
@[simp] theorem State.dropPkt_cfgLost : (s.dropPkt n).cfgLost = s.cfgLost := rfl
@[simp] theorem State.dropPkt_rst : (s.dropPkt n).rst = s.rst := rfl
@[simp] theorem State.dropPkt_dump : (s.dropPkt n).dump = s.dump := rfl
@[simp] theorem State.dropPkt_dumpWait : (s.dropPkt n).dumpWait = s.dumpWait := rfl
@[simp] theorem State.dropPkt_dumpSlots : (s.dropPkt n).dumpSlots = s.dumpSlots := rfl
@[simp] theorem State.dropPkt_dumpNext : (s.dropPkt n).dumpNext = s.dumpNext := rfl
@[simp] theorem State.dropPkt_resend : (s.dropPkt n).resend = s.resend := rfl
@[simp] theorem State.dropPkt_log : (s.dropPkt n).log = s.log := rfl
@[simp] theorem State.dropPkt_recent : (s.dropPkt n).recent = s.recent := rfl
@[simp] theorem State.dropPkt_streamSeq : (s.dropPkt n).streamSeq = s.streamSeq := rfl
@[simp] theorem State.dropPkt_update : (s.dropPkt n).update = s.update := rfl
@[simp] theorem State.dropPkt_time : (s.dropPkt n).time = s.time := rfl
@[simp] theorem State.dropPkt_entropyBad : (s.dropPkt n).entropyBad = s.entropyBad := rfl
@[simp] theorem State.dropPkt_epRetire : (s.dropPkt n).epRetire = s.epRetire := rfl
@[simp] theorem State.dropPkt_nonceCtr : (s.dropPkt n).nonceCtr = s.nonceCtr := rfl
@[simp] theorem State.dropPkt_jtag : (s.dropPkt n).jtag = s.jtag := rfl
@[simp] theorem State.dropPkt_freeCtr : (s.dropPkt n).freeCtr = s.freeCtr := rfl
@[simp] theorem State.dropPkt_pending : (s.dropPkt n).pending = s.pending := rfl
@[simp] theorem State.dropPkt_net : (s.dropPkt n).net = s.net.eraseIdx n := rfl
end

section
variable (p : Nat) (l : FabLink)
@[simp] theorem State.setLink_regs : (s.setLink p l).regs = s.regs := rfl
@[simp] theorem State.setLink_shadow : (s.setLink p l).shadow = s.shadow := rfl
@[simp] theorem State.setLink_gen : (s.setLink p l).gen = s.gen := rfl
@[simp] theorem State.setLink_cores : (s.setLink p l).cores = s.cores := rfl
@[simp] theorem State.setLink_supp : (s.setLink p l).supp = s.supp := rfl
@[simp] theorem State.setLink_cap : (s.setLink p l).cap = s.cap := rfl
@[simp] theorem State.setLink_win : (s.setLink p l).win = s.win := rfl
@[simp] theorem State.setLink_winPar : (s.setLink p l).winPar = s.winPar := rfl
@[simp] theorem State.setLink_recQ : (s.setLink p l).recQ = s.recQ := rfl
@[simp] theorem State.setLink_net : (s.setLink p l).net = s.net := rfl
@[simp] theorem State.setLink_arrived : (s.setLink p l).arrived = s.arrived := rfl
@[simp] theorem State.setLink_mem : (s.setLink p l).mem = s.mem := rfl
@[simp] theorem State.setLink_dbg : (s.setLink p l).dbg = s.dbg := rfl
@[simp] theorem State.setLink_perturbed : (s.setLink p l).perturbed = s.perturbed := rfl
@[simp] theorem State.setLink_nextXfer : (s.setLink p l).nextXfer = s.nextXfer := rfl
@[simp] theorem State.setLink_xfers : (s.setLink p l).xfers = s.xfers := rfl
@[simp] theorem State.setLink_reqs : (s.setLink p l).reqs = s.reqs := rfl
@[simp] theorem State.setLink_flows : (s.setLink p l).flows = s.flows := rfl
@[simp] theorem State.setLink_ceBursts : (s.setLink p l).ceBursts = s.ceBursts := rfl
@[simp] theorem State.setLink_openPages : (s.setLink p l).openPages = s.openPages := rfl
@[simp] theorem State.setLink_hotDevs : (s.setLink p l).hotDevs = s.hotDevs := rfl
@[simp] theorem State.setLink_patrolAt : (s.setLink p l).patrolAt = s.patrolAt := rfl
@[simp] theorem State.setLink_xbarRR : (s.setLink p l).xbarRR = s.xbarRR := rfl
@[simp] theorem State.setLink_netRR : (s.setLink p l).netRR = s.netRR := rfl
@[simp] theorem State.setLink_suppNext : (s.setLink p l).suppNext = s.suppNext := rfl
@[simp] theorem State.setLink_memWrs : (s.setLink p l).memWrs = s.memWrs := rfl
@[simp] theorem State.setLink_class2 : (s.setLink p l).class2 = s.class2 := rfl
@[simp] theorem State.setLink_vcCov : (s.setLink p l).vcCov = s.vcCov := rfl
@[simp] theorem State.setLink_reserve : (s.setLink p l).reserve = s.reserve := rfl
@[simp] theorem State.setLink_repairs : (s.setLink p l).repairs = s.repairs := rfl
@[simp] theorem State.setLink_retirePend : (s.setLink p l).retirePend = s.retirePend := rfl
@[simp] theorem State.setLink_dramBrand : (s.setLink p l).dramBrand = s.dramBrand := rfl
@[simp] theorem State.setLink_brandBase : (s.setLink p l).brandBase = s.brandBase := rfl
@[simp] theorem State.setLink_dramUpset : (s.setLink p l).dramUpset = s.dramUpset := rfl
@[simp] theorem State.setLink_slices : (s.setLink p l).slices = s.slices := rfl
@[simp] theorem State.setLink_sliceUpset : (s.setLink p l).sliceUpset = s.sliceUpset := rfl
@[simp] theorem State.setLink_sliceBrand : (s.setLink p l).sliceBrand = s.sliceBrand := rfl
@[simp] theorem State.setLink_sliceZero : (s.setLink p l).sliceZero = s.sliceZero := rfl
@[simp] theorem State.setLink_qa : (s.setLink p l).qa = s.qa := rfl
@[simp] theorem State.setLink_qb : (s.setLink p l).qb = s.qb := rfl
@[simp] theorem State.setLink_vecHeld : (s.setLink p l).vecHeld = s.vecHeld := rfl
@[simp] theorem State.setLink_cache : (s.setLink p l).cache = s.cache := rfl
@[simp] theorem State.setLink_engines : (s.setLink p l).engines = s.engines := rfl
@[simp] theorem State.setLink_posted : (s.setLink p l).posted = s.posted := rfl
@[simp] theorem State.setLink_live : (s.setLink p l).live = s.live := rfl
@[simp] theorem State.setLink_barriers : (s.setLink p l).barriers = s.barriers := rfl
@[simp] theorem State.setLink_girth0 : (s.setLink p l).girth0 = s.girth0 := rfl
@[simp] theorem State.setLink_girth1 : (s.setLink p l).girth1 = s.girth1 := rfl
@[simp] theorem State.setLink_keys : (s.setLink p l).keys = s.keys := rfl
@[simp] theorem State.setLink_treeFaults : (s.setLink p l).treeFaults = s.treeFaults := rfl
@[simp] theorem State.setLink_combFaults : (s.setLink p l).combFaults = s.combFaults := rfl
@[simp] theorem State.setLink_out : (s.setLink p l).out = s.out := rfl
@[simp] theorem State.setLink_badLinks : (s.setLink p l).badLinks = s.badLinks := rfl
@[simp] theorem State.setLink_netDegrade : (s.setLink p l).netDegrade = s.netDegrade := rfl
@[simp] theorem State.setLink_netPend : (s.setLink p l).netPend = s.netPend := rfl
@[simp] theorem State.setLink_held : (s.setLink p l).held = s.held := rfl
@[simp] theorem State.setLink_memHeld : (s.setLink p l).memHeld = s.memHeld := rfl
@[simp] theorem State.setLink_aon : (s.setLink p l).aon = s.aon := rfl
@[simp] theorem State.setLink_flash : (s.setLink p l).flash = s.flash := rfl
@[simp] theorem State.setLink_pow : (s.setLink p l).pow = s.pow := rfl
@[simp] theorem State.setLink_asy : (s.setLink p l).asy = s.asy := rfl
@[simp] theorem State.setLink_asyTurn : (s.setLink p l).asyTurn = s.asyTurn := rfl
@[simp] theorem State.setLink_asyTgt : (s.setLink p l).asyTgt = s.asyTgt := rfl
@[simp] theorem State.setLink_asyFrom : (s.setLink p l).asyFrom = s.asyFrom := rfl
@[simp] theorem State.setLink_asyAt : (s.setLink p l).asyAt = s.asyAt := rfl
@[simp] theorem State.setLink_heals : (s.setLink p l).heals = s.heals := rfl
@[simp] theorem State.setLink_cfgLost : (s.setLink p l).cfgLost = s.cfgLost := rfl
@[simp] theorem State.setLink_rst : (s.setLink p l).rst = s.rst := rfl
@[simp] theorem State.setLink_dump : (s.setLink p l).dump = s.dump := rfl
@[simp] theorem State.setLink_dumpWait : (s.setLink p l).dumpWait = s.dumpWait := rfl
@[simp] theorem State.setLink_dumpSlots : (s.setLink p l).dumpSlots = s.dumpSlots := rfl
@[simp] theorem State.setLink_dumpNext : (s.setLink p l).dumpNext = s.dumpNext := rfl
@[simp] theorem State.setLink_resend : (s.setLink p l).resend = s.resend := rfl
@[simp] theorem State.setLink_log : (s.setLink p l).log = s.log := rfl
@[simp] theorem State.setLink_recent : (s.setLink p l).recent = s.recent := rfl
@[simp] theorem State.setLink_streamSeq : (s.setLink p l).streamSeq = s.streamSeq := rfl
@[simp] theorem State.setLink_update : (s.setLink p l).update = s.update := rfl
@[simp] theorem State.setLink_time : (s.setLink p l).time = s.time := rfl
@[simp] theorem State.setLink_entropyBad : (s.setLink p l).entropyBad = s.entropyBad := rfl
@[simp] theorem State.setLink_epRetire : (s.setLink p l).epRetire = s.epRetire := rfl
@[simp] theorem State.setLink_nonceCtr : (s.setLink p l).nonceCtr = s.nonceCtr := rfl
@[simp] theorem State.setLink_jtag : (s.setLink p l).jtag = s.jtag := rfl
@[simp] theorem State.setLink_freeCtr : (s.setLink p l).freeCtr = s.freeCtr := rfl
@[simp] theorem State.setLink_pending : (s.setLink p l).pending = s.pending := rfl
@[simp] theorem State.setLink_links : (s.setLink p l).links = Tbl.set {} s.links p l := rfl
end

end Sys2Proof.Machine
end

