-- ==== Sys2Proof/Laws/Tbl.lean ====
section
/-! SUPPORT. Sparse tables: a read after a write, and the canonical form that every table operation keeps. -/

namespace Sys2Proof.Tbl

variable {α : Type}

theorem find?_erase_same (t : Tbl α) (k : Nat) : find? (erase t k) k = none := by
  induction t with
  | nil => rfl
  | cons p r ih =>
    obtain ⟨j, v⟩ := p
    by_cases h : j = k
    · simpa [erase, h] using ih
    · simpa [erase, h, find?] using ih

theorem find?_erase_other (t : Tbl α) {k j : Nat} (h : j ≠ k) : find? (erase t k) j = find? t j := by
  induction t with
  | nil => rfl
  | cons p r ih =>
    obtain ⟨i, v⟩ := p
    by_cases hk : i = k
    · have : i ≠ j := by omega
      simpa [erase, hk, find?, this, show k ≠ j by omega] using ih
    · by_cases hj : i = j
      · simp [erase, find?, hj, h]
      · simpa [erase, hk, find?, hj] using ih

theorem find?_insertSorted_same (t : Tbl α) (k : Nat) (v : α) (h : find? t k = none) :
    find? (insertSorted t k v) k = some v := by
  induction t with
  | nil => simp [insertSorted, find?]
  | cons p r ih =>
    obtain ⟨j, w⟩ := p
    have hj : j ≠ k := by
      intro e
      simp [find?, e] at h
    have hr : find? r k = none := by simpa [find?, hj] using h
    by_cases hk : k < j
    · simp [insertSorted, hk, find?]
    · simp [insertSorted, hk, find?, hj, ih hr]

theorem find?_insertSorted_other (t : Tbl α) (k : Nat) (v : α) {j : Nat} (h : j ≠ k) :
    find? (insertSorted t k v) j = find? t j := by
  induction t with
  | nil => simp [insertSorted, find?, h.symm]
  | cons p r ih =>
    obtain ⟨i, w⟩ := p
    by_cases hk : k < i
    · simp [insertSorted, hk, find?, h.symm]
    · by_cases hi : i = j
      · subst hi
        simp [insertSorted, hk, find?]
      · simp [insertSorted, hk, find?, hi, ih]

@[simp] theorem get_set_same [DecidableEq α] (d : α) (t : Tbl α) (k : Nat) (v : α) : get d (set d t k v) k = v := by
  by_cases h : v = d
  · simp [get, set, h, find?_erase_same]
  · simp [get, set, h, find?_insertSorted_same _ _ _ (find?_erase_same t k)]

theorem get_set_other [DecidableEq α] (d d' : α) (t : Tbl α) {k j : Nat} (v : α) (h : j ≠ k) :
    get d' (set d t k v) j = get d' t j := by
  by_cases hv : v = d
  · simp [get, set, hv, find?_erase_other _ h]
  · simp [get, set, hv, find?_insertSorted_other _ _ _ h, find?_erase_other _ h]

@[simp] theorem find?_put_same (t : Tbl α) (k : Nat) (v : α) : find? (put t k v) k = some v :=
  find?_insertSorted_same _ _ _ (find?_erase_same t k)

theorem find?_put_other (t : Tbl α) {k j : Nat} (v : α) (h : j ≠ k) : find? (put t k v) j = find? t j := by
  simp [put, find?_insertSorted_other _ _ _ h, find?_erase_other _ h]

@[simp] theorem get_nil (d : α) (k : Nat) : get d ([] : Tbl α) k = d := rfl

/-! ### The canonical form -/

/-- Every key is at least `b`, in a form that recursion on the list can use. -/
theorem rising_cons {a : Nat} {w : α} {t : Tbl α} : rising ((a, w) :: t) = true ↔ (∀ p ∈ t, a < p.1) ∧ rising t = true := by
  induction t generalizing a w with
  | nil => simp [rising]
  | cons p r ih =>
    obtain ⟨b, x⟩ := p
    simp only [rising, Bool.and_eq_true, decide_eq_true_eq, List.mem_cons, forall_eq_or_imp]
    constructor
    · rintro ⟨hab, hr⟩
      exact ⟨⟨hab, fun q hq => Nat.lt_trans hab ((ih.mp hr).1 q hq)⟩, hr⟩
    · rintro ⟨⟨hab, _⟩, hr⟩
      exact ⟨hab, hr⟩

theorem rising_filter (t : Tbl α) (f : Nat × α → Bool) (h : rising t = true) : rising (t.filter f) = true := by
  induction t with
  | nil => rfl
  | cons p r ih =>
    obtain ⟨a, w⟩ := p
    rw [rising_cons] at h
    by_cases hf : f (a, w) = true
    · rw [List.filter_cons_of_pos hf, rising_cons]
      exact ⟨fun q hq => h.1 q (List.mem_of_mem_filter hq), ih h.2⟩
    · rw [List.filter_cons_of_neg hf]
      exact ih h.2

theorem mem_insertSorted {t : Tbl α} {k : Nat} {v : α} {p : Nat × α} (h : p ∈ insertSorted t k v) : p = (k, v) ∨ p ∈ t := by
  induction t with
  | nil => simpa [insertSorted] using h
  | cons q r ih =>
    obtain ⟨j, w⟩ := q
    by_cases hk : k < j
    · simpa [insertSorted, hk] using h
    · rw [insertSorted, if_neg hk, List.mem_cons] at h
      rcases h with h | h
      · exact .inr (h ▸ List.mem_cons_self)
      · exact (ih h).imp id (List.mem_cons_of_mem _)

theorem rising_insertSorted (t : Tbl α) (k : Nat) (v : α) (h : rising t = true) (hk : ∀ p ∈ t, p.1 ≠ k) :
    rising (insertSorted t k v) = true := by
  induction t with
  | nil => rfl
  | cons p r ih =>
    obtain ⟨j, w⟩ := p
    have hj : j ≠ k := hk (j, w) List.mem_cons_self
    have hr := rising_cons.mp h
    by_cases hlt : k < j
    · rw [insertSorted, if_pos hlt, rising_cons]
      refine ⟨fun q hq => ?_, h⟩
      rcases List.mem_cons.mp hq with rfl | hq
      · exact hlt
      · exact Nat.lt_trans hlt (hr.1 q hq)
    · rw [insertSorted, if_neg hlt, rising_cons]
      refine ⟨fun q hq => ?_, ih hr.2 (fun q hq => hk q (List.mem_cons_of_mem _ hq))⟩
      rcases mem_insertSorted hq with rfl | hq
      · change j < k
        omega
      · exact hr.1 q hq

theorem wf_filter [DecidableEq α] (d : Nat → α) (t : Tbl α) (f : Nat × α → Bool) (h : wf d t = true) :
    wf d (t.filter f) = true := by
  simp only [wf, Bool.and_eq_true, List.all_eq_true] at h ⊢
  exact ⟨rising_filter t f h.1, fun p hp => h.2 p (List.mem_of_mem_filter hp)⟩

theorem wf_erase [DecidableEq α] (d : Nat → α) (t : Tbl α) (k : Nat) (h : wf d t = true) : wf d (erase t k) = true :=
  wf_filter d t _ h

/-- A write keeps the canonical form of a table whose default at the written key is `d k`. -/
theorem wf_set [DecidableEq α] (d : Nat → α) (t : Tbl α) (k : Nat) (v : α) (h : wf d t = true) :
    wf d (set (d k) t k v) = true := by
  by_cases hv : v = d k
  · simpa [set, hv] using wf_erase d t k h
  · have he := wf_erase d t k h
    simp only [set, if_neg hv, wf, Bool.and_eq_true, List.all_eq_true, decide_eq_true_eq] at he ⊢
    refine ⟨rising_insertSorted _ k v he.1 (fun p hp => ?_), fun p hp => ?_⟩
    · simpa using (List.mem_filter.mp hp).2
    · rcases mem_insertSorted hp with rfl | hp
      · exact hv
      · exact he.2 p hp

end Sys2Proof.Tbl
end

