-- ==== Sys2Proof/Laws/Ops.lean ====
section
/-! SUPPORT. Registers, fields, cores and memory: a read after a write, and what each write leaves alone. -/

namespace Sys2Proof.Machine

/-! ### Fields of a word -/

/-- Bits `lo` to `hi` of a number replaced, as three summands. -/
theorem setFld_decomp (W lo n v : Nat) :
    W - W / 2 ^ lo % 2 ^ n * 2 ^ lo + v % 2 ^ n * 2 ^ lo
      = 2 ^ lo * (2 ^ n * (W / 2 ^ (lo + n)) + v % 2 ^ n) + W % 2 ^ lo := by
  have h1 : W = 2 ^ lo * (W / 2 ^ lo) + W % 2 ^ lo := (Nat.div_add_mod W (2 ^ lo)).symm
  have h2 : W / 2 ^ lo = 2 ^ n * (W / 2 ^ (lo + n)) + W / 2 ^ lo % 2 ^ n := by
    rw [Nat.pow_add, ← Nat.div_div_eq_div_mul]
    exact (Nat.div_add_mod _ _).symm
  generalize hf : W / 2 ^ lo % 2 ^ n = f at *
  generalize hh : W / 2 ^ (lo + n) = h at *
  generalize hl : W % 2 ^ lo = l at *
  generalize hv : v % 2 ^ n = x at *
  rw [h2] at h1
  have e : W = 2 ^ lo * (2 ^ n * h) + f * 2 ^ lo + l := by rw [h1]; ring
  have e2 : 2 ^ lo * (2 ^ n * h + x) + l = 2 ^ lo * (2 ^ n * h) + x * 2 ^ lo + l := by ring
  rw [e2]
  omega

/-- Bit `i` after bits `lo` to `lo + n - 1` are replaced. -/
theorem testBit_setFld (W lo n v i : Nat) :
    (W - W / 2 ^ lo % 2 ^ n * 2 ^ lo + v % 2 ^ n * 2 ^ lo).testBit i
      = if i < lo then W.testBit i else if i < lo + n then v.testBit (i - lo) else W.testBit i := by
  rw [setFld_decomp, Nat.testBit_two_pow_mul_add _ (Nat.mod_lt _ (Nat.two_pow_pos lo))]
  by_cases h : i < lo
  · simp [h, Nat.testBit_mod_two_pow]
  · rw [if_neg h, if_neg h, Nat.testBit_two_pow_mul_add _ (Nat.mod_lt _ (Nat.two_pow_pos n))]
    by_cases h2 : i < lo + n
    · have : i - lo < n := by omega
      simp [h2, this, Nat.testBit_mod_two_pow]
    · have : ¬ i - lo < n := by omega
      rw [if_neg this, if_neg h2, Nat.testBit_div_two_pow]
      congr 1
      omega

theorem setFld_toNat {w : Word} {hi lo v : Nat} (h : hi < 32) :
    (setFld w hi lo v).toNat = w.toNat - fld w hi lo * 2 ^ lo + v % 2 ^ (hi + 1 - lo) * 2 ^ lo := by
  simp only [setFld, BitVec.toNat_ofNat, fld]
  apply Nat.mod_eq_of_lt
  apply Nat.lt_pow_two_of_testBit
  intro i hi'
  rw [testBit_setFld]
  have hw : w.toNat.testBit i = false := Nat.testBit_lt_two_pow (Nat.lt_of_lt_of_le w.isLt (Nat.pow_le_pow_right (by decide) hi'))
  split
  · exact hw
  · split
    · omega
    · exact hw

theorem fld_testBit (w : Word) (hi lo i : Nat) : (fld w hi lo).testBit i = (decide (i < hi + 1 - lo) && w.toNat.testBit (lo + i)) := by
  simp [fld, Nat.testBit_mod_two_pow, Nat.testBit_div_two_pow, Nat.add_comm]

/-- A field reads as it was set. -/
theorem fld_setFld_same {w : Word} {hi lo v : Nat} (h : hi < 32) : fld (setFld w hi lo v) hi lo = v % 2 ^ (hi + 1 - lo) := by
  apply Nat.eq_of_testBit_eq
  intro i
  rw [fld_testBit, setFld_toNat h]
  unfold fld
  rw [testBit_setFld, Nat.testBit_mod_two_pow]
  by_cases hi' : i < hi + 1 - lo
  · have h1 : ¬ lo + i < lo := by omega
    have h2 : lo + i < lo + (hi + 1 - lo) := by omega
    simp [hi', h1]
  · simp [hi']

/-- Setting a field leaves every field beside it alone. -/
theorem fld_setFld_other {w : Word} {hi lo v hi' lo' : Nat} (h : hi < 32) (hd : hi' < lo ∨ hi < lo') :
    fld (setFld w hi lo v) hi' lo' = fld w hi' lo' := by
  apply Nat.eq_of_testBit_eq
  intro i
  rw [fld_testBit, fld_testBit, setFld_toNat h]
  unfold fld
  rw [testBit_setFld]
  by_cases hi1 : i < hi' + 1 - lo'
  · by_cases h1 : lo' + i < lo
    · simp [h1]
    · have h2 : ¬ lo' + i < lo + (hi + 1 - lo) := by omega
      simp [h1, h2]
  · simp [hi1]

theorem fld_lt (w : Word) (hi lo : Nat) : fld w hi lo < 2 ^ (hi + 1 - lo) := Nat.mod_lt _ (Nat.two_pow_pos _)

/-! ### Registers -/

@[simp] theorem State.rd_wr_same (s : State) (a : Nat) (v : Word) : (s.wr a v).rd a = v := by
  simp [State.rd]

theorem State.rd_wr_other (s : State) {a b : Nat} (v : Word) (h : b ≠ a) : (s.wr a v).rd b = s.rd b := by
  simp [State.rd, Tbl.get_set_other _ _ _ _ h]

theorem State.rd_wr (s : State) (a b : Nat) (v : Word) : (s.wr a v).rd b = if b = a then v else s.rd b := by
  by_cases h : b = a
  · subst h
    simp
  · simp [h, State.rd_wr_other]

theorem State.rd_congr {s t : State} (h : s.regs = t.regs) (a : Nat) : s.rd a = t.rd a := by simp [State.rd, h]

theorem State.rf_congr {s t : State} (h : s.regs = t.regs) (a hi lo : Nat) : s.rf a hi lo = t.rf a hi lo := by
  simp [State.rf, State.rd_congr h]

theorem State.rd_wf (s : State) (a b hi lo v : Nat) :
    (s.wf a hi lo v).rd b = if b = a then setFld (s.rd a) hi lo v else s.rd b := State.rd_wr s a b _

theorem State.rf_wf_same (s : State) {a hi lo v : Nat} (h : hi < 32) : (s.wf a hi lo v).rf a hi lo = v % 2 ^ (hi + 1 - lo) := by
  rw [State.rf, State.rd_wf, if_pos rfl, fld_setFld_same h]

theorem State.rf_wf_field (s : State) {a hi lo v hi' lo' : Nat} (h : hi < 32) (hd : hi' < lo ∨ hi < lo') :
    (s.wf a hi lo v).rf a hi' lo' = s.rf a hi' lo' := by
  rw [State.rf, State.rd_wf, if_pos rfl, fld_setFld_other h hd]
  rfl

theorem State.rf_wf_other (s : State) {a b hi lo v hi' lo' : Nat} (h : b ≠ a) :
    (s.wf a hi lo v).rf b hi' lo' = s.rf b hi' lo' := by
  rw [State.rf, State.rd_wf, if_neg h]
  rfl

theorem State.rf_wr_same (s : State) (a hi lo : Nat) (v : Word) : (s.wr a v).rf a hi lo = fld v hi lo := by
  simp [State.rf]

theorem State.rf_wr_other (s : State) {a b : Nat} (hi lo : Nat) (v : Word) (h : b ≠ a) :
    (s.wr a v).rf b hi lo = s.rf b hi lo := by
  simp [State.rf, State.rd_wr_other s v h]

theorem State.rf_lt (s : State) (a hi lo : Nat) : s.rf a hi lo < 2 ^ (hi + 1 - lo) := fld_lt _ _ _

/-- A counter counts and stops at its end. -/
theorem State.rf_bump_same (s : State) {a hi lo n : Nat} (h : hi < 32) :
    (s.bump a hi lo n).rf a hi lo = min (s.rf a hi lo + n) (2 ^ (hi + 1 - lo) - 1) := by
  rw [State.bump, State.rf_wf_same s h, Nat.mod_eq_of_lt]
  have := Nat.two_pow_pos (hi + 1 - lo)
  omega

theorem State.rd_bump_other (s : State) {a b hi lo n : Nat} (h : b ≠ a) : (s.bump a hi lo n).rd b = s.rd b := by
  rw [State.bump, State.rd_wf, if_neg h]

theorem State.rf_bump_other (s : State) {a b hi lo n hi' lo' : Nat} (h : b ≠ a) :
    (s.bump a hi lo n).rf b hi' lo' = s.rf b hi' lo' := by
  rw [State.rf, State.rd_bump_other s h]
  rfl

/-! ### Cores -/

@[simp] theorem State.core_setCore_same (s : State) (gp : Nat) (c : Core) : (s.setCore gp c).core gp = c := by
  simp [State.core]

theorem State.core_setCore_other (s : State) {gp q : Nat} (c : Core) (h : q ≠ gp) : (s.setCore gp c).core q = s.core q := by
  simp [State.core, Tbl.get_set_other _ _ _ _ h]

@[simp] theorem State.core_modCore_same (s : State) (gp : Nat) (f : Core → Core) : (s.modCore gp f).core gp = f (s.core gp) :=
  State.core_setCore_same s gp _

theorem State.core_modCore_other (s : State) {gp q : Nat} (f : Core → Core) (h : q ≠ gp) : (s.modCore gp f).core q = s.core q :=
  State.core_setCore_other s _ h

@[simp] theorem State.rd_setCore (s : State) (gp : Nat) (c : Core) (a : Nat) : (s.setCore gp c).rd a = s.rd a := rfl
@[simp] theorem State.rd_modCore (s : State) (gp : Nat) (f : Core → Core) (a : Nat) : (s.modCore gp f).rd a = s.rd a := rfl
@[simp] theorem State.rf_setCore (s : State) (gp : Nat) (c : Core) (a hi lo : Nat) : (s.setCore gp c).rf a hi lo = s.rf a hi lo := rfl
@[simp] theorem State.rf_modCore (s : State) (gp : Nat) (f : Core → Core) (a hi lo : Nat) : (s.modCore gp f).rf a hi lo = s.rf a hi lo := rfl
@[simp] theorem State.core_wr (s : State) (a : Nat) (v : Word) (gp : Nat) : (s.wr a v).core gp = s.core gp := rfl
@[simp] theorem State.core_wf (s : State) (a hi lo v gp : Nat) : (s.wf a hi lo v).core gp = s.core gp := rfl
@[simp] theorem State.core_bump (s : State) (a hi lo n gp : Nat) : (s.bump a hi lo n).core gp = s.core gp := rfl
@[simp] theorem State.rd_send (s : State) (o : Out) (a : Nat) : (s.send o).rd a = s.rd a := rfl
@[simp] theorem State.rd_emit (s : State) (r : Rec) (a : Nat) : (s.emit r).rd a = s.rd a := rfl
@[simp] theorem State.rd_modAon (s : State) (f : Aon → Aon) (a : Nat) : (s.modAon f).rd a = s.rd a := rfl
@[simp] theorem State.rd_modFlash (s : State) (f : Flash → Flash) (a : Nat) : (s.modFlash f).rd a = s.rd a := rfl
@[simp] theorem State.rd_modPow (s : State) (f : Power → Power) (a : Nat) : (s.modPow f).rd a = s.rd a := rfl

/-- Writing a core's queue, and reading one. -/
theorem Core.queue_setQueue (c : Core) (u v : Nat) (q : List QEnt) : (c.setQueue u q).queue v = if v = u then q else c.queue v := by
  by_cases h : v = u
  · subst h
    simp [Core.queue, Core.setQueue]
  · simp [Core.queue, Core.setQueue, h, Tbl.get_set_other _ _ _ _ h]

/-- Writing a ring, a trace or an arming of a core, and reading one. -/
theorem Core.ring_setRing (c : Core) (n m : Nat) (r : Ring) : (c.setRing n r).ring m = if m = n then r else c.ring m := by
  by_cases h : m = n
  · subst h
    simp [Core.ring, Core.setRing]
  · simp [Core.ring, Core.setRing, h, Tbl.get_set_other _ _ _ _ h]

theorem Core.trace_setTrace (c : Core) (n m : Nat) (t : Trace) : (c.setTrace n t).trace m = if m = n then t else c.trace m := by
  by_cases h : m = n
  · subst h
    simp [Core.trace, Core.setTrace]
  · simp [Core.trace, Core.setTrace, h, Tbl.get_set_other _ _ _ _ h]

theorem Core.arm_setArm (c : Core) (n m : Nat) (a : Option Arming) : (c.setArm n a).arm m = if m = n then a else c.arm m := by
  by_cases h : m = n
  · subst h
    simp [Core.arm, Core.setArm]
  · simp [Core.arm, Core.setArm, h, Tbl.get_set_other _ _ _ _ h]

/-! ### Memory -/

@[simp] theorem State.memByte_setMemByte_same (s : State) (a : Nat) (v : BitVec 8) : (s.setMemByte a v).memByte a = v := by
  simp [State.memByte]

theorem State.memByte_setMemByte_other (s : State) {a b : Nat} (v : BitVec 8) (h : b ≠ a) :
    (s.setMemByte a v).memByte b = s.memByte b := by
  simp [State.memByte, Tbl.get_set_other _ _ _ _ h]

/-- Writing one byte keeps the canonical form. -/
theorem State.setMemByte_wf (s : State) (a : Nat) (v : BitVec 8) (h : Memory.wf s.mem = true) :
    Memory.wf (s.setMemByte a v).mem = true := Tbl.wf_set (fun _ => memDefault) s.mem a v h

/-- Writing bytes in a row: each byte, every other byte, and the canonical form. -/
theorem State.memByte_setMemBytes (s : State) (a b : Nat) (l : List (BitVec 8)) :
    (s.setMemBytes a l).memByte b = if a ≤ b ∧ b < a + l.length then l.getD (b - a) 0 else s.memByte b := by
  induction l generalizing s a with
  | nil => simp [State.setMemBytes]
  | cons x r ih =>
    rw [State.setMemBytes, ih]
    by_cases hb : b = a
    · subst hb
      simp
    · rw [State.memByte_setMemByte_other s x hb]
      by_cases h1 : a + 1 ≤ b ∧ b < a + 1 + r.length
      · have h2 : a ≤ b ∧ b < a + (x :: r).length := by simp; omega
        rw [if_pos h1, if_pos h2]
        obtain ⟨k, rfl⟩ : ∃ k, b = a + 1 + k := ⟨b - (a + 1), by omega⟩
        simp [show a + 1 + k - a = k + 1 by omega]
      · have h2 : ¬ (a ≤ b ∧ b < a + (x :: r).length) := by simp; omega
        rw [if_neg h1, if_neg h2]

theorem State.setMemBytes_wf (s : State) (a : Nat) (l : List (BitVec 8)) (h : Memory.wf s.mem = true) :
    Memory.wf (s.setMemBytes a l).mem = true := by
  induction l generalizing s a with
  | nil => exact h
  | cons x r ih => exact ih _ _ (State.setMemByte_wf s a x h)

theorem State.setMemRow_wf (s : State) (a : Nat) (r : Row) (h : Memory.wf s.mem = true) :
    Memory.wf (s.setMemRow a r).mem = true := State.setMemBytes_wf s a _ h

/-- Dropping bytes keeps the canonical form. -/
theorem Memory.wf_filter (m : List Host.Cell) (f : Host.Cell → Bool) (h : Memory.wf m = true) : Memory.wf (m.filter f) = true :=
  Tbl.wf_filter (fun _ => memDefault) m f h

end Sys2Proof.Machine
end

