-- ==== Sys2Proof/Laws/Fire.lean ====
section
/-! SUPPORT. Firing (R60, R68, R69): what a launch leaves in the core, and when an attempt to fire is a launch. -/

namespace Sys2Proof.Machine

/-- An operation is in flight. -/
def Core.hasFlight (c : Core) (id unit : Nat) (q : QEnt) (cyc : Nat) : Prop :=
  ∃ fl ∈ c.flights, fl.id = id ∧ fl.unit = unit ∧ fl.idx = q.idx ∧ fl.ent = q.ent ∧ fl.fired = cyc

/-- A core after a firing: the unit's queue has lost its head, which is in flight. -/
def State.fired (t : State) (gp unit cyc : Nat) (q : QEnt) (rest : List QEnt) (id : Nat) : Prop :=
  (t.core gp).queue unit = rest ∧ (t.core gp).hasFlight id unit q cyc

theorem State.claimIn_core (s : State) (gp : Nat) (p : InPort) :
    ((s.claimIn gp p).core gp).queues = (s.core gp).queues ∧ ((s.claimIn gp p).core gp).flights = (s.core gp).flights := by
  unfold State.claimIn
  split <;> simp [Core.setRing]

theorem State.reserveOut_core (s : State) (gp : Nat) (b : Bool) (p : OutPort) :
    ((s.reserveOut gp b p).core gp).queues = (s.core gp).queues
      ∧ ((s.reserveOut gp b p).core gp).flights = (s.core gp).flights := by
  unfold State.reserveOut
  split <;> simp [Core.setRing, Core.setTrace]

theorem State.takeIns_core (gp cyc fl rank code : Nat) (op : Op) (l : List InPort) (x : State × List Access) :
    ((l.foldl (takeIn gp cyc fl rank code op) x).1.core gp).queues = (x.1.core gp).queues
      ∧ ((l.foldl (takeIn gp cyc fl rank code op) x).1.core gp).flights = (x.1.core gp).flights := by
  induction l generalizing x with
  | nil => exact ⟨rfl, rfl⟩
  | cons p r ih => exact ⟨(ih _).1.trans (claimIn_core x.1 gp p).1, (ih _).2.trans (claimIn_core x.1 gp p).2⟩

theorem State.takeOuts_core (gp cyc fl rank code : Nat) (b : Bool) (l : List OutPort) (x : State × List Access) :
    ((l.foldl (takeOut gp cyc fl rank code b) x).1.core gp).queues = (x.1.core gp).queues
      ∧ ((l.foldl (takeOut gp cyc fl rank code b) x).1.core gp).flights = (x.1.core gp).flights := by
  induction l generalizing x with
  | nil => exact ⟨rfl, rfl⟩
  | cons p r ih => exact ⟨(ih _).1.trans (reserveOut_core x.1 gp b p).1, (ih _).2.trans (reserveOut_core x.1 gp b p).2⟩

/-- A launch takes the head off its queue and puts it in flight. -/
theorem State.launch_fired (s : State) (gp unit cyc : Nat) (q : QEnt) (rest : List QEnt) (op : Op) :
    (s.launch gp unit cyc q rest op).fired gp unit cyc q rest (s.core gp).nextId := by
  unfold State.fired State.launch Core.queue Core.hasFlight
  simp only [core_modCore_same]
  rw [(takeOuts_core _ _ _ _ _ _ _ _).1, (takeIns_core _ _ _ _ _ _ _ _).1, (takeOuts_core _ _ _ _ _ _ _ _).2, (takeIns_core _ _ _ _ _ _ _ _).2]
  constructor
  · simp [Core.setQueue]
  · simp only [core_modCore_same, List.mem_append, List.mem_singleton]
    refine ⟨_, .inr rfl, ?_⟩
    cases op <;> simp

/-- Claims and reservations change one core only. -/
theorem State.takeIns_only (gp cyc fl rank code : Nat) (op : Op) (l : List InPort) (x : State × List Access) :
    ∃ c, (l.foldl (takeIn gp cyc fl rank code op) x).1 = { x.1 with cores := c } := by
  induction l generalizing x with
  | nil => exact ⟨x.1.cores, rfl⟩
  | cons p r ih =>
    have h : ∃ c, x.1.claimIn gp p = { x.1 with cores := c } := by
      unfold State.claimIn
      split
      · exact ⟨_, rfl⟩
      · exact ⟨x.1.cores, rfl⟩
    obtain ⟨c, hc⟩ := h
    obtain ⟨d, hd⟩ := ih (takeIn gp cyc fl rank code op x p)
    exact ⟨d, by rw [List.foldl_cons, hd, takeIn, hc]⟩

theorem State.takeOuts_only (gp cyc fl rank code : Nat) (b : Bool) (l : List OutPort) (x : State × List Access) :
    ∃ c, (l.foldl (takeOut gp cyc fl rank code b) x).1 = { x.1 with cores := c } := by
  induction l generalizing x with
  | nil => exact ⟨x.1.cores, rfl⟩
  | cons p r ih =>
    have h : ∃ c, x.1.reserveOut gp b p = { x.1 with cores := c } := by
      unfold State.reserveOut
      split
      · exact ⟨_, rfl⟩
      · exact ⟨_, rfl⟩
      · exact ⟨_, rfl⟩
      · exact ⟨x.1.cores, rfl⟩
    obtain ⟨c, hc⟩ := h
    obtain ⟨d, hd⟩ := ih (takeOut gp cyc fl rank code b x p)
    exact ⟨d, by rw [List.foldl_cons, hd, takeOut, hc]⟩

/-- A launch changes the table of cores and nothing else. -/
theorem State.launch_only (s : State) (gp unit cyc : Nat) (q : QEnt) (rest : List QEnt) (op : Op) :
    ∃ c, s.launch gp unit cyc q rest op = { s with cores := c } := by
  unfold State.launch
  simp only []
  obtain ⟨c, hc⟩ := takeIns_only gp cyc ((s.modCore gp (fun c => { c with watch := c.watch.endWaits unit cyc })).core gp).nextId
    (unitRank unit).1 (unitRank unit).2 op ((s.modCore gp (fun c => { c with watch := c.watch.endWaits unit cyc })).plan gp op).ins (_, [])
  obtain ⟨d, hd⟩ := takeOuts_only gp cyc ((s.modCore gp (fun c => { c with watch := c.watch.endWaits unit cyc })).core gp).nextId
    (unitRank unit).1 (unitRank unit).2 (decide (unit = 0) || decide (unit = 5))
    ((s.modCore gp (fun c => { c with watch := c.watch.endWaits unit cyc })).plan gp op).outs
    (((s.modCore gp (fun c => { c with watch := c.watch.endWaits unit cyc })).plan gp op).ins.foldl _ (_, []))
  rw [hd, hc]
  exact ⟨_, rfl⟩

/-- An entry does not halt the core when no session is open or its BRK bit is clear (R396). -/
theorem State.brkHalts_false (s : State) (gp : Nat) (q : QEnt) (h : s.dbg = none ∨ ebits q.ent 119 119 = 0) :
    s.brkHalts gp q = false := by
  rcases h with h | h
  · simp [State.brkHalts, State.d2For, h]
  · simp [State.brkHalts, h]

/-- When nothing keeps the head operation, an attempt to fire is a launch with what the command adds (R68). -/
theorem State.attempt_launch (s : State) (gp unit cyc : Nat) (mine : Op → Bool) (extra : State → Nat → QEnt → Op → State)
    (q : QEnt) (rest : List QEnt) (op : Op) (hi : s.issues gp = true) (hq : (s.core gp).queue unit = q :: rest)
    (hd : decodeEntry (gp / 80) q.ent = some op) (hm : mine op = true) (hb : (s.core gp).unitBusy unit cyc = false)
    (hk : s.brkHalts gp q = false) (hw : s.whys gp unit cyc op = []) :
    s.attempt gp unit cyc mine extra = extra (s.launch gp unit cyc q rest op) (s.core gp).nextId q op := by
  unfold State.attempt
  simp only [hq, hd, hm, hb, hi, hk, hw]
  rfl

/-- A command that fires the head of a unit's queue: the core comes to the cycle, and the attempt of that cycle is its launch (R68, R85). -/
theorem State.tryFire_launch (s : State) (gp unit cyc : Nat) (mine : Op → Bool) (extra : State → Nat → QEnt → Op → State)
    (q : QEnt) (rest : List QEnt) (op : Op) (hi : (s.reachUnit gp unit cyc).issues gp = true)
    (hq : ((s.reachUnit gp unit cyc).core gp).queue unit = q :: rest) (hd : decodeEntry (gp / 80) q.ent = some op) (hm : mine op = true)
    (hb : ((s.reachUnit gp unit cyc).core gp).unitBusy unit cyc = false) (hk : (s.reachUnit gp unit cyc).brkHalts gp q = false)
    (hw : (s.reachUnit gp unit cyc).whys gp unit cyc op = []) :
    s.tryFire gp unit cyc mine extra
      = extra ((s.reachUnit gp unit cyc).launch gp unit cyc q rest op) ((s.reachUnit gp unit cyc).core gp).nextId q op :=
  State.attempt_launch _ gp unit cyc mine extra q rest op hi hq hd hm hb hk hw

end Sys2Proof.Machine
end

