-- ==== Sys2Proof/Tests/Slice0.lean ====
section
/-! SUPPORT. Tests: ill-formed operands are refused, a state and operands meet the hypotheses of every statement, and entries
written out from the encodings of the spec decode to what they stand for. Expected values come from the rules the theorems name. -/

namespace Sys2Proof.Tests

open Sys2Proof Sys2Proof.Machine

set_option Elab.async false

/-- A command answers a next state in which a test holds. -/
def nxt (c : Instr) (s : State) (p : State → Bool) : Bool := match exec c s with | .next t => p t | _ => false

/-! ### Ill-formed operands -/

/-- Values that one check each refuses. -/
def badTrain0 : TrainResult := { done := false, good := 0, peerId := 0, peerPort := 0, peerExp := 0 }
def badTrain : TrainResult := { badTrain0 with peerId := 8192 }
def badPkt : Packet := { type := 256 }
def badEnv : BootEnv := { badChannels := [128] }
def badBist : BistResult := { logic := [5120] }
def img0 : Image := { data := [], signer := 0, svn := 0, advance := false, sig := 0 }

/-- Every check of a command refuses an operand outside its range. -/
theorem test_wf_refuses_1 :
    ([.registerWrite (.mgmt) (2 ^ 33) false 0,
     .repWindowBoundary 64 false 0,
     .seqReadEntry 5120 0,
     .repeatOp 5120 0,
     .endOp 5120 0,
     .waitOp 5120 0 0,
     .waitOp 0 8 0,
     .opRetire 5120 0 0,
     .opRetire 0 8 0,
     .tileComplete 5120 0 0,
     .tileComplete 0 2 0,
     .feedLoad 5120 0,
     .feedDescriptorIssue 5120,
     .loadAct 5120 0,
     .acc 5120 0,
     .drain 5120 0,
     .loadTile 5120 0,
     .vecAdd 5120 0,
     .vecSub 5120 0,
     .vecMul 5120 0,
     .vecFma 5120 0,
     .vecMax 5120 0,
     .vecMin 5120 0,
     .vecMov 5120 0,
     .cvt 5120 0,
     .exp 5120 0,
     .log 5120 0,
     .rsqrt 5120 0,
     .sigmoid 5120 0,
     .erf 5120 0] : List Instr).all (fun c => !c.wf) = true := by decide

/-- Every check of a command refuses an operand outside its range. -/
theorem test_wf_refuses_2 :
    ([.norm 5120 0,
     .cmp 5120 0,
     .rred 5120 0,
     .cred 5120 0,
     .topk 5120 0,
     .sample 5120 0,
     .verify 5120 0,
     .scan 5120 0,
     .smaxd 5120 0,
     .switchOp 5120 0,
     .mergeOp 5120 0,
     .send 5120 0,
     .tsend 5120 0,
     .arm 5120 0,
     .disarm 5120 0,
     .st 5120 0,
     .stMem 5120 0,
     .stRing 5120 0,
     .syncAdd 5120 0,
     .waitb 5120 0,
     .tokenOp 5120 0,
     .emitOp 5120 0,
     .armb 5120 0,
     .outboundPacketDepart 5120 0,
     .landingBufferDrain 5120 0,
     .buckleRegWrite (.mgmt) 65536 false 0,
     .buckleTimeout 65536,
     .mcRequest 128 0 0 0 0,
     .mcRequest 0 0 0 10 0,
     .sliceAccess 0 0 3 0,
     .eccWriteback 128,
     .refresh 128 0 0] : List Instr).all (fun c => !c.wf) = true := by decide

/-- Every check of a command refuses an operand outside its range. -/
theorem test_wf_refuses_3 :
    ([.refresh 0 8 0,
     .refresh 0 0 32,
     .patrolScrub 128 0 0 0,
     .patrolScrub 0 (2 ^ 33) 0 0,
     .patrolScrub 0 0 6 0,
     .clearingScrub 64 0,
     .clearingScrub 0 7680,
     .hot 128 0 0 false 0,
     .hot 0 2 0 false 0,
     .hot 0 0 8 false 0,
     .ownerTableWrite (.mgmt) 64 0 0,
     .ownerTableWrite (.mgmt) 0 1920 0,
     .broadcastGrant 512 0,
     .linkPacketRx 12 {} 0 {} false 0,
     .linkPacketRx 0 badPkt 0 {} false 0,
     .linkPacketRx 0 {} 0 ⟨2 ^ 16, 0, []⟩ false 0,
     .linkPacketRx 0 {} 0 ⟨0, 0, List.replicate 9 0⟩ false 0,
     .ack 12 0 0,
     .nak 12 0 0,
     .credit 12 0 0,
     .linkAckTimer 12,
     .creditTimer 12,
     .replayTimeout 12 0,
     .fabRetrain 12 badTrain0 [] [] 0,
     .fabRetrain 0 badTrain [] [] 0,
     .fabRetrain 0 badTrain0 [(8, 0, 0)] [] 0,
     .fabRetrain 0 badTrain0 [] [badTrain] 0,
     .peerTraining 12 badTrain0 0,
     .peerTraining 0 badTrain 0,
     .laneLoss 12 0 false badTrain0 0,
     .laneLoss 0 0 false badTrain 0,
     .fecRetrainTrigger 12 false badTrain0 0,
     .fecRetrainTrigger 0 false badTrain 0,
     .controlBlockTimeout 12 0,
     .retrainTimeout 12 badTrain0 0,
     .retrainTimeout 0 badTrain 0,
     .linkDown 12 (.signal) 0 0] : List Instr).all (fun c => !c.wf) = true := by decide

/-- Every check of a command refuses an operand outside its range. -/
theorem test_wf_refuses_4 :
    ([.barrierEntryWrite (.mgmt) 256 false 0,
     .timeSync 12 0 0,
     .timeReq 12 0 0,
     .timeResp 12 0 0,
     .patLoadGo (.mgmt) 4096 0,
     .patLoadAbort (.mgmt) 4096,
     .patLoadRow 5120 0 0 0,
     .patLoadRow 0 0 6 0,
     .dbgSelGo (.mgmt) 5120 0,
     .dispInfoClear (.mgmt) 4096,
     .zeroisationComplete (.slice 4096) 0,
     .entropyHealthFail 64 0,
     .assaySegmentStart 5120 0 [] none,
     .assaySegmentStart 0 0 (List.replicate 33 0) none,
     .assaySegmentStart 0 0 [5000] none,
     .assaySegmentStart 0 0 [] (some 2),
     .assaySegmentEnd 5120 0 0,
     .assayOverdue 5120 0,
     .assayTurnYield 64,
     .heal 5120 0,
     .healCfgTimeout 5120,
     .pwrEnAssert badEnv,
     .bringupStepTimeout badEnv,
     .shutdown (.mgmt) badBist,
     .warm (.mgmt) badEnv,
     .perstAssert badEnv 0,
     .contextReset (.mgmt) 16 false {},
     .contextReset (.mgmt) 0 false { hung := [5120] },
     .engineReset (.mgmt) 4096 false {},
     .engineReset (.mgmt) 0 false { silent := [2 ^ 33] },
     .partitionReset (.mgmt) 16 false {},
     .partitionReset (.mgmt) 0 false { hung := [5120] },
     .chipComputeReset (.mgmt) false { badChannels := [128] },
     .powerCycle (.mgmt) false { hppr := [(128, 0)] },
     .resetEscalated 0 0 { badChannels := [128] },
     .dumpCtlGo (.mgmt) 0 [2 ^ 33]] : List Instr).all (fun c => !c.wf) = true := by decide

/-- Every check of a command refuses an operand outside its range. -/
theorem test_wf_refuses_5 :
    ([.dumpReadTimeout (2 ^ 33),
     .quexonFlitRx (.qa) 0 [],
     .quexonLinkDown (.qa) 3 0,
     .snpInv (.qa) (2 ^ 43) 0,
     .snpInv (.qa) 0 4096,
     .snpData (.qa) (2 ^ 43) 0,
     .snpData (.qa) 0 4096,
     .memRd (.qa) (2 ^ 43) 0 0 0,
     .memRd (.qa) 0 4096 0 0,
     .memRd (.qa) 0 0 6 0,
     .memWr (.qa) (2 ^ 43) 0 0 0 0,
     .memWr (.qa) 0 4096 0 0 0,
     .memWr (.qa) 0 0 6 0 0,
     .memWrPtl (.qa) (2 ^ 43) 0 0 0 0 0,
     .memWrPtl (.qa) 0 4096 0 0 0 0,
     .memWrPtl (.qa) 0 0 6 0 0 0,
     .mmioRd (.qa) (2 ^ 43) 4 0,
     .mmioRd (.qa) 0 2 0,
     .mmioRd (.qa) 0 4 4096,
     .mmioWr (.qa) (2 ^ 43) 4 0 0,
     .mmioWr (.qa) 0 2 0 0,
     .mmioWr (.qa) 0 4 4096 0,
     .cmpData (.qa) 4096 0 0 0,
     .cmpData (.qa) 0 4 0 0,
     .cmpData (.qa) 0 0 16 0,
     .hitchClaim (.mgmt) 256,
     .hitchRelease (.mgmt) 256 0,
     .partitionEntryWrite (.mgmt) 64 0 0,
     .partitionEntryWrite (.mgmt) 0 32 0,
     .doneWrite 16,
     .vecMaskWrite (.mgmt) (.qa) 64 0,
     .halt (.mgmt) 5120,
     .runCore (.mgmt) 5120] : List Instr).all (fun c => !c.wf) = true := by decide

/-- Every check of a command refuses an operand outside its range. -/
theorem test_wf_refuses_6 :
    ([.stepCore (.mgmt) 5120,
     .pwrCtlRun (.mgmt) 2048,
     .pwrCtlI1 (.mgmt) 2048,
     .pwrCtlI2 (.mgmt) 2048,
     .powerSample 65536 0 0 0,
     .powerSample 0 65536 0 0,
     .powerSample 0 0 65536 0,
     .thermalThrottle 0 64 0,
     .thermalTrip 0 64 0,
     .setdasa 128 0,
     .setdasa 0 128,
     .entdaa 128,
     .setEndpointId 256,
     .getPdr (2 ^ 32),
     .sensorRead 65536,
     .passComponentTable [65536],
     .updateComponent 65536,
     .requestFirmwareData false img0 badEnv,
     .mainPowerApplied badEnv,
     .quexonCmp (.qa) 4096 0,
     .quexonCmp (.qa) 0 16,
     .pldmBaseRequest 256] : List Instr).all (fun c => !c.wf) = true := by decide

/-- Every check of a packet header refuses a value that does not fit (R238). -/
theorem test_wf_packet :
    ([{ type := 256 }, { vc := 8 }, { rows := 64 }, { dmod := 8192 }, { smod := 8192 }, { dcore := 4096 }, { score := 4096 }, { dring := 32 }, { doff := 8192 }, { seq := 65536 }, { gen := 65536 }, { job := 65536 }, { addr := 2 ^ 43 }, { buckle := 65536 }, { tree := 4096 }, { opid := 65536 }, { rop := 8 }, { rfmt := 4 }, { tag := 64 }, { pidx := 256 }, { taggen := 4096 }] : List Packet).all (fun p => !p.wf) = true := by decide

/-- Every check of a training result, of a unit and of a test result. -/
theorem test_wf_results :
    ([{ badTrain0 with peerId := 8192 }, { badTrain0 with peerPort := 16 }, { badTrain0 with peerExp := 4096 }] : List TrainResult).all (fun r => !r.wf) = true
      ∧ ([.core 5120, .slice 4096, .landing 512] : List SramUnit).all (fun u => !u.wf) = true
      ∧ ([{ sram := [⟨.core 5120, 0, false, 0⟩] }, { logic := [5120] }, { xbar := [512] }] : List BistResult).all (fun b => !b.wf) = true := by decide

/-- Every check of a bring-up environment. -/
theorem test_wf_environment :
    ([{ bist := badBist }, { badChannels := [128] }, { failRows := [(128, 0)] }, { failAgain := [(128, 0)] }, { hppr := [(128, 0)] }, { fabric := [(12, badTrain0)] }, { fabric := [(0, badTrain)] }, { laneErr1 := [(12, 0, 0)] }, { laneErr2 := [(12, 0, 0)] }, { again := [(12, [])] }, { again := [(0, [badTrain])] }] : List BootEnv).all (fun e => !e.wf) = true := by decide

/-! ### Core operations -/

/-- Core 0 is on, in cycle 5, and owned by context 0; ring 0 holds 32 rows, ring 1 is empty, and traces 0, 2, 3, 4, 14 and 15 are mapped. -/
def coreOn0 : State :=
  let s := (State.reset.wf (corePg 0 + 0x10) 0 0 1).wrByte (partAddr 0) 0x80
  let s := (s.wr (corePg 0 + 0x400) 0xA03F0000#32).wr (corePg 0 + 0x410) 0xA03F0040#32
  let s := ((s.wr (corePg 0 + 0x300) 0x80001200#32).wr (corePg 0 + 0x308) 0x80002300#32).wr (corePg 0 + 0x30C) 0x80003200#32
  let s := ((s.wr (corePg 0 + 0x310) 0x80002300#32).wr (corePg 0 + 0x338) 0x80007300#32).wr (corePg 0 + 0x33C) 0x80007300#32
  s.setCore 0 { now := 5, rings := [(0, { tail := 32, resv := 32 })],
                traces := [(2, { ents := [.row none, .row none] }), (4, { ents := [.row none, .row none] }), (14, { ents := [.token 1] })] }

/-- The same with an operation at the head of a unit's queue. -/
def headed (unit : Nat) (op : Op) : State := coreOn0.modCore 0 (fun c => c.setQueue unit [⟨7, encodeEntry op⟩, ⟨8, 0⟩])

/-- A vector operation on store rows. -/
def vecOp (op uf : Nat) (s1 s2 : Sel) (rows ifmt ofmt aux : Nat) : Op :=
  .vec ⟨op, .ring 0, s1, s2, .direct, .none, rows, ifmt, ofmt, 0, aux, 0, false, uf⟩

/-- One operation for each command that fires. -/
def samples : List (FireCmd × Op) :=
  (fireCmds 0 5).zip
    [.load ⟨1, 4, 0x1000, 0, 1, false, false, 0⟩, .loadAct ⟨.ring 0, 4, 0, 0, 0, 0⟩,
     .acc ⟨.direct, 0, .direct, 0, 1, 0, 0, 0, 0, 0, 0, 0, true⟩, .drain ⟨.trace 0, .unbound, 9, 0, 0, false, false⟩,
     .loadTile ⟨.ring 0, 0xB, 0, 0, 0, 1⟩,
     vecOp 1 0 (.ring 0) .none 2 9 9 0, vecOp 2 0 (.ring 0) .none 2 9 9 0, vecOp 3 0 (.ring 0) .none 2 9 9 0,
     vecOp 4 0 (.ring 0) (.ring 0) 2 9 9 0, vecOp 5 0 (.ring 0) .none 2 9 9 0, vecOp 6 0 (.ring 0) .none 2 9 9 0,
     vecOp 7 0 .none .none 2 9 9 0, vecOp 8 0 .none .none 2 9 9 0, vecOp 9 0 .none .none 2 9 9 0, vecOp 0xA 0 .none .none 2 9 9 0,
     vecOp 0xB 0 .none .none 2 9 9 0, vecOp 0xC 0 .none .none 2 9 9 0, vecOp 0xD 0 .none .none 2 9 9 0,
     vecOp 0xE 0 (.ring 0) .none 2 9 9 0, vecOp 0xF 0 (.ring 0) .none 2 9 9 0, vecOp 0x10 0 .none .none 2 9 9 0,
     vecOp 0x11 0 .none .none 2 9 9 0, vecOp 0x12 0 .none .none 2 9 0 0, vecOp 0x13 0 .none .none 2 9 0 0,
     vecOp 0x14 0 (.ring 0) .none 2 0 0 1, vecOp 0x15 0 (.ring 0) .none 2 9 9 0, vecOp 0x16 0 .none .none 8 0xB 9 0,
     .switch ⟨14, .trace 2, .trace 3, .unbound, 2⟩, .merge ⟨14, .trace 2, .trace 4, .trace 3, 2⟩,
     .send ⟨.ring 0, 4, 1, 0, 1, 0, 0, true⟩, .tsend ⟨.ring 0, 4, 3, 1, 0, 9, 1, 0, 0, true⟩, .arm 1 16 (some 5) false,
     .disarm 1, .st (.ring 0) .direct 4 0x2000, .stMem ⟨.ring 0, 4, 0x1000, 0, 0, 0, false, false⟩,
     .stRing ⟨.ring 0, 4, 0, 1, 1, 0, 0, true⟩, .syncAdd 5 0 1 false, .waitb 5, .token 5 15, .emit 15 3, .armb 5 2,
     .wait 3, .wait 3, .wait 3, .wait 3, .wait 3, .wait 3, .wait 3, .wait 3]

/-- The hypotheses that a firing command and its operation meet in the state brought up to the cycle. -/
abbrev fires (s : State) (f : FireCmd) (op : Op) : Prop :=
  (s.reachUnit f.gp f.unit f.cyc).issues f.gp = true
    ∧ (s.reachUnit f.gp f.unit f.cyc).headIs f ⟨7, encodeEntry op⟩ [⟨8, 0⟩] op ∧ (s.reachUnit f.gp f.unit f.cyc).mayFire f ⟨7, encodeEntry op⟩ [⟨8, 0⟩] op

/-- Every sample belongs to a firing command. -/
theorem test_samples_are_firing : samples.length = 49 ∧ ∀ x ∈ samples, x.1 ∈ fireCmds 0 5 :=
  ⟨by decide +kernel, fun _ h => (List.of_mem_zip h).1⟩

/-- Every one of the forty-nine firing commands has an operation that it fires: the queue loses its head, which is in flight from
cycle 5, and memory stays (R60, R68, R91). -/
theorem test_core_command_fires_head :
    ∀ x ∈ samples, fires (headed x.1.unit x.2) x.1 x.2
      ∧ nxt x.1.cmd (headed x.1.unit x.2) (fun t => decide ((t.core 0).queue x.1.unit = [⟨8, 0⟩])
          && (t.core 0).flights.any (fun f => decide (f.unit = x.1.unit ∧ f.idx = 7 ∧ f.fired = 5)) && decide (t.mem = [])) = true := by
  decide +kernel

/-- Every kind of local operation meets the hypotheses of the frame of local firings, and keeps it. -/
theorem test_local_firing_frame :
    ((samples.filter (fun x => decide (x.1.unit = 2 ∨ x.1.unit = 3 ∨ isWait x.2 = true ∨ isSt x.2 = true ∨ isEmit x.2 = true))).length
        = 34)
      ∧ ∀ x ∈ samples, (x.1.unit = 2 ∨ x.1.unit = 3 ∨ isWait x.2 = true ∨ isSt x.2 = true ∨ isEmit x.2 = true) →
        nxt x.1.cmd (headed x.1.unit x.2) (fun t => let s := headed x.1.unit x.2
          decide (t.regs = s.regs ∧ t.net = s.net ∧ t.links = s.links ∧ t.barriers = s.barriers ∧ t.recQ = s.recQ)) = true := by
  decide +kernel

/-- An ADD of a ring that lacks a row is kept by code 2 and stays at the head of its queue (R68). -/
theorem test_held_operation_stays :
    let op := vecOp 1 0 (.ring 0) .none 33 9 9 0
    let f : FireCmd := ⟨.vecAdd 0 5, 0, 2, 5, isVec 1⟩
    let s := headed 2 op
    (s.reachUnit 0 2 5).headIs f ⟨7, encodeEntry op⟩ [⟨8, 0⟩] op ∧ (s.reachUnit 0 2 5).brkHalts 0 ⟨7, encodeEntry op⟩ = false
      ∧ (s.reachUnit 0 2 5).whys 0 2 5 op = [2, 2]
      ∧ nxt f.cmd s (fun t => decide ((t.core 0).queues = (s.core 0).queues ∧ (t.core 0).flights = [])) = true := by decide +kernel

/-- An open D2 session of the core's context, with BRK_EN set, and an entry whose BRK bit is 1. -/
def atBreak : State :=
  let e := encodeEntry (.wait 3) ||| 1#128 <<< 119
  { (coreOn0.wf (corePg 0 + 0x1300) 28 28 1).modCore 0 (fun c => c.setQueue 0 [⟨7, e⟩]) with
    dbg := some { level := 2, agent := .mgmt, ctx := 0, left := 100 } }

/-- A BRK entry at the head halts the core: HALTED, cause 1, INDEX 7 (R396). -/
theorem test_break_halts :
    let e := encodeEntry (.wait 3) ||| 1#128 <<< 119
    let s := atBreak
    (s.reach 0 5).issues 0 = true ∧ ((s.reach 0 5).core 0).now ≤ 5 ∧ ((s.reach 0 5).core 0).queue 0 = [⟨7, e⟩]
      ∧ (s.reach 0 5).brkHalts 0 ⟨7, e⟩ = true ∧ ((fireCmds 0 5).map (·.cmd)).contains (.waitOp 0 0 5) = true
      ∧ nxt (.waitOp 0 0 5) s (fun t => (t.core 0).halted && decide (t.rd (corePg 0 + 0x1304) = 0xA0000007#32)) = true := by
  decide +kernel

/-- The tensor operations of the list: LOAD_ACT writes ACT_FMT; ACC runs through cycle 5 + 4 − 1 + 24, LOAD_TILE through
5 + 8 + 3, and the tiles are in the states of R106. -/
theorem test_tensor_states :
    (∀ x ∈ samples, isLoadAct x.2 = true → nxt x.1.cmd (headed 1 x.2) (fun t => decide (t.rd (corePg 0 + 0x26C) = 0#32)) = true)
      ∧ (∀ x ∈ samples, isAcc x.2 = true → nxt x.1.cmd (headed 1 x.2) (fun t => decide (((t.core 0).tile 0).st = .accum
          ∧ ((t.core 0).tile 0).stTo = 32)) = true)
      ∧ (∀ x ∈ samples, isDrain x.2 = true → nxt x.1.cmd (headed 1 x.2) (fun t => decide (((t.core 0).tile 0).st = .draining)) = true)
      ∧ (∀ x ∈ samples, isLoadTile x.2 = true → nxt x.1.cmd (headed 1 x.2) (fun t => decide (((t.core 0).tile 1).st = .loading
          ∧ ((t.core 0).tile 1).stTo = 16)) = true) := by decide +kernel

/-- A ring with an arming keeps ARM from firing, and DISARM of it fires and takes the arming away (R104, R105). -/
theorem test_arming_guards :
    let s := (headed 5 (.disarm 1)).modCore 0 (fun c => c.setArm 1 (some ⟨0, 16, true, [], none, false⟩))
    s.outWhy 0 5 [⟨0, .ring 1, [], 16, 214⟩] ⟨0, .ring 1, [], 16, 214⟩ = [4]
      ∧ fires s ⟨.disarm 0 5, 0, 5, 5, isDisarm⟩ (.disarm 1)
      ∧ nxt (.disarm 0 5) s (fun t => decide ((t.core 0).arm 1 = none)) = true := by decide +kernel

/-- ARMB of buckle 5 by core 0: the context owns it or no core of it does. -/
def arming (owner : Bool) (target : Nat) : State :=
  if owner then headed 7 (.armb 5 target) else (headed 7 (.armb 1029 target)).wr (bankPg 1 0) 0

/-- By its owner with a TARGET inside the range it arms; one of 0 releases at once; another region's buckle counts in BKL_DENY (R102,
R270, R272). -/
theorem test_armb_arms :
    (∀ target ∈ [2, 2 ^ 31, 0, 2 ^ 31 + 1], fires (arming true target) ⟨.armb 0 5, 0, 7, 5, isArmb⟩ (.armb 5 target)
        ∧ (((arming true target).reachUnit 0 7 5).coreCtx 0).isSome = true
        ∧ ((arming true target).reachUnit 0 7 5).coreCtx 0 = ((arming true target).reachUnit 0 7 5).bklCtx 5
        ∧ ((arming true target).reachUnit 0 7 5).bklMode 5 = 0)
      ∧ ([2, 2 ^ 31, 0, 2 ^ 31 + 1].map (fun target => nxt (.armb 0 5) (arming true target)
          (fun t => t.bklBit 5 12 && !t.bklBit 5 10 && decide (t.bklCount 5 = 0 ∧ t.bklTarget 5 = target) && t.bklBit 5 11)))
        = [false, false, true, true]
      ∧ nxt (.armb 0 5) (arming true 2) (fun t => t.bklBit 5 12 && !t.bklBit 5 11 && decide (t.bklCount 5 = 0 ∧ t.bklTarget 5 = 2)) = true
      ∧ fires (arming false 2) ⟨.armb 0 5, 0, 7, 5, isArmb⟩ (.armb 1029 2)
      ∧ ((arming false 2).reachUnit 0 7 5).coreCtx 0 ≠ ((arming false 2).reachUnit 0 7 5).bklCtx 1029
      ∧ nxt (.armb 0 5) (arming false 2) (fun t => decide (t.rf (bankPg 1 0 + 0x100) 31 0 = 1)) = true := by decide +kernel

/-! ### Entries written out from the encodings of R88, R89, R94, R101 and R102 -/

/-- An entry from its fields, each a lowest bit and a value. -/
def word (fs : List (Nat × Nat)) : BitVec 128 := BitVec.ofNat 128 (fs.foldl (fun n f => n + f.2 * 2 ^ f.1) 0)

/-- UNIT stands at bit 125, OP at 120, BRK at 119, the flags at 112, and each operand field where R102 puts it. -/
theorem test_entries_decode :
    decodeEntry 0 (word [(125, 6), (120, 0), (88, 9)]) = some (.wait 9)
      ∧ decodeEntry 0 (word [(120, 0x1E), (100, 3), (84, 4)]) = some (.rep 3 5)
      ∧ decodeEntry 0 (word [(120, 0x1F)]) = some .fin
      ∧ decodeEntry 0 (word [(125, 0), (120, 1), (112, 1), (106, 4), (93, 31), (50, 0x1000), (37, 7), (24, 2)])
          = some (.load ⟨4, 32, 0x1000, 7, 2, true, false, 0⟩)
      ∧ decodeEntry 0 (word [(125, 1), (120, 1), (106, 0x3E), (98, 3), (90, 16), (86, 9), (0, 0x2000)])
          = some (.loadAct ⟨.direct, 4, 16, 9, 0, 0x2000⟩)
      ∧ decodeEntry 0 (word [(125, 1), (120, 2), (113, 1), (112, 1), (106, 0x3E), (92, 0x3E), (79, 8), (63, 15), (55, 4), (37, 2), (25, 6)])
          = some (.acc ⟨.direct, 0, .direct, 8, 16, 0, 4, 0, 0, 2, 6, 1, true⟩)
      ∧ decodeEntry 0 (word [(125, 1), (120, 3), (113, 1), (107, 0), (102, 0x1F), (98, 9)])
          = some (.drain ⟨.trace 0, .unbound, 9, 0, 0, true, false⟩)
      ∧ decodeEntry 0 (word [(125, 2), (120, 4), (106, 1), (100, 2), (94, 3), (88, 4), (82, 0x3F), (69, 7), (65, 9), (61, 0xB)])
          = some (.vec ⟨4, .ring 1, .ring 2, .ring 3, .ring 4, .none, 8, 9, 0xB, 0, 0, 0, false, 0⟩)
      ∧ decodeEntry 0 (word [(125, 3), (120, 1), (107, 14), (102, 2), (97, 3), (92, 0x1F), (86, 1)])
          = some (.switch ⟨14, .trace 2, .trace 3, .unbound, 2⟩)
      ∧ decodeEntry 0 (word [(125, 4), (120, 1), (112, 1), (106, 5), (93, 63), (80, 9), (68, 100), (63, 6), (50, 32)])
          = some (.send ⟨.ring 5, 64, 9, 100, 6, 32, 0, true⟩)
      ∧ decodeEntry 0 (word [(125, 5), (120, 1), (113, 1), (112, 1), (107, 3), (94, 15), (78, 77)]) = some (.arm 3 16 (some 77) true)
      ∧ decodeEntry 0 (word [(125, 7), (120, 5), (96, 77), (64, 12)]) = some (.armb 77 12) := by decide +kernel

/-- A reserved bit, a reserved field value, an unused SEL that is not 0x3F and WAITB of another region's buckle make an entry
invalid (R89, R90, R273); BRK does not. -/
theorem test_entries_invalid :
    decodeEntry 0 (word [(120, 0), (112, 1)]) = none ∧ decodeEntry 0 (word [(125, 5), (120, 2), (107, 3), (0, 1)]) = none
      ∧ decodeEntry 0 (word [(120, 0x1C)]) = none
      ∧ decodeEntry 0 (word [(125, 2), (120, 7), (106, 1), (88, 4), (82, 0x3F), (65, 9), (61, 9)]) = none
      ∧ decodeEntry 1 (word [(125, 7), (120, 2), (96, 77)]) = none
      ∧ decodeEntry 0 (word [(119, 1), (88, 9)]) = some (.wait 9) := by decide +kernel

/-! ### Sequencer, retirement, outbound buffer -/

/-- Core 0 reads entries of bank 0 from a list, the first at offset 0. -/
def reading (es : List (BitVec 128)) : State :=
  coreOn0.modCore 0 (fun c => { c with seq := { reading := true }, pmem := (List.range es.length).zip es })

/-- WAIT 3 of unit 2 is queued there and the offset advances; with the queue full the sequencer waits in that cycle; REPEAT makes
a body; END stops reading; an invalid entry stops reading and its index is kept (R91 to R96). -/
theorem test_sequencer_reads :
    let w := word [(125, 2), (88, 3)]
    let full := (reading [w]).modCore 0 (fun c => c.setQueue 2 (List.replicate 16 ⟨1, w⟩))
    let r := reading [word [(120, 0x1E), (100, 2), (84, 4)], w, w]
    (∀ s ∈ [reading [w], full, r, reading [word [(120, 0x1F)]], reading [word [(120, 0x1C)]]], (s.seqReach 0 5).seqReads 0 5)
      ∧ (∀ s ∈ [reading [w], full], decodeEntry 0 (((s.seqReach 0 5).core 0).pmemRead 0).1 = some (.wait 3))
      ∧ entUnit w = 2 ∧ ((reading [w]).core 0).queued 2 69 = 0 ∧ (full.core 0).queued 2 69 = 16
      ∧ nxt (.seqReadEntry 0 5) (reading [w]) (fun t => decide ((t.core 0).queue 2 = [⟨0, w⟩] ∧ (t.core 0).seq.pos = 1)) = true
      ∧ nxt (.seqReadEntry 0 5) full (fun t => decide ((t.core 0).queues = (full.core 0).queues ∧ (t.core 0).seq.pos = 0
          ∧ (t.core 0).seq.blocked = some 69)) = true
      ∧ decodeEntry 0 (((r.seqReach 0 5).core 0).pmemRead 0).1 = some (.rep 2 5) ∧ ((r.seqReach 0 5).core 0).seq.repOk 2 = true
      ∧ nxt (.repeatOp 0 5) r (fun t => decide ((t.core 0).seq.reps = [⟨1, 3, 4⟩] ∧ (t.core 0).queues = [])) = true
      ∧ nxt (.endOp 0 5) (reading [word [(120, 0x1F)]]) (fun t => !(t.core 0).seq.reading && (t.core 0).seq.endRead) = true
      ∧ nxt (.seqReadEntry 0 5) (reading [word [(120, 0x1C)]]) (fun t => !(t.core 0).seq.reading && (t.core 0).seq.bad) = true := by
  decide +kernel

/-- A core with an operation that retires at cycle 8, and tile 1 in ACCUM through cycle 8. -/
def retiring : State :=
  coreOn0.modCore 0 (fun c => { c with
    flights := [{ id := 1, unit := 2, idx := 7, ent := 0, fired := 5, busy := 6, retire := 8, finished := true }],
    t1 := { st := .accum, stTo := 8 } })

/-- Nothing of the core's operations is due; in cycle 7 the operation stays, in cycle 8 it leaves and the tile becomes idle. -/
theorem test_retires_and_completes :
    (retiring.core 0).settled
      ∧ nxt (.opRetire 0 2 7) retiring (fun t => decide ((t.core 0).flights.length = 1 ∧ (t.core 0).now = 8)) = true
      ∧ nxt (.opRetire 0 2 8) retiring (fun t => decide ((t.core 0).flights = [])) = true
      ∧ ((retiring.core 0).tile 1).stTo ≤ 8
      ∧ nxt (.tileComplete 0 1 8) retiring (fun t => decide (((t.core 0).tile 1).st = .idle)) = true := by decide +kernel

/-- A packet of one row in the outbound buffer leaves for the network; the header of one of two rows with one there leaves at once, and
has the port until the second comes; while the port carries rows nothing leaves, and a fenced core loses the buffer (R72, R203). -/
theorem test_packet_departs :
    let p : OutPkt := { id := 1024, pkt := { type := 1, dmod := 0, dcore := 9, seq := 4, rows := 1 }, need := 1, rows := [some 5] }
    let s := fun (q : OutPkt) => coreOn0.modCore 0 (fun c => { c with outb := [q] })
    let fenced := (s p).wf (xbarPg 0 + 0x104) 1 0 3
    let busy := s { p with need := 2, left := true }
    (s p).reach 0 5 = s p ∧ (s p).portShut 0 = false ∧ ((s p).core 0).portBusy = false ∧ p.rows ≠ [] ∧ p.rows.length = p.need ∧ (s p).net = []
      ∧ busy.reach 0 5 = busy ∧ busy.portShut 0 = false ∧ (busy.core 0).portBusy = true ∧ (fenced.reach 0 5).portShut 0 = true
      ∧ nxt (.outboundPacketDepart 0 5) (s p) (fun t => decide ((t.core 0).outb = [] ∧ (t.core 0).leaving = [(5, 1)]) && decide (t.net.map (fun e => e.pkt.payload) = [[5]])
          && decide (t.net.map (fun e => (e.at_, e.ctx, e.pkt.seq)) = [(.core 0, some 0, 4)])) = true
      ∧ nxt (.outboundPacketDepart 0 5) (s { p with need := 2 }) (fun t => decide ((t.core 0).outb = [{ p with need := 2, left := true, leftAt := 5 }]
          ∧ t.net.map (fun e => (e.src, e.pkt.rows)) = [(some (0, 1024), 2)])) = true
      ∧ nxt (.outboundPacketDepart 0 5) busy (fun t => decide (t = busy)) = true
      ∧ nxt (.outboundPacketDepart 0 5) fenced (fun t => decide ((t.core 0).outb = [] ∧ t.net = [])) = true := by decide +kernel

/-- A SEND of forty rows becomes packets of 32 and 8 rows; DOFF of the second is 32 more, and only it carries LAST (R239). -/
theorem test_operation_splits :
    let op : Op := .send ⟨.ring 0, 40, 1, 0, 1, 4, 0, true⟩
    let s := (headed 4 op).modCore 0 (fun c => c.setRing 0 { tail := 40, resv := 40 })
    outOf op = some (40, 4, 0, true) ∧ fires s ⟨.send 0 5, 0, 4, 5, isSend⟩ op
      ∧ nxt (.send 0 5) s (fun t => decide ((t.core 0).outb.map (fun p => (p.need, p.pkt.doff, p.pkt.last)) = [(32, 4, false), (8, 36, true)])) = true := by
  decide +kernel

/-! ### Feed, landing, memory -/

/-- A granted remote descriptor of 20 rows sends its request; a fenced core loses its queue (R196, R203). -/
theorem test_feed_descriptor :
    let d : FeedDesc := { slot := 3, idx := 9, dst := 1, ptr := 0, gen := 0, rows := 20, next := 0, addr := 0x4000, stride := 1,
                          module := some 6, mset := none }
    let s := coreOn0.modCore 0 (fun c => { c with feedQ := [d] })
    let fenced := s.wf (xbarPg 0 + 0x104) 1 0 3
    let behind := s.modCore 0 (fun c => { c with outb := [{ id := 1024, pkt := { type := 1, rows := 1 }, need := 1, rows := [some 5] }] })
    s.portShut 0 = false ∧ (s.core 0).outReady = false ∧ d.rows ≤ s.feedSpan 0 d ∧ fenced.portShut 0 = true
      ∧ behind.portShut 0 = false ∧ (behind.core 0).outReady = true ∧ nxt (.feedDescriptorIssue 0) behind (fun t => decide (t = behind)) = true
      ∧ nxt (.feedDescriptorIssue 0) s (fun t => decide (t.net.map (fun e => (e.pkt.type, e.pkt.dmod, e.pkt.rows, e.pkt.addr, e.pkt.tag))
          = [(3, 6, 20, 0x4000, 3)])) = true
      ∧ nxt (.feedDescriptorIssue 0) fenced (fun t => decide ((t.core 0).feedQ = [] ∧ t.net = [])) = true := by decide +kernel

/-- Ring 1 armed with a window of 16 reserved rows, and an arrived RING_WRITE of two rows for it. -/
def landing (ctx : Nat) (armed : Bool) : State :=
  let k : Packet := { type := 1, rows := 2, dring := 1, doff := 4, void := true }
  let s := coreOn0.modCore 0 (fun c => if armed then (c.setRing 1 { resv := 16, outside := true }).setArm 1 (some ⟨16, 0, true, [], none, false⟩) else c)
  { s with arrived := [{ pkt := k, at_ := .core 0, ctx := some ctx }] }

/-- It lands in rows 4 and 5 of the window; without an arming it is discarded and counted (R104). -/
theorem test_ring_write :
    let k : Packet := { type := 1, rows := 2, dring := 1, doff := 4, void := true }
    (∀ b ∈ [true, false], let s := landing 0 b
        (s.arrival 0 [1, 5]).map (fun p => (p.pkt, p.coreOf)) = some (k, some 0)
        ∧ (s.reach 0 5).portDrops 0 = false ∧ ((s.reach 0 5).core 0).landRows < 64 ∧ (s.reach 0 5).gen.seamDone = false
        ∧ (((s.reach 0 5).takeArrival 0).flowCheck 0 k k.dcore ((s.reach 0 5).cycleAt 5)).1 = true
        ∧ (((s.reach 0 5).takeArrival 0).flowCheck 0 k k.dcore ((s.reach 0 5).cycleAt 5)).2.landCtxOk 0 (some 0) = true
        ∧ ((((s.reach 0 5).takeArrival 0).flowCheck 0 k k.dcore ((s.reach 0 5).cycleAt 5)).2.armAdvance 0 1).pktVerdict 0 k = if b then 0 else 2)
      ∧ nxt (.ringWrite 0 5) (landing 0 true) (fun t => decide (((t.core 0).arm 1).map (·.got) = some [4, 5] ∧ t.arrived = [])
          && (t.core 0).flights.any (fun f => f.landing && decide (f.rowVals = [none, none]))) = true
      ∧ nxt (.ringWrite 0 5) (landing 0 false) (fun t => decide (t.rf (corePg 0 + 0x260) 31 0 = 1)) = true := by decide +kernel

/-- A waiting packet leaves the landing buffer for its ring, or is discarded when the ring has lost its arming (R104). -/
theorem test_landing_buffer :
    let k : Packet := { type := 1, rows := 2, dring := 1, doff := 4, void := true }
    let s := fun b => (landing 0 b).modCore 0 (fun c => { c with landBuf := [k] })
    (∀ b ∈ [true, false], (((s b).reach 0 5).core 0).landBuf = [k] ∧ ((s b).reach 0 5).gen.seamDone = false
        ∧ (((s b).reach 0 5).armAdvance 0 1).pktVerdict 0 k = if b then 0 else 2)
      ∧ ((s true).reach 0 5).treeDead k = false
      ∧ (let d : State := { (s true).modCore 0 (fun c => { c with landBuf := [{ k with type := 5, tree := 3 }] }) with treeFaults := [(3, 0)] }
         (d.reach 0 5).treeDead { k with type := 5, tree := 3 } = true
          ∧ nxt (.landingBufferDrain 0 5) d (fun t => decide ((t.core 0).landBuf = [] ∧ t.rf (rtPg + 0x13C) 31 16 = 1)) = true)
      ∧ nxt (.landingBufferDrain 0 5) (s true) (fun t => decide ((t.core 0).landBuf = [] ∧ (t.core 0).flights.length = 1)) = true
      ∧ nxt (.landingBufferDrain 0 5) (s false) (fun t => decide ((t.core 0).landBuf = [] ∧ t.rf (corePg 0 + 0x260) 31 0 = 1)) = true := by
  decide +kernel

/-- A READ_REQ of one row of region 1, and a READ_RSP of two rows reserved at pointer 3 of ring 1 in its generation or an earlier
one (R149, R239, R249). -/
theorem test_reads :
    let q : NetPkt := { pkt := { type := 3, rows := 1, smod := 2, score := 70, tag := 5, addr := 2 ^ 34 + 256 }, at_ := .local_ 1, ctx := some 0 }
    let r : NetPkt := { pkt := { type := 4, rows := 2, dring := 1, void := true, land := some (3, 1) }, at_ := .core 0, ctx := some 0 }
    let s : State := { coreOn0 with arrived := [q] }
    let s1 := fun g => { coreOn0.modCore 0 (fun c => c.setRing 1 { gen := g, resv := 8 }) with arrived := [r] }
    s.arrival 0 [3] = some q ∧ s.unitHeld q = false ∧ (s.takeArrival 0).inCtx q = (some 0, false) ∧ homeOf q.pkt.addr = .dram 1 256
      ∧ nxt (.readReq 0) s (fun t => decide (t.xfers.map (fun x => (x.rows, x.hdr.type, x.hdr.dmod, x.hdr.dcore, x.hdr.tag)) = [(1, 4, 2, 70, 5)]
          ∧ t.reqs.map (fun x => (x.addr, x.ctx)) = [(2 ^ 34 + 256, some 0)])) = true
      ∧ ({ s with memHeld := true } : State).unitHeld q = true
      ∧ nxt (.readReq 0) { s with memHeld := true } (fun t => decide (t.reqs = [] ∧ t.rf (modPg 4 0 + 0x110) 31 0 = 1)) = true
      ∧ ((((s1 1).wf (xbarPg 0 + 0x104) 1 0 3).reach 0 5).portDrops 0) = true
      ∧ nxt (.readRsp 0 5) ((s1 1).wf (xbarPg 0 + 0x104) 1 0 3) (fun t => decide (t.arrived = [] ∧ (t.core 0).flights = [])) = true
      ∧ (∀ g ∈ [1, 2], (s1 g).arrival 0 [4] = some r ∧ (((s1 g).reach 0 5).core 0).landRows < 64
          ∧ ((s1 g).reach 0 5).portDrops 0 = false ∧ (((s1 g).reach 0 5).core 0).zeroing = false ∧ ((((s1 g).reach 0 5).core 0).ring 1).gen = g)
      ∧ nxt (.readRsp 0 5) (s1 1) (fun t => (t.core 0).flights.any (fun f => f.landing && decide (f.ringNo = 1))) = true
      ∧ nxt (.readRsp 0 5) (s1 2) (fun t => decide (t.rf (corePg 0 + 0x27C) 31 0 = 2 ∧ (t.core 0).flights = [])) = true
      ∧ nxt (.readRsp 0 5) ((s1 1).modCore 0 (fun c => { c with zeroing := true })) (fun t => decide (t.rf (corePg 0 + 0x260) 31 0 = 1 ∧ (t.core 0).flights = [])) = true := by
  decide +kernel

/-- Page 0 of region 1 is owned by context 0. -/
def owned : State := coreOn0.wrByte (ownerAddr 1 0) 0x40

/-- A MEM_WRITE of one row at an address of region 1, and its flow. -/
def writing (ctx : Nat) : State :=
  { owned with arrived := [{ pkt := { type := 2, rows := 1, addr := 2 ^ 34 + 256, payload := [7] }, at_ := .local_ 1, ctx := some ctx }] }

/-- A row of a MEM_WRITE of three, in class 1 of its channel. -/
def writingRow (ctx : Nat) : State :=
  { owned with memWrs := [{ id := 9, pkt := { pkt := { type := 2, rows := 3, addr := 2 ^ 34 + 256 }, at_ := .local_ 1, ctx := some ctx }, ctx := some ctx }]
               reqs := [{ xfer := 9, idx := 0, addr := 2 ^ 34 + 256, ctx := some ctx, fabric := false, core := none, write := some (some 7) }] }

/-- The row joins class 1 and memory stays; there the owner's row is written and another context's is not (R186, R188). -/
theorem test_mem_write :
    (∀ c ∈ [0, 1], ((writing c).arrival 0 [2]).map (fun p => (p.pkt.rows, homeOf p.pkt.addr, (writing c).unitHeld p)) = some (1, .dram 1 256, false)
        ∧ (((writing c).takeArrival 0).flowCheck 1 { type := 2, rows := 1, addr := 2 ^ 34 + 256, payload := [7] } 0xFFF 0).1 = true
        ∧ nxt (.memWrite 0 0 0) (writing c) (fun t => decide (t.mem = [] ∧ t.reqs.map (fun r => (r.addr, r.ctx, r.write)) = [(2 ^ 34 + 256, some c, some (some 7))])) = true
        ∧ (writingRow c).nthReq (reqOfMc 2) 0 = (writingRow c).reqs.head? ∧ (writingRow c).mcPick 2 0 = (writingRow c).reqs.head?
        ∧ (writingRow c).class2 = [] ∧ (writingRow c).memHeld = false ∧ (writingRow c).pageOk 1 256 (some c) false = decide (c = 0))
      ∧ nxt (.mcRequest 2 0 1 0 0) (writingRow 0) (fun t => decide (t.memRow (2 ^ 34 + 256) = 7 ∧ t.memByte (2 ^ 34 + 255) = 0 ∧ t.reqs = [])) = true
      ∧ nxt (.mcRequest 2 0 1 0 0) (writingRow 1) (fun t => decide (t.mem = [])) = true := by decide +kernel

/-- A row of DRAM and one of a slice, asked for by their owner (context 0) or another context. -/
def asking (addr ctx : Nat) : State :=
  { ((owned.setMemRow (2 ^ 34 + 256) 7).wr (slicePg 3 + 0x100) 0x10) with
    slices := [(3 * 4096 + 2, 9)], xfers := [{ id := 4, hdr := { type := 4 }, node := .local_ 1, ctx := some ctx, core := some 0, rows := 3, addr := addr }],
    reqs := [{ xfer := 4, idx := 0, addr := addr, ctx := some ctx, fabric := false, core := some 0 }] }

/-- The first waiting row of each kind. -/
def firstReq (s : State) : RowReq := s.reqs.headD ⟨0, 0, 0, none, false, none, none, none⟩

/-- The owner's row comes back as it is held, another's comes back void and is counted (R151, R186, R189). A younger row of a closed page
and a row whose slice port another input is granted wait (R188, R201). -/
theorem test_rows_served :
    let a := 2 ^ 34 + 256
    let b := 2 ^ 40 + 3 * 2 ^ 19 + 256
    let two : State := { asking a 0 with reqs := (asking a 0).reqs ++ [{ xfer := 5, idx := 0, addr := 2 ^ 34 + 2 ^ 30 + 256, ctx := some 0, fabric := false, core := some 0 }] }
    let both : State := { asking b 0 with reqs := (asking b 0).reqs ++ [{ xfer := 5, idx := 0, addr := b, ctx := some 0, fabric := false, core := some 1 }] }
    homeOf a = .dram 1 256 ∧ homeOf b = .slice 3 2
      ∧ (∀ c ∈ [0, 1], (asking a c).nthReq (reqOfMc 2) 0 = some (firstReq (asking a c)) ∧ (asking a c).mcPick 2 0 = some (firstReq (asking a c))
        ∧ (asking b c).nthReq reqOfSlice 0 = some (firstReq (asking b c)) ∧ (asking a c).dramUpset = [] ∧ (asking b c).sliceUpset = []
        ∧ (asking b c).xbarWins 0 13 (coreIn 0 (some 0)) ((asking b c).slicePktOut 0) = true
        ∧ (asking a c).pageOk 1 256 (some c) false = decide (c = 0) ∧ (asking b c).sliceOk 3 (some c) = decide (c = 0))
      ∧ two.nthReq (reqOfMc 2) 1 ≠ none ∧ two.mcPick 2 0 = two.nthReq (reqOfMc 2) 0 ∧ nxt (.mcRequest 2 1 1 0 0) two (fun t => decide (t = two)) = true
      ∧ (both.nthReq reqOfSlice 1).map (fun r => both.xbarWins 0 13 (coreIn 0 r.core) (both.slicePktOut 0)) = some false
      ∧ nxt (.sliceAccess 1 0 0 0) both (fun t => decide (t = both)) = true
      ∧ (asking a 0).memHeld = false ∧ (asking a 0).class2 = [] ∧ (asking b 0).held = [] ∧ (asking b 0).portShut 0 = false
      ∧ nxt (.mcRequest 2 0 1 0 0) { asking a 0 with memHeld := true } (fun t => decide (t.reqs = [] ∧ t.rf (modPg 4 0 + 0x110) 31 0 = 1)) = true
      ∧ ((asking b 0).wf (xbarPg 0 + 0x104) 1 0 3).portShut 0 = true
      ∧ nxt (.sliceAccess 0 0 0 0) ((asking b 0).wf (xbarPg 0 + 0x104) 1 0 3) (fun t => decide (t.reqs = [] ∧ t.xfers = [])) = true
      ∧ nxt (.mcRequest 2 0 1 0 0) (asking a 0) (fun t => decide (t.xfers.map (·.got) = [[(0, some 7, none)]] ∧ t.reqs = [])) = true
      ∧ nxt (.mcRequest 2 0 1 0 0) (asking a 1) (fun t => decide (t.xfers.map (·.got) = [[(0, none, none)]] ∧ t.rf (corePg 0 + 0x700) 31 0 = 1)) = true
      ∧ nxt (.sliceAccess 0 0 0 0) (asking b 0) (fun t => decide (t.xfers.map (·.got) = [[(0, some 9, none)]])) = true
      ∧ nxt (.sliceAccess 0 0 0 0) (asking b 1) (fun t => decide (t.xfers.map (·.got) = [[(0, none, none)]] ∧ t.rf (slicePg 3 + 0x104) 31 0 = 1)) = true := by
  decide +kernel

/-- A controller with a corrected burst to write back; a page that awaits clearing. -/
def upkeep : State :=
  let key := (2 ^ 34 + 2048) / 64
  { ((owned.wr (mcPg 3 + 0x110) 0x40).wrByte (ownerAddr 1 5) 0x80).wr (rcPg 1 0 + 0x114) 0x40 with dramUpset := [(key, 1)], ceBursts := [(3, [key])] }

/-- The write-back clears the burst; with nothing to write back the patrol may read its row; refresh closes the page of its bank and no other;
a waiting row keeps all of them from the channel (R188, R193, R195). -/
theorem test_upkeep_meets :
    let key := (2 ^ 34 + 2048) / 64
    let s : State := { upkeep with ceBursts := [], openPages := [(96, 5), (97, 6)] }
    let busy : State := { upkeep with reqs := [{ xfer := 4, idx := 0, addr := 2 ^ 34 + 2048, ctx := some 0, fabric := false, core := some 0 }] }
    dramClass (Tbl.get 0 upkeep.dramUpset key).toNat = 1 ∧ upkeep.nextBurst 3 = some key ∧ upkeep.mcIdle 3 = true ∧ busy.mcBusy 3 = true
      ∧ Tbl.get 0 s.patrolAt 3 = 0 ∧ offOf 1 0 = 2048 ∧ s.rd (mcPg 3 + 0x110) ≠ 0 ∧ s.mcIdle 3 = true ∧ Tbl.get 0 s.dramUpset (key + 1) = 0
      ∧ nxt (.eccWriteback 3) upkeep (fun t => decide (t.dramUpset = [] ∧ Tbl.get [] t.ceBursts 3 = [])) = true
      ∧ nxt (.eccWriteback 3) busy (fun t => decide (t = busy)) = true ∧ nxt (.patrolScrub 3 0 0 0) busy (fun t => decide (t = busy)) = true
      ∧ patrolNext 0 = 128 ∧ Tbl.get [] s.ceBursts 3 = []
      ∧ nxt (.refresh 3 1 0) s (fun t => decide (t.regs = s.regs ∧ t.openPages = [(97, 6)])) = true
      ∧ s.pwrState ≠ 3 ∧ (s.wf pwrStat 31 29 3).pwrState = 3 ∧ s.memHeld = false := by decide +kernel

/-- Rank 0 of channel 3 reports a multiplier above 2×, then rank 1 does not: HOT shows at the seam; without the report it clears (R191). -/
theorem test_hot_ranks :
    nxt (.hot 3 0 7 true 0) upkeep (fun t => decide ((3, 0) ∈ t.hotDevs ∧ t.rf (mcPg 3 + 0x100) 29 29 = 0)
        && nxt (.hot 3 1 1 false 0) t (fun u => decide ((3, 0) ∈ u.hotDevs ∧ u.publishMc.rf (mcPg 3 + 0x100) 29 29 = 1 ∧ u.publishMc.rf (mcPg 2 + 0x100) 29 29 = 0)
          && nxt (.hot 3 0 1 false 0) u.publishMc (fun v => decide (v.hotDevs = [] ∧ v.publishMc.rf (mcPg 3 + 0x100) 29 29 = 0)))) = true := by
  decide +kernel

/-- Clearing makes page 5 FREE, or RETIRED when a row of it has failed (R187, R195). -/
theorem test_clearing_scrub :
    upkeep.pageState 1 5 = 2 ∧ (∀ p, p < 5 → upkeep.pageState 1 p ≠ 2) ∧ upkeep.rd (rcPg 1 0 + 0x114) ≠ 0
      ∧ ({ upkeep with ceBursts := [] } : State).clearIdle 1 = true
      ∧ nxt (.clearingScrub 1 5) { upkeep with ceBursts := [], mem := [(2 ^ 34 + 5 * 2 ^ 21 + 3, 8)] } (fun t => decide (t.mem = [] ∧ t.pageState 1 5 = 0)) = true
      ∧ nxt (.clearingScrub 1 5) { upkeep with ceBursts := [], retirePend := [(1, 5)] } (fun t => decide (t.pageState 1 5 = 3)) = true := by
  decide +kernel

/-- A row that waits at the region's first channel keeps the clearing scrub from a slot (R188). -/
theorem test_clearing_waits :
    let s : State := { upkeep with reqs := [{ xfer := 4, idx := 0, addr := 2 ^ 34, ctx := some 0, fabric := false, core := some 0 }] }
    s.mcBusy 2 = true ∧ nxt (.clearingScrub 1 5) s (fun t => decide (t.reqs = s.reqs ∧ t.regs = s.regs)) = true := by decide +kernel

/-- Four entries of one word: OWNED takes the value written, SCRUB_PEND keeps its own, RETIRED changes during bring-up only, and a
FREE page with a failed row becomes RETIRED (R185, R195). -/
theorem test_owner_table :
    let s : State := { ((owned.wrByte (ownerAddr 1 1) 0x80).wrByte (ownerAddr 1 2) 0xC0) with retirePend := [(1, 3)], aon := { powered := true } }
    s.mayWrite .mgmt (rcPg 1 2 + 0x100)
      ∧ nxt (.ownerTableWrite .mgmt 1 0 0x00417F71) s (fun t => decide ((List.range 4).map (fun i => t.rdByte (ownerAddr 1 i)) = [0x61, 0x80, 0xC0, 0xC0])) = true
      ∧ nxt (.ownerTableWrite .mgmt 1 0 0x00418071) { s with aon := { powered := true, booting := true } }
          (fun t => decide ((List.range 4).map (fun i => t.rdByte (ownerAddr 1 i)) = [0x61, 0x80, 0x41, 0xC0])) = true := by decide +kernel

/-! ### Buckles, barriers, network, trees, epochs -/

/-- Core 0 with main power on, as every access to its registers needs (R345). -/
def powered : State := { coreOn0 with aon := { powered := true } }

/-- An addition of 3 to buckle 5, of core 0's context 0, by a context. -/
def adding (ctx : Nat) : State :=
  { powered.wr (bklAddr 5) 0xFFFFFFFF with
    arrived := [{ pkt := { type := 7, buckle := 5, value := 3 }, at_ := .local_ 0, ctx := some ctx }] }

/-- The owner's addition wraps COUNT to 2; another context's is counted (R270, R271). -/
theorem test_buckle_addition :
    (∀ c ∈ [0, 1], ((adding c).arrival 0 [7]).map (fun p => p.pkt.buckle) = some 5 ∧ (adding c).ratioOk = true
        ∧ (adding c).memHeld = false ∧ (((adding c).takeArrival 0).flowCheck 0 { type := 7, buckle := 5, value := 3 } 0xFFE 0).1 = true
        ∧ (adding c).bklBit 5 12 = false ∧ (adding c).bklCtx 5 = some 0)
      ∧ nxt (.buckleAdd 0 0) (adding 0) (fun t => decide (t.bklCount 5 = 2)) = true
      ∧ nxt (.buckleAdd 0 0) { adding 0 with memHeld := true } (fun t => decide (t.bklCount 5 = 2 ^ 32 - 1 ∧ t.arrived = [] ∧ t.rf (modPg 4 0 + 0x110) 31 0 = 1)) = true
      ∧ nxt (.buckleAdd 0 0) (adding 1) (fun t => decide (t.bklCount 5 = 2 ^ 32 - 1 ∧ t.rf (bankPg 0 0 + 0x100) 31 0 = 1)) = true := by
  decide +kernel

/-- Buckle 5 armed in mode 0 with TARGET 8, TIMEOUT 4 and AGE 4. -/
def armed5 : State := ((powered.wr (bklAddr 5 + 4) 8).wr (bklAddr 5 + 8) 0x00011000).wr (bklAddr 5 + 12) 4

/-- COUNT = TARGET satisfies and one less does not; TARGET + 2^31 − 1 satisfies and TARGET + 2^31 does not (R272); a write to an
unarmed buckle changes one register; AGE = TIMEOUT faults (R274). -/
theorem test_buckle_writes :
    armed5.mayWrite .mgmt (bklAddr 5) ∧ armed5.bklBit 5 12 = true ∧ armed5.bklBit 5 11 = false ∧ armed5.bklMode 5 = 0
      ∧ ([8, 7, 0x80000007, 0x80000008].map (fun v => nxt (.buckleRegWrite .mgmt 5 false v) armed5 (fun t => t.bklBit 5 11)))
          = [true, false, true, false]
      ∧ powered.mayWrite .mgmt (bklAddr 5) ∧ powered.bklBit 5 12 = false
      ∧ nxt (.buckleRegWrite .mgmt 5 true 9) powered (fun t => decide (t.bklTarget 5 = 9 ∧ t.bklCount 5 = 0)) = true
      ∧ armed5.ratioOk = true ∧ armed5.bklOpen 5 = true ∧ armed5.rf (bklAddr 5 + 12) 15 0 = armed5.rf (bklAddr 5 + 8) 29 14
      ∧ nxt (.buckleTimeout 5) armed5 (fun t => t.bklBit 5 10 && t.bklBit 5 11) = true := by decide +kernel

/-- A barrier entry written anew; GIRTH packets at an entry that is not valid, of another generation, and of its generation while
it waits for its own module (R278, R279). -/
theorem test_barriers :
    let p : NetPkt := { pkt := { type := 8, tree := 3, opid := 1 }, at_ := .ingress 5 }
    let s : State := { (powered.wr (barAddr 3) 0x80000002) with arrived := [p] }
    let s1 := s.wr (barAddr 3 + 4) 0x10000
    powered.mayWrite .mgmt (barAddr 3) ∧ s.arrival 0 [8] = some p ∧ s.epochGone 0 = false
      ∧ nxt (.barrierEntryWrite .mgmt 3 false 0x80000002) powered (fun t => decide (t.rf (barAddr 3) 31 31 = 1 ∧ t.rf (barAddr 3) 15 0 = 2)) = true
      ∧ p.pkt.opid ≠ s.barGen 3
      ∧ nxt (.girth 0) s (fun t => decide (t.arrived = [] ∧ t.rf (rtPg + 0x138) 31 0 = 1)) = true
      ∧ s1.barValid 3 = true ∧ p.pkt.opid = s1.barGen 3 ∧ s1.rf (barAddr 3 + 4) 15 0 < s1.rf (barAddr 3) 15 0 ∧ s1.parentLost = false
      ∧ (s1.barrier 3).ups.contains 4 = false
      ∧ nxt (.girth 0) s1 (fun t => decide ((t.barrier 3).ups = [4])) = true := by decide +kernel

/-- A packet of core 0 for a core of block 9, and one of a reserved TYPE; `full` fills the router's buffer. -/
def hopping (type : Nat) (full : Bool) : State :=
  let p : NetPkt := { pkt := { type := type, dcore := 72 }, at_ := .core 0 }
  { powered with net := p :: (if full then [{ p with at_ := .router 0, from_ := 4 }] else []) }

/-- A packet leaves for its block's router when a buffer is free, waits when none is, and is discarded when its TYPE is reserved
(R208, R238). -/
theorem test_hops :
    (hopping 1 false).ratioOk = true ∧ (hopping 1 false).portShut 0 = false ∧ typeKnown { type := 0 } = false
      ∧ (∀ b ∈ [true, false], typeKnown { type := 1, dcore := 72 } = true ∧ (hopping 1 b).nodeLive (.router 0) = true
          ∧ ((hopping 1 b).goal { pkt := { type := 1, dcore := 72 }, at_ := .core 0 }).blk = some 9
          ∧ (hopping 1 b).xbarLets 0 { pkt := { type := 1, dcore := 72 }, at_ := .core 0 } = true
          ∧ (hopping 1 b).bufFree (.router 0) 4 1 = !b)
      ∧ nxt (.packetHop 0 0 0) (hopping 0 false) (fun t => decide (t.net = [] ∧ t.rf (rtPg + 0x12C) 31 0 = 1)) = true
      ∧ nxt (.packetHop 0 0 0) (hopping 1 false) (fun t => decide (t.net.map (·.at_) = [.router 0])) = true
      ∧ nxt (.packetHop 0 0 0) (hopping 1 true) (fun t => decide (t.net.map (·.at_) = [.core 0, .router 0])) = true := by decide +kernel

/-- At router 0 a packet of channel 1 for block 9 and one of channel 0 for it: the first stays, the second leaves (R208). -/
theorem test_channel_zero_first :
    let p : NetPkt := { pkt := { type := 1, dcore := 72 }, at_ := .router 0 }
    let q : NetPkt := { pkt := { type := 8, dcore := 72, vc := 0 }, at_ := .router 0, vc := 0 }
    let s : State := { powered with net := [p, q] }
    s.ratioOk = true ∧ isMcast p.pkt = false
      ∧ (s.escape p (s.hopOf p (s.goal p))).map (fun x => (hopPort (.router 0) x.2.1, x.2.2)) = (s.netOuts q).head?.map (fun o => (some o, false))
      ∧ s.netOuts q ≠ []
      ∧ nxt (.packetHop 0 0 0) s (fun t => decide (t = s)) = true
      ∧ nxt (.packetHop 1 0 0) s (fun t => decide (t.net.map (·.at_) ≠ [.router 0, .router 0])) = true := by decide +kernel

/-- A multicast response at block 0's router for logical cores 0 and 1, which context 0 owns; the landing buffer of core 1 is full
or empty, and its ring 1 is armed. -/
def casting (full : Bool) : State :=
  let k : Packet := { type := 4, vc := 4, rows := 1, void := true, dcore := 0, dring := 1, loadRows := 16, mset := some (1, 1, 3) }
  let s := (powered.wrByte (partAddr 1) 0x80).wr (corePg 1 + 0x410) 0xA03F0040#32
  let s := s.modCore 1 (fun c => { c.setRing 1 { resv := 16, outside := true } with
    arms := [(1, some ⟨16, 0, true, [], none, true⟩)], landBuf := if full then [{ type := 1, rows := 64 }] else [] })
  { s with net := [{ pkt := k, at_ := .router 0, vc := 4, reqCore := some 9, ctx := some 0, tree := [0], cores := [0, 1] }] }

/-- While one destination cannot take it the packet stays and holds its input; then both have it in one step (R197, R202). -/
theorem test_broadcast :
    (∀ b ∈ [true, false], (casting b).held.contains 0 = false ∧ (casting b).net.findIdx? (fun q => q.casts 0) = some 0
        ∧ (casting b).net.all (fun p => decide (p.cores = [0, 1])
            && (casting b).netWins p 4 && p.cores.any (fun gp => (casting b).mcastBlocked gp p.pkt) == b && p.cores.all (fun gp => !(casting b).portShut gp)) = true)
      ∧ (casting false).ratioOk = true
      ∧ (let z : State := { casting false with net := (casting false).net ++ [{ pkt := { type := 8, dcore := 0, vc := 0 }, at_ := .router 0, vc := 0 }] }
         (z.net.findIdx? (fun q => q.casts 0) = some 0 ∧ z.net.head?.map (fun p => z.netWins p 4) = some false)
           ∧ nxt (.broadcastGrant 0 0) z (fun t => decide (t = z)) = true)
      ∧ nxt (.broadcastGrant 0 0) (casting true) (fun t => decide (t.net.map (·.holding) = [true] ∧ t.arrived = [])) = true
      ∧ nxt (.broadcastGrant 0 0) (casting false) (fun t => decide (t.net = [] ∧ t.arrived.map (·.at_) = [.core 0, .core 1])) = true := by
  decide +kernel

/-- A torus of 4 modules in X, port 2 up, and a packet at die-mesh unit 3 for module 1; `job` says that context 0 has a flow table
entry of JOB 9. -/
def routing (job : Bool) : State :=
  let s := (powered.wr (rtPg + 0x104) 3).wf (fabPg 2 + 0x100) 31 28 3
  { (if job then s.wr (rtPg + 0x180) 0x80000009 else s) with
    net := [{ pkt := { type := 1, dmod := 1, rows := 1, payload := [5] }, at_ := .mesh 3, ctx := some 0 }] }

/-- Without a flow table entry the packet is discarded and counted; with one it takes JOB and a port with credit (R241, R245). -/
theorem test_fabric_route :
    (∀ b ∈ [true, false], (1 : Nat) ≠ (routing b).myId ∧ (routing b).idInside 1 = true
        ∧ ((routing b).rf (rtPg + 0x180) 31 31 = if b then 1 else 0))
      ∧ (routing true).bestPort { type := 1, dmod := 1, rows := 1, payload := [5], job := 9 } = some 2
      ∧ nxt (.fabricRoute 0 0) (routing false) (fun t => decide (t.net = [] ∧ t.rf (rtPg + 0x128) 31 0 = 1)) = true
      ∧ nxt (.fabricRoute 0 0) (routing true) (fun t => decide (t.net.map (fun e => (e.egress, e.vc, e.pkt.job)) = [(some 2, 1, 9)])) = true := by
  decide +kernel

/-- Tree 3 is valid, this module is its root, ports 2 and 4 are its children, it has one key, and a contribution of member 0 has
arrived. -/
def treed (epoch : Nat) : State :=
  { ((powered.wr (treeAddr 0 3) 0xC0050000).wr (treeAddr 0 3 + 4) 1).wr (rtPg + 0x180) 0x80000009 with
    arrived := [{ pkt := { type := 5, tree := 3, rop := 1, epoch := epoch, rows := 1, void := true, score := 0 }, at_ := .local_ 8, ctx := some 0 }] }

/-- What the statements on trees ask of a contribution. -/
theorem test_tree_meets :
    let p : NetPkt := { pkt := { type := 5, tree := 3, rop := 1, epoch := 0, rows := 1, void := true, score := 0 }, at_ := .local_ 8, ctx := some 0 }
    (treed 0).arrival 0 [5] = some p ∧ (treed 0).treeHead 0 p = true ∧ (treed 1).treeHead 0 { p with pkt := { p.pkt with epoch := 1 } } = true
      ∧ (treed 0).epochGone 0 = false ∧ (treed 1).epochGone 1 = true ∧ (treed 0).treeValid 0 3 = true
      ∧ (treed 0).treeJobless p = false ∧ badUnits p.pkt = [] ∧ (treed 0).treeKeys 0 3 = 1 ∧ (treed 0).treeKids 0 3 = [2, 4] := by
  decide +kernel

/-- It is discarded in a retired epoch or a faulted tree, opens a key, or waits while the one key is another reduction's; a notice
faults the tree (R253, R255, R259, R263). -/
theorem test_trees :
    let k : TreeKey := { tree := 3, epoch := 0, opid := 7, doff := 0, pkt := {}, from_ := [2], bad := false }
    let note : State := { treed 0 with keys := [k], arrived := [{ pkt := { type := 6, tree := 3 }, at_ := .ingress 2 }] }
    nxt (.tree 0 0) (treed 1) (fun t => decide (t.arrived = [] ∧ t.rf (rtPg + 0x130) 31 0 = 1)) = true
      ∧ nxt (.tree 0 0) { treed 0 with treeFaults := [(3, 0)] } (fun t => decide (t.arrived = [] ∧ t.rf (rtPg + 0x13C) 31 16 = 1)) = true
      ∧ nxt (.tree 0 0) { treed 0 with keys := [k] } (fun t => decide (t.keys = [k] ∧ t.arrived.length = 1)) = true
      ∧ nxt (.keyWaitResume 0 0) { treed 0 with keys := [k] } (fun t => decide (t.keys = [k] ∧ t.arrived.length = 1)) = true
      ∧ (∀ c ∈ [Instr.tree 0 0, .keyWaitResume 0 0], nxt c (treed 0) (fun t => decide (t.keys.map (fun x => (x.tree, x.from_)) = [(3, [16])] ∧ t.arrived = [])) = true)
      ∧ (note.arrival 0 [6]).any (fun p => note.treeHead 0 p) = true
      ∧ (let s : State := { treed 0 with arrived := (treed 0).arrived ++ (treed 0).arrived }
         nxt (.tree 1 0) s (fun t => decide (t = s)) && nxt (.keyWaitResume 1 0) s (fun t => decide (t = s))) = true
      ∧ nxt (.treeNotice 0 0) note (fun t => decide (t.treeFaults = [(3, 0)] ∧ t.keys = [])) = true := by decide +kernel

/-- An epoch switch arms once, takes place at its stroke and drains to its end (R262, R263). -/
theorem test_epoch_switch :
    let armed := ((powered.wf (rtPg + 0x108) 29 29 1).wr (rtPg + 0x114) 8).wr (modPg 0 0 + 0x108) 9
    let draining : State := { (powered.wf (rtPg + 0x108) 28 28 1).wr (modPg 0 0 + 0x108) 9 with epRetire := some 9 }
    powered.mayWrite .mgmt (rtPg + 0x110)
      ∧ nxt (.epCtlArm .mgmt 0x80000000) powered (fun t => decide (t.rf (rtPg + 0x108) 29 29 = 1)) = true
      ∧ (∀ s ∈ [armed, draining], s.mayWrite .mgmt (rtPg + 0x110)
          ∧ nxt (.epCtlArm .mgmt 0x80000000) s (fun t => decide (t.rd (rtPg + 0x108) = s.rd (rtPg + 0x108))) = true)
      ∧ armed.rd64 (rtPg + 0x114) % 2 ^ 40 ≤ armed.stroke ∧ armed.treesOf 1 = [] ∧ armed.barriers = []
      ∧ nxt (.epochFlip 0) armed (fun t => decide (t.epoch = 1 ∧ t.rf (rtPg + 0x108) 28 28 = 1)) = true
      ∧ draining.stroke = 9 ∧ draining.keys = []
      ∧ nxt (.epochRetire 0) { draining with treeFaults := [(3, 1), (4, 0)] } (fun t => decide (t.treeFaults = [(4, 0)])) = true
      ∧ nxt (.epochRetire 0) draining (fun t => decide (t.rf (rtPg + 0x108) 28 28 = 0 ∧ t.epoch = 0)) = true := by decide +kernel

/-! ### Fabric links -/

/-- Port 2 is up at ×8. -/
def linkUp : State := powered.wf (fabPg 2 + 0x100) 31 28 2

/-- A trailer (R220) of a packet: TYPE 1, SEQ and the packet's CRC. -/
def trailer (k : Packet) (seq : Nat) : BitVec 256 := mkBlock (1 + seq * 2 ^ 8 + pktCrc k * 2 ^ 32)

/-- A packet and its trailer arrive on port 2. -/
def rx (k : Packet) (b : BitVec 256) (c : Nat := 0) : Instr := .linkPacketRx 2 k b ⟨c, 0, []⟩ false 0

/-- A packet, one for an engine, one of a reserved TYPE and one of the other epoch; a trailer with STOMP (R220, R224). -/
def pktR (type epoch : Nat) : Packet := { type := type, rows := 1, void := true, epoch := epoch }
def stomped (k : Packet) : BitVec 256 := mkBlock (1 + 2 ^ 23 + pktCrc k * 2 ^ 32)

/-- Each kind of trailer meets the statement's hypotheses (R220, R222, R224). -/
theorem test_link_meets :
    linkUp.portUp 2 = true ∧ (rx (pktR 1 0) (trailer (pktR 1 0) 0)).wf = true ∧ (linkUp.link 2).rx = 0
      ∧ (∀ q ∈ [0, 1, 4095], blockOk (trailer (pktR 1 0) q) = true ∧ blk (trailer (pktR 1 0) q) 7 0 = 1 ∧ blk (trailer (pktR 1 0) q) 23 23 = 0
          ∧ blk (trailer (pktR 1 0) q) 63 32 = pktCrc (pktR 1 0) ∧ blk (trailer (pktR 1 0) q) 19 8 = q)
      ∧ blockOk (mkBlock 2) = true ∧ blk (mkBlock 2) 7 0 ≠ 1 ∧ blockOk (stomped (pktR 1 0)) = true ∧ blk (stomped (pktR 1 0)) 7 0 = 1
      ∧ blk (stomped (pktR 1 0)) 23 23 = 1 ∧ blockOk (mkBlock 1) = true ∧ blk (mkBlock 1) 63 32 ≠ pktCrc (pktR 1 0)
      ∧ typeKnown (pktR 1 0) = true ∧ typeKnown (pktR 5 0) = true ∧ typeKnown (pktR 0 0) = false
      ∧ linkUp.epochGone 0 = false ∧ linkUp.epochGone 1 = true
      ∧ linkUp.rf (fabPg 0 + 0x20) 31 0 + 3 < 2 ^ 32 - 1 ∧ (linkUp.fecNoted 2 ⟨3, 0, []⟩ 0).rf (fabPg 0 + 0x20) 31 0 = 3 := by decide +kernel

/-- The expected packet is delivered or goes to its engine; one received before, one of a retired epoch or of a reserved TYPE is not; one
beyond the expected SEQ or of a false CRC asks for a NAK; a stomped one counts; a block of TYPE 2 in a trailer's place is nothing (R220,
R222, R224, R238, R263). -/
theorem test_link_reception :
    nxt (rx (pktR 1 0) (mkBlock 2)) linkUp (fun t => decide (t = linkUp)) = true
      ∧ nxt (rx (pktR 1 0) (trailer (pktR 1 0) 0)) linkUp (fun t => decide (t.net.map (·.at_) = [.ingress 2] ∧ (t.link 2).rx = 1)) = true
      ∧ nxt (rx (pktR 5 0) (trailer (pktR 5 0) 0)) linkUp (fun t => decide (t.arrived.map (·.at_) = [.ingress 2] ∧ t.net = [])) = true
      ∧ (∀ k ∈ [pktR 0 0, pktR 1 1], nxt (rx k (trailer k 0)) linkUp (fun t => decide (t.net = [] ∧ t.arrived = [] ∧ (t.link 2).rx = 1)) = true)
      ∧ nxt (rx (pktR 1 0) (trailer (pktR 1 0) 4095)) linkUp (fun t => decide (t.net = [] ∧ (t.link 2).rx = 0 ∧ t.rf (fabPg 2 + 0x124) 15 0 = 1)) = true
      ∧ nxt (rx (pktR 1 0) (trailer (pktR 1 0) 1)) linkUp (fun t => (t.link 2).naked && decide (t.net = [] ∧ (t.link 2).rx = 0)) = true
      ∧ nxt (rx (pktR 1 0) (stomped (pktR 1 0))) linkUp (fun t => decide (t.net = [] ∧ t.rf (fabPg 2 + 0x124) 31 16 = 1)) = true
      ∧ nxt (rx (pktR 1 0) (mkBlock 1)) linkUp (fun t => decide (t.net = [] ∧ t.rf (fabPg 2 + 0x118) 31 0 = 1) && (t.link 2).naked) = true := by
  decide +kernel

/-- Packets 7, 8 and 9 are not acknowledged on port 2. -/
def unacked (last : Option Nat) (same : Nat) : State :=
  linkUp.setLink 2 { tx := 10, rx := 5, pendAck := 1, freed := [0, 3, 0, 0, 0], unacked := [(7, { type := 1 }), (8, { type := 1 }), (9, { type := 1 })],
                     lastReplay := last, sameReplay := same }

/-- ACK 8 frees 7 and 8, a CREDIT block sets the totals, and the timers send what is owed (R222, R223, R226). -/
theorem test_acknowledge :
    let s := unacked none 0
    let a := mkBlock (2 + 8 * 2 ^ 8)
    let c := mkBlock (4 + 5 * 2 ^ 8 + 6 * 2 ^ 24)
    s.portUp 2 = true ∧ (s.link 2).waiting = [] ∧ blockOk a = true ∧ blk a 7 0 = 2
      ∧ ((s.link 2).unacked.any (fun x => decide (x.1 = blk a 19 8))) = true ∧ blockOk c = true ∧ blk c 7 0 = 4
      ∧ 0 < (s.link 2).pendAck ∧ (s.link 2).freed ≠ (s.link 2).freedTold
      ∧ nxt (.ack 2 a 0) s (fun t => decide ((t.link 2).unacked.map (·.1) = [9])) = true
      ∧ nxt (.credit 2 c 0) s (fun t => decide ((t.link 2).freedSeen = [5, 6, 0, 0, 0])) = true
      ∧ nxt (.linkAckTimer 2) s (fun t => t.out.any (fun o => match o with | .block 2 b => decide (blk b 7 0 = 2 ∧ blk b 19 8 = 4) | _ => false)) = true
      ∧ nxt (.creditTimer 2) s (fun t => t.out.any (fun o => match o with | .block 2 b => decide (blk b 7 0 = 4 ∧ blk b 39 24 = 3) | _ => false)) = true := by
  decide +kernel

/-- NAK 8 sends 8 and 9 again, a timeout sends all again, and the fourth replay in a row from one SEQ retrains (R223, R229). -/
theorem test_replay :
    let n := mkBlock (3 + 8 * 2 ^ 8)
    let m := mkBlock (3 + 7 * 2 ^ 8)
    blockOk n = true ∧ blk n 7 0 = 3 ∧ blk n 19 8 = 8 ∧ blk m 19 8 = 7
      ∧ (((unacked none 0).link 2).unacked.any (fun x => decide (x.1 = 8))) = true
      ∧ (unacked none 0).replaying 2 8 0 = false ∧ (unacked (some 8) 3).replaying 2 8 0 = false
      ∧ nxt (.nak 2 n 0) (unacked none 0) (fun t => decide (t.out = [8, 9].map (fun q => .packet 2 q { type := 1 } false (trailerOf { type := 1 } q false)))
          && nxt (.nak 2 n 0) t (fun u => decide (u = t))) = true
      ∧ nxt (.replayTimeout 2 0) (unacked none 0) (fun t => decide (t.out.length = 3)) = true
      ∧ ((unacked (some 8) 3).link 2).lastReplay = some 8 ∧ 3 ≤ ((unacked (some 8) 3).link 2).sameReplay
      ∧ nxt (.nak 2 n 0) (unacked (some 8) 3) (fun t => decide (t.out = [.training 2 0 2 5] ∧ t.portState 2 = 4)) = true := by decide +kernel

/-- A retrain attempt that does not complete. -/
def noTrain : TrainResult := { done := false, good := 0xFF, peerId := 1, peerPort := 0, peerExp := 0 }

/-- Four triggers start a retrain, the third failure in a row takes the link down, and a port goes down with its record (R229, R230,
R231, R234). -/
theorem test_retrain_and_down :
    let s := linkUp.wf (fabPg 2 + 0x100) 27 20 0xFF
    let r := fun n => (s.wf (fabPg 2 + 0x100) 31 28 4).wf (fabPg 2 + 0x100) 11 10 n
    noTrain.wf = true ∧ s.portUp 2 = true
      ∧ 4 ≤ ((lanesOf (s.rf (fabPg 2 + 0x100) 27 20)).filter (fun i => !(0x0F#8).getLsbD i)).length
      ∧ (∀ c ∈ [Instr.fabRetrain 2 noTrain [] [] 0, .peerTraining 2 noTrain 0, .fecRetrainTrigger 2 false noTrain 0, .laneLoss 2 0x0F false noTrain 0],
          nxt c s (fun t => decide (t.portState 2 = 4 ∧ t.rf (fabPg 2 + 0x128) 31 0 = 1 ∧ .training 2 0 2 0 ∈ t.out)) = true)
      ∧ (∀ n ∈ [1, 2], (r n).portState 2 = 4 ∧ (r n).rf (fabPg 2 + 0x100) 11 10 = n)
      ∧ nxt (.retrainTimeout 2 noTrain 0) (r 1) (fun t => decide (t.portState 2 = 4 ∧ t.rf (fabPg 2 + 0x100) 11 10 = 2)) = true
      ∧ nxt (.retrainTimeout 2 noTrain 0) (r 2) (fun t => decide (t.portState 2 = 0)) = true
      ∧ (∀ c ∈ [Instr.linkDown 2 .signal 0 0, .controlBlockTimeout 2 0], nxt c s (fun t => decide (t.portState 2 = 0)
          && t.recQ.any (fun x => decide (x.cls = 0x21 ∧ x.sev = 2))) = true) := by decide +kernel

/-- Identity registers take a write while every port is down, and none while one is up; no port trains with ID_BAD (R236). -/
theorem test_module_identity :
    let bad := powered.wf (rtPg + 0x108) 31 31 1
    powered.mayWrite .mgmt (rtPg + 0x100) ∧ powered.mayWrite .mgmt (rtPg + 0x104) ∧ powered.allPortsDown = true
      ∧ linkUp.mayWrite .mgmt (rtPg + 0x100) ∧ linkUp.mayWrite .mgmt (rtPg + 0x104) ∧ linkUp.allPortsDown = false
      ∧ nxt (.fabIdWrite .mgmt 0x11) powered (fun t => decide (t.myId = 0x11 ∧ t.rf (rtPg + 0x108) 31 31 = 1)) = true
      ∧ nxt (.torusDimWrite .mgmt 0x33) powered (fun t => decide (t.dimN 0 = 4 ∧ t.dimN 1 = 4)) = true
      ∧ nxt (.fabIdWrite .mgmt 0x11) linkUp (fun t => decide (t.myId = 0)) = true
      ∧ bad.portState 2 = 0 ∧ bad.rf (rtPg + 0x108) 31 31 = 1
      ∧ nxt (.fabRetrain 2 { noTrain with done := true } [] [] 0) bad (fun t => decide (t = bad)) = true := by decide +kernel

/-! ### Registers and the stroke -/

/-- A host port that owns core 0's context. -/
theorem test_register_writes :
    powered.mayWrite .qa (corePg 0 + 0x400) ∧ powered.mayWrite .qa (corePg 0 + 0x258)
      ∧ (rowOf (locOf (corePg 0 + 0x400))).isSome = true ∧ (rowOf (locOf (corePg 0 + 0x258))).isSome = true
      ∧ (rowOf (locOf (corePg 0 + 0x210))).isSome = true
      ∧ nxt (.registerWrite .qa (corePg 0 + 0x210) false 0x12345) powered (fun t => decide (t.rd (corePg 0 + 0x210) = 0x12340)) = true
      ∧ nxt (.registerWrite .qa (corePg 0 + 0x258) false 0xFF) (powered.wr (corePg 0 + 0x258) 0x3F) (fun t => decide (t.rd (corePg 0 + 0x258) = 0)) = true
      ∧ nxt (.registerWrite .qa (corePg 0 + 0x400) false 0) powered (fun t => decide (t.rd (corePg 0 + 0x400) = 0xA03F0000 ∧ t.rdPend (corePg 0 + 0x400) = 0)) = true
      ∧ nxt (.registerWrite .mgmt (corePg 0 + 0x211) false 7) powered (fun t => decide (t = powered)) = true
      ∧ nxt (.registerWrite .qa (corePg 0 + 0x214) true 7) powered (fun t => decide (t.rf (qPg .qa + 0x110) 31 0 = 1 ∧ t.rd (corePg 0 + 0x214) = powered.rd (corePg 0 + 0x214))) = true
      ∧ powered.admits .qb (corePg 0 + 0x400) true = false ∧ powered.dark (locOf (corePg 0 + 0x400)) = false
      ∧ (powered.writeReg .qb (corePg 0 + 0x400) 0).rf (modPg 6 0 + 0x168) 31 0 = 1 := by decide +kernel

/-- Unit code 0x3F of a block is reserved: nothing happens there (R24). -/
theorem test_unimplemented_page :
    pageRows (locOf (regionAddr 1 2 0x3F 0 8)) = none ∧ regionAddr 1 2 0x3F 0 8 < 2 ^ 33 ∧ regionAddr 1 2 0x3F 0 8 % 8 = 0
      ∧ nxt (.registerWrite .mgmt (regionAddr 1 2 0x3F 0 8) false 7) powered (fun t => decide (t = powered)) = true := by decide +kernel

/-- STROKE_COUNT 3 · 2^32 + 5: its low read latches 3, its high read empties the latch; 2^40 − 1 is followed by 0 (R36). -/
theorem test_stroke_count :
    let s := powered.wr64 (genPg + 0x108) (3 * 2 ^ 32 + 5)
    s.gen.acquired = false ∧ (powered.wr64 (genPg + 0x108) (2 ^ 40 - 1)).stroke = 2 ^ 40 - 1
      ∧ nxt (.strokeCountLoRead .qb) s (fun t => decide (t.out = [.value .qb (genPg + 0x108) 5] ∧ t.latch .qb = some 3 ∧ t.latch .qa = none)) = true
      ∧ nxt (.strokeCountHiRead .qb) (s.setLatch .qb (some 2)) (fun t => decide (t.out = [.value .qb (genPg + 0x10C) 2] ∧ t.latch .qb = none)) = true
      ∧ ((powered.wr64 (genPg + 0x108) (2 ^ 40 - 1)).stepCount).stroke = 0 := by decide +kernel

/-- COMMIT with COMMIT_AT 9 in stroke 5 arms stroke 9; with it in the past, the seam of this stroke, or of the next once it has
run; an armed one is not retargeted; the commit takes a pending bit (R47 to R49). -/
theorem test_commit :
    let s := powered.wr64 (genPg + 0x108) 5
    let armed : State := { s with gen := { armed := some 9 } }
    s.mayWrite .mgmt (genPg + 0x110) ∧ s.mayWrite .mgmt (genPg + 0x128) ∧ s.gen.armed = none ∧ armed.mayWrite .mgmt (genPg + 0x128)
      ∧ ([9, 5, 3, 0].map (fun k => nxt (.commit .mgmt) (s.wr64 (genPg + 0x128) k) (fun t => t.genBit 2 && decide (t.gen.armed = some (max k 5))))) = [true, true, true, true]
      ∧ nxt (.commit .mgmt) { s with gen := { seamDone := true } } (fun t => decide (t.gen.armed = some 6)) = true
      ∧ ([9, 5, 3].map (fun k => nxt (.commit .mgmt) (s.wr64 (genPg + 0x128) k) (fun t => t.genBit 8))) = [false, false, true]
      ∧ nxt (.commitAtWrite .mgmt .lo (2 ^ 32 + 12)) s (fun t => decide (t.rd64 (genPg + 0x128) = 12)) = true
      ∧ nxt (.commitAtWrite .mgmt .hi 3) s (fun t => decide (t.rd64 (genPg + 0x128) = 3 * 2 ^ 32)) = true
      ∧ nxt (.commitAtWrite .mgmt .both 12) armed (fun t => t.genBit 9 && decide (t.gen.armed = some 9 ∧ t.rd64 (genPg + 0x128) = 0)) = true
      ∧ nxt (.commitAtWrite .mgmt .both 12) s (fun t => decide (t.rd64 (genPg + 0x128) = 12)) = true
      ∧ (rowOf (locOf (corePg 0 + 0x400))).isSome = true
      ∧ (powered.commitOne (corePg 0 + 0x400) 0x80000005).rd (corePg 0 + 0x400) = 0x80000005 := by decide +kernel

/-- The hypotheses of the seam and the boundary. -/
theorem test_seam_and_boundary :
    let s : State := { powered with gen := { running := true } }
    s.gen.running = true ∧ s.aon.crystal = true ∧ s.gen.seamDone = false ∧ s.gen.armed = none ∧ s.gen.acquired = false
      ∧ nxt .strokeBoundary { s with gen := { s.gen with seamDone := true } } (fun t => decide (t.gen.base = 1600000 ∧ t.stroke = 1) && !t.gen.seamDone) = true
      ∧ (∀ b ∈ [true, false], nxt .strokeBoundary { s with gen := { s.gen with seamDone := true, armed := some 0, armedAt := b } }
          (fun t => decide (t.gen.armed = some (if b then 0 else 1))) = true)
      ∧ powered.rf (corePg 0 + 0x1C) 2 2 = 0 ∧ powered.lvlSuppresses (corePg 0) 2 = false ∧ 0 / 2 ^ 16 < seam48
      ∧ (let a := powered.emitCore 0 2 2 0x10 0 0
         let b := a.emitCore 0 2 2 0x10 (seam48 * 2 ^ 16) 0
         a.recQ.length = 1 ∧ b.recQ.length = 2 ∧ (b.emitCore 0 2 2 0x10 (seam48 * 2 ^ 16) 0).recQ.length = 2)
      ∧ s.stroke % max 1 (s.winParOf 3).len = 0
      ∧ nxt (.repWindowBoundary 3 false 0) (s.wr (rcPg 3 0 + 0x100) 77) (fun t => decide ((t.winParOf 3).len = 77)) = true
      ∧ nxt (.repWindowBoundary 3 true 0) (s.wr (rcPg 3 0 + 0x100) 77) (fun t => decide ((t.winParOf 3).len = 77 ∧ t.rf (modPg 9 0 + 0x110) 31 31 = 1)) = true := by decide +kernel

/-- STROKE_IN is the active source. -/
def onPin : State := powered.wf genStat 1 0 2

/-- An edge too soon is counted; the first accepted one of an acquisition, 1,000 ns before the boundary, lengthens the next stroke
by T_s − e; a lost source leaves holdover (R39, R40). -/
theorem test_stroke_pin :
    let s := (onPin.setGenBit 6 true)
    let last : State := { s with gen := { lastEdge := some 100 } }
    onPin.srcActive = 2 ∧ 2 * (last.gen.base + 900 - 100) < last.ts16 ∧ s.gen.lastEdge = none ∧ s.genBit 6 = true ∧ s.gen.acquired = false
      ∧ s.gen.extend = none
      ∧ nxt (.strokeInEdge 900) last (fun t => decide (t.rf (genPg + 0x124) 31 0 = 1)) = true
      ∧ nxt (.strokeInEdge 1584000) s (fun t => decide (t.gen.extend = some (1600000 - 16000))) = true
      ∧ last.gen.since + 4 * last.ts16 ≤ last.gen.base + 16 * 500000 ∧ 100 + 4 * last.ts16 ≤ last.gen.base + 16 * 500000
      ∧ nxt (.strokeInLost 500000) last (fun t => t.genBit 3 && decide (t.srcActive = 0)) = true := by decide +kernel

/-- The parent is at port 2, which is up. -/
def child : State :=
  { linkUp with girth0 := { root := false, parent := 2 }, gen := { girthSilent := 64 }, time := { heard := true, exch := 7, t1 := 100, t2 := 260, t3 := 300 } }

/-- SYNC 7 of stroke 3 from module 1, a REQ, and a RESP (R281). -/
def sync7 : BitVec 256 := mkBlock (5 + 3 * 2 ^ 16 + 100 * 2 ^ 48 + 7 * 2 ^ 80 + 1 * 2 ^ 96)
def req7 : BitVec 256 := mkBlock (5 + 1 * 2 ^ 8 + 3 * 2 ^ 16 + 7 * 2 ^ 80)
def resp7 : BitVec 256 := mkBlock (5 + 2 * 2 ^ 8 + 440 * 2 ^ 48 + 7 * 2 ^ 80)

/-- A block of a timing KIND has been sent on port 2. -/
def sentKind (t : State) (k : Nat) : Bool := t.out.any (fun o => match o with | .block 2 b => decide (blk b 9 8 = k) | _ => false)

theorem test_girth_meets :
    child.portUp 2 = true ∧ child.isParentPort 2 = true ∧ child.girthChild = true ∧ 64 ≤ child.gen.girthSilent
      ∧ blockOk sync7 = true ∧ blockOk req7 = true ∧ blockOk resp7 = true ∧ blk sync7 7 0 = 5 ∧ blk req7 7 0 = 5 ∧ blk resp7 7 0 = 5
      ∧ blk sync7 9 8 = 0 ∧ blk req7 9 8 = 1 ∧ blk resp7 9 8 = 2
      ∧ child.time.heard = true ∧ blk resp7 95 80 = child.time.exch
      ∧ (child.wf genStat 1 0 1).srcActive = 1 ∧ (child.wf genStat 1 0 1).genBit 6 = false := by decide +kernel

/-- The REQ names the child's own stroke 0, not the parent's 3 (R281). -/
theorem test_girth_sync : nxt (.timeSync 2 sync7 260) child (fun t => decide (t.time.exch = 7 ∧ t.time.t1 = 100)
    && t.out.any (fun o => match o with | .block 2 b => decide (blk b 9 8 = 1 ∧ blk b 47 16 = 0) | _ => false)) = true := by decide +kernel

/-- A SYNC or RESP by a port in another direction than the parent's changes nothing (R281). -/
theorem test_girth_stranger :
    let s := child.wf (fabPg 4 + 0x100) 31 28 2
    s.portUp 4 = true ∧ s.isParentPort 4 = false ∧ nxt (.timeSync 4 sync7 260) s (fun t => decide (t.time = s.time ∧ t.out = s.out)) = true
      ∧ nxt (.timeResp 4 resp7 260) s (fun t => decide (t.time = s.time ∧ t.out = s.out)) = true := by decide +kernel

theorem test_girth_req : nxt (.timeReq 2 req7 300) child (fun t => sentKind t 2) = true := by decide +kernel

/-- The delay is (160 + 140) / 2 (R281). -/
theorem test_girth_resp : nxt (.timeResp 2 resp7 500) child (fun t => decide (t.rd (girthPg + 0x10C) = 150)) = true := by decide +kernel

/-- Sixty-four strokes of silence lose the source (R39). -/
theorem test_girth_lost : nxt (.girthSourceLost 0) (child.wf genStat 1 0 1) (fun t => t.genBit 3 && decide (t.srcActive = 0)) = true := by
  decide +kernel

/-! ### Host ports -/

/-- Port QA is up at ×16; context 0 is ACTIVE there and owns page 0 of region 1. -/
def hostUp : State :=
  let s := ((powered.wf (qPg .qa + 0x100) 31 28 2).wf (ctxPg 0 + 0x114) 31 31 1).wf (ctxPg 0 + 0x100) 31 31 1
  s.wrByte (ownerAddr 1 0) 0x40

def zeroSlots : List (BitVec 128) := List.replicate 15 0

/-- A flit of a SEQ, IDLE, with its CRC. -/
def flitOf (seq : Nat) : BitVec 128 := BitVec.ofNat 128 (seq + 2 ^ 25 + flitCrc (seq + 2 ^ 25) zeroSlots * 2 ^ 64)

/-- A flit that fails its CRC, the expected one, and one received before (R222, R359). -/
theorem test_flits :
    zeroSlots.length = 15 ∧ hostUp.qUp .qa = true ∧ (0 : BitVec 128).toNat / 2 ^ 64 = 0 ∧ flitCrc 1 zeroSlots ≠ 0
      ∧ (flitOf 0).toNat / 2 ^ 64 = flitCrc ((flitOf 0).toNat % 2 ^ 64) zeroSlots ∧ (flitOf 0).toNat % 2 ^ 64 % 4096 = 0
      ∧ (flitOf 4095).toNat / 2 ^ 64 = flitCrc ((flitOf 4095).toNat % 2 ^ 64) zeroSlots ∧ (flitOf 4095).toNat % 2 ^ 64 % 4096 = 4095
      ∧ nxt (.quexonFlitRx .qa (flitOf 0) zeroSlots) hostUp (fun t => decide (t.qa.link.rx = 1)) = true
      ∧ nxt (.quexonFlitRx .qa (flitOf 4095) zeroSlots) hostUp (fun t => decide (t.qa.link.rx = 0)) = true
      ∧ nxt (.quexonFlitRx .qa 1 zeroSlots) hostUp (fun t => t.qa.link.naked && decide (t.rf (qPg .qa + 0x10C) 31 0 = 1)) = true := by
  decide +kernel

/-- Two flits are not acknowledged. -/
def flitsOut (same : Nat) : State := { hostUp with qa := { link := { unacked := [(7, 0, []), (8, 0, [])], sameReplay := same, lastReplay := 7 } } }

/-- A port sends its unacknowledged flits again, retrains after the fourth replay, trains from DOWN, and counts a failed retrain
(R358, R360). -/
theorem test_quexon_link :
    let res : QTrainResult := { done := true, good := 0xFFFF, peerExp := 0 }
    let no : QTrainResult := { res with done := false }
    nxt (.qReplayTimeout .qa) (flitsOut 0) (fun t => decide (t.out.length = 2 ∧ t.rf (qPg .qa + 0x108) 31 0 = 1)) = true
      ∧ nxt (.qReplayTimeout .qa) (flitsOut 3) (fun t => decide (t.out = [] ∧ t.rf (qPg .qa + 0x100) 31 28 = 4)) = true
      ∧ powered.qLive .qa = false ∧ powered.aon.powered = true ∧ powered.rf (modPg 8 0 + 0x118) 30 30 = 0 ∧ powered.lanesIdle = false ∧ qWidth res.good.toNat = 16
      ∧ nxt (.qRetrain .qa res 0) powered (fun t => t.qUp .qa && decide (t.qa = {})) = true
      ∧ hostUp.qLive .qa = true ∧ hostUp.rf (qPg .qa + 0x100) 11 10 < 2
      ∧ nxt (.qRetrain .qa no 0) hostUp (fun t => decide (t.rf (qPg .qa + 0x100) 31 28 = 4 ∧ t.rf (qPg .qa + 0x100) 11 10 = 1)) = true := by
  decide +kernel

/-- Port QA is up without a context and owns hitch 4; its agent has a D1 session in the second state. -/
def portOnly (d1 : Bool) : State :=
  let s := (powered.wf (qPg .qa + 0x100) 31 28 2).wf (hitchAddr 4) 1 0 1
  { s with dbg := if d1 then some { level := 1, agent := .qa, left := 9 } else none, cache := [(3, { st := 2, data := 0 })] }

/-- A port that goes DOWN closes its agent's session and frees what it held (R379). -/
theorem test_quexon_down :
    (∀ b ∈ [true, false], (portOnly b).qLive .qa = true) ∧ (∀ c < 16, (portOnly false).ctxActive c = false)
      ∧ (portOnly false).qa.reqs = [] ∧ (portOnly false).dbg = none
      ∧ nxt (.quexonLinkDown .qa 0 0) (portOnly true) (fun t => decide (t.dbg = none)) = true
      ∧ nxt (.quexonLinkDown .qa 0 0) (portOnly false) (fun t => !t.qLive .qa && decide (t.rf (hitchAddr 4) 1 0 = 0 ∧ t.cache = [])) = true
      ∧ nxt (.qLinkLoss .qa 0 { done := false, good := 0, peerExp := 0 } 0) (portOnly false) (fun t => !t.qLive .qa) = true := by decide +kernel

/-- The line of companion address 0x180 is in a state of the cache. -/
def cached (st : Nat) : State := { hostUp with cache := if st = 0 then [] else [(3, { st := st, data := 9 })] }

/-- Snoops of a line in each state (R361). -/
theorem test_snoops :
    lineKey .qa 0x180 = 3 ∧ (∀ st < 4, (Tbl.get {} (cached st).cache (lineKey .qa 0x180) : CLine).st = st ∧ (cached st).qUp .qa = true)
      ∧ (∀ st < 4, nxt (.snpInv .qa 0x180 5) (cached st) (fun t => decide (t.cache = []
          ∧ t.hasSent .qa (if st = 3 then { op := 0x1A, addr := 0x180, tag := 5, data := [9] } else { op := 0x18, addr := 0x180, tag := 5 }))) = true)
      ∧ nxt (.snpData .qa 0x180 5) (cached 2) (fun t => decide (t.cache = [(3, { st := 1, data := 9 })]
          ∧ t.hasSent .qa { op := 0x19, addr := 0x180, tag := 5 })) = true := by decide +kernel

/-- A permitted and a refused address of module memory, and one whose channel has a row of class 1 waiting (R188, R363); an aligned and a
misaligned register address (R25, R362). -/
theorem test_host_accesses :
    let busy : State := { hostUp with reqs := [{ xfer := 4, idx := 0, addr := 2 ^ 34 + 256, ctx := some 0, fabric := false, core := some 0 }] }
    hostUp.hostHome .qa (2 ^ 34 + 256) = some (1, 256) ∧ hostUp.hostHome .qa (2 ^ 34 + 2 ^ 21) = none
      ∧ hostUp.mcBusy (mcOf 1 256) = false ∧ hostUp.memHeld = false ∧ hostUp.class2 = [] ∧ busy.mcBusy (mcOf 1 256) = true
      ∧ busy.hostHome .qa (2 ^ 34 + 256) = some (1, 256)
      ∧ nxt (.memWr .qa (2 ^ 34 + 256) 5 0 0 9) hostUp (fun t => decide (t.memRow (2 ^ 34 + 256) = 9 ∧ t.hasSent .qa { op := 0x30, addr := 0, tag := 5 })) = true
      ∧ nxt (.memWr .qa (2 ^ 34 + 256) 5 0 0 9) busy (fun t => decide (t.mem = [] ∧ t.class2.map (·.1) = [mcOf 1 256])) = true
      ∧ nxt (.memWr .qa (2 ^ 34 + 2 ^ 21) 5 0 0 9) hostUp (fun t => decide (t.mem = [] ∧ t.rf (qPg .qa + 0x114) 31 0 = 1
          ∧ t.hasSent .qa { op := 0x30, addr := 0, tag := 5, status := 1 })) = true
      ∧ mmioOk (genPg + 0x100) 4 = true ∧ mmioOk (genPg + 0x101) 4 = false
      ∧ nxt (.mmioRd .qa (genPg + 0x100) 4 5) hostUp (fun t => decide (t.hasSent .qa { op := 0x31, addr := 0, tag := 5, grant := 4, data := [100000] })) = true
      ∧ nxt (.mmioWr .qa (corePg 0 + 0x210) 4 5 0x12345) hostUp (fun t => decide (t.rd (corePg 0 + 0x210) = 0x12340
          ∧ t.hasSent .qa { op := 0x30, addr := 0, tag := 5 })) = true
      ∧ nxt (.mmioRd .qa (genPg + 0x101) 4 5) hostUp (fun t => decide (t.rf (qPg .qa + 0x110) 31 0 = 1
          ∧ t.hasSent .qa { op := 0x31, addr := 0, tag := 5, grant := 4, data := [0xFFFFFFFF] })) = true := by decide +kernel

/-- A request of the module with TAG 5, for a reason; one step in copy-out of slot 2. -/
def asked (why : QWhy) : State :=
  { hostUp with qa := { reqs := [{ tag := 5, addr := 0x180, why := why }] }, engines := [(0, { copies := [{ slot := 2, open_ := 3, status := 0, irq := false }] })] }

/-- Answers to a slot read, a copy-out write and an event queue write (R361, R376, R378). -/
theorem test_host_answers :
    ((asked (.slotRead 0 7)).qa.reqs.find? (fun r => decide (r.tag = 5))).map (·.why) = some (.slotRead 0 7)
      ∧ (asked (.slotRead 0 7)).ctxActive 0 = true ∧ ((asked (.slotRead 0 7)).ctxEng 0).port = .qa
      ∧ ((asked (.copyOut 0 2)).ctxEng 0).copies = [{ slot := 2, open_ := 3, status := 0, irq := false }]
      ∧ nxt (.cmpData .qa 5 2 0 9) (asked (.slotRead 0 7)) (fun t => decide ((t.ctxEng 0).line 7 = 9 ∧ t.cache = [(3, { st := 2, data := 9 })])) = true
      ∧ nxt (.quexonCmp .qa 5 0) (asked (.copyOut 0 2)) (fun t => decide ((t.ctxEng 0).copies.map (·.open_) = [2])) = true
      ∧ nxt (.quexonCmp .qa 5 0) (asked .evq) (fun t => decide (t.rf (qPg .qa + 0x128) 7 0 = 1)) = true := by decide +kernel

/-- The owner's write of 0 frees a hitch, others count; a read of a free hitch claims it (R366, R367). -/
theorem test_hitches :
    let s := powered.wf (hitchAddr 4) 1 0 2
    s.rf (hitchAddr 4) 1 0 = hitchId .qb ∧ s.rf (hitchAddr 4) 1 0 ≠ hitchId .qa
      ∧ nxt (.hitchRelease .qb 4 0) s (fun t => decide (t.rf (hitchAddr 4) 1 0 = 0)) = true
      ∧ nxt (.hitchRelease .qa 4 0) s (fun t => decide (t.rf (hitchAddr 4) 1 0 = 2 ∧ t.rf (modPg 1 0 + 0x540) 31 0 = 1)) = true
      ∧ nxt (.hitchRelease .qb 4 1) s (fun t => decide (t.rf (hitchAddr 4) 1 0 = 2 ∧ t.rf (modPg 1 0 + 0x540) 31 0 = 1)) = true
      ∧ nxt (.hitchClaim .qa 4) s (fun t => decide (t.out = [.value .qa (hitchAddr 4) 2] ∧ t.regs = s.regs)) = true
      ∧ nxt (.hitchClaim .qa 4) powered (fun t => decide (t.out = [.value .qa (hitchAddr 4) 0] ∧ t.rf (hitchAddr 4) 1 0 = 1)) = true := by
  decide +kernel

/-- A valid partition entry keeps its value; an invalid one of a present core takes a valid one (R369). -/
theorem test_partition_entry :
    powered.mayWrite .mgmt (rcPg 0 1 + 0x100) ∧ powered.rdByte (rcPg 0 1 + 0x100) / 128 = 1 ∧ powered.rdByte (rcPg 0 1 + 0x101) / 128 = 0
      ∧ powered.physOf 1 = some 1 ∧ (powered.core 1).zeroing = false
      ∧ nxt (.partitionEntryWrite .mgmt 0 0 0x8584) powered (fun t => decide (t.rdByte (rcPg 0 1 + 0x100) = 0x80 ∧ t.rdByte (rcPg 0 1 + 0x101) = 0x85)) = true := by
  decide +kernel

/-- Context 0's slot 3 shows POSTED; its step of slot 2 has copied out, and the line of slot 2 is held in state E. -/
def slotted : State :=
  { hostUp with
    engines := [(0, { lines := [(3, 1)], taken := [2], copies := [{ slot := 2, open_ := 0, status := 0, irq := false, due := true }] })],
    cache := [(2, { st := 2, data := 2 })] }

/-- The cut chooses slot 3 when the entry ring takes its row, and DONE of slot 2 is set and counted (R373, R376). -/
theorem test_slots :
    slotted.ctxActive 0 = true ∧ (∀ d < 16, 0 < d → (slotted.cutCtx 5 0).ctxActive d = false) ∧ slotted.pickSlot 0 = some 3
      ∧ (slotted.ctxEng 0).copies = [{ slot := 2, open_ := 0, status := 0, irq := false, due := true }]
      ∧ 2 ≤ (Tbl.get {} slotted.cache (lineKey .qa ((slotted.ctxEng 0).slotAddr 2)) : CLine).st
      ∧ nxt (.doneWrite 0) slotted (fun t => decide ((t.ctxEng 0).taken = [] ∧ (t.ctxEng 0).copies = [] ∧ t.rd (modPg 4 0 + 0x200) = 1
          ∧ t.cache = [(2, { st := 3, data := 3 })])) = true := by decide +kernel

/-- Vector 4 of port QA is masked and holds a notification (R377). -/
theorem test_vector_mask :
    let s := (hostUp.wr (qPg .qa + 0x44C) 3).wr (qPg .qa + 0x440) 0x1000
    s.mayWrite .mgmt (qPg .qa + 0x44C) ∧ s.rf (qPg .qa + 0x44C) 1 1 = 1 ∧ s.qLive .qa = true
      ∧ nxt (.vecMaskWrite .mgmt .qa 4 1) s (fun t => decide (t.rf (qPg .qa + 0x44C) 0 0 = 1 ∧ t.out = [])) = true
      ∧ nxt (.vecMaskWrite .mgmt .qa 4 0) s (fun t => decide (t.rf (qPg .qa + 0x44C) 1 0 = 0)
          && t.out.any (fun o => match o with | .quexon _ op addr _ _ _ _ => decide (op = 7 ∧ addr = 0x1000) | _ => false)) = true := by
  decide +kernel

/-! ### Security and debug -/

/-- A state in the field whose owner key is installed, and a token, a LIFECYCLE, an OWNER_KEY and a REVOKE object for it. -/
def fielded : State := { powered with flash := { lifecycle := 1, owner := some 7 } }

def secObj (type arg signer : Nat) : SecObject :=
  { type := type, arg := arg, signer := signer, agent := 3, deviceId := 1, ctx := 0, ctxInst := 0, nonce := 0,
    duration := if type = 1 then 60 else 0, key := if type = 3 then 9 else 0, sig := 0, clean := true }

/-- Their layouts are well formed, an owner's signer is needed for a token in the field, and an object of another command's type is
malformed (R386 to R388). -/
theorem test_signed_objects :
    secMalformed 1 (secObj 1 1 4) = false ∧ secMalformed 2 (secObj 2 2 4) = false ∧ secMalformed 3 (secObj 3 0 4) = false
      ∧ secMalformed 4 (secObj 4 2 0) = false ∧ fielded.tokenRule (secObj 1 1 4) = 0 ∧ fielded.tokenRule (secObj 1 1 0) = 2
      ∧ fielded.tokenRule (secObj 1 3 4) = 5 ∧ fielded.lifecycleRule (secObj 2 2 4) = 0 ∧ fielded.ownerRule (secObj 3 0 4) = 0
      ∧ secMalformed 2 (secObj 2 131 0) = false ∧ ({ fielded with flash := { lifecycle := 3 } } : State).lifecycleRule (secObj 2 131 0) = 0
      ∧ secMalformed 1 (secObj 2 1 4) = true ∧ secMalformed 4 (secObj 4 4 4) = true := by decide +kernel

/-- A signature of zero is below the group order: it is good when the primitive verifies it. -/
theorem zero_sig_ok (k : BitVec 256) (m : List (BitVec 8)) (h : Config.ed25519Verify k m 0 = true) : sigOk k m 0 = true := by
  have h0 : decide ((0 : BitVec 512).toNat / 2 ^ 256 < groupOrder) = true := by decide +kernel
  show (decide ((0 : BitVec 512).toNat / 2 ^ 256 < groupOrder) && Config.ed25519Verify k m 0) = true
  rw [h0, h]; rfl

/-- Whenever the manifest and the owner's signature verify, which the primitives of Config decide (log entry 9), a token of that
state passes every check of R383. -/
theorem test_accepted_token (h1 : fielded.manifestOk = true)
    (h2 : Config.ed25519Verify 7 (secBytes (secObj 1 1 4)) 0 = true) : fielded.secCheck .mgmt 1 (secObj 1 1 4) = 0 := by
  have hk : fielded.signerKey 1 (secObj 1 1 4) = some 7 := by decide +kernel
  have hd : (secObj 1 1 4).deviceId = fielded.flash.deviceId := by decide +kernel
  have hn : (secObj 1 1 4).nonce.toNat = fielded.nonceNow := by decide +kernel
  have ha : (secObj 1 1 4).agent = hitchId .mgmt := by decide
  have hs : sigOk 7 (secBytes (secObj 1 1 4)) 0 = true := zero_sig_ok _ _ h2
  simp only [State.secCheck, h1, hk, hd, hn, ha, show (secObj 1 1 4).sig = 0 from rfl, hs]
  simp

/-- A session of level and agent, with time left; core 0 halted or not. -/
def inSession (level left : Nat) (halted : Bool) : State :=
  { powered.modCore 0 (fun c => { c with halted := halted, store := [(8192 + 3, 0x500000001)] }) with
    dbg := some { level := level, agent := .mgmt, ctx := 0, left := left } }

/-- CLOSE, expiry, RUN, STEP and the debug window (R153, R395, R396). -/
theorem test_debug_session :
    let s := inSession 2 1600000 true
    let r := inSession 2 1600000 false
    s.mayWrite .mgmt (corePg 0 + 0x1300) ∧ s.mayWrite .mgmt (corePg 0 + 0x1100) ∧ r.mayWrite .mgmt (corePg 0 + 0x1100)
      ∧ r.mayWrite .mgmt (corePg 0 + 0x1300) ∧ (r.core 0).halted = false ∧ s.d2For 0 = true ∧ s.gen.len = 1600000
      ∧ nxt (.close .mgmt) s (fun t => decide (t.dbg = none ∧ t.rf (mbPg .mgmt + 0x104) 3 0 = 0)) = true
      ∧ nxt (.close .qa) s (fun t => decide (t.dbg = s.dbg ∧ t.rf (mbPg .qa + 0x104) 3 0 = 7)) = true
      ∧ nxt .debugSessionExpire s (fun t => decide (t.dbg = none)) = true
      ∧ nxt (.runCore .mgmt 0) s (fun t => (t.core 0).runPend && !(t.core 0).stepping) = true
      ∧ nxt (.stepCore .mgmt 0) s (fun t => (t.core 0).runPend && (t.core 0).stepping) = true
      ∧ nxt (.dbgSelGo .mgmt 0 0xA0000003) s (fun t => decide (t.rd (corePg 0 + 0x1200) = 1 ∧ t.rd (corePg 0 + 0x1204) = 5)) = true
      ∧ (s.core 0).settled ∧ Tbl.get 0 (s.core 0).upset 8195 = 0 ∧ (s.core 0).halted = true
      ∧ nxt (.dbgSelGo .mgmt 0 0xE0000003) s (fun t => decide (t.rd (corePg 0 + 0x1200) = 0 ∧ t.rf (corePg 0 + 0x1100) 28 28 = 0)) = true
      ∧ nxt (.dbgSelGo .mgmt 0 0xA0000003) r (fun t => decide (t.rd (corePg 0 + 0x1200) = 0 ∧ t.rf (corePg 0 + 0x1100) 28 28 = 1)) = true := by
  decide +kernel

/-- JTAG without the auxiliary supply, with TRST_N low, and without and with a D3 session (R397, R426). -/
theorem test_jtag :
    let s : State := { powered with aon := { aux := true, powered := true }, jtag := true }
    let d : State := { inSession 3 9 false with aon := { aux := true, powered := true } }
    s.aon.aux = true ∧ s.d3Open = false ∧ d.aon.aux = true ∧ d.d3Open = true
      ∧ nxt (.jtagBypass false false) s (fun t => !t.jtag && decide (t.out = [.tdo 1])) = true
      ∧ nxt (.jtagExtest true false false) s (fun t => !t.jtag && decide (t.out = [.tdo 1])) = true
      ∧ nxt (.jtagBypass true true) s (fun t => !t.jtag && decide (t.out = [])) = true
      ∧ nxt (.jtagIdcode false) powered (fun t => decide (t.out = [])) = true := by decide +kernel

/-! ### Pattern loads, zeroisation, assay, healing -/

/-- GO of 5 entries into bank 1 from entry 8 of an image in region 1; into the active bank; too many; and ABORT (R97, R98). -/
theorem test_pattern_load :
    let s := (powered.wr (corePg 0 + 0x210) 0x100).wr (corePg 0 + 0x214) 4
    let l := s.modCore 0 (fun c => { c with loader := some { addr := 2 ^ 34 + 256, bank := 1, first := 8, count := 5 } })
    powered.mayWrite .qa (logPg 0 + 0x218) ∧ s.mayWrite .qa (logPg 0 + 0x218) ∧ l.mayWrite .qa (logPg 0 + 0x218) ∧ s.physOf 0 = some 0
      ∧ (s.core 0).loader = none
      ∧ nxt (.patLoadGo .qa 0 0x90080005) s (fun t => decide ((t.core 0).loader.map (fun l => (l.addr, l.bank, l.first, l.count)) = some (2 ^ 34 + 256, 1, 8, 5))) = true
      ∧ nxt (.patLoadGo .qa 0 0x80080005) s (fun t => decide (t.rf (loadStat 0) 30 28 = 1)) = true
      ∧ nxt (.patLoadGo .qa 0 0x9FFF0005) s (fun t => decide (t.rf (loadStat 0) 30 28 = 2)) = true
      ∧ nxt (.patLoadAbort .qa 0) l (fun t => decide ((t.core 0).loader = none ∧ t.rf (loadStat 0) 31 28 = 6)) = true
      ∧ homeOf (Loader.rowAddr { addr := 2 ^ 34 + 256, bank := 1, first := 8, count := 5 }) = .dram 1 256
      ∧ l.pageOk 1 256 (l.coreCtx 0) false = false ∧ (l.wrByte (ownerAddr 1 0) 0x40).pageOk 1 256 (l.coreCtx 0) false = true
      ∧ l.loadSlot 0 { addr := 2 ^ 34 + 256, bank := 1, first := 8, count := 5 } = true
      ∧ l.class2 = [] ∧ l.mcBusy (mcOf 1 256) = false ∧ l.memHeld = false
      ∧ (let b : State := { l with reqs := [{ xfer := 4, idx := 0, addr := 2 ^ 34 + 256, ctx := some 0, fabric := false, core := some 0 }] }
         (b.mcBusy (mcOf 1 256) = true ∧ b.loadSlot 0 { addr := 2 ^ 34 + 256, bank := 1, first := 8, count := 5 } = true)
           ∧ nxt (.patLoadRow 0 5 0 0) b (fun t => decide (t.class2 = [(mcOf 1 256, .load 0 0 0)] ∧ t.cores = b.cores)) = true)
      ∧ (let b := l.modCore 0 (fun c => { c with outb := [{ id := 1024, pkt := { type := 1, rows := 1 }, need := 1, rows := [some 5] }] })
         b.loadSlot 0 { addr := 2 ^ 34 + 256, bank := 1, first := 8, count := 5 } = false ∧ nxt (.patLoadRow 0 5 0 0) b (fun t => decide (t = b)) = true)
      ∧ (let o := (l.wrByte (ownerAddr 1 0) 0x40).setMemRow (2 ^ 34 + 256) (5 + 6 * 2 ^ 128)
         nxt (.patLoadRow 0 5 0 0) o (fun t => decide (Tbl.get 0 (t.core 0).pmem (4096 + 8) = 5 ∧ Tbl.get 0 (t.core 0).pmem (4096 + 9) = 6
           ∧ (t.core 0).loader = none ∧ t.rf (loadStat 0) 17 17 = 1)) = true)
      ∧ nxt (.patLoadRow 0 5 0 0) l (fun t => decide (t.rf (loadStat 0) 31 28 = 7 ∧ t.rf (corePg 0 + 0x700) 31 0 = 1)) = true := by decide +kernel

/-- A core and a slice that are being zeroised, with a reset that waits for them, and a captured dispute (R154, R296, R349). -/
theorem test_zeroisation :
    let s : State := { powered.modCore 0 (fun c => { c with zeroing := true }) with
      sliceZero := [3], rst := [{ level := 2, origin := 2, ctxMask := 1, cores := [0, 5], slices := [3, 4] }] }
    let d := (powered.wr (corePg 0 + 0x2B8) 0x80000001).wr (corePg 0 + 0x2C0) 9
    (s.core 0).zeroing = true ∧ s.held.contains 0 = false ∧ s.sliceZero.contains 3 = true
      ∧ nxt (.zeroisationComplete (.core 0) 0) s (fun t => !(t.core 0).zeroing && decide (t.rst.map (·.cores) = [[5]])) = true
      ∧ nxt (.zeroisationComplete (.slice 3) 0) s (fun t => decide (t.sliceZero = [] ∧ t.rst.map (·.slices) = [[4]])) = true
      ∧ d.mayWrite .qa (logPg 0 + 0x2B8)
      ∧ nxt (.dispInfoClear .qa 0) d (fun t => decide (t.rd (corePg 0 + 0x2B8) = 0 ∧ t.rd (corePg 0 + 0x2C0) = 0)) = true := by decide +kernel

/-- An image of one segment's golden value 5, in the finest cut; core 0 has its region's turn. -/
def assayed (x : AsyCore) : State :=
  { powered.wr (asyPg + 0x100) 0x80000000 with
    flash := { assay := some { data := [], signer := 0, svn := 0, advance := false, sig := 0, golden := [(0, 7, 5, 0), (0, 61439, 5, 0)] } },
    reserve := [{ data := [], signer := 0, svn := 0, advance := false, sig := 0, golden := [(0, 7, 5, 0), (0, 61439, 5, 0)] }],
    asy := [(0, x)], asyTurn := [(0, some 0)], gen := { running := true } }

/-- A segment starts in slack that holds it (R308, R309). -/
theorem test_assay_start :
    let s := (assayed { seg := 7 }).wf (modPg 8 0 + 0x108) 10 0 1000
    let s0 := (s.reach 0 5).choose 0
    s0.tgtOf 0 = none ∧ s0.asyOn = true ∧ s0.turn 0 = some 0 ∧ s0.eligible 0 = true ∧ s0.segRuns 0 = false
      ∧ (s0.core 0).gated = false ∧ s0.gen.seamDone = false ∧ s0.inSlack 0 = true ∧ 5 + cutLen s0.cut ≤ s0.bodyNow
      ∧ nxt (.assaySegmentStart 0 5 [3] (some 1)) s (fun t => (t.asyCore 0).gained && decide ((t.asyCore 0).running = some 5)) = true := by decide +kernel

/-- The golden value advances or ends a pass; the first mismatch reruns, the second confirms (R311, R312). -/
theorem test_assay_end :
    (∀ k ∈ [7, 61439], ((assayed { seg := k, running := some 5 }).goldenOf 0 (assayed { seg := k, running := some 5 }).cut k).1 = 5)
      ∧ nxt (.assaySegmentEnd 0 5 0) (assayed { seg := 7, running := some 5 }) (fun t => decide ((t.asyCore 0).seg = 8 ∧ (t.asyCore 0).running = none)) = true
      ∧ nxt (.assaySegmentEnd 0 5 0) (assayed { seg := 61439, running := some 5 }) (fun t => decide ((t.asyCore 0).seg = 0 ∧ (t.asyCore 0).passes = 1)) = true
      ∧ nxt (.assaySegmentEnd 0 6 0) (assayed { seg := 7, running := some 5 }) (fun t => (t.asyCore 0).rerun && decide ((t.asyCore 0).fails = 1 ∧ t.heals = [])) = true
      ∧ (assayed {}).physState 0 ≠ 2 ∧ (assayed { running := some 5 }).tgtOf 0 = none
      ∧ nxt (.assaySegmentEnd 0 6 0) (assayed { seg := 7, running := some 5, rerun := true }) (fun t => decide (t.heals.map (·.1) = [0]) && (t.asyCore 0).failed) = true := by
  decide +kernel

/-- A core that has run no pass for six hours and a second, a turn of 65,536 strokes without a segment, and targeted assays
(R313 to R315). -/
theorem test_assay_manager :
    let s : State := { assayed { idle := 65536 } with aon := { powered := true, time := 21601 * 16000000000 } }
    let t := fun l : Nat => (if l = 9 then s.wf (xbarPg 1 + 0x100) 7 4 0xF else s)
    21600 * 16000000000 < s.aon.time + 16 * 0 - s.debtFrom 0 ∧ (s.asyCore 0).overdue = false
      ∧ nxt (.assayOverdue 0 0) s (fun t => (t.asyCore 0).overdue) = true
      ∧ s.turn 0 = some 0 ∧ 65536 ≤ (s.asyCore 0).idle
      ∧ nxt (.assayTurnYield 0) s (fun t => decide (t.turn 0 = none ∧ (t.asyCore 0).idle = 0)) = true
      ∧ s.mayWrite .mgmt (asyPg + 0x108) ∧ (t 9).mayWrite .mgmt (asyPg + 0x108) ∧ (t 9).physOf 9 = none ∧ s.physOf 9 = some 11 ∧ s.heals = []
      ∧ s.reserve ≠ [] ∧ s.asyTgt = none
      ∧ nxt (.asyTgtGo .mgmt 0x80000009) (t 9) (fun t => decide (t.rf (asyPg + 0x10C) 30 28 = 3 ∧ t.asyTgt = none)) = true
      ∧ nxt (.asyTgtGo .mgmt 0x80000009) s (fun t => decide (t.asyTgt.map (fun y => (y.gp, y.cls, y.lcore)) = some (11, 0, 9) ∧ t.asyTgt.bind (·.miss) = none ∧ t.turn 0 = none)) = true := by
  decide +kernel

/-- A targeted assay of core 0 whose segments 7 and 8 are still to run: the golden value and another one; then its end, passed and
failed (R315). -/
def targeted (left : List Nat) (miss : Option (Nat × BitVec 64 × Nat)) : State :=
  { assayed { running := some 5, tgt := true } with asyTurn := [], asyTgt := some { gp := 0, cls := 0, lcore := 0, left := left, miss := miss } }

theorem test_targeted_assay :
    (targeted [7, 8] none).tgtOf 0 = some { gp := 0, cls := 0, lcore := 0, left := [7, 8], miss := none }
      ∧ ((targeted [7, 8] none).goldenOf 0 (targeted [7, 8] none).cut 7).1 = 5
      ∧ nxt (.assaySegmentEnd 0 5 0) (targeted [7, 8] none) (fun t => decide (t.asyTgt.map (fun y => (y.left, y.miss)) = some ([8], none))) = true
      ∧ nxt (.assaySegmentEnd 0 6 0) (targeted [7, 8] none) (fun t => decide (t.asyTgt.map (fun y => (y.left, y.miss)) = some ([8], some (7, 3, 0)))) = true
      ∧ nxt (.targetedAssayDone 0) (targeted [7] none) (fun t => decide (t.asyTgt = (targeted [7] none).asyTgt)) = true
      ∧ nxt (.targetedAssayDone 0) (targeted [] none) (fun t => decide (t.asyTgt = none ∧ t.rf (asyPg + 0x10C) 31 28 = 1 ∧ t.heals = [])) = true
      ∧ (targeted [] none).physState 0 ≠ 2
      ∧ nxt (.targetedAssayDone 0) (targeted [] (some (7, 3, 0))) (fun t => decide (t.asyTgt = none ∧ t.rf (asyPg + 0x10C) 31 28 = 2 ∧ t.heals.map (·.1) = [0])) = true := by
  decide +kernel

/-- Core 0 waits for its heal, and its block has spares 8 and 9 (R319, R320). -/
def healing (checker : Bool) : State := { powered with heals := [(0, 1, checker)] }

theorem test_heal :
    let busy := (healing false).modCore 8 (fun c => { c with zeroing := true })
    (∀ b ∈ [true, false], (healing b).heals.find? (fun h => decide (h.1 / 10 = 0 / 10)) = some (0, 1, b) ∧ (healing b).rst = [] ∧ (healing b).physState 0 ≠ 2
        ∧ (healing b).logOf 0 = some 0 ∧ (healing b).sparesOf 0 0 = [8, 9] ∧ (healing b).spareBusy 8 = false)
      ∧ nxt (.heal 0 0) (healing false) (fun t => decide (t.physState 0 = 2 ∧ t.physOf 0 = some 8 ∧ t.physState 8 = 0 ∧ t.heals = [])) = true
      ∧ busy.spareBusy 8 = true ∧ busy.sparesOf 0 0 = [8, 9] ∧ nxt (.heal 0 0) busy (fun t => decide (t.heals = busy.heals ∧ t.physState 0 ≠ 2)) = true
      ∧ nxt (.heal 0 0) { healing true with flash := { checkers := [(0, 2)] } } (fun t => decide (t.physState 0 = 2 ∧ t.rf (modPg 9 0 + 0x110) 31 31 = 1)) = true
      ∧ nxt (.healCfgTimeout 0) (healing false) (fun t => t.cfgLost.contains 0) = true := by decide +kernel

/-! ### Resets, bring-up, supplies -/

/-- Context 0 is ACTIVE, nothing is in reset. -/
theorem test_reset_scopes :
    hostUp.aon.powered = true ∧ hostUp.rst = [] ∧ hostUp.physOf 0 = some 0 ∧ hostUp.capturing = false ∧ hostUp.ctxBlocks 0 = [0]
      ∧ (∀ k ∈ [1, 2, 3, 4, 5], hostUp.rst.any (fun j => j.covers (hostUp.rstJob (hostUp.rstGo k 0 0 {}))) = false) := by decide +kernel

/-- A context reset ends context 0, joins one in progress, or waits for a capture; an engine reset begins zeroisation; a stuck partition or
chip reset holds its blocks, another releases them; a stuck escalated one of two resets in progress (R348 to R353, R355). -/
theorem test_resets :
    let cap := hostUp.wf (dumpPg + 0x104) 31 31 1
    let busy : State := { hostUp with rst := [{ level := 4, origin := 4, ctxMask := 1, cores := [0] }] }
    cap.capturing = true ∧ cap.rst.any (fun j => j.covers (cap.rstJob (cap.rstGo 1 0 0 {}))) = false
      ∧ busy.rst.any (fun j => j.covers (busy.rstJob (busy.rstGo 1 0 0 {}))) = true
      ∧ nxt (.contextReset .mgmt 0 false {}) hostUp (fun t => !t.ctxActive 0 && decide (t.rf (ctxPg 0 + 0x100) 31 31 = 0)) = true
      ∧ nxt (.contextReset .mgmt 0 false {}) busy (fun t => decide (t = busy)) = true
      ∧ nxt (.contextReset .mgmt 0 true {}) cap (fun t => t.ctxActive 0 && decide (t.dumpWait.length = 1)) = true
      ∧ nxt (.engineReset .mgmt 0 false {}) hostUp (fun t => (t.core 0).zeroing && t.rst.any (fun j => decide (j.level = 2 ∧ j.cores = [0]))) = true
      ∧ nxt (.partitionReset .mgmt 0 false { stuck := true }) hostUp (fun t => t.held.contains 0) = true
      ∧ nxt (.partitionReset .mgmt 0 false {}) { hostUp with held := [0] } (fun t => !t.held.contains 0) = true
      ∧ nxt (.chipComputeReset .mgmt false { stuck := true }) hostUp (fun t => t.memHeld && decide (t.held.length = 512)) = true
      ∧ nxt (.powerCycle .mgmt false {}) hostUp (fun t => t.memHeld && decide (t.rf (rstPg + 0x104) 31 28 = 13)) = true
      ∧ nxt (.resetEscalated 1 0 { stuck := true }) { hostUp with rst := [{ level := 2, origin := 2, ctxMask := 2, cores := [9] },
          { level := 3, origin := 3, ctxMask := 1, cores := [0] }] } (fun t => t.memHeld) = true := by
  decide +kernel

/-- Ten heartbeats are missed; hearth 0 or 1 serves (R354). -/
theorem test_hearths :
    let s : State := { powered with aon := { aux := true, powered := true, missed := 10 } }
    10 ≤ s.aon.missed ∧ s.rf (rstPg + 0x114) 0 0 = 0 ∧ (s.wf (rstPg + 0x114) 0 0 1).rf (rstPg + 0x114) 0 0 = 1
      ∧ nxt (.heartbeat false) s (fun t => decide (t.aon.missed = 11 ∧ t.rf (rstPg + 0x114) 1 1 = 0)) = true
      ∧ nxt (.hearthTakeover 0) s (fun t => t.flash.replaceSoon && decide (t.rf (rstPg + 0x114) 0 0 = 1 ∧ t.aon.missed = 0)) = true
      ∧ nxt (.hearthTakeover 0) (s.wf (rstPg + 0x114) 0 0 1) (fun t => t.aon.hearthDead) = true
      ∧ (∀ a ∈ [{ s.aon with hearthDead := true }, { s.aon with crystal := false }, { s.aon with missed := 10000 }],
          nxt .aonWatchdog { s with aon := a } (fun t => t.aon.pwrcyc) = true) := by decide +kernel

/-- The always-on domain runs; main power and PWR_EN as given. -/
def auxOn (main en : Bool) : State := { State.reset with aon := { aux := true, main := main, pwrEn := en } }

def env (hang : Nat) : BootEnv := { hang := hang }

/-- PWR_EN without main power, with it, main power without PWR_EN, and with it (R329, R429). -/
theorem test_power_on :
    (∀ n ∈ [0, 1, 2, 3], (env n).wf = true)
      ∧ nxt (.pwrEnAssert (env 0)) (auxOn false false) (fun t => t.aon.pwrEn && !t.aon.booting && decide (t.rf (pwrPg + 0x118) 31 31 = 1)) = true
      ∧ nxt (.pwrEnAssert (env 0)) { State.reset with aon := { main := true } } (fun t => !t.aon.booting && decide (t.aon.pwrEnv = some (env 0))) = true
      ∧ (auxOn true false).aon.aux = true ∧ (auxOn true false).aon.mainBad = false ∧ (auxOn true false).aon.powered = false ∧ (auxOn true false).aon.booting = false
      ∧ nxt (.mainPowerApplied (env 0)) (auxOn false false) (fun t => t.aon.main && !t.aon.booting) = true
      ∧ (auxOn false true).aon.pwrEn = true ∧ (auxOn false true).aon.mainBad = false ∧ (auxOn false true).aon.powered = false
      ∧ (auxOn false true).aon.booting = false := by decide +kernel

/-- Loss of PWR_EN or of main power is OFF (R429). -/
theorem test_power_off :
    let s : State := { powered with aon := { aux := true, main := true, pwrEn := true, powered := true, pgood := true } }
    let b : State := { powered with aon := { aux := true, main := true, pwrEn := true, booting := true } }
    (s.aon.powered = true ∧ b.aon.booting = true ∧ b.aon.powered = false)
      ∧ nxt (.mainPowerFault .under) b (fun t => !t.aon.booting && t.aon.mainBad) = true
      ∧ nxt .pwrEnDeassert s (fun t => !t.aon.powered && !t.aon.pgood && !t.aon.cable && decide (t.cores = [] ∧ t.mem = [])) = true
      ∧ nxt (.mainPowerFault .rail) s (fun t => !t.aon.powered && t.aon.mainBad) = true := by decide +kernel

/-- A bring-up that stands in step 4, cold or warm (R334). -/
def bootingAt4 (warm : Nat) : State :=
  { ((powered.wf bootStat 27 24 4).wf bootStat 29 29 warm) with aon := { aux := true, main := true, pwrEn := true, powered := true, booting := true } }

/-- What the step timer's statement asks; the timer fails a cold bring-up. -/
theorem test_bring_up_timer :
    (∀ w ∈ [0, 1], (bootingAt4 w).aon.waitPerst = none ∧ (bootingAt4 w).rf bootStat 27 24 ≠ 2 ∧ (bootingAt4 w).aon.crystal = true ∧ (bootingAt4 w).rf bootStat 29 29 = w)
      ∧ nxt (.bringupStepTimeout (env 0)) (bootingAt4 0) (fun t => !t.aon.booting && decide (t.rf bootStat 30 30 = 1 ∧ t.rf bootStat 23 20 = 2)) = true := by decide +kernel

/-- PERST_N: asserted before and after READY, released for a bring-up that waits for it, and its edges while PWR_EN is up. -/
theorem test_perst :
    let s : State := { powered with aon := { aux := true, main := true, pwrEn := true, powered := true } }
    let r := s.wf (modPg 0 1 + 0x100) 31 31 1
    let w : State := { s.wf (pwrPg + 0x118) 30 30 1 with aon := { s.aon with waitPerst := some (false, env 0), booting := true } }
    s.rf (pwrPg + 0x118) 30 30 = 0 ∧ s.qLive .qa = false ∧ s.qLive .qb = false ∧ s.ready = false ∧ r.ready = true ∧ r.rf (pwrPg + 0x118) 30 30 = 0
      ∧ r.qLive .qa = false ∧ r.qLive .qb = false ∧ r.aon.crystal = true ∧ r.aon.thermtrip = false ∧ r.rst = []
      ∧ nxt (.perstAssert (env 0) 0) s (fun t => decide (t.rf (pwrPg + 0x118) 30 30 = 1 ∧ t.aon = s.aon)) = true
      ∧ (let b : State := { s.wf bootStat 27 24 8 with aon := { s.aon with booting := true } }
         b.rf bootStat 27 24 = 8 ∧ b.ready = false ∧ nxt (.perstAssert (env 0) 0) b (fun t => decide (t.aon.waitPerst = some (false, env 0))) = true)
      ∧ w.rf (pwrPg + 0x118) 30 30 = 1 ∧ w.aon.waitPerst = some (false, env 0)
      ∧ w.rf (pwrPg + 0x118) 26 26 = 0 ∧ w.aon.pwrEn = true
      ∧ nxt .chatter w (fun t => decide (t.rf (pwrPg + 0x118) 26 26 = 1 ∧ t.rf (pwrPg + 0x120) 31 16 = 1)) = true := by decide +kernel

/-- Shutdown at once and after a reset; a sample in OFF; the auxiliary supply; the crystal (R333, R345, R407, R431, R432). -/
theorem test_shutdown :
    let r : State := { powered with rst := [{ level := 2, origin := 2, ctxMask := 1, cores := [0] }] }
    ({} : BistResult).wf = true ∧ powered.aon.crystal = true ∧ powered.update = none ∧ powered.aon.booting = false ∧ powered.aon.shutWait = none ∧ (∀ c < 16, powered.ctxActive c = false) ∧ powered.rst = []
      ∧ r.rst ≠ [] ∧ (∀ c < 16, r.ctxActive c = false)
      ∧ nxt (.shutdown .mgmt {}) powered (fun t => t.flash.shut.isSome && decide (t.rf (bootPg + 0x118) 31 30 = 2)) = true
      ∧ nxt (.shutdown .mgmt {}) r (fun t => decide (t.rf (bootPg + 0x118) 31 30 = 1 ∧ t.aon.shutWait = some {} ∧ t.flash = r.flash)) = true
      ∧ (auxOn false false).aon.powered = false
      ∧ ([1361, 1360, -320, -321].map (fun k => nxt (.aonThermalSample k) (auxOn false false) (fun t => t.aon.excursion))) = [true, false, false, true]
      ∧ State.reset.aon.aux = false
      ∧ State.reset.aon.pwrEnv = none
      ∧ nxt (.auxValid 5) { State.reset with aon := { pwrEnv := some (env 1) } } (fun t => t.aon.pwrEn && !t.aon.booting
          && decide (t.rf (pwrPg + 0x118) 31 31 = 1 ∧ t.aon.pwrEnv = none)) = true
      ∧ ({ pwrEnv := some (env 1), main := true } : Aon).mainBad = false
      ∧ nxt (.auxValid 5) { State.reset with flash := { drain := some 9 } } (fun t => t.aon.aux && decide (t.rf (pwrPg + 0x118) 5 0 = 5 ∧ t.rf (modPg 9 0 + 0x110) 31 31 = 1)) = true
      ∧ nxt .auxLoss powered (fun t => !t.aon.aux && decide (t.regs = State.reset.regs)) = true
      ∧ nxt .crystalStops powered (fun t => !t.aon.crystal) = true := by decide +kernel

/-! ### Dumps, event log, management, power -/

/-- A dump of one unit, captured or out on the stream. -/
def dump0 (sent : Nat) : Dump :=
  { seq := 4, stroke := 0, trigger := 0, ctxMask := 0, id := 0, units := [{ addr := 0x1000, words := List.replicate 600 7 }, { addr := 0x2000, words := [8] }], sent := sent }

def dumping (stat : Nat) : State :=
  { (((powered.wf (dumpPg + 0x104) 31 30 stat).wf (evtPg + 0x100) 31 31 1).wf (evtPg + 0x104) 31 31 1) with dump := if stat = 0 then none else some (dump0 0) }

/-- What the statements on dumps ask (R355 to R357, R423). -/
theorem test_dump_meets :
    (∀ k ∈ [0, 1, 2], (dumping k).mayWrite .mgmt (dumpPg + 0x100) ∧ (dumping k).mayWrite .mgmt (evtPg + 0x12C))
      ∧ fld 0x80000000 30 28 ≤ 1 ∧ (dumping 0).rf (dumpPg + 0x104) 31 31 = 0 ∧ (dumping 2).rf (dumpPg + 0x104) 31 31 = 1
      ∧ (dumping 2).dumpWait = [] ∧ (dump0 0).store = false ∧ (dumping 1).rf (dumpPg + 0x104) 30 30 = 1 ∧ (dumping 1).streams = true
      ∧ (dumping 1).log = [] ∧ (dump0 0).sent + 1024 < (dump0 0).len ∧ (dumping 0).rf (dumpPg + 0x104) 31 30 = 0
      ∧ (dumping 1).rf (dumpPg + 0x104) 31 30 ≠ 0 := by decide +kernel

/-- A second request waits, a unit without answer becomes a placeholder, a captured dump gets a slot, and DUMP_RESEND waits or
streams. -/
theorem test_dumps :
    nxt (.dumpCtlGo .mgmt 0x90000000 []) (dumping 2) (fun t => decide (t.dumpWait = [.ctl 0x90000000 []] ∧ t.dump = some (dump0 0))) = true
      ∧ nxt (.dumpCtlGo .mgmt 0x80000000 []) (dumping 2) (fun t => decide (t.dumpWait = [] ∧ t.dump = some (dump0 0))) = true
      ∧ nxt (.dumpReadTimeout 0x1000) (dumping 2) (fun t => decide (t.dump.map (fun d => d.units.map (fun u => (u.silent, u.words.length))) = some [(true, 0), (false, 1)])) = true
      ∧ nxt .dumpComplete (dumping 2) (fun t => decide (t.rf (dumpPg + 0x104) 31 30 = 1 ∧ t.dumpNext = 1) && (Tbl.find? t.dumpSlots 0).isSome) = true
      ∧ nxt (.dumpResend .mgmt 3) (dumping 1) (fun t => decide (t.resend = some 3)) = true
      ∧ nxt (.dumpResend .mgmt 3) { dumping 0 with dumpSlots := [(3, dump0 9)] } (fun t => decide (t.dump = some (dump0 0) ∧ t.rf (dumpPg + 0x104) 30 30 = 1)) = true := by
  decide +kernel

/-- A hearth serves, the stream is on, and a UF record is on its way. -/
def logging (log : List LogRec) : State :=
  { ((powered.wf (evtPg + 0x100) 31 31 1).wf (evtPg + 0x104) 31 31 1).wr (evtPg + 0x118) 0x0A000001 with
    aon := { aux := true, powered := true }, recQ := [{ stroke := 1, cycle := 2, src := genPg, cls := 0x40, sev := 3 }], log := log }

/-- Records, datagrams, ARP, ALERT and the link (R419 to R422). -/
theorem test_event_log :
    let r : LogRec := { seq := 7, rec_ := { stroke := 1, cycle := 2, src := genPg, cls := 0x40, sev := 0 } }
    (logging []).hearthUp = true ∧ (logging []).streams = true ∧ (logging []).rf (dumpPg + 0x104) 30 30 = 0 ∧ (logging [r]).streams = true
      ∧ (logging []).rf (evtPg + 0x104) 31 31 = 1
      ∧ nxt (.eventRecord 0) (logging []) (fun t => t.aon.alert && t.out.contains .ibi && decide (t.recQ = [] ∧ t.log.map (·.seq) = [1])) = true
      ∧ nxt (.eventDatagramSend true) (logging [r]) (fun t => decide (t.log = []) && t.out.any (fun o => match o with | .datagram _ 1 _ _ b => decide (b.length = 48) | _ => false)) = true
      ∧ nxt .idleDatagram (logging []) (fun t => t.out.any (fun o => match o with | .datagram _ 4 _ _ b => decide (b.length = 16) | _ => false)) = true
      ∧ nxt (.arpRequest 0x0A000001) (logging []) (fun t => decide (t.out = [.arp 0x0A000001 1])) = true
      ∧ (logging []).rf (evtPg + 0x100) 30 30 = 1 ∧ ((logging []).wf (evtPg + 0x100) 30 30 0).rf (evtPg + 0x100) 30 30 = 0
      ∧ nxt (.mgmtLinkUp true) ((logging []).wf (evtPg + 0x104) 31 31 0) (fun t => decide (t.rf (evtPg + 0x104) 31 31 = 1)) = true
      ∧ nxt (.mgmtLinkUp false) ((logging []).wf (evtPg + 0x104) 31 31 0) (fun t => decide (t.rf (evtPg + 0x104) 31 31 = 0)) = true
      ∧ nxt .mgmtLinkDown (logging []) (fun t => decide (t.rf (evtPg + 0x104) 31 31 = 0)) = true
      ∧ nxt (.alertRelease .mgmt) { logging [] with aon := { alert := true } } (fun t => !t.aon.alert) = true
      ∧ nxt (.alertRelease .qa) { logging [] with aon := { alert := true } } (fun t => t.aon.alert) = true := by decide +kernel

/-- A firmware update whose component 2 is being transferred. -/
def updating : State := { logging [] with update := some { comps := [1, 2], current := some 2, data := [1] }, flash := { verified := [2, 3], fwNew := [(3, { data := [5], signer := 0, svn := 0, advance := false, sig := 0 })] } }

/-- Addresses, the endpoint, and the update's exchanges (R385, R415, R417, R418). -/
theorem test_management :
    let img : Image := { data := [2], signer := 9, svn := 0, advance := false, sig := 0 }
    updating.hearthUp = true ∧ (logging []).update = none ∧ updating.aon.recovery = false
      ∧ nxt (.setdasa 0x11 9) (logging []) (fun t => decide (t.regs = (logging []).regs)) = true
      ∧ nxt (.setdasa 0x10 9) (logging []) (fun t => decide (t.rf i3cStat 31 24 = 137)) = true
      ∧ nxt (.entdaa 9) (logging []) (fun t => decide (t.rf i3cStat 31 24 = 137)) = true
      ∧ nxt (.setEndpointId 8) (logging []) (fun t => decide (t.rf i3cStat 7 0 = 8)) = true
      ∧ nxt .requestUpdate (logging []) (fun t => decide (t.update = some {})) = true
      ∧ nxt (.passComponentTable [1, 3, 4]) updating (fun t => decide (t.update.map (·.comps) = some [1, 3])) = true
      ∧ nxt (.updateComponent 2) updating (fun t => decide (t.update.map (·.current) = some (some 2) ∧ t.update.map (·.data) = some [] ∧ t.flash.verified = [3])) = true
      ∧ nxt (.requestFirmwareData false img (env 0)) updating (fun t => decide (t.update.map (·.data) = some [1, 2])) = true
      ∧ nxt .activateFirmware updating (fun t => decide (t.update = none ∧ t.flash.activated = [2]) && t.flash.assay.isSome) = true := by decide +kernel

/-- An image of a vendor signer or of none. -/
def signed (by_ : Nat) : Image := { data := [1, 2], signer := by_, svn := 0, advance := false, sig := 0 }

/-- An image of no vendor signer is refused whatever the primitives answer; one of signer 0 is accepted when they verify it. -/
theorem test_verify_result :
    (updating.verifyResult 2 (signed 9) ≠ 0)
      ∧ (updating.manifestOk = true → Config.ed25519Verify 0 (imageBytes (signed 0)) 0 = true → updating.verifyResult 2 (signed 0) = 0) := by
  have h9 : updating.vendorKey 9 = none := by decide +kernel
  have h0 : updating.vendorKey 0 = some 0 := by decide +kernel
  have hm : updating.flash.minSvn = 0 := by decide +kernel
  refine ⟨?_, fun h1 h2 => ?_⟩
  · have h : updating.imageSigned (signed 9) = false := by simp [State.imageSigned, signed, h9]
    simp [State.verifyResult, State.imageCheck, h]
  · have h : updating.imageSigned (signed 0) = true := by
      simp only [State.imageSigned, h1, show (signed 0).signer = 0 from rfl, h0, Bool.true_and]
      exact zero_sig_ok _ _ h2
    have hs : (signed 0).svn = 0 := rfl
    simp [State.verifyResult, State.imageCheck, h, hm, hs]

/-- Power requests, the exit from I2 and a sample (R398 to R400). -/
theorem test_power :
    let i2 := powered.wf pwrStat 31 29 3
    powered.mayWrite .mgmt (pwrPg + 0x100) ∧ i2.mayWrite .mgmt (pwrPg + 0x100) ∧ i2.pwrState = 3 ∧ i2.pow.runNext = false
      ∧ nxt (.pwrCtlRun .mgmt 1000) i2 (fun t => t.pow.leaving && decide (t.rf (pwrPg + 0x100) 31 30 = 0 ∧ t.rf (pwrPg + 0x100) 10 0 = 1000)) = true
      ∧ nxt (.pwrCtlI1 .mgmt 1000) powered (fun t => decide (t.rf (pwrPg + 0x100) 31 30 = 1 ∧ t.rf pwrStat 23 23 = 1)) = true
      ∧ nxt (.pwrCtlI1 .mgmt 1000) i2 (fun t => t.pow.leaving) = true ∧ i2.heldFast = false
      ∧ nxt (.pwrCtlI2 .mgmt 1000) powered (fun t => decide (t.rf (pwrPg + 0x100) 31 30 = 2)) = true
      ∧ ({ i2 with pow := { leaving := true } } : State).pwrState = 3
      ∧ nxt (.powerSample 300 12000 2500 640) powered (fun t => decide (t.pow.peak = 300 ∧ t.pow.samples = [300] ∧ t.rd (pwrPg + 0x110) = 640)) = true := by
  decide +kernel

/-- Throttle, trip, brake, and the reference clock (R401, R402, R411 to R414). -/
theorem test_thermal_and_clocks :
    let b := powered.wf (pwrPg + 0x118) 29 29 1
    let c := powered.wf (clkPg + 0x104) 30 30 1
    powered.pow.throttle = false ∧ powered.lvlSuppresses pwrPg 1 = false ∧ powered.aon.thermtrip = false ∧ powered.rf (pwrPg + 0x118) 29 29 = 0
      ∧ b.rf (pwrPg + 0x118) 29 29 = 1 ∧ powered.rf (clkPg + 0x104) 30 30 = 0 ∧ c.rf (clkPg + 0x104) 30 30 = 1
      ∧ (∀ p < 12, powered.portState p = 0) ∧ powered.qLive .qa = false ∧ powered.qLive .qb = false ∧ powered.mayWrite .mgmt (clkPg + 0x110)
      ∧ nxt (.thermalThrottle 1520 3 0) powered (fun t => t.pow.throttle && decide (t.recQ.map (fun r => (r.cls, r.sev)) = [(0x41, 1)])) = true
      ∧ nxt (.thermalTrip 1840 3 0) powered (fun t => t.aon.thermtrip && t.memHeld) = true
      ∧ nxt (.powerBrakeAssert 100 5 0) powered (fun t => t.pow.brake && decide (t.rf pwrStat 28 27 = 2)) = true
      ∧ nxt (.powerBrakeRelease 0) b (fun t => t.pow.liftNext && decide (t.rf (pwrPg + 0x118) 29 29 = 0 ∧ t.pow.relAt = some (0, 0))) = true
      ∧ nxt (.refclkLost 99 1010 0) powered (fun t => decide (t = powered)) = true
      ∧ nxt (.refclkLost 0 989 0) powered (fun t => decide (t.rf (clkPg + 0x104) 30 30 = 1)) = true
      ∧ nxt (.refclkLost 100 1000 0) powered (fun t => decide (t.rf (clkPg + 0x104) 30 30 = 1 ∧ t.rf pwrStat 10 0 = 400)) = true
      ∧ nxt (.refPpmWindow 150 0) c (fun t => decide (t.rf (clkPg + 0x104) 30 30 = 0)) = true
      ∧ nxt (.refPpmWindow (-101) 0) powered (fun t => decide (t.rf (clkPg + 0x104) 25 25 = 1)) = true
      ∧ nxt (.clkObsSelWrite .mgmt 0xFFFFFFFF) powered (fun t => decide (t.rd (clkPg + 0x110) = 0xFC70F ∧ t.out = [.clkObs 7 63 15])) = true := by decide +kernel

/-! ### The machine, and numbers -/

/-- A waiting command is run and leaves the queue; nothing waits, nothing happens. -/
theorem test_step :
    (match step { State.reset with pending := [.heartbeat false, .seam 0] } with
      | .next t => decide (t.pending = [.seam 0] ∧ t.aon.missed = 1) && Memory.wf t.mem
      | _ => false) = true
      ∧ (match step State.reset with | .next t => decide (t = State.reset) | _ => false) = true
      ∧ (match exec (.heal 5120 0) State.reset with | .fault f => decide (f = .noSuchUnit) | _ => false) = true
      ∧ (Instr.heal 5119 0).wf = true := by decide +kernel

/-- The encoder writes the words of the entries above (R88, R89, R102). -/
theorem test_encode :
    encodeEntry (.wait 9) = word [(88, 9)]
      ∧ encodeEntry (.send ⟨.ring 5, 64, 9, 100, 6, 32, 0, true⟩)
          = word [(125, 4), (120, 1), (112, 1), (106, 5), (93, 63), (80, 9), (68, 100), (63, 6), (50, 32)]
      ∧ encodeEntry (.armb 77 12) = word [(125, 7), (120, 5), (96, 77), (64, 12)] := by decide +kernel

/-- BF16 1.0 + 2.0, 1.5 × −2.0, and an FP32 value half way between two BF16 values goes to the even one (R160). -/
theorem test_elementwise :
    (fmtBF16.vround .rne ((fmtBF16.decode 0x3F80).add (fmtBF16.decode 0x4000))).1 = 0x4040
      ∧ (fmtBF16.vround .rne ((fmtBF16.decode 0x3FC0).mul (fmtBF16.decode 0xC000))).1 = 0xC040
      ∧ (fmtBF16.vround .rne (f32 0x3F808000)).1 = 0x3F80 ∧ (fmtBF16.vround .rne (f32 0x3F818000)).1 = 0x3F82 := by decide +kernel

/-- Largest finite values of the formats: E4M3 448, E5M2 57,344, E2M1 6 (R111, R112). -/
theorem test_formats :
    fmtE4M3.decode 0x7E = .fin false 14 5 ∧ (FVal.eq (fmtE4M3.decode 0x7E) (f32 0x43E00000)) = true
      ∧ (FVal.eq (fmtE5M2.decode 0x7B) (f32 0x47600000)) = true ∧ (FVal.eq (fmtE2M1.decode 0x7) (f32 0x40C00000)) = true
      ∧ decodeScale 0xFF = none ∧ decodeScale 130 = some 3 := by decide +kernel

end Sys2Proof.Tests
end

/-! The proof of O35. The two words of an aligned 64-bit access lie in one page, and a page is implemented or not whatever the offset;
so the access is two 32-bit accesses to a page without registers, each of which completes without effect (R24). -/

namespace Sys2Proof.Machine

/-! ### The two words of a 64-bit access -/

/-- The upper word of an aligned 64-bit access is at the same place but for the offset (R21, R25). -/
theorem locOf_add_four {a : Nat} (h : a % 8 = 0) : locOf (a + 4) = { locOf a with off := (locOf a).off + 4 } := by
  have hoff : (a + 4) % 4096 = a % 4096 + 4 := by omega
  have hpage : (a + 4) / 2 ^ 12 = a / 2 ^ 12 := by omega
  have hunit : (a + 4) / 2 ^ 16 = a / 2 ^ 16 := by omega
  have hblk : (a + 4) / 2 ^ 22 = a / 2 ^ 22 := by omega
  have hmod : (a + 4) / 2 ^ 24 = a / 2 ^ 24 := by omega
  have hregion : (a + 4) / 2 ^ 26 = a / 2 ^ 26 := by omega
  have hspace : (a + 4) / 2 ^ 32 = a / 2 ^ 32 := by omega
  unfold locOf
  rw [hoff, hpage, hunit, hblk, hmod, hregion, hspace]
  split <;> rfl

/-- Whether a unit implements a page does not turn on the offset (R22). -/
@[simp] theorem pageRows_off (l : Loc) (o : Nat) : pageRows { l with off := o } = pageRows l := rfl

theorem pageRows_add_four {a : Nat} (h : a % 8 = 0) : pageRows (locOf (a + 4)) = pageRows (locOf a) := by
  rw [locOf_add_four h, pageRows_off]

/-- The registers of the stroke generator, which have rules of their own for 64-bit accesses (R36, R48), are in a page that is
implemented. -/
theorem ne_genPg_of_unimplemented {a o : Nat} (ho : o < 4096) (h : pageRows (locOf a) = none) : a ≠ genPg + o := by
  rintro rfl
  have hloc : locOf (genPg + o) = ⟨true, 0, 0, 0, 0, o⟩ := by
    have hspace : (4294967296 + o) / 2 ^ 32 % 2 = 1 := by omega
    have hunit : (4294967296 + o) / 2 ^ 24 % 256 = 0 := by omega
    have hpage : (4294967296 + o) / 2 ^ 12 % 4096 = 0 := by omega
    have hoff : (4294967296 + o) % 4096 = o := by omega
    rw [show genPg = 4294967296 from rfl, locOf, if_pos hspace, hunit, hpage, hoff]
  rw [hloc] at h
  exact Option.some_ne_none modctlRows h

/-! ### Accesses to a page without registers -/

section
variable (s : State) (ag : Agent) {a : Nat}

theorem State.writeReg_of_unimplemented (v : Word) (h : pageRows (locOf a) = none) : s.writeReg ag a v = s := by
  simp [State.writeReg, h]

theorem State.readReg_of_unimplemented (h : pageRows (locOf a) = none) : s.readReg ag a = (0, s) := by
  simp [State.readReg, h]

theorem State.mmioWrite_of_unimplemented (wide : Bool) (val : BitVec 64) (h : pageRows (locOf a) = none)
    (ha : a % (if wide then 8 else 4) = 0) : s.mmioWrite ag a wide val = s := by
  have hgen : a ≠ genPg + 0x128 := ne_genPg_of_unimplemented (by decide) h
  have hlo : s.writeReg ag a (val.truncate 32) = s := s.writeReg_of_unimplemented ag _ h
  cases wide with
  | false => simpa [State.mmioWrite] using hlo
  | true =>
    have hhi : s.writeReg ag (a + 4) ((val >>> 32).truncate 32) = s :=
      s.writeReg_of_unimplemented ag _ ((pageRows_add_four ha).trans h)
    rw [State.mmioWrite, if_neg (fun e => hgen e.2), hlo]
    exact hhi

theorem State.mmioRead_of_unimplemented (wide : Bool) (h : pageRows (locOf a) = none) (ha : a % 8 = 0) :
    s.mmioRead ag a wide = (0, s) := by
  have hgen : a ≠ genPg + 0x108 := ne_genPg_of_unimplemented (by decide) h
  have hlo : s.readReg ag a = (0, s) := s.readReg_of_unimplemented ag h
  have hhi : s.readReg ag (a + 4) = (0, s) := s.readReg_of_unimplemented ag ((pageRows_add_four ha).trans h)
  cases wide <;> simp [State.mmioRead, hgen, hlo, hhi]

end

/-- REGISTER_WRITE at an aligned address of the map is the register write itself (R25). -/
theorem exec_registerWrite_aligned (ag : Agent) {a : Nat} (wide : Bool) (val : BitVec 64) (s : State) (hmap : a < 2 ^ 33)
    (ha : a % (if wide then 8 else 4) = 0) : exec (.registerWrite ag a wide val) s = .next (s.mmioWrite ag a wide val) := by
  have hwf : (Instr.registerWrite ag a wide val).wf = true := decide_eq_true hmap
  have hok : mmioOk a (if wide then 8 else 4) = true := by cases wide <;> simpa [mmioOk, show a < 8589934592 from hmap] using ha
  have hexec : exec (.registerWrite ag a wide val) s = execRegisterWrite ag a wide val s := rfl
  rw [hexec]
  unfold execRegisterWrite inRange
  rw [if_pos hwf, if_pos hok]

/-- Settles O35: an access to an unimplemented page is made of 32-bit accesses to that page, none of which does anything. -/
theorem unimplementedPagesDoNothing : Obligations.UnimplementedPagesDoNothing := by
  unfold Obligations.UnimplementedPagesDoNothing
  intro ag a wide val s hmap hnone
  refine ⟨fun ha => ?_, s.readReg_of_unimplemented ag hnone, s.mmioRead_of_unimplemented ag wide hnone⟩
  rw [exec_registerWrite_aligned ag wide val s hmap ha, s.mmioWrite_of_unimplemented ag wide val hnone ha]

end Sys2Proof.Machine

/-! The proof of O36. The latches are three fields of the generator's state, so that setting one agent's leaves the others' and the
registers alone; the count is a pair of registers, which the boundary writes modulo 2^40 (R36). -/

namespace Sys2Proof.Machine

/-! ### The latches of STROKE_COUNT -/

/-- Each agent has a latch of its own (R36). -/
theorem State.latch_setLatch (s : State) (ag ag' : Agent) (v : Option Nat) :
    (s.setLatch ag v).latch ag' = if ag' = ag then v else s.latch ag' := by
  cases ag <;> cases ag' <;> rfl

@[simp] theorem State.setLatch_regs (s : State) (ag : Agent) (v : Option Nat) : (s.setLatch ag v).regs = s.regs := by
  cases ag <;> rfl

@[simp] theorem State.setLatch_out (s : State) (ag : Agent) (v : Option Nat) : (s.setLatch ag v).out = s.out := by
  cases ag <;> rfl

@[simp] theorem State.latch_send (s : State) (o : Out) (ag : Agent) : (s.send o).latch ag = s.latch ag := rfl

/-- What a 32-bit read of STROKE_COUNT leaves: one value sent, the reading agent's latch as the read sets it, every other latch and all
registers as they were. -/
theorem State.latched_read_frame (s : State) (ag : Agent) (v : Option Nat) (o : Out) :
    ((s.setLatch ag v).send o).out = s.out ++ [o] ∧ ((s.setLatch ag v).send o).latch ag = v
      ∧ (∀ ag', ag' ≠ ag → ((s.setLatch ag v).send o).latch ag' = s.latch ag')
      ∧ ((s.setLatch ag v).send o).regs = s.regs := by
  refine ⟨?_, ?_, fun ag' h => ?_, ?_⟩
  · rw [State.send_out, State.setLatch_out]
  · rw [State.latch_send, State.latch_setLatch, if_pos rfl]
  · rw [State.latch_send, State.latch_setLatch, if_neg h]
  · rw [State.send_regs, State.setLatch_regs]

theorem exec_strokeCountLoRead (ag : Agent) (s : State) :
    exec (.strokeCountLoRead ag) s = .next ((s.setLatch ag (some (s.stroke / 2 ^ 32))).send
      (.value ag (genPg + 0x108) (BitVec.ofNat 64 (s.stroke % 2 ^ 32)))) := rfl

theorem exec_strokeCountHiRead (ag : Agent) (s : State) :
    exec (.strokeCountHiRead ag) s = .next ((s.setLatch ag none).send
      (.value ag (genPg + 0x10C) (BitVec.ofNat 64 ((s.latch ag).getD (s.stroke / 2 ^ 32))))) := rfl

/-! ### The count at a boundary -/

/-- Two consecutive registers read as they were set. -/
theorem State.rd64_wr64_same (s : State) (a : Nat) {v : Nat} (h : v < 2 ^ 64) : (s.wr64 a v).rd64 a = v := by
  have hlo : (s.wr64 a v).rd a = BitVec.ofNat 32 v := by
    rw [State.wr64, State.rd_wr_other _ _ (by omega), State.rd_wr_same]
  have hhi : (s.wr64 a v).rd (a + 4) = BitVec.ofNat 32 (v / 2 ^ 32) := State.rd_wr_same _ _ _
  rw [State.rd64, hlo, hhi, BitVec.toNat_ofNat, BitVec.toNat_ofNat]
  omega

/-- The count is the pair of registers at 0x108 of the generator's page (R36). -/
theorem State.stroke_wr64 (s : State) {n : Nat} (h : n < 2 ^ 40) : (s.wr64 (genPg + 0x108) n).stroke = n := by
  have hrd : (s.wr64 (genPg + 0x108) n).rd64 (genPg + 0x108) = n := s.rd64_wr64_same _ (by omega)
  calc (s.wr64 (genPg + 0x108) n).stroke = (s.wr64 (genPg + 0x108) n).rd64 (genPg + 0x108) % 2 ^ 40 := rfl
    _ = n := by rw [hrd, Nat.mod_eq_of_lt h]

/-- STROKE_COUNT increments at a boundary, modulo 2^40, but at the end of an acquisition to the girth (R36, R37, R282). -/
theorem State.stroke_stepCount (s : State) (h : s.gen.acquired = false ∨ s.srcActive ≠ 1) :
    s.stepCount.stroke = (s.stroke + 1) % 2 ^ 40 := by
  have hown : ¬ (s.gen.acquired = true ∧ s.srcActive = 1) := not_and_or.mpr (h.imp_left Bool.eq_false_iff.mp)
  rw [State.stepCount, if_neg hown]
  exact State.stroke_wr64 _ (Nat.mod_lt _ (by decide))

/-! ### The 64-bit read -/

theorem State.mmioRead_strokeCount_wide (s : State) (ag : Agent) :
    s.mmioRead ag (genPg + 0x108) true = (BitVec.ofNat 64 s.stroke, s) := by
  rw [State.mmioRead, if_pos ⟨rfl, rfl⟩]

/-- Settles O36: each 32-bit read is one setting of the reading agent's latch, and the count is stepped modulo 2^40. -/
theorem strokeCountLatches : Obligations.StrokeCountLatches := by
  unfold Obligations.StrokeCountLatches
  refine ⟨fun ag s => ?_, fun ag s => ?_, fun s hown hlast => ?_, fun ag s => s.mmioRead_strokeCount_wide ag⟩
  · exact ⟨_, exec_strokeCountLoRead ag s, s.latched_read_frame ag _ _⟩
  · exact ⟨_, exec_strokeCountHiRead ag s, s.latched_read_frame ag _ _⟩
  · rw [s.stroke_stepCount hown, hlast, Nat.sub_add_cancel Nat.one_le_two_pow, Nat.mod_self]

end Sys2Proof.Machine

/-! The proof of O22. What a write does to an owner entry turns on the entry, on a failed row of its page and on bring-up; a write of one
entry leaves all three as they were for every other page of the region, so that the four entries of a word are written each by itself
(R184, R185, R195). -/

namespace Sys2Proof.Machine

/-! ### Bytes of a register page -/

theorem State.rdByte_wrByte_same (s : State) (a v : Nat) : (s.wrByte a v).rdByte a = v % 256 := by
  have hwidth : 8 * (a % 4) + 7 + 1 - 8 * (a % 4) = 8 := by omega
  rw [State.rdByte, State.wrByte, State.rf_wf_same s (by omega), hwidth]
  rfl

theorem State.rdByte_wrByte_other (s : State) {a b : Nat} (v : Nat) (h : b ≠ a) : (s.wrByte a v).rdByte b = s.rdByte b := by
  by_cases hword : b / 4 * 4 = a / 4 * 4
  · rw [State.rdByte, State.rdByte, State.wrByte, hword]
    exact s.rf_wf_field (by omega) (by omega)
  · exact s.rf_wf_other hword

/-! ### Owner entries -/

/-- Each page of a region has an entry of its own (R184). -/
theorem ownerAddr_inj (region : Nat) {page page' : Nat} : ownerAddr region page = ownerAddr region page' ↔ page = page' := by
  unfold ownerAddr rcPg regionAddr
  omega

/-- What the effect of a write of an owner entry turns on: the entry, whether a row of the page has failed, and bring-up (R185, R195). -/
def State.ownerView (s : State) (region page : Nat) : Nat × Bool × Bool :=
  (s.rdByte (ownerAddr region page), s.retirePend.contains (region, page), s.aon.booting)

/-- R185 keeps the entry from a write of `v`. -/
abbrev ownerKeeps (view : Nat × Bool × Bool) (v : Nat) : Prop :=
  view.1 / 64 = 2 ∨ v / 64 = 2 ∨ (view.1 / 64 = 3 ∧ view.2.2 = false)

/-- The value of an owner entry after a write of `v` (R184, R185, R195). -/
def ownerNext (view : Nat × Bool × Bool) (v : Nat) : Nat :=
  if ownerKeeps view v then view.1 else if v / 64 = 0 ∧ view.2.1 = true then 0xC0 else v / 32 * 32 + v % 16

/-! ### The operations on an owner entry: the entry they set, and what they leave of every other page -/

section
variable (s : State) (region : Nat) {page page' : Nat} (v : Nat)

theorem State.setOwner_entry : (s.setOwner region page v).rdByte (ownerAddr region page) = v % 256 :=
  s.rdByte_wrByte_same _ v

theorem State.setOwner_entry_other (h : page' ≠ page) :
    (s.setOwner region page v).rdByte (ownerAddr region page') = s.rdByte (ownerAddr region page') :=
  s.rdByte_wrByte_other v (mt (ownerAddr_inj region).mp h)

@[simp] theorem State.setOwner_retirePend : (s.setOwner region page v).retirePend = s.retirePend :=
  s.wf_retirePend _ _ _ _
@[simp] theorem State.setOwner_aon : (s.setOwner region page v).aon = s.aon :=
  s.wf_aon _ _ _ _

theorem State.setOwner_view_other (h : page' ≠ page) : (s.setOwner region page v).ownerView region page' = s.ownerView region page' := by
  rw [State.ownerView, State.ownerView, s.setOwner_entry_other region v h, State.setOwner_retirePend, State.setOwner_aon]

/-- A change of the list of pages to retire shows in that part of the view only (R195). -/
theorem State.ownerView_withRetirePend (l : List (Nat × Nat)) :
    ({ s with retirePend := l } : State).ownerView region page
      = (s.rdByte (ownerAddr region page), l.contains (region, page), s.aon.booting) := rfl

theorem State.freePage_view_other (h : page' ≠ page) : (s.freePage region page).ownerView region page' = s.ownerView region page' := by
  unfold State.freePage
  split
  · have hpage : (region, page') ≠ (region, page) := fun e => h (congrArg Prod.snd e)
    have hpend : (s.retirePend.erase (region, page)).contains (region, page') = s.retirePend.contains (region, page') := by
      rw [Bool.eq_iff_iff, List.contains_iff_mem, List.contains_iff_mem, List.mem_erase_of_ne hpage]
    rw [State.ownerView_withRetirePend, State.setOwner_aon, s.setOwner_entry_other region 0xC0 h, hpend, State.ownerView]
  · exact s.setOwner_view_other region 0 h

/-- The model's test for an entry of the table and a byte written is that of R185. -/
theorem State.ownerWrite_guard (hpage : page < 7680) (hv : v < 256) :
    (7680 ≤ page ∨ s.pageState region page = 2 ∨ v / 64 % 4 = 2 ∨ (s.pageState region page = 3 ∧ (!s.aon.booting) = true))
      ↔ ownerKeeps (s.ownerView region page) v := by
  have hst : v / 64 % 4 = v / 64 := by omega
  rw [hst, Bool.not_eq_true', or_iff_right (Nat.not_le.mpr hpage)]
  rfl

/-- Entries that R185 keeps. -/
theorem State.ownerWrite_kept (hpage : page < 7680) (hv : v < 256) (h : ownerKeeps (s.ownerView region page) v) :
    s.ownerWrite region page v = s :=
  if_pos ((s.ownerWrite_guard region v hpage hv).mpr h)

/-- Entries that R185 lets a write change, the reserved bit clear (R184, R185). -/
theorem State.ownerWrite_taken (hpage : page < 7680) (hv : v < 256) (h : ¬ ownerKeeps (s.ownerView region page) v) :
    s.ownerWrite region page v
      = if v / 64 = 0 then (s.freePage region page).setOwner region page
          (if s.retirePend.contains (region, page) then 0xC0 else v / 32 * 32 + v % 16)
        else s.setOwner region page (v / 32 * 32 + v % 16) := by
  have hnew : (v / 32 * 32 + v % 16) / 64 = v / 64 := by omega
  unfold State.ownerWrite
  rw [if_neg (mt (s.ownerWrite_guard region v hpage hv).mp h), Nat.mod_eq_of_lt hv]
  dsimp only
  rw [hnew]
  rfl

theorem State.ownerWrite_entry (hpage : page < 7680) (hv : v < 256) :
    (s.ownerWrite region page v).rdByte (ownerAddr region page) = ownerNext (s.ownerView region page) v := by
  by_cases h : ownerKeeps (s.ownerView region page) v
  · rw [s.ownerWrite_kept region v hpage hv h]
    exact (if_pos h).symm
  · have hnext : ownerNext (s.ownerView region page) v
        = if v / 64 = 0 ∧ s.retirePend.contains (region, page) = true then 0xC0 else v / 32 * 32 + v % 16 := if_neg h
    have hbyte : (v / 32 * 32 + v % 16) % 256 = v / 32 * 32 + v % 16 := by omega
    rw [s.ownerWrite_taken region v hpage hv h, hnext]
    by_cases hfree : v / 64 = 0
    · rw [if_pos hfree, State.setOwner_entry]
      by_cases hfail : s.retirePend.contains (region, page) = true
      · rw [if_pos hfail, if_pos ⟨hfree, hfail⟩]
      · rw [if_neg hfail, if_neg (fun e => hfail e.2), hbyte]
    · rw [if_neg hfree, if_neg (fun e => hfree e.1), State.setOwner_entry, hbyte]

theorem State.ownerWrite_view_other (h : page' ≠ page) : (s.ownerWrite region page v).ownerView region page' = s.ownerView region page' := by
  simp only [State.ownerWrite]
  split
  · rfl
  · split
    · exact (State.setOwner_view_other _ region _ h).trans (s.freePage_view_other region h)
    · exact s.setOwner_view_other region _ h

end

/-! ### The four entries of a word -/

/-- Writes of a list of entries of a region leave the entry of every other page alone. -/
theorem State.ownerWrites_view_other (region word : Nat) (v : Nat → Nat) (l : List Nat) {i : Nat} (s : State) (h : i ∉ l) :
    (l.foldl (fun (s : State) j => s.ownerWrite region (4 * word + j) (v j)) s).ownerView region (4 * word + i)
      = s.ownerView region (4 * word + i) := by
  induction l generalizing s with
  | nil => rfl
  | cons j l ih =>
    obtain ⟨hj, hl⟩ := not_or.mp (mt List.mem_cons.mpr h)
    exact (ih (s.ownerWrite region (4 * word + j) (v j)) hl).trans (s.ownerWrite_view_other region _ (by omega))

theorem fld_byte_lt (w : Word) (i : Nat) : fld w (8 * i + 7) (8 * i) < 256 := by
  have hwidth : 8 * i + 7 + 1 - 8 * i = 8 := by omega
  have hlt := fld_lt w (8 * i + 7) (8 * i)
  rwa [hwidth] at hlt

/-- Each entry of a word takes what a write of that entry alone leaves: no other entry of the word is its page's. -/
theorem State.ownerWord_entry (s : State) (region : Nat) {word i : Nat} (val : Word) (hword : word < 1920) (hi : i < 4) :
    (s.ownerWord region word val).rdByte (ownerAddr region (4 * word + i))
      = ownerNext (s.ownerView region (4 * word + i)) (fld val (8 * i + 7) (8 * i)) := by
  obtain ⟨before, after, hsplit⟩ := List.append_of_mem (List.mem_range.mpr hi)
  have hnodup : (before ++ i :: after).Nodup := hsplit ▸ List.nodup_range
  obtain ⟨-, htail, hdisjoint⟩ := List.nodup_append.mp hnodup
  obtain ⟨hafter, -⟩ := List.nodup_cons.mp htail
  have hbefore : i ∉ before := fun hm => hdisjoint i hm i List.mem_cons_self rfl
  rw [State.ownerWord, hsplit, List.foldl_append, List.foldl_cons]
  have hkeep := State.ownerWrites_view_other region word (fun j => fld val (8 * j + 7) (8 * j))
  refine (congrArg Prod.fst (hkeep after _ hafter)).trans ?_
  refine (State.ownerWrite_entry _ region _ (by omega) (fld_byte_lt val i)).trans ?_
  rw [hkeep before s hbefore]

/-- An admitted OWNER_TABLE_WRITE is the write of its word (R184, R393). -/
theorem exec_ownerTableWrite_admitted {ag : Agent} {region word : Nat} (val : Word) {s : State} (hregion : region < 64)
    (hword : word < 1920) (h : s.mayWrite ag (rcPg region 2 + 0x100)) :
    exec (.ownerTableWrite ag region word val) s = .next (s.ownerWord region word val) := by
  obtain ⟨hlit, hadm⟩ := h
  have hwf : (Instr.ownerTableWrite ag region word val).wf = true := by simp [Instr.wf, hregion, hword]
  have hexec : exec (.ownerTableWrite ag region word val) s = execOwnerTableWrite ag region word val s := rfl
  rw [hexec, execOwnerTableWrite, inRange, if_pos hwf, State.ifAdmitted, if_neg (Bool.eq_false_iff.mp hlit), if_pos hadm]

/-- Settles O22: an entry of the word takes what a write of it alone leaves, which is the entry itself or the value written. -/
theorem ownerTableWriteRules : Obligations.OwnerTableWriteRules := by
  unfold Obligations.OwnerTableWriteRules
  intro ag region word i val s hregion hword hi hmay page old v
  have hentry := s.ownerWord_entry region val hword hi
  refine ⟨_, exec_ownerTableWrite_admitted val hregion hword hmay, fun hkeep => ?_, fun hold hv hret => ?_⟩
  · exact hentry.trans (if_pos hkeep)
  · have htake : ¬ ownerKeeps (s.ownerView region page) v := by
      rintro (h | h | ⟨h, hb⟩)
      · exact hold h
      · exact hv h
      · exact hret.elim (fun hn => hn h) (fun ht => Bool.false_ne_true (hb.symm.trans ht))
    exact hentry.trans (if_neg htake)

end Sys2Proof.Machine

/-! The proof of O43. A write of a hitch has two outcomes: the write of 0 by the owner clears the hitch, and any other write counts in
HITCH_DENY. Each changes a field of one register, so that every other register stays (R367). -/

namespace Sys2Proof.Machine

theorem State.hitchWrite_free (s : State) {ag : Agent} {n : Nat} {v : Word} (hv : v = 0)
    (howner : s.rf (hitchAddr n) 1 0 = hitchId ag) : s.hitchWrite ag n v = s.wf (hitchAddr n) 1 0 0 :=
  if_pos ⟨hv, howner⟩

theorem State.hitchWrite_deny (s : State) {ag : Agent} {n : Nat} {v : Word}
    (h : v ≠ 0 ∨ s.rf (hitchAddr n) 1 0 ≠ hitchId ag) : s.hitchWrite ag n v = s.bump (modPg 1 0 + 0x540) 31 0 1 :=
  if_neg (not_and_or.mpr h)

/-- HITCH_RELEASE of one of the 256 hitches is the write of that hitch (R367). -/
theorem exec_hitchRelease (ag : Agent) {n : Nat} (v : Word) (s : State) (hn : n < 256) :
    exec (.hitchRelease ag n v) s = .next (s.hitchWrite ag n v) :=
  if_pos (decide_eq_true hn)

/-- Settles O43: the owner's write of 0 clears the hitch's field, and any other write is one count of HITCH_DENY, which saturates. -/
theorem hitchWriteByOwner : Obligations.HitchWriteByOwner := by
  unfold Obligations.HitchWriteByOwner
  intro ag n v s hn
  rw [exec_hitchRelease ag v s hn]
  refine ⟨fun hv howner => ?_, fun hdeny => ?_⟩
  · rw [s.hitchWrite_free hv howner]
    refine ⟨_, rfl, s.rf_wf_same (by decide), fun a ha => ?_⟩
    rw [State.rd_wf, if_neg ha]
  · rw [s.hitchWrite_deny hdeny]
    exact ⟨_, rfl, fun a ha => s.rd_bump_other ha, s.bump_cores _ _ _ _, s.bump_mem _ _ _ _, s.bump_out _ _ _ _,
      s.rf_bump_same (by decide)⟩

end Sys2Proof.Machine

/-! Memory and the queue of waiting commands, and what leaves both as they are: every operation of the model but those that write,
filter or empty memory. One equation per operation, in the order of the definitions. -/

namespace Sys2Proof.Machine

/-- Memory and the queue of waiting commands. -/
def State.kept (s : State) : List Host.Cell × List Instr := (s.mem, s.pending)

/-- What a state built field by field keeps. Stated once for every record update of the model; its proof is no bare `rfl`, so that `simp`
cites it instead of comparing two states field by field. -/
theorem State.kept_mk (regs shadow gen cores supp suppNext cap win winPar recQ net arrived mem dbg perturbed nextXfer xfers reqs memWrs class2 flows
      ceBursts openPages hotDevs patrolAt xbarRR netRR vcCov repairs retirePend dramBrand brandBase dramUpset slices sliceUpset
      sliceBrand sliceZero qa qb vecHeld cache engines links posted live barriers girth0 girth1 keys treeFaults combFaults out
      badLinks netDegrade netPend held memHeld aon flash pow asy asyTurn asyTgt asyFrom asyAt reserve heals cfgLost rst dump
      dumpWait dumpSlots dumpNext resend log recent streamSeq update time entropyBad epRetire nonceCtr jtag freeCtr pending) :
    State.kept ⟨regs, shadow, gen, cores, supp, suppNext, cap, win, winPar, recQ, net, arrived, mem, dbg, perturbed, nextXfer, xfers, reqs,
      memWrs, class2, flows, ceBursts, openPages, hotDevs, patrolAt, xbarRR, netRR, vcCov, repairs, retirePend, dramBrand,
      brandBase, dramUpset, slices, sliceUpset, sliceBrand, sliceZero, qa, qb, vecHeld, cache, engines, links, posted, live,
      barriers, girth0, girth1, keys, treeFaults, combFaults, out, badLinks, netDegrade, netPend, held, memHeld, aon, flash, pow,
      asy, asyTurn, asyTgt, asyFrom, asyAt, reserve, heals, cfgLost, rst, dump, dumpWait, dumpSlots, dumpNext, resend, log, recent,
      streamSeq, update, time, entropyBad, epRetire, nonceCtr, jtag, freeCtr, pending⟩ = (mem, pending) := id rfl

/-- What a state keeps, read from its fields. -/
theorem State.kept_eta (s : State) : (s.mem, s.pending) = s.kept := id rfl

/-- A fold of steps that each keep memory and the queue keeps them. -/
theorem State.foldl_kept {α : Type} {f : State → α → State} (h : ∀ t x, (f t x).kept = t.kept) (l : List α) (s : State) :
    (l.foldl f s).kept = s.kept := by
  induction l generalizing s with
  | nil => rfl
  | cons x r ih => exact (ih _).trans (h s x)

theorem State.wr_kept (s : State) (a : Nat) (v : Word) : (s.wr a v).kept = s.kept := by
  simp only [State.wr, State.kept_mk, State.kept_eta]

theorem State.wf_kept (s : State) (a : Nat) (hi : Nat) (lo : Nat) (v : Nat) : (s.wf a hi lo v).kept = s.kept := by
  simp only [State.wf, State.wr_kept]

theorem State.setGenBit_kept (s : State) (n : Nat) (b : Bool) : (s.setGenBit n b).kept = s.kept := by
  simp only [State.setGenBit, State.wf_kept]

theorem State.commitAt_kept (s : State) (half : Half) (v : BitVec 64) : (s.commitAt half v).kept = s.kept := by
  unfold State.commitAt
  repeat' split
  all_goals simp only [State.kept_mk, State.kept_eta, State.wf_kept, State.wr_kept, State.setGenBit_kept]

theorem State.bump_kept (s : State) (a : Nat) (hi : Nat) (lo : Nat) (n : Nat) : (s.bump a hi lo n).kept = s.kept := by
  simp only [State.bump, State.wf_kept]

theorem State.secDeny_kept (s : State) : (s.secDeny).kept = s.kept := by
  simp only [State.secDeny, State.bump_kept]

theorem State.regWrite_kept (s : State) (a : Nat) (v : Word) : (s.regWrite a v).kept = s.kept := by
  simp only [State.regWrite]
  repeat' split
  all_goals simp only [State.kept_mk, State.kept_eta, State.wr_kept]

theorem State.fresh_kept (s : State) : (s.fresh).2.kept = s.kept := by
  simp only [State.fresh, State.kept_mk, State.kept_eta]

theorem State.modFlash_kept (s : State) (f : Flash → Flash) : (s.modFlash f).kept = s.kept := by
  simp only [State.modFlash, State.kept_mk, State.kept_eta]

theorem State.discardCopies_kept (s : State) : (s.discardCopies).kept = s.kept := by
  simp only [State.discardCopies, State.modFlash_kept]

theorem State.cancelUpdate_kept (s : State) : (s.cancelUpdate).kept = s.kept := by
  unfold State.cancelUpdate
  split <;> simp only [State.kept_mk, State.kept_eta, State.discardCopies_kept]

theorem State.modAon_kept (s : State) (f : Aon → Aon) : (s.modAon f).kept = s.kept := by
  simp only [State.modAon, State.kept_mk, State.kept_eta]

theorem State.wrByte_kept (s : State) (a : Nat) (v : Nat) : (s.wrByte a v).kept = s.kept := by
  simp only [State.wrByte, State.wf_kept]

theorem State.clearEntries_kept (s : State) (c : Nat) : (s.clearEntries c).kept = s.kept := by
  unfold State.clearEntries
  refine State.foldl_kept (fun t x => ?_) _ _
  simp only [State.wrByte_kept]

theorem State.setOwner_kept (s : State) (region : Nat) (page : Nat) (v : Nat) : (s.setOwner region page v).kept = s.kept := by
  simp only [State.setOwner, State.wrByte_kept]

theorem State.pendPage_kept (s : State) (region : Nat) (page : Nat) : (s.pendPage region page).kept = s.kept := by
  simp only [State.pendPage, State.bump_kept, State.setOwner_kept]

theorem State.pendCtx_kept (s : State) (c : Nat) : (s.pendCtx c).kept = s.kept := by
  unfold State.pendCtx
  refine State.foldl_kept (fun t x => ?_) _ _
  simp only [State.pendPage_kept]

theorem State.dropTraffic_kept (s : State) (gp : Nat) : (s.dropTraffic gp).kept = s.kept := by
  simp only [State.dropTraffic]
  split <;> simp only [State.kept_mk, State.kept_eta, State.wf_kept]

theorem State.setAsy_kept (s : State) (gp : Nat) (x : AsyCore) : (s.setAsy gp x).kept = s.kept := by
  simp only [State.setAsy, State.kept_mk, State.kept_eta]

theorem State.modAsy_kept (s : State) (gp : Nat) (f : AsyCore → AsyCore) : (s.modAsy gp f).kept = s.kept := by
  simp only [State.modAsy, State.setAsy_kept]

theorem State.setCore_kept (s : State) (gp : Nat) (c : Core) : (s.setCore gp c).kept = s.kept := by
  simp only [State.setCore, State.kept_mk, State.kept_eta]

theorem State.modCore_kept (s : State) (gp : Nat) (f : Core → Core) : (s.modCore gp f).kept = s.kept := by
  simp only [State.modCore, State.setCore_kept]

theorem State.asyRestore_kept (s : State) (gp : Nat) : (s.asyRestore gp).kept = s.kept := by
  simp only [State.asyRestore, State.modCore_kept, State.setAsy_kept]

theorem State.abandonSegment_kept (s : State) (gp : Nat) : (s.abandonSegment gp).kept = s.kept := by
  unfold State.abandonSegment
  split <;> simp only [State.asyRestore_kept, State.modAsy_kept]

theorem State.dropArrival_kept (s : State) (i : Nat) : (s.dropArrival i).kept = s.kept := by
  simp only [State.dropArrival, State.kept_mk, State.kept_eta]

theorem State.setBkl_kept (s : State) (i : Nat) (n : Nat) (b : Bool) : (s.setBkl i n b).kept = s.kept := by
  simp only [State.setBkl, State.wf_kept]

theorem State.dropWaiter_kept (s : State) (gp : Nat) : (s.dropWaiter gp).kept = s.kept := by
  unfold State.dropWaiter
  split <;> simp only [State.setBkl_kept, State.modCore_kept]

theorem State.wr64_kept (s : State) (a : Nat) (v : Nat) : (s.wr64 a v).kept = s.kept := by
  simp only [State.wr64, State.wr_kept]

theorem State.writeCapture_kept (s : State) (pg : Nat) (bitNo : Nat) (sev : Nat) (cls : Nat) (cyc : Nat) (synd : BitVec 64) :
    (s.writeCapture pg bitNo sev cls cyc synd).kept = s.kept := by
  simp only [State.writeCapture, State.kept_mk, State.kept_eta, State.wr64_kept, State.wr_kept]

theorem State.capture_kept (s : State) (pg : Nat) (bitNo : Nat) (sev : Nat) (cls : Nat) (cyc : Nat) (synd : BitVec 64) :
    (s.capture pg bitNo sev cls cyc synd).kept = s.kept := by
  simp only [State.capture]
  repeat' split
  all_goals simp only [State.writeCapture_kept]

theorem State.errUp_kept (s : State) (pg : Nat) (ue : Bool) : (s.errUp pg ue).kept = s.kept := by
  simp only [State.errUp, apply_ite State.kept, ite_self, State.wf_kept, State.bump_kept]

theorem State.countErr_kept (s : State) (pg : Nat) (bitNo : Nat) (sev : Nat) : (s.countErr pg bitNo sev).kept = s.kept := by
  simp only [State.countErr, apply_ite State.kept, ite_self, State.wf_kept, State.errUp_kept]

theorem State.suppMark_kept (s : State) (cyc : Nat) (pg : Nat) (cls : Nat) : (s.suppMark cyc pg cls).kept = s.kept := by
  unfold State.suppMark
  split <;> simp only [State.kept_mk, State.kept_eta]

theorem State.emit_kept (s : State) (r : Rec) : (s.emit r).kept = s.kept := by
  simp only [State.emit, State.kept_mk, State.kept_eta]

theorem State.emitCore_kept (s : State) (gp : Nat) (bitNo : Nat) (sev : Nat) (cls : Nat) (cyc : Nat) (synd : BitVec 64) :
    (s.emitCore gp bitNo sev cls cyc synd).kept = s.kept := by
  simp only [State.emitCore, apply_ite State.kept, ite_self, State.suppMark_kept, State.emit_kept]

theorem State.coreErr_kept (s : State) (gp : Nat) (sev : Nat) (cls : Nat) (cyc : Nat) (synd : BitVec 64) :
    (s.coreErr gp sev cls cyc synd).kept = s.kept := by
  simp only [State.coreErr, State.countErr_kept, State.emitCore_kept, State.capture_kept]

theorem State.brandFail_kept (s : State) (gp : Nat) (cyc : Nat) (ue : Bool) (synd : BitVec 64) : (s.brandFail gp cyc ue synd).kept = s.kept := by
  unfold State.brandFail
  split <;> simp only [State.bump_kept, State.coreErr_kept]

theorem State.outUnit_kept (s : State) (gp : Nat) (ring : Nat) (unit : Nat) (la : Option Nat) (b : Option Word) (ue : Bool) (rows : List Entry) :
    (s.outUnit gp ring unit la b ue rows).2.kept = s.kept := by
  unfold State.outUnit
  repeat' split
  all_goals simp only [State.brandFail_kept]

theorem State.finishPkt_kept (s : State) (gp : Nat) (p : OutPkt) : (s.finishPkt gp p).2.kept = s.kept := by
  simp only [State.finishPkt]
  repeat' split
  all_goals simp only [State.outUnit_kept]

theorem State.endPacket_kept (s : State) (gp : Nat) (p : OutPkt) : (s.endPacket gp p).kept = s.kept := by
  simp only [State.endPacket, State.kept_mk, State.kept_eta, State.finishPkt_kept]

theorem State.cutPackets_kept (s : State) (gp : Nat) : (s.cutPackets gp).kept = s.kept := by
  unfold State.cutPackets
  refine State.foldl_kept (fun t x => ?_) _ _
  simp only [State.endPacket_kept]

theorem State.dropBanks_kept (s : State) (gp : Nat) (loading : Bool) : (s.dropBanks gp loading).kept = s.kept := by
  unfold State.dropBanks
  split <;> simp only [State.wf_kept]

theorem State.clearCoreRegs_kept (s : State) (gp : Nat) (which : Nat → Bool) : (s.clearCoreRegs gp which).kept = s.kept := by
  simp only [State.clearCoreRegs, State.kept_mk, State.kept_eta]

theorem State.zeroCore_kept (s : State) (gp : Nat) (which : Nat → Bool) : (s.zeroCore gp which).kept = s.kept := by
  simp only [State.zeroCore, State.dropWaiter_kept, State.wf_kept, State.cutPackets_kept, State.modCore_kept, State.modAsy_kept,
      State.dropBanks_kept, State.clearCoreRegs_kept]

theorem State.zeroSlice_kept (s : State) (n : Nat) : (s.zeroSlice n).kept = s.kept := by
  simp only [State.zeroSlice, State.kept_mk, State.kept_eta, State.wf_kept, State.wr_kept]

theorem State.setCtxEng_kept (s : State) (c : Nat) (e : CtxEng) : (s.setCtxEng c e).kept = s.kept := by
  simp only [State.setCtxEng, State.kept_mk, State.kept_eta]

theorem State.releaseHalts_kept (s : State) (ctx : Nat) : (s.releaseHalts ctx).kept = s.kept := by
  unfold State.releaseHalts
  refine State.foldl_kept (fun t x => ?_) _ _
  split <;> simp only [State.modCore_kept]

theorem State.closeSession_kept (s : State) : (s.closeSession).kept = s.kept := by
  unfold State.closeSession
  repeat' split
  all_goals simp only [State.kept_mk, State.kept_eta, State.releaseHalts_kept]

theorem State.closeFor_kept (s : State) (ctx : Nat) : (s.closeFor ctx).kept = s.kept := by
  unfold State.closeFor
  repeat' split
  all_goals simp only [State.closeSession_kept]

theorem State.endCtx_kept (s : State) (c : Nat) : (s.endCtx c).kept = s.kept := by
  simp only [State.endCtx, State.kept_mk, State.kept_eta, State.closeFor_kept, State.wf_kept, State.setCtxEng_kept, State.wr_kept]

theorem State.startJob_kept (s : State) (j : RstJob) (esc : Bool) : (s.startJob j esc).kept = s.kept := by
  simp only [State.startJob, State.kept_mk, State.kept_eta, State.wr_kept]

theorem State.clearPages_kept (s : State) (which : Loc → Bool) : (s.clearPages which).kept = s.kept := by
  simp only [State.clearPages, State.kept_mk, State.kept_eta]

theorem State.enableUnit_kept (s : State) (pg : Nat) : (s.enableUnit pg).kept = s.kept := by
  simp only [State.enableUnit, State.wf_kept]

theorem State.holdAll_kept (s : State) : (s.holdAll).kept = s.kept := by
  simp only [State.holdAll, State.kept_mk, State.kept_eta]

theorem State.setKeys_kept (s : State) (gp : Nat) (key : Nat → BitVec 64) : (s.setKeys gp key).kept = s.kept := by
  simp only [State.setKeys, State.modCore_kept]

theorem State.seedKeys_kept (s : State) (gp : Nat) : (s.seedKeys gp).kept = s.kept := by
  simp only [State.seedKeys, State.setKeys_kept]

theorem State.freshKeys_kept (s : State) (gp : Nat) : (s.freshKeys gp).kept = s.kept := by
  unfold State.freshKeys
  split <;> simp only [State.kept_mk, State.kept_eta, State.wf_kept, State.bump_kept, State.setKeys_kept]

theorem State.zeroCoreDone_kept (s : State) (gp : Nat) : (s.zeroCoreDone gp).kept = s.kept := by
  simp only [State.zeroCoreDone]
  split <;> simp only [State.wf_kept, State.bump_kept, State.modCore_kept, State.seedKeys_kept, State.freshKeys_kept]

theorem State.zeroSliceDone_kept (s : State) (n : Nat) : (s.zeroSliceDone n).kept = s.kept := by
  simp only [State.zeroSliceDone, State.kept_mk, State.kept_eta, State.wf_kept, State.bump_kept]

theorem State.noteSlice_kept (s : State) (src : Nat) : (s.noteSlice src).kept = s.kept := by
  simp only [State.noteSlice, State.kept_mk, State.kept_eta]

theorem State.chipRec_kept (s : State) (pg : Nat) (sev : Nat) (cls : Nat) (cyc : Nat) (synd : BitVec 64) (ctx : optParam (Option Nat) none) :
    (s.chipRec pg sev cls cyc synd ctx).kept = s.kept := by
  unfold State.chipRec
  split <;> simp only [State.emit_kept]

theorem State.requestDrain_kept (s : State) (cause : Nat) (region : Nat) (block : Nat) (src : Nat) (cyc : Nat) :
    (s.requestDrain cause region block src cyc).kept = s.kept := by
  simp only [State.requestDrain, apply_ite State.kept, ite_self, State.kept_mk, State.kept_eta, State.chipRec_kept, State.wf_kept,
      State.noteSlice_kept]

theorem State.pendAll_kept (s : State) : (s.pendAll).kept = s.kept := by
  unfold State.pendAll
  refine State.foldl_kept (fun t x => ?_) _ _
  simp only [State.pendPage_kept]

theorem State.keepRetired_kept (s : State) (r : Nat × Nat) : (s.keepRetired r).kept = s.kept := by
  simp only [State.keepRetired]
  repeat' split
  all_goals simp only [State.kept_mk, State.kept_eta, State.setOwner_kept]

theorem State.repairRow_kept (s : State) (hppr : List (Nat × Nat)) (r : Nat × Nat) : (s.repairRow hppr r).kept = s.kept := by
  simp only [State.repairRow, apply_ite State.kept, ite_self, State.bump_kept, State.countErr_kept, State.requestDrain_kept, State.keepRetired_kept,
      State.capture_kept]

theorem State.unretire_kept (s : State) (r : Nat × Nat) : (s.unretire r).kept = s.kept := by
  simp only [State.unretire]
  split <;> simp only [State.kept_mk, State.kept_eta, State.setOwner_kept]

theorem State.goPower_kept (s : State) (r : RstGo) : (s.goPower r).kept = s.kept := by
  simp only [State.goPower, State.kept_mk, State.kept_eta, State.holdAll_kept, State.startJob_kept]

theorem State.dumpEnd_kept (s : State) : (s.dumpEnd).kept = s.kept := by
  unfold State.dumpEnd
  repeat' split
  all_goals simp only [State.kept_mk, State.kept_eta, State.wf_kept, State.wr_kept]

theorem State.send_kept (s : State) (o : Out) : (s.send o).kept = s.kept := by
  simp only [State.send, State.kept_mk, State.kept_eta]

theorem State.sendDatagram_kept (s : State) (kind : Nat) (count : Nat) (first : Nat) (offset : Nat) (payload : List (BitVec 8)) :
    (s.sendDatagram kind count first offset payload).kept = s.kept := by
  simp only [State.sendDatagram, State.kept_mk, State.kept_eta, State.bump_kept, State.send_kept]

theorem State.sendMark_kept (s : State) (kind : Nat) (first : Nat) : (s.sendMark kind first).kept = s.kept := by
  simp only [State.sendMark, State.sendDatagram_kept, State.fresh_kept]

theorem State.abandonStream_kept (s : State) : (s.abandonStream).kept = s.kept := by
  simp only [State.abandonStream]
  repeat' split
  all_goals simp only [State.wf_kept, State.sendMark_kept]

theorem State.repairLine_kept (s : State) (bad : List Nat) (l : SramLine) : (s.repairLine bad l).1.kept = s.kept := by
  simp only [State.repairLine]
  repeat' split
  all_goals simp only [State.modFlash_kept, State.requestDrain_kept]

theorem State.freeHitches_kept (s : State) (id : Nat) : (s.freeHitches id).kept = s.kept := by
  unfold State.freeHitches
  refine State.foldl_kept (fun t x => ?_) _ _
  split <;> simp only [State.wf_kept]

theorem State.setQ_kept (s : State) (p : QPort) (x : QState) : (s.setQ p x).kept = s.kept := by
  unfold State.setQ
  split <;> simp only [State.kept_mk, State.kept_eta]

theorem State.flit_kept (s : State) (p : QPort) (idle : Bool) (nak : Bool) (slots : List (BitVec 128)) : (s.flit p idle nak slots).kept = s.kept := by
  simp only [State.flit]
  split <;> simp only [State.setQ_kept, State.send_kept]

theorem State.qNakFlush_kept (s : State) (p : QPort) : (s.qNakFlush p).kept = s.kept := by
  simp only [State.qNakFlush]
  split <;> simp only [State.flit_kept, State.setQ_kept]

theorem State.xferSend_kept (s : State) (x : Xfer) : (s.xferSend x).kept = s.kept := by
  simp only [State.xferSend, State.kept_mk, State.kept_eta]

theorem State.rowDone_kept (s : State) (xid : Nat) (idx : Nat) (e : Entry) (err : Option (BitVec 64)) : (s.rowDone xid idx e err).kept = s.kept := by
  simp only [State.rowDone]
  repeat' split
  all_goals simp only [State.kept_mk, State.kept_eta, State.xferSend_kept]

theorem State.rowDenied_kept (s : State) (r : RowReq) : (s.rowDenied r).kept = s.kept := by
  unfold State.rowDenied
  split <;> simp only [State.bump_kept, State.rowDone_kept]

theorem State.xferDenied_kept (s : State) (xid : Nat) (idx : Nat) : (s.xferDenied xid idx).kept = s.kept := by
  simp only [State.xferDenied, State.rowDenied_kept]

theorem State.loadStop_kept (s : State) (gp : Nat) (err : Nat) : (s.loadStop gp err).kept = s.kept := by
  simp only [State.loadStop, State.wf_kept, State.modCore_kept]

theorem State.thrRec_kept (s : State) (pg : Nat) (ue : Bool) (count : Nat) (cyc : Nat) : (s.thrRec pg ue count cyc).kept = s.kept := by
  simp only [State.thrRec, apply_ite State.kept, ite_self, State.emit_kept]

theorem State.unitDrain_kept (s : State) (pg : Nat) (cyc : Nat) : (s.unitDrain pg cyc).kept = s.kept := by
  simp only [State.unitDrain]
  split <;> simp only [State.requestDrain_kept]

theorem State.window_kept (s : State) (pg : Nat) (sev : Nat) (cyc : Nat) : (s.window pg sev cyc).kept = s.kept := by
  simp only [State.window, apply_ite State.kept, ite_self, State.kept_mk, State.kept_eta, State.unitDrain_kept, State.thrRec_kept]

theorem State.countWin_kept (s : State) (pg : Nat) (bitNo : Nat) (sev : Nat) (cyc : Nat) : (s.countWin pg bitNo sev cyc).kept = s.kept := by
  simp only [State.countWin]
  split <;> simp only [State.countErr_kept, State.window_kept]

theorem State.regionErr_kept (s : State) (pg : Nat) (bitNo : Nat) (sev : Nat) (cls : Nat) (cyc : Nat) (synd : BitVec 64) :
    (s.regionErr pg bitNo sev cls cyc synd).kept = s.kept := by
  simp only [State.regionErr, State.countWin_kept, State.capture_kept]

theorem State.rowFails_kept (s : State) (region : Nat) (off : Nat) : (s.rowFails region off).kept = s.kept := by
  simp only [State.rowFails]
  repeat' split
  all_goals simp only [State.kept_mk, State.kept_eta, State.wrByte_kept]

theorem State.linkCe_kept (s : State) (region : Nat) (off : Nat) (cyc : Nat) : (s.linkCe region off cyc).kept = s.kept := by
  simp only [State.linkCe, State.regionErr_kept]

theorem State.linkUe_kept (s : State) (region : Nat) (off : Nat) (cyc : Nat) (patrol : Bool) : (s.linkUe region off cyc patrol).2.kept = s.kept := by
  simp only [State.linkUe, State.fresh_kept, State.rowFails_kept, State.regionErr_kept]

theorem State.loadDenied_kept (s : State) (gp : Nat) : (s.loadDenied gp).kept = s.kept := by
  simp only [State.loadDenied, State.bump_kept, State.loadStop_kept]

theorem State.modCtx_kept (s : State) (c : Nat) (f : CtxEng → CtxEng) : (s.modCtx c f).kept = s.kept := by
  simp only [State.modCtx, State.setCtxEng_kept]

theorem State.slotSeen_kept (s : State) (c : Nat) (i : Nat) (r : Row) : (s.slotSeen c i r).kept = s.kept := by
  simp only [State.slotSeen, State.modCtx_kept]

theorem State.setTaken_kept (s : State) (c : Nat) (l : List Nat) : (s.setTaken c l).kept = s.kept := by
  simp only [State.setTaken, State.wf_kept, State.modCtx_kept]

theorem State.useFirmware_kept (s : State) : (s.useFirmware).kept = s.kept := by
  unfold State.useFirmware
  refine State.foldl_kept (fun t x => ?_) _ _
  repeat' split
  all_goals simp only [State.modFlash_kept]

theorem State.redraw_kept (s : State) : (s.redraw).kept = s.kept := by
  simp only [State.redraw, State.kept_mk, State.kept_eta, State.wr64_kept]

theorem State.modPow_kept (s : State) (f : Power → Power) : (s.modPow f).kept = s.kept := by
  simp only [State.modPow, State.kept_mk, State.kept_eta]

theorem State.deriveKeys_kept (s : State) : (s.deriveKeys).kept = s.kept := by
  simp only [State.deriveKeys, State.modAon_kept]

theorem State.consumeRec_kept (s : State) : (s.consumeRec).kept = s.kept := by
  simp only [State.consumeRec, State.modFlash_kept]

theorem State.sendTraining_kept (s : State) (p : Nat) : (s.sendTraining p).kept = s.kept := by
  simp only [State.sendTraining, State.send_kept]

theorem State.emptyInputs_kept (s : State) (p : Nat) : (s.emptyInputs p).kept = s.kept := by
  simp only [State.emptyInputs, State.kept_mk, State.kept_eta]

theorem State.srcRec_kept (s : State) (pg : Nat) (bitNo : Nat) (sev : Nat) (cls : Nat) (cyc : Nat) (synd : BitVec 64) :
    (s.srcRec pg bitNo sev cls cyc synd).kept = s.kept := by
  unfold State.srcRec
  split <;> simp only [State.chipRec_kept]

theorem State.fabErr_kept (s : State) (src : Nat) (cls : Nat) (cyc : Nat) (synd : BitVec 64) : (s.fabErr src cls cyc synd).kept = s.kept := by
  simp only [State.fabErr, State.countErr_kept, State.capture_kept]

theorem State.setLink_kept (s : State) (p : Nat) (l : FabLink) : (s.setLink p l).kept = s.kept := by
  simp only [State.setLink, State.kept_mk, State.kept_eta]

theorem State.credRegs_kept (s : State) (p : Nat) : (s.credRegs p).kept = s.kept := by
  unfold State.credRegs
  refine State.foldl_kept (fun t x => ?_) _ _
  simp only [State.wf_kept]

theorem State.setBarrier_kept (s : State) (g : Nat) (b : Barrier) : (s.setBarrier g b).kept = s.kept := by
  simp only [State.setBarrier, State.kept_mk, State.kept_eta]

theorem State.bklDeny_kept (s : State) (i : Nat) : (s.bklDeny i).kept = s.kept := by
  simp only [State.bklDeny, State.bump_kept]

theorem State.rtDrop_kept (s : State) (off : Nat) : (s.rtDrop off).kept = s.kept := by
  simp only [State.rtDrop, State.bump_kept]

theorem State.girthRegs_kept (s : State) : (s.girthRegs).kept = s.kept := by
  simp only [State.girthRegs, State.wf_kept]

theorem State.girthRenew_kept (s : State) (bank : Nat) : (s.girthRenew bank).kept = s.kept := by
  unfold State.girthRenew
  split <;> simp only [State.kept_mk, State.kept_eta, State.girthRegs_kept]

theorem State.resendFrom_kept (s : State) (p : Nat) (seq : Nat) : (s.resendFrom p seq).kept = s.kept := by
  unfold State.resendFrom
  refine State.foldl_kept (fun t x => ?_) _ _
  simp only [State.send_kept]

theorem State.startRetrain_kept (s : State) (p : Nat) (cyc : Nat) : (s.startRetrain p cyc).kept = s.kept := by
  simp only [State.startRetrain, State.wf_kept, State.bump_kept, State.sendTraining_kept, State.fabErr_kept]

theorem State.advanceSvn_kept (s : State) : (s.advanceSvn).kept = s.kept := by
  unfold State.advanceSvn
  refine State.foldl_kept (fun t x => ?_) _ _
  repeat' split
  all_goals simp only [State.modFlash_kept]

theorem State.flashFence_kept (s : State) (gp : Nat) : (s.flashFence gp).kept = s.kept := by
  simp only [State.flashFence, State.kept_mk, State.kept_eta]

theorem State.setBad_kept (s : State) (bist : Option (List Nat)) : (s.setBad bist).kept = s.kept := by
  unfold State.setBad
  refine State.foldl_kept (fun t x => ?_) _ _
  simp only [State.flashFence_kept]

theorem State.copySets_kept (s : State) : (s.copySets).kept = s.kept := by
  simp only [State.copySets, State.kept_mk, State.kept_eta]

theorem State.freeAllPages_kept (s : State) (keepRetired : Bool) : (s.freeAllPages keepRetired).kept = s.kept := by
  unfold State.freeAllPages
  refine State.foldl_kept (fun t x => ?_) _ _
  simp only [State.wf_kept]

theorem State.bootHoles_kept (s : State) : (s.bootHoles).kept = s.kept := by
  simp only [State.bootHoles, apply_ite State.kept, ite_self, State.modFlash_kept, State.requestDrain_kept]

theorem State.setLog_kept (s : State) (gl : Nat) (p : Nat) : (s.setLog gl p).kept = s.kept := by
  simp only [State.setLog, State.wf_kept]

theorem State.setPhys_kept (s : State) (gp : Nat) (st : Nat) : (s.setPhys gp st).kept = s.kept := by
  simp only [State.setPhys, State.wf_kept]

theorem State.setFence_kept (s : State) (gp : Nat) (b : Bool) : (s.setFence gp b).kept = s.kept := by
  simp only [State.setFence]
  split <;> simp only [State.kept_mk, State.kept_eta, State.wf_kept]

theorem State.followPath_kept (s : State) (t : Nat) : (s.followPath t).kept = s.kept := by
  simp only [State.followPath, apply_ite State.kept, ite_self, State.chipRec_kept, State.wf_kept]

theorem State.releaseGen_kept (s : State) : (s.releaseGen).kept = s.kept := by
  simp only [State.releaseGen, State.kept_mk, State.kept_eta, State.wf_kept, State.wr64_kept, State.wr_kept, State.followPath_kept]

theorem State.stepDone_kept (s : State) (env : BootEnv) (k : Nat) : (s.stepDone env k).kept = s.kept := by
  simp only [State.stepDone, State.bump_kept, State.modAon_kept]

theorem State.qUpNow_kept (s : State) (p : QPort) (width : Nat) : (s.qUpNow p width).kept = s.kept := by
  simp only [State.qUpNow, State.wf_kept]

theorem State.qTrain_kept (s : State) (p : QPort) (r : QTrainResult) : (s.qTrain p r).kept = s.kept := by
  simp only [State.qTrain, apply_ite State.kept, ite_self, State.wf_kept, State.setQ_kept, State.qUpNow_kept]

theorem State.quexonTrain_kept (s : State) (env : BootEnv) : (s.quexonTrain env).kept = s.kept := by
  unfold State.quexonTrain
  refine State.foldl_kept (fun t x => ?_) _ _
  split <;> simp only [State.qTrain_kept]

theorem State.bootHearths_kept (s : State) (from1 : Bool) : (s.bootHearths from1).kept = s.kept := by
  unfold State.bootHearths
  split <;> simp only [State.wf_kept, State.modAon_kept]

theorem State.bootClocks_kept (s : State) (env : BootEnv) (from1 : Bool) : (s.bootClocks env from1).kept = s.kept := by
  simp only [State.bootClocks, apply_ite State.kept, ite_self, State.wf_kept]

theorem State.secResult_kept (s : State) (ag : Agent) (r : Nat) : (s.secResult ag r).kept = s.kept := by
  simp only [State.secResult, State.wf_kept]

theorem State.openSession_kept (s : State) (ag : Agent) (o : SecObject) : (s.openSession ag o).kept = s.kept := by
  simp only [State.openSession]
  split <;> simp only [State.kept_mk, State.kept_eta, State.holdAll_kept]

theorem State.retirePending_kept (s : State) : (s.retirePending).kept = s.kept := by
  unfold State.retirePending
  refine State.foldl_kept (fun t x => ?_) _ _
  simp only [State.setOwner_kept]

theorem State.ownerGo_kept (s : State) (o : SecObject) : (s.ownerGo o).kept = s.kept := by
  simp only [State.ownerGo]
  split <;> simp only [State.kept_mk, State.kept_eta, State.closeSession_kept]

theorem State.closeReq_kept (s : State) (ag : Agent) : (s.closeReq ag).kept = s.kept := by
  unfold State.closeReq
  repeat' split
  all_goals simp only [State.secResult_kept, State.closeSession_kept]

theorem State.armCommit_kept (s : State) : (s.armCommit).kept = s.kept := by
  simp only [State.armCommit]
  repeat' split
  all_goals simp only [State.kept_mk, State.kept_eta, State.setGenBit_kept]

theorem State.hitchWrite_kept (s : State) (ag : Agent) (n : Nat) (v : Word) : (s.hitchWrite ag n v).kept = s.kept := by
  unfold State.hitchWrite
  split <;> simp only [State.wf_kept, State.bump_kept]

theorem State.rootChanged_kept (s : State) (wasRoot : Bool) (t : Nat) : (s.rootChanged wasRoot t).kept = s.kept := by
  simp only [State.rootChanged, apply_ite State.kept, ite_self, State.kept_mk, State.kept_eta, State.wr_kept, State.setGenBit_kept,
      State.followPath_kept]

theorem State.epCtl_kept (s : State) (val : Word) : (s.epCtl val).kept = s.kept := by
  simp only [State.epCtl]
  split <;> simp only [State.wf_kept]

theorem State.alertClear_kept (s : State) : (s.alertClear).kept = s.kept := by
  simp only [State.alertClear, State.wf_kept, State.modAon_kept]

theorem State.resendSlot_kept (s : State) (slot : Nat) : (s.resendSlot slot).kept = s.kept := by
  simp only [State.resendSlot]
  repeat' split
  all_goals simp only [State.kept_mk, State.kept_eta, State.wf_kept, State.fresh_kept, State.sendMark_kept]

theorem State.dumpResend_kept (s : State) (v : Word) : (s.dumpResend v).kept = s.kept := by
  simp only [State.dumpResend, apply_ite State.kept, ite_self, State.kept_mk, State.kept_eta, State.resendSlot_kept, State.wf_kept]

theorem State.pwrCtl_kept (s : State) (req : Nat) (target : Nat) : (s.pwrCtl req target).kept = s.kept := by
  simp only [State.pwrCtl, State.wf_kept, State.modPow_kept]

theorem State.showLimit_kept (s : State) : (s.showLimit).kept = s.kept := by
  simp only [State.showLimit, State.wf_kept]

theorem State.clkObsWrite_kept (s : State) (val : Word) : (s.clkObsWrite val).kept = s.kept := by
  simp only [State.clkObsWrite]
  split <;> simp only [State.regWrite_kept, State.modPow_kept, State.send_kept]

theorem State.setTurn_kept (s : State) (region : Nat) (o : Option Nat) : (s.setTurn region o).kept = s.kept := by
  simp only [State.setTurn, State.kept_mk, State.kept_eta]

theorem State.asyTgtWrite_kept (s : State) (v : Word) : (s.asyTgtWrite v).kept = s.kept := by
  simp only [State.asyTgtWrite]
  repeat' split
  all_goals simp only [State.kept_mk, State.kept_eta, State.wf_kept, State.wr_kept, State.setTurn_kept]

theorem State.dbgRow_kept (s : State) (gp : Nat) (r : Row) : (s.dbgRow gp r).kept = s.kept := by
  unfold State.dbgRow
  refine State.foldl_kept (fun t x => ?_) _ _
  simp only [State.wr_kept]

theorem State.tick_kept (s : State) (a : Nat) (n : Nat) : (s.tick a n).kept = s.kept := by
  simp only [State.tick, State.kept_mk, State.kept_eta]

theorem State.asySave_kept (s : State) (gp : Nat) (la : Nat) : (s.asySave gp la).kept = s.kept := by
  simp only [State.asySave, State.fresh_kept, State.modAsy_kept, State.setCore_kept]

theorem State.putRow_kept (s : State) (gp : Nat) (la : Nat) (r : Row) : (s.putRow gp la r).kept = s.kept := by
  simp only [State.putRow]
  split <;> simp only [State.modCore_kept, State.setAsy_kept]

theorem State.ringWrite_kept (s : State) (gp : Nat) (n : Nat) (ptr : Nat) (gen : Nat) (la : Nat) (e : Entry) (f : Option (Flight × Nat)) :
    (s.ringWrite gp n ptr gen la e f).kept = s.kept := by
  simp only [State.ringWrite]
  repeat' split
  all_goals simp only [State.bump_kept, State.putRow_kept, State.setCore_kept]

theorem State.doWrite_kept (s : State) (gp : Nat) (a : Access) (port : Nat) (idx : Nat) (dst : WrDst) :
    (s.doWrite gp a port idx dst).kept = s.kept := by
  simp only [State.doWrite]
  repeat' split
  all_goals simp only [State.ringWrite_kept, State.modCore_kept, State.putRow_kept, State.setCore_kept]

theorem State.sticky_kept (s : State) (gp : Nat) (tile : Nat) (bitNo : Nat) : (s.sticky gp tile bitNo).kept = s.kept := by
  simp only [State.sticky, State.wf_kept]

theorem State.accChecks_kept (s : State) (gp : Nat) (cyc : Nat) (f : Flight) : (s.accChecks gp cyc f).kept = s.kept := by
  simp only [State.accChecks]
  repeat' split
  all_goals simp only [State.modCore_kept, State.sticky_kept]

theorem State.replayCapture_kept (s : State) (gp : Nat) (f : Flight) (els : List (BitVec 46)) : (s.replayCapture gp f els).kept = s.kept := by
  simp only [State.replayCapture]
  split <;> simp only [State.modCore_kept]

theorem State.disputeCapture_kept (s : State) (gp : Nat) (f : Flight) (els : List (BitVec 46)) : (s.disputeCapture gp f els).kept = s.kept := by
  unfold State.disputeCapture
  repeat' split
  all_goals simp only [State.modCore_kept]

theorem State.orBits_kept (s : State) (a : Nat) (bits : Nat) : (s.orBits a bits).kept = s.kept := by
  simp only [State.orBits, State.wr_kept]

theorem State.pcaStep_kept (s : State) (gp : Nat) (cyc : Nat) (tile : Nat) (idx : Nat) (pca : Nat) (pset : Nat) :
    (s.pcaStep gp cyc tile idx pca pset).kept = s.kept := by
  simp only [State.pcaStep]
  split <;> simp only [State.modCore_kept, State.coreErr_kept, State.sticky_kept]

theorem State.finishAcc_kept (s : State) (gp : Nat) (cyc : Nat) (f : Flight) (a : AccArgs) : (s.finishAcc gp cyc f a).kept = s.kept := by
  simp only [State.finishAcc, apply_ite State.kept, ite_self, State.disputeCapture_kept, State.pcaStep_kept, State.setCore_kept, State.orBits_kept,
      State.sticky_kept, State.replayCapture_kept]

theorem State.finishLoadTile_kept (s : State) (gp : Nat) (cyc : Nat) (f : Flight) (a : LoadTileArgs) :
    (s.finishLoadTile gp cyc f a).kept = s.kept := by
  simp only [State.finishLoadTile]
  split <;> simp only [State.pcaStep_kept, State.setCore_kept]

theorem State.finishDrain_kept (s : State) (gp : Nat) (f : Flight) (a : DrainArgs) : (s.finishDrain gp f a).kept = s.kept := by
  simp only [State.finishDrain, apply_ite State.kept, ite_self, State.modCore_kept, State.orBits_kept]

theorem State.finish_kept (s : State) (gp : Nat) (cyc : Nat) (f : Flight) : (s.finish gp cyc f).kept = s.kept := by
  unfold State.finish
  split <;> simp only [State.finishLoadTile_kept, State.modCore_kept, State.finishAcc_kept, State.orBits_kept, State.finishDrain_kept]

theorem State.capturesTo_kept (s : State) (gp : Nat) (stop : Nat) : (s.capturesTo gp stop).kept = s.kept := by
  unfold State.capturesTo
  refine State.foldl_kept (fun t x => ?_) _ _
  split <;> simp only [State.wf_kept, State.wr_kept]

theorem State.disputes_kept (s : State) (gp : Nat) (cyc : Nat) (f : Flight) (tile : Nat) (rot : Nat) (ds : List Dispute) :
    (s.disputes gp cyc f tile rot ds).kept = s.kept := by
  simp only [State.disputes]
  repeat' split
  all_goals simp only [State.bump_kept, State.modCore_kept, State.wr_kept, State.coreErr_kept]

theorem State.armAdvance_kept (s : State) (gp : Nat) (n : Nat) : (s.armAdvance gp n).kept = s.kept := by
  simp only [State.armAdvance]
  repeat' split
  all_goals simp only [State.setCore_kept]

theorem State.armsAdvance_kept (s : State) (gp : Nat) : (s.armsAdvance gp).kept = s.kept := by
  unfold State.armsAdvance
  refine State.foldl_kept (fun t x => ?_) _ _
  simp only [State.armAdvance_kept]

theorem State.cutShort_kept (s : State) (gp : Nat) (f : Flight) : (s.cutShort gp f).kept = s.kept := by
  simp only [State.cutShort]
  repeat' split
  all_goals simp only [State.modCore_kept, State.orBits_kept, State.sticky_kept]

theorem State.freeTile_kept (s : State) (gp : Nat) (t : Nat) : (s.freeTile gp t).kept = s.kept := by
  simp only [State.freeTile, State.fresh_kept, State.modCore_kept]

theorem State.freeVec_kept (s : State) (gp : Nat) : (s.freeVec gp).kept = s.kept := by
  simp only [State.freeVec, State.kept_mk, State.kept_eta, State.modCore_kept]

theorem State.claimIn_kept (s : State) (gp : Nat) (p : InPort) : (s.claimIn gp p).kept = s.kept := by
  unfold State.claimIn
  split <;> simp only [State.modCore_kept]

theorem State.reserveOut_kept (s : State) (gp : Nat) (outside : Bool) (p : OutPort) : (s.reserveOut gp outside p).kept = s.kept := by
  unfold State.reserveOut
  split <;> simp only [State.modCore_kept]

theorem State.noteWait_kept (s : State) (gp : Nat) (unit : Nat) (cyc : Nat) (q : QEnt) (op : Op) (ws : List Nat) :
    (s.noteWait gp unit cyc q op ws).kept = s.kept := by
  simp only [State.noteWait, State.modCore_kept]

theorem State.tileState_kept (s : State) (gp : Nat) (tile : Nat) (st : TileSt) (last : Nat) : (s.tileState gp tile st last).kept = s.kept := by
  simp only [State.tileState, State.modCore_kept]

theorem State.flowNext_kept (s : State) (gp : Nat) (dmod : Nat) (key : Nat) : (s.flowNext gp dmod key).2.2.kept = s.kept := by
  simp only [State.flowNext]
  split <;> simp only [State.wf_kept, State.setCore_kept]

theorem State.syncWait_kept (s : State) (gp : Nat) (cyc : Nat) : (s.syncWait gp cyc).kept = s.kept := by
  simp only [State.syncWait, State.modCore_kept]

theorem State.syncHold_kept (s : State) (gp : Nat) (id : Nat) (b : Nat) : (s.syncHold gp id b).kept = s.kept := by
  simp only [State.syncHold, State.setBkl_kept, State.modCore_kept]

theorem State.pmemReport_kept (s : State) (gp : Nat) (idx : Nat) (k : Nat) (ue : Bool) (ce : Bool) : (s.pmemReport gp idx k ue ce).kept = s.kept := by
  simp only [State.pmemReport, apply_ite State.kept, ite_self, State.coreErr_kept]

theorem State.seqStep_kept (s : State) (gp : Nat) (k : Nat) (mine : Nat → Bool) : (s.seqStep gp k mine).kept = s.kept := by
  simp only [State.seqStep, apply_ite State.kept, ite_self, State.setCore_kept, State.pmemReport_kept]

theorem State.dbgRun_kept (s : State) (gp : Nat) (step : Bool) : (s.dbgRun gp step).kept = s.kept := by
  unfold State.dbgRun
  split <;> simp only [State.modCore_kept]

theorem State.loadGo_kept (s : State) (gp : Nat) (v : Word) : (s.loadGo gp v).kept = s.kept := by
  simp only [State.loadGo, apply_ite State.kept, ite_self, State.wf_kept, State.modCore_kept]

theorem State.loadCtl_kept (s : State) (gp : Nat) (v : Word) : (s.loadCtl gp v).kept = s.kept := by
  simp only [State.loadCtl, apply_ite State.kept, ite_self, State.loadGo_kept, State.wr_kept, State.loadStop_kept]

theorem State.partEntry_kept (s : State) (region : Nat) (i : Nat) (v : Nat) : (s.partEntry region i v).kept = s.kept := by
  simp only [State.partEntry]
  repeat' split
  all_goals simp only [State.wr_kept, State.wrByte_kept]

theorem State.partWrite_kept (s : State) (region : Nat) (word : Nat) (val : Word) : (s.partWrite region word val).kept = s.kept := by
  unfold State.partWrite
  refine State.foldl_kept (fun t x => ?_) _ _
  simp only [State.partEntry_kept]

theorem State.freePage_kept (s : State) (region : Nat) (page : Nat) : (s.freePage region page).kept = s.kept := by
  unfold State.freePage
  split <;> simp only [State.kept_mk, State.kept_eta, State.setOwner_kept]

theorem State.ctrlErr_kept (s : State) (pg : Nat) (cyc : Nat) : (s.ctrlErr pg cyc).kept = s.kept := by
  unfold State.ctrlErr
  split <;> simp only [State.errUp_kept, State.unitDrain_kept, State.window_kept]

theorem State.seamReads_kept (s : State) (gp : Nat) (n : Nat) : (s.seamReads gp n).kept = s.kept := by
  unfold State.seamReads
  refine State.foldl_kept (fun t x => ?_) _ _
  simp only [State.seqStep_kept]

theorem State.seqSeam_kept (s : State) (gp : Nat) : (s.seqSeam gp).kept = s.kept := by
  simp only [State.seqSeam, State.seamReads_kept]

theorem State.timePass_kept (s : State) (len : Nat) : (s.timePass len).kept = s.kept := by
  simp only [State.timePass]
  repeat' split
  all_goals simp only [State.kept_mk, State.kept_eta, State.closeSession_kept, State.modAon_kept]

theorem State.stepCount_kept (s : State) : (s.stepCount).kept = s.kept := by
  simp only [State.stepCount, State.kept_mk, State.kept_eta, State.wr64_kept]

theorem State.reference_kept (s : State) (ph : ℤ) : (s.reference ph).kept = s.kept := by
  simp only [State.reference, State.kept_mk, State.kept_eta, State.wr_kept, State.setGenBit_kept]

theorem State.sendBlock_kept (s : State) (p : Nat) (body : Nat) : (s.sendBlock p body).kept = s.kept := by
  simp only [State.sendBlock, State.send_kept]

theorem State.timeSyncSend_kept (s : State) : (s.timeSyncSend).kept = s.kept := by
  unfold State.timeSyncSend
  refine State.foldl_kept (fun t x => ?_) _ _
  split <;> simp only [State.sendBlock_kept]

theorem State.repWindow_kept (s : State) (p : Nat) : (s.repWindow p).kept = s.kept := by
  unfold State.repWindow
  split <;> simp only [State.setLink_kept]

theorem State.enterIdle_kept (s : State) (st : Nat) : (s.enterIdle st).kept = s.kept := by
  unfold State.enterIdle
  split <;> simp only [State.kept_mk, State.kept_eta, State.wf_kept]

theorem State.stateStep_kept (s : State) : (s.stateStep).kept = s.kept := by
  simp only [State.stateStep, apply_ite State.kept, ite_self, State.wf_kept, State.enterIdle_kept, State.modPow_kept]

theorem State.releaseRec_kept (s : State) : (s.releaseRec).kept = s.kept := by
  simp only [State.releaseRec]
  repeat' split
  all_goals simp only [State.modPow_kept, State.emit_kept]

theorem State.nclkNow_kept (s : State) : (s.nclkNow).kept = s.kept := by
  unfold State.nclkNow
  split <;> simp only [State.wf_kept]

theorem State.powerStep_kept (s : State) : (s.powerStep).kept = s.kept := by
  simp only [State.powerStep, apply_ite State.kept, ite_self, State.wf_kept, State.modPow_kept]

theorem State.holdSensors_kept (s : State) : (s.holdSensors).kept = s.kept := by
  simp only [State.holdSensors, State.modPow_kept]

theorem State.powerBoundary_kept (s : State) : (s.powerBoundary).kept = s.kept := by
  unfold State.powerBoundary
  split <;> simp only [State.wf_kept, State.holdSensors_kept, State.powerStep_kept, State.releaseRec_kept, State.wr_kept, State.nclkNow_kept,
      State.showLimit_kept, State.modPow_kept, State.stateStep_kept]

theorem State.seqStart_kept (s : State) (gp : Nat) : (s.seqStart gp).kept = s.kept := by
  simp only [State.seqStart]
  split <;> simp only [State.setCore_kept]

theorem State.takeTurn_kept (s : State) (gp : Nat) : (s.takeTurn gp).kept = s.kept := by
  simp only [State.takeTurn, State.kept_mk, State.kept_eta, State.setTurn_kept]

theorem State.choose_kept (s : State) (region : Nat) : (s.choose region).kept = s.kept := by
  unfold State.choose
  repeat' split
  all_goals simp only [State.takeTurn_kept]

theorem State.assaySeam_kept (s : State) (gp : Nat) : (s.assaySeam gp).kept = s.kept := by
  simp only [State.assaySeam, apply_ite State.kept, ite_self, State.asyRestore_kept, State.abandonSegment_kept]

theorem State.seqPos_kept (s : State) (gp : Nat) (u : Nat) (body : Nat) : (s.seqPos gp u body).2.kept = s.kept := by
  simp only [State.seqPos]
  split <;> simp only [State.fresh_kept]

theorem State.bodyRecords_kept (s : State) (gp : Nat) (w : Watch) : (s.bodyRecords gp w).kept = s.kept := by
  unfold State.bodyRecords
  repeat' split
  all_goals simp only [State.bump_kept, State.coreErr_kept]

theorem State.scrubSeam_kept (s : State) (gp : Nat) (body : Nat) (rows : List Nat) : (s.scrubSeam gp body rows).kept = s.kept := by
  unfold State.scrubSeam
  split <;> simp only [State.modCore_kept]

theorem State.asyShow_kept (s : State) : (s.asyShow).kept = s.kept := by
  unfold State.asyShow
  refine State.foldl_kept (fun t x => ?_) _ _
  split <;> simp only [State.wr_kept]

theorem State.vcCount_kept (s : State) (p : NetPkt) (now : Nat) : (s.vcCount p now).kept = s.kept := by
  unfold State.vcCount
  repeat' split
  all_goals simp only [State.kept_mk, State.kept_eta, State.tick_kept]

theorem State.publishMc_kept (s : State) : (s.publishMc).kept = s.kept := by
  unfold State.publishMc
  refine State.foldl_kept (fun t x => ?_) _ _
  simp only [State.wf_kept]

theorem State.peak_kept (s : State) (a : Nat) (n : Nat) : (s.peak a n).kept = s.kept := by
  simp only [State.peak, State.kept_mk, State.kept_eta]

theorem State.peakQueue_kept (s : State) (mc : Nat) : (s.peakQueue mc).kept = s.kept := by
  simp only [State.peakQueue, State.peak_kept]

theorem State.bklSnap_kept (s : State) (i : Nat) : (s.bklSnap i).kept = s.kept := by
  simp only [State.bklSnap, State.wr_kept]

theorem State.setEntry_kept (s : State) (a : Nat) (o : Option Nat) : (s.setEntry a o).kept = s.kept := by
  simp only [State.setEntry, State.wr_kept]

theorem State.commitOne_kept (s : State) (h : Nat) (p : Word) : (s.commitOne h p).kept = s.kept := by
  unfold State.commitOne
  split <;> simp only [State.wr_kept]

theorem State.periodCommit_kept (s : State) : (s.periodCommit).kept = s.kept := by
  simp only [State.periodCommit, State.wf_kept, State.setGenBit_kept]

theorem State.activate_kept (s : State) (src : Nat) : (s.activate src).kept = s.kept := by
  simp only [State.activate, apply_ite State.kept, ite_self, State.kept_mk, State.kept_eta, State.wf_kept, State.wr_kept, State.setGenBit_kept]

theorem State.commitSrc_kept (s : State) (t : Nat) : (s.commitSrc t).kept = s.kept := by
  simp only [State.commitSrc, apply_ite State.kept, ite_self, State.setGenBit_kept, State.activate_kept, State.followPath_kept]

theorem State.restartPasses_kept (s : State) : (s.restartPasses).kept = s.kept := by
  simp only [State.restartPasses, State.kept_mk, State.kept_eta]

theorem State.confirm_kept (s : State) (gp : Nat) (cause : Nat) (area : Nat) : (s.confirm gp cause area).kept = s.kept := by
  simp only [State.confirm, apply_ite State.kept, ite_self, State.kept_mk, State.kept_eta]

theorem State.ringCommit_kept (s : State) (old : State) (gp : Nat) (n : Nat) : (s.ringCommit old gp n).kept = s.kept := by
  simp only [State.ringCommit]
  split <;> simp only [State.wf_kept, State.modCore_kept]

theorem State.commitDone_kept (s : State) : (s.commitDone).kept = s.kept := by
  simp only [State.commitDone, apply_ite State.kept, ite_self, State.kept_mk, State.kept_eta, State.wf_kept, State.wr_kept, State.setGenBit_kept]

theorem State.rngCommit_kept (s : State) (old : State) (gp : Nat) : (s.rngCommit old gp).kept = s.kept := by
  simp only [State.rngCommit, apply_ite State.kept, ite_self, State.wf_kept, State.seedKeys_kept, State.freshKeys_kept]

theorem State.setLatch_kept (s : State) (ag : Agent) (v : Option Nat) : (s.setLatch ag v).kept = s.kept := by
  unfold State.setLatch
  split <;> simp only [State.kept_mk, State.kept_eta]

theorem State.countLo_kept (s : State) (ag : Agent) : (s.countLo ag).2.kept = s.kept := by
  simp only [State.countLo, State.setLatch_kept]

theorem State.countHi_kept (s : State) (ag : Agent) : (s.countHi ag).2.kept = s.kept := by
  simp only [State.countHi, State.setLatch_kept]

theorem State.acquire_kept (s : State) (e : Nat) : (s.acquire e).kept = s.kept := by
  simp only [State.acquire, State.kept_mk, State.kept_eta]

theorem State.sourceLost_kept (s : State) (t : Nat) : (s.sourceLost t).kept = s.kept := by
  simp only [State.sourceLost, State.kept_mk, State.kept_eta, State.chipRec_kept, State.wf_kept, State.setGenBit_kept, State.followPath_kept]

theorem State.issueRemote_kept (s : State) (gp : Nat) (dmod : Nat) (d : FeedDesc) (ctx : Option Nat) (hi : Nat) :
    (s.issueRemote gp dmod d ctx hi).1.kept = s.kept := by
  unfold State.issueRemote
  refine State.foldl_kept (fun t x => ?_) _ _
  simp only [State.kept_mk, State.kept_eta]

theorem State.fenceDrop_kept (s : State) (gp : Nat) (rows : Nat) : (s.fenceDrop gp rows).kept = s.kept := by
  simp only [State.fenceDrop, State.tick_kept]

theorem State.takeArrival_kept (s : State) (n : Nat) : (s.takeArrival n).kept = s.kept := by
  simp only [State.takeArrival, State.kept_mk, State.kept_eta]

theorem State.treeDrop_kept (s : State) : (s.treeDrop).kept = s.kept := by
  simp only [State.treeDrop, State.bump_kept]

theorem State.recvDrop_kept (s : State) (gp : Nat) : (s.recvDrop gp).kept = s.kept := by
  simp only [State.recvDrop, State.bump_kept]

theorem State.landUnit_kept (s : State) (gp : Nat) (cyc : Nat) (n : Nat) (ptr : Nat) (point : Nat) (unit : Nat) (k : Packet) (rows : List Entry) (b :
    Word) : (s.landUnit gp cyc n ptr point unit k rows b).kept = s.kept := by
  simp only [State.landUnit]
  split <;> simp only [State.brandFail_kept]

theorem State.rstDrop_kept (s : State) : (s.rstDrop).kept = s.kept := by
  simp only [State.rstDrop, State.bump_kept]

theorem State.ringStale_kept (s : State) (gp : Nat) (rows : Nat) : (s.ringStale gp rows).kept = s.kept := by
  simp only [State.ringStale, State.bump_kept]

theorem State.clearUpset_kept (s : State) (key : Nat) (mask : Nat) : (s.clearUpset key mask).kept = s.kept := by
  simp only [State.clearUpset, State.kept_mk, State.kept_eta]

theorem State.setHideBrand_kept (s : State) (k : Nat) (b : Option Word) : (s.setHideBrand k b).kept = s.kept := by
  simp only [State.setHideBrand]
  split <;> simp only [State.kept_mk, State.kept_eta, State.clearUpset_kept]

theorem State.sliceWrite_kept (s : State) (n : Nat) (row : Nat) (r : Row) : (s.sliceWrite n row r).kept = s.kept := by
  simp only [State.sliceWrite, State.kept_mk, State.kept_eta]

theorem State.returnRow_kept (s : State) (ctx : Option Nat) (c : Nat) (row : Nat) (r : Row) : (s.returnRow ctx c row r).kept = s.kept := by
  unfold State.returnRow
  split <;> simp only [State.bump_kept, State.setCtxEng_kept]

theorem State.brandUnit_kept (s : State) (addr : Nat) (done : List Bool) (b : Word) : (s.brandUnit addr done b).kept = s.kept := by
  unfold State.brandUnit
  repeat' split
  all_goals simp only [State.kept_mk, State.kept_eta, State.setHideBrand_kept]

theorem State.xbarGrant_kept (s : State) (blk : Nat) (out : Nat) (in_ : Nat) : (s.xbarGrant blk out in_).kept = s.kept := by
  simp only [State.xbarGrant, State.kept_mk, State.kept_eta]

theorem State.rowBrand_kept (s : State) (r : RowReq) (b : Option Word) : (s.rowBrand r b).kept = s.kept := by
  unfold State.rowBrand
  split <;> simp only [State.kept_mk, State.kept_eta]

theorem State.mcTake_kept (s : State) (mc : Nat) (now : Nat) (r : RowReq) : (s.mcTake mc now r).kept = s.kept := by
  simp only [State.mcTake, State.kept_mk, State.kept_eta]

theorem State.linkFault_kept (s : State) (region : Nat) (off : Nat) (err : Nat) (cyc : Nat) (patrol : Bool) (row : Row) (st : Option (BitVec 64)) :
    (s.linkFault region off err cyc patrol row st).2.2.kept = s.kept := by
  unfold State.linkFault
  repeat' split
  all_goals simp only [State.fresh_kept, State.linkUe_kept, State.linkCe_kept]

theorem State.tickSum_kept (s : State) (a : Nat) (n : Nat) : (s.tickSum a n).kept = s.kept := by
  unfold State.tickSum
  split <;> simp only [State.tick_kept]

theorem State.dropPkt_kept (s : State) (n : Nat) : (s.dropPkt n).kept = s.kept := by
  simp only [State.dropPkt, State.kept_mk, State.kept_eta]

theorem State.setPkt_kept (s : State) (n : Nat) (p : NetPkt) : (s.setPkt n p).kept = s.kept := by
  simp only [State.setPkt, State.kept_mk, State.kept_eta]

theorem State.leave_kept (s : State) (n : Nat) (p : NetPkt) : (s.leave n p).kept = s.kept := by
  unfold State.leave
  split <;> simp only [State.dropPkt_kept, State.setPkt_kept]

theorem State.netGrant_kept (s : State) (p : NetPkt) (o : Nat) : (s.netGrant p o).kept = s.kept := by
  simp only [State.netGrant, State.kept_mk, State.kept_eta]

theorem State.arrive_kept (s : State) (p : NetPkt) : (s.arrive p).kept = s.kept := by
  simp only [State.arrive, State.kept_mk, State.kept_eta]

theorem State.toCore_kept (s : State) (b : Nat) (gp : Nat) (p : NetPkt) : (s.toCore b gp p).kept = s.kept := by
  unfold State.toCore
  split <;> simp only [State.tickSum_kept, State.arrive_kept]

theorem State.xbarDone_kept (s : State) (blk : Nat) (p : NetPkt) : (s.xbarDone blk p).kept = s.kept := by
  unfold State.xbarDone
  split <;> simp only [State.xbarGrant_kept]

theorem State.noteEsc_kept (s : State) (p : NetPkt) (vc : Nat) : (s.noteEsc p vc).kept = s.kept := by
  unfold State.noteEsc
  repeat' split
  all_goals simp only [State.tick_kept]

theorem State.moveTo_kept (s : State) (n : Nat) (p : NetPkt) (m : Node) (port : Nat) (vc : Nat) (now : Nat) :
    (s.moveTo n p m port vc now).kept = s.kept := by
  simp only [State.moveTo]
  split <;> simp only [State.dropPkt_kept, State.setPkt_kept, State.vcCount_kept, State.noteEsc_kept]

theorem State.freeUnits_kept (s : State) (p : Nat) (k : Packet) : (s.freeUnits p k).kept = s.kept := by
  simp only [State.freeUnits, State.setLink_kept]

theorem State.freeIngress_kept (s : State) (e : Nat) (p : NetPkt) : (s.freeIngress e p).kept = s.kept := by
  unfold State.freeIngress
  split <;> simp only [State.freeUnits_kept]

theorem State.noteGrant_kept (s : State) (p : NetPkt) (h : Hop) : (s.noteGrant p h).kept = s.kept := by
  unfold State.noteGrant
  split <;> simp only [State.netGrant_kept]

theorem State.castStep_kept (s : State) (n : Nat) (p : NetPkt) (now : Nat) : (s.castStep n p now).kept = s.kept := by
  simp only [State.castStep]
  repeat' split
  all_goals simp only [State.kept_mk, State.kept_eta, State.leave_kept, State.noteGrant_kept]

theorem State.stompCopy_kept (s : State) (p : Nat) (k : Packet) : (s.stompCopy p k).kept = s.kept := by
  unfold State.stompCopy
  refine State.foldl_kept (fun t x => ?_) _ _
  split <;> simp only [State.send_kept]

theorem State.crcFail_kept (s : State) (p : Nat) (cyc : Nat) : (s.crcFail p cyc).kept = s.kept := by
  simp only [State.crcFail, State.bump_kept, State.fabErr_kept]

theorem State.sendNak_kept (s : State) (p : Nat) : (s.sendNak p).kept = s.kept := by
  simp only [State.sendNak]
  split <;> simp only [State.sendBlock_kept, State.setLink_kept]

theorem State.rxDeliver_kept (s : State) (p : Nat) (k : Packet) : (s.rxDeliver p k).kept = s.kept := by
  simp only [State.rxDeliver, apply_ite State.kept, ite_self, State.kept_mk, State.kept_eta, State.freeUnits_kept, State.rtDrop_kept,
      State.arrive_kept]

theorem State.sendAck_kept (s : State) (p : Nat) : (s.sendAck p).kept = s.kept := by
  simp only [State.sendAck, State.sendBlock_kept, State.setLink_kept]

theorem State.rxAccept_kept (s : State) (p : Nat) (k : Packet) : (s.rxAccept p k).kept = s.kept := by
  simp only [State.rxAccept]
  split <;> simp only [State.sendAck_kept, State.rxDeliver_kept, State.setLink_kept]

theorem State.replayRecord_kept (s : State) (p : Nat) (seq : Nat) (cyc : Nat) : (s.replayRecord p seq cyc).kept = s.kept := by
  simp only [State.replayRecord]
  split <;> simp only [State.srcRec_kept, State.setLink_kept]

theorem State.replay_kept (s : State) (p : Nat) (seq : Nat) (t : Nat) : (s.replay p seq t).kept = s.kept := by
  simp only [State.replay, apply_ite State.kept, ite_self, State.bump_kept, State.fabErr_kept, State.replayRecord_kept, State.resendFrom_kept,
      State.setLink_kept, State.startRetrain_kept]

theorem State.cutPacket_kept (s : State) (p : Nat) (cut : Bool) : (s.cutPacket p cut).kept = s.kept := by
  unfold State.cutPacket
  split <;> simp only [State.send_kept]

theorem State.takeTree_kept (s : State) (n : Nat) (p : NetPkt) : (s.takeTree n p).kept = s.kept := by
  unfold State.takeTree
  split <;> simp only [State.freeIngress_kept, State.takeArrival_kept]

theorem State.treeBrand_kept (s : State) (k : Packet) (point : Nat) (cyc : Nat) (units : List Nat) :
    (s.treeBrand k point cyc units).kept = s.kept := by
  unfold State.treeBrand
  refine State.foldl_kept (fun t x => ?_) _ _
  simp only [State.chipRec_kept]

theorem State.combine_kept (s : State) (region : Nat) (rop : Nat) (rfmt : Nat) (a : List Entry) (b : List Entry) :
    (s.combine region rop rfmt a b).2.2.2.kept = s.kept := by
  simp only [State.combine, State.kept_mk, State.kept_eta]

theorem State.exchangeDone_kept (s : State) (ph : ℤ) (t : Nat) : (s.exchangeDone ph t).kept = s.kept := by
  simp only [State.exchangeDone, apply_ite State.kept, ite_self, State.kept_mk, State.kept_eta, State.acquire_kept, State.reference_kept,
      State.followPath_kept]

theorem State.asyBegin_kept (s : State) (gp : Nat) (cyc : Nat) (rows : List Nat) (tile : Option Nat) (tgt : Bool) :
    (s.asyBegin gp cyc rows tile tgt).kept = s.kept := by
  unfold State.asyBegin
  split <;> simp only [State.modCore_kept, State.freeTile_kept, State.modAsy_kept]

theorem State.tgtEnd_kept (s : State) (x : AsyTgt) (misr : BitVec 64) : (s.tgtEnd x misr).kept = s.kept := by
  unfold State.tgtEnd
  repeat' split
  all_goals simp only [State.kept_mk, State.kept_eta, State.modAsy_kept]

theorem State.overdueReg_kept (s : State) : (s.overdueReg).kept = s.kept := by
  simp only [State.overdueReg, State.wr_kept]

theorem State.segmentPassed_kept (s : State) (gp : Nat) (t : Nat) : (s.segmentPassed gp t).kept = s.kept := by
  simp only [State.segmentPassed, apply_ite State.kept, ite_self, State.setAsy_kept, State.choose_kept, State.overdueReg_kept, State.setTurn_kept]

theorem State.coreChip_kept (s : State) (gp : Nat) (sev : Nat) (cls : Nat) (t : Nat) (synd : BitVec 64) :
    (s.coreChip gp sev cls t synd).kept = s.kept := by
  unfold State.coreChip
  split <;> simp only [State.emit_kept]

theorem State.passEnd_kept (s : State) (gp : Nat) (misr : BitVec 64) (t : Nat) : (s.passEnd gp misr t).kept = s.kept := by
  simp only [State.passEnd, apply_ite State.kept, ite_self, State.bump_kept, State.coreChip_kept, State.modAsy_kept, State.confirm_kept,
      State.segmentPassed_kept, State.setTurn_kept]

theorem State.fenceCore_kept (s : State) (gp : Nat) : (s.fenceCore gp).kept = s.kept := by
  simp only [State.fenceCore]
  repeat' split
  all_goals simp only [State.kept_mk, State.kept_eta, State.dropWaiter_kept, State.wf_kept, State.setFence_kept, State.wr_kept, State.modAsy_kept,
      State.flashFence_kept, State.setTurn_kept]

theorem State.healZero_kept (s : State) (gp : Nat) : (s.healZero gp).kept = s.kept := by
  simp only [State.healZero, State.zeroCore_kept, State.zeroCoreDone_kept]

theorem State.makeHole_kept (s : State) (gl : Nat) (t : Nat) : (s.makeHole gl t).kept = s.kept := by
  simp only [State.makeHole]
  split <;> simp only [State.kept_mk, State.kept_eta, State.setLog_kept, State.requestDrain_kept]

theorem State.resendNext_kept (s : State) : (s.resendNext).kept = s.kept := by
  unfold State.resendNext
  split <;> simp only [State.kept_mk, State.kept_eta, State.resendSlot_kept]

theorem State.qNak_kept (s : State) (p : QPort) : (s.qNak p).kept = s.kept := by
  simp only [State.qNak]
  split <;> simp only [State.setQ_kept, State.qNakFlush_kept]

theorem State.snpFree_kept (s : State) (p : QPort) : (s.snpFree p).kept = s.kept := by
  simp only [State.snpFree, State.setQ_kept]

theorem State.reqFree_kept (s : State) (p : QPort) (data : Nat) : (s.reqFree p data).kept = s.kept := by
  simp only [State.reqFree, State.setQ_kept]

theorem State.hitchRead_kept (s : State) (ag : Agent) (n : Nat) : (s.hitchRead ag n).2.kept = s.kept := by
  simp only [State.hitchRead]
  split <;> simp only [State.wf_kept]

theorem State.readReg_kept (s : State) (ag : Agent) (a : Nat) : (s.readReg ag a).2.kept = s.kept := by
  simp only [State.readReg]
  repeat' split
  all_goals simp only [State.secDeny_kept, State.hitchRead_kept, State.countHi_kept, State.countLo_kept]

theorem State.mmioRead_kept (s : State) (ag : Agent) (a : Nat) (wide : Bool) : (s.mmioRead ag a wide).2.kept = s.kept := by
  simp only [State.mmioRead]
  repeat' split
  all_goals simp only [State.readReg_kept]

theorem State.qTake_kept (s : State) (p : QPort) (tag : Nat) (chans : List (Nat × Nat)) : (s.qTake p tag chans).2.kept = s.kept := by
  simp only [State.qTake]
  split <;> simp only [State.setQ_kept]

theorem State.bypass_kept (s : State) (tdi : Bool) : (s.bypass tdi).kept = s.kept := by
  simp only [State.bypass, State.kept_mk, State.kept_eta, State.send_kept]

theorem State.scanOut_kept (s : State) (tdi : Bool) : (s.scanOut tdi).kept = s.kept := by
  unfold State.scanOut
  split <;> simp only [State.bypass_kept, State.fresh_kept, State.send_kept]

theorem State.throttleEnd_kept (s : State) : (s.throttleEnd).kept = s.kept := by
  unfold State.throttleEnd
  split <;> simp only [State.wf_kept, State.modPow_kept]

theorem State.brakeAssay_kept (s : State) (gp : Nat) : (s.brakeAssay gp).kept = s.kept := by
  unfold State.brakeAssay
  split <;> simp only [State.modCore_kept, State.modAsy_kept]

theorem State.clkErr_kept (s : State) (src : Nat) (sev : Nat) (cls : Nat) (cyc : Nat) (synd : BitVec 64) :
    (s.clkErr src sev cls cyc synd).kept = s.kept := by
  simp only [State.clkErr, State.countErr_kept, State.capture_kept]

theorem State.setDynAddr_kept (s : State) (addr : Nat) : (s.setDynAddr addr).kept = s.kept := by
  simp only [State.setDynAddr, State.wf_kept]

theorem State.mctpReply_kept (s : State) (what : Nat) (vals : List Nat) : (s.mctpReply what vals).kept = s.kept := by
  simp only [State.mctpReply, State.send_kept]

theorem State.pull_kept (s : State) (comp : Nat) (offset : Nat) : (s.pull comp offset).kept = s.kept := by
  simp only [State.pull, State.mctpReply_kept]

theorem State.applied_kept (s : State) (comp : Nat) (m : Image) : (s.applied comp m).kept = s.kept := by
  simp only [State.applied, State.modFlash_kept, State.mctpReply_kept]

theorem State.newSet_kept (s : State) (m : Image) : (s.newSet m).kept = s.kept := by
  simp only [State.newSet]
  split <;> simp only [State.kept_mk, State.kept_eta, State.modFlash_kept]

theorem State.showFill_kept (s : State) : (s.showFill).kept = s.kept := by
  simp only [State.showFill, State.wf_kept]

theorem State.recLost_kept (s : State) : (s.recLost).kept = s.kept := by
  simp only [State.recLost, State.bump_kept]

theorem State.logRec_kept (s : State) (l : LogRec) : (s.logRec l).kept = s.kept := by
  unfold State.logRec
  repeat' split
  all_goals simp only [State.kept_mk, State.kept_eta, State.recLost_kept, State.showFill_kept]

theorem State.endJob_kept (s : State) (j : RstJob) (now : Nat) : (s.endJob j now).kept = s.kept := by
  simp only [State.endJob, apply_ite State.kept, ite_self, State.kept_mk, State.kept_eta, State.wf_kept, State.wr_kept, State.pendCtx_kept,
      State.clearEntries_kept, State.foldl_kept, implies_true]

theorem State.settleJobs_kept (s : State) (now : Nat) : (s.settleJobs now).kept = s.kept := by
  simp only [State.settleJobs, State.endJob_kept, State.foldl_kept, implies_true]

theorem State.bklReset_kept (s : State) (i : Nat) : (s.bklReset i).kept = s.kept := by
  simp only [State.bklReset, State.kept_mk, State.kept_eta, State.modCore_kept, State.wr_kept, State.dropArrival_kept, State.foldl_kept, implies_true]

theorem State.resetBuckles_kept (s : State) (gl : Nat) : (s.resetBuckles gl).kept = s.kept := by
  simp only [State.resetBuckles, State.bklReset_kept, State.foldl_kept, implies_true]

theorem State.wipeCore_kept (s : State) (gp : Nat) (which : Nat → Bool) : (s.wipeCore gp which).kept = s.kept := by
  simp only [State.wipeCore]
  split <;> simp only [State.dropTraffic_kept, State.zeroCore_kept, State.abandonSegment_kept, State.resetBuckles_kept]

theorem State.resetCtx_kept (s : State) (c : Nat) (hung : List Nat) : (s.resetCtx c hung).kept = s.kept := by
  simp only [State.resetCtx, State.zeroSlice_kept, State.endCtx_kept, State.wipeCore_kept, State.resetBuckles_kept, State.foldl_kept, implies_true]

theorem State.goContext_kept (s : State) (r : RstGo) : (s.goContext r).kept = s.kept := by
  simp only [State.goContext, State.settleJobs_kept, State.resetCtx_kept, State.startJob_kept]

theorem State.goEngine_kept (s : State) (r : RstGo) : (s.goEngine r).kept = s.kept := by
  unfold State.goEngine
  repeat' split
  all_goals simp only [State.wipeCore_kept, State.startJob_kept]

theorem State.enableBlock_kept (s : State) (b : Nat) : (s.enableBlock b).kept = s.kept := by
  simp only [State.enableBlock, apply_ite State.kept, ite_self, State.enableUnit_kept, State.foldl_kept, implies_true]

theorem State.goPartition_kept (s : State) (r : RstGo) : (s.goPartition r).kept = s.kept := by
  simp only [State.goPartition, apply_ite State.kept, ite_self, State.kept_mk, State.kept_eta, State.settleJobs_kept, State.zeroSlice_kept,
      State.clearPages_kept, State.wipeCore_kept, State.enableBlock_kept, State.resetCtx_kept, State.clearCoreRegs_kept, State.startJob_kept,
      State.foldl_kept, implies_true]

theorem State.freshCompute_kept (s : State) : (s.freshCompute).kept = s.kept := by
  simp only [State.freshCompute, State.kept_mk, State.kept_eta, State.zeroSliceDone_kept, State.dropTraffic_kept, State.zeroSlice_kept,
      State.zeroCore_kept, State.clearPages_kept, State.endCtx_kept, State.zeroCoreDone_kept, State.clearEntries_kept, State.abandonSegment_kept,
      State.foldl_kept, implies_true]

theorem State.channelFails_kept (s : State) (mc : Nat) (t : Nat) : (s.channelFails mc t).kept = s.kept := by
  simp only [State.channelFails, State.wf_kept, State.requestDrain_kept, State.wr_kept, State.foldl_kept, implies_true]

theorem State.enableAll_kept (s : State) : (s.enableAll).kept = s.kept := by
  simp only [State.enableAll, State.enableUnit_kept, State.enableBlock_kept, State.foldl_kept, implies_true]

theorem State.bootStart_kept (s : State) (warm : Bool) : (s.bootStart warm).kept = s.kept := by
  simp only [State.bootStart, State.kept_mk, State.kept_eta, State.wf_kept, State.modFlash_kept, State.useFirmware_kept, State.cancelUpdate_kept,
      State.closeSession_kept, State.modAon_kept, State.redraw_kept, State.foldl_kept, implies_true]

theorem State.wakeAll_kept (s : State) (i : Nat) (tok : Option (BitVec 16)) : (s.wakeAll i tok).kept = s.kept := by
  simp only [State.wakeAll, State.setBkl_kept, State.modCore_kept, State.foldl_kept, implies_true]

theorem State.enableUnits_kept (s : State) : (s.enableUnits).kept = s.kept := by
  simp only [State.enableUnits, State.enableUnit_kept, State.enableAll_kept, State.foldl_kept, implies_true]

theorem State.setReady_kept (s : State) : (s.setReady).kept = s.kept := by
  simp only [State.setReady, State.kept_mk, State.kept_eta, State.wf_kept, State.advanceSvn_kept, State.modAon_kept, State.enableUnits_kept]

theorem State.checkId_kept (s : State) : (s.checkId).kept = s.kept := by
  simp only [State.checkId, State.wf_kept, State.girthRenew_kept, State.foldl_kept, implies_true]

theorem State.writeConfig_kept (s : State) : (s.writeConfig).kept = s.kept := by
  simp only [State.writeConfig, State.wf_kept, State.checkId_kept]

theorem State.mapBlock_kept (s : State) (b : Nat) : (s.mapBlock b).kept = s.kept := by
  simp only [State.mapBlock, State.setPhys_kept, State.setLog_kept, State.setFence_kept, State.foldl_kept, implies_true]

theorem State.spdmReply_kept (s : State) (mailbox : Option Agent) (bytes : List (BitVec 8)) : (s.spdmReply mailbox bytes).kept = s.kept := by
  unfold State.spdmReply
  split <;> simp only [State.wf_kept, State.secResult_kept, State.wr_kept, State.send_kept, State.foldl_kept, implies_true]

theorem State.spdmReq_kept (s : State) (mailbox : Option Agent) (msg : List (BitVec 8)) : (s.spdmReq mailbox msg).kept = s.kept := by
  simp only [State.spdmReq, State.fresh_kept, State.spdmReply_kept]

theorem State.scrubRow_kept (s : State) (gp : Nat) (la : Nat) : (s.scrubRow gp la).kept = s.kept := by
  simp only [State.scrubRow]
  split <;> simp only [State.fresh_kept, State.setCore_kept, State.coreErr_kept, State.foldl_kept, implies_true]

theorem State.departDone_kept (s : State) (gp : Nat) : (s.departDone gp).kept = s.kept := by
  simp only [State.departDone]
  split <;> simp only [State.endPacket_kept, State.setCore_kept, State.foldl_kept, implies_true]

theorem State.clearDispute_kept (s : State) (gp : Nat) : (s.clearDispute gp).kept = s.kept := by
  simp only [State.clearDispute, State.modCore_kept, State.wr_kept, State.foldl_kept, implies_true]

theorem State.showPos_kept (s : State) (gp : Nat) (body : Nat) : (s.showPos gp body).kept = s.kept := by
  simp only [State.showPos, State.seqPos_kept, State.wr_kept, State.foldl_kept, implies_true]

theorem State.dueCheck_kept (s : State) (gp : Nat) : (s.dueCheck gp).kept = s.kept := by
  simp only [State.dueCheck, apply_ite State.kept, ite_self, State.wf_kept, State.bump_kept, State.wr_kept, State.coreErr_kept, State.foldl_kept,
      implies_true]

theorem State.emptyTraces_kept (s : State) (gp : Nat) (tokErr : Bool) : (s.emptyTraces gp tokErr).kept = s.kept := by
  simp only [State.emptyTraces, State.wr_kept, State.setCore_kept, State.foldl_kept, implies_true]

theorem State.ledger_kept (s : State) (gp : Nat) (body : Nat) (w : Watch) (q : Seq) (ovr : Bool) (complete : Bool) (st0 : TileSt) (st1 : TileSt) :
    (s.ledger gp body w q ovr complete st0 st1).kept = s.kept := by
  simp only [State.ledger, State.wr_kept, State.foldl_kept, implies_true]

theorem State.regionTables_kept (s : State) (r : Nat) : (s.regionTables r).kept = s.kept := by
  simp only [State.regionTables, State.setEntry_kept, State.foldl_kept, implies_true]

theorem State.meshTables_kept (s : State) : (s.meshTables).kept = s.kept := by
  simp only [State.meshTables, State.setEntry_kept, State.foldl_kept, implies_true]

theorem State.writeTables_kept (s : State) : (s.writeTables).kept = s.kept := by
  simp only [State.writeTables, State.regionTables_kept, State.meshTables_kept, State.foldl_kept, implies_true]

theorem State.adoptTables_kept (s : State) : (s.adoptTables).kept = s.kept := by
  simp only [State.adoptTables, apply_ite State.kept, ite_self, State.kept_mk, State.kept_eta, State.wf_kept, State.writeTables_kept,
      State.foldl_kept, implies_true]

theorem State.depart_kept (s : State) (gp : Nat) (cyc : Nat) (p : OutPkt) : (s.depart gp cyc p).kept = s.kept := by
  simp only [State.depart, State.kept_mk, State.kept_eta, State.departDone_kept, State.modCore_kept]

theorem State.landChecks_kept (s : State) (gp : Nat) (cyc : Nat) (n : Nat) (ptr : Nat) (point : Nat) (k : Packet) :
    (s.landChecks gp cyc n ptr point k).kept = s.kept := by
  simp only [State.landChecks, apply_ite State.kept, ite_self, State.landUnit_kept, State.coreErr_kept, State.foldl_kept, implies_true]

theorem State.flipBrands_kept (s : State) (region : Nat) (ch : Nat) (c : Nat) (mask : Nat) : (s.flipBrands region ch c mask).kept = s.kept := by
  simp only [State.flipBrands, apply_ite State.kept, ite_self, State.setHideBrand_kept, State.foldl_kept, implies_true]

theorem State.xbarDeliver_kept (s : State) (b : Nat) (p : NetPkt) (g : Goal) : (s.xbarDeliver b p g).kept = s.kept := by
  unfold State.xbarDeliver
  split <;> simp only [State.toCore_kept, State.arrive_kept, State.foldl_kept, implies_true]

theorem State.sourceHop_kept (s : State) (n : Nat) (b : Nat) (p : NetPkt) (now : Nat) : (s.sourceHop n b p now).kept = s.kept := by
  simp only [State.sourceHop, apply_ite State.kept, ite_self, State.dropPkt_kept, State.xbarDeliver_kept, State.moveTo_kept, State.xbarDone_kept]

theorem State.ownCopy_kept (s : State) (n : Nat) (b : Nat) (p : NetPkt) : (s.ownCopy n b p).kept = s.kept := by
  simp only [State.ownCopy, State.leave_kept, State.toCore_kept, State.foldl_kept, implies_true]

theorem State.castNode_kept (s : State) (n : Nat) (p : NetPkt) (now : Nat) : (s.castNode n p now).kept = s.kept := by
  simp only [State.castNode]
  repeat' split
  all_goals simp only [State.bump_kept, State.leave_kept, State.tickSum_kept, State.ownCopy_kept, State.noteGrant_kept, State.castStep_kept]

theorem State.degradeNet_kept (s : State) (region : Nat) (block : Nat) (src : Nat) (cyc : Nat) :
    (s.degradeNet region block src cyc).kept = s.kept := by
  unfold State.degradeNet
  split <;> simp only [State.kept_mk, State.kept_eta, State.requestDrain_kept, State.writeTables_kept]

theorem State.nodeFails_kept (s : State) (n : Node) (cyc : Nat) (now : Nat) : (s.nodeFails n cyc now).kept = s.kept := by
  unfold State.nodeFails
  repeat' split
  all_goals simp only [State.kept_mk, State.kept_eta, State.wf_kept, State.vcCount_kept, State.degradeNet_kept, State.foldl_kept, implies_true]

theorem State.edgeFails_kept (s : State) (r : Nat) (d : Nat) (cyc : Nat) : (s.edgeFails r d cyc).kept = s.kept := by
  unfold State.edgeFails
  split <;> simp only [State.kept_mk, State.kept_eta, State.degradeNet_kept]

theorem State.hopError_kept (s : State) (n : Nat) (p : NetPkt) (err : Nat) (t : Nat) : (s.hopError n p err t).kept = s.kept := by
  simp only [State.hopError]
  repeat' split
  all_goals simp only [State.dropPkt_kept, State.ctrlErr_kept, State.nodeFails_kept, State.vcCount_kept, State.edgeFails_kept, State.regionErr_kept]

theorem State.fecNoted_kept (s : State) (p : Nat) (f : FecCount) (cyc : Nat) : (s.fecNoted p f cyc).kept = s.kept := by
  unfold State.fecNoted
  split <;> simp only [State.bump_kept, State.fabErr_kept, State.foldl_kept, implies_true]

theorem State.copyRegs_kept (s : State) (p : Nat) (q : Nat) : (s.copyRegs p q).kept = s.kept := by
  simp only [State.copyRegs, State.kept_mk, State.kept_eta, State.wr_kept, State.foldl_kept, implies_true]

theorem State.healCopy_kept (s : State) (p : Nat) (q : Nat) : (s.healCopy p q).kept = s.kept := by
  simp only [State.healCopy]
  split <;> simp only [State.kept_mk, State.kept_eta, State.wf_kept, State.modCore_kept, State.copyRegs_kept, State.clearCoreRegs_kept]

theorem State.promote_kept (s : State) (p : Nat) (q : Nat) (gl : Nat) (t : Nat) : (s.promote p q gl t).kept = s.kept := by
  simp only [State.promote]
  split <;> simp only [State.healZero_kept, State.dropTraffic_kept, State.bump_kept, State.setPhys_kept, State.setLog_kept, State.coreChip_kept,
      State.healCopy_kept, State.seedKeys_kept, State.freshKeys_kept]

theorem State.queueRecs_kept (s : State) (t : Nat) : (s.queueRecs t).kept = s.kept := by
  simp only [State.queueRecs, apply_ite State.kept, ite_self, State.kept_mk, State.kept_eta, State.errUp_kept, State.window_kept, State.foldl_kept,
      implies_true]

theorem State.mirrorSlices_kept (s : State) : (s.mirrorSlices).kept = s.kept := by
  simp only [State.mirrorSlices, apply_ite State.kept, ite_self, State.wr_kept, State.foldl_kept, implies_true]

theorem State.idWrite_kept (s : State) (off : Nat) (val : Word) : (s.idWrite off val).kept = s.kept := by
  unfold State.idWrite
  split
  · extract_lets a b
    have hb : b.kept = s.kept := (State.checkId_kept _).trans (State.wf_kept ..)
    split
    · exact hb
    · exact ((State.rootChanged_kept ..).trans (State.fresh_kept _)).trans hb
  · rfl

theorem State.repairAll_kept (s : State) (bringUp : Bool) (hppr rows : List (Nat × Nat)) :
    (s.repairAll bringUp hppr rows).kept = s.kept := by
  have hgo (l : List (Nat × Nat)) (x : State × List (Nat × Nat)) :
      (l.foldl (fun x r => (x.1.repairRow hppr r, if x.1.canRepair hppr r then x.2 else x.2 ++ [r])) x).1.kept = x.1.kept := by
    induction l generalizing x with
    | nil => rfl
    | cons r l ih => exact (ih _).trans (x.1.repairRow_kept hppr r)
  simp only [State.repairAll, apply_ite State.kept, State.foldl_kept, State.keepRetired_kept, State.unretire_kept, implies_true, hgo, ite_self]

theorem State.eccReport_kept (s : State) (gp la code cyc : Nat) (u : BitVec 1152) (l : List Nat) :
    (s.eccReport gp la code cyc u l).kept = s.kept := by
  induction l generalizing s with
  | nil => rfl
  | cons w r ih =>
    unfold State.eccReport
    extract_lets m syn t
    rw [ih t]
    unfold t
    split <;> simp only [State.coreErr_kept]

theorem State.qFlushList_kept (s : State) (p : QPort) (l : List QMsg) (blocked : List Nat) : (s.qFlushList p l blocked).kept = s.kept := by
  induction l generalizing s blocked with
  | nil => rfl
  | cons m r ih =>
    rw [State.qFlushList]
    dsimp only
    split
    · rw [ih, State.flit_kept, State.send_kept, State.setQ_kept]
    · exact ih s _

theorem State.linkFlush_kept (s : State) (p n : Nat) : (s.linkFlush p n).kept = s.kept := by
  induction n generalizing s with
  | zero => rfl
  | succ n ih =>
    rw [State.linkFlush]
    split
    · rw [ih, State.send_kept, State.setLink_kept]
    · rfl

theorem State.finishAll_kept (s : State) (gp cyc : Nat) (l : List Flight) : (s.finishAll gp cyc l).kept = s.kept := by
  induction l generalizing s with
  | nil => rfl
  | cons f r ih => simp only [State.finishAll, apply_ite State.kept, ih, State.modCore_kept, State.finish_kept, ite_self]

theorem State.qResend_kept (s : State) (p : QPort) (l : List (Nat × Nat × List (BitVec 128))) : (s.qResend p l).kept = s.kept := by
  induction l generalizing s with
  | nil => rfl
  | cons x r ih => rw [State.qResend, ih, State.send_kept]

theorem State.runBist_kept (s : State) (b : BistResult) : (s.runBist b).1.kept = s.kept := by
  have hline (l : List _) (x : State × List Nat) : (l.foldl (fun (x : State × List Nat) l => x.1.repairLine x.2 l) x).1.kept = x.1.kept := by
    induction l generalizing x with
    | nil => rfl
    | cons r l ih => exact (ih _).trans (x.1.repairLine_kept x.2 r)
  simp only [State.runBist, State.foldl_kept, State.requestDrain_kept, implies_true, hline]

theorem State.burst_kept (s : State) (region off cyc : Nat) (patrol : Bool) : (s.burst region off cyc patrol).2.2.kept = s.kept := by
  unfold State.burst
  extract_lets key m mc synd ce
  have hce (t : State) : (ce t).kept = t.kept := by simp only [ce, State.kept_mk, State.kept_eta, State.regionErr_kept]
  split <;> simp only [hce, State.regionErr_kept, State.rowFails_kept, apply_ite State.kept, ite_self]

theorem State.disputesTo_kept (s : State) (gp stop : Nat) : (s.disputesTo gp stop).kept = s.kept := by
  simp only [State.disputesTo]
  split
  · rfl
  · refine (State.foldl_kept (fun t p => ?_) _ _).trans (State.modCore_kept ..)
    split
    · exact State.disputes_kept ..
    · rfl

theorem State.takeIn_kept (gp cyc fl rank code : Nat) (op : Op) (x : State × List Access) (p : InPort) :
    (State.takeIn gp cyc fl rank code op x p).1.kept = x.1.kept := State.claimIn_kept ..

theorem State.takeOut_kept (gp cyc fl rank code : Nat) (outside : Bool) (x : State × List Access) (p : OutPort) :
    (State.takeOut gp cyc fl rank code outside x p).1.kept = x.1.kept := State.reserveOut_kept ..

theorem State.numberPkts_kept (s : State) (gp dmod key : Nat) (l : List OutPkt) : (s.numberPkts gp dmod key l).2.kept = s.kept := by
  induction l generalizing s with
  | nil => rfl
  | cons p r ih => exact (ih _).trans (s.flowNext_kept gp dmod key)

theorem feedFired_kept (gp : Nat) (s : State) (n : Nat) (q : QEnt) (op : Op) : (feedFired gp s n q op).kept = s.kept := by
  unfold feedFired
  split
  · exact State.setCore_kept ..
  · rfl

theorem loadActFired_kept (gp : Nat) (s : State) (n : Nat) (q : QEnt) (op : Op) : (loadActFired gp s n q op).kept = s.kept := by
  unfold loadActFired
  split
  · exact State.wr_kept ..
  · rfl

theorem tileFired_kept (gp cyc : Nat) (s : State) (n : Nat) (q : QEnt) (op : Op) : (tileFired gp cyc s n q op).kept = s.kept := by
  unfold tileFired
  split <;> simp only [State.tileState_kept]

theorem armFired_kept (gp : Nat) (s : State) (n : Nat) (q : QEnt) (op : Op) : (armFired gp s n q op).kept = s.kept := by
  unfold armFired
  split
  · exact State.modCore_kept ..
  · rfl

theorem disarmFired_kept (gp : Nat) (s : State) (n : Nat) (q : QEnt) (op : Op) : (disarmFired gp s n q op).kept = s.kept := by
  unfold disarmFired
  split
  · exact State.modCore_kept ..
  · rfl

theorem syncAddFired_kept (gp : Nat) (s : State) (n : Nat) (q : QEnt) (op : Op) : (syncAddFired gp s n q op).kept = s.kept := by
  unfold syncAddFired
  split
  · simp only [State.kept_mk, State.kept_eta, State.flowNext_kept]
  · rfl

theorem waitbFired_kept (gp cyc : Nat) (s : State) (n : Nat) (q : QEnt) (op : Op) : (waitbFired gp cyc s n q op).kept = s.kept := by
  unfold waitbFired
  split
  · simp only [apply_ite State.kept, State.modCore_kept, State.syncWait_kept, State.syncHold_kept, ite_self]
  · rfl

theorem tokenFired_kept (gp cyc : Nat) (s : State) (n : Nat) (q : QEnt) (op : Op) : (tokenFired gp cyc s n q op).kept = s.kept := by
  unfold tokenFired
  split
  · simp only [apply_ite State.kept, State.modCore_kept, State.setBkl_kept, State.syncWait_kept, State.syncHold_kept, ite_self]
  · rfl

theorem State.ifAdmitted_kept (s : State) (ag : Agent) (a : Nat) {f : State → State} (h : (f s).kept = s.kept) :
    (s.ifAdmitted ag a f).kept = s.kept := by
  simp only [State.ifAdmitted, apply_ite State.kept, h, State.secDeny_kept, ite_self]

theorem State.ifHearth_kept (s : State) {f : State → State} (h : (f s).kept = s.kept) : (s.ifHearth f).kept = s.kept := by
  simp only [State.ifHearth, apply_ite State.kept, h, ite_self]

theorem State.tap_kept (s : State) (trst : Bool) {f : State → State} (h : (f s).kept = s.kept) : (s.tap trst f).kept = s.kept := by
  simp only [State.tap, apply_ite State.kept, h, State.kept_mk, State.kept_eta, ite_self]

theorem State.asyBoundary_kept (s : State) : (s.asyBoundary).kept = s.kept := by
  have hturn (t : State) (p : Nat × Option Nat) : (match p.2 with
      | some gp => t.modAsy gp (fun x => { x with idle := if x.gained then 0 else x.idle + 1, gained := false })
      | none => t : State).kept = t.kept := by
    split <;> simp only [State.modAsy_kept]
  simp only [State.asyBoundary, apply_ite State.kept, State.foldl_kept, State.choose_kept, implies_true, ite_self]
  exact State.foldl_kept hturn _ _

theorem State.pairRefs_kept (s : State) (rs ls : List Nat) : (s.pairRefs rs ls).kept = s.kept := by
  induction rs generalizing s ls with
  | nil => simp only [State.pairRefs, State.kept_mk, State.kept_eta]
  | cons r rs ih =>
    cases ls with
    | nil => simp only [State.pairRefs, State.kept_mk, State.kept_eta]
    | cons l ls => rw [State.pairRefs, ih, State.reference_kept]

theorem noExtra_kept (s : State) (n : Nat) (q : QEnt) (op : Op) : (noExtra s n q op).kept = s.kept := rfl

theorem State.openXfers_kept (s : State) (gp : Nat) (d : FeedDesc) (ctx : Option Nat) (l : List Nat) :
    (s.openXfers gp d ctx l).kept = s.kept := by
  induction l generalizing s with
  | nil => rfl
  | cons j r ih =>
    rw [State.openXfers, ih]
    simp only [State.kept_mk, State.kept_eta]

theorem State.sliceReport_kept (s : State) (n row cyc : Nat) (u : BitVec 1152) (l : List Nat) :
    (s.sliceReport n row cyc u l).kept = s.kept := by
  induction l generalizing s with
  | nil => rfl
  | cons w r ih =>
    unfold State.sliceReport
    extract_lets m synd t
    rw [ih t]
    unfold t
    split <;> simp only [State.regionErr_kept]

theorem State.publish_kept (s : State) (now : Nat) : (s.publish now).kept = s.kept := by
  unfold State.publish
  rw [State.foldl_kept (fun t mc => State.peakQueue_kept t mc), State.kept_mk, State.kept_eta, State.foldl_kept (fun t p => ?_),
    State.publishMc_kept, State.kept_mk, State.kept_eta, State.foldl_kept (fun t p => State.vcCount_kept t p now)]
  extract_lets a
  split <;> simp only [State.bump_kept]

theorem State.flowCheck_kept (s : State) (region : Nat) (k : Packet) (dcore now : Nat) : (s.flowCheck region k dcore now).2.kept = s.kept := by
  fun_cases State.flowCheck s region k dcore now <;> simp +zetaDelta only [State.rtDrop_kept, State.kept_mk, State.kept_eta]

theorem State.replayRepairs_kept (s : State) (bringUp : Bool) (hppr : List (Nat × Nat)) : (s.replayRepairs bringUp hppr).kept = s.kept := by
  fun_cases State.replayRepairs s bringUp hppr
  simp +zetaDelta only [State.wf_kept, State.wr_kept, State.repairAll_kept, State.foldl_kept, implies_true]

theorem State.goChip_kept (s : State) (r : RstGo) : (s.goChip r).kept = s.kept := by
  fun_cases State.goChip s r <;> simp +zetaDelta only [State.kept_mk, State.kept_eta, State.pendAll_kept, State.freshCompute_kept, State.endCtx_kept,
      State.channelFails_kept, State.replayRepairs_kept, State.enableAll_kept, State.holdAll_kept, State.startJob_kept, State.endJob_kept,
      State.foldl_kept, implies_true]

theorem State.goLevel_kept (s : State) (r : RstGo) : (s.goLevel r).kept = s.kept := by
  fun_cases State.goLevel s r <;> simp only [State.goContext_kept, State.goEngine_kept, State.goChip_kept, State.goPartition_kept, State.goPower_kept]

theorem State.storeRead_kept (s : State) (gp : Nat) (la : Nat) (code : Nat) (cyc : Nat) : (s.storeRead gp la code cyc).2.kept = s.kept := by
  simp only [State.storeRead]
  repeat' split
  all_goals simp only [State.modCore_kept, State.eccReport_kept]

theorem State.shutGo_kept (s : State) : (s.shutGo).kept = s.kept := by
  simp only [State.shutGo]
  repeat' split
  all_goals simp only [State.wf_kept, State.modFlash_kept, State.modAon_kept, State.runBist_kept]

theorem State.qFlush_kept (s : State) (p : QPort) : (s.qFlush p).kept = s.kept := by
  fun_cases State.qFlush s p <;> simp only [State.qFlushList_kept, State.qNakFlush_kept]

theorem State.qMsg_kept (s : State) (p : QPort) (m : QMsg) : (s.qMsg p m).kept = s.kept := by
  fun_cases State.qMsg s p m
  simp only [State.qFlush_kept, State.setQ_kept]

theorem State.qReq_kept (s : State) (p : QPort) (op : Nat) (addr : Nat) (data : List Row) (why : QWhy) :
    (s.qReq p op addr data why).kept = s.kept := by
  fun_cases State.qReq s p op addr data why
  simp +zetaDelta only [State.setQ_kept, State.qMsg_kept]

theorem State.cachePut_kept (s : State) (key : Nat) (l : CLine) : (s.cachePut key l).kept = s.kept := by
  simp only [State.cachePut]
  repeat' split
  all_goals simp only [State.kept_mk, State.kept_eta, State.qReq_kept]

theorem State.readBrand_kept (s : State) (k : Nat) (cyc : Nat) (err : Nat) : (s.readBrand k cyc err).2.kept = s.kept := by
  unfold State.readBrand
  split <;> simp only [State.burst_kept, State.fresh_kept, State.linkUe_kept, State.linkCe_kept]

theorem State.storedBrand_kept (s : State) (addr : Nat) (cyc : Nat) (err : Nat) : (s.storedBrand addr cyc err).2.kept = s.kept := by
  fun_cases State.storedBrand s addr cyc err <;> simp only [State.readBrand_kept]

theorem State.intWr_kept (s : State) (p : QPort) (v : Nat) (fault : Bool) : (s.intWr p v fault).kept = s.kept := by
  fun_cases State.intWr s p v fault
  simp only [State.qReq_kept]

theorem State.notify_kept (s : State) (p : QPort) (v : Nat) (fault : Bool) : (s.notify p v fault).kept = s.kept := by
  fun_cases State.notify s p v fault <;> simp +zetaDelta only [State.kept_mk, State.kept_eta, State.wf_kept, State.intWr_kept]

theorem State.doneNow_kept (s : State) (c : Nat) (slot : Nat) (line : Row) : (s.doneNow c slot line).kept = s.kept := by
  simp only [State.doneNow]
  repeat' split
  all_goals simp only [State.slotSeen_kept, State.notify_kept, State.bump_kept, State.cachePut_kept, State.wr_kept, State.setTaken_kept,
      State.modCtx_kept]

theorem State.trainDram_kept (s : State) (env : BootEnv) (warm : Bool) : (s.trainDram env warm).kept = s.kept := by
  unfold State.trainDram
  split <;> simp only [State.wf_kept, State.channelFails_kept, State.replayRepairs_kept, State.foldl_kept, implies_true]

theorem State.linkGo_kept (s : State) (p : Nat) : (s.linkGo p).kept = s.kept := by
  fun_cases State.linkGo s p <;> simp only [State.credRegs_kept, State.linkFlush_kept]

theorem State.linkSend_kept (s : State) (p : Nat) (k : Packet) : (s.linkSend p k).kept = s.kept := by
  fun_cases State.linkSend s p k
  simp only [State.linkGo_kept, State.setLink_kept]

theorem State.sendNotice_kept (s : State) (t : Nat) (e : Nat) (p : Nat) : (s.sendNotice t e p).kept = s.kept := by
  fun_cases State.sendNotice s t e p
  simp only [State.linkSend_kept]

theorem State.bklEvent_kept (s : State) (i : Nat) (fault : Bool) : (s.bklEvent i fault).kept = s.kept := by
  fun_cases State.bklEvent s i fault <;> simp only [State.notify_kept, State.bklDeny_kept]

theorem State.bklRelease_kept (s : State) (i : Nat) (fault : Bool) : (s.bklRelease i fault).kept = s.kept := by
  fun_cases State.bklRelease s i fault <;> simp +zetaDelta only [State.kept_mk, State.kept_eta, State.bklEvent_kept, State.setBkl_kept,
      State.wakeAll_kept]

theorem State.barRelease_kept (s : State) (g : Nat) (fault : Bool) (i : Nat) : (s.barRelease g fault i).kept = s.kept := by
  simp only [State.barRelease, apply_ite State.kept, ite_self, State.bklRelease_kept, State.setBkl_kept]

theorem State.barComplete_kept (s : State) (g : Nat) (down : Bool) (epoch : Nat) : (s.barComplete g down epoch).kept = s.kept := by
  fun_cases State.barComplete s g down epoch <;> simp +zetaDelta only [State.wf_kept, State.bump_kept, State.setBarrier_kept, State.barRelease_kept,
      State.linkSend_kept, State.foldl_kept, implies_true]

theorem State.parentDown_kept (s : State) : (s.parentDown).kept = s.kept := by
  simp only [State.parentDown, apply_ite State.kept, ite_self, State.wf_kept, State.barComplete_kept, State.foldl_kept, implies_true]

theorem State.linksChanged_kept (s : State) : (s.linksChanged).kept = s.kept := by
  fun_cases State.linksChanged s <;> simp +zetaDelta only [State.girthRenew_kept, State.parentDown_kept, State.foldl_kept, implies_true]

theorem State.resume_kept (s : State) (p : Nat) (exp : Nat) : (s.resume p exp).kept = s.kept := by
  fun_cases State.resume s p exp
  simp only [State.linkGo_kept, State.resendFrom_kept, State.setLink_kept]

theorem State.portUpNow_kept (s : State) (p : Nat) (use : List Nat) (exp : Nat) (fresh : Bool) (cyc : Nat) :
    (s.portUpNow p use exp fresh cyc).kept = s.kept := by
  simp only [State.portUpNow, apply_ite State.kept, ite_self, State.wf_kept, State.srcRec_kept, State.resume_kept, State.linksChanged_kept,
      State.linkGo_kept, State.setLink_kept]

theorem State.vecCtl_kept (s : State) (p : QPort) (v : Nat) (val : Word) : (s.vecCtl p v val).kept = s.kept := by
  simp only [State.vecCtl, apply_ite State.kept, ite_self, State.kept_mk, State.kept_eta, State.wf_kept, State.intWr_kept, State.fresh_kept]

theorem State.doRead_kept (s : State) (gp : Nat) (cyc : Nat) (a : Access) (port : Nat) (idx : Nat) (src : RdSrc) :
    (s.doRead gp cyc a port idx src).kept = s.kept := by
  simp only [State.doRead]
  repeat' split
  all_goals simp only [State.asySave_kept, State.scrubRow_kept, State.dbgRow_kept, State.modCore_kept, State.storeRead_kept]

theorem State.serve_kept (s : State) (gp : Nat) (cyc : Nat) (a : Access) : (s.serve gp cyc a).kept = s.kept := by
  fun_cases State.serve s gp cyc a <;> simp +zetaDelta only [State.doRead_kept, State.setCore_kept, State.doWrite_kept]

theorem State.cycle_kept (s : State) (gp : Nat) (cyc : Nat) : (s.cycle gp cyc).kept = s.kept := by
  simp only [State.cycle, apply_ite State.kept, ite_self, State.serve_kept, State.finishAll_kept, State.accChecks_kept, State.setCore_kept,
      State.foldl_kept, implies_true]

theorem State.disputesAll_kept (s : State) (gp : Nat) : (s.disputesAll gp).kept = s.kept := by
  fun_cases State.disputesAll s gp
  simp only [State.disputesTo_kept]

theorem State.stopPattern_kept (s : State) (gp : Nat) (cyc : Nat) : (s.stopPattern gp cyc).kept = s.kept := by
  simp only [State.stopPattern, apply_ite State.kept, ite_self, State.cutPackets_kept, State.disputesAll_kept, State.modCore_kept,
      State.freeTile_kept, State.cutShort_kept, State.freeVec_kept, State.foldl_kept, implies_true]

theorem State.openPackets_kept (s : State) (gp : Nat) (id : Nat) (src : Sel) (rows : Nat) (step : Nat) (last : Bool) (hdr : Packet) (flow : Option
    (Nat × Nat)) : (s.openPackets gp id src rows step last hdr flow).kept = s.kept := by
  simp only [State.openPackets]
  split <;> simp only [State.numberPkts_kept, State.modCore_kept]

theorem State.gridBoundary_kept (s : State) : (s.gridBoundary).kept = s.kept := by
  simp only [State.gridBoundary, apply_ite State.kept, ite_self, State.kept_mk, State.kept_eta, State.stepCount_kept, State.setGenBit_kept,
      State.pairRefs_kept, State.followPath_kept]

theorem State.takeSlot_kept (s : State) (c : Nat) : (s.takeSlot c).kept = s.kept := by
  fun_cases State.takeSlot s c <;> simp +zetaDelta only [State.wf_kept, State.bump_kept, State.setTaken_kept, State.modCtx_kept, State.qReq_kept]

theorem State.companionWrite_kept (s : State) (p : QPort) (addr : Nat) (row : Row) (why : QWhy) :
    (s.companionWrite p addr row why).kept = s.kept := by
  fun_cases State.companionWrite s p addr row why <;> simp +zetaDelta only [State.kept_mk, State.kept_eta, State.qReq_kept]

theorem State.closeBank_kept (s : State) (c : Nat) (stroke : Nat) : (s.closeBank c stroke).kept = s.kept := by
  fun_cases State.closeBank s c stroke <;> simp +zetaDelta only [State.bump_kept, State.setCtxEng_kept, State.companionWrite_kept, State.modCtx_kept,
      State.foldl_kept, implies_true]

theorem State.ctxBoundary_kept (s : State) (stroke : Nat) (c : Nat) : (s.ctxBoundary stroke c).kept = s.kept := by
  fun_cases State.ctxBoundary s stroke c <;> simp +zetaDelta only [State.takeSlot_kept, State.closeBank_kept, State.modCtx_kept]

theorem State.overrun_kept (s : State) (gp : Nat) (body : Nat) (q : Seq) : (s.overrun gp body q).kept = s.kept := by
  fun_cases State.overrun s gp body q
  simp +zetaDelta only [State.bump_kept, State.stopPattern_kept, State.coreErr_kept]

theorem State.slotFetch_kept (s : State) (c : Nat) (i : Nat) : (s.slotFetch c i).kept = s.kept := by
  fun_cases State.slotFetch s c i <;> simp only [State.slotSeen_kept, State.qReq_kept]

theorem State.admitCtx_kept (s : State) (c : Nat) : (s.admitCtx c).kept = s.kept := by
  fun_cases State.admitCtx s c <;> simp +zetaDelta only [State.wf_kept, State.slotFetch_kept, State.setCtxEng_kept, State.wr_kept, State.foldl_kept,
      implies_true]

theorem State.commitEffect_kept (s : State) (old : State) (t : Nat) (a : Nat) : (s.commitEffect old t a).kept = s.kept := by
  fun_cases State.commitEffect s old t a <;> simp only [State.restartPasses_kept, State.wf_kept, State.admitCtx_kept, State.periodCommit_kept,
      State.confirm_kept, State.commitSrc_kept]

theorem State.commitAll_kept (old : State) (t : Nat) : (old.commitAll t).kept = old.kept := by
  fun_cases State.commitAll old t
  simp +zetaDelta only [State.kept_mk, State.kept_eta, State.commitOne_kept, State.ringCommit_kept, State.rngCommit_kept, State.commitDone_kept,
      State.commitEffect_kept, State.foldl_kept, implies_true]

theorem State.commitSeam_kept (s : State) (body : Nat) : (s.commitSeam body).kept = s.kept := by
  fun_cases State.commitSeam s body <;> simp only [State.commitAll_kept]

theorem State.companionRead_kept (s : State) (p : QPort) (addr : Nat) (r : RowReq) : (s.companionRead p addr r).kept = s.kept := by
  fun_cases State.companionRead s p addr r <;> simp only [State.rowDenied_kept, State.rowDone_kept, State.qReq_kept]

theorem State.requestRow_kept (s : State) (r : RowReq) : (s.requestRow r).kept = s.kept := by
  fun_cases State.requestRow s r <;> simp only [State.kept_mk, State.kept_eta, State.rowDenied_kept, State.companionRead_kept, State.peakQueue_kept]

theorem State.issueRows_kept (s : State) (gp : Nat) (base : Nat) (d : FeedDesc) (ctx : Option Nat) (lo : Nat) (hi : Nat) :
    (s.issueRows gp base d ctx lo hi).kept = s.kept := by
  simp only [State.issueRows, apply_ite State.kept, ite_self, State.requestRow_kept, State.foldl_kept, implies_true]

theorem State.sliceRead_kept (s : State) (n : Nat) (row : Nat) (cyc : Nat) : (s.sliceRead n row cyc).2.kept = s.kept := by
  simp only [State.sliceRead]
  split <;> simp only [State.sliceReport_kept]

theorem State.dramRead_kept (s : State) (region : Nat) (off : Nat) (cyc : Nat) : (s.dramRead region off cyc).2.2.kept = s.kept := by
  simp only [State.dramRead, State.burst_kept]

theorem State.memDeny_kept (s : State) (p : QPort) (m : QMsg) : (s.memDeny p m).kept = s.kept := by
  fun_cases State.memDeny s p m
  simp only [State.bump_kept, State.qMsg_kept]

theorem State.finalHop_kept (s0 : State) (n : Nat) (p : NetPkt) (g : Goal) : (s0.finalHop n p g).kept = s0.kept := by
  simp only [State.finalHop]
  repeat' split
  all_goals simp only [State.dropPkt_kept, State.bump_kept, State.tickSum_kept, State.setPkt_kept, State.arrive_kept, State.xbarDeliver_kept,
      State.linkSend_kept]

theorem State.doHop_kept (s : State) (n : Nat) (p : NetPkt) (g : Goal) (h : Hop) (now : Nat) : (s.doHop n p g h now).kept = s.kept := by
  unfold State.doHop
  repeat' split
  all_goals simp only [State.dropPkt_kept, State.finalHop_kept, State.noteGrant_kept, State.vcCount_kept, State.moveTo_kept, State.xbarDone_kept]

theorem State.nodeHop_kept (s : State) (n : Nat) (p : NetPkt) (now : Nat) : (s.nodeHop n p now).kept = s.kept := by
  simp only [State.nodeHop]
  repeat' split
  all_goals simp only [State.dropPkt_kept, State.wf_kept, State.bump_kept, State.finalHop_kept, State.noteGrant_kept, State.doHop_kept,
      State.setPkt_kept, State.vcCount_kept, State.noteEsc_kept, State.castNode_kept]

theorem State.takeEgress_kept (s : State) (n : Nat) (p : NetPkt) (port : Nat) (vc : Nat) (now : Nat) :
    (s.takeEgress n p port vc now).kept = s.kept := by
  unfold State.takeEgress
  repeat' split
  all_goals simp only [State.dropPkt_kept, State.freeIngress_kept, State.setPkt_kept, State.linkSend_kept, State.vcCount_kept, State.noteEsc_kept]

theorem State.routeOut_kept (s : State) (n : Nat) (p : NetPkt) (now : Nat) : (s.routeOut n p now).kept = s.kept := by
  simp only [State.routeOut]
  repeat' split
  all_goals simp only [State.dropPkt_kept, State.wf_kept, State.freeIngress_kept, State.rtDrop_kept, State.vcCount_kept, State.takeEgress_kept]

theorem State.sendDown_kept (s : State) (p : NetPkt) (k : Packet) : (s.sendDown p k).kept = s.kept := by
  fun_cases State.sendDown s p k
  simp +zetaDelta only [State.kept_mk, State.kept_eta, State.linkSend_kept, State.foldl_kept, implies_true]

theorem State.sendUp_kept (s : State) (p : NetPkt) (k : Packet) : (s.sendUp p k).kept = s.kept := by
  fun_cases State.sendUp s p k <;> simp only [State.linkSend_kept, State.sendDown_kept]

theorem State.keySettle_kept (s : State) (p : NetPkt) (x : TreeKey) : (s.keySettle p x).kept = s.kept := by
  fun_cases State.keySettle s p x <;> simp only [State.kept_mk, State.kept_eta, State.sendUp_kept]

theorem State.runRst_kept (s : State) (r : RstGo) : (s.runRst r).kept = s.kept := by
  fun_cases State.runRst s r <;> simp only [State.goLevel_kept]

theorem State.qReplay_kept (s : State) (p : QPort) (seq : Nat) : (s.qReplay p seq).kept = s.kept := by
  fun_cases State.qReplay s p seq <;> simp +zetaDelta only [State.wf_kept, State.bump_kept, State.qResend_kept, State.setQ_kept]

theorem State.qHeard_kept (s : State) (p : QPort) (h : Nat) : (s.qHeard p h).kept = s.kept := by
  fun_cases State.qHeard s p h <;> simp +zetaDelta only [State.qReplay_kept, State.setQ_kept, State.qNakFlush_kept]

theorem State.qAccept_kept (s : State) (p : QPort) (h : Nat) : (s.qAccept p h).kept = s.kept := by
  fun_cases State.qAccept s p h <;> simp +zetaDelta only [State.flit_kept, State.qFlush_kept, State.setQ_kept]

theorem State.foldl_snd_kept {α β : Type} {f : β × State → α → β × State} (h : ∀ x a, (f x a).2.kept = x.2.kept) (l : List α) (x : β × State) :
    (l.foldl f x).2.kept = x.2.kept := by
  induction l generalizing x with
  | nil => rfl
  | cons a l ih => exact (ih _).trans (h x a)

theorem State.dumpCorrect_kept (s : State) (u : DumpUnit) : (s.dumpCorrect u).2.kept = s.kept := by
  unfold State.dumpCorrect
  split
  · rfl
  · refine State.foldl_snd_kept (fun x la => ?_) _ _
    exact (State.storeRead_kept ..).trans (State.fresh_kept _)

theorem State.storedBrand_if_kept (s t : State) {c : Prop} [Decidable c] {a m b : Nat} {r : Option Word}
    (h : (if c then s.storedBrand a m b else (none, s)) = (r, t)) : t.kept = s.kept := by
  split at h
  · rw [← s.storedBrand_kept a m b, h]
  · rw [(Prod.mk.inj h).2]

theorem State.loadRow_kept (s : State) (gp cyc mcAt brandErr : Nat) (row : Row) (err : Option (BitVec 64)) :
    (s.loadRow gp cyc mcAt brandErr row err).kept = s.kept := by
  fun_cases State.loadRow s gp cyc mcAt brandErr row err with
  | case1 => rfl
  | case2 => simp only [State.coreErr_kept, State.loadStop_kept]
  | case3 => simp only [State.loadStop_kept, State.brandFail_kept, State.storedBrand_if_kept s _ ‹_ = (_, _)›]
  | case4 => simp +zetaDelta only [State.modCore_kept, State.setCore_kept, State.wf_kept, State.storedBrand_if_kept s _ ‹(if _ then _ else _) = (_,
      _)›]
  | case5 => simp +zetaDelta only [State.setCore_kept, State.wf_kept, State.storedBrand_if_kept s _ ‹(if _ then _ else _) = (_, _)›]

/-- The context of the core is taken as an unknown function, so that the kernel need not compute it to see which case is meant. -/
theorem State.haltCore_kept (s : State) (gp cyc cause : Nat) (idx : Option Nat) : (s.haltCore gp cyc cause idx).kept = s.kept := by
  rw [show @State.haltCore = _ by delta State.haltCore; rfl]
  obtain ⟨ctxOf, hctx⟩ : ∃ f, f = State.coreCtx := ⟨_, rfl⟩
  rw [← hctx]
  cases idx <;> dsimp only <;> split <;>
    simp only [apply_ite State.kept, State.modCore_kept, State.wr_kept, State.stopPattern_kept, State.fresh_kept, State.kept_mk,
      State.kept_eta, ite_self]

theorem State.takeIns_kept (gp cyc fl rank code : Nat) (op : Op) (l : List InPort) (x : State × List Access) :
    (l.foldl (State.takeIn gp cyc fl rank code op) x).1.kept = x.1.kept := by
  induction l generalizing x with
  | nil => rfl
  | cons p l ih => exact (ih _).trans (State.takeIn_kept ..)

theorem State.takeOuts_kept (gp cyc fl rank code : Nat) (b : Bool) (l : List OutPort) (x : State × List Access) :
    (l.foldl (State.takeOut gp cyc fl rank code b) x).1.kept = x.1.kept := by
  induction l generalizing x with
  | nil => rfl
  | cons p l ih => exact (ih _).trans (State.takeOut_kept ..)

theorem State.launch_kept (s : State) (gp unit cyc : Nat) (q : QEnt) (rest : List QEnt) (op : Op) :
    (s.launch gp unit cyc q rest op).kept = s.kept := by
  unfold State.launch
  exact (State.modCore_kept ..).trans ((State.takeOuts_kept ..).trans ((State.takeIns_kept ..).trans
    ((State.modCore_kept ..).trans (State.modCore_kept ..))))

theorem sendFired_kept (gp : Nat) (s : State) (n : Nat) (q : QEnt) (op : Op) : (sendFired gp s n q op).kept = s.kept := by
  unfold sendFired
  split <;> simp only [State.openPackets_kept]

theorem tsendFired_kept (gp : Nat) (s : State) (n : Nat) (q : QEnt) (op : Op) : (tsendFired gp s n q op).kept = s.kept := by
  unfold tsendFired
  split <;> simp only [State.openPackets_kept]

theorem stMemFired_kept (gp : Nat) (s : State) (n : Nat) (q : QEnt) (op : Op) : (stMemFired gp s n q op).kept = s.kept := by
  unfold stMemFired
  split <;> simp only [State.openPackets_kept]

theorem State.runTo_kept (s : State) (gp stop fuel : Nat) : (s.runTo gp stop fuel).kept = s.kept := by
  induction fuel generalizing s with
  | zero => rfl
  | succ n ih =>
    unfold State.runTo
    split
    · rfl
    · exact (ih _).trans (State.cycle_kept ..)

theorem State.barCheck_kept (s : State) (g e n : Nat) : (s.barCheck g e n).kept = s.kept := by
  induction n generalizing s with
  | zero => rfl
  | succ n ih =>
    unfold State.barCheck
    extract_lets b t lcnt
    simp only [apply_ite State.kept, ih, State.barComplete_kept, State.linkSend_kept, State.setBarrier_kept, ite_self]

theorem State.dbgCtl_kept (s : State) (ag : Agent) (gp : Nat) {f : State → State} (h : (f s).kept = s.kept) :
    (s.dbgCtl ag gp f).kept = s.kept := s.ifAdmitted_kept ag _ h

theorem State.onBlock_kept (s : State) (p type t : Nat) (b : BitVec 256) {f : State → State} (h : (f s).kept = s.kept) :
    (s.onBlock p type t b f).kept = s.kept := by
  simp only [State.onBlock, apply_ite State.kept, h, State.crcFail_kept, ite_self]

theorem State.kept_ownerWrite (s : State) (region page v : Nat) : (s.ownerWrite region page v).kept = s.kept := by
  simp only [State.ownerWrite]
  split
  · rfl
  · split <;> simp only [State.wrByte_kept, State.freePage_kept, State.setOwner_kept]

theorem State.ownerWord_kept (s : State) (region word : Nat) (val : Word) : (s.ownerWord region word val).kept = s.kept :=
  State.foldl_kept (fun _ _ => State.kept_ownerWrite ..) _ _

theorem State.answered_kept (s : State) (p : QPort) (r : QReq) (grant : Nat) (line : Option Row) (ue : Bool) :
    (s.answered p r grant line ue).kept = s.kept := by
  simp only [State.answered]
  repeat' split
  all_goals simp only [State.slotSeen_kept, State.bump_kept, State.xferDenied_kept, State.cachePut_kept, State.setTaken_kept, State.loadRow_kept,
      State.doneNow_kept, State.rowDone_kept, State.loadDenied_kept]

theorem State.barStep_kept (s : State) (g : Nat) (e : Nat) : (s.barStep g e).kept = s.kept := by
  fun_cases State.barStep s g e <;> simp only [State.wf_kept, State.barCheck_kept, State.barComplete_kept]

theorem State.girthArrive_kept (s : State) (i : Nat) (fault : Bool) : (s.girthArrive i fault).kept = s.kept := by
  simp only [State.girthArrive, apply_ite State.kept, ite_self, State.wf_kept, State.bump_kept, State.setBarrier_kept, State.barStep_kept]

theorem State.bklFault_kept (s : State) (i : Nat) (n : Nat) : (s.bklFault i n).kept = s.kept := by
  simp only [State.bklFault, apply_ite State.kept, ite_self, State.wf_kept, State.bklRelease_kept, State.girthArrive_kept, State.setBkl_kept,
      State.wakeAll_kept]

theorem State.treeFault_kept (s : State) (t : Nat) (e : Nat) (cause : Nat) (port : Nat) (from_ : Option Nat) (cyc : Nat) :
    (s.treeFault t e cause port from_ cyc).kept = s.kept := by
  fun_cases State.treeFault s t e cause port from_ cyc <;> simp +zetaDelta only [State.kept_mk, State.kept_eta, State.chipRec_kept,
      State.bklFault_kept, State.sendNotice_kept, State.foldl_kept, implies_true]

theorem State.portTrees_kept (s : State) (p : Nat) (cyc : Nat) : (s.portTrees p cyc).kept = s.kept := by
  simp only [State.portTrees, apply_ite State.kept, ite_self, State.treeFault_kept, State.foldl_kept, implies_true]

theorem State.handBack_kept (s : State) (p : Nat) (cyc : Nat) (k : Packet) : (s.handBack p cyc k).kept = s.kept := by
  fun_cases State.handBack s p cyc k <;> simp only [State.kept_mk, State.kept_eta, State.rtDrop_kept, State.treeFault_kept, State.linkSend_kept]

theorem State.portDown_kept (s : State) (p : Nat) (cause : Nat) (cyc : Nat) : (s.portDown p cause cyc).kept = s.kept := by
  fun_cases State.portDown s p cause cyc <;> simp +zetaDelta only [State.wf_kept, State.srcRec_kept, State.handBack_kept, State.portTrees_kept,
      State.linksChanged_kept, State.fabErr_kept, State.emptyInputs_kept, State.setLink_kept, State.foldl_kept, implies_true]

theorem State.trainDone_kept (s : State) (p : Nat) (r : TrainResult) (fresh : Bool) (cyc : Nat) : (s.trainDone p r fresh cyc).kept = s.kept := by
  fun_cases State.trainDone s p r fresh cyc <;> simp +zetaDelta only [State.wf_kept, State.portDown_kept, State.wr_kept, State.portUpNow_kept,
      State.emptyInputs_kept]

theorem State.train_kept (s : State) (p : Nat) (r : TrainResult) (cyc : Nat) : (s.train p r cyc).kept = s.kept := by
  fun_cases State.train s p r cyc <;> simp +zetaDelta only [State.wf_kept, State.sendTraining_kept, State.trainDone_kept, State.startRetrain_kept]

theorem State.trainPorts_kept (s : State) (env : BootEnv) : (s.trainPorts env).kept = s.kept := by
  simp only [State.trainPorts, apply_ite State.kept, ite_self, State.wf_kept, State.train_kept, State.foldl_kept, implies_true]

theorem State.warmStep_kept (s : State) (env : BootEnv) (k : Nat) : (s.warmStep env k).2.kept = s.kept := by
  fun_cases State.warmStep s env k <;> simp only [State.kept_mk, State.kept_eta, State.wf_kept, State.pendAll_kept, State.deriveKeys_kept,
      State.freshCompute_kept, State.consumeRec_kept, State.modAon_kept, State.setReady_kept, State.trainPorts_kept, State.trainDram_kept]

theorem State.writeBarrier_kept (s : State) (g : Nat) (gen : Bool) (val : Word) : (s.writeBarrier g gen val).kept = s.kept := by
  unfold State.writeBarrier
  split <;> simp only [State.wf_kept, State.setBarrier_kept, State.barCheck_kept]

theorem State.bklTest_kept (s : State) (i : Nat) : (s.bklTest i).kept = s.kept := by
  fun_cases State.bklTest s i <;> simp only [State.bklRelease_kept, State.girthArrive_kept]

theorem State.bklAdd_kept (s : State) (ctx : Option Nat) (i : Nat) (v : Word) : (s.bklAdd ctx i v).kept = s.kept := by
  fun_cases State.bklAdd s ctx i v <;> simp +zetaDelta only [State.bklDeny_kept, State.wr_kept, State.tick_kept, State.bklTest_kept]

theorem State.payBuckles_kept (s : State) (gp : Nat) : (s.payBuckles gp).kept = s.kept := by
  fun_cases State.payBuckles s gp <;> simp only [State.bklAdd_kept, State.setCore_kept, State.foldl_kept, implies_true]

theorem State.advance_kept (s : State) (gp : Nat) (stop : Nat) : (s.advance gp stop).kept = s.kept := by
  fun_cases State.advance s gp stop
  simp +zetaDelta only [State.departDone_kept, State.capturesTo_kept, State.modCore_kept, State.runTo_kept, State.disputesTo_kept]

theorem State.brkStep_kept (s : State) (gp : Nat) (cyc : Nat) : (s.brkStep gp cyc).kept = s.kept := by
  fun_cases State.brkStep s gp cyc <;> simp only [State.haltCore_kept]

theorem State.bklArm_kept (s : State) (ctx : Option Nat) (i : Nat) (target : Word) : (s.bklArm ctx i target).kept = s.kept := by
  fun_cases State.bklArm s ctx i target <;> simp +zetaDelta only [State.kept_mk, State.kept_eta, State.wf_kept, State.setBkl_kept,
      State.bklDeny_kept, State.wr_kept, State.dropArrival_kept, State.bklTest_kept, State.foldl_kept, implies_true]

theorem State.dbgHalt_kept (s : State) (gp : Nat) : (s.dbgHalt gp).kept = s.kept := by
  fun_cases State.dbgHalt s gp <;> simp only [State.haltCore_kept]

theorem State.dbgCtlWrite_kept (s : State) (gp : Nat) (v : Word) : (s.dbgCtlWrite gp v).kept = s.kept := by
  simp only [State.dbgCtlWrite, apply_ite State.kept, ite_self, State.dbgRun_kept, State.regWrite_kept, State.dbgHalt_kept]

theorem State.bklWrite_kept (s : State) (idx : Nat) (target : Bool) (val : Word) : (s.bklWrite idx target val).kept = s.kept := by
  fun_cases State.bklWrite s idx target val
  simp only [State.wr_kept, State.bklTest_kept]

theorem State.writeRegion_kept (s : State) (l : Loc) (a : Nat) (v : Word) : (s.writeRegion l a v).kept = s.kept := by
  fun_cases State.writeRegion s l a v <;> simp only [State.bklWrite_kept, State.regWrite_kept, State.partWrite_kept, State.ownerWord_kept]

theorem State.bodyStart_kept (s : State) (span : Nat) (x : Nat) (gp : Nat) : (s.bodyStart span x gp).kept = s.kept := by
  fun_cases State.bodyStart s span x gp <;> simp +zetaDelta only [State.modCore_kept, State.wr_kept, State.seqStart_kept, State.payBuckles_kept,
      State.advance_kept]

theorem State.stepHalt_kept (s : State) (gp : Nat) (body : Nat) : (s.stepHalt gp body).kept = s.kept := by
  simp only [State.stepHalt, apply_ite State.kept, ite_self, State.haltCore_kept, State.modCore_kept]

theorem State.landTo_kept (s : State) (stop : Nat) : (s.landTo stop).kept = s.kept := by
  fun_cases State.landTo s stop
  simp only [State.payBuckles_kept, State.advance_kept, State.foldl_kept, implies_true]

theorem State.bklExpire_kept (s : State) (i : Nat) (cyc : Nat) : (s.bklExpire i cyc).kept = s.kept := by
  fun_cases State.bklExpire s i cyc <;> simp +zetaDelta only [State.bklFault_kept, State.coreErr_kept]

theorem State.bklAge_kept (s : State) (i : Nat) : (s.bklAge i).kept = s.kept := by
  fun_cases State.bklAge s i <;> simp +zetaDelta only [State.bump_kept, State.bklExpire_kept]

theorem State.bklSeam_kept (s : State) : (s.bklSeam).kept = s.kept := by
  fun_cases State.bklSeam s
  simp +zetaDelta only [State.bklAge_kept, State.bklSnap_kept, State.foldl_kept, implies_true]

theorem State.writeEnds_kept (s : State) (w : MemWr) : (s.writeEnds w).kept = s.kept := by
  fun_cases State.writeEnds s w <;> simp +zetaDelta only [State.kept_mk, State.kept_eta, State.bklAdd_kept, State.brandUnit_kept]

theorem State.writeServed_kept (s : State) (id : Nat) (idx : Nat) (wrote : Bool) (admitted : Bool) :
    (s.writeServed id idx wrote admitted).kept = s.kept := by
  fun_cases State.writeServed s id idx wrote admitted <;> simp only [State.kept_mk, State.kept_eta, State.writeEnds_kept]

theorem State.loadDram_kept (s : State) (gp : Nat) (region : Nat) (off : Nat) (err : Nat) (cyc : Nat) :
    (s.loadDram gp region off err cyc).kept = s.kept := by
  unfold State.loadDram
  split <;> simp only [State.dramRead_kept, State.loadRow_kept, State.linkFault_kept, State.loadDenied_kept]

theorem State.activationFaults_kept (s : State) (e : Nat) (cyc : Nat) : (s.activationFaults e cyc).kept = s.kept := by
  unfold State.activationFaults
  refine State.foldl_kept (fun t x => ?_) _ _
  split <;> simp only [State.treeFault_kept]

theorem State.barRecheck_kept (s : State) (e : Nat) : (s.barRecheck e).kept = s.kept := by
  fun_cases State.barRecheck s e
  simp only [State.barCheck_kept, State.foldl_kept, implies_true]

theorem State.girthRx_kept (s : State) (p : Nat) (k : Packet) : (s.girthRx p k).kept = s.kept := by
  simp only [State.girthRx, apply_ite State.kept, ite_self, State.wf_kept, State.bump_kept, State.setBarrier_kept, State.barCheck_kept,
      State.barComplete_kept, State.barStep_kept]

theorem State.dumpRows_kept (s : State) (l : List DumpUnit) : (s.dumpRows l).2.kept = s.kept := by
  unfold State.dumpRows
  refine State.foldl_snd_kept (fun x u => ?_) _ _
  split
  · rfl
  · exact State.dumpCorrect_kept ..

theorem armbFired_kept (gp : Nat) (s : State) (n : Nat) (q : QEnt) (op : Op) : (armbFired gp s n q op).kept = s.kept := by
  unfold armbFired
  split <;> simp only [State.bklArm_kept]

theorem opFired_kept (gp cyc : Nat) (s : State) (n : Nat) (q : QEnt) (op : Op) : (opFired gp cyc s n q op).kept = s.kept := by
  unfold opFired
  split <;> simp only [feedFired_kept, loadActFired_kept, tileFired_kept, sendFired_kept, tsendFired_kept, stMemFired_kept, armFired_kept,
    disarmFired_kept, syncAddFired_kept, waitbFired_kept, tokenFired_kept, armbFired_kept]

/-- An attempt keeps what the operation's own effect keeps. -/
theorem State.attempt_kept (s : State) (gp unit cyc : Nat) (mine : Op → Bool) {extra : State → Nat → QEnt → Op → State}
    (h : ∀ t n q op, (extra t n q op).kept = t.kept) : (s.attempt gp unit cyc mine extra).kept = s.kept := by
  fun_cases State.attempt s gp unit cyc mine extra <;> simp +zetaDelta only [h, State.haltCore_kept, State.launch_kept, State.noteWait_kept]

theorem State.unitsTo_kept (s : State) (gp n k : Nat) : (s.unitsTo gp n k).kept = s.kept := by
  unfold State.unitsTo
  refine (State.foldl_kept (fun t u => State.attempt_kept _ _ _ _ _ (opFired_kept gp k)) _ _).trans ?_
  simp only [apply_ite State.kept, State.brkStep_kept, State.armsAdvance_kept, ite_self]

theorem State.attempts_kept (s : State) (p cyc n : Nat) (rs : List TrainResult) : (s.attempts p cyc n rs).1.kept = s.kept := by
  fun_induction State.attempts s p cyc n rs <;>
    simp_all +zetaDelta only [State.trainDone_kept, State.portDown_kept, State.wf_kept, State.startRetrain_kept]

theorem State.dumpBegin_kept (s : State) (sc : DumpScope) (trigger : Nat) (mask : Nat) (silent : List Nat) (data : Option Nat) :
    (s.dumpBegin sc trigger mask silent data).kept = s.kept := by
  simp only [State.dumpBegin, State.kept_mk, State.kept_eta, State.abandonStream_kept, State.wf_kept, State.wr_kept, State.dumpRows_kept]

theorem State.dumpNow_kept (s : State) (sc : DumpScope) (trigger : Nat) (mask : Nat) (silent : List Nat) :
    (s.dumpNow sc trigger mask silent).kept = s.kept := by
  fun_cases State.dumpNow s sc trigger mask silent
  simp only [State.dumpEnd_kept, State.dumpBegin_kept]

theorem State.dumpThen_kept (s : State) (dump : Bool) (r : RstGo) : (s.dumpThen dump r).kept = s.kept := by
  fun_cases State.dumpThen s dump r <;> simp only [State.kept_mk, State.kept_eta, State.goLevel_kept, State.dumpNow_kept]

theorem State.request_kept (s : State) (dump : Bool) (r : RstGo) : (s.request dump r).kept = s.kept := by
  fun_cases State.request s dump r <;> simp only [State.dumpThen_kept]

theorem State.reqContext_kept (s : State) (ctx : Nat) (dump : Bool) (env : RstEnv) : (s.reqContext ctx dump env).kept = s.kept := by
  fun_cases State.reqContext s ctx dump env
  simp only [State.request_kept]

theorem State.shutReq_kept (s : State) (bist : BistResult) : (s.shutReq bist).kept = s.kept := by
  fun_cases State.shutReq s bist <;> simp +zetaDelta only [State.wf_kept, State.reqContext_kept, State.cancelUpdate_kept, State.shutGo_kept,
      State.modAon_kept, State.foldl_kept, implies_true]

theorem State.qLose_kept (s : State) (p : QPort) : (s.qLose p).2.kept = s.kept := by
  simp only [State.qLose]
  repeat' split
  all_goals simp only [State.kept_mk, State.kept_eta, State.wf_kept, State.reqContext_kept, State.answered_kept, State.closeSession_kept,
      State.freeHitches_kept, State.setQ_kept, State.foldl_kept, implies_true]

theorem State.qDown_kept (s : State) (p : QPort) (cause : Nat) (cyc : Nat) : (s.qDown p cause cyc).kept = s.kept := by
  unfold State.qDown
  split <;> simp only [State.chipRec_kept, State.qLose_kept]

theorem State.portsLost_kept (s : State) : (s.portsLost).kept = s.kept := by
  fun_cases State.portsLost s
  simp only [State.qDown_kept]

theorem State.idlePorts_kept (s : State) : (s.idlePorts).kept = s.kept := by
  simp only [State.idlePorts, apply_ite State.kept, ite_self, State.wf_kept, State.portsLost_kept, State.emptyInputs_kept, State.setLink_kept,
      State.foldl_kept, implies_true]

theorem State.bootFail_kept (s : State) (cause : Nat) : (s.bootFail cause).kept = s.kept := by
  fun_cases State.bootFail s cause
  simp only [State.wf_kept, State.idlePorts_kept, State.modAon_kept]

theorem State.qualify_kept (s : State) (p : Nat) (err1 : Nat → Nat) (err2 : Nat → Nat) (again : List TrainResult) (cold : Bool) (cyc : Nat) :
    (s.qualify p err1 err2 again cold cyc).kept = s.kept := by
  simp only [State.qualify, apply_ite State.kept, ite_self, State.kept_mk, State.kept_eta, State.wf_kept, State.attempts_kept, State.wr_kept,
      State.setLink_kept, State.startRetrain_kept, State.foldl_kept, implies_true]

theorem State.reqEngine_kept (s : State) (gl : Nat) (dump : Bool) (env : RstEnv) : (s.reqEngine gl dump env).kept = s.kept := by
  fun_cases State.reqEngine s gl dump env
  simp only [State.request_kept]

theorem State.reqPartition_kept (s : State) (ctx : Nat) (dump : Bool) (env : RstEnv) : (s.reqPartition ctx dump env).kept = s.kept := by
  fun_cases State.reqPartition s ctx dump env
  simp only [State.request_kept]

theorem State.reqChip_kept (s : State) (dump : Bool) (env : RstEnv) : (s.reqChip dump env).kept = s.kept := by
  fun_cases State.reqChip s dump env
  simp only [State.request_kept]

theorem State.reqPower_kept (s : State) (dump : Bool) (env : RstEnv) : (s.reqPower dump env).kept = s.kept := by
  fun_cases State.reqPower s dump env
  simp only [State.request_kept]

theorem State.rstReq_kept (s : State) (v : Word) : (s.rstReq v).kept = s.kept := by
  simp only [State.rstReq]
  repeat' split
  all_goals simp only [State.fresh_kept, State.reqPartition_kept, State.reqContext_kept, State.reqPower_kept, State.reqEngine_kept,
      State.reqChip_kept]

theorem State.dumpRequest_kept (s : State) (v : Word) (silent : List Nat) : (s.dumpRequest v silent).kept = s.kept := by
  fun_cases State.dumpRequest s v silent
  simp only [State.wf_kept, State.dumpBegin_kept]

theorem State.dumpCtl_kept (s : State) (v : Word) (silent : List Nat) : (s.dumpCtl v silent).kept = s.kept := by
  fun_cases State.dumpCtl s v silent <;> simp only [State.kept_mk, State.kept_eta, State.dumpRequest_kept]

theorem State.qRetrain_kept (s : State) (p : QPort) (r : QTrainResult) (cyc : Nat) : (s.qRetrain p r cyc).kept = s.kept := by
  fun_cases State.qRetrain s p r cyc <;> simp +zetaDelta only [State.chipRec_kept, State.wf_kept, State.qDown_kept, State.qResend_kept,
      State.qFlush_kept, State.setQ_kept, State.qUpNow_kept]

theorem State.qSoft_kept (s : State) (p : QPort) (res : QTrainResult) (cyc : Nat) : (s.qSoft p res cyc).kept = s.kept := by
  fun_cases State.qSoft s p res cyc <;> simp only [State.qTrain_kept, State.qRetrain_kept]

theorem State.qCtl_kept (s : State) (p : QPort) (a : Nat) (v : Word) : (s.qCtl p a v).kept = s.kept := by
  unfold State.qCtl
  split <;> simp only [State.fresh_kept, State.qSoft_kept, State.regWrite_kept]

theorem State.softRetrain_kept (s : State) (port : Nat) (res : TrainResult) (quals : List (Nat × Nat × Nat)) (again : List TrainResult) (cyc : Nat) :
    (s.softRetrain port res quals again cyc).kept = s.kept := by
  fun_cases State.softRetrain s port res quals again cyc <;> simp +zetaDelta only [State.train_kept, State.qualify_kept]

theorem State.fabCtl_kept (s : State) (p : Nat) (a : Nat) (v : Word) : (s.fabCtl p a v).kept = s.kept := by
  unfold State.fabCtl
  split <;> simp only [State.softRetrain_kept, State.fresh_kept, State.regWrite_kept]

theorem State.bodyStep_kept (s : State) (gp : Nat) (k : Nat) : (s.bodyStep gp k).kept = s.kept := by
  simp only [State.bodyStep]
  split <;> simp only [State.seqStep_kept, State.unitsTo_kept, State.payBuckles_kept, State.advance_kept]

theorem State.present_kept (s : State) (ag : Agent) (type : Nat) (o : SecObject) (rule : State → Nat) {go : State → State}
    (h : ∀ t, (go t).kept = t.kept) : (s.present ag type o rule go).kept = s.kept := by
  unfold State.present
  extract_lets r
  rw [State.secResult_kept, State.redraw_kept, apply_ite State.kept, h, ite_self]

theorem State.run_kept (s : State) (gp stop n : Nat) : (s.run gp stop n).kept = s.kept := by
  induction n generalizing s with
  | zero => rfl
  | succ n ih =>
    unfold State.run
    simp only [apply_ite State.kept, ih, State.armsAdvance_kept, State.payBuckles_kept, State.advance_kept, State.bodyStep_kept, ite_self]

theorem State.reach_kept (s : State) (gp stop : Nat) : (s.reach gp stop).kept = s.kept := by
  simp only [State.reach, apply_ite State.kept, State.run_kept, State.payBuckles_kept, State.advance_kept, ite_self]

theorem State.dbgWait_kept (s : State) (gp n : Nat) : (s.dbgWait gp n).kept = s.kept := by
  induction n generalizing s with
  | zero => rfl
  | succ n ih => simp only [State.dbgWait, apply_ite State.kept, ih, State.reach_kept, ite_self]

theorem State.tryFire_kept (s : State) (gp unit cyc : Nat) (mine : Op → Bool) {extra : State → Nat → QEnt → Op → State}
    (h : ∀ t n q op, (extra t n q op).kept = t.kept) : (s.tryFire gp unit cyc mine extra).kept = s.kept := by
  rw [State.tryFire, State.attempt_kept _ _ _ _ _ h]
  simp only [State.reachUnit, apply_ite State.kept, State.unitsTo_kept, State.reach_kept, ite_self]

theorem State.dbgFetch_kept (s : State) (gp : Nat) (la : Nat) : (s.dbgFetch gp la).kept = s.kept := by
  fun_cases State.dbgFetch s gp la
  simp +zetaDelta only [State.modCore_kept, State.dbgWait_kept]

theorem State.dbgSel_kept (s : State) (gp : Nat) (val : Word) : (s.dbgSel gp val).kept = s.kept := by
  simp only [State.dbgSel, apply_ite State.kept, ite_self, State.wf_kept, State.fresh_kept, State.dbgRow_kept, State.wr_kept, State.dbgFetch_kept]

theorem State.writeCore_kept (s : State) (gp : Nat) (l : Loc) (a : Nat) (v : Word) : (s.writeCore gp l a v).kept = s.kept := by
  fun_cases State.writeCore s gp l a v <;> simp only [State.dbgSel_kept, State.dbgCtlWrite_kept, State.regWrite_kept, State.clearDispute_kept,
      State.loadCtl_kept]

theorem State.seamCore_kept (s : State) (gp : Nat) (body : Nat) : (s.seamCore gp body).kept = s.kept := by
  simp only [State.seamCore]
  split <;> simp only [State.dropWaiter_kept, State.assaySeam_kept, State.overrun_kept, State.modCore_kept, State.ledger_kept,
      State.bodyRecords_kept, State.emptyTraces_kept, State.scrubSeam_kept, State.reach_kept, State.stepHalt_kept, State.showPos_kept,
      State.dueCheck_kept]

theorem State.seqReach_kept (s : State) (gp : Nat) (cyc : Nat) : (s.seqReach gp cyc).kept = s.kept := by
  fun_cases State.seqReach s gp cyc <;> simp only [State.reach_kept, State.seamReads_kept]

theorem State.seqRead_kept (s : State) (gp : Nat) (cyc : Nat) (mine : Nat → Bool) : (s.seqRead gp cyc mine).kept = s.kept := by
  fun_cases State.seqRead s gp cyc mine <;> simp +zetaDelta only [State.seqStep_kept, State.seqReach_kept]

theorem State.startLanding_kept (s : State) (gp : Nat) (cyc : Nat) (n : Nat) (ptr : Nat) (gen : Nat) (code : Nat) (rows : List Entry) (k : Packet)
    (bkl : Option Nat) : (s.startLanding gp cyc n ptr gen code rows k bkl).kept = s.kept := by
  fun_cases State.startLanding s gp cyc n ptr gen code rows k bkl <;> simp +zetaDelta only [State.modCore_kept, State.reach_kept]

theorem State.landArmed_kept (s : State) (gp : Nat) (cyc : Nat) (k : Packet) (point : Nat) : (s.landArmed gp cyc k point).kept = s.kept := by
  fun_cases State.landArmed s gp cyc k point <;> simp +zetaDelta only [State.startLanding_kept, State.setCore_kept, State.landChecks_kept]

theorem State.recvPkt_kept (s : State) (gp : Nat) (cyc : Nat) (k : Packet) : (s.recvPkt gp cyc k).2.kept = s.kept := by
  fun_cases State.recvPkt s gp cyc k <;> simp +zetaDelta only [State.modCore_kept, State.recvDrop_kept, State.armAdvance_kept, State.landArmed_kept]

theorem State.landReserved_kept (s : State) (gp : Nat) (cyc : Nat) (n : Nat) (ptr : Nat) (gen : Nat) (k : Packet) :
    (s.landReserved gp cyc n ptr gen k).kept = s.kept := by
  fun_cases State.landReserved s gp cyc n ptr gen k <;> simp only [State.startLanding_kept, State.recvDrop_kept, State.ringStale_kept,
      State.landChecks_kept]

theorem State.landRemote_kept (s : State) (gp : Nat) (cyc : Nat) (k : Packet) : (s.landRemote gp cyc k).kept = s.kept := by
  fun_cases State.landRemote s gp cyc k <;> simp +zetaDelta only [State.bump_kept, State.rtDrop_kept, State.modCore_kept, State.recvDrop_kept,
      State.ringStale_kept, State.landReserved_kept]

theorem State.entryLand_kept (s : State) (c : Nat) (cyc : Nat) (e : Entry) : (s.entryLand c cyc e).2.kept = s.kept := by
  fun_cases State.entryLand s c cyc e <;> simp +zetaDelta only [State.bump_kept, State.startLanding_kept, State.setCore_kept, State.reach_kept]

theorem State.cutCtx_kept (s : State) (cyc : Nat) (c : Nat) : (s.cutCtx cyc c).kept = s.kept := by
  unfold State.cutCtx
  split <;> simp only [State.entryLand_kept, State.modCtx_kept]

theorem State.brakeStop_kept (s : State) (gp : Nat) (cyc : Nat) : (s.brakeStop gp cyc).kept = s.kept := by
  fun_cases State.brakeStop s gp cyc <;> simp +zetaDelta only [State.modCore_kept, State.stopPattern_kept, State.reach_kept]

theorem State.presentToken_kept (s : State) (ag : Agent) (o : SecObject) : (s.presentToken ag o).kept = s.kept :=
  s.present_kept ag 1 o _ fun t => t.openSession_kept ag o

theorem State.presentOwner_kept (s : State) (ag : Agent) (o : SecObject) : (s.presentOwner ag o).kept = s.kept :=
  s.present_kept ag 3 o _ fun t => t.ownerGo_kept o

theorem State.presentRevoked_kept (s : State) (ag : Agent) (o : SecObject) : (s.presentRevoked ag o).kept = s.kept :=
  s.present_kept ag 4 o _ fun t => by simp only [State.kept_mk, State.kept_eta]

theorem State.dumpDrain_kept (s : State) (l : List DumpWait) : (s.dumpDrain l).kept = s.kept := by
  induction l generalizing s with
  | nil => simp only [State.dumpDrain, State.kept_mk, State.kept_eta]
  | cons w l ih =>
    cases w with
    | ctl v q => simp only [State.dumpDrain, State.dumpRequest_kept, State.kept_mk, State.kept_eta]
    | rst join r => simp only [State.dumpDrain, ih, State.runRst_kept, apply_ite State.kept, State.dumpNow_kept, ite_self]

theorem State.contribute_kept (s t : State) (n : Nat) (p : NetPkt) (cyc : Nat) (h : s.contribute n p cyc = some t) : t.kept = s.kept := by
  revert h
  fun_cases State.contribute s n p cyc <;> rintro ⟨⟩
  case case3 hcomb _ _ =>
    have hk := congrArg (fun x => x.2.2.2.kept) hcomb
    simp +zetaDelta only [State.combine_kept, State.treeBrand_kept, State.takeTree_kept] at hk
    simp +zetaDelta only [State.keySettle_kept, State.bump_kept, State.treeBrand_kept, hk]
  all_goals simp +zetaDelta only [State.takeTree_kept, State.rtDrop_kept, State.treeFault_kept, State.keySettle_kept, State.treeBrand_kept]

theorem State.drainBuf_kept (s : State) (gp cyc : Nat) (l : List Packet) : (s.drainBuf gp cyc l).kept = s.kept := by
  induction l generalizing s with
  | nil => rfl
  | cons k r ih =>
    unfold State.drainBuf
    extract_lets t take
    have htake (t : State) : (take t).kept = t.kept := State.modCore_kept ..
    have ht : t.kept = s.kept := State.armAdvance_kept ..
    split
    · simp only [State.treeDrop_kept, htake, ht]
    · split <;> simp only [ih, State.landArmed_kept, State.recvDrop_kept, htake, ht]

end Sys2Proof.Machine

/-! The operations that change memory keep the queue, and keep memory in its canonical form (R183, R187, R335). -/

namespace Sys2Proof.Machine

theorem State.treeStep_kept (s : State) (n : Nat) (p : NetPkt) (cyc : Nat) : (s.treeStep n p cyc).kept = s.kept := by
  unfold State.treeStep
  have hc : ((s.contribute n p cyc).getD s).kept = s.kept := by
    cases h : s.contribute n p cyc with
    | none => rfl
    | some t => exact s.contribute_kept t n p cyc h
  simp only [apply_ite State.kept, State.rtDrop_kept, State.treeDrop_kept, State.sendDown_kept, State.sendUp_kept, State.takeTree_kept, hc, ite_self]

/-- A memory and a queue of commands that keep what `r` has: the queue as it is, and memory in its canonical form if it is so in `r`. -/
def State.Carries (r : State) (k : List Host.Cell × List Instr) : Prop := k.2 = r.pending ∧ (r.Inv → Memory.wf k.1 = true)

theorem State.carries_self (r : State) : r.Carries r.kept := ⟨rfl, id⟩

section
variable {r s : State} (h : r.Carries s.kept)
include h

theorem State.setMemByte_carries (a : Nat) (b : BitVec 8) : r.Carries (s.setMemByte a b).kept :=
  ⟨h.1, fun hr => s.setMemByte_wf a b (h.2 hr)⟩

theorem State.setMemBytes_carries (a : Nat) (l : List (BitVec 8)) : r.Carries (s.setMemBytes a l).kept := by
  induction l generalizing s a with
  | nil => exact h
  | cons b l ih => exact ih (State.setMemByte_carries h a b) (a + 1)

theorem State.setMemRow_carries (a : Nat) (w : Row) : r.Carries (s.setMemRow a w).kept := State.setMemBytes_carries h a _

theorem State.dramWrite_carries (region off : Nat) (w : Row) : r.Carries (s.dramWrite region off w).kept := by
  simp only [State.dramWrite, State.kept_mk, State.kept_eta, State.setHideBrand_kept, State.setMemRow_carries h]

theorem State.flipBurst_carries (key mask : Nat) : r.Carries (s.flipBurst key mask).kept := by
  fun_cases State.flipBurst s key mask
  · simpa only [State.flipBrands_kept] using h
  · exact State.setMemBytes_carries h _ _

/-- Cells taken out of memory leave it in its canonical form. -/
theorem State.filter_carries (f : Host.Cell → Bool) : r.Carries (s.mem.filter f, s.pending) := ⟨h.1, fun hr => Memory.wf_filter s.mem f (h.2 hr)⟩

theorem State.zeroDram_carries : r.Carries s.zeroDram.kept := by
  simp only [State.zeroDram, State.kept_mk]
  exact State.filter_carries h _

theorem State.clearPage_carries (region page : Nat) : r.Carries (s.clearPage region page).kept := by
  simp only [State.clearPage, State.kept_mk]
  exact State.filter_carries h _

theorem State.blank_carries : r.Carries s.blank.kept := by
  simp only [State.blank, State.kept_mk]
  exact ⟨h.1, fun _ => rfl⟩

theorem State.writeMemRow_carries (p : NetPkt) (ctx : Option Nat) (addr : Nat) (e : Entry) : r.Carries (s.writeMemRow p ctx addr e).1.kept := by
  fun_cases State.writeMemRow s p ctx addr e <;>
    simp +zetaDelta only [h, State.dramWrite_carries, State.tick_kept, State.bump_kept, State.sliceWrite_kept, State.companionWrite_kept,
      State.returnRow_kept]
  split <;> simp only [h, State.tick_kept, State.bump_kept]

theorem State.issueWrite_carries (p : NetPkt) (ctx : Option Nat) (id i : Nat) (e : Entry) : r.Carries (s.issueWrite p ctx id i e).kept := by
  simp only [State.issueWrite]
  split <;> simp only [h, State.peakQueue_kept, State.kept_mk, State.kept_eta, State.writeServed_kept, State.writeMemRow_carries]

theorem State.serveRow_carries (q : RowReq) (region off err cyc : Nat) : r.Carries (s.serveRow q region off err cyc).kept := by
  simp only [State.serveRow]
  split
  · split
    · exact h
    · rw [State.writeServed_kept]
      refine State.writeMemRow_carries ?_ ..
      split
      · split <;> simp only [h, State.linkFault_kept]
      · exact h
  · split <;> simp only [h, State.rowDone_kept, State.rowBrand_kept, State.storedBrand_kept, State.linkFault_kept, State.dramRead_kept,
      State.tick_kept, State.rowDenied_kept]

theorem State.hostServe_carries (p : QPort) (op region off tag err : Nat) (mask : BitVec 128) (line : Row) (cyc : Nat) :
    r.Carries (s.hostServe p op region off tag err mask line cyc).kept := by
  simp only [State.hostServe]
  split_ifs <;> simp only [h, State.memDeny_kept, State.qMsg_kept, State.dramWrite_carries, State.linkFault_kept, State.dramRead_kept]

theorem State.serveTwo_carries (mc cyc : Nat) (x : Class2) : r.Carries (s.serveTwo mc cyc x).kept := by
  fun_cases State.serveTwo s mc cyc x <;> simp +zetaDelta only [h, State.hostServe_carries, State.loadDram_kept]

theorem State.classTwo_carries (mc cyc n : Nat) : r.Carries (s.classTwo mc cyc n).kept := by
  induction n generalizing s with
  | zero => exact h
  | succ n ih =>
    unfold State.classTwo
    split
    · exact h
    · split
      · exact h
      · exact ih (State.serveTwo_carries (by simpa only [State.kept_mk, State.kept_eta] using h) ..)

theorem State.joinTwo_carries (mc cyc : Nat) (x : Class2) : r.Carries (s.joinTwo mc cyc x).kept :=
  State.classTwo_carries (by simpa only [State.kept_mk, State.kept_eta] using h) ..

theorem State.hostAccess_carries (p : QPort) (op addr tag err t : Nat) (mask : BitVec 128) (line : Row) :
    r.Carries (s.hostAccess p op addr tag err t mask line).kept := by
  fun_cases State.hostAccess s p op addr tag err t mask line <;>
    simp +zetaDelta only [h, State.memDeny_kept, State.reqFree_kept, State.joinTwo_carries]

end

section
variable {r s : State} (h : r.Carries s.kept)
include h

theorem State.memTest_carries (env : BootEnv) : r.Carries (s.memTest env).kept := by
  simp only [State.memTest, State.copySets_kept, State.freeAllPages_kept]
  apply State.zeroDram_carries
  simp only [h, State.modFlash_kept, State.bump_kept, State.foldl_kept, State.repairRow_kept, implies_true, State.kept_mk, State.kept_eta]

theorem State.coldStep_carries (env : BootEnv) (k : Nat) : r.Carries (s.coldStep env k).2.kept := by
  unfold State.coldStep
  extract_lets
  split <;> simp +zetaDelta only [h, apply_ite (fun x : Bool × State => x.2), apply_ite State.kept, State.modAon_kept, State.deriveKeys_kept,
      State.bootFail_kept,
      State.writeConfig_kept, State.setBad_kept, State.consumeRec_kept, State.wf_kept, State.runBist_kept, State.trainDram_kept,
          State.memTest_carries,
      State.trainPorts_kept, State.qualify_kept, State.foldl_kept, State.mapBlock_kept, State.bootHoles_kept, State.freshKeys_kept, implies_true,
      State.releaseGen_kept, State.setReady_kept, ite_self]

theorem State.runSteps_carries (warm : Bool) (env : BootEnv) (l : List Nat) : r.Carries (s.runSteps warm env l).kept := by
  induction l generalizing s with
  | nil => exact h
  | cons k l ih =>
    simp only [State.runSteps]
    have hw : r.Carries (s.wf bootStat 27 24 k).kept := by simpa only [State.wf_kept] using h
    have hk : r.Carries (if warm then (s.wf bootStat 27 24 k).warmStep env k else (s.wf bootStat 27 24 k).coldStep env k).2.kept := by
      split
      · simpa only [State.warmStep_kept] using hw
      · exact State.coldStep_carries hw env k
    split
    · exact hw
    · generalize (if warm then (s.wf bootStat 27 24 k).warmStep env k else (s.wf bootStat 27 24 k).coldStep env k) = x at hk
      split_ifs
      · exact hk
      · rw [State.modAon_kept]
        exact hk
      · exact hk
      · exact ih (by simpa only [State.stepDone_kept, State.quexonTrain_kept] using hk)
      · exact ih (by simpa only [State.stepDone_kept] using hk)

theorem State.cold_carries (env : BootEnv) (from1 : Bool) : r.Carries (s.cold env from1).kept := by
  simp only [State.cold]
  refine State.runSteps_carries ?_ _ _ _
  simp only [State.bootClocks_kept, State.wf_kept, State.kept_mk, State.kept_eta]
  exact State.blank_carries (by simpa only [State.bootHearths_kept, State.bootStart_kept, State.portsLost_kept] using h)

theorem State.warm_carries (env : BootEnv) : r.Carries (s.warm env).kept := by
  simp only [State.warm]
  split
  · exact State.runSteps_carries (by simpa only [State.modPow_kept, State.wf_kept, State.portsLost_kept, State.bootStart_kept] using h) ..
  · exact State.cold_carries
      (by simpa only [State.consumeRec_kept, State.modPow_kept, State.wf_kept, State.portsLost_kept, State.bootStart_kept] using h) ..

theorem State.warmOrCold_carries (env : BootEnv) : r.Carries (s.warmOrCold env).kept := by
  unfold State.warmOrCold
  split_ifs <;> simp only [h, State.warm_carries, State.cold_carries]

theorem State.warmReq_carries (ag : Agent) (env : BootEnv) : r.Carries (s.warmReq ag env).kept := by
  unfold State.warmReq
  split_ifs <;> simp only [h, State.warmOrCold_carries, State.cold_carries, State.modAon_kept]

theorem State.bootCtl_carries (ag : Agent) (v : Word) : r.Carries (s.bootCtl ag v).kept := by
  simp only [State.bootCtl]
  split_ifs <;> simp only [h, State.warmReq_carries, State.shutReq_kept, State.fresh_kept]

theorem State.enterReturned_carries (clear : Bool) : r.Carries (s.enterReturned clear).kept := by
  simp only [State.enterReturned, State.kept_mk, State.kept_eta, State.retirePending_kept, State.freeAllPages_kept]
  apply State.zeroDram_carries
  simpa only [State.closeSession_kept, State.foldl_kept, State.reqContext_kept, implies_true] using h

theorem State.lifecycleGo_carries (o : SecObject) : r.Carries (s.lifecycleGo o).kept := by
  simp only [State.lifecycleGo]
  split_ifs <;> simp only [h, State.kept_mk, State.kept_eta, State.enterReturned_carries, State.closeSession_kept]

theorem State.presentLife_carries (ag : Agent) (o : SecObject) : r.Carries (s.presentLife ag o).kept := by
  simp only [State.presentLife, State.present, State.secResult_kept, State.redraw_kept]
  split_ifs <;> simp only [h, State.lifecycleGo_carries]

theorem State.secCmd_carries (ag : Agent) (v : Word) : r.Carries (s.secCmd ag v).kept := by
  fun_cases State.secCmd s ag v <;> simp +zetaDelta only [h, State.presentToken_kept, State.presentLife_carries, State.presentOwner_kept,
    State.presentRevoked_kept, State.secResult_kept, State.redraw_kept, State.closeReq_kept, State.spdmReq_kept]

theorem State.writeModule_carries (ag : Agent) (l : Loc) (a : Nat) (v : Word) : r.Carries (s.writeModule ag l a v).kept := by
  fun_cases State.writeModule s ag l a v <;> simp +zetaDelta only [h, State.bootCtl_carries, State.regWrite_kept, State.rstReq_kept,
    State.secCmd_carries, State.armCommit_kept, State.commitAt_kept, State.hitchWrite_kept, State.idWrite_kept, State.epCtl_kept,
    State.writeBarrier_kept, State.alertClear_kept, State.dumpResend_kept, State.dumpCtl_kept, State.pwrCtl_kept, State.showLimit_kept,
    State.clkObsWrite_kept, State.asyTgtWrite_kept, State.qCtl_kept, State.vecCtl_kept, State.fabCtl_kept]

theorem State.writeReg32_carries (ag : Agent) (a : Nat) (v : Word) : r.Carries (s.writeReg32 ag a v).kept := by
  fun_cases State.writeReg32 s ag a v <;> simp +zetaDelta only [h, State.writeModule_carries, State.writeCore_kept, State.writeRegion_kept,
    State.regWrite_kept]

theorem State.writeReg_carries (ag : Agent) (a : Nat) (v : Word) : r.Carries (s.writeReg ag a v).kept := by
  fun_cases State.writeReg s ag a v <;> simp +zetaDelta only [h, State.secDeny_kept, State.writeReg32_carries]

theorem State.mmioWrite_carries (ag : Agent) (a : Nat) (wide : Bool) (v : BitVec 64) : r.Carries (s.mmioWrite ag a wide v).kept := by
  fun_cases State.mmioWrite s ag a wide v <;> simp +zetaDelta only [h, State.commitAt_kept, State.writeReg_carries]

theorem State.enterOff_carries : r.Carries s.enterOff.kept := by
  simp only [State.enterOff, State.showLimit_kept, State.wf_kept, State.kept_mk, State.kept_eta, State.modAon_kept]
  apply State.blank_carries
  simpa only [State.kept_mk, State.kept_eta, State.portsLost_kept] using h

end

end Sys2Proof.Machine

/-! What each command answers: a fault when its operands name no unit, and else a next state that carries memory and the queue. -/

namespace Sys2Proof.Machine

/-- What a memory and a queue keep does not depend on which of two states a condition picks, when both keep it. -/
theorem State.carries_ite {r : State} {c : Prop} [Decidable c] {a b : List Host.Cell × List Instr} (ha : r.Carries a) (hb : r.Carries b) :
    r.Carries (if c then a else b) := by
  split
  · exact ha
  · exact hb

/-- An outcome that is a next state which carries what `s` has. -/
def State.RunsTo (s : State) (o : Host.Outcome State Fault Refusal) : Prop := ∃ t, o = .next t ∧ s.Carries t.kept

theorem State.runsTo_next {s t : State} (h : s.Carries t.kept) : s.RunsTo (.next t) := ⟨t, rfl, h⟩

theorem State.runsTo_ite {s : State} {c : Prop} [Decidable c] {a b : Host.Outcome State Fault Refusal} (ha : s.RunsTo a) (hb : s.RunsTo b) :
    s.RunsTo (if c then a else b) := by
  split
  · exact ha
  · exact hb

/-- What a command's outcome is, but for the five commands of the clock ratio: a fault when its operands name no unit, else a next state
that carries what `s` has. -/
def State.Answers (s : State) (c : Instr) (o : Host.Outcome State Fault Refusal) : Prop :=
  (c.wf = false → o = .fault .noSuchUnit) ∧ (c.wf = true → s.RunsTo o)

theorem State.answers_inRange {s : State} {c : Instr} {o : Host.Outcome State Fault Refusal} (h : s.RunsTo o) : s.Answers c (inRange c o) := by
  refine ⟨fun hw => ?_, fun hw => ?_⟩
  · simp [inRange, hw]
  · simpa [inRange, hw] using h

/-- A command that names no unit answers for every operand. -/
theorem State.answers_of_wf {s : State} {c : Instr} {o : Host.Outcome State Fault Refusal} (hw : c.wf = true) (h : s.RunsTo o) : s.Answers c o :=
  ⟨fun hf => absurd (hw.symm.trans hf) (by decide), fun _ => h⟩

theorem State.foldl_carries {α : Type} {f : State → α → State} {r s : State} (h : r.Carries s.kept) (l : List α)
    (hf : ∀ t x, r.Carries t.kept → r.Carries (f t x).kept) : r.Carries (l.foldl f s).kept := by
  induction l generalizing s with
  | nil => exact h
  | cons x l ih => exact ih (hf s x h)

theorem execRegisterWrite_answers (ag : Agent) (addr : Nat) (wide : Bool) (val : BitVec 64) (s : State) :
    s.Answers (.registerWrite ag addr wide val) (execRegisterWrite ag addr wide val s) := by
  unfold execRegisterWrite
  refine State.answers_inRange ?_
  repeat' split
  all_goals simp only [State.runsTo_next, State.carries_self, State.bump_kept, State.mmioWrite_carries]

theorem execRepWindowBoundary_answers (region : Nat) (ctrl : Bool) (t : Nat) (s : State) :
    s.Answers (.repWindowBoundary region ctrl t) (execRepWindowBoundary region ctrl t s) := by
  unfold execRepWindowBoundary
  refine State.answers_inRange ?_
  split <;> simp only [State.runsTo_ite, State.runsTo_next, State.kept_mk, State.kept_eta, State.carries_self, State.ctrlErr_kept]

theorem execStrokeBoundary_answers (s : State) : s.Answers (.strokeBoundary) (execStrokeBoundary s) := by
  unfold execStrokeBoundary
  refine State.answers_of_wf rfl ?_
  repeat' split
  all_goals simp only [State.runsTo_next, apply_ite State.kept, State.carries_ite, State.kept_mk, State.kept_eta, State.carries_self,
      State.ctxBoundary_kept, State.bodyStart_kept, State.shutGo_kept, State.timePass_kept, State.asyBoundary_kept, State.seqSeam_kept,
      State.timeSyncSend_kept, State.gridBoundary_kept, State.powerBoundary_kept, State.send_kept, State.repWindow_kept, State.foldl_kept,
      implies_true]

theorem execSeam_answers (body : Nat) (s : State) : s.Answers (.seam body) (execSeam body s) := by
  refine State.answers_of_wf rfl ?_
  fun_cases execSeam body s <;> simp +zetaDelta only [State.runsTo_next, State.kept_mk, State.kept_eta, State.carries_self, State.asyShow_kept,
      State.adoptTables_kept, State.assaySeam_kept, State.landTo_kept, State.seamCore_kept, State.commitSeam_kept, State.publish_kept,
      State.seqStart_kept, State.bklSeam_kept, State.foldl_kept, implies_true]

theorem execCommit_answers (ag : Agent) (s : State) : s.Answers (.commit ag) (execCommit ag s) := by
  unfold execCommit
  refine State.answers_of_wf rfl ?_
  simp only [State.runsTo_next, State.carries_self, State.armCommit_kept, State.ifAdmitted_kept]

theorem execCommitAtWrite_answers (ag : Agent) (half : Half) (val : BitVec 64) (s : State) :
    s.Answers (.commitAtWrite ag half val) (execCommitAtWrite ag half val s) := by
  unfold execCommitAtWrite
  refine State.answers_of_wf rfl ?_
  simp only [State.runsTo_next, State.carries_self, State.commitAt_kept, State.ifAdmitted_kept]

theorem execStrokeCountLoRead_answers (ag : Agent) (s : State) : s.Answers (.strokeCountLoRead ag) (execStrokeCountLoRead ag s) := by
  unfold execStrokeCountLoRead
  refine State.answers_of_wf rfl ?_
  simp only [State.runsTo_next, State.carries_self, State.countLo_kept, State.send_kept]

theorem execStrokeCountHiRead_answers (ag : Agent) (s : State) : s.Answers (.strokeCountHiRead ag) (execStrokeCountHiRead ag s) := by
  unfold execStrokeCountHiRead
  refine State.answers_of_wf rfl ?_
  simp only [State.runsTo_next, State.carries_self, State.countHi_kept, State.send_kept]

theorem execStrokeInEdge_answers (t16 : Nat) (s : State) : s.Answers (.strokeInEdge t16) (execStrokeInEdge t16 s) := by
  refine State.answers_of_wf rfl ?_
  fun_cases execStrokeInEdge t16 s <;> simp +zetaDelta only [State.runsTo_next, State.kept_mk, State.kept_eta, State.carries_self,
      State.acquire_kept, State.bump_kept, State.pairRefs_kept, State.followPath_kept]

theorem execStrokeInLost_answers (t : Nat) (s : State) : s.Answers (.strokeInLost t) (execStrokeInLost t s) := by
  refine State.answers_of_wf rfl ?_
  fun_cases execStrokeInLost t s <;> simp only [State.runsTo_next, State.carries_self, State.sourceLost_kept]

theorem execGirthSourceLost_answers (t : Nat) (s : State) : s.Answers (.girthSourceLost t) (execGirthSourceLost t s) := by
  refine State.answers_of_wf rfl ?_
  fun_cases execGirthSourceLost t s <;> simp only [State.runsTo_next, State.carries_self, State.sourceLost_kept]

theorem execSeqReadEntry_answers (gp : Nat) (cyc : Nat) (s : State) : s.Answers (.seqReadEntry gp cyc) (execSeqReadEntry gp cyc s) := by
  unfold execSeqReadEntry
  refine State.answers_inRange ?_
  simp only [State.runsTo_next, State.carries_self, State.seqRead_kept]

theorem execRepeat_answers (gp : Nat) (cyc : Nat) (s : State) : s.Answers (.repeatOp gp cyc) (execRepeat gp cyc s) := by
  unfold execRepeat
  refine State.answers_inRange ?_
  simp only [State.runsTo_next, State.carries_self, State.seqRead_kept]

theorem execEnd_answers (gp : Nat) (cyc : Nat) (s : State) : s.Answers (.endOp gp cyc) (execEnd gp cyc s) := by
  unfold execEnd
  refine State.answers_inRange ?_
  simp only [State.runsTo_next, State.carries_self, State.seqRead_kept]

theorem execOpRetire_answers (gp : Nat) (_unit : Nat) (cyc : Nat) (s : State) : s.Answers (.opRetire gp _unit cyc) (execOpRetire gp _unit cyc s) := by
  unfold execOpRetire
  refine State.answers_inRange ?_
  simp only [State.runsTo_next, State.carries_self, State.reach_kept]

theorem execTileComplete_answers (gp : Nat) (tile : Nat) (cyc : Nat) (s : State) :
    s.Answers (.tileComplete gp tile cyc) (execTileComplete gp tile cyc s) := by
  unfold execTileComplete
  refine State.answers_inRange ?_
  simp only [State.runsTo_next, State.carries_self, State.modCore_kept, State.reach_kept]

theorem execFeedDescriptorIssue_answers (gp : Nat) (s : State) : s.Answers (.feedDescriptorIssue gp) (execFeedDescriptorIssue gp s) := by
  simp only [execFeedDescriptorIssue]
  refine State.answers_inRange ?_
  repeat' split
  all_goals simp only [State.runsTo_next, State.carries_self, State.issueRemote_kept, State.modCore_kept, State.openXfers_kept, State.issueRows_kept,
      State.setCore_kept]

theorem execOutboundPacketDepart_answers (gp : Nat) (cyc : Nat) (s : State) :
    s.Answers (.outboundPacketDepart gp cyc) (execOutboundPacketDepart gp cyc s) := by
  simp only [execOutboundPacketDepart]
  refine State.answers_inRange ?_
  repeat' split
  all_goals simp only [State.runsTo_next, State.carries_self, State.cutPackets_kept, State.modCore_kept, State.depart_kept, State.reach_kept]

theorem execRingWrite_answers (n : Nat) (cyc : Nat) (s : State) : s.Answers (.ringWrite n cyc) (execRingWrite n cyc s) := by
  simp only [execRingWrite]
  refine State.answers_of_wf rfl ?_
  repeat' split
  all_goals simp only [State.runsTo_next, State.carries_self, State.treeDrop_kept, State.recvPkt_kept, State.rtDrop_kept, State.fenceDrop_kept,
      State.takeArrival_kept, State.recvDrop_kept, State.reach_kept, State.flowCheck_kept]

theorem execLandingBufferDrain_answers (gp : Nat) (cyc : Nat) (s : State) :
    s.Answers (.landingBufferDrain gp cyc) (execLandingBufferDrain gp cyc s) := by
  unfold execLandingBufferDrain
  refine State.answers_inRange ?_
  simp only [State.runsTo_next, State.carries_self, State.reach_kept, State.drainBuf_kept]

theorem execReadReq_answers (n : Nat) (s : State) : s.Answers (.readReq n) (execReadReq n s) := by
  refine State.answers_of_wf rfl ?_
  fun_cases execReadReq n s <;> simp +zetaDelta only [State.runsTo_next, State.kept_mk, State.kept_eta, State.carries_self, State.rtDrop_kept,
      State.takeArrival_kept, State.requestRow_kept, State.rstDrop_kept, State.foldl_kept, implies_true]

theorem execReadRsp_answers (n : Nat) (cyc : Nat) (s : State) : s.Answers (.readRsp n cyc) (execReadRsp n cyc s) := by
  simp only [execReadRsp]
  refine State.answers_of_wf rfl ?_
  repeat' split
  all_goals simp only [State.runsTo_next, State.carries_self, State.recvPkt_kept, State.rtDrop_kept, State.landRemote_kept, State.fenceDrop_kept,
      State.takeArrival_kept, State.reach_kept, State.landReserved_kept]

theorem execBuckleRegWrite_answers (ag : Agent) (idx : Nat) (target : Bool) (val : Word) (s : State) :
    s.Answers (.buckleRegWrite ag idx target val) (execBuckleRegWrite ag idx target val s) := by
  unfold execBuckleRegWrite
  refine State.answers_inRange ?_
  simp only [State.runsTo_next, State.carries_self, State.bklWrite_kept, State.ifAdmitted_kept]

theorem execEccWriteback_answers (mc : Nat) (s : State) : s.Answers (.eccWriteback mc) (execEccWriteback mc s) := by
  simp only [execEccWriteback]
  refine State.answers_inRange ?_
  repeat' split
  all_goals simp only [State.runsTo_next, State.kept_mk, State.kept_eta, State.carries_self, State.flipBurst_carries]

theorem execRefresh_answers (mc : Nat) (rate : Nat) (bank : Nat) (s : State) : s.Answers (.refresh mc rate bank) (execRefresh mc rate bank s) := by
  unfold execRefresh
  refine State.answers_inRange ?_
  split <;> simp only [State.runsTo_next, State.kept_mk, State.kept_eta, State.carries_self, State.peak_kept]

theorem execPatrolScrub_answers (mc : Nat) (addr : Nat) (err : Nat) (t : Nat) (s : State) :
    s.Answers (.patrolScrub mc addr err t) (execPatrolScrub mc addr err t s) := by
  unfold execPatrolScrub
  refine State.answers_inRange ?_
  split <;> simp only [State.runsTo_next, State.kept_mk, State.kept_eta, State.carries_self, State.burst_kept, State.linkFault_kept]

theorem execClearingScrub_answers (region : Nat) (page : Nat) (s : State) :
    s.Answers (.clearingScrub region page) (execClearingScrub region page s) := by
  unfold execClearingScrub
  refine State.answers_inRange ?_
  split <;> simp only [State.runsTo_next, State.carries_self, State.wf_kept, State.clearPage_carries, State.freePage_kept]

theorem execHot_answers (mc : Nat) (rank : Nat) (rate : Nat) (above : Bool) (t : Nat) (s : State) :
    s.Answers (.hot mc rank rate above t) (execHot mc rank rate above t s) := by
  unfold execHot
  refine State.answers_inRange ?_
  split <;> simp only [State.runsTo_next, apply_ite State.kept, State.carries_ite, State.kept_mk, State.kept_eta, State.carries_self,
      State.peak_kept, State.regionErr_kept]

theorem execOwnerTableWrite_answers (ag : Agent) (region : Nat) (word : Nat) (val : Word) (s : State) :
    s.Answers (.ownerTableWrite ag region word val) (execOwnerTableWrite ag region word val s) := by
  unfold execOwnerTableWrite
  refine State.answers_inRange ?_
  simp only [State.runsTo_next, State.carries_self, State.ifAdmitted_kept, State.ownerWord_kept]

theorem execLinkPacketRx_answers (port : Nat) (pkt : Packet) (trailer : BitVec 256) (fec : FecCount) (through : Bool) (t : Nat) (s : State) :
    s.Answers (.linkPacketRx port pkt trailer fec through t) (execLinkPacketRx port pkt trailer fec through t s) := by
  simp only [execLinkPacketRx]
  refine State.answers_inRange ?_
  repeat' split
  all_goals simp only [State.runsTo_next, State.carries_self, State.rxAccept_kept, State.bump_kept, State.sendNak_kept, State.crcFail_kept,
      State.sendAck_kept, State.stompCopy_kept, State.setLink_kept, State.fecNoted_kept]

theorem execAck_answers (port : Nat) (block : BitVec 256) (t : Nat) (s : State) : s.Answers (.ack port block t) (execAck port block t s) := by
  unfold execAck
  refine State.answers_inRange ?_
  simp only [State.runsTo_next, State.carries_self, State.linkGo_kept, State.onBlock_kept, State.setLink_kept]

theorem execNak_answers (port : Nat) (block : BitVec 256) (t : Nat) (s : State) : s.Answers (.nak port block t) (execNak port block t s) := by
  unfold execNak
  refine State.answers_inRange ?_
  simp only [State.runsTo_next, State.carries_self, State.replay_kept, State.onBlock_kept]

theorem execCredit_answers (port : Nat) (block : BitVec 256) (t : Nat) (s : State) :
    s.Answers (.credit port block t) (execCredit port block t s) := by
  unfold execCredit
  refine State.answers_inRange ?_
  simp only [State.runsTo_next, State.carries_self, State.linkGo_kept, State.onBlock_kept, State.setLink_kept]

theorem execLinkAckTimer_answers (port : Nat) (s : State) : s.Answers (.linkAckTimer port) (execLinkAckTimer port s) := by
  unfold execLinkAckTimer
  refine State.answers_inRange ?_
  split <;> simp only [State.runsTo_next, State.carries_self, State.sendAck_kept]

theorem execCreditTimer_answers (port : Nat) (s : State) : s.Answers (.creditTimer port) (execCreditTimer port s) := by
  unfold execCreditTimer
  refine State.answers_inRange ?_
  simp only [State.runsTo_ite, State.runsTo_next, State.carries_self, State.sendBlock_kept, State.setLink_kept]

theorem execReplayTimeout_answers (port : Nat) (t : Nat) (s : State) : s.Answers (.replayTimeout port t) (execReplayTimeout port t s) := by
  unfold execReplayTimeout
  refine State.answers_inRange ?_
  split <;> simp only [State.runsTo_ite, State.runsTo_next, State.carries_self, State.replay_kept]

theorem execFabRetrain_answers (port : Nat) (res : TrainResult) (quals : List (Nat × Nat × Nat)) (again : List TrainResult) (t : Nat) (s : State) :
    s.Answers (.fabRetrain port res quals again t) (execFabRetrain port res quals again t s) := by
  unfold execFabRetrain
  refine State.answers_inRange ?_
  simp only [State.runsTo_next, State.carries_self, State.softRetrain_kept]

theorem execPeerTraining_answers (port : Nat) (res : TrainResult) (t : Nat) (s : State) :
    s.Answers (.peerTraining port res t) (execPeerTraining port res t s) := by
  unfold execPeerTraining
  refine State.answers_inRange ?_
  split <;> simp only [State.runsTo_next, State.carries_self, State.train_kept]

theorem execLaneLoss_answers (port : Nat) (lanes : BitVec 8) (cut : Bool) (res : TrainResult) (t : Nat) (s : State) :
    s.Answers (.laneLoss port lanes cut res t) (execLaneLoss port lanes cut res t s) := by
  unfold execLaneLoss
  refine State.answers_inRange ?_
  split <;> simp only [State.runsTo_next, apply_ite State.kept, State.carries_ite, State.carries_self, State.wf_kept, State.train_kept,
      State.portDown_kept, State.fabErr_kept, State.cutPacket_kept]

theorem execFecRetrainTrigger_answers (port : Nat) (cut : Bool) (res : TrainResult) (t : Nat) (s : State) :
    s.Answers (.fecRetrainTrigger port cut res t) (execFecRetrainTrigger port cut res t s) := by
  unfold execFecRetrainTrigger
  refine State.answers_inRange ?_
  split <;> simp only [State.runsTo_next, State.carries_self, State.bump_kept, State.train_kept, State.fabErr_kept, State.cutPacket_kept]

theorem execControlBlockTimeout_answers (port : Nat) (t : Nat) (s : State) :
    s.Answers (.controlBlockTimeout port t) (execControlBlockTimeout port t s) := by
  unfold execControlBlockTimeout
  refine State.answers_inRange ?_
  split <;> simp only [State.runsTo_next, State.carries_self, State.portDown_kept]

theorem execRetrainTimeout_answers (port : Nat) (res : TrainResult) (t : Nat) (s : State) :
    s.Answers (.retrainTimeout port res t) (execRetrainTimeout port res t s) := by
  unfold execRetrainTimeout
  refine State.answers_inRange ?_
  repeat' split
  all_goals simp only [State.runsTo_ite, State.runsTo_next, State.carries_self, State.wf_kept, State.portDown_kept, State.trainDone_kept,
      State.startRetrain_kept]

theorem execLinkDown_answers (port : Nat) (cause : DownCause) (good : BitVec 8) (t : Nat) (s : State) :
    s.Answers (.linkDown port cause good t) (execLinkDown port cause good t s) := by
  unfold execLinkDown
  refine State.answers_inRange ?_
  split <;> simp only [State.runsTo_next, State.carries_self, State.wf_kept, State.portDown_kept]

theorem execFabIdWrite_answers (ag : Agent) (val : Word) (s : State) : s.Answers (.fabIdWrite ag val) (execFabIdWrite ag val s) := by
  unfold execFabIdWrite
  refine State.answers_of_wf rfl ?_
  simp only [State.runsTo_next, State.carries_self, State.ifAdmitted_kept, State.idWrite_kept]

theorem execTorusDimWrite_answers (ag : Agent) (val : Word) (s : State) : s.Answers (.torusDimWrite ag val) (execTorusDimWrite ag val s) := by
  unfold execTorusDimWrite
  refine State.answers_of_wf rfl ?_
  simp only [State.runsTo_next, State.carries_self, State.ifAdmitted_kept, State.idWrite_kept]

theorem execTree_answers (n : Nat) (t : Nat) (s : State) : s.Answers (.tree n t) (execTree n t s) := by
  refine State.answers_of_wf rfl ?_
  fun_cases execTree n t s <;> simp only [State.runsTo_next, State.carries_self, State.treeStep_kept]

theorem execKeyWaitResume_answers (n : Nat) (t : Nat) (s : State) : s.Answers (.keyWaitResume n t) (execKeyWaitResume n t s) := by
  refine State.answers_of_wf rfl ?_
  fun_cases execKeyWaitResume n t s <;> simp only [State.runsTo_next, State.carries_self, State.treeStep_kept]

theorem execTreeNotice_answers (n : Nat) (t : Nat) (s : State) : s.Answers (.treeNotice n t) (execTreeNotice n t s) := by
  refine State.answers_of_wf rfl ?_
  fun_cases execTreeNotice n t s <;> simp +zetaDelta only [State.runsTo_next, State.carries_self, State.rtDrop_kept, State.treeFault_kept,
      State.takeTree_kept]

theorem execEpCtlArm_answers (ag : Agent) (val : Word) (s : State) : s.Answers (.epCtlArm ag val) (execEpCtlArm ag val s) := by
  unfold execEpCtlArm
  refine State.answers_of_wf rfl ?_
  simp only [State.runsTo_next, State.carries_self, State.epCtl_kept, State.ifAdmitted_kept]

theorem execEpochFlip_answers (t : Nat) (s : State) : s.Answers (.epochFlip t) (execEpochFlip t s) := by
  simp only [execEpochFlip]
  refine State.answers_of_wf rfl ?_
  split <;> simp only [State.runsTo_next, apply_ite State.kept, State.carries_ite, State.kept_mk, State.kept_eta, State.carries_self, State.wf_kept,
      State.rootChanged_kept, State.barRecheck_kept, State.girthRenew_kept, State.activationFaults_kept, State.parentDown_kept]

theorem execEpochRetire_answers (t : Nat) (s : State) : s.Answers (.epochRetire t) (execEpochRetire t s) := by
  refine State.answers_of_wf rfl ?_
  fun_cases execEpochRetire t s <;> simp +zetaDelta only [State.runsTo_next, State.kept_mk, State.kept_eta, State.carries_self, State.wf_kept,
      State.treeFault_kept, State.foldl_kept, implies_true]

theorem execGirth_answers (n : Nat) (s : State) : s.Answers (.girth n) (execGirth n s) := by
  unfold execGirth
  refine State.answers_of_wf rfl ?_
  repeat' split
  all_goals simp only [State.runsTo_next, apply_ite State.kept, State.carries_ite, State.carries_self, State.freeIngress_kept, State.rtDrop_kept,
      State.takeArrival_kept, State.girthRx_kept]

theorem execBarrierEntryWrite_answers (ag : Agent) (g : Nat) (gen : Bool) (val : Word) (s : State) :
    s.Answers (.barrierEntryWrite ag g gen val) (execBarrierEntryWrite ag g gen val s) := by
  unfold execBarrierEntryWrite
  refine State.answers_inRange ?_
  simp only [State.runsTo_next, State.carries_self, State.ifAdmitted_kept, State.writeBarrier_kept]

theorem execTimeReq_answers (port : Nat) (block : BitVec 256) (t16 : Nat) (s : State) :
    s.Answers (.timeReq port block t16) (execTimeReq port block t16 s) := by
  unfold execTimeReq
  refine State.answers_inRange ?_
  split <;> simp only [State.runsTo_next, State.carries_self, State.sendBlock_kept, State.onBlock_kept]

theorem execPatLoadRow_answers (gp : Nat) (cyc : Nat) (err : Nat) (t : Nat) (s : State) :
    s.Answers (.patLoadRow gp cyc err t) (execPatLoadRow gp cyc err t s) := by
  simp only [execPatLoadRow]
  refine State.answers_inRange ?_
  repeat' split
  all_goals simp only [State.runsTo_next, State.carries_self, State.bump_kept, State.fresh_kept, State.joinTwo_carries, State.loadRow_kept,
      State.loadDenied_kept, State.xbarGrant_kept, State.qReq_kept, State.sliceRead_kept]

theorem execDbgSelGo_answers (ag : Agent) (gp : Nat) (val : Word) (s : State) : s.Answers (.dbgSelGo ag gp val) (execDbgSelGo ag gp val s) := by
  unfold execDbgSelGo
  refine State.answers_inRange ?_
  simp only [State.runsTo_next, State.carries_self, State.dbgSel_kept, State.ifAdmitted_kept]

theorem execZeroisationComplete_answers (unit : SramUnit) (t : Nat) (s : State) :
    s.Answers (.zeroisationComplete unit t) (execZeroisationComplete unit t s) := by
  unfold execZeroisationComplete
  refine State.answers_inRange ?_
  split <;> simp only [State.runsTo_ite, State.runsTo_next, State.kept_mk, State.kept_eta, State.carries_self, State.zeroSliceDone_kept,
      State.settleJobs_kept, State.zeroCoreDone_kept]

theorem execEntropyHealthFail_answers (region : Nat) (t : Nat) (s : State) :
    s.Answers (.entropyHealthFail region t) (execEntropyHealthFail region t s) := by
  unfold execEntropyHealthFail
  refine State.answers_inRange ?_
  simp only [State.runsTo_next, State.kept_mk, State.kept_eta, State.carries_self, State.wf_kept, State.regionErr_kept, State.foldl_kept,
      implies_true]

theorem execAssaySegmentStart_answers (gp : Nat) (cyc : Nat) (rows : List Nat) (tile : Option Nat) (s : State) :
    s.Answers (.assaySegmentStart gp cyc rows tile) (execAssaySegmentStart gp cyc rows tile s) := by
  simp only [execAssaySegmentStart]
  refine State.answers_inRange ?_
  repeat' split
  all_goals simp only [State.runsTo_next, State.carries_self, State.asyBegin_kept, State.modAsy_kept, State.choose_kept, State.reach_kept]

theorem execAssaySegmentEnd_answers (gp : Nat) (misr : BitVec 64) (t : Nat) (s : State) :
    s.Answers (.assaySegmentEnd gp misr t) (execAssaySegmentEnd gp misr t s) := by
  simp only [execAssaySegmentEnd]
  refine State.answers_inRange ?_
  repeat' split
  all_goals simp only [State.runsTo_next, State.carries_self, State.tgtEnd_kept, State.passEnd_kept, State.asyRestore_kept, State.reach_kept]

theorem execAssayOverdue_answers (gp : Nat) (t : Nat) (s : State) : s.Answers (.assayOverdue gp t) (execAssayOverdue gp t s) := by
  unfold execAssayOverdue
  refine State.answers_inRange ?_
  simp only [State.runsTo_ite, State.runsTo_next, State.carries_self, State.coreChip_kept, State.modAsy_kept, State.overdueReg_kept]

theorem execAssayTurnYield_answers (region : Nat) (s : State) : s.Answers (.assayTurnYield region) (execAssayTurnYield region s) := by
  unfold execAssayTurnYield
  refine State.answers_inRange ?_
  split <;> simp only [State.runsTo_ite, State.runsTo_next, State.carries_self, State.setAsy_kept, State.setTurn_kept]

theorem execAsyTgtGo_answers (ag : Agent) (val : Word) (s : State) : s.Answers (.asyTgtGo ag val) (execAsyTgtGo ag val s) := by
  unfold execAsyTgtGo
  refine State.answers_of_wf rfl ?_
  simp only [State.runsTo_next, State.carries_self, State.ifAdmitted_kept, State.asyTgtWrite_kept]

theorem execTargetedAssayDone_answers (t : Nat) (s : State) : s.Answers (.targetedAssayDone t) (execTargetedAssayDone t s) := by
  refine State.answers_of_wf rfl ?_
  fun_cases execTargetedAssayDone t s <;> simp +zetaDelta only [State.runsTo_next, State.kept_mk, State.kept_eta, State.carries_self, State.wf_kept,
      State.bump_kept, State.coreChip_kept, State.confirm_kept]

theorem execHealCfgTimeout_answers (gp : Nat) (s : State) : s.Answers (.healCfgTimeout gp) (execHealCfgTimeout gp s) := by
  unfold execHealCfgTimeout
  refine State.answers_inRange ?_
  simp only [State.runsTo_next, State.kept_mk, State.kept_eta, State.carries_self]

theorem execPwrEnAssert_answers (env : BootEnv) (s : State) : s.Answers (.pwrEnAssert env) (execPwrEnAssert env s) := by
  simp only [execPwrEnAssert]
  refine State.answers_inRange ?_
  repeat' split
  all_goals simp only [State.runsTo_next, State.carries_self, State.wf_kept, State.modAon_kept, State.cold_carries]

theorem execBringupStepTimeout_answers (env : BootEnv) (s : State) : s.Answers (.bringupStepTimeout env) (execBringupStepTimeout env s) := by
  unfold execBringupStepTimeout
  refine State.answers_inRange ?_
  repeat' split
  all_goals simp only [State.runsTo_next, State.carries_self, State.consumeRec_kept, State.bootFail_kept, State.cold_carries]

theorem execShutdown_answers (_ag : Agent) (bist : BistResult) (s : State) : s.Answers (.shutdown _ag bist) (execShutdown _ag bist s) := by
  unfold execShutdown
  refine State.answers_inRange ?_
  simp only [State.runsTo_next, State.carries_self, State.shutReq_kept]

theorem execWarm_answers (ag : Agent) (env : BootEnv) (s : State) : s.Answers (.warm ag env) (execWarm ag env s) := by
  unfold execWarm
  refine State.answers_inRange ?_
  simp only [State.runsTo_next, State.carries_self, State.warmReq_carries]

theorem execPerstRelease_answers (q : List (QPort × QTrainResult)) (s : State) : s.Answers (.perstRelease q) (execPerstRelease q s) := by
  simp only [execPerstRelease]
  refine State.answers_of_wf rfl ?_
  repeat' split
  all_goals simp only [State.runsTo_next, State.carries_self, State.wf_kept, State.stepDone_kept, State.runSteps_carries, State.modAon_kept,
      State.quexonTrain_kept]

theorem execAonThermalSample_answers (temp : ℤ) (s : State) : s.Answers (.aonThermalSample temp) (execAonThermalSample temp s) := by
  refine State.answers_of_wf rfl ?_
  fun_cases execAonThermalSample temp s <;> simp +zetaDelta only [State.runsTo_next, State.carries_self, State.modAon_kept, State.modPow_kept]

theorem execContextReset_answers (_ag : Agent) (ctx : Nat) (dump : Bool) (env : RstEnv) (s : State) :
    s.Answers (.contextReset _ag ctx dump env) (execContextReset _ag ctx dump env s) := by
  unfold execContextReset
  refine State.answers_inRange ?_
  simp only [State.runsTo_next, State.carries_self, State.reqContext_kept]

theorem execEngineReset_answers (_ag : Agent) (gl : Nat) (dump : Bool) (env : RstEnv) (s : State) :
    s.Answers (.engineReset _ag gl dump env) (execEngineReset _ag gl dump env s) := by
  unfold execEngineReset
  refine State.answers_inRange ?_
  simp only [State.runsTo_next, State.carries_self, State.reqEngine_kept]

theorem execPartitionReset_answers (_ag : Agent) (ctx : Nat) (dump : Bool) (env : RstEnv) (s : State) :
    s.Answers (.partitionReset _ag ctx dump env) (execPartitionReset _ag ctx dump env s) := by
  unfold execPartitionReset
  refine State.answers_inRange ?_
  simp only [State.runsTo_next, State.carries_self, State.reqPartition_kept]

theorem execChipComputeReset_answers (_ag : Agent) (dump : Bool) (env : RstEnv) (s : State) :
    s.Answers (.chipComputeReset _ag dump env) (execChipComputeReset _ag dump env s) := by
  unfold execChipComputeReset
  refine State.answers_inRange ?_
  simp only [State.runsTo_next, State.carries_self, State.reqChip_kept]

theorem execPowerCycle_answers (_ag : Agent) (dump : Bool) (env : RstEnv) (s : State) :
    s.Answers (.powerCycle _ag dump env) (execPowerCycle _ag dump env s) := by
  unfold execPowerCycle
  refine State.answers_inRange ?_
  simp only [State.runsTo_next, State.carries_self, State.reqPower_kept]

theorem execResetEscalated_answers (n : Nat) (us : Nat) (env : RstEnv) (s : State) :
    s.Answers (.resetEscalated n us env) (execResetEscalated n us env s) := by
  unfold execResetEscalated
  refine State.answers_inRange ?_
  split <;> simp only [State.runsTo_ite, State.runsTo_next, State.carries_self, State.chipRec_kept, State.dumpThen_kept]

theorem execHeartbeat_answers (received : Bool) (s : State) : s.Answers (.heartbeat received) (execHeartbeat received s) := by
  unfold execHeartbeat
  refine State.answers_of_wf rfl ?_
  simp only [State.runsTo_next, State.kept_mk, State.kept_eta, State.carries_self, State.wf_kept]

theorem execHearthTakeover_answers (t : Nat) (s : State) : s.Answers (.hearthTakeover t) (execHearthTakeover t s) := by
  refine State.answers_of_wf rfl ?_
  fun_cases execHearthTakeover t s <;> simp +zetaDelta only [State.runsTo_next, State.kept_mk, State.kept_eta, State.carries_self,
      State.chipRec_kept, State.wf_kept, State.bump_kept, State.queueRecs_kept]

theorem execAonWatchdog_answers (s : State) : s.Answers (.aonWatchdog) (execAonWatchdog s) := by
  refine State.answers_of_wf rfl ?_
  fun_cases execAonWatchdog s <;> simp only [State.runsTo_next, State.kept_mk, State.kept_eta, State.carries_self]

theorem execDumpCtlGo_answers (ag : Agent) (val : Word) (silent : List Nat) (s : State) :
    s.Answers (.dumpCtlGo ag val silent) (execDumpCtlGo ag val silent s) := by
  unfold execDumpCtlGo
  refine State.answers_inRange ?_
  simp only [State.runsTo_next, State.carries_self, State.dumpCtl_kept, State.ifAdmitted_kept]

theorem execDumpReadTimeout_answers (addr : Nat) (s : State) : s.Answers (.dumpReadTimeout addr) (execDumpReadTimeout addr s) := by
  unfold execDumpReadTimeout
  refine State.answers_inRange ?_
  repeat' split
  all_goals simp only [State.runsTo_next, State.kept_mk, State.kept_eta, State.carries_self]

theorem execDumpComplete_answers (s : State) : s.Answers (.dumpComplete) (execDumpComplete s) := by
  refine State.answers_of_wf rfl ?_
  fun_cases execDumpComplete s <;> simp only [State.runsTo_next, State.carries_self, State.dumpEnd_kept, State.dumpDrain_kept]

theorem execDumpChunkSend_answers (s : State) : s.Answers (.dumpChunkSend) (execDumpChunkSend s) := by
  unfold execDumpChunkSend
  refine State.answers_of_wf rfl ?_
  repeat' split
  all_goals simp only [State.runsTo_next, apply_ite State.kept, State.carries_ite, State.kept_mk, State.kept_eta, State.carries_self,
      State.sendDatagram_kept, State.wf_kept, State.resendNext_kept]

theorem execDumpResend_answers (ag : Agent) (val : Word) (s : State) : s.Answers (.dumpResend ag val) (execDumpResend ag val s) := by
  unfold execDumpResend
  refine State.answers_of_wf rfl ?_
  simp only [State.runsTo_next, State.carries_self, State.dumpResend_kept, State.ifAdmitted_kept]

theorem execQuexonFlitRx_answers (p : QPort) (header : BitVec 128) (slots : List (BitVec 128)) (s : State) :
    s.Answers (.quexonFlitRx p header slots) (execQuexonFlitRx p header slots s) := by
  simp only [execQuexonFlitRx]
  refine State.answers_inRange ?_
  repeat' split
  all_goals simp only [State.runsTo_next, State.carries_self, State.qHeard_kept, State.bump_kept, State.flit_kept, State.qNak_kept, State.setQ_kept,
      State.qAccept_kept]

theorem execQReplayTimeout_answers (p : QPort) (s : State) : s.Answers (.qReplayTimeout p) (execQReplayTimeout p s) := by
  refine State.answers_of_wf rfl ?_
  fun_cases execQReplayTimeout p s <;> simp only [State.runsTo_next, State.carries_self, State.qReplay_kept]

theorem execQRetrain_answers (p : QPort) (res : QTrainResult) (t : Nat) (s : State) : s.Answers (.qRetrain p res t) (execQRetrain p res t s) := by
  unfold execQRetrain
  refine State.answers_of_wf rfl ?_
  simp only [State.runsTo_next, State.carries_self, State.qSoft_kept]

theorem execQLinkLoss_answers (p : QPort) (lanes : BitVec 16) (res : QTrainResult) (t : Nat) (s : State) :
    s.Answers (.qLinkLoss p lanes res t) (execQLinkLoss p lanes res t s) := by
  unfold execQLinkLoss
  refine State.answers_of_wf rfl ?_
  repeat' split
  all_goals simp only [State.runsTo_next, apply_ite State.kept, State.carries_ite, State.carries_self, State.wf_kept, State.qDown_kept,
      State.qRetrain_kept]

theorem execQuexonLinkDown_answers (p : QPort) (cause : Nat) (t : Nat) (s : State) :
    s.Answers (.quexonLinkDown p cause t) (execQuexonLinkDown p cause t s) := by
  unfold execQuexonLinkDown
  refine State.answers_inRange ?_
  simp only [State.runsTo_next, State.carries_self, State.qDown_kept]

theorem execSnpInv_answers (p : QPort) (addr : Nat) (tag : Nat) (s : State) : s.Answers (.snpInv p addr tag) (execSnpInv p addr tag s) := by
  unfold execSnpInv
  refine State.answers_inRange ?_
  split <;> simp only [State.runsTo_next, apply_ite State.kept, State.carries_ite, State.kept_mk, State.kept_eta, State.carries_self,
      State.slotFetch_kept, State.snpFree_kept, State.qMsg_kept, State.foldl_kept, implies_true]

theorem execSnpData_answers (p : QPort) (addr : Nat) (tag : Nat) (s : State) : s.Answers (.snpData p addr tag) (execSnpData p addr tag s) := by
  simp only [execSnpData]
  refine State.answers_inRange ?_
  repeat' split
  all_goals simp only [State.runsTo_next, State.kept_mk, State.kept_eta, State.carries_self, State.snpFree_kept, State.qMsg_kept]

theorem execMemRd_answers (p : QPort) (addr : Nat) (tag : Nat) (err : Nat) (t : Nat) (s : State) :
    s.Answers (.memRd p addr tag err t) (execMemRd p addr tag err t s) := by
  unfold execMemRd
  refine State.answers_inRange ?_
  simp only [State.runsTo_next, State.carries_self, State.hostAccess_carries]

theorem execMemWr_answers (p : QPort) (addr : Nat) (tag : Nat) (err : Nat) (t : Nat) (line : Row) (s : State) :
    s.Answers (.memWr p addr tag err t line) (execMemWr p addr tag err t line s) := by
  unfold execMemWr
  refine State.answers_inRange ?_
  simp only [State.runsTo_next, State.carries_self, State.hostAccess_carries]

theorem execMemWrPtl_answers (p : QPort) (addr : Nat) (tag : Nat) (err : Nat) (t : Nat) (mask : BitVec 128) (line : Row) (s : State) :
    s.Answers (.memWrPtl p addr tag err t mask line) (execMemWrPtl p addr tag err t mask line s) := by
  unfold execMemWrPtl
  refine State.answers_inRange ?_
  simp only [State.runsTo_next, State.carries_self, State.hostAccess_carries]

theorem execMmioRd_answers (p : QPort) (addr : Nat) (size : Nat) (tag : Nat) (s : State) :
    s.Answers (.mmioRd p addr size tag) (execMmioRd p addr size tag s) := by
  unfold execMmioRd
  refine State.answers_inRange ?_
  split <;> simp only [State.runsTo_ite, State.runsTo_next, State.carries_self, State.bump_kept, State.reqFree_kept, State.mmioRead_kept,
      State.qMsg_kept]

theorem execMmioWr_answers (p : QPort) (addr : Nat) (size : Nat) (tag : Nat) (val : BitVec 64) (s : State) :
    s.Answers (.mmioWr p addr size tag val) (execMmioWr p addr size tag val s) := by
  unfold execMmioWr
  refine State.answers_inRange ?_
  repeat' split
  all_goals simp only [State.runsTo_next, State.carries_self, State.bump_kept, State.mmioWrite_carries, State.reqFree_kept, State.qMsg_kept]

theorem execHitchClaim_answers (ag : Agent) (n : Nat) (s : State) : s.Answers (.hitchClaim ag n) (execHitchClaim ag n s) := by
  unfold execHitchClaim
  refine State.answers_inRange ?_
  simp only [State.runsTo_next, State.carries_self, State.hitchRead_kept, State.send_kept]

theorem execHitchRelease_answers (ag : Agent) (n : Nat) (val : Word) (s : State) :
    s.Answers (.hitchRelease ag n val) (execHitchRelease ag n val s) := by
  unfold execHitchRelease
  refine State.answers_inRange ?_
  simp only [State.runsTo_next, State.carries_self, State.hitchWrite_kept]

theorem execPartitionEntryWrite_answers (ag : Agent) (region : Nat) (word : Nat) (val : Word) (s : State) :
    s.Answers (.partitionEntryWrite ag region word val) (execPartitionEntryWrite ag region word val s) := by
  unfold execPartitionEntryWrite
  refine State.answers_inRange ?_
  simp only [State.runsTo_next, State.carries_self, State.ifAdmitted_kept, State.partWrite_kept]

theorem execSlotCut_answers (cyc : Nat) (s : State) : s.Answers (.slotCut cyc) (execSlotCut cyc s) := by
  unfold execSlotCut
  refine State.answers_of_wf rfl ?_
  simp only [State.runsTo_next, State.carries_self, State.cutCtx_kept, State.foldl_kept, implies_true]

theorem execDoneWrite_answers (ctx : Nat) (s : State) : s.Answers (.doneWrite ctx) (execDoneWrite ctx s) := by
  simp only [execDoneWrite]
  refine State.answers_inRange ?_
  repeat' split
  all_goals simp only [State.runsTo_next, State.carries_self, State.doneNow_kept, State.modCtx_kept, State.qReq_kept]

theorem execVecMaskWrite_answers (ag : Agent) (p : QPort) (v : Nat) (val : Word) (s : State) :
    s.Answers (.vecMaskWrite ag p v val) (execVecMaskWrite ag p v val s) := by
  unfold execVecMaskWrite
  refine State.answers_inRange ?_
  simp only [State.runsTo_next, State.carries_self, State.vecCtl_kept, State.ifAdmitted_kept]

theorem execPresentDebugToken_answers (ag : Agent) (o : SecObject) (s : State) :
    s.Answers (.presentDebugToken ag o) (execPresentDebugToken ag o s) := by
  unfold execPresentDebugToken
  refine State.answers_of_wf rfl ?_
  simp only [State.runsTo_next, State.carries_self, State.presentToken_kept]

theorem execPresentLifecycle_answers (ag : Agent) (o : SecObject) (s : State) : s.Answers (.presentLifecycle ag o) (execPresentLifecycle ag o s) := by
  unfold execPresentLifecycle
  refine State.answers_of_wf rfl ?_
  simp only [State.runsTo_next, State.carries_self, State.presentLife_carries]

theorem execPresentOwnerKey_answers (ag : Agent) (o : SecObject) (s : State) : s.Answers (.presentOwnerKey ag o) (execPresentOwnerKey ag o s) := by
  unfold execPresentOwnerKey
  refine State.answers_of_wf rfl ?_
  simp only [State.runsTo_next, State.carries_self, State.presentOwner_kept]

theorem execPresentRevoke_answers (ag : Agent) (o : SecObject) (s : State) : s.Answers (.presentRevoke ag o) (execPresentRevoke ag o s) := by
  unfold execPresentRevoke
  refine State.answers_of_wf rfl ?_
  simp only [State.runsTo_next, State.carries_self, State.presentRevoked_kept]

theorem execClose_answers (ag : Agent) (s : State) : s.Answers (.close ag) (execClose ag s) := by
  unfold execClose
  refine State.answers_of_wf rfl ?_
  simp only [State.runsTo_next, State.carries_self, State.closeReq_kept]

theorem execSpdmRequest_answers (mailbox : Option Agent) (msg : List (BitVec 8)) (s : State) :
    s.Answers (.spdmRequest mailbox msg) (execSpdmRequest mailbox msg s) := by
  unfold execSpdmRequest
  refine State.answers_of_wf rfl ?_
  simp only [State.runsTo_next, State.carries_self, State.spdmReq_kept]

theorem execGetMeasurements_answers (mailbox : Option Agent) (index : Nat) (s : State) :
    s.Answers (.getMeasurements mailbox index) (execGetMeasurements mailbox index s) := by
  unfold execGetMeasurements
  refine State.answers_of_wf rfl ?_
  simp only [State.runsTo_next, State.carries_self, State.spdmReply_kept]

theorem execDebugSessionExpire_answers (s : State) : s.Answers (.debugSessionExpire) (execDebugSessionExpire s) := by
  refine State.answers_of_wf rfl ?_
  fun_cases execDebugSessionExpire s <;> simp only [State.runsTo_next, State.carries_self, State.closeSession_kept]

theorem execHalt_answers (ag : Agent) (gp : Nat) (s : State) : s.Answers (.halt ag gp) (execHalt ag gp s) := by
  unfold execHalt
  refine State.answers_inRange ?_
  simp only [State.runsTo_next, State.carries_self, State.dbgCtl_kept, State.dbgHalt_kept]

theorem execRunCore_answers (ag : Agent) (gp : Nat) (s : State) : s.Answers (.runCore ag gp) (execRunCore ag gp s) := by
  unfold execRunCore
  refine State.answers_inRange ?_
  simp only [State.runsTo_next, State.carries_self, State.dbgRun_kept, State.dbgCtl_kept]

theorem execStepCore_answers (ag : Agent) (gp : Nat) (s : State) : s.Answers (.stepCore ag gp) (execStepCore ag gp s) := by
  unfold execStepCore
  refine State.answers_inRange ?_
  simp only [State.runsTo_next, State.carries_self, State.dbgRun_kept, State.dbgCtl_kept]

theorem execJtagBypass_answers (trst : Bool) (tdi : Bool) (s : State) : s.Answers (.jtagBypass trst tdi) (execJtagBypass trst tdi s) := by
  unfold execJtagBypass
  refine State.answers_of_wf rfl ?_
  simp only [State.runsTo_next, State.carries_self, State.bypass_kept, State.tap_kept]

theorem execJtagIdcode_answers (trst : Bool) (s : State) : s.Answers (.jtagIdcode trst) (execJtagIdcode trst s) := by
  unfold execJtagIdcode
  refine State.answers_of_wf rfl ?_
  simp only [State.runsTo_next, State.carries_self, State.tap_kept, State.send_kept]

theorem execJtagSamplePreload_answers (trst : Bool) (tdi : Bool) (s : State) :
    s.Answers (.jtagSamplePreload trst tdi) (execJtagSamplePreload trst tdi s) := by
  unfold execJtagSamplePreload
  refine State.answers_of_wf rfl ?_
  simp only [State.runsTo_next, State.carries_self, State.scanOut_kept, State.tap_kept]

theorem execJtagExtest_answers (_scan : Bool) (trst : Bool) (tdi : Bool) (s : State) :
    s.Answers (.jtagExtest _scan trst tdi) (execJtagExtest _scan trst tdi s) := by
  unfold execJtagExtest
  refine State.answers_of_wf rfl ?_
  simp only [State.runsTo_next, State.carries_self, State.scanOut_kept, State.tap_kept]

theorem execPwrCtlRun_answers (ag : Agent) (target : Nat) (s : State) : s.Answers (.pwrCtlRun ag target) (execPwrCtlRun ag target s) := by
  unfold execPwrCtlRun
  refine State.answers_inRange ?_
  simp only [State.runsTo_next, State.carries_self, State.pwrCtl_kept, State.ifAdmitted_kept]

theorem execPwrCtlI1_answers (ag : Agent) (target : Nat) (s : State) : s.Answers (.pwrCtlI1 ag target) (execPwrCtlI1 ag target s) := by
  unfold execPwrCtlI1
  refine State.answers_inRange ?_
  simp only [State.runsTo_next, State.carries_self, State.pwrCtl_kept, State.ifAdmitted_kept]

theorem execPwrCtlI2_answers (ag : Agent) (target : Nat) (s : State) : s.Answers (.pwrCtlI2 ag target) (execPwrCtlI2 ag target s) := by
  unfold execPwrCtlI2
  refine State.answers_inRange ?_
  simp only [State.runsTo_next, State.carries_self, State.pwrCtl_kept, State.ifAdmitted_kept]

theorem execI2ExitDone_answers (s : State) : s.Answers (.i2ExitDone) (execI2ExitDone s) := by
  refine State.answers_of_wf rfl ?_
  fun_cases execI2ExitDone s <;> simp +zetaDelta only [State.runsTo_next, State.kept_mk, State.kept_eta, State.carries_self,
      State.zeroSliceDone_kept, State.wf_kept, State.zeroSlice_kept, State.mirrorSlices_kept, State.zeroCore_kept, State.zeroCoreDone_kept,
      State.modPow_kept, State.foldl_kept, implies_true]

theorem execPowerSample_answers (watts : Nat) (mv : Nat) (i10ma : Nat) (tj16 : ℤ) (s : State) :
    s.Answers (.powerSample watts mv i10ma tj16) (execPowerSample watts mv i10ma tj16 s) := by
  unfold execPowerSample
  refine State.answers_inRange ?_
  split <;> simp only [State.runsTo_next, apply_ite State.kept, State.carries_ite, State.kept_mk, State.kept_eta, State.carries_self,
      State.throttleEnd_kept, State.wf_kept, State.wr_kept, State.modPow_kept]

theorem execThermalThrottle_answers (tj16 : ℤ) (region : Nat) (t : Nat) (s : State) :
    s.Answers (.thermalThrottle tj16 region t) (execThermalThrottle tj16 region t s) := by
  unfold execThermalThrottle
  refine State.answers_inRange ?_
  split <;> simp only [State.runsTo_next, State.carries_self, State.chipRec_kept, State.wf_kept, State.wr_kept, State.modPow_kept]

theorem execPowerBrakeAssert_answers (tToBoundary : Nat) (cyc : Nat) (t : Nat) (s : State) :
    s.Answers (.powerBrakeAssert tToBoundary cyc t) (execPowerBrakeAssert tToBoundary cyc t s) := by
  simp only [execPowerBrakeAssert]
  refine State.answers_of_wf rfl ?_
  repeat' split
  all_goals simp only [State.runsTo_next, State.carries_self, State.chipRec_kept, State.wf_kept, State.bump_kept, State.showLimit_kept,
      State.modPow_kept, State.brakeStop_kept, State.brakeAssay_kept, State.foldl_kept, implies_true]

theorem execPowerBrakeRelease_answers (t : Nat) (s : State) : s.Answers (.powerBrakeRelease t) (execPowerBrakeRelease t s) := by
  refine State.answers_of_wf rfl ?_
  fun_cases execPowerBrakeRelease t s <;> simp +zetaDelta only [State.runsTo_next, State.carries_self, State.wf_kept, State.modPow_kept]

theorem execRefclkLost_answers (gap : Nat) (edges : Nat) (t : Nat) (s : State) :
    s.Answers (.refclkLost gap edges t) (execRefclkLost gap edges t s) := by
  refine State.answers_of_wf rfl ?_
  fun_cases execRefclkLost gap edges t s <;> simp +zetaDelta only [State.runsTo_next, State.carries_self, State.chipRec_kept, State.wf_kept,
      State.bump_kept, State.portDown_kept, State.qDown_kept, State.clkErr_kept, State.foldl_kept, implies_true]

theorem execRefPpmWindow_answers (ppm : ℤ) (t : Nat) (s : State) : s.Answers (.refPpmWindow ppm t) (execRefPpmWindow ppm t s) := by
  refine State.answers_of_wf rfl ?_
  fun_cases execRefPpmWindow ppm t s <;> simp +zetaDelta only [State.runsTo_next, State.carries_self, State.chipRec_kept, State.wf_kept,
      State.wr_kept, State.clkErr_kept]

theorem execClkObsSelWrite_answers (ag : Agent) (val : Word) (s : State) : s.Answers (.clkObsSelWrite ag val) (execClkObsSelWrite ag val s) := by
  unfold execClkObsSelWrite
  refine State.answers_of_wf rfl ?_
  simp only [State.runsTo_next, State.carries_self, State.clkObsWrite_kept, State.ifAdmitted_kept]

theorem execEntdaa_answers (addr : Nat) (s : State) : s.Answers (.entdaa addr) (execEntdaa addr s) := by
  unfold execEntdaa
  refine State.answers_inRange ?_
  simp only [State.runsTo_next, State.carries_self, State.setDynAddr_kept, State.ifHearth_kept]

theorem execSetEndpointId_answers (eid : Nat) (s : State) : s.Answers (.setEndpointId eid) (execSetEndpointId eid s) := by
  unfold execSetEndpointId
  refine State.answers_inRange ?_
  simp only [State.runsTo_next, State.carries_self, State.wf_kept, State.ifHearth_kept, State.mctpReply_kept]

theorem execGetEndpointId_answers (s : State) : s.Answers (.getEndpointId) (execGetEndpointId s) := by
  unfold execGetEndpointId
  refine State.answers_of_wf rfl ?_
  simp only [State.runsTo_next, State.carries_self, State.ifHearth_kept, State.mctpReply_kept]

theorem execGetMctpVersionSupport_answers (s : State) : s.Answers (.getMctpVersionSupport) (execGetMctpVersionSupport s) := by
  unfold execGetMctpVersionSupport
  refine State.answers_of_wf rfl ?_
  simp only [State.runsTo_next, State.carries_self, State.ifHearth_kept, State.mctpReply_kept]

theorem execGetMessageTypeSupport_answers (s : State) : s.Answers (.getMessageTypeSupport) (execGetMessageTypeSupport s) := by
  unfold execGetMessageTypeSupport
  refine State.answers_of_wf rfl ?_
  simp only [State.runsTo_next, State.carries_self, State.ifHearth_kept, State.mctpReply_kept]

theorem execGetPdr_answers (handle : Nat) (s : State) : s.Answers (.getPdr handle) (execGetPdr handle s) := by
  unfold execGetPdr
  refine State.answers_inRange ?_
  simp only [State.runsTo_next, State.carries_self, State.ifHearth_kept, State.mctpReply_kept]

theorem execSensorRead_answers (id : Nat) (s : State) : s.Answers (.sensorRead id) (execSensorRead id s) := by
  unfold execSensorRead
  refine State.answers_inRange ?_
  simp only [State.runsTo_next, State.carries_self, State.ifHearth_kept, State.mctpReply_kept]

theorem execAlertRelease_answers (ag : Agent) (s : State) : s.Answers (.alertRelease ag) (execAlertRelease ag s) := by
  unfold execAlertRelease
  refine State.answers_of_wf rfl ?_
  split <;> simp only [State.runsTo_next, State.carries_self, State.alertClear_kept]

theorem execPwrEnDeassert_answers (s : State) : s.Answers (.pwrEnDeassert) (execPwrEnDeassert s) := by
  simp only [execPwrEnDeassert]
  refine State.answers_of_wf rfl ?_
  split <;> simp only [State.runsTo_next, State.carries_self, State.wf_kept, State.modAon_kept, State.enterOff_carries]

theorem execMainPowerFault_answers (f : PowerFault) (s : State) : s.Answers (.mainPowerFault f) (execMainPowerFault f s) := by
  refine State.answers_of_wf rfl ?_
  fun_cases execMainPowerFault f s <;> simp +zetaDelta only [State.runsTo_next, State.carries_self, State.bump_kept, State.modAon_kept,
      State.enterOff_carries]

theorem execAuxValid_answers (slot : BitVec 6) (s : State) : s.Answers (.auxValid slot) (execAuxValid slot s) := by
  simp only [execAuxValid]
  refine State.answers_of_wf rfl ?_
  repeat' split
  all_goals simp only [State.runsTo_next, State.carries_self, State.wf_kept, State.showLimit_kept, State.modAon_kept, State.cold_carries]

theorem execMainPowerApplied_answers (env : BootEnv) (s : State) : s.Answers (.mainPowerApplied env) (execMainPowerApplied env s) := by
  simp only [execMainPowerApplied]
  refine State.answers_inRange ?_
  split <;> simp only [State.runsTo_next, State.carries_self, State.modAon_kept, State.cold_carries]

theorem execMgmtLinkDown_answers (s : State) : s.Answers (.mgmtLinkDown) (execMgmtLinkDown s) := by
  unfold execMgmtLinkDown
  refine State.answers_of_wf rfl ?_
  simp only [State.runsTo_next, State.carries_self, State.wf_kept]

theorem execCrystalStops_answers (s : State) : s.Answers (.crystalStops) (execCrystalStops s) := by
  unfold execCrystalStops
  refine State.answers_of_wf rfl ?_
  simp only [State.runsTo_next, State.carries_self, State.modAon_kept]

theorem execChatter_answers (s : State) : s.Answers (.chatter) (execChatter s) := by
  refine State.answers_of_wf rfl ?_
  fun_cases execChatter s <;> simp only [State.runsTo_next, State.carries_self, State.wf_kept, State.bump_kept]

theorem execPldmBaseRequest_answers (cmd : Nat) (s : State) : s.Answers (.pldmBaseRequest cmd) (execPldmBaseRequest cmd s) := by
  unfold execPldmBaseRequest
  refine State.answers_inRange ?_
  simp only [State.runsTo_next, State.carries_self, State.ifHearth_kept, State.mctpReply_kept]

/-- A command that fires the head of a queue answers, whatever the operation does beside leaving its queue. -/
theorem State.tryFire_runsTo (s : State) (gp unit cyc : Nat) (mine : Op → Bool) {extra : State → Nat → QEnt → Op → State}
    (h : ∀ t n q op, (extra t n q op).kept = t.kept) : s.RunsTo (.next (s.tryFire gp unit cyc mine extra)) :=
  State.runsTo_next (s.tryFire_kept gp unit cyc mine h ▸ s.carries_self)

theorem execWait_answers (gp unit cyc : Nat) (s : State) : s.Answers (.waitOp gp unit cyc) (execWait gp unit cyc s) :=
  State.answers_inRange (s.tryFire_runsTo _ _ _ _ noExtra_kept)

theorem execFeedLoad_answers (gp cyc : Nat) (s : State) : s.Answers (.feedLoad gp cyc) (execFeedLoad gp cyc s) :=
  State.answers_inRange (s.tryFire_runsTo _ _ _ _ (feedFired_kept gp))

theorem execLoadAct_answers (gp cyc : Nat) (s : State) : s.Answers (.loadAct gp cyc) (execLoadAct gp cyc s) :=
  State.answers_inRange (s.tryFire_runsTo _ _ _ _ (loadActFired_kept gp))

theorem execAcc_answers (gp cyc : Nat) (s : State) : s.Answers (.acc gp cyc) (execAcc gp cyc s) :=
  State.answers_inRange (s.tryFire_runsTo _ _ _ _ (tileFired_kept gp cyc))

theorem execDrain_answers (gp cyc : Nat) (s : State) : s.Answers (.drain gp cyc) (execDrain gp cyc s) :=
  State.answers_inRange (s.tryFire_runsTo _ _ _ _ (tileFired_kept gp cyc))

theorem execLoadTile_answers (gp cyc : Nat) (s : State) : s.Answers (.loadTile gp cyc) (execLoadTile gp cyc s) :=
  State.answers_inRange (s.tryFire_runsTo _ _ _ _ (tileFired_kept gp cyc))

theorem execVecAdd_answers (gp cyc : Nat) (s : State) : s.Answers (.vecAdd gp cyc) (execVecAdd gp cyc s) :=
  State.answers_inRange (s.tryFire_runsTo _ _ _ _ noExtra_kept)

theorem execVecSub_answers (gp cyc : Nat) (s : State) : s.Answers (.vecSub gp cyc) (execVecSub gp cyc s) :=
  State.answers_inRange (s.tryFire_runsTo _ _ _ _ noExtra_kept)

theorem execVecMul_answers (gp cyc : Nat) (s : State) : s.Answers (.vecMul gp cyc) (execVecMul gp cyc s) :=
  State.answers_inRange (s.tryFire_runsTo _ _ _ _ noExtra_kept)

theorem execVecFma_answers (gp cyc : Nat) (s : State) : s.Answers (.vecFma gp cyc) (execVecFma gp cyc s) :=
  State.answers_inRange (s.tryFire_runsTo _ _ _ _ noExtra_kept)

theorem execVecMax_answers (gp cyc : Nat) (s : State) : s.Answers (.vecMax gp cyc) (execVecMax gp cyc s) :=
  State.answers_inRange (s.tryFire_runsTo _ _ _ _ noExtra_kept)

theorem execVecMin_answers (gp cyc : Nat) (s : State) : s.Answers (.vecMin gp cyc) (execVecMin gp cyc s) :=
  State.answers_inRange (s.tryFire_runsTo _ _ _ _ noExtra_kept)

theorem execVecMov_answers (gp cyc : Nat) (s : State) : s.Answers (.vecMov gp cyc) (execVecMov gp cyc s) :=
  State.answers_inRange (s.tryFire_runsTo _ _ _ _ noExtra_kept)

theorem execCvt_answers (gp cyc : Nat) (s : State) : s.Answers (.cvt gp cyc) (execCvt gp cyc s) :=
  State.answers_inRange (s.tryFire_runsTo _ _ _ _ noExtra_kept)

theorem execExp_answers (gp cyc : Nat) (s : State) : s.Answers (.exp gp cyc) (execExp gp cyc s) :=
  State.answers_inRange (s.tryFire_runsTo _ _ _ _ noExtra_kept)

theorem execLog_answers (gp cyc : Nat) (s : State) : s.Answers (.log gp cyc) (execLog gp cyc s) :=
  State.answers_inRange (s.tryFire_runsTo _ _ _ _ noExtra_kept)

theorem execRsqrt_answers (gp cyc : Nat) (s : State) : s.Answers (.rsqrt gp cyc) (execRsqrt gp cyc s) :=
  State.answers_inRange (s.tryFire_runsTo _ _ _ _ noExtra_kept)

theorem execSigmoid_answers (gp cyc : Nat) (s : State) : s.Answers (.sigmoid gp cyc) (execSigmoid gp cyc s) :=
  State.answers_inRange (s.tryFire_runsTo _ _ _ _ noExtra_kept)

theorem execErf_answers (gp cyc : Nat) (s : State) : s.Answers (.erf gp cyc) (execErf gp cyc s) :=
  State.answers_inRange (s.tryFire_runsTo _ _ _ _ noExtra_kept)

theorem execNorm_answers (gp cyc : Nat) (s : State) : s.Answers (.norm gp cyc) (execNorm gp cyc s) :=
  State.answers_inRange (s.tryFire_runsTo _ _ _ _ noExtra_kept)

theorem execCmp_answers (gp cyc : Nat) (s : State) : s.Answers (.cmp gp cyc) (execCmp gp cyc s) :=
  State.answers_inRange (s.tryFire_runsTo _ _ _ _ noExtra_kept)

theorem execRred_answers (gp cyc : Nat) (s : State) : s.Answers (.rred gp cyc) (execRred gp cyc s) :=
  State.answers_inRange (s.tryFire_runsTo _ _ _ _ noExtra_kept)

theorem execCred_answers (gp cyc : Nat) (s : State) : s.Answers (.cred gp cyc) (execCred gp cyc s) :=
  State.answers_inRange (s.tryFire_runsTo _ _ _ _ noExtra_kept)

theorem execTopk_answers (gp cyc : Nat) (s : State) : s.Answers (.topk gp cyc) (execTopk gp cyc s) :=
  State.answers_inRange (s.tryFire_runsTo _ _ _ _ noExtra_kept)

theorem execSample_answers (gp cyc : Nat) (s : State) : s.Answers (.sample gp cyc) (execSample gp cyc s) :=
  State.answers_inRange (s.tryFire_runsTo _ _ _ _ noExtra_kept)

theorem execVerify_answers (gp cyc : Nat) (s : State) : s.Answers (.verify gp cyc) (execVerify gp cyc s) :=
  State.answers_inRange (s.tryFire_runsTo _ _ _ _ noExtra_kept)

theorem execScan_answers (gp cyc : Nat) (s : State) : s.Answers (.scan gp cyc) (execScan gp cyc s) :=
  State.answers_inRange (s.tryFire_runsTo _ _ _ _ noExtra_kept)

theorem execSmaxd_answers (gp cyc : Nat) (s : State) : s.Answers (.smaxd gp cyc) (execSmaxd gp cyc s) :=
  State.answers_inRange (s.tryFire_runsTo _ _ _ _ noExtra_kept)

theorem execSwitch_answers (gp cyc : Nat) (s : State) : s.Answers (.switchOp gp cyc) (execSwitch gp cyc s) :=
  State.answers_inRange (s.tryFire_runsTo _ _ _ _ noExtra_kept)

theorem execMerge_answers (gp cyc : Nat) (s : State) : s.Answers (.mergeOp gp cyc) (execMerge gp cyc s) :=
  State.answers_inRange (s.tryFire_runsTo _ _ _ _ noExtra_kept)

theorem execSend_answers (gp cyc : Nat) (s : State) : s.Answers (.send gp cyc) (execSend gp cyc s) :=
  State.answers_inRange (s.tryFire_runsTo _ _ _ _ (sendFired_kept gp))

theorem execTsend_answers (gp cyc : Nat) (s : State) : s.Answers (.tsend gp cyc) (execTsend gp cyc s) :=
  State.answers_inRange (s.tryFire_runsTo _ _ _ _ (tsendFired_kept gp))

theorem execArm_answers (gp cyc : Nat) (s : State) : s.Answers (.arm gp cyc) (execArm gp cyc s) :=
  State.answers_inRange (s.tryFire_runsTo _ _ _ _ (armFired_kept gp))

theorem execDisarm_answers (gp cyc : Nat) (s : State) : s.Answers (.disarm gp cyc) (execDisarm gp cyc s) :=
  State.answers_inRange (s.tryFire_runsTo _ _ _ _ (disarmFired_kept gp))

theorem execSt_answers (gp cyc : Nat) (s : State) : s.Answers (.st gp cyc) (execSt gp cyc s) :=
  State.answers_inRange (s.tryFire_runsTo _ _ _ _ noExtra_kept)

theorem execStMem_answers (gp cyc : Nat) (s : State) : s.Answers (.stMem gp cyc) (execStMem gp cyc s) :=
  State.answers_inRange (s.tryFire_runsTo _ _ _ _ (stMemFired_kept gp))

theorem execStRing_answers (gp cyc : Nat) (s : State) : s.Answers (.stRing gp cyc) (execStRing gp cyc s) :=
  State.answers_inRange (s.tryFire_runsTo _ _ _ _ (sendFired_kept gp))

theorem execSyncAdd_answers (gp cyc : Nat) (s : State) : s.Answers (.syncAdd gp cyc) (execSyncAdd gp cyc s) :=
  State.answers_inRange (s.tryFire_runsTo _ _ _ _ (syncAddFired_kept gp))

theorem execWaitb_answers (gp cyc : Nat) (s : State) : s.Answers (.waitb gp cyc) (execWaitb gp cyc s) :=
  State.answers_inRange (s.tryFire_runsTo _ _ _ _ (waitbFired_kept gp cyc))

theorem execToken_answers (gp cyc : Nat) (s : State) : s.Answers (.tokenOp gp cyc) (execToken gp cyc s) :=
  State.answers_inRange (s.tryFire_runsTo _ _ _ _ (tokenFired_kept gp cyc))

theorem execEmit_answers (gp cyc : Nat) (s : State) : s.Answers (.emitOp gp cyc) (execEmit gp cyc s) :=
  State.answers_inRange (s.tryFire_runsTo _ _ _ _ noExtra_kept)

theorem execArmb_answers (gp cyc : Nat) (s : State) : s.Answers (.armb gp cyc) (execArmb gp cyc s) :=
  State.answers_inRange (s.tryFire_runsTo _ _ _ _ (armbFired_kept gp))

section
variable {r s : State} (h : r.Carries s.kept)
include h

theorem State.ifAdmitted_carries (ag : Agent) (a : Nat) {f : State → State} (hf : r.Carries (f s).kept) : r.Carries (s.ifAdmitted ag a f).kept := by
  unfold State.ifAdmitted
  split_ifs
  · exact h
  · exact hf
  · simpa only [State.secDeny_kept] using h

theorem State.ifHearth_carries {f : State → State} (hf : r.Carries (f s).kept) : r.Carries (s.ifHearth f).kept := by
  unfold State.ifHearth
  split_ifs
  · exact hf
  · exact h

theorem State.onBlock_carries (p type t : Nat) (b : BitVec 256) {f : State → State} (hf : r.Carries (f s).kept) :
    r.Carries (s.onBlock p type t b f).kept := by
  unfold State.onBlock
  split_ifs
  · exact h
  · simpa only [State.crcFail_kept] using h
  · exact hf
  · exact h

end

theorem State.evqGo_kept (s : State) (p : QPort) (n : Nat) : (s.evqGo p n).kept = s.kept := by
  induction n generalizing s with
  | zero => rfl
  | succ n ih =>
    simp only [State.evqGo]
    split
    · rfl
    · split_ifs <;> simp only [ih, State.notify_kept, State.bump_kept, State.setQ_kept, State.qReq_kept]

theorem State.chipNotify_kept (s : State) (w : Row) : (s.chipNotify w).kept = s.kept := by
  refine State.foldl_kept (fun t p => ?_) _ _
  simp only [apply_ite State.kept, State.notify_kept, State.evqGo_kept, State.setQ_kept, ite_self]

theorem execMemWrite_answers (n waited t : Nat) (s : State) : s.Answers (.memWrite n waited t) (execMemWrite n waited t s) := by
  refine State.answers_of_wf rfl ?_
  simp only [execMemWrite]
  split
  · exact State.runsTo_next s.carries_self
  · split_ifs <;> refine State.runsTo_next ?_
    · simp only [State.rstDrop_kept, State.takeArrival_kept, State.carries_self]
    · simp only [State.flowCheck_kept, State.takeArrival_kept, State.carries_self]
    · simp only [State.rtDrop_kept, State.flowCheck_kept, State.takeArrival_kept, State.carries_self]
    · refine State.foldl_carries ?_ _ (fun t e ht => State.issueWrite_carries ht ..)
      simp only [State.kept_mk, State.kept_eta]
      split <;> simp only [State.tick_kept, State.flowCheck_kept, State.takeArrival_kept, State.carries_self]

theorem execSliceAccess_answers (n waited err t : Nat) (s : State) : s.Answers (.sliceAccess n waited err t) (execSliceAccess n waited err t s) := by
  refine State.answers_inRange ?_
  split
  · exact State.runsTo_next s.carries_self
  · split
    · simp only
      repeat' apply State.runsTo_ite
      all_goals
        refine State.runsTo_next ?_
        simp only [apply_ite State.kept, State.kept_mk, State.kept_eta, State.bump_kept, State.rowDone_kept, State.rowBrand_kept,
          State.sliceRead_kept, State.storedBrand_kept, State.ctrlErr_kept, State.tick_kept, State.xbarGrant_kept, ite_self, State.carries_self]
    · exact State.runsTo_next s.carries_self

theorem execMcRequest_answers (mc n served err t : Nat) (s : State) :
    s.Answers (.mcRequest mc n served err t) (execMcRequest mc n served err t s) := by
  refine State.answers_inRange ?_
  simp only
  split
  · exact State.runsTo_next s.carries_self
  · next q _ =>
    split_ifs <;> refine State.runsTo_next ?_
    · simp only [State.kept_mk, State.kept_eta, State.rstDrop_kept, State.carries_self]
    · exact s.carries_self
    all_goals
      refine State.classTwo_carries ?_ ..
      split
      · exact State.serveRow_carries (by simp only [State.peak_kept, State.ctrlErr_kept, State.mcTake_kept, State.carries_self]) ..
      · simp only [State.rowDenied_kept, State.peak_kept, State.ctrlErr_kept, State.mcTake_kept, State.carries_self]

theorem execTimeSync_answers (port : Nat) (block : BitVec 256) (t16 : Nat) (s : State) :
    s.Answers (.timeSync port block t16) (execTimeSync port block t16 s) := by
  refine State.answers_inRange (State.runsTo_next (State.onBlock_carries s.carries_self _ _ _ _ ?_))
  simp only [apply_ite State.kept, State.sendBlock_kept, State.followPath_kept, State.kept_mk, State.kept_eta, ite_self, State.carries_self]

theorem execTimeResp_answers (port : Nat) (block : BitVec 256) (t16 : Nat) (s : State) :
    s.Answers (.timeResp port block t16) (execTimeResp port block t16 s) := by
  refine State.answers_inRange (State.runsTo_next (State.onBlock_carries s.carries_self _ _ _ _ ?_))
  simp only [apply_ite State.kept, State.exchangeDone_kept, State.followPath_kept, State.wr_kept, State.kept_mk, State.kept_eta, ite_self,
    State.carries_self]

theorem execPatLoadGo_answers (ag : Agent) (gl : Nat) (val : Word) (s : State) : s.Answers (.patLoadGo ag gl val) (execPatLoadGo ag gl val s) := by
  refine State.answers_inRange (State.runsTo_next (State.ifAdmitted_carries s.carries_self _ _ ?_))
  split <;> simp only [State.loadCtl_kept, State.carries_self]

theorem execPatLoadAbort_answers (ag : Agent) (gl : Nat) (s : State) : s.Answers (.patLoadAbort ag gl) (execPatLoadAbort ag gl s) := by
  refine State.answers_inRange (State.runsTo_next (State.ifAdmitted_carries s.carries_self _ _ ?_))
  split <;> simp only [apply_ite State.kept, State.loadStop_kept, ite_self, State.carries_self]

theorem execDispInfoClear_answers (ag : Agent) (gl : Nat) (s : State) : s.Answers (.dispInfoClear ag gl) (execDispInfoClear ag gl s) := by
  refine State.answers_inRange (State.runsTo_next (State.ifAdmitted_carries s.carries_self _ _ ?_))
  split <;> simp only [State.clearDispute_kept, State.carries_self]

theorem execHeal_answers (gp t : Nat) (s : State) : s.Answers (.heal gp t) (execHeal gp t s) := by
  refine State.answers_inRange ?_
  split
  · exact State.runsTo_next s.carries_self
  · simp only
    repeat' apply State.runsTo_ite
    case h_2.hb.hb.hb =>
      split <;> refine State.runsTo_next ?_ <;>
        simp only [apply_ite State.kept, State.promote_kept, State.makeHole_kept, State.requestDrain_kept, State.setPhys_kept,
          State.healZero_kept, State.dropTraffic_kept, State.coreChip_kept, State.fenceCore_kept, State.kept_mk, State.kept_eta, ite_self,
              State.carries_self]
    all_goals
      refine State.runsTo_next ?_
      simp only [State.kept_mk, State.kept_eta, State.carries_self]

theorem execPerstAssert_answers (env : BootEnv) (t : Nat) (s : State) : s.Answers (.perstAssert env t) (execPerstAssert env t s) := by
  refine State.answers_inRange (State.runsTo_ite (State.runsTo_next s.carries_self) (State.runsTo_ite ?_ ?_)) <;> refine State.runsTo_next ?_
  · simp only [State.wf_kept, State.carries_self]
  · split_ifs <;>
      simp only [State.warmOrCold_carries, State.modAon_kept, State.foldl_kept, State.qDown_kept, implies_true, State.wf_kept, State.carries_self]

theorem execCmpData_answers (p : QPort) (tag grant status : Nat) (line : Row) (s : State) :
    s.Answers (.cmpData p tag grant status line) (execCmpData p tag grant status line s) := by
  refine State.answers_inRange ?_
  have hk := s.qTake_kept p tag [(2, 1), (3, 8)]
  split <;> next h => 
    rw [h] at hk
    refine State.runsTo_next ?_
    simp only [State.answered_kept, hk, State.carries_self]

theorem execQuexonCmp_answers (p : QPort) (tag status : Nat) (s : State) : s.Answers (.quexonCmp p tag status) (execQuexonCmp p tag status s) := by
  refine State.answers_inRange ?_
  have hk := s.qTake_kept p tag [(2, 1)]
  split <;> next h =>
    rw [h] at hk
    try split
    all_goals
      refine State.runsTo_next ?_
      simp only [State.modCtx_kept, State.evqGo_kept, State.notify_kept, State.setQ_kept, State.wf_kept, hk, State.carries_self]

theorem execThermalTrip_answers (tj16 : Int) (region t : Nat) (s : State) :
    s.Answers (.thermalTrip tj16 region t) (execThermalTrip tj16 region t s) := by
  refine State.answers_inRange (State.runsTo_ite (State.runsTo_next s.carries_self) (State.runsTo_next ?_))
  simp only [State.chipRec_kept, State.wr_kept, State.modPow_kept, State.foldl_kept, apply_ite State.kept,
    State.endCtx_kept, ite_self, implies_true, State.holdAll_kept, State.kept_mk, State.kept_eta, State.carries_self]

theorem execSetdasa_answers (static addr : Nat) (s : State) : s.Answers (.setdasa static addr) (execSetdasa static addr s) := by
  refine State.answers_inRange (State.runsTo_next (State.ifHearth_carries s.carries_self ?_))
  simp only [apply_ite State.kept, State.setDynAddr_kept, ite_self, State.carries_self]

theorem execRequestUpdate_answers (s : State) : s.Answers .requestUpdate (execRequestUpdate s) := by
  refine State.answers_of_wf rfl (State.runsTo_next (State.ifHearth_carries s.carries_self ?_))
  split <;> simp only [State.mctpReply_kept, State.kept_mk, State.kept_eta, State.discardCopies_kept, State.carries_self]

theorem execPassComponentTable_answers (comps : List Nat) (s : State) :
    s.Answers (.passComponentTable comps) (execPassComponentTable comps s) := by
  refine State.answers_inRange (State.runsTo_next (State.ifHearth_carries s.carries_self ?_))
  split <;> simp only [State.mctpReply_kept, State.kept_mk, State.kept_eta, State.carries_self]

theorem execUpdateComponent_answers (comp : Nat) (s : State) : s.Answers (.updateComponent comp) (execUpdateComponent comp s) := by
  refine State.answers_inRange (State.runsTo_next (State.ifHearth_carries s.carries_self ?_))
  split <;> simp only [apply_ite State.kept, State.pull_kept, State.mctpReply_kept, State.modFlash_kept, State.kept_mk, State.kept_eta, ite_self,
    State.carries_self]

theorem execRequestFirmwareData_answers (last : Bool) (img : Image) (env : BootEnv) (s : State) :
    s.Answers (.requestFirmwareData last img env) (execRequestFirmwareData last img env s) := by
  refine State.answers_inRange (State.runsTo_next (State.ifHearth_carries s.carries_self ?_))
  split
  · exact s.carries_self
  · split
    · exact s.carries_self
    · simp only
      split_ifs <;> simp only [State.cold_carries, State.pull_kept, State.mctpReply_kept, State.modFlash_kept, State.applied_kept, State.kept_mk,
        State.kept_eta, State.carries_self]

theorem execActivateFirmware_answers (s : State) : s.Answers .activateFirmware (execActivateFirmware s) := by
  refine State.answers_of_wf rfl (State.runsTo_next (State.ifHearth_carries s.carries_self ?_))
  split
  · simp only [State.mctpReply_kept, State.carries_self]
  · simp only [State.mctpReply_kept, State.kept_mk, State.kept_eta]
    split <;> simp only [State.newSet_kept, State.modFlash_kept, State.carries_self]

theorem execEventRecord_answers (n : Nat) (s : State) : s.Answers (.eventRecord n) (execEventRecord n s) := by
  refine State.answers_of_wf rfl (State.runsTo_next (State.ifHearth_carries s.carries_self ?_))
  split <;> simp only [apply_ite State.kept, State.chipNotify_kept, State.send_kept, State.wf_kept, State.modAon_kept, State.logRec_kept,
    State.bump_kept, State.wr_kept, State.kept_mk, State.kept_eta, ite_self, State.carries_self]

theorem execEventDatagramSend_answers (aged : Bool) (s : State) : s.Answers (.eventDatagramSend aged) (execEventDatagramSend aged s) := by
  refine State.answers_of_wf rfl (State.runsTo_next (State.ifHearth_carries s.carries_self ?_))
  split <;> simp only [apply_ite State.kept, State.showFill_kept, State.sendDatagram_kept, State.kept_mk, State.kept_eta, ite_self,
      State.carries_self]

theorem execIdleDatagram_answers (s : State) : s.Answers .idleDatagram (execIdleDatagram s) := by
  refine State.answers_of_wf rfl (State.runsTo_next (State.ifHearth_carries s.carries_self ?_))
  simp only [apply_ite State.kept, State.sendMark_kept, State.fresh_kept, ite_self, State.carries_self]

theorem execArpRequest_answers (ip : Word) (s : State) : s.Answers (.arpRequest ip) (execArpRequest ip s) := by
  refine State.answers_of_wf rfl (State.runsTo_next (State.ifHearth_carries s.carries_self ?_))
  simp only [apply_ite State.kept, State.send_kept, ite_self, State.carries_self]

theorem execMgmtLinkUp_answers (negotiated : Bool) (s : State) : s.Answers (.mgmtLinkUp negotiated) (execMgmtLinkUp negotiated s) := by
  refine State.answers_of_wf rfl (State.runsTo_next (State.ifHearth_carries s.carries_self ?_))
  simp only [apply_ite State.kept, State.wf_kept, ite_self, State.carries_self]

theorem State.reset_inv : State.reset.Inv := rfl

/-- The loss of the auxiliary supply leaves memory as after reset: empty. -/
theorem execAuxLoss_answers (s : State) : s.Answers .auxLoss (execAuxLoss s) := by
  refine State.answers_of_wf rfl (State.runsTo_next ?_)
  simp only [State.kept_mk]
  exact ⟨rfl, fun _ => State.reset_inv⟩

end Sys2Proof.Machine

/-! The walk over all commands, and the statements of the step that rest on it. -/

namespace Sys2Proof.Machine

/-- The five commands whose result R409 leaves undefined when NCLK is too slow for ACLK. -/
def ratioBound : Instr → Bool
  | .packetHop .. | .fabricRoute .. | .broadcastGrant .. | .buckleAdd .. | .buckleTimeout .. => true
  | _ => false

/-- What one of the five commands leads to: a next state that carries what `s` has, or the fault of the clock ratio when NCLK is too slow. -/
def State.RunsInRatio (s : State) (o : Host.Outcome State Fault Refusal) : Prop :=
  (s.ratioOk = false ∧ o = .fault .clockRatio) ∨ s.RunsTo o

theorem State.runsInRatio_next {s t : State} (h : s.Carries t.kept) : s.RunsInRatio (.next t) := .inr (State.runsTo_next h)

/-- The guard on the clock ratio stands before the command. -/
theorem State.runsInRatio_guard {s : State} {o : Host.Outcome State Fault Refusal} (h : s.RunsTo o) :
    s.RunsInRatio (if !s.ratioOk then .fault .clockRatio else o) := by
  cases hr : s.ratioOk
  · exact .inl ⟨hr, rfl⟩
  · exact .inr h

/-- What one of the five commands' outcome is: a fault when its operands name no unit, else what it leads to. -/
def State.AnswersInRatio (s : State) (c : Instr) (o : Host.Outcome State Fault Refusal) : Prop :=
  (c.wf = false → o = .fault .noSuchUnit) ∧ (c.wf = true → s.RunsInRatio o)

theorem State.answersInRatio_inRange {s : State} {c : Instr} {o : Host.Outcome State Fault Refusal} (h : s.RunsInRatio o) :
    s.AnswersInRatio c (inRange c o) := by
  refine ⟨fun hw => ?_, fun hw => ?_⟩
  · simp [inRange, hw]
  · simpa [inRange, hw] using h

theorem State.answersInRatio_of_wf {s : State} {c : Instr} {o : Host.Outcome State Fault Refusal} (hw : c.wf = true) (h : s.RunsInRatio o) :
    s.AnswersInRatio c o :=
  ⟨fun hf => absurd (hw.symm.trans hf) (by decide), fun _ => h⟩

theorem execBuckleAdd_answers (n t : Nat) (s : State) : s.AnswersInRatio (.buckleAdd n t) (execBuckleAdd n t s) := by
  refine State.answersInRatio_of_wf rfl ?_
  unfold execBuckleAdd
  split
  · exact State.runsInRatio_next s.carries_self
  · refine State.runsInRatio_guard ?_
    simp only
    repeat' apply State.runsTo_ite
    all_goals
      refine State.runsTo_next ?_
      simp only [State.rstDrop_kept, State.rtDrop_kept, State.bklAdd_kept, State.flowCheck_kept, State.takeArrival_kept, State.carries_self]

theorem execBuckleTimeout_answers (i : Nat) (s : State) : s.AnswersInRatio (.buckleTimeout i) (execBuckleTimeout i s) := by
  refine State.answersInRatio_inRange (State.runsInRatio_guard (State.runsTo_ite ?_ ?_)) <;> refine State.runsTo_next ?_ <;>
    simp only [State.bklExpire_kept, State.carries_self]

theorem execBroadcastGrant_answers (b held : Nat) (s : State) : s.AnswersInRatio (.broadcastGrant b held) (execBroadcastGrant b held s) := by
  refine State.answersInRatio_inRange (State.runsInRatio_guard ?_)
  split
  · exact State.runsTo_next s.carries_self
  · split
    · exact State.runsTo_next s.carries_self
    · simp only
      repeat' apply State.runsTo_ite
      case hb.hb.hb =>
        refine State.runsTo_next ?_
        rw [State.tick_kept, State.tick_kept, State.foldl_kept (fun t gp => State.toCore_kept ..)]
        split <;> simp only [State.bump_kept, State.leave_kept, State.netGrant_kept, State.carries_self]
      all_goals
        refine State.runsTo_next ?_
        simp only [State.tickSum_kept, State.leave_kept, State.setPkt_kept, State.carries_self]

theorem execPacketHop_answers (n err t : Nat) (s : State) : s.AnswersInRatio (.packetHop n err t) (execPacketHop n err t s) := by
  refine State.answersInRatio_of_wf rfl ?_
  unfold execPacketHop
  extract_lets
  split
  · exact State.runsInRatio_next s.carries_self
  · refine State.runsInRatio_guard ?_
    split
    all_goals
      repeat' apply State.runsTo_ite
      all_goals
        refine State.runsTo_next ?_
        simp only [State.dropPkt_kept, State.rtDrop_kept, State.sourceHop_kept, State.moveTo_kept, State.freeIngress_kept, State.nodeHop_kept,
          State.hopError_kept, State.carries_self]

theorem execFabricRoute_answers (n t : Nat) (s : State) : s.AnswersInRatio (.fabricRoute n t) (execFabricRoute n t s) := by
  refine State.answersInRatio_of_wf rfl ?_
  unfold execFabricRoute
  extract_lets
  split
  · exact State.runsInRatio_next s.carries_self
  · refine State.runsInRatio_guard (State.runsTo_ite (State.runsTo_next s.carries_self) ?_)
    split
    · exact State.runsTo_next (by simp only [State.routeOut_kept, State.carries_self])
    · refine State.runsTo_ite (State.runsTo_next (by simp only [State.routeOut_kept, State.carries_self])) ?_
      split
      · exact State.runsTo_next (by simp only [State.rtDrop_kept, State.dropPkt_kept, State.vcCount_kept, State.carries_self])
      · refine State.runsTo_ite (State.runsTo_next ?_) (State.runsTo_next ?_) <;>
          simp only [State.rtDrop_kept, State.dropPkt_kept, State.vcCount_kept, State.routeOut_kept, State.setPkt_kept, State.carries_self]
    · exact State.runsTo_next s.carries_self

/-- Every command but the five faults when its operands name no unit, and else runs to a state that carries what it started from. -/
theorem exec_answers (c : Instr) (s : State) (h5 : ratioBound c = false) : s.Answers c (exec c s) := by
  cases c with
  | registerWrite => exact execRegisterWrite_answers ..
  | repWindowBoundary => exact execRepWindowBoundary_answers ..
  | strokeBoundary => exact execStrokeBoundary_answers ..
  | seam => exact execSeam_answers ..
  | commit => exact execCommit_answers ..
  | commitAtWrite => exact execCommitAtWrite_answers ..
  | strokeCountLoRead => exact execStrokeCountLoRead_answers ..
  | strokeCountHiRead => exact execStrokeCountHiRead_answers ..
  | strokeInEdge => exact execStrokeInEdge_answers ..
  | strokeInLost => exact execStrokeInLost_answers ..
  | girthSourceLost => exact execGirthSourceLost_answers ..
  | seqReadEntry => exact execSeqReadEntry_answers ..
  | repeatOp => exact execRepeat_answers ..
  | endOp => exact execEnd_answers ..
  | waitOp => exact execWait_answers ..
  | opRetire => exact execOpRetire_answers ..
  | tileComplete => exact execTileComplete_answers ..
  | feedLoad => exact execFeedLoad_answers ..
  | feedDescriptorIssue => exact execFeedDescriptorIssue_answers ..
  | loadAct => exact execLoadAct_answers ..
  | acc => exact execAcc_answers ..
  | drain => exact execDrain_answers ..
  | loadTile => exact execLoadTile_answers ..
  | vecAdd => exact execVecAdd_answers ..
  | vecSub => exact execVecSub_answers ..
  | vecMul => exact execVecMul_answers ..
  | vecFma => exact execVecFma_answers ..
  | vecMax => exact execVecMax_answers ..
  | vecMin => exact execVecMin_answers ..
  | vecMov => exact execVecMov_answers ..
  | cvt => exact execCvt_answers ..
  | exp => exact execExp_answers ..
  | log => exact execLog_answers ..
  | rsqrt => exact execRsqrt_answers ..
  | sigmoid => exact execSigmoid_answers ..
  | erf => exact execErf_answers ..
  | norm => exact execNorm_answers ..
  | cmp => exact execCmp_answers ..
  | rred => exact execRred_answers ..
  | cred => exact execCred_answers ..
  | topk => exact execTopk_answers ..
  | sample => exact execSample_answers ..
  | verify => exact execVerify_answers ..
  | scan => exact execScan_answers ..
  | smaxd => exact execSmaxd_answers ..
  | switchOp => exact execSwitch_answers ..
  | mergeOp => exact execMerge_answers ..
  | send => exact execSend_answers ..
  | tsend => exact execTsend_answers ..
  | arm => exact execArm_answers ..
  | disarm => exact execDisarm_answers ..
  | st => exact execSt_answers ..
  | stMem => exact execStMem_answers ..
  | stRing => exact execStRing_answers ..
  | syncAdd => exact execSyncAdd_answers ..
  | waitb => exact execWaitb_answers ..
  | tokenOp => exact execToken_answers ..
  | emitOp => exact execEmit_answers ..
  | armb => exact execArmb_answers ..
  | outboundPacketDepart => exact execOutboundPacketDepart_answers ..
  | ringWrite => exact execRingWrite_answers ..
  | landingBufferDrain => exact execLandingBufferDrain_answers ..
  | readReq => exact execReadReq_answers ..
  | readRsp => exact execReadRsp_answers ..
  | memWrite => exact execMemWrite_answers ..
  | buckleRegWrite => exact execBuckleRegWrite_answers ..
  | sliceAccess => exact execSliceAccess_answers ..
  | mcRequest => exact execMcRequest_answers ..
  | eccWriteback => exact execEccWriteback_answers ..
  | refresh => exact execRefresh_answers ..
  | patrolScrub => exact execPatrolScrub_answers ..
  | clearingScrub => exact execClearingScrub_answers ..
  | hot => exact execHot_answers ..
  | ownerTableWrite => exact execOwnerTableWrite_answers ..
  | linkPacketRx => exact execLinkPacketRx_answers ..
  | ack => exact execAck_answers ..
  | nak => exact execNak_answers ..
  | credit => exact execCredit_answers ..
  | linkAckTimer => exact execLinkAckTimer_answers ..
  | creditTimer => exact execCreditTimer_answers ..
  | replayTimeout => exact execReplayTimeout_answers ..
  | fabRetrain => exact execFabRetrain_answers ..
  | peerTraining => exact execPeerTraining_answers ..
  | laneLoss => exact execLaneLoss_answers ..
  | fecRetrainTrigger => exact execFecRetrainTrigger_answers ..
  | controlBlockTimeout => exact execControlBlockTimeout_answers ..
  | retrainTimeout => exact execRetrainTimeout_answers ..
  | linkDown => exact execLinkDown_answers ..
  | fabIdWrite => exact execFabIdWrite_answers ..
  | torusDimWrite => exact execTorusDimWrite_answers ..
  | tree => exact execTree_answers ..
  | keyWaitResume => exact execKeyWaitResume_answers ..
  | treeNotice => exact execTreeNotice_answers ..
  | epCtlArm => exact execEpCtlArm_answers ..
  | epochFlip => exact execEpochFlip_answers ..
  | epochRetire => exact execEpochRetire_answers ..
  | girth => exact execGirth_answers ..
  | barrierEntryWrite => exact execBarrierEntryWrite_answers ..
  | timeSync => exact execTimeSync_answers ..
  | timeReq => exact execTimeReq_answers ..
  | timeResp => exact execTimeResp_answers ..
  | patLoadGo => exact execPatLoadGo_answers ..
  | patLoadAbort => exact execPatLoadAbort_answers ..
  | patLoadRow => exact execPatLoadRow_answers ..
  | dbgSelGo => exact execDbgSelGo_answers ..
  | dispInfoClear => exact execDispInfoClear_answers ..
  | zeroisationComplete => exact execZeroisationComplete_answers ..
  | entropyHealthFail => exact execEntropyHealthFail_answers ..
  | assaySegmentStart => exact execAssaySegmentStart_answers ..
  | assaySegmentEnd => exact execAssaySegmentEnd_answers ..
  | assayOverdue => exact execAssayOverdue_answers ..
  | assayTurnYield => exact execAssayTurnYield_answers ..
  | asyTgtGo => exact execAsyTgtGo_answers ..
  | targetedAssayDone => exact execTargetedAssayDone_answers ..
  | heal => exact execHeal_answers ..
  | healCfgTimeout => exact execHealCfgTimeout_answers ..
  | pwrEnAssert => exact execPwrEnAssert_answers ..
  | bringupStepTimeout => exact execBringupStepTimeout_answers ..
  | shutdown => exact execShutdown_answers ..
  | warm => exact execWarm_answers ..
  | perstAssert => exact execPerstAssert_answers ..
  | perstRelease => exact execPerstRelease_answers ..
  | aonThermalSample => exact execAonThermalSample_answers ..
  | contextReset => exact execContextReset_answers ..
  | engineReset => exact execEngineReset_answers ..
  | partitionReset => exact execPartitionReset_answers ..
  | chipComputeReset => exact execChipComputeReset_answers ..
  | powerCycle => exact execPowerCycle_answers ..
  | resetEscalated => exact execResetEscalated_answers ..
  | heartbeat => exact execHeartbeat_answers ..
  | hearthTakeover => exact execHearthTakeover_answers ..
  | aonWatchdog => exact execAonWatchdog_answers ..
  | dumpCtlGo => exact execDumpCtlGo_answers ..
  | dumpReadTimeout => exact execDumpReadTimeout_answers ..
  | dumpComplete => exact execDumpComplete_answers ..
  | dumpChunkSend => exact execDumpChunkSend_answers ..
  | dumpResend => exact execDumpResend_answers ..
  | quexonFlitRx => exact execQuexonFlitRx_answers ..
  | qReplayTimeout => exact execQReplayTimeout_answers ..
  | qRetrain => exact execQRetrain_answers ..
  | qLinkLoss => exact execQLinkLoss_answers ..
  | quexonLinkDown => exact execQuexonLinkDown_answers ..
  | snpInv => exact execSnpInv_answers ..
  | snpData => exact execSnpData_answers ..
  | memRd => exact execMemRd_answers ..
  | memWr => exact execMemWr_answers ..
  | memWrPtl => exact execMemWrPtl_answers ..
  | mmioRd => exact execMmioRd_answers ..
  | mmioWr => exact execMmioWr_answers ..
  | cmpData => exact execCmpData_answers ..
  | hitchClaim => exact execHitchClaim_answers ..
  | hitchRelease => exact execHitchRelease_answers ..
  | partitionEntryWrite => exact execPartitionEntryWrite_answers ..
  | slotCut => exact execSlotCut_answers ..
  | doneWrite => exact execDoneWrite_answers ..
  | vecMaskWrite => exact execVecMaskWrite_answers ..
  | presentDebugToken => exact execPresentDebugToken_answers ..
  | presentLifecycle => exact execPresentLifecycle_answers ..
  | presentOwnerKey => exact execPresentOwnerKey_answers ..
  | presentRevoke => exact execPresentRevoke_answers ..
  | close => exact execClose_answers ..
  | spdmRequest => exact execSpdmRequest_answers ..
  | getMeasurements => exact execGetMeasurements_answers ..
  | debugSessionExpire => exact execDebugSessionExpire_answers ..
  | halt => exact execHalt_answers ..
  | runCore => exact execRunCore_answers ..
  | stepCore => exact execStepCore_answers ..
  | jtagBypass => exact execJtagBypass_answers ..
  | jtagIdcode => exact execJtagIdcode_answers ..
  | jtagSamplePreload => exact execJtagSamplePreload_answers ..
  | jtagExtest => exact execJtagExtest_answers ..
  | pwrCtlRun => exact execPwrCtlRun_answers ..
  | pwrCtlI1 => exact execPwrCtlI1_answers ..
  | pwrCtlI2 => exact execPwrCtlI2_answers ..
  | i2ExitDone => exact execI2ExitDone_answers ..
  | powerSample => exact execPowerSample_answers ..
  | thermalThrottle => exact execThermalThrottle_answers ..
  | thermalTrip => exact execThermalTrip_answers ..
  | powerBrakeAssert => exact execPowerBrakeAssert_answers ..
  | powerBrakeRelease => exact execPowerBrakeRelease_answers ..
  | refclkLost => exact execRefclkLost_answers ..
  | refPpmWindow => exact execRefPpmWindow_answers ..
  | clkObsSelWrite => exact execClkObsSelWrite_answers ..
  | setdasa => exact execSetdasa_answers ..
  | entdaa => exact execEntdaa_answers ..
  | setEndpointId => exact execSetEndpointId_answers ..
  | getEndpointId => exact execGetEndpointId_answers ..
  | getMctpVersionSupport => exact execGetMctpVersionSupport_answers ..
  | getMessageTypeSupport => exact execGetMessageTypeSupport_answers ..
  | getPdr => exact execGetPdr_answers ..
  | sensorRead => exact execSensorRead_answers ..
  | requestUpdate => exact execRequestUpdate_answers ..
  | passComponentTable => exact execPassComponentTable_answers ..
  | updateComponent => exact execUpdateComponent_answers ..
  | requestFirmwareData => exact execRequestFirmwareData_answers ..
  | activateFirmware => exact execActivateFirmware_answers ..
  | eventRecord => exact execEventRecord_answers ..
  | eventDatagramSend => exact execEventDatagramSend_answers ..
  | idleDatagram => exact execIdleDatagram_answers ..
  | arpRequest => exact execArpRequest_answers ..
  | alertRelease => exact execAlertRelease_answers ..
  | pwrEnDeassert => exact execPwrEnDeassert_answers ..
  | mainPowerFault => exact execMainPowerFault_answers ..
  | auxValid => exact execAuxValid_answers ..
  | auxLoss => exact execAuxLoss_answers ..
  | mainPowerApplied => exact execMainPowerApplied_answers ..
  | quexonCmp => exact execQuexonCmp_answers ..
  | mgmtLinkUp => exact execMgmtLinkUp_answers ..
  | mgmtLinkDown => exact execMgmtLinkDown_answers ..
  | crystalStops => exact execCrystalStops_answers ..
  | chatter => exact execChatter_answers ..
  | pldmBaseRequest => exact execPldmBaseRequest_answers ..
  | packetHop => simp [ratioBound] at h5
  | fabricRoute => simp [ratioBound] at h5
  | broadcastGrant => simp [ratioBound] at h5
  | buckleAdd => simp [ratioBound] at h5
  | buckleTimeout => simp [ratioBound] at h5

/-- Every command, the five included: the clock ratio is their one fault beside operands that name no unit. -/
theorem exec_answersInRatio (c : Instr) (s : State) : s.AnswersInRatio c (exec c s) := by
  by_cases h5 : ratioBound c = true
  · cases c with
    | packetHop => exact execPacketHop_answers ..
    | fabricRoute => exact execFabricRoute_answers ..
    | broadcastGrant => exact execBroadcastGrant_answers ..
    | buckleAdd => exact execBuckleAdd_answers ..
    | buckleTimeout => exact execBuckleTimeout_answers ..
    | _ => simp [ratioBound] at h5
  · obtain ⟨hf, hn⟩ := exec_answers c s (by simpa using h5)
    exact ⟨hf, fun hw => .inr (hn hw)⟩

/-- The next state of a command carries what the state had. -/
theorem carries_of_exec_next {c : Instr} {s t : State} (h : exec c s = .next t) : s.Carries t.kept := by
  obtain ⟨hf, hn⟩ := exec_answersInRatio c s
  cases hw : c.wf
  · simp [hf hw] at h
  · obtain ⟨_, ho⟩ | ⟨u, hu, hc⟩ := hn hw
    · simp [ho] at h
    · rw [hu] at h
      cases h
      exact hc

/-- Settles O1. -/
theorem stepRunsFrontCommand : Obligations.StepRunsFrontCommand := by
  refine ⟨fun c rest s => rfl, fun s h => ?_⟩
  rw [step, h]

/-- What a step leads to carries the state with the command it runs taken off the queue. -/
theorem carries_of_step_next {s t : State} (h : step s = .next t) : { s with pending := s.pending.tail }.Carries t.kept := by
  unfold step at h
  split at h
  next hp =>
    cases h
    rw [hp]
    exact ⟨hp, id⟩
  next hp => 
    rw [hp]
    exact carries_of_exec_next h

/-- Settles O6: the next state carries the rest of the queue. -/
theorem stepConsumesOneCommand : Obligations.StepConsumesOneCommand :=
  fun _ _ h => (carries_of_step_next h).1

/-- Settles O5: each command keeps memory as it is, or writes, filters or empties it, and each of these keeps the canonical form. -/
theorem stepKeepsMemoryCanonical : Obligations.StepKeepsMemoryCanonical :=
  fun _ _ hs h => (carries_of_step_next h).2 hs

/-- A command that is none of the five is not bound by the clock ratio. -/
theorem ratioBound_eq_false {c : Instr} (hp : ∀ n err t, c ≠ .packetHop n err t) (hf : ∀ n t, c ≠ .fabricRoute n t)
    (hb : ∀ b h, c ≠ .broadcastGrant b h) (ha : ∀ n t, c ≠ .buckleAdd n t) (ht : ∀ i, c ≠ .buckleTimeout i) : ratioBound c = false := by
  unfold ratioBound
  split
  · exact absurd rfl (hp _ _ _)
  · exact absurd rfl (hf _ _)
  · exact absurd rfl (hb _ _)
  · exact absurd rfl (ha _ _)
  · exact absurd rfl (ht _)
  · rfl

/-- Settles O2: the walk over the commands of `exec_answersInRatio`, for the five and for the others. -/
theorem onlyIllFormedCommandsStop : Obligations.OnlyIllFormedCommandsStop := by
  intro c s
  obtain ⟨hf, hn⟩ := exec_answersInRatio c s
  refine ⟨hf, fun hw hr => ?_, fun hw _ => ?_⟩
  · cases h5 : ratioBound c
    · obtain ⟨t, ht, _⟩ := (exec_answers c s h5).2 hw
      exact ⟨t, ht⟩
    · obtain ⟨hslow, _⟩ | ⟨t, ht, _⟩ := hn hw
      · obtain hok | ⟨hp, hf, hb, ha, ht⟩ := hr
        · simp [hok] at hslow
        · exact absurd h5 (by simpa using ratioBound_eq_false hp hf hb ha ht)
      · exact ⟨t, ht⟩
  · obtain ⟨_, ho⟩ | ⟨t, ht, _⟩ := hn hw
    · exact .inr ho
    · exact .inl ⟨t, ht⟩

/-- Settles O4. -/
theorem resetLeavesSpecValues : Obligations.ResetLeavesSpecValues := by
  refine ⟨State.reset_inv, rfl, ?_⟩
  decide

end Sys2Proof.Machine

/-! The proof of O3. Entries as numbers (R88, R89). An entry is its unit, its operation, BRK, and 119 bits below. `onlyFields` says that these 119 bits are the
sum of the listed fields, and an encoded operation is such a sum: so that the entry an operation encodes to is the entry it came from, but
for BRK, for a unit that the operation does not have, and for a STRIDE of 0, which means 1. -/

namespace Sys2Proof.Machine

/-- Bits [hi:lo] of a number, at their place. -/
def fieldAt (n : Nat) (f : Nat × Nat) : Nat := n / 2 ^ f.2 % 2 ^ (f.1 + 1 - f.2) * 2 ^ f.2

/-- The sum of the listed fields of a number. -/
def fieldSum (n : Nat) (fs : List (Nat × Nat)) : Nat := (fs.map (fieldAt n)).sum

/-- Fields from the highest down, none over another. -/
def Descending (fs : List (Nat × Nat)) : Prop := fs.Pairwise (fun f g => g.1 < f.2)

theorem fieldAt_le (n : Nat) (f : Nat × Nat) : fieldAt n f ≤ n :=
  (Nat.mul_le_mul_right _ (Nat.mod_le _ _)).trans (Nat.div_mul_le_self n _)

theorem fieldAt_mod (n : Nat) {k : Nat} {f : Nat × Nat} (h : f.1 < k) : fieldAt (n % 2 ^ k) f = fieldAt n f := by
  unfold fieldAt
  by_cases hf : f.2 ≤ f.1
  · rw [show (2 : Nat) ^ k = 2 ^ f.2 * 2 ^ (k - f.2) by rw [← pow_add]; congr 1; omega, Nat.mod_mul_right_div_self,
      Nat.mod_mod_of_dvd _ (pow_dvd_pow 2 (by omega))]
  · simp [show f.1 + 1 - f.2 = 0 by omega, Nat.mod_one]

/-- Clearing a field leaves the fields below it. -/
theorem fieldAt_sub {n : Nat} {f g : Nat × Nat} (h : g.1 < f.2) : fieldAt (n - fieldAt n f) g = fieldAt n g := by
  rw [← fieldAt_mod (n - fieldAt n f) h, ← fieldAt_mod n h]
  congr 1
  have hle := fieldAt_le n f
  obtain ⟨c, hc⟩ : 2 ^ f.2 ∣ fieldAt n f := Dvd.intro_left _ rfl
  rw [hc] at hle ⊢
  exact Nat.sub_mul_mod hle

theorem sub_fields_add_sum (fs : List (Nat × Nat)) (n : Nat) (h : Descending fs) :
    fs.foldl (fun n f => n - fieldAt n f) n + fieldSum n fs = n := by
  induction fs generalizing n with
  | nil => rfl
  | cons f r ih =>
    obtain ⟨hf, hr⟩ := List.pairwise_cons.mp h
    have hsum : fieldSum (n - fieldAt n f) r = fieldSum n r :=
      congrArg List.sum (List.map_congr_left fun g hg => fieldAt_sub (hf g hg))
    have := ih (n - fieldAt n f) hr
    have := fieldAt_le n f
    simp only [List.foldl_cons, fieldSum, List.map_cons, List.sum_cons] at *
    omega

/-- The bits of an entry below BRK. -/
def lowBits (e : BitVec 128) : Nat := e.toNat % 2 ^ 119

theorem fieldAt_lowBits (e : BitVec 128) {hi lo : Nat} (h : hi < 119) : fieldAt (lowBits e) (hi, lo) = ebits e hi lo * 2 ^ lo :=
  fieldAt_mod e.toNat h

/-- An entry has no bit outside its fields when its bits below BRK are the sum of the fields (R89). -/
theorem onlyFields_iff (e : BitVec 128) (fs : List (Nat × Nat)) (h : Descending fs) :
    onlyFields e fs = true ↔ lowBits e = fieldSum (lowBits e) fs := by
  have htop : e.toNat - e.toNat / 2 ^ 119 % 2 ^ (127 + 1 - 119) * 2 ^ 119 = lowBits e := by
    have := e.isLt
    rw [lowBits]
    omega
  have hs := sub_fields_add_sum fs (lowBits e) h
  simp only [onlyFields, List.foldl_cons, htop, decide_eq_true_eq]
  change fs.foldl (fun n f => n - fieldAt n f) (lowBits e) = 0 ↔ _
  omega

/-- The entry of a unit, an operation and the bits below BRK. -/
def entryOf (unit op low : Nat) : BitVec 128 := BitVec.ofNat 128 (unit * 2 ^ 125 + op * 2 ^ 120 + low)

theorem packEntry_eq (unit op : Nat) (fs : List (Nat × Nat)) :
    packEntry unit op fs = entryOf unit op (fs.foldl (fun n f => n + f.2 * 2 ^ f.1) 0) := rfl

section
variable {unit op low : Nat} (hu : unit < 8) (ho : op < 32) (hl : low < 2 ^ 119)
include hu ho hl

theorem entryOf_toNat : (entryOf unit op low).toNat = unit * 2 ^ 125 + op * 2 ^ 120 + low := by
  rw [entryOf, BitVec.toNat_ofNat, Nat.mod_eq_of_lt]
  omega

theorem lowBits_entryOf : lowBits (entryOf unit op low) = low := by
  rw [lowBits, entryOf_toNat hu ho hl]
  omega

theorem entUnit_entryOf : entUnit (entryOf unit op low) = unit := by
  rw [entUnit, ebits, entryOf_toNat hu ho hl]
  omega

theorem entOp_entryOf : entOp (entryOf unit op low) = op := by
  rw [entOp, ebits, entryOf_toNat hu ho hl]
  omega

end

/-- Two entries that agree below BRK. -/
theorem ebits_congr {e e' : BitVec 128} (h : lowBits e' = lowBits e) (hi lo : Nat) (hh : hi < 119) : ebits e' hi lo = ebits e hi lo := by
  have := fieldAt_lowBits e' (lo := lo) hh
  rw [h, fieldAt_lowBits e hh] at this
  exact (Nat.eq_of_mul_eq_mul_right (Nat.two_pow_pos lo) this).symm

theorem onlyFields_congr {e e' : BitVec 128} (h : lowBits e' = lowBits e) (fs : List (Nat × Nat)) : onlyFields e' fs = onlyFields e fs := by
  have htop (e : BitVec 128) : e.toNat - e.toNat / 2 ^ 119 % 2 ^ (127 + 1 - 119) * 2 ^ 119 = lowBits e := by
    have := e.isLt
    rw [lowBits]
    omega
  simp only [onlyFields, List.foldl_cons, htop, h]

section
variable {e e' : BitVec 128} (h : lowBits e' = lowBits e)
include h

theorem decLoad_congr : decLoad e' = decLoad e := by
  simp [decLoad, ebits_congr h, onlyFields_congr h]

theorem decSteer_congr (ho : entOp e' = entOp e) : decSteer e' = decSteer e := by
  simp [decSteer, ho, ebits_congr h, onlyFields_congr h]

theorem decAnvil_congr (ho : entOp e' = entOp e) : decAnvil e' = decAnvil e := by
  simp [decAnvil, ho, ebits_congr h, onlyFields_congr h]

theorem decVec_congr (ho : entOp e' = entOp e) : decVec e' = decVec e := by
  simp [decVec, ho, ebits_congr h, onlyFields_congr h]

theorem decSendArgs_congr : decSendArgs e' = decSendArgs e := by
  simp [decSendArgs, ebits_congr h, onlyFields_congr h]

theorem decSend_congr (ho : entOp e' = entOp e) : decSend e' = decSend e := by
  simp [decSend, decSendArgs_congr h, ho, ebits_congr h, onlyFields_congr h]

theorem decRecv_congr (ho : entOp e' = entOp e) : decRecv e' = decRecv e := by
  simp [decRecv, ho, ebits_congr h, onlyFields_congr h]

theorem decStore_congr (ho : entOp e' = entOp e) : decStore e' = decStore e := by
  simp [decStore, decSendArgs_congr h, ho, ebits_congr h, onlyFields_congr h]

theorem decSync_congr (region : Nat) (ho : entOp e' = entOp e) : decSync region e' = decSync region e := by
  simp [decSync, ho, ebits_congr h, onlyFields_congr h]

end

/-- An operation that decodes does not depend on the unit when it is WAIT, REPEAT or END (R88). -/
def unitFree (op : Nat) : Bool := op = 0 || op = 0x1E || op = 0x1F

theorem decodeEntry_congr {e e' : BitVec 128} (region : Nat) (h : lowBits e' = lowBits e) (ho : entOp e' = entOp e)
    (hu : entUnit e' = entUnit e ∨ unitFree (entOp e) = true) : decodeEntry region e' = decodeEntry region e := by
  unfold decodeEntry
  rw [ho]
  split
  · simp [ebits_congr h, onlyFields_congr h]
  · simp [ebits_congr h, onlyFields_congr h]
  · simp [onlyFields_congr h]
  · rfl
  · rfl
  · next h0 h1 h2 _ _ =>
    rw [hu.resolve_right (by simpa [unitFree] using ⟨⟨h0, h1⟩, h2⟩), decLoad_congr h, decAnvil_congr h ho, decVec_congr h ho, decSteer_congr h ho,
      decSend_congr h ho, decRecv_congr h ho, decStore_congr h ho, decSync_congr h region ho]

theorem selOf_code {v : Nat} {s : Sel} (h : selOf v = some s) : s.code = v := by
  unfold selOf at h
  split_ifs at h <;> cases h <;> simp only [Sel.code] <;> omega

theorem srcSel_code {v : Nat} {s : Sel} (h : srcSel v = some s) : s.code = v := by
  unfold srcSel at h
  split at h
  · cases h
  · exact selOf_code h

theorem trOf_code {v : Nat} {t : Tr} (h : trOf v = some t) : t.code = v := by
  unfold trOf at h
  split_ifs at h <;> cases h <;> simp only [Tr.code] <;> omega

theorem ctOf_eq {v c : Nat} (h : ctOf v = some c) : c = v := by
  unfold ctOf at h
  split_ifs at h
  cases h
  rfl

theorem ebits_lt (e : BitVec 128) (hi lo : Nat) : ebits e hi lo < 2 ^ (hi + 1 - lo) := Nat.mod_lt _ (Nat.two_pow_pos _)

/-- A flag decoded from a bit is encoded as the bit. -/
theorem flagBit_ebits (e : BitVec 128) (k : Nat) : flagBit (decide (ebits e k k = 1)) = ebits e k k := by
  have := ebits_lt e k k
  rw [show k + 1 - k = 1 by omega] at this
  unfold flagBit
  split_ifs with h <;> simp at h <;> omega

/-- What the bits of an entry below BRK are, when it has no bit outside its fields. -/
theorem lowBits_eq {e : BitVec 128} {fs : List (Nat × Nat)} (h : onlyFields e fs = true) (hd : Descending fs) (hh : ∀ f ∈ fs, f.1 < 119) :
    lowBits e = (fs.map (fun f => ebits e f.1 f.2 * 2 ^ f.2)).sum := by
  rw [(onlyFields_iff e fs hd).mp h, fieldSum]
  exact congrArg List.sum (List.map_congr_left fun f hf => fieldAt_lowBits e (hh f hf))

/-- The guard of a decoder: the entry has its fields alone, some condition holds, and the operation is the one built. -/
theorem guard_eq_some {b : Bool} {op a : Op} (h : (if b = true then some a else none) = some op) : b = true ∧ a = op := by
  simpa using h

/-- A packed entry is the entry of its fields when they sum up to the same bits. -/
theorem packEntry_eq_entryOf {e : BitVec 128} {fs : List (Nat × Nat)} (unit op : Nat) (ps : List (Nat × Nat)) (h : onlyFields e fs = true)
    (hd : Descending fs) (hh : ∀ f ∈ fs, f.1 < 119)
    (hs : ps.foldl (fun n f => n + f.2 * 2 ^ f.1) 0 = (fs.map (fun f => ebits e f.1 f.2 * 2 ^ f.2)).sum) :
    packEntry unit op ps = entryOf unit op (lowBits e) :=
  (packEntry_eq unit op ps).trans (congrArg (entryOf unit op) (hs.trans (lowBits_eq h hd hh).symm))

/-- A field is its upper part and its lower part. -/
theorem ebits_split (e : BitVec 128) (hi mid below lo : Nat) (hm : below + 1 = mid) (hl : lo < mid) (hh : mid ≤ hi) :
    ebits e hi lo = ebits e hi mid * 2 ^ (mid - lo) + ebits e below lo := by
  unfold ebits
  rw [show hi + 1 - lo = (mid - lo) + (hi + 1 - mid) by omega, hm,
    show (2 : Nat) ^ mid = 2 ^ lo * 2 ^ (mid - lo) by rw [← pow_add]; congr 1; omega, ← Nat.div_div_eq_div_mul, pow_add, Nat.mod_mul]
  ring

/-- DRAIN's outputs (R102). -/
theorem drTr_code {v : Nat} {t : Tr} (h : (if v < 2 then some (Tr.trace v) else if v = 0x1F then some .unbound else none) = some t) : t.code = v := by
  split_ifs at h <;> cases h <;> simp only [Tr.code] <;> omega

theorem decLoad_encode {e : BitVec 128} {op : Op} (ho : entOp e = 1) (hz : ebits e 36 24 ≠ 0) (h : decLoad e = some op) :
    encodeEntry op = entryOf 0 (entOp e) (lowBits e) := by
  unfold decLoad at h
  obtain ⟨hc, rfl⟩ := guard_eq_some h
  simp only [Bool.and_eq_true] at hc
  obtain ⟨⟨⟨⟨⟨hf, _⟩, _⟩, _⟩, _⟩, _⟩ := hc
  rw [ho, encodeEntry, packEntry_eq_entryOf _ _ _ hf (by unfold Descending; decide) (by decide)]
  have := ebits_split e 117 114 113 112 rfl (by decide) (by decide)
  have := ebits_split e 113 113 112 112 rfl (by decide) (by decide)
  simp -implicitDefEqProofs only [List.foldl_cons, List.foldl_nil, List.map_cons, List.map_nil, List.sum_cons, List.sum_nil, Nat.add_sub_cancel,
      flagBit_ebits, Nat.max_eq_left (Nat.one_le_iff_ne_zero.mpr hz)]
  omega

theorem decAnvil_encode {e : BitVec 128} {op : Op} (h : decAnvil e = some op) : encodeEntry op = entryOf 1 (entOp e) (lowBits e) := by
  unfold decAnvil at h
  split at h
  · next ho =>
    split at h
    · next src hs =>
      obtain ⟨hc, rfl⟩ := guard_eq_some h
      simp only [Bool.and_eq_true] at hc
      obtain ⟨⟨⟨⟨hf, _⟩, _⟩, _⟩, _⟩ := hc
      rw [ho, encodeEntry, packEntry_eq_entryOf _ _ _ hf (by unfold Descending; decide) (by decide)]
      simp -implicitDefEqProofs only [List.foldl_cons, List.foldl_nil, List.map_cons, List.map_nil, List.sum_cons, List.sum_nil, Nat.add_sub_cancel,
          selOf_code hs]
      omega
    · cases h
  · next ho =>
    split at h
    · next a w ha hw =>
      obtain ⟨hc, rfl⟩ := guard_eq_some h
      simp only [Bool.and_eq_true] at hc
      obtain ⟨⟨⟨⟨⟨⟨⟨⟨⟨⟨hf, _⟩, _⟩, _⟩, _⟩, _⟩, _⟩, _⟩, _⟩, _⟩, _⟩ := hc
      rw [ho, encodeEntry, packEntry_eq_entryOf _ _ _ hf (by unfold Descending; decide) (by decide)]
      have := ebits_split e 113 113 112 112 rfl (by decide) (by decide)
      simp -implicitDefEqProofs only [List.foldl_cons, List.foldl_nil, List.map_cons, List.map_nil, List.sum_cons, List.sum_nil, Nat.add_sub_cancel,
          selOf_code ha, selOf_code hw, flagBit_ebits]
      omega
    · cases h
  · next ho =>
    extract_lets drTr at h
    split at h
    · next a b ha hb =>
      obtain ⟨hc, rfl⟩ := guard_eq_some h
      simp only [Bool.and_eq_true] at hc
      obtain ⟨⟨⟨⟨hf, _⟩, _⟩, _⟩, _⟩ := hc
      rw [ho, encodeEntry, packEntry_eq_entryOf _ _ _ hf (by unfold Descending; decide) (by decide)]
      have := ebits_split e 114 114 113 112 rfl (by decide) (by decide)
      have := ebits_split e 113 113 112 112 rfl (by decide) (by decide)
      simp -implicitDefEqProofs only [List.foldl_cons, List.foldl_nil, List.map_cons, List.map_nil, List.sum_cons, List.sum_nil, Nat.add_sub_cancel,
          drTr_code ha, drTr_code hb, flagBit_ebits]
      omega
    · cases h
  · next ho =>
    split at h
    · next src hs =>
      obtain ⟨hc, rfl⟩ := guard_eq_some h
      simp only [Bool.and_eq_true] at hc
      obtain ⟨⟨⟨⟨⟨hf, _⟩, _⟩, _⟩, _⟩, _⟩ := hc
      rw [ho, encodeEntry, packEntry_eq_entryOf _ _ _ hf (by unfold Descending; decide) (by decide)]
      simp -implicitDefEqProofs only [List.foldl_cons, List.foldl_nil, List.map_cons, List.map_nil, List.sum_cons, List.sum_nil, Nat.add_sub_cancel,
          selOf_code hs]
      omega
    · cases h
  · cases h

theorem decVec_encode {e : BitVec 128} {op : Op} (h : decVec e = some op) : encodeEntry op = entryOf 2 (entOp e) (lowBits e) := by
  unfold decVec at h
  split at h
  · next s0 s1 s2 d0 d1 h0 h1 h2 h3 h4 =>
    have himm : (BitVec.ofNat 32 (ebits e 60 29)).toNat = ebits e 60 29 :=
      (BitVec.toNat_ofNat _ _).trans (Nat.mod_eq_of_lt (ebits_lt e 60 29))
    obtain ⟨hc, rfl⟩ := guard_eq_some h
    simp only [Bool.and_eq_true] at hc
    obtain ⟨⟨⟨⟨⟨⟨⟨⟨⟨⟨⟨⟨⟨⟨⟨hf, _⟩, _⟩, _⟩, _⟩, _⟩, _⟩, _⟩, _⟩, _⟩, _⟩, _⟩, _⟩, _⟩, _⟩, _⟩ := hc
    rw [encodeEntry, packEntry_eq_entryOf _ _ _ hf (by unfold Descending; decide) (by decide)]
    have := ebits_split e 117 113 112 112 rfl (by decide) (by decide)
    simp -implicitDefEqProofs only [List.foldl_cons, List.foldl_nil, List.map_cons, List.map_nil, List.sum_cons, List.sum_nil, Nat.add_sub_cancel,
        selOf_code h0, selOf_code h1, selOf_code h2, selOf_code h3, selOf_code h4, flagBit_ebits, himm]
    omega
  · cases h

theorem decSteer_encode {e : BitVec 128} {op : Op} (h : decSteer e = some op) : encodeEntry op = entryOf 3 (entOp e) (lowBits e) := by
  unfold decSteer at h
  split at h
  · next ct a b c hct ha hb hc' =>
    extract_lets args at h
    have hargs (k : Nat) (hf : onlyFields e [(111, 107), (106, 102), (101, 97), (96, 92), (91, 86)] = true) :
        args.encode k = entryOf 3 k (lowBits e) := by
      change SteerArgs.encode k ⟨ct, a, b, c, ebits e 91 86 + 1⟩ = _
      rw [SteerArgs.encode, packEntry_eq_entryOf _ _ _ hf (by unfold Descending; decide) (by decide)]
      simp -implicitDefEqProofs only [List.foldl_cons, List.foldl_nil, List.map_cons, List.map_nil, List.sum_cons, List.sum_nil, Nat.add_sub_cancel,
          ctOf_eq hct, trOf_code ha, trOf_code hb, trOf_code hc']
      omega
    split at h
    · next hc =>
      obtain ⟨hf, _⟩ := (Bool.and_eq_true _ _).mp hc
      split_ifs at h with h1 h2 <;> cases h
      · rw [h1, encodeEntry, hargs 1 hf]
      · rw [h2.1, encodeEntry, hargs 2 hf]
    · cases h
  · cases h

theorem decSendArgs_encode {e : BitVec 128} {a : SendArgs} (unit op : Nat) (h : decSendArgs e = some a) :
    a.encode unit op = entryOf unit op (lowBits e) := by
  unfold decSendArgs at h
  split at h
  · next src hs =>
    obtain ⟨hc, rfl⟩ : _ ∧ _ = a := by simpa only [Option.ite_none_right_eq_some, Option.some.injEq] using h
    simp only [Bool.and_eq_true] at hc
    obtain ⟨hf, _⟩ := hc
    rw [SendArgs.encode, packEntry_eq_entryOf _ _ _ hf (by unfold Descending; decide) (by decide)]
    simp -implicitDefEqProofs only [List.foldl_cons, List.foldl_nil, List.map_cons, List.map_nil, List.sum_cons, List.sum_nil, Nat.add_sub_cancel,
        srcSel_code hs, flagBit_ebits]
    omega
  · cases h

theorem decSend_encode {e : BitVec 128} {op : Op} (h : decSend e = some op) : encodeEntry op = entryOf 4 (entOp e) (lowBits e) := by
  unfold decSend at h
  split at h
  · next ho =>
    obtain ⟨a, ha, rfl⟩ := Option.map_eq_some_iff.mp h
    rw [ho, encodeEntry, decSendArgs_encode 4 1 ha]
  · next ho =>
    split at h
    · next src hs =>
      obtain ⟨hc, rfl⟩ := guard_eq_some h
      simp only [Bool.and_eq_true] at hc
      obtain ⟨⟨⟨⟨hf, _⟩, _⟩, _⟩, _⟩ := hc
      rw [ho, encodeEntry, packEntry_eq_entryOf _ _ _ hf (by unfold Descending; decide) (by decide)]
      simp -implicitDefEqProofs only [List.foldl_cons, List.foldl_nil, List.map_cons, List.map_nil, List.sum_cons, List.sum_nil, Nat.add_sub_cancel,
          srcSel_code hs, flagBit_ebits]
      omega
    · cases h
  · cases h

theorem decRecv_encode {e : BitVec 128} {op : Op} (h : decRecv e = some op) : encodeEntry op = entryOf 5 (entOp e) (lowBits e) := by
  unfold decRecv at h
  split at h
  · next ho =>
    obtain ⟨hc, rfl⟩ := guard_eq_some h
    obtain ⟨hf, hb⟩ := (Bool.and_eq_true _ _).mp hc
    have hbkl : flagBit (if ebits e 112 112 = 1 then some (ebits e 93 78) else none).isSome = ebits e 112 112 := by
      have hsome : (if ebits e 112 112 = 1 then some (ebits e 93 78) else none).isSome = decide (ebits e 112 112 = 1) := by
        split_ifs with h1
        · exact (decide_eq_true h1).symm
        · exact (decide_eq_false h1).symm
      rw [hsome, flagBit_ebits]
    have hidx : (if ebits e 112 112 = 1 then some (ebits e 93 78) else none).getD 0 = ebits e 93 78 := by
      split_ifs with h1
      · rfl
      · exact Eq.symm (by simpa [h1] using hb)
    rw [ho, encodeEntry, packEntry_eq_entryOf _ _ _ hf (by unfold Descending; decide) (by decide)]
    have := ebits_split e 113 113 112 112 rfl (by decide) (by decide)
    simp -implicitDefEqProofs only [List.foldl_cons, List.foldl_nil, List.map_cons, List.map_nil, List.sum_cons, List.sum_nil, Nat.add_sub_cancel,
        hbkl, hidx, flagBit_ebits]
    omega
  · next ho =>
    obtain ⟨hc, rfl⟩ := guard_eq_some h
    rw [ho, encodeEntry, packEntry_eq_entryOf _ _ _ hc (by unfold Descending; decide) (by decide)]
    simp -implicitDefEqProofs only [List.foldl_cons, List.foldl_nil, List.map_cons, List.map_nil, List.sum_cons, List.sum_nil, Nat.add_sub_cancel]
    omega
  · cases h

theorem decStore_encode {e : BitVec 128} {op : Op} (h : decStore e = some op) : encodeEntry op = entryOf 6 (entOp e) (lowBits e) := by
  unfold decStore at h
  split at h
  · next ho =>
    split at h
    · next src dst hs hd =>
      obtain ⟨hc, rfl⟩ := guard_eq_some h
      simp only [Bool.and_eq_true] at hc
      obtain ⟨⟨⟨hf, _⟩, _⟩, _⟩ := hc
      rw [ho, encodeEntry, packEntry_eq_entryOf _ _ _ hf (by unfold Descending; decide) (by decide)]
      simp -implicitDefEqProofs only [List.foldl_cons, List.foldl_nil, List.map_cons, List.map_nil, List.sum_cons, List.sum_nil, Nat.add_sub_cancel,
          srcSel_code hs, selOf_code hd]
      omega
    · cases h
  · next ho =>
    split at h
    · next src hs =>
      obtain ⟨hc, rfl⟩ := guard_eq_some h
      simp only [Bool.and_eq_true] at hc
      obtain ⟨⟨⟨⟨hf, _⟩, _⟩, _⟩, _⟩ := hc
      rw [ho, encodeEntry, packEntry_eq_entryOf _ _ _ hf (by unfold Descending; decide) (by decide)]
      have := ebits_split e 113 113 112 112 rfl (by decide) (by decide)
      simp -implicitDefEqProofs only [List.foldl_cons, List.foldl_nil, List.map_cons, List.map_nil, List.sum_cons, List.sum_nil, Nat.add_sub_cancel,
          srcSel_code hs, flagBit_ebits]
      omega
    · cases h
  · next ho =>
    obtain ⟨a, ha, rfl⟩ := Option.map_eq_some_iff.mp h
    rw [ho, encodeEntry, decSendArgs_encode 6 3 ha]
  · cases h

theorem decSync_encode {region : Nat} {e : BitVec 128} {op : Op} (h : decSync region e = some op) :
    encodeEntry op = entryOf 7 (entOp e) (lowBits e) := by
  unfold decSync at h
  split at h
  · next ho =>
    obtain ⟨hc, rfl⟩ := guard_eq_some h
    simp only [Bool.and_eq_true] at hc
    obtain ⟨hf, _⟩ := hc
    rw [ho, encodeEntry, packEntry_eq_entryOf _ _ _ hf (by unfold Descending; decide) (by decide)]
    simp -implicitDefEqProofs only [List.foldl_cons, List.foldl_nil, List.map_cons, List.map_nil, List.sum_cons, List.sum_nil, Nat.add_sub_cancel,
        flagBit_ebits]
    omega
  · next ho =>
    obtain ⟨hc, rfl⟩ := guard_eq_some h
    simp only [Bool.and_eq_true] at hc
    obtain ⟨hf, _⟩ := hc
    rw [ho, encodeEntry, packEntry_eq_entryOf _ _ _ hf (by unfold Descending; decide) (by decide)]
    simp -implicitDefEqProofs only [List.foldl_cons, List.foldl_nil, List.map_cons, List.map_nil, List.sum_cons, List.sum_nil, Nat.add_sub_cancel]
    omega
  · next ho =>
    split at h
    · next ct hct =>
      obtain ⟨hc, rfl⟩ := guard_eq_some h
      simp only [Bool.and_eq_true] at hc
      obtain ⟨hf, _⟩ := hc
      rw [ho, encodeEntry, packEntry_eq_entryOf _ _ _ hf (by unfold Descending; decide) (by decide)]
      simp -implicitDefEqProofs only [List.foldl_cons, List.foldl_nil, List.map_cons, List.map_nil, List.sum_cons, List.sum_nil, Nat.add_sub_cancel,
          ctOf_eq hct]
      omega
    · cases h
  · next ho =>
    split at h
    · next ct hct =>
      have htok : (BitVec.ofNat 16 (ebits e 106 91)).toNat = ebits e 106 91 :=
        (BitVec.toNat_ofNat _ _).trans (Nat.mod_eq_of_lt (ebits_lt e 106 91))
      obtain ⟨hc, rfl⟩ := guard_eq_some h
      rw [ho, encodeEntry, packEntry_eq_entryOf _ _ _ hc (by unfold Descending; decide) (by decide)]
      simp -implicitDefEqProofs only [List.foldl_cons, List.foldl_nil, List.map_cons, List.map_nil, List.sum_cons, List.sum_nil, Nat.add_sub_cancel,
          ctOf_eq hct, htok]
      omega
    · cases h
  · next ho =>
    obtain ⟨hc, rfl⟩ := guard_eq_some h
    rw [ho, encodeEntry, packEntry_eq_entryOf _ _ _ hc (by unfold Descending; decide) (by decide)]
    simp -implicitDefEqProofs only [List.foldl_cons, List.foldl_nil, List.map_cons, List.map_nil, List.sum_cons, List.sum_nil, Nat.add_sub_cancel]
    omega
  · cases h

theorem entOp_lt (e : BitVec 128) : entOp e < 32 := ebits_lt e 124 120

theorem lowBits_lt (e : BitVec 128) : lowBits e < 2 ^ 119 := Nat.mod_lt _ (Nat.two_pow_pos 119)

/-- An entry and the entry of its operation and its bits below BRK decode alike, under its own unit, or under any when the operation has none. -/
theorem decodeEntry_entryOf (region : Nat) (e : BitVec 128) {unit : Nat} (hu : unit < 8) (h : unit = entUnit e ∨ unitFree (entOp e) = true) :
    decodeEntry region (entryOf unit (entOp e) (lowBits e)) = decodeEntry region e :=
  decodeEntry_congr region (lowBits_entryOf hu (entOp_lt e) (lowBits_lt e)) (entOp_entryOf hu (entOp_lt e) (lowBits_lt e))
    (h.imp_left fun h => (entUnit_entryOf hu (entOp_lt e) (lowBits_lt e)).trans h)

theorem fieldSum_append (n : Nat) (fs : List (Nat × Nat)) (f : Nat × Nat) : fieldSum n (fs ++ [f]) = fieldSum n fs + fieldAt n f := by
  simp [fieldSum]

/-- An entry whose STRIDE is 0 with a STRIDE of 1 in its place: `decodeEntry` takes the two alike (R102). -/
def strideOne (e : BitVec 128) : BitVec 128 := entryOf (entUnit e) (entOp e) (lowBits e + 2 ^ 24)

section
variable {e : BitVec 128} (hz : ebits e 36 24 = 0)
include hz

theorem stride_eq_zero : lowBits e / 2 ^ 24 % 2 ^ 13 = 0 := by
  have h := fieldAt_lowBits e (hi := 36) (lo := 24) (by decide)
  rw [hz, zero_mul] at h
  exact (Nat.mul_eq_zero.mp h).resolve_right (Nat.two_pow_pos 24).ne'

theorem strideOne_lt : lowBits e + 2 ^ 24 < 2 ^ 119 := by
  have := stride_eq_zero hz
  have := lowBits_lt e
  omega

theorem lowBits_strideOne : lowBits (strideOne e) = lowBits e + 2 ^ 24 :=
  lowBits_entryOf (ebits_lt e 127 125) (entOp_lt e) (strideOne_lt hz)

theorem fieldAt_stride : fieldAt (lowBits e + 2 ^ 24) (36, 24) = fieldAt (lowBits e) (36, 24) + 2 ^ 24 := by
  have := stride_eq_zero hz
  change (lowBits e + 2 ^ 24) / 2 ^ 24 % 2 ^ 13 * 2 ^ 24 = lowBits e / 2 ^ 24 % 2 ^ 13 * 2 ^ 24 + 2 ^ 24
  omega

theorem fieldAt_above_stride {f : Nat × Nat} (h : 37 ≤ f.2) : fieldAt (lowBits e + 2 ^ 24) f = fieldAt (lowBits e) f := by
  have hz := stride_eq_zero hz
  have hdiv : (lowBits e + 2 ^ 24) / 2 ^ 37 = lowBits e / 2 ^ 37 := by omega
  unfold fieldAt
  rw [show (2 : Nat) ^ f.2 = 2 ^ 37 * 2 ^ (f.2 - 37) by rw [← pow_add]; congr 1; omega, ← Nat.div_div_eq_div_mul, ← Nat.div_div_eq_div_mul, hdiv]

theorem ebits_strideOne {hi lo : Nat} (hl : 37 ≤ lo) (hh : hi < 119) : ebits (strideOne e) hi lo = ebits e hi lo := by
  have h := fieldAt_lowBits (strideOne e) (lo := lo) hh
  rw [lowBits_strideOne hz, fieldAt_above_stride hz hl, fieldAt_lowBits e hh] at h
  exact (Nat.eq_of_mul_eq_mul_right (Nat.two_pow_pos lo) h).symm

theorem stride_strideOne : ebits (strideOne e) 36 24 = 1 := by
  have h := fieldAt_lowBits (strideOne e) (hi := 36) (lo := 24) (by decide)
  have h0 := fieldAt_lowBits e (hi := 36) (lo := 24) (by decide)
  rw [lowBits_strideOne hz, fieldAt_stride hz] at h
  omega

theorem onlyFields_strideOne {fs : List (Nat × Nat)} (hd : Descending (fs ++ [(36, 24)])) (hf : ∀ f ∈ fs, 37 ≤ f.2) :
    onlyFields (strideOne e) (fs ++ [(36, 24)]) = onlyFields e (fs ++ [(36, 24)]) := by
  have hsum : fieldSum (lowBits e + 2 ^ 24) (fs ++ [(36, 24)]) = fieldSum (lowBits e) (fs ++ [(36, 24)]) + 2 ^ 24 := by
    have h : fieldSum (lowBits e + 2 ^ 24) fs = fieldSum (lowBits e) fs :=
      congrArg List.sum (List.map_congr_left fun f h => fieldAt_above_stride hz (hf f h))
    rw [fieldSum_append, fieldSum_append, h, fieldAt_stride hz, Nat.add_assoc]
  rw [Bool.eq_iff_iff, onlyFields_iff _ _ hd, onlyFields_iff _ _ hd, lowBits_strideOne hz, hsum]
  omega

/-- LOAD takes a STRIDE of 0 as 1 (R102). -/
theorem decLoad_strideOne : decLoad (strideOne e) = decLoad e := by
  have hf := onlyFields_strideOne hz (fs := [(117, 112), (111, 106), (105, 93), (92, 50), (49, 37)]) (by unfold Descending; decide) (by decide)
  simp only [List.cons_append, List.nil_append] at hf
  simp [decLoad, hf, ebits_strideOne hz, stride_strideOne hz, hz]

end

/-- A LOAD decodes to what the entry its operation encodes to decodes to. -/
theorem load_roundTrip {region : Nat} {e : BitVec 128} {op : Op} (hu : entUnit e = 0) (ho : entOp e = 1) (h : decLoad e = some op) :
    decodeEntry region (encodeEntry op) = some op := by
  have hdec (e : BitVec 128) (hu : entUnit e = 0) (ho : entOp e = 1) : decodeEntry region e = decLoad e := by
    simp [decodeEntry, hu, ho]
  by_cases hz : ebits e 36 24 = 0
  · have hu' : entUnit (strideOne e) = 0 := (entUnit_entryOf (ebits_lt e 127 125) (entOp_lt e) (strideOne_lt hz)).trans hu
    have ho' : entOp (strideOne e) = 1 := (entOp_entryOf (ebits_lt e 127 125) (entOp_lt e) (strideOne_lt hz)).trans ho
    rw [← decLoad_strideOne hz] at h
    rw [decLoad_encode ho' (by simp [stride_strideOne hz]) h, decodeEntry_entryOf region _ (by decide) (.inl hu'.symm), hdec _ hu' ho', h]
  · rw [decLoad_encode ho hz h, decodeEntry_entryOf region _ (by decide) (.inl hu.symm), hdec e hu ho, h]

/-- The operations that no unit has encode to the entry they came from, under unit 0 (R88). -/
theorem unitFree_encode {region : Nat} {e : BitVec 128} {op : Op} (hf : unitFree (entOp e) = true) (h : decodeEntry region e = some op) :
    encodeEntry op = entryOf 0 (entOp e) (lowBits e) := by
  unfold decodeEntry at h
  split at h
  · next ho =>
    obtain ⟨hc, rfl⟩ := guard_eq_some h
    rw [ho, encodeEntry, packEntry_eq_entryOf _ _ _ hc (by unfold Descending; decide) (by decide)]
    simp -implicitDefEqProofs only [List.foldl_cons, List.foldl_nil, List.map_cons, List.map_nil, List.sum_cons, List.sum_nil]
    omega
  · next ho =>
    obtain ⟨hc, rfl⟩ := guard_eq_some h
    obtain ⟨hf, _⟩ := (Bool.and_eq_true _ _).mp hc
    rw [ho, encodeEntry, packEntry_eq_entryOf _ _ _ hf (by unfold Descending; decide) (by decide)]
    simp -implicitDefEqProofs only [List.foldl_cons, List.foldl_nil, List.map_cons, List.map_nil, List.sum_cons, List.sum_nil, Nat.add_sub_cancel]
    omega
  · next ho =>
    obtain ⟨hc, rfl⟩ := guard_eq_some h
    rw [ho, encodeEntry, packEntry_eq_entryOf _ _ _ hc List.Pairwise.nil (by decide)]
    simp
  · cases h
  · cases h
  · next h0 h1 h2 _ _ => exact absurd hf (by simpa [unitFree] using ⟨⟨h0, h1⟩, h2⟩)

/-- Settles O3: the entry an operation encodes to is the entry it came from, but for what `decodeEntry` does not read. -/
theorem patternEntryRoundTrip : Obligations.PatternEntryRoundTrip := by
  intro region e op h
  by_cases hf : unitFree (entOp e) = true
  · rw [unitFree_encode hf h, decodeEntry_entryOf region e (by decide) (.inr hf), h]
  · have back {unit : Nat} (hunit : unit < 8) (hu : entUnit e = unit) (henc : encodeEntry op = entryOf unit (entOp e) (lowBits e)) :
        decodeEntry region (encodeEntry op) = some op := by
      rw [henc, decodeEntry_entryOf region e hunit (.inl hu.symm), h]
    have hd := h
    unfold decodeEntry at hd
    split at hd
    case h_6 =>
      split at hd
      · next hu =>
        split_ifs at hd with ho
        exact load_roundTrip hu ho hd
      · next hu => exact back (by decide) hu (decAnvil_encode hd)
      · next hu => exact back (by decide) hu (decVec_encode hd)
      · next hu => exact back (by decide) hu (decSteer_encode hd)
      · next hu => exact back (by decide) hu (decSend_encode hd)
      · next hu => exact back (by decide) hu (decRecv_encode hd)
      · next hu => exact back (by decide) hu (decStore_encode hd)
      · next h0 h1 h2 h3 h4 h5 h6 =>
        have hlt : entUnit e < 8 := ebits_lt e 127 125
        have hu : entUnit e = 7 := by
          simp only [imp_false] at h0 h1 h2 h3 h4 h5 h6
          omega
        exact back (by decide) hu (decSync_encode hd)
    all_goals simp_all [unitFree]

end Sys2Proof.Machine

/-! The firing commands (R60, R68): the launch that the laws of firing describe, and what each command adds to it. -/

namespace Sys2Proof.Machine

/-- What a firing command adds to the launch of its operation (R102). -/
def firingExtra (gp cyc : Nat) : Instr → State → Nat → QEnt → Op → State
  | .feedLoad .. => feedFired gp
  | .loadAct .. => loadActFired gp
  | .acc .. => tileFired gp cyc
  | .drain .. => tileFired gp cyc
  | .loadTile .. => tileFired gp cyc
  | .send .. => sendFired gp
  | .stRing .. => sendFired gp
  | .tsend .. => tsendFired gp
  | .stMem .. => stMemFired gp
  | .arm .. => armFired gp
  | .disarm .. => disarmFired gp
  | .syncAdd .. => syncAddFired gp
  | .waitb .. => waitbFired gp cyc
  | .tokenOp .. => tokenFired gp cyc
  | .armb .. => armbFired gp
  | _ => noExtra

section
variable {gp cyc : Nat} {f : FireCmd} (hf : f ∈ fireCmds gp cyc)
include hf

theorem fireCmd_gp_cyc : f.gp = gp ∧ f.cyc = cyc := by
  revert f
  simp [fireCmds]

/-- A firing command attempts to fire the head of its unit's queue (R60). -/
theorem exec_fireCmd (hgp : gp < 5120) (s : State) : exec f.cmd s = .next (s.tryFire gp f.unit cyc f.mine (firingExtra gp cyc f.cmd)) := by
  revert f
  simp only [fireCmds, List.forall_mem_append, List.forall_mem_cons, List.forall_mem_map, List.mem_range, List.not_mem_nil, false_implies,
      implies_true, and_true]
  refine ⟨?_, fun u hu => if_pos (Bool.and_eq_true_iff.mpr ⟨decide_eq_true hgp, decide_eq_true hu⟩)⟩
  and_intros
  all_goals exact if_pos (decide_eq_true hgp)

/-- The one ARMB of a core and a cycle. -/
theorem fireCmd_ne_armb (h : f.cmd ≠ .armb gp cyc) (g k : Nat) : f.cmd ≠ .armb g k := by
  revert f
  simp only [fireCmds, List.forall_mem_append, List.forall_mem_cons, List.forall_mem_map, List.not_mem_nil, false_implies, implies_true, and_true]
  simp

/-- Nothing keeps the head operation from firing: the command launches it, and adds what is its own (R68). -/
theorem exec_fireCmd_launch (hgp : gp < 5120) {s : State} {q : QEnt} {rest : List QEnt} {op : Op}
    (hi : (s.reachUnit gp f.unit cyc).issues gp = true) (hh : (s.reachUnit gp f.unit cyc).headIs f q rest op)
    (hm : (s.reachUnit gp f.unit cyc).mayFire f q rest op) :
    exec f.cmd s = .next (firingExtra gp cyc f.cmd ((s.reachUnit gp f.unit cyc).launch gp f.unit cyc q rest op)
      ((s.reachUnit gp f.unit cyc).core gp).nextId q op) := by
  obtain ⟨rfl, rfl⟩ := fireCmd_gp_cyc hf
  obtain ⟨hq, hd, hmine, hbusy⟩ := hh
  obtain ⟨hw, hb⟩ := hm
  rw [exec_fireCmd hf hgp, State.tryFire_launch s f.gp f.unit f.cyc f.mine _ q rest op hi hq hd hmine hbusy
    (State.brkHalts_false _ _ _ (hb.imp_right fun h => h q (by simp))) hw]

end

/-- A core whose queues are those of another, and in which what is in flight there still is. -/
def Core.KeepsIssue (c d : Core) : Prop :=
  d.queues = c.queues ∧ ∀ id unit q cyc, c.hasFlight id unit q cyc → d.hasFlight id unit q cyc

theorem Core.keepsIssue_of_eq {c d : Core} (hq : d.queues = c.queues) (hf : d.flights = c.flights) : c.KeepsIssue d := by
  refine ⟨hq, fun id unit q cyc h => ?_⟩
  unfold Core.hasFlight at *
  rwa [hf]

theorem Core.KeepsIssue.trans {c d e : Core} (h : c.KeepsIssue d) (h' : d.KeepsIssue e) : c.KeepsIssue e :=
  ⟨h'.1.trans h.1, fun id unit q cyc hf => h'.2 _ _ _ _ (h.2 id unit q cyc hf)⟩

/-- Rewriting what an operation in flight holds, but not what it is, keeps it in flight. -/
theorem Core.keepsIssue_map {c d : Core} (hq : d.queues = c.queues) {g : Flight → Flight} (hf : d.flights = c.flights.map g)
    (hg : ∀ f, (g f).id = f.id ∧ (g f).unit = f.unit ∧ (g f).idx = f.idx ∧ (g f).ent = f.ent ∧ (g f).fired = f.fired) : c.KeepsIssue d := by
  refine ⟨hq, fun id unit q cyc h => ?_⟩
  obtain ⟨f, hmem, h1, h2, h3, h4, h5⟩ := h
  obtain ⟨g1, g2, g3, g4, g5⟩ := hg f
  exact ⟨g f, hf ▸ List.mem_map_of_mem hmem, g1.trans h1, g2.trans h2, g3.trans h3, g4.trans h4, g5.trans h5⟩

theorem State.flowNext_core (s : State) (gp dmod key : Nat) : (s.core gp).KeepsIssue ((s.flowNext gp dmod key).2.2.core gp) := by
  unfold State.flowNext
  simp only
  split <;> exact Core.keepsIssue_of_eq (by simp) (by simp)

theorem State.numberPkts_core (s : State) (gp dmod key : Nat) (l : List OutPkt) :
    (s.core gp).KeepsIssue ((s.numberPkts gp dmod key l).2.core gp) := by
  induction l generalizing s with
  | nil => exact Core.keepsIssue_of_eq rfl rfl
  | cons p l ih =>
    simp only [State.numberPkts]
    exact (s.flowNext_core gp dmod key).trans (ih _)

theorem State.openPackets_core (s : State) (gp id : Nat) (src : Sel) (rows step : Nat) (last : Bool) (hdr : Packet) (flow : Option (Nat × Nat)) :
    (s.core gp).KeepsIssue ((s.openPackets gp id src rows step last hdr flow).core gp) := by
  simp only [State.openPackets, State.core_modCore_same]
  cases flow with
  | none => exact Core.keepsIssue_of_eq rfl rfl
  | some f => exact (s.numberPkts_core gp f.1 f.2 _).trans (Core.keepsIssue_of_eq rfl rfl)

theorem State.syncWait_core (s : State) (gp cyc : Nat) : (s.core gp).KeepsIssue ((s.syncWait gp cyc).core gp) := by
  simp only [State.syncWait, State.core_modCore_same]
  split <;> exact Core.keepsIssue_of_eq rfl rfl

theorem State.syncHold_core (s : State) (gp id b : Nat) : (s.core gp).KeepsIssue ((s.syncHold gp id b).core gp) := by
  rw [State.syncHold, State.setBkl, State.core_wf, State.core_modCore_same]
  exact Core.keepsIssue_map rfl rfl fun f => by split <;> simp

theorem State.waitHold_core (s : State) (gp id : Nat) :
    (s.core gp).KeepsIssue ((s.modCore gp (fun c =>
      { c with flights := c.flights.map (fun f => if f.id = id then { f with hold := true } else f) })).core gp) := by
  rw [State.core_modCore_same]
  exact Core.keepsIssue_map rfl rfl fun f => by split <;> simp

theorem Core.setTile_keepsIssue (c : Core) (n : Nat) (x : Tile) : c.KeepsIssue (c.setTile n x) := by
  unfold Core.setTile
  split <;> exact Core.keepsIssue_of_eq rfl rfl

theorem State.core_withNet (s : State) (n : List NetPkt) (gp : Nat) : { s with net := n }.core gp = s.core gp := rfl

theorem tileFired_core (gp cyc : Nat) (t : State) (id : Nat) (q : QEnt) (op : Op) :
    (t.core gp).KeepsIssue ((tileFired gp cyc t id q op).core gp) := by
  unfold tileFired State.tileState
  split
  iterate 3
    · rw [State.core_modCore_same]
      exact Core.setTile_keepsIssue ..
  · exact Core.keepsIssue_of_eq rfl rfl

theorem feedFired_core (gp : Nat) (t : State) (id : Nat) (q : QEnt) (op : Op) :
    (t.core gp).KeepsIssue ((feedFired gp t id q op).core gp) := by
  unfold feedFired
  split
  · rw [State.core_setCore_same]
    exact Core.keepsIssue_of_eq (by split <;> rfl) (by split <;> rfl)
  · exact Core.keepsIssue_of_eq rfl rfl

theorem loadActFired_core (gp : Nat) (t : State) (id : Nat) (q : QEnt) (op : Op) :
    (t.core gp).KeepsIssue ((loadActFired gp t id q op).core gp) := by
  unfold loadActFired
  split
  · rw [State.core_wr]
    exact Core.keepsIssue_of_eq rfl rfl
  · exact Core.keepsIssue_of_eq rfl rfl

theorem sendFired_core (gp : Nat) (t : State) (id : Nat) (q : QEnt) (op : Op) :
    (t.core gp).KeepsIssue ((sendFired gp t id q op).core gp) := by
  unfold sendFired
  split
  · exact t.openPackets_core ..
  · exact t.openPackets_core ..
  · exact Core.keepsIssue_of_eq rfl rfl

theorem tsendFired_core (gp : Nat) (t : State) (id : Nat) (q : QEnt) (op : Op) :
    (t.core gp).KeepsIssue ((tsendFired gp t id q op).core gp) := by
  unfold tsendFired
  split
  · exact t.openPackets_core ..
  · exact Core.keepsIssue_of_eq rfl rfl

theorem stMemFired_core (gp : Nat) (t : State) (id : Nat) (q : QEnt) (op : Op) :
    (t.core gp).KeepsIssue ((stMemFired gp t id q op).core gp) := by
  unfold stMemFired
  split
  · exact t.openPackets_core ..
  · exact Core.keepsIssue_of_eq rfl rfl

theorem armFired_core (gp : Nat) (t : State) (id : Nat) (q : QEnt) (op : Op) :
    (t.core gp).KeepsIssue ((armFired gp t id q op).core gp) := by
  unfold armFired
  split
  · rw [State.core_modCore_same]
    exact Core.keepsIssue_of_eq rfl rfl
  · exact Core.keepsIssue_of_eq rfl rfl

theorem disarmFired_core (gp : Nat) (t : State) (id : Nat) (q : QEnt) (op : Op) :
    (t.core gp).KeepsIssue ((disarmFired gp t id q op).core gp) := by
  unfold disarmFired
  split
  · rw [State.core_modCore_same]
    exact Core.keepsIssue_of_eq rfl rfl
  · exact Core.keepsIssue_of_eq rfl rfl

theorem syncAddFired_core (gp : Nat) (t : State) (id : Nat) (q : QEnt) (op : Op) :
    (t.core gp).KeepsIssue ((syncAddFired gp t id q op).core gp) := by
  unfold syncAddFired
  split
  · simp only
    rw [State.core_withNet]
    exact t.flowNext_core ..
  · exact Core.keepsIssue_of_eq rfl rfl

theorem waitbFired_core (gp cyc : Nat) (t : State) (id : Nat) (q : QEnt) (op : Op) :
    (t.core gp).KeepsIssue ((waitbFired gp cyc t id q op).core gp) := by
  unfold waitbFired
  split
  · simp only
    split_ifs
    · rw [State.core_modCore_same]
      exact Core.keepsIssue_map rfl rfl fun f => by split <;> simp
    · exact (t.syncHold_core ..).trans (State.syncWait_core ..)
    · exact (t.waitHold_core ..).trans (State.syncWait_core ..)
  · exact Core.keepsIssue_of_eq rfl rfl

theorem tokenFired_core (gp cyc : Nat) (t : State) (id : Nat) (q : QEnt) (op : Op) :
    (t.core gp).KeepsIssue ((tokenFired gp cyc t id q op).core gp) := by
  unfold tokenFired
  split
  · simp only
    split_ifs
    · rw [State.core_modCore_same, State.setBkl, State.core_wf]
      exact Core.keepsIssue_map rfl rfl fun f => by split <;> simp
    · exact (t.syncHold_core ..).trans (State.syncWait_core ..)
    · exact (t.waitHold_core ..).trans (State.syncWait_core ..)
  · exact Core.keepsIssue_of_eq rfl rfl

/-- What a command but ARMB adds to a launch leaves the queues as they are, and in flight what is. -/
theorem firingExtra_core (gp cyc : Nat) (c : Instr) (t : State) (id : Nat) (q : QEnt) (op : Op) (hc : ∀ g k, c ≠ .armb g k) :
    (t.core gp).KeepsIssue ((firingExtra gp cyc c t id q op).core gp) := by
  unfold firingExtra
  split
  · exact feedFired_core ..
  · exact loadActFired_core ..
  · exact tileFired_core ..
  · exact tileFired_core ..
  · exact tileFired_core ..
  · exact sendFired_core ..
  · exact sendFired_core ..
  · exact tsendFired_core ..
  · exact stMemFired_core ..
  · exact armFired_core ..
  · exact disarmFired_core ..
  · exact syncAddFired_core ..
  · exact waitbFired_core ..
  · exact tokenFired_core ..
  · exact absurd rfl (hc _ _)
  · exact Core.keepsIssue_of_eq rfl rfl

theorem firingExtra_kept (gp cyc : Nat) (c : Instr) (t : State) (id : Nat) (q : QEnt) (op : Op) :
    (firingExtra gp cyc c t id q op).kept = t.kept := by
  unfold firingExtra
  split <;> simp only [feedFired_kept, loadActFired_kept, tileFired_kept, sendFired_kept, tsendFired_kept, stMemFired_kept, armFired_kept,
      disarmFired_kept, syncAddFired_kept,
    waitbFired_kept, tokenFired_kept, armbFired_kept, noExtra_kept]

/-- Settles O7. -/
theorem coreCommandFiresHead : Obligations.CoreCommandFiresHead := by
  intro gp cyc f s q rest op hgp hf harmb hi hh hm
  have harmb' : ∀ g k, f.cmd ≠ .armb g k := fireCmd_ne_armb hf harmb
  refine ⟨_, exec_fireCmd_launch hf hgp hi hh hm, ?_⟩
  obtain ⟨hqueues, hflight⟩ := firingExtra_core gp cyc f.cmd ((s.reachUnit gp f.unit cyc).launch gp f.unit cyc q rest op)
    ((s.reachUnit gp f.unit cyc).core gp).nextId q op harmb'
  obtain ⟨hrest, hnew⟩ := (s.reachUnit gp f.unit cyc).launch_fired gp f.unit cyc q rest op
  refine ⟨(congrArg (Tbl.get [] · f.unit) hqueues).trans hrest, hflight _ _ _ _ hnew, ?_⟩
  exact congrArg Prod.fst ((firingExtra_kept ..).trans (State.launch_kept ..))

/-- A WAIT, an operation of the vector engine or the steering unit, a STORE ST and a SYNC EMIT add nothing to their launch. -/
theorem firingExtra_local {gp cyc : Nat} {f : FireCmd} (hf : f ∈ fireCmds gp cyc) {op : Op} (hm : f.mine op = true)
    (h : f.unit = 2 ∨ f.unit = 3 ∨ isWait op = true ∨ isSt op = true ∨ isEmit op = true) : firingExtra gp cyc f.cmd = noExtra := by
  revert f
  simp only [fireCmds, List.forall_mem_append, List.forall_mem_cons, List.forall_mem_map, List.not_mem_nil, false_implies, implies_true, and_true]
  refine ⟨?_, fun _ _ _ _ => rfl⟩
  cases op <;> simp [firingExtra, isLoad, isLoadAct, isAcc, isDrain, isLoadTile, isSend, isTsend, isArm, isDisarm, isStMem, isStRing, isSyncAdd,
    isWaitb, isToken, isArmb, isWait, isSt, isEmit]

theorem State.core_claimIn_other (s : State) {gp g : Nat} (h : g ≠ gp) (p : InPort) : (s.claimIn gp p).core g = s.core g := by
  unfold State.claimIn
  split
  · exact s.core_modCore_other _ h
  · rfl

theorem State.core_reserveOut_other (s : State) {gp g : Nat} (h : g ≠ gp) (b : Bool) (p : OutPort) : (s.reserveOut gp b p).core g = s.core g := by
  unfold State.reserveOut
  split
  · exact s.core_modCore_other _ h
  · exact s.core_modCore_other _ h
  · exact s.core_modCore_other _ h
  · rfl

theorem State.core_takeIns_other {gp g : Nat} (h : g ≠ gp) (cyc fl rank code : Nat) (op : Op) (l : List InPort) (x : State × List Access) :
    (l.foldl (takeIn gp cyc fl rank code op) x).1.core g = x.1.core g := by
  induction l generalizing x with
  | nil => rfl
  | cons p r ih => exact (ih _).trans (x.1.core_claimIn_other h p)

theorem State.core_takeOuts_other {gp g : Nat} (h : g ≠ gp) (cyc fl rank code : Nat) (b : Bool) (l : List OutPort) (x : State × List Access) :
    (l.foldl (takeOut gp cyc fl rank code b) x).1.core g = x.1.core g := by
  induction l generalizing x with
  | nil => rfl
  | cons p r ih => exact (ih _).trans (x.1.core_reserveOut_other h b p)

/-- A launch changes its own core and no other. -/
theorem State.core_launch_other (s : State) {gp g : Nat} (h : g ≠ gp) (unit cyc : Nat) (q : QEnt) (rest : List QEnt) (op : Op) :
    (s.launch gp unit cyc q rest op).core g = s.core g := by
  simp only [State.launch, State.core_modCore_other _ _ h, State.core_takeOuts_other h, State.core_takeIns_other h]

/-- Settles O8. -/
theorem localFiringFrame : Obligations.LocalFiringFrame := by
  intro gp cyc f s q rest op hgp hf hlocal hi hh hm
  refine ⟨_, exec_fireCmd_launch hf hgp hi hh hm, ?_⟩
  obtain ⟨_, _, hmine, _⟩ := hh
  rw [firingExtra_local hf hmine hlocal, noExtra]
  have hcore (g : Nat) (hg : g ≠ gp) := (s.reachUnit gp f.unit cyc).core_launch_other hg f.unit cyc q rest op
  obtain ⟨c, hc⟩ := (s.reachUnit gp f.unit cyc).launch_only gp f.unit cyc q rest op
  rw [hc] at hcore ⊢
  exact ⟨rfl, fun _ => rfl, hcore, rfl, rfl, rfl, rfl, rfl⟩

end Sys2Proof.Machine

/-! What keeps an operation from firing: the attempt that only notes why, and the halt of a core at an entry with BRK (R68, R396). -/

namespace Sys2Proof.Machine

theorem fireCmd_unit_lt {gp cyc : Nat} {f : FireCmd} (hf : f ∈ fireCmds gp cyc) : f.unit < 8 := by
  revert f
  simp [fireCmds]

/-- An attempt in a core that issues nothing changes nothing (R54, R92, R396). -/
theorem State.attempt_of_not_issues {s : State} {gp : Nat} (h : s.issues gp = false) (unit cyc : Nat) (mine : Op → Bool)
    (extra : State → Nat → QEnt → Op → State) : s.attempt gp unit cyc mine extra = s := by
  unfold State.attempt
  simp only [h]
  split
  · rfl
  · split
    · rfl
    · simp

/-- What keeps a head operation is noted, and the operation waits (R68). -/
theorem State.attempt_wait {s : State} {gp unit cyc : Nat} {mine : Op → Bool} (extra : State → Nat → QEnt → Op → State) {q : QEnt} {rest : List QEnt}
    {op : Op} (hq : (s.core gp).queue unit = q :: rest) (hd : decodeEntry (gp / 80) q.ent = some op) (hm : mine op = true)
    (hb : (s.core gp).unitBusy unit cyc = false) (hk : s.brkHalts gp q = false) (hw : s.whys gp unit cyc op ≠ []) :
    s.attempt gp unit cyc mine extra = s ∨ s.attempt gp unit cyc mine extra = s.noteWait gp unit cyc q op (s.whys gp unit cyc op) := by
  cases hi : s.issues gp
  · exact .inl (State.attempt_of_not_issues hi ..)
  · right
    simp only [State.attempt, hq, hd, hm, hb, hi, hk, Bool.not_true, Bool.or_self, Bool.false_eq_true, ↓reduceIte]
    split
    · next h => exact absurd h hw
    · next h => rw [h]

/-- A core that has halted issues nothing (R396). -/
theorem State.issues_of_halted {s : State} {gp : Nat} (h : (s.core gp).halted = true) : s.issues gp = false := by
  simp [State.issues, h]

theorem State.attempts_of_halted {s : State} {gp : Nat} (h : (s.core gp).halted = true) (l : List Nat) (cyc : Nat) (mine : Op → Bool)
    (extra : State → Nat → QEnt → Op → State) : l.foldl (fun (s : State) u => s.attempt gp u cyc mine extra) s = s := by
  induction l with
  | nil => rfl
  | cons u l ih => rw [List.foldl_cons, State.attempt_of_not_issues (State.issues_of_halted h), ih]

/-- A core is marked halted, with a register that says why. -/
theorem State.haltMark_shows (u : State) (gp a : Nat) (w : Word) (f : Core → Core) (hf : ∀ c, (f c).halted = true) :
    (((u.wr a w).modCore gp f).core gp).halted = true ∧ ((u.wr a w).modCore gp f).rd a = w := by
  rw [State.core_modCore_same, State.rd_modCore, State.rd_wr_same]
  exact ⟨hf _, rfl⟩

/-- The mark of a context whose core was halted changes no core and no register. -/
theorem State.perturb_shows (v : State) (o : Option Nat) (gp a : Nat) (w : Word) (h : (v.core gp).halted = true ∧ v.rd a = w) :
    ((match o with
        | some x => if v.perturbed.contains x then v else { v with perturbed := v.perturbed ++ [x] }
        | none => v : State).core gp).halted = true
      ∧ (match o with
        | some x => if v.perturbed.contains x then v else { v with perturbed := v.perturbed ++ [x] }
        | none => v : State).rd a = w := by
  split
  · split
    · exact h
    · exact ⟨h.1, (State.rd_congr rfl a).trans h.2⟩
  · exact h

/-- What the halt of a core shows (R396). -/
theorem State.haltCore_shows (s : State) (gp cyc cause idx : Nat) :
    ((s.haltCore gp cyc cause (some idx)).core gp).halted = true
      ∧ (s.haltCore gp cyc cause (some idx)).rd (corePg gp + 0x1304) = BitVec.ofNat 32 (2 ^ 31 + cause * 2 ^ 29 + idx) := by
  rw [show @State.haltCore = _ by delta State.haltCore; rfl]
  obtain ⟨ctxOf, hctx⟩ : ∃ f, f = State.coreCtx := ⟨_, rfl⟩
  rw [← hctx]
  exact State.perturb_shows _ _ gp _ _ (State.haltMark_shows _ gp _ _ _ fun _ => rfl)

/-- A state whose cores alone have changed, the core `gp` in its rings and armings at most. -/
def State.MovesArms (gp : Nat) (s t : State) : Prop :=
  (∃ c, t = { s with cores := c }) ∧ ∃ rings arms, t.core gp = { s.core gp with rings := rings, arms := arms }

theorem State.movesArms_self (gp : Nat) (s : State) : State.MovesArms gp s s := ⟨⟨s.cores, rfl⟩, (s.core gp).rings, (s.core gp).arms, rfl⟩

theorem State.MovesArms.trans {gp : Nat} {s t u : State} (h : State.MovesArms gp s t) (h' : State.MovesArms gp t u) : State.MovesArms gp s u := by
  obtain ⟨⟨c, rfl⟩, r, a, hc⟩ := h
  obtain ⟨⟨d, rfl⟩, r', a', hc'⟩ := h'
  exact ⟨⟨d, rfl⟩, r', a', by rw [hc', hc]⟩

theorem State.armAdvance_movesArms (s : State) (gp n : Nat) : State.MovesArms gp s (s.armAdvance gp n) := by
  simp only [State.armAdvance]
  split
  · exact State.movesArms_self gp s
  · split_ifs
    all_goals exact ⟨⟨_, rfl⟩, _, _, State.core_setCore_same ..⟩

theorem State.armsAdvance_movesArms (s : State) (gp : Nat) : State.MovesArms gp s (s.armsAdvance gp) := by
  unfold State.armsAdvance
  generalize (s.core gp).arms = l
  induction l generalizing s with
  | nil => exact State.movesArms_self gp s
  | cons p l ih => exact (s.armAdvance_movesArms gp p.1).trans (ih _)

theorem State.MovesArms.issues {gp : Nat} {s t : State} (h : State.MovesArms gp s t) : t.issues gp = s.issues gp := by
  obtain ⟨⟨c, rfl⟩, r, a, hc⟩ := h
  unfold State.issues State.coreOn
  rw [hc]
  rfl

theorem State.MovesArms.brkHalts {gp : Nat} {s t : State} (h : State.MovesArms gp s t) (q : QEnt) : t.brkHalts gp q = s.brkHalts gp q := by
  obtain ⟨⟨c, rfl⟩, _⟩ := h
  unfold State.brkHalts State.d2For State.coreCtx
  rfl

theorem State.MovesArms.queue {gp : Nat} {s t : State} (h : State.MovesArms gp s t) (u : Nat) : (t.core gp).queue u = (s.core gp).queue u := by
  obtain ⟨_, r, a, hc⟩ := h
  rw [hc]
  rfl

/-- The lowest unit whose head halts the core is the one that does (R396, log entry 58). -/
theorem State.brkStep_lowest {s : State} {gp unit : Nat} (cyc : Nat) {q : QEnt} {rest : List QEnt} (hu : unit < 8)
    (hq : (s.core gp).queue unit = q :: rest) (hk : s.brkHalts gp q = true)
    (hlow : ∀ u h, u < unit → ((s.core gp).queue u).head? = some h → s.brkHalts gp h = false) :
    s.brkStep gp cyc = s.haltCore gp cyc 1 (some q.idx) := by
  have hfind : (List.range 8).findSome? (fun u => ((s.core gp).queue u).head?.bind (fun q => if s.brkHalts gp q then some q.idx else none))
      = some q.idx := by
    rw [List.findSome?_eq_some_iff]
    refine ⟨List.range unit, unit, List.range' (unit + 1) (7 - unit), ?_, ?_, ?_⟩
    · have h := List.range'_append_1 (s := 0) (m := unit) (n := 8 - unit)
      rw [Nat.zero_add, Nat.add_sub_cancel' hu.le] at h
      rw [List.range_eq_range', List.range_eq_range', ← List.range'_succ, show 7 - unit + 1 = 8 - unit by omega, h]
    · simp [hq, hk]
    · intro u hu'
      cases hh : ((s.core gp).queue u).head? with
      | none => rfl
      | some h => simp [hlow u h (List.mem_range.mp hu') hh]
  simp only [State.brkStep, hfind]

/-- A head that halts the core does so before any unit of it fires: the command then finds it halted. -/
theorem State.tryFire_brk {s : State} {gp unit cyc : Nat} (mine : Op → Bool) (extra : State → Nat → QEnt → Op → State) {q : QEnt} {rest : List QEnt}
    (hu : unit < 8) (hi : (s.reach gp cyc).issues gp = true) (hn : ((s.reach gp cyc).core gp).now ≤ cyc)
    (hq : ((s.reach gp cyc).core gp).queue unit = q :: rest) (hk : (s.reach gp cyc).brkHalts gp q = true)
    (hlow : ∀ u h, u < unit → (((s.reach gp cyc).core gp).queue u).head? = some h → (s.reach gp cyc).brkHalts gp h = false) :
    s.tryFire gp unit cyc mine extra = ((s.reach gp cyc).armsAdvance gp).haltCore gp cyc 1 (some q.idx) := by
  have hm := (s.reach gp cyc).armsAdvance_movesArms gp
  have hhalt := State.brkStep_lowest (s := (s.reach gp cyc).armsAdvance gp) cyc hu ((hm.queue unit).trans hq) ((hm.brkHalts q).trans hk)
    (fun u h hu' hh => (hm.brkHalts h).trans (hlow u h hu' ((congrArg List.head? (hm.queue u)).symm.trans hh)))
  obtain ⟨hdone, _⟩ := ((s.reach gp cyc).armsAdvance gp).haltCore_shows gp cyc 1 q.idx
  have hreach : s.reachUnit gp unit cyc = ((s.reach gp cyc).armsAdvance gp).haltCore gp cyc 1 (some q.idx) := by
    simp only [State.reachUnit, if_neg (Nat.not_lt.mpr hn), State.unitsTo]
    rw [if_pos (hm.issues.trans hi), hhalt, State.attempts_of_halted hdone]
  rw [State.tryFire, hreach, State.attempt_of_not_issues (State.issues_of_halted hdone)]

theorem State.noteWait_core (s : State) (gp unit cyc : Nat) (q : QEnt) (op : Op) (ws : List Nat) :
    ((s.noteWait gp unit cyc q op ws).core gp).queues = (s.core gp).queues ∧ ((s.noteWait gp unit cyc q op ws).core gp).flights = (s.core gp).flights
        := by
  simp only [State.noteWait, State.core_modCore_same]
  exact ⟨trivial, trivial⟩

/-- Settles O9. -/
theorem heldOrHaltedOperationStays : Obligations.HeldOrHaltedOperationStays := by
  refine ⟨fun gp cyc f s q rest op hgp hf hh hk hw => ?_, fun gp cyc f s q rest hgp hf hi hn hq hk hlow => ?_⟩
  · obtain ⟨rfl, rfl⟩ := fireCmd_gp_cyc hf
    obtain ⟨hq, hd, hmine, hbusy⟩ := hh
    refine ⟨_, exec_fireCmd hf hgp s, ?_⟩
    rw [State.tryFire]
    obtain h | h := State.attempt_wait (firingExtra f.gp f.cyc f.cmd) hq hd hmine hbusy hk hw
    · rw [h]
      exact ⟨rfl, rfl, rfl, rfl⟩
    · rw [h]
      obtain ⟨hqueues,
          hflights⟩ := (s.reachUnit f.gp f.unit f.cyc).noteWait_core f.gp f.unit f.cyc q op ((s.reachUnit f.gp f.unit f.cyc).whys f.gp f.unit f.cyc
          op)
      exact ⟨hqueues, hflights, rfl, rfl⟩
  · refine ⟨_, (exec_fireCmd hf hgp s).trans (congrArg _ (State.tryFire_brk f.mine _ (fireCmd_unit_lt hf) hi hn hq hk hlow)), ?_⟩
    exact ((s.reach gp cyc).armsAdvance gp).haltCore_shows gp cyc 1 q.idx

end Sys2Proof.Machine

/-! What single operations do as they fire: the tile of an ACC, a DRAIN or a LOAD_TILE (R106), ACT_FMT (R115), and the arming of a ring (R104). -/

namespace Sys2Proof.Machine

theorem decLoad_ne_acc {e : BitVec 128} {a : AccArgs} : decLoad e ≠ some (.acc a) := by
  simp [decLoad]

theorem decVec_ne_acc {e : BitVec 128} {a : AccArgs} : decVec e ≠ some (.acc a) := by
  unfold decVec
  split
  · exact fun h => by cases (guard_eq_some h).2
  · simp

theorem decSteer_ne_acc {e : BitVec 128} {a : AccArgs} : decSteer e ≠ some (.acc a) := by
  unfold decSteer
  split
  · extract_lets
    split_ifs <;> simp
  · simp

theorem decSend_ne_acc {e : BitVec 128} {a : AccArgs} : decSend e ≠ some (.acc a) := by
  unfold decSend
  split
  · simp
  · split
    · exact fun h => by cases (guard_eq_some h).2
    · simp
  · simp

theorem decRecv_ne_acc {e : BitVec 128} {a : AccArgs} : decRecv e ≠ some (.acc a) := by
  unfold decRecv
  split <;> simp

theorem decStore_ne_acc {e : BitVec 128} {a : AccArgs} : decStore e ≠ some (.acc a) := by
  unfold decStore
  split
  · split
    · exact fun h => by cases (guard_eq_some h).2
    · simp
  · split
    · exact fun h => by cases (guard_eq_some h).2
    · simp
  · simp
  · simp

theorem decSync_ne_acc {region : Nat} {e : BitVec 128} {a : AccArgs} : decSync region e ≠ some (.acc a) := by
  unfold decSync
  split
  · simp
  · simp
  · split <;> simp
  · split <;> simp
  · simp
  · simp

/-- An ACC takes one row at least (R102). -/
theorem decAnvil_acc_k {e : BitVec 128} {a : AccArgs} (h : decAnvil e = some (.acc a)) : 1 ≤ a.k := by
  unfold decAnvil at h
  split at h
  · split at h
    · cases (guard_eq_some h).2
    · cases h
  · split at h
    · cases (guard_eq_some h).2
      exact Nat.le_add_left 1 _
    · cases h
  · extract_lets at h
    split at h
    · cases (guard_eq_some h).2
    · cases h
  · split at h
    · cases (guard_eq_some h).2
    · cases h
  · cases h

theorem decodeEntry_acc_k {region : Nat} {e : BitVec 128} {a : AccArgs} (h : decodeEntry region e = some (.acc a)) : 1 ≤ a.k := by
  unfold decodeEntry at h
  split at h
  · cases (guard_eq_some h).2
  · cases (guard_eq_some h).2
  · cases (guard_eq_some h).2
  · cases h
  · cases h
  · split at h
    · split_ifs at h
      exact absurd h decLoad_ne_acc
    · exact decAnvil_acc_k h
    · exact absurd h decVec_ne_acc
    · exact absurd h decSteer_ne_acc
    · exact absurd h decSend_ne_acc
    · exact absurd h decRecv_ne_acc
    · exact absurd h decStore_ne_acc
    · exact absurd h decSync_ne_acc

/-- An ACC, a DRAIN or a LOAD_TILE puts its tile in a state beside its launch (R106). -/
theorem firingExtra_tile {gp cyc : Nat} {f : FireCmd} (hf : f ∈ fireCmds gp cyc) {op : Op} (hm : f.mine op = true)
    (h : isAcc op = true ∨ isDrain op = true ∨ isLoadTile op = true) : firingExtra gp cyc f.cmd = tileFired gp cyc := by
  revert f
  simp only [fireCmds, List.forall_mem_append, List.forall_mem_cons, List.forall_mem_map, List.not_mem_nil, false_implies, implies_true, and_true]
  cases op <;> simp_all [firingExtra, isVec, isLoad, isLoadAct, isAcc, isDrain, isLoadTile, isSend, isTsend, isArm, isDisarm, isStMem, isStRing,
      isSyncAdd,
    isWaitb, isToken, isArmb, isWait, isSt, isEmit, isSwitch, isMerge]

theorem Core.tile_setTile_same (c : Core) (n : Nat) (x : Tile) : (c.setTile n x).tile n = x := by
  unfold Core.setTile Core.tile
  split <;> simp [*]

theorem State.tileState_tile (s : State) (gp n : Nat) (st : TileSt) (last : Nat) :
    (((s.tileState gp n st last).core gp).tile n).st = st ∧ (((s.tileState gp n st last).core gp).tile n).stTo = last := by
  simp only [State.tileState, State.core_modCore_same, Core.tile_setTile_same, and_self]

theorem two_le_fmtCycles (fmt : Nat) : 2 ≤ fmtCycles fmt := by
  unfold fmtCycles
  split_ifs <;> decide

theorem State.two_le_accCycles (s : State) (gp : Nat) (a : AccArgs) : 2 ≤ s.accCycles gp a :=
  (two_le_fmtCycles a.wfmt).trans (Nat.le_max_right _ _)

/-- A launch changes no register. -/
theorem State.regs_launch (s : State) (gp unit cyc : Nat) (q : QEnt) (rest : List QEnt) (op : Op) :
    (s.launch gp unit cyc q rest op).regs = s.regs := by
  obtain ⟨c, hc⟩ := s.launch_only gp unit cyc q rest op
  rw [hc]

theorem State.accCycles_congr {s t : State} (h : s.regs = t.regs) (gp : Nat) (a : AccArgs) : s.accCycles gp a = t.accCycles gp a := by
  unfold State.accCycles State.accFmt
  rw [State.rf_congr h]

/-- Settles O10: the launch changes no register and no tile, and the command adds its own change. -/
theorem tensorOpsSetTileAndFormat : Obligations.TensorOpsSetTileAndFormat := by
  refine ⟨fun gp cyc s q rest a hgp hi hh hm => ?_, fun gp cyc f s q rest op hgp hf hu hi hh hm => ?_⟩
  · refine ⟨_, exec_fireCmd_launch (f := ⟨.loadAct gp cyc, gp, 1, cyc, isLoadAct⟩) (by simp [fireCmds]) hgp hi hh hm, ?_, fun b hb => ?_⟩
    · exact State.rd_wr_same ..
    · exact (State.rd_wr_other _ _ hb).trans (State.rd_congr (State.regs_launch ..) b)
  · refine ⟨_, exec_fireCmd_launch hf hgp hi hh hm, ?_, ?_, ?_⟩
    all_goals
      intro a ha
      subst ha
      obtain ⟨_, hd, hmine, _⟩ := hh
      rw [firingExtra_tile hf hmine (by simp [isAcc, isDrain, isLoadTile])]
    · obtain ⟨hst, hto⟩ := State.tileState_tile ((s.reachUnit gp f.unit cyc).launch gp f.unit cyc q rest (.acc a)) gp a.tile .accum
        (cyc + a.k * ((s.reachUnit gp f.unit cyc).launch gp f.unit cyc q rest (.acc a)).accCycles gp a + 23)
      refine ⟨hst, hto.trans ?_⟩
      rw [State.accCycles_congr (State.regs_launch ..)]
      have hpos := Nat.mul_le_mul (decodeEntry_acc_k hd) (State.two_le_accCycles (s.reachUnit gp f.unit cyc) gp a)
      omega
    · exact State.tileState_tile ..
    · exact State.tileState_tile ..

theorem State.outWhy_of_armed {s : State} {gp n : Nat} (unit : Nat) (outs : List OutPort) {o : OutPort} (ho : o.dst = .ring n)
    (h : ((s.core gp).arm n).isSome = true) : s.outWhy gp unit outs o = [4] := by
  simp only [State.outWhy, ho]
  exact if_neg fun ⟨_, hn, _⟩ => by simp [Option.isNone_iff_eq_none.mp hn] at h

theorem State.claimIn_arms (s : State) (gp : Nat) (p : InPort) : ((s.claimIn gp p).core gp).arms = (s.core gp).arms := by
  unfold State.claimIn
  split <;> simp [Core.setRing]

theorem State.reserveOut_arms (s : State) (gp : Nat) (b : Bool) (p : OutPort) : ((s.reserveOut gp b p).core gp).arms = (s.core gp).arms := by
  unfold State.reserveOut
  split <;> simp [Core.setRing, Core.setTrace]

theorem State.takeIns_arms (gp cyc fl rank code : Nat) (op : Op) (l : List InPort) (x : State × List Access) :
    ((l.foldl (takeIn gp cyc fl rank code op) x).1.core gp).arms = (x.1.core gp).arms := by
  induction l generalizing x with
  | nil => rfl
  | cons p r ih => exact (ih _).trans (x.1.claimIn_arms gp p)

theorem State.takeOuts_arms (gp cyc fl rank code : Nat) (b : Bool) (l : List OutPort) (x : State × List Access) :
    ((l.foldl (takeOut gp cyc fl rank code b) x).1.core gp).arms = (x.1.core gp).arms := by
  induction l generalizing x with
  | nil => rfl
  | cons p r ih => exact (ih _).trans (x.1.reserveOut_arms gp b p)

/-- A launch changes no arming. -/
theorem State.launch_arms (s : State) (gp unit cyc : Nat) (q : QEnt) (rest : List QEnt) (op : Op) :
    ((s.launch gp unit cyc q rest op).core gp).arms = (s.core gp).arms := by
  simp only [State.launch, State.core_modCore_same, State.takeOuts_arms, State.takeIns_arms, Core.setQueue]

/-- Settles O11. -/
theorem armingGuardsItsRing : Obligations.ArmingGuardsItsRing := by
  refine ⟨fun s gp unit n outs o ho h => State.outWhy_of_armed unit outs ho h, fun gp cyc n s q rest hgp hi hh hm => ?_⟩
  refine ⟨_, exec_fireCmd_launch (f := ⟨.disarm gp cyc, gp, 5, cyc, isDisarm⟩) (by simp [fireCmds]) hgp hi hh hm, ?_⟩
  have harms := (s.reachUnit gp 5 cyc).launch_arms gp 5 cyc q rest (.disarm n)
  simp only [firingExtra, disarmFired, State.core_modCore_same]
  refine ⟨(Core.arm_setArm ..).trans (if_pos rfl), fun m hm => ((Core.arm_setArm ..).trans (if_neg hm)).trans ?_⟩
  exact congrArg (Tbl.get none · m) harms

end Sys2Proof.Machine

/-! What the report of an error leaves: everything but registers, counts of windows, captures, records and flash. -/

namespace Sys2Proof.Machine

/-- A state without what the report of an error changes: registers, counts of windows, captures, records and their marks, and flash. -/
def State.rest (s : State) : State := { s with regs := [], win := [], cap := [], recQ := [], supp := [], suppNext := [], flash := {} }

theorem State.wr_rest (s : State) (a : Nat) (v : Word) : (s.wr a v).rest = s.rest := id rfl

theorem State.wf_rest (s : State) (a hi lo v : Nat) : (s.wf a hi lo v).rest = s.rest := State.wr_rest ..

theorem State.bump_rest (s : State) (a hi lo n : Nat) : (s.bump a hi lo n).rest = s.rest := State.wf_rest ..

theorem State.wr64_rest (s : State) (a v : Nat) : (s.wr64 a v).rest = s.rest := by
  rw [State.wr64, State.wr_rest, State.wr_rest]

theorem State.emit_rest (s : State) (r : Rec) : (s.emit r).rest = s.rest := id rfl

theorem State.errUp_rest (s : State) (pg : Nat) (ue : Bool) : (s.errUp pg ue).rest = s.rest := by
  simp only [State.errUp, apply_ite State.rest, State.wf_rest, State.bump_rest, ite_self]

theorem State.countErr_rest (s : State) (pg bitNo sev : Nat) : (s.countErr pg bitNo sev).rest = s.rest := by
  simp only [State.countErr, apply_ite State.rest, State.errUp_rest, State.wf_rest, ite_self]

theorem State.withCap_rest (s : State) (c : Tbl Capture) : { s with cap := c }.rest = s.rest := id rfl

theorem State.writeCapture_rest (s : State) (pg bitNo sev cls cyc : Nat) (synd : BitVec 64) :
    (s.writeCapture pg bitNo sev cls cyc synd).rest = s.rest := by
  rw [State.writeCapture, State.withCap_rest, State.wr64_rest, State.wr_rest, State.wr_rest, State.wr_rest]

theorem State.capture_rest (s : State) (pg bitNo sev cls cyc : Nat) (synd : BitVec 64) : (s.capture pg bitNo sev cls cyc synd).rest = s.rest := by
  fun_cases State.capture s pg bitNo sev cls cyc synd <;> simp only [State.writeCapture_rest]

theorem State.suppMark_rest (s : State) (cyc pg cls : Nat) : (s.suppMark cyc pg cls).rest = s.rest := by
  unfold State.suppMark
  split <;> exact id rfl

theorem State.emitCore_rest (s : State) (gp bitNo sev cls cyc : Nat) (synd : BitVec 64) : (s.emitCore gp bitNo sev cls cyc synd).rest = s.rest := by
  fun_cases State.emitCore s gp bitNo sev cls cyc synd <;> simp only [State.suppMark_rest, State.emit_rest]

theorem State.coreErr_rest (s : State) (gp sev cls cyc : Nat) (synd : BitVec 64) : (s.coreErr gp sev cls cyc synd).rest = s.rest := by
  simp only [State.coreErr, State.emitCore_rest, State.countErr_rest, State.capture_rest]

theorem State.thrRec_rest (s : State) (pg : Nat) (ue : Bool) (count cyc : Nat) : (s.thrRec pg ue count cyc).rest = s.rest := by
  fun_cases State.thrRec s pg ue count cyc <;> simp only [State.emit_rest]

theorem State.chipRec_rest (s : State) (pg sev cls cyc : Nat) (synd : BitVec 64) (ctx : Option Nat) :
    (s.chipRec pg sev cls cyc synd ctx).rest = s.rest := by
  fun_cases State.chipRec s pg sev cls cyc synd ctx <;> simp only [State.emit_rest]

theorem State.srcRec_rest (s : State) (pg bitNo sev cls cyc : Nat) (synd : BitVec 64) : (s.srcRec pg bitNo sev cls cyc synd).rest = s.rest := by
  fun_cases State.srcRec s pg bitNo sev cls cyc synd <;> simp only [State.chipRec_rest]

theorem State.withFlash_rest (s : State) (f : Flash) : { s with flash := f }.rest = s.rest := id rfl

theorem State.noteSlice_rest (s : State) (src : Nat) : (s.noteSlice src).rest = s.rest := State.withFlash_rest ..

theorem State.requestDrain_rest (s : State) (cause region block src cyc : Nat) : (s.requestDrain cause region block src cyc).rest = s.rest := by
  simp only [State.requestDrain, apply_ite State.rest, State.chipRec_rest, State.withFlash_rest, State.wf_rest, State.noteSlice_rest, ite_self]

theorem State.unitDrain_rest (s : State) (pg cyc : Nat) : (s.unitDrain pg cyc).rest = s.rest := by
  fun_cases State.unitDrain s pg cyc <;> simp only [State.requestDrain_rest]

theorem State.withWin_rest (s : State) (w : Tbl WinCnt) : { s with win := w }.rest = s.rest := id rfl

theorem State.window_rest (s : State) (pg sev cyc : Nat) : (s.window pg sev cyc).rest = s.rest := by
  simp only [State.window, apply_ite State.rest, State.unitDrain_rest, State.thrRec_rest, State.withWin_rest, ite_self]

theorem State.countWin_rest (s : State) (pg bitNo sev cyc : Nat) : (s.countWin pg bitNo sev cyc).rest = s.rest := by
  simp only [State.countWin, apply_ite State.rest, State.window_rest, State.countErr_rest, ite_self]

theorem State.regionErr_rest (s : State) (pg bitNo sev cls cyc : Nat) (synd : BitVec 64) : (s.regionErr pg bitNo sev cls cyc synd).rest = s.rest := by
  simp only [State.regionErr, State.countWin_rest, State.capture_rest]

theorem State.ctrlErr_rest (s : State) (pg cyc : Nat) : (s.ctrlErr pg cyc).rest = s.rest := by
  simp only [State.ctrlErr, State.unitDrain_rest, apply_ite State.rest, State.window_rest, State.errUp_rest, ite_self]

section
variable {s t : State} (h : t.rest = s.rest)
include h

theorem State.core_of_rest (gp : Nat) : t.core gp = s.core gp := by
  change t.rest.core gp = s.rest.core gp
  rw [h]

theorem State.mem_of_rest : t.mem = s.mem := by
  change t.rest.mem = s.rest.mem
  rw [h]

theorem State.gen_of_rest : t.gen = s.gen := by
  change t.rest.gen = s.rest.gen
  rw [h]

end

end Sys2Proof.Machine

/-! The sequencer (R91 to R96): one read of the pattern, and what it does with the entry. -/

namespace Sys2Proof.Machine

theorem State.pmemReport_rest (s : State) (gp idx k : Nat) (ue ce : Bool) : (s.pmemReport gp idx k ue ce).rest = s.rest := by
  simp only [State.pmemReport, apply_ite State.rest, State.coreErr_rest, ite_self]

theorem State.seqStep_gen (s : State) (gp k : Nat) (mine : Nat → Bool) : (s.seqStep gp k mine).gen = s.gen := by
  have hr (idx : Nat) (ue ce : Bool) : (s.pmemReport gp idx k ue ce).gen = s.gen := State.gen_of_rest (s.pmemReport_rest ..)
  fun_cases State.seqStep s gp k mine <;> simp +zetaDelta only [State.setCore_gen, apply_ite State.gen, hr, ite_self]

theorem State.seamReads_gen (s : State) (gp n : Nat) : (s.seamReads gp n).gen = s.gen := by
  unfold State.seamReads
  generalize List.range n = l
  induction l generalizing s with
  | nil => rfl
  | cons i l ih => exact (ih _).trans (s.seqStep_gen ..)

/-- A read of the sequencer in a cycle it is open in: the core comes to the cycle, and the cycle's read is made (R91, R92). -/
theorem State.seqRead_open {s : State} {gp cyc : Nat} (mine : Nat → Bool) (h : (s.seqReach gp cyc).seqOpen gp cyc = true) :
    s.seqRead gp cyc mine = (s.seqReach gp cyc).seqStep gp ((s.seqReach gp cyc).seqCycle cyc) mine := by
  have hguard : ¬ (s.gen.seamDone = true ∧ (cyc < 40 ∨ 64 ≤ cyc)) := by
    rintro ⟨hseam, hcyc⟩
    have hgen : (s.seqReach gp cyc).gen = s.gen := by
      rw [State.seqReach, if_pos hseam, State.seamReads_gen]
    rw [State.seqOpen, hgen, if_pos hseam] at h
    simp at h
    omega
  rw [State.seqRead, if_neg hguard]
  simp only [h, ↓reduceIte]

/-- The read of an entry that the correction stage delivers: what it found is reported, and the entry waits for room or is taken (R87, R91). -/
theorem State.seqStep_entry {s : State} {gp k : Nat} {mine : Nat → Bool} (hon : s.coreOn gp = true) (hh : (s.core gp).halted = false)
    (hr : (s.core gp).seq.reading = true) (hk : (s.core gp).seq.readAt.getD 0 < k) (hp : (s.core gp).seq.pos ≠ 4096)
    (hue : ((s.core gp).pmemRead ((s.core gp).seq.bank * 4096 + (s.core gp).seq.pos)).2.1 = false)
    (hm : mine (entOp ((s.core gp).pmemRead ((s.core gp).seq.bank * 4096 + (s.core gp).seq.pos)).1) = true) :
    ∃ u : State, u.rest = s.rest ∧ s.seqStep gp k mine = u.setCore gp (
      let c := s.core gp
      let idx := c.seq.bank * 4096 + c.seq.pos
      let e := (c.pmemRead idx).1
      if c.seqFull (gp / 80) k e then
        { c with seq := { c.seq with blocked := some (c.seq.blocked.getD k), last := idx, readAt := some k, put := none } }
      else c.seqTake (gp / 80) idx k e) := by
  have hk' : decide (k ≤ (s.core gp).seq.readAt.getD 0) = false := decide_eq_false (Nat.not_le.mpr hk)
  have hu : (if (s.core gp).seq.blocked.isSome then s else s.pmemReport gp ((s.core gp).seq.bank * 4096 + (s.core gp).seq.pos) k
      false ((s.core gp).pmemRead ((s.core gp).seq.bank * 4096 + (s.core gp).seq.pos)).2.2).rest = s.rest := by
    split
    · rfl
    · exact s.pmemReport_rest ..
  refine ⟨_, hu, ?_⟩
  simp only [State.seqStep, hon, hh, hr, hk', if_neg hp, hue, hm, Bool.not_true, Bool.or_self, Bool.false_eq_true, ↓reduceIte,
    State.core_of_rest hu]
  split_ifs <;> rfl

/-- An operation is no directive. -/
theorem Core.seqFull_of_op {c : Core} {region k : Nat} {e : BitVec 128} {op : Op} (hd : decodeEntry region e = some op) (hr : ∀ l n, op ≠ .rep l n)
    (hf : op ≠ .fin) : c.seqFull region k e = decide (16 ≤ c.queued (entUnit e) k) := by
  unfold Core.seqFull
  rw [hd]
  cases op with
  | rep l n => exact absurd rfl (hr l n)
  | fin => exact absurd rfl hf
  | _ => rfl

theorem Core.seqFull_of_rep {c : Core} {region k len count : Nat} {e : BitVec 128} (hd : decodeEntry region e = some (.rep len count)) :
    ¬ c.seqFull region k e = true := by
  simp [Core.seqFull, hd]

theorem Core.seqFull_of_fin {c : Core} {region k : Nat} {e : BitVec 128} (hd : decodeEntry region e = some .fin) : ¬ c.seqFull region k e = true := by
  simp [Core.seqFull, hd]

theorem Core.seqFull_of_invalid {c : Core} {region k : Nat} {e : BitVec 128} (hd : decodeEntry region e = none) : ¬ c.seqFull region k e = true := by
  simp [Core.seqFull, hd]

/-- A REPEAT that breaks no rule opens its body (R94). -/
theorem Core.seqTake_rep {c : Core} {region len count : Nat} {e : BitVec 128} (idx k : Nat) (hd : decodeEntry region e = some (.rep len count))
    (h : c.seq.repOk len = true) :
    (c.seqTake region idx k e).queues = c.queues ∧ (c.seqTake region idx k e).seq.pos = c.seq.pos + 1
      ∧ (c.seqTake region idx k e).seq.reps = ⟨c.seq.pos + 1, c.seq.pos + 1 + len, count - 1⟩ :: c.seq.reps
      ∧ (c.seqTake region idx k e).seq.readAt = some k := by
  simp only [Core.seqTake, hd, h, ↓reduceIte, and_self]

/-- END outside a body ends the reading (R94, R95). -/
theorem Core.seqTake_fin {c : Core} {region : Nat} {e : BitVec 128} (idx k : Nat) (hd : decodeEntry region e = some .fin) (h : c.seq.reps = []) :
    (c.seqTake region idx k e).queues = c.queues ∧ (c.seqTake region idx k e).seq.reading = false
      ∧ (c.seqTake region idx k e).seq.endRead = true ∧ (c.seqTake region idx k e).seq.readAt = some k := by
  simp only [Core.seqTake, hd, h, List.isEmpty_nil, ↓reduceIte, and_self]

/-- An invalid entry stops the reading (R96). -/
theorem Core.seqTake_invalid {c : Core} {region : Nat} {e : BitVec 128} (idx k : Nat) (hd : decodeEntry region e = none) :
    (c.seqTake region idx k e).queues = c.queues ∧ (c.seqTake region idx k e).seq.reading = false
      ∧ (c.seqTake region idx k e).seq.bad = true ∧ (c.seqTake region idx k e).seq.badIdx = idx := by
  simp only [Core.seqTake, hd, Core.seqStop, Bool.not_false, and_self]

theorem Core.seqTake_of_op {c : Core} {region idx k : Nat} {e : BitVec 128} {op : Op} (hd : decodeEntry region e = some op)
    (hr : ∀ l n, op ≠ .rep l n) (hf : op ≠ .fin) :
    (c.seqTake region idx k e).queues = (c.setQueue (entUnit e) (c.queue (entUnit e) ++ [⟨idx, e⟩])).queues
      ∧ (c.seqTake region idx k e).seq.last = idx ∧ (c.seqTake region idx k e).seq.readAt = some k := by
  unfold Core.seqTake
  rw [hd]
  cases op with
  | rep l n => exact absurd rfl (hr l n)
  | fin => exact absurd rfl hf
  | _ => exact ⟨rfl, rfl, rfl⟩

section
variable {gp cyc : Nat} {s : State} (hgp : gp < 5120)
include hgp

theorem exec_seqReadEntry : exec (.seqReadEntry gp cyc) s = .next (s.seqRead gp cyc (fun _ => true)) := if_pos (decide_eq_true hgp)

theorem exec_repeatOp : exec (.repeatOp gp cyc) s = .next (s.seqRead gp cyc (fun op => decide (op = 0x1E))) := if_pos (decide_eq_true hgp)

theorem exec_endOp : exec (.endOp gp cyc) s = .next (s.seqRead gp cyc (fun op => decide (op = 0x1F))) := if_pos (decide_eq_true hgp)

end

/-- What a sequencer command leaves in its core when it reads an entry: the entry waits for room, or is taken; memory stays. -/
theorem State.seqRead_entry {gp cyc : Nat} {s : State} {mine : Nat → Bool} (hs : (s.seqReach gp cyc).seqReads gp cyc)
    (hue : (((s.seqReach gp cyc).core gp).pmemRead
      (((s.seqReach gp cyc).core gp).seq.bank * 4096 + ((s.seqReach gp cyc).core gp).seq.pos)).2.1 = false)
    (hm : mine (entOp (((s.seqReach gp cyc).core gp).pmemRead
      (((s.seqReach gp cyc).core gp).seq.bank * 4096 + ((s.seqReach gp cyc).core gp).seq.pos)).1) = true) :
    (s.seqRead gp cyc mine).mem = (s.seqReach gp cyc).mem ∧ (s.seqRead gp cyc mine).core gp = (
      let k := (s.seqReach gp cyc).seqCycle cyc
      let c := (s.seqReach gp cyc).core gp
      let idx := c.seq.bank * 4096 + c.seq.pos
      let e := (c.pmemRead idx).1
      if c.seqFull (gp / 80) k e then
        { c with seq := { c.seq with blocked := some (c.seq.blocked.getD k), last := idx, readAt := some k, put := none } }
      else c.seqTake (gp / 80) idx k e) := by
  obtain ⟨hon, hh, hr, hopen, hk, hp⟩ := hs
  obtain ⟨u, hu, heq⟩ := State.seqStep_entry hon hh hr hk hp hue hm
  rw [State.seqRead_open mine hopen, heq]
  exact ⟨(State.setCore_mem ..).trans (State.mem_of_rest hu), State.core_setCore_same ..⟩

/-- Settles O12. -/
theorem sequencerReadRules : Obligations.SequencerReadRules := by
  unfold Obligations.SequencerReadRules
  refine ⟨?_, ?_, ⟨?_, ?_⟩, ?_⟩
  · intro gp cyc s op hgp s1 c idx e hs hue hd hr hf hroom
    obtain ⟨hmem, hcore⟩ := State.seqRead_entry (mine := fun _ => true) hs hue rfl
    refine ⟨_, exec_seqReadEntry hgp, ?_⟩
    have hfull : c.seqFull (gp / 80) (s1.seqCycle cyc) e = false := by
      rw [Core.seqFull_of_op hd hr hf]
      exact decide_eq_false (Nat.not_le.mpr hroom)
    obtain ⟨hq, hlast, hat⟩ := Core.seqTake_of_op (c := c) (idx := idx) (k := s1.seqCycle cyc) hd hr hf
    have hcore' : (s.seqRead gp cyc (fun _ => true)).core gp = c.seqTake (gp / 80) idx (s1.seqCycle cyc) e :=
      hcore.trans (if_neg (by simpa using hfull))
    rw [hcore']
    refine ⟨?_, fun u hu => ?_, hlast, hat, hmem⟩
    · exact (congrArg (Tbl.get [] · _) hq).trans ((Core.queue_setQueue ..).trans (if_pos rfl))
    · exact (congrArg (Tbl.get [] · _) hq).trans ((Core.queue_setQueue ..).trans (if_neg hu))
  · intro gp cyc s op hgp s1 c idx e hs hue hd hr hf hroom
    obtain ⟨hmem, hcore⟩ := State.seqRead_entry (mine := fun _ => true) hs hue rfl
    refine ⟨_, exec_seqReadEntry hgp, ?_⟩
    have hfull : c.seqFull (gp / 80) (s1.seqCycle cyc) e = true := by
      rw [Core.seqFull_of_op hd hr hf]
      exact decide_eq_true hroom
    rw [hcore.trans (if_pos hfull)]
    exact ⟨rfl, rfl, rfl, rfl⟩
  · intro gp cyc len count s hgp s1 c idx hs hue ho hd hrep
    obtain ⟨hmem, hcore⟩ := State.seqRead_entry (mine := fun op => decide (op = 0x1E)) hs hue (decide_eq_true ho)
    refine ⟨_, exec_repeatOp hgp, ?_⟩
    rw [hcore.trans (if_neg (Core.seqFull_of_rep hd))]
    exact Core.seqTake_rep _ _ hd hrep
  · intro gp cyc s hgp s1 c idx hs hue ho hd hreps
    obtain ⟨hmem, hcore⟩ := State.seqRead_entry (mine := fun op => decide (op = 0x1F)) hs hue (decide_eq_true ho)
    refine ⟨_, exec_endOp hgp, ?_⟩
    rw [hcore.trans (if_neg (Core.seqFull_of_fin hd))]
    exact Core.seqTake_fin _ _ hd hreps
  · intro gp cyc s hgp s1 c idx hs hue hd
    obtain ⟨hmem, hcore⟩ := State.seqRead_entry (mine := fun _ => true) hs hue rfl
    refine ⟨_, exec_seqReadEntry hgp, ?_⟩
    rw [hcore.trans (if_neg (Core.seqFull_of_invalid hd))]
    exact Core.seqTake_invalid _ _ hd

end Sys2Proof.Machine

/-! Retirement and the completion of tiles (R95, R106) in a core with nothing left to do. -/

namespace Sys2Proof.Machine

theorem State.mem_of_kept {s t : State} (h : t.kept = s.kept) : t.mem = s.mem := congrArg Prod.fst h

section
variable {s : State} {gp : Nat} (h : (s.core gp).settled)
include h

/-- In a settled core nothing falls due: the core's clock moves on, and what has come to its cycle retires (R95). -/
theorem State.advance_settled (stop : Nat) : s.advance gp stop
    = (s.modCore gp (fun c => { c with watch := { c.watch with captures := [] } })).modCore gp (fun c => { c.retireTo stop with
        now := max c.now stop, leaving := c.leaving.filter (fun p => decide (0 < rowsLeft s.xdiv p.1 p.2 (max c.now stop))) }) := by
  obtain ⟨hacc, houtb, hdisp, hcap, hbkl, harms, hland⟩ := h
  have hdue : (s.core gp).nextDue stop = none := by simp [Core.nextDue, hacc]
  have hrun : s.runTo gp stop ((s.core gp).acc.length + 1) = s := by simp [State.runTo, hdue]
  have hdisputes : s.disputesTo gp stop = s := by simp [State.disputesTo, hdisp]
  have hcaptures : s.capturesTo gp stop = s.modCore gp (fun c => { c with watch := { c.watch with captures := [] } }) := by
    simp [State.capturesTo, hcap, State.modCore]
  have hdone (t : State) (ht : (t.core gp).outb = []) : t.departDone gp = t := by simp [State.departDone, ht]
  simp only [State.advance, hrun, hdisputes, hcaptures]
  refine hdone _ ?_
  simp [Core.retireTo, houtb]

/-- What a settled core is when it has come to a cycle: nothing is still due, and it has retired what has come to its cycle. -/
theorem State.advance_settled_core (stop : Nat) :
    ((s.advance gp stop).core gp).bklOut = [] ∧ ((s.advance gp stop).core gp).arms = []
      ∧ ((s.advance gp stop).core gp).flights = (s.core gp).flights.filter (fun f => f.hold || decide (stop ≤ f.retire))
      ∧ ((s.advance gp stop).core gp).now = max (s.core gp).now stop
      ∧ (∀ n, ((s.advance gp stop).core gp).tile n = (s.core gp).tile n) := by
  have hadv := s.advance_settled h stop
  obtain ⟨hacc, houtb, hdisp, hcap, hbkl, harms, hland⟩ := h
  have howed : (s.core gp).flights.filter (fun f => f.landing && !((s.core gp).acc.any (fun a => decide (a.fl = f.id)))) = [] :=
    List.filter_eq_nil_iff.mpr fun f hf => by simp [hland f hf]
  rw [hadv, State.core_modCore_same, State.core_modCore_same]
  refine ⟨?_, harms, List.filter_congr fun f hf => ?_, rfl, fun n => rfl⟩
  · simp [Core.retireTo, hbkl, howed]
  · have hl := hland f hf
    rw [Bool.eq_iff_iff]
    simp [hacc, hl, or_comm]

theorem State.advance_settled_regs (stop : Nat) : (s.advance gp stop).regs = s.regs := by
  rw [s.advance_settled h stop]
  rfl

theorem State.payBuckles_of_none {t : State} (ht : (t.core gp).bklOut = []) : t.payBuckles gp = t := by
  simp [State.payBuckles, ht]

theorem State.armsAdvance_of_none {t : State} (ht : (t.core gp).arms = []) : t.armsAdvance gp = t := by
  simp [State.armsAdvance, ht]

/-- A settled core with nothing to read or fire reaches a cycle by its clock alone. -/
theorem State.reach_settled (hq : s.quiet gp) (stop : Nat) : s.reach gp stop = s.advance gp stop := by
  obtain ⟨hbkl, harms, _⟩ := s.advance_settled_core h stop
  have hpay := State.payBuckles_of_none h hbkl
  simp only [State.reach]
  split_ifs with hlt
  · exact hpay
  · obtain ⟨n, hn⟩ : ∃ n, stop - (s.core gp).now = n + 1 := ⟨stop - (s.core gp).now - 1, by omega⟩
    have hquiet : ((s.core gp).still || !s.issues gp) = true := by simpa using hq
    rw [hn, State.run]
    simp only [if_neg hlt, hquiet, ↓reduceIte, hpay]
    exact State.armsAdvance_of_none h harms

end

theorem exec_opRetire {gp unit : Nat} (cyc : Nat) (s : State) (hgp : gp < 5120) (hu : unit < 8) :
    exec (.opRetire gp unit cyc) s = .next (s.reach gp (cyc + 1)) :=
  if_pos (Bool.and_eq_true_iff.mpr ⟨decide_eq_true hgp, decide_eq_true hu⟩)

theorem exec_tileComplete {gp tile : Nat} (cyc : Nat) (s : State) (hgp : gp < 5120) (ht : tile < 2) :
    exec (.tileComplete gp tile cyc) s = .next ((s.reach gp (cyc + 1)).modCore gp (fun c =>
      if (c.tile tile).stTo ≤ cyc then c.setTile tile { (c.tile tile) with st := .idle } else c)) :=
  if_pos (Bool.and_eq_true_iff.mpr ⟨decide_eq_true hgp, decide_eq_true ht⟩)

/-- Settles O13. -/
theorem retirementAndTileCompletion : Obligations.RetirementAndTileCompletion := by
  intro gp cyc unit tile s hgp hu ht hs hq
  obtain ⟨_, _, hflights, hnow, htile⟩ := s.advance_settled_core hs (cyc + 1)
  have hreach := s.reach_settled hs hq (cyc + 1)
  have hregs := s.advance_settled_regs hs (cyc + 1)
  have hmem : (s.advance gp (cyc + 1)).mem = s.mem := State.mem_of_kept (s.advance_kept gp (cyc + 1))
  rw [← hreach] at hflights hnow htile hregs hmem
  refine ⟨⟨_, exec_opRetire cyc s hgp hu, hflights, hnow, hregs, hmem⟩, fun hto => ⟨_, exec_tileComplete cyc s hgp ht, ?_⟩⟩
  rw [State.core_modCore_same, htile, if_pos hto, Core.tile_setTile_same]
  exact ⟨rfl, rfl, rfl, hregs, hmem⟩

end Sys2Proof.Machine

/-! The outbound buffer (R72, R239): an operation's packets, and the packet that leaves. -/

namespace Sys2Proof.Machine

/-- What the flow of an outbound packet does not change of it: all but GEN and SEQ (R245). -/
def OutPkt.unnumbered (p : OutPkt) : OutPkt := { p with pkt := { p.pkt with gen := 0, seq := 0 } }

theorem State.flowNext_outb (s : State) (gp dmod key : Nat) : ((s.flowNext gp dmod key).2.2.core gp).outb = (s.core gp).outb := by
  simp only [State.flowNext]
  split <;> simp

theorem State.numberPkts_outb (gp dmod key : Nat) (l : List OutPkt) (s : State) :
    ((s.numberPkts gp dmod key l).2.core gp).outb = (s.core gp).outb := by
  induction l generalizing s with
  | nil => rfl
  | cons p l ih => exact (ih _).trans (s.flowNext_outb ..)

theorem State.numberPkts_unnumbered (gp dmod key : Nat) (l : List OutPkt) (s : State) :
    (s.numberPkts gp dmod key l).1.map OutPkt.unnumbered = l.map OutPkt.unnumbered := by
  induction l generalizing s with
  | nil => rfl
  | cons p l ih => exact congrArg (p.unnumbered :: ·) (ih _)

/-- Packet `i` of an operation's `n`, from packet `j` on (R239). -/
structure OutPkt.IsPiece (hdr : Packet) (rows step : Nat) (last : Bool) (n j i : Nat) (p : OutPkt) : Prop where
  need : p.need = min 32 (rows - 32 * (j + i))
  rows : p.pkt.rows = p.need
  doff : p.pkt.doff = hdr.doff + if step = 0 then 32 * (j + i) else 0
  addr : p.pkt.addr = hdr.addr + step * (j + i)
  last : p.pkt.last = (last && decide (i + 1 = n))
  empty : p.rows = []

theorem mkPackets_length (hdr : Packet) (rows id step : Nat) (last : Bool) (ring : Nat) (unitLa : Nat → Option Nat) (n j : Nat) :
    (mkPackets hdr rows id step last ring unitLa n j).length = n := by
  induction n generalizing j with
  | zero => rfl
  | succ n ih => exact congrArg (· + 1) (ih _)

theorem mkPackets_isPiece (hdr : Packet) (rows id step : Nat) (last : Bool) (ring : Nat) (unitLa : Nat → Option Nat) {n j i : Nat} {p : OutPkt}
    (h : (mkPackets hdr rows id step last ring unitLa n j)[i]? = some p) : p.IsPiece hdr rows step last n j i := by
  induction n generalizing j i with
  | zero => simp [mkPackets] at h
  | succ n ih =>
    rw [mkPackets] at h
    cases i with
    | zero =>
      cases Option.some.inj h
      exact ⟨rfl, rfl, rfl, rfl, by simp, rfl⟩
    | succ i =>
      obtain ⟨hneed, hrows, hdoff, haddr, hlast, hempty⟩ := ih h
      have hj : j + 1 + i = j + (i + 1) := by omega
      rw [hj] at hneed hdoff haddr
      exact ⟨hneed, hrows, hdoff, haddr, by simp [hlast], hempty⟩

theorem OutPkt.IsPiece.of_unnumbered {hdr : Packet} {rows step : Nat} {last : Bool} {n j i : Nat} {p q : OutPkt}
    (h : p.unnumbered = q.unnumbered) (hq : q.IsPiece hdr rows step last n j i) : p.IsPiece hdr rows step last n j i := by
  obtain ⟨hneed, hrows, hdoff, haddr, hlast, hempty⟩ := hq
  have hn := congrArg (fun x : OutPkt => x.need) h
  have hpk {α : Type} (f : Packet → α) : f p.unnumbered.pkt = f q.unnumbered.pkt := congrArg (fun x : OutPkt => f x.pkt) h
  exact ⟨hn.trans hneed, ((hpk (·.rows)).trans hrows).trans hn.symm, (hpk (·.doff)).trans hdoff, (hpk (·.addr)).trans haddr,
    (hpk (·.last)).trans hlast, (congrArg (fun x : OutPkt => x.rows) h).trans hempty⟩

/-- Opening an operation's packets puts ⌈rows/32⌉ pieces behind what is in the outbound buffer (R239). -/
theorem State.openPackets_pieces (s : State) (gp id : Nat) (src : Sel) (rows step : Nat) (last : Bool) (hdr : Packet) (flow : Option (Nat × Nat)) :
    ∃ ps, ((s.openPackets gp id src rows step last hdr flow).core gp).outb = (s.core gp).outb ++ ps ∧ ps.length = (rows + 31) / 32
      ∧ ∀ i (p : OutPkt), ps[i]? = some p → p.IsPiece hdr rows step last ps.length 0 i := by
  have hopen : ∃ ring unitLa,
      let l := mkPackets hdr rows id step last ring unitLa ((rows + 31) / 32) 0
      ((s.openPackets gp id src rows step last hdr flow).core gp).outb = (s.core gp).outb ++ match flow with
        | some f => (s.numberPkts gp f.1 f.2 l).1
        | none => l := by
    simp only [State.openPackets, State.core_modCore_same]
    cases flow with
    | none => exact ⟨_, _, rfl⟩
    | some f => exact ⟨_, _, congrArg (· ++ _) (State.numberPkts_outb ..)⟩
  obtain ⟨ring, unitLa, hopen⟩ := hopen
  refine ⟨_, hopen, ?_⟩
  cases flow with
  | none => exact ⟨mkPackets_length .., fun i p h => by rw [mkPackets_length]; exact mkPackets_isPiece _ _ _ _ _ _ _ h⟩
  | some f =>
    have hmap := s.numberPkts_unnumbered gp f.1 f.2 (mkPackets hdr rows id step last ring unitLa ((rows + 31) / 32) 0)
    have hlen := congrArg List.length hmap
    simp only [List.length_map, mkPackets_length] at hlen
    refine ⟨hlen, fun i p h => ?_⟩
    rw [hlen]
    have hi := congrArg (·[i]?) hmap
    simp only [List.getElem?_map, h, Option.map_some] at hi
    obtain ⟨q, hq, hqp⟩ := Option.map_eq_some_iff.mp hi.symm
    exact (mkPackets_isPiece _ _ _ _ _ _ _ hq).of_unnumbered hqp.symm

theorem State.takeIns_outb (gp cyc fl rank code : Nat) (op : Op) (l : List InPort) (x : State × List Access) :
    ((l.foldl (takeIn gp cyc fl rank code op) x).1.core gp).outb = (x.1.core gp).outb := by
  induction l generalizing x with
  | nil => rfl
  | cons p r ih =>
    refine (ih _).trans ?_
    simp only [State.takeIn, State.claimIn]
    split <;> simp [Core.setRing]

theorem State.takeOuts_outb (gp cyc fl rank code : Nat) (b : Bool) (l : List OutPort) (x : State × List Access) :
    ((l.foldl (takeOut gp cyc fl rank code b) x).1.core gp).outb = (x.1.core gp).outb := by
  induction l generalizing x with
  | nil => rfl
  | cons p r ih =>
    refine (ih _).trans ?_
    simp only [State.takeOut, State.reserveOut]
    split <;> simp [Core.setRing, Core.setTrace]

theorem State.launch_outb (s : State) (gp unit cyc : Nat) (q : QEnt) (rest : List QEnt) (op : Op) :
    ((s.launch gp unit cyc q rest op).core gp).outb = (s.core gp).outb := by
  simp only [State.launch, State.core_modCore_same, State.takeOuts_outb, State.takeIns_outb, Core.setQueue]

/-- The command that fires an operation which fills the outbound buffer (R60). -/
theorem fireCmd_of_outOf {gp cyc : Nat} {f : FireCmd} {op : Op} (hf : f ∈ fireCmds gp cyc) (hm : f.mine op = true) :
    (∀ a, op = .send a → f.cmd = .send gp cyc) ∧ (∀ a, op = .stRing a → f.cmd = .stRing gp cyc) ∧ (∀ a, op = .tsend a → f.cmd = .tsend gp cyc)
      ∧ ∀ a, op = .stMem a → f.cmd = .stMem gp cyc := by
  revert f
  simp only [fireCmds, List.forall_mem_append, List.forall_mem_cons, List.forall_mem_map, List.not_mem_nil, false_implies, implies_true, and_true]
  cases op <;> simp [isLoad, isLoadAct, isAcc, isDrain, isLoadTile, isSend, isTsend, isArm, isDisarm, isStMem, isStRing, isSyncAdd, isWaitb, isToken,
    isArmb, isWait, isSt, isEmit, isVec, isSwitch, isMerge]

/-- Firing an operation that fills the outbound buffer opens its packets, under a header with its DOFF and its ADDR (R239). -/
theorem firingExtra_opens {gp cyc rows doff addr : Nat} {last : Bool} {f : FireCmd} {op : Op} (hf : f ∈ fireCmds gp cyc) (hm : f.mine op = true)
    (ho : outOf op = some (rows, doff, addr, last)) (t : State) (id : Nat) (q : QEnt) :
    ∃ src hdr flow, firingExtra gp cyc f.cmd t id q op = t.openPackets gp id src rows (if isStMem op = true then 4096 else 0) last hdr flow
      ∧ hdr.doff = doff ∧ hdr.addr = addr := by
  obtain ⟨hsend, hring, htsend, hmem⟩ := fireCmd_of_outOf hf hm
  cases op with
  | send a =>
    cases ho
    rw [hsend a rfl, show isStMem (.send a) = false from rfl, if_neg Bool.false_ne_true]
    simp only [firingExtra, sendFired]
    exact ⟨_, _, _, rfl, rfl, rfl⟩
  | stRing a =>
    cases ho
    rw [hring a rfl, show isStMem (.stRing a) = false from rfl, if_neg Bool.false_ne_true]
    simp only [firingExtra, sendFired]
    exact ⟨_, _, _, rfl, rfl, rfl⟩
  | tsend a =>
    cases ho
    rw [htsend a rfl, show isStMem (.tsend a) = false from rfl, if_neg Bool.false_ne_true]
    simp only [firingExtra, tsendFired]
    exact ⟨_, _, _, rfl, rfl, rfl⟩
  | stMem a =>
    cases ho
    rw [hmem a rfl, show isStMem (.stMem a) = true from rfl, if_pos rfl]
    simp only [firingExtra, stMemFired]
    exact ⟨_, _, _, rfl, rfl, rfl⟩
  | _ => cases ho

/-- Settles O15. -/
theorem operationSplitsIntoPackets : Obligations.OperationSplitsIntoPackets := by
  intro gp cyc rows doff addr last f s q rest op hgp hf ho hi hh hm
  have hmine := hh.2.2.1
  obtain ⟨src, hdr, flow, hopens, rfl, rfl⟩ := firingExtra_opens hf hmine ho
    ((s.reachUnit gp f.unit cyc).launch gp f.unit cyc q rest op) ((s.reachUnit gp f.unit cyc).core gp).nextId q
  obtain ⟨ps, houtb, hlen, hpiece⟩ := ((s.reachUnit gp f.unit cyc).launch gp f.unit cyc q rest op).openPackets_pieces gp
    ((s.reachUnit gp f.unit cyc).core gp).nextId src rows (if isStMem op = true then 4096 else 0) last hdr flow
  refine ⟨_, ps, exec_fireCmd_launch hf hgp hi hh hm, ?_, hlen, fun i p h => ?_⟩
  · rw [hopens, houtb, State.launch_outb]
  · obtain ⟨hneed, hrows, hdoff, haddr, hlast, hempty⟩ := hpiece i p h
    have hi := (List.getElem?_eq_some_iff.mp h).1
    refine ⟨?_, hrows, ?_, ?_, hlast, hempty⟩
    · rw [hneed]
      split <;> omega
    · rw [haddr]
      split <;> simp
    · rw [hdoff]
      split <;> simp

theorem State.net_of_rest {s t : State} (h : t.rest = s.rest) : t.net = s.net := by
  change t.rest.net = s.rest.net
  rw [h]

theorem State.brandFail_rest (s : State) (gp cyc : Nat) (ue : Bool) (synd : BitVec 64) : (s.brandFail gp cyc ue synd).rest = s.rest := by
  simp only [State.brandFail, apply_ite State.rest, State.coreErr_rest, State.bump_rest, ite_self]

theorem State.outUnit_rest (s : State) (gp ring unit : Nat) (la : Option Nat) (b : Option Word) (ue : Bool) (rows : List Entry) :
    (s.outUnit gp ring unit la b ue rows).2.rest = s.rest := by
  unfold State.outUnit
  split
  · split
    · exact s.brandFail_rest ..
    · rfl
  · rfl

/-- Completing a packet reports what fails in it, and changes nothing else. -/
theorem State.finishPkt_rest (s : State) (gp : Nat) (p : OutPkt) : (s.finishPkt gp p).2.rest = s.rest := by
  simp only [State.finishPkt]
  split
  · rfl
  · split
    · exact (State.outUnit_rest ..).trans (State.outUnit_rest ..)
    · exact State.outUnit_rest ..

theorem State.finishPkt_rows (s : State) (gp : Nat) (p : OutPkt) : (s.finishPkt gp p).1.rows = p.rows.length := by
  simp only [State.finishPkt]
  split <;> rfl

theorem NetPkt.complete_of_ne {q : NetPkt} {src : Nat × Nat} (h : q.src ≠ some src) (k : Packet) : q.complete src k = q := if_neg h

/-- A packet that has left and that names it takes what is complete of it; every other stays (R72). -/
theorem State.endPacket_net (s : State) (gp : Nat) (p : OutPkt) {l : List NetPkt} {e : NetPkt} (hnet : s.net = l ++ [e])
    (hl : ∀ q ∈ l, q.src ≠ some (gp, p.id)) : (s.endPacket gp p).net = l ++ [e.complete (gp, p.id) (s.finishPkt gp p).1] := by
  have h : (s.endPacket gp p).net = (s.finishPkt gp p).2.net.map (·.complete (gp, p.id) (s.finishPkt gp p).1) := rfl
  rw [h, State.net_of_rest (s.finishPkt_rest gp p), hnet, List.map_append, List.map_cons, List.map_nil]
  exact congrArg (· ++ _) ((List.map_congr_left fun q hq => NetPkt.complete_of_ne (hl q hq) _).trans (List.map_id' _))

theorem State.endPacket_core (s : State) (gp g : Nat) (p : OutPkt) : (s.endPacket gp p).core g = s.core g :=
  State.core_of_rest (s.finishPkt_rest gp p) g

section
variable {s : State} {gp : Nat}

/-- An outbound buffer in which no packet has left and is complete gives none up. -/
theorem State.departDone_of_none (h : ∀ x ∈ (s.core gp).outb, (x.left && decide (x.rows.length = x.need)) = false) : s.departDone gp = s := by
  have hgone : (s.core gp).outb.filter (fun p => p.left && decide (p.rows.length = p.need)) = [] := List.filter_eq_nil_iff.mpr fun x hx => by
    simp [h x hx]
  simp [State.departDone, hgone]

/-- The first packet of an outbound buffer has left and is complete, and no other: it alone leaves the buffer (R72). -/
theorem State.departDone_of_first {p : OutPkt} {rest : List OutPkt} (ho : (s.core gp).outb = p :: rest) (hp : p.left = true)
    (hc : p.rows.length = p.need) (hrest : ∀ x ∈ rest, x.left = false) :
    s.departDone gp = (s.setCore gp { s.core gp with outb := rest, leaving := (s.core gp).leaving ++ [(p.leftAt, p.need)] }).endPacket gp p := by
  have hgone : (p :: rest).filter (fun p => p.left && decide (p.rows.length = p.need)) = [p] := by
    simp only [List.filter_cons, hp, hc, decide_true, Bool.and_self, ↓reduceIte, List.cons.injEq, true_and]
    exact List.filter_eq_nil_iff.mpr fun x hx => by simp [hrest x hx]
  have hstay : (p :: rest).filter (fun p => !(p.left && decide (p.rows.length = p.need))) = rest := by
    simp only [List.filter_cons, hp, hc, decide_true, Bool.and_self, Bool.not_true, Bool.false_eq_true, ↓reduceIte]
    exact List.filter_eq_self.mpr fun x hx => by simp [hrest x hx]
  simp only [State.departDone, ho, hgone, hstay, List.isEmpty_cons, Bool.false_eq_true, ↓reduceIte, List.foldl_cons, List.foldl_nil, List.map_cons,
    List.map_nil]

end

/-- A port that carries no rows: nothing is leaving, and no header has left (R72). -/
theorem Core.portBusy_false {c : Core} (h : c.portBusy = false) : c.leaving = [] ∧ ∀ x ∈ c.outb, x.left = false := by
  simpa [Core.portBusy] using h

section
variable {s0 : State} {gp : Nat}

/-- The packet that leaves at a grant, as its header is in the package network (R72). -/
def State.departing (s0 : State) (gp : Nat) (p : OutPkt) : NetPkt :=
  { pkt := { p.pkt with rows := p.need }, at_ := .core gp, vc := p.pkt.vc, reqCore := some gp, ctx := s0.coreCtx gp, src := some (gp, p.id) }

/-- The state in which the first packet of the outbound buffer has sent its header, before it is seen to be complete. -/
def State.headerOut (s0 : State) (gp cyc : Nat) (p : OutPkt) (rest : List OutPkt) : State :=
  { s0.modCore gp (fun c => { c with outb := { p with left := true, leftAt := cyc } :: rest }) with net := s0.net ++ [s0.departing gp p] }

theorem State.depart_first {p : OutPkt} {rest : List OutPkt} (ho : (s0.core gp).outb = p :: rest) (hid : ∀ x ∈ rest, x.id ≠ p.id) (cyc : Nat) :
    s0.depart gp cyc p = (s0.headerOut gp cyc p rest).departDone gp := by
  have hmap : (p :: rest).map (fun x => if x.id = p.id then { x with left := true, leftAt := cyc } else x)
      = { p with left := true, leftAt := cyc } :: rest := by
    rw [List.map_cons, if_pos rfl]
    exact congrArg _ ((List.map_congr_left fun x hx => if_neg (hid x hx)).trans (List.map_id' _))
  simp only [State.depart, State.headerOut, State.departing, State.modCore, ho, hmap]
  rfl

theorem State.headerOut_core (cyc : Nat) (p : OutPkt) (rest : List OutPkt) :
    (s0.headerOut gp cyc p rest).core gp = { s0.core gp with outb := { p with left := true, leftAt := cyc } :: rest } :=
  (State.core_withNet ..).trans (State.core_modCore_same ..)

end

theorem exec_outboundPacketDepart {gp : Nat} (hgp : gp < 5120) (cyc : Nat) (s : State) : exec (.outboundPacketDepart gp cyc) s
    = if (s.reach gp cyc).portShut gp = true then
        .next (((s.reach gp cyc).cutPackets gp).modCore gp (fun c => { c with outb := [], leaving := [] }))
      else if ((s.reach gp cyc).core gp).portBusy = true then .next (s.reach gp cyc)
      else match ((s.reach gp cyc).core gp).outb.find? (fun p => !p.left && !p.rows.isEmpty) with
        | none => .next (s.reach gp cyc)
        | some p => .next ((s.reach gp cyc).depart gp cyc p) :=
  (if_pos (decide_eq_true hgp)).trans rfl

/-- A core in which no header has left has nothing cut when it is fenced (R203). -/
theorem State.cutPackets_of_none {s : State} {gp : Nat} (h : ∀ p ∈ (s.core gp).outb, p.left = false) :
    s.cutPackets gp = s.setCore gp (s.core gp) := by
  have hcut : (s.core gp).outb.filter (fun p => p.left && decide (p.rows.length ≠ p.need)) = [] := List.filter_eq_nil_iff.mpr fun p hp => by
    simp [h p hp]
  have hstay : (s.core gp).outb.filter (fun p => !(p.left && decide (p.rows.length ≠ p.need))) = (s.core gp).outb :=
    List.filter_eq_self.mpr fun p hp => by simp [h p hp]
  simp only [State.cutPackets, hcut, hstay, List.filter_nil, List.map_nil, List.append_nil, List.foldl_nil]

/-- Settles O14. -/
theorem outboundPacketLeaves : Obligations.OutboundPacketLeaves := by
  intro gp cyc s hgp
  refine ⟨?_, ?_, ?_⟩
  · intro p rest hshut hbusy ho hrows hleft hid hsrc
    obtain ⟨hleaving, hnone⟩ := Core.portBusy_false hbusy
    rw [ho] at hnone
    have hrest : ∀ x ∈ rest, x.left = false := fun x hx => hnone x (List.mem_cons_of_mem _ hx)
    have hfind : ((s.reach gp cyc).core gp).outb.find? (fun p => !p.left && !p.rows.isEmpty) = some p := by
      simp [ho, hleft, hrows]
    have hexec : exec (.outboundPacketDepart gp cyc) s = .next (((s.reach gp cyc).headerOut gp cyc p rest).departDone gp) := by
      rw [exec_outboundPacketDepart hgp, hshut, hbusy, hfind, if_neg Bool.false_ne_true, if_neg Bool.false_ne_true]
      exact congrArg Host.Outcome.next (State.depart_first ho hid cyc)
    have hcore := State.headerOut_core (s0 := s.reach gp cyc) (gp := gp) cyc p rest
    by_cases hc : p.rows.length = p.need
    · have hdone := State.departDone_of_first (congrArg Core.outb hcore) rfl hc hrest
      rw [hcore, hleaving] at hdone
      rw [hdone] at hexec
      refine ⟨_, _, hexec, State.endPacket_net _ gp _ (l := (s.reach gp cyc).net) rfl hsrc, ?_⟩
      rw [State.endPacket_core, State.core_setCore_same, State.mem_of_kept (State.endPacket_kept ..)]
      have hcomplete : ((s.reach gp cyc).departing gp p).src = some (gp, p.id) := rfl
      simp only [NetPkt.complete, hcomplete, ↓reduceIte, State.finishPkt_rows]
      exact ⟨rfl, rfl, rfl, rfl, rfl, rfl, hc, rfl, fun _ => ⟨trivial, trivial, rfl⟩, fun h => absurd hc h⟩
    · rw [State.departDone_of_none] at hexec
      · refine ⟨_, _, hexec, rfl, rfl, rfl, rfl, rfl, rfl, rfl, rfl, rfl, fun h => absurd h hc, fun _ => ⟨rfl, ?_, rfl⟩⟩
        rw [hcore]
      · rw [hcore]
        exact List.forall_mem_cons.mpr ⟨by simp [hc], fun x hx => by simp [hrest x hx]⟩
  · intro hshut hbusy
    rw [exec_outboundPacketDepart hgp, hshut, hbusy, if_neg Bool.false_ne_true, if_pos rfl]
  · intro hshut hnone
    rw [exec_outboundPacketDepart hgp, hshut, if_pos rfl, State.cutPackets_of_none hnone]
    refine ⟨_, rfl, ?_⟩
    rw [State.core_modCore_same]
    exact ⟨rfl, rfl, rfl, rfl, rfl⟩

end Sys2Proof.Machine

/-! The FEED queue at the crossbar port (R196, R201, R203). -/

namespace Sys2Proof.Machine

section
variable {s : State} {gp : Nat}

theorem exec_feedDescriptorIssue_shut (hgp : gp < 5120) (hshut : s.portShut gp = true) :
    exec (.feedDescriptorIssue gp) s = .next (s.setCore gp { s.core gp with feedQ := [] }) :=
  (if_pos (decide_eq_true hgp)).trans (if_pos hshut)

theorem exec_feedDescriptorIssue_later (hgp : gp < 5120) (hshut : s.portShut gp = false) (hout : (s.core gp).outReady = true) :
    exec (.feedDescriptorIssue gp) s = .next s :=
  (if_pos (decide_eq_true hgp)).trans ((if_neg (ne_true_of_eq_false hshut)).trans (if_pos hout))

theorem exec_feedDescriptorIssue_remote (hgp : gp < 5120) (hshut : s.portShut gp = false) (hout : (s.core gp).outReady = false) {d : FeedDesc}
    {rest : List FeedDesc} {m : Nat} (hq : (s.core gp).feedQ = d :: rest) (hd : d.module = some m) : exec (.feedDescriptorIssue gp) s
      = .next ((s.issueRemote gp m d (s.coreCtx gp) (s.feedSpan gp d)).1.modCore gp (fun c => { c with
          feedQ := if (s.issueRemote gp m d (s.coreCtx gp) (s.feedSpan gp d)).2 = d.rows then rest
            else { d with next := (s.issueRemote gp m d (s.coreCtx gp) (s.feedSpan gp d)).2 } :: rest })) := by
  refine (if_pos (decide_eq_true hgp)).trans ((if_neg (ne_true_of_eq_false hshut)).trans ((if_neg (ne_true_of_eq_false hout)).trans ?_))
  simp only [hq, hd]

/-- The READ_REQ of a remote LOAD of up to 32 rows (R239, R249). -/
def State.oneReadReq (s : State) (gp dmod : Nat) (d : FeedDesc) : Packet :=
  { s.coreHdr gp dmod with type := 3, vc := 1, dcore := 0xFFF, dring := d.dst, rows := min 32 (d.rows - 32 * 0),
                           addr := (d.addr + 4096 * 0 * d.stride) % 2 ^ 43, tag := d.slot, pidx := 0, taggen := d.tagGen, stride := d.stride,
                           loadRows := d.rows }

/-- A remote descriptor of up to 32 rows sends one request and has then requested all. -/
theorem State.issueRemote_one {d : FeedDesc} (hpos : 0 < d.rows) (hle : d.rows ≤ 32) (hnext : d.next = 0) {hi : Nat} (hhi : d.rows ≤ hi) (m : Nat)
    (ctx : Option Nat) : s.issueRemote gp m d ctx hi
      = ({ s with net := s.net ++ [{ pkt := s.oneReadReq gp m d, at_ := .core gp, vc := 1, reqCore := some gp, ctx := ctx }] }, d.rows) := by
  have hjs : (List.range ((d.rows + 31) / 32)).filter (fun j => decide (d.next ≤ 32 * j) && decide (min d.rows (32 * j + 32) ≤ hi)) = [0] := by
    rw [show (d.rows + 31) / 32 = 1 by omega]
    simp [hnext, hhi]
  simp only [State.issueRemote, hjs, List.foldl_cons, List.foldl_nil, List.isEmpty_cons, Bool.false_eq_true, ↓reduceIte, Nat.mul_zero, Nat.max_self,
    Nat.zero_add, Nat.min_eq_left hle]
  rfl

end

/-- Settles O16. -/
theorem feedDescriptorIssues : Obligations.FeedDescriptorIssues := by
  refine ⟨?_, fun gp s hgp hshut hout => exec_feedDescriptorIssue_later hgp hshut hout, fun gp s hgp hshut => ?_⟩
  · intro gp m d rest s hgp hshut hout hq hd hpos hle hnext hspan
    have hexec := exec_feedDescriptorIssue_remote hgp hshut hout hq hd
    simp only [State.issueRemote_one hpos hle hnext hspan, ↓reduceIte] at hexec
    refine ⟨_, _, hexec, ?_, rfl, rfl, rfl, ?_, ?_, rfl, rfl, rfl, rfl⟩
    · rw [State.core_modCore_same]
    · exact Nat.min_eq_right hle
    · simp [State.oneReadReq]
  · refine ⟨_, exec_feedDescriptorIssue_shut hgp hshut, ?_, rfl⟩
    rw [State.core_setCore_same]

end Sys2Proof.Machine

/-! Landings in armed rings (R104, R245, R259). -/

namespace Sys2Proof.Machine

section
variable {s t : State} (h : t.rest = s.rest)
include h

theorem State.arrived_of_rest : t.arrived = s.arrived := by
  change t.rest.arrived = s.rest.arrived
  rw [h]

theorem State.cores_of_rest : t.cores = s.cores := by
  change t.rest.cores = s.rest.cores
  rw [h]

end

theorem State.foldl_rest {α : Type} (f : State → α → State) (hf : ∀ s a, (f s a).rest = s.rest) (l : List α) (s : State) :
    (l.foldl f s).rest = s.rest := by
  induction l generalizing s with
  | nil => rfl
  | cons a l ih => exact (ih _).trans (hf s a)

theorem State.recvDrop_rest (s : State) (gp : Nat) : (s.recvDrop gp).rest = s.rest := State.bump_rest ..

theorem State.recvDrop_count (s : State) (gp : Nat) :
    (s.recvDrop gp).rf (corePg gp + 0x260) 31 0 = min (s.rf (corePg gp + 0x260) 31 0 + 1) (2 ^ 32 - 1) := by
  rw [State.recvDrop, State.rf_bump_same s (by decide)]

theorem State.treeDrop_rest (s : State) : s.treeDrop.rest = s.rest := State.bump_rest ..

theorem State.treeDrop_count (s : State) :
    s.treeDrop.rf (rtPg + 0x13C) 31 16 = min (s.rf (rtPg + 0x13C) 31 16 + 1) (2 ^ 16 - 1) := by
  rw [State.treeDrop, State.rf_bump_same s (by decide)]

theorem State.landUnit_rest (s : State) (gp cyc n ptr point unit : Nat) (k : Packet) (rows : List Entry) (b : Word) :
    (s.landUnit gp cyc n ptr point unit k rows b).rest = s.rest := by
  simp only [State.landUnit, apply_ite State.rest, State.brandFail_rest, ite_self]

/-- The checks of a landing packet report what they find, and change nothing else (R194, R287). -/
theorem State.landChecks_rest (s : State) (gp cyc n ptr point : Nat) (k : Packet) : (s.landChecks gp cyc n ptr point k).rest = s.rest := by
  simp only [State.landChecks, State.landUnit_rest]
  exact State.foldl_rest _ (fun s e => by simp only [apply_ite State.rest, State.coreErr_rest, ite_self]) _ _

/-- A landing before the seam puts a flight with its rows into its core (R71). -/
theorem State.startLanding_core {s : State} (hseam : s.gen.seamDone = false) (gp cyc n ptr gen code : Nat) (rows : List Entry) (k : Packet)
    (bkl : Option Nat) : ∃ f acc id, f.landing = true ∧ f.ringNo = n ∧ f.rowVals = rows ∧ s.startLanding gp cyc n ptr gen code rows k bkl
      = s.modCore gp (fun c => { c with nextId := id, flights := c.flights ++ [f], acc := acc }) := by
  simp only [State.startLanding, State.modCore, State.setCore, hseam, Bool.false_eq_true, ↓reduceIte]
  exact ⟨_, _, _, rfl, rfl, rfl, rfl⟩

/-- What a packet does that lands in an armed ring before the seam (R104). -/
structure State.Landed (s : State) (gp : Nat) (k : Packet) (a : Arming) (t : State) : Prop where
  arm : (t.core gp).arm k.dring = some { a with got := a.got ++ (List.range (pktRows k).length).map (k.doff + ·) }
  flight : ∃ f ∈ (t.core gp).flights, f.landing = true ∧ f.ringNo = k.dring ∧ f.rowVals = pktRows k
  landBuf : (t.core gp).landBuf = (s.core gp).landBuf
  arrived : t.arrived = s.arrived
  mem : t.mem = s.mem

theorem Core.arm_withFlights (c : Core) (id : Nat) (fl : List Flight) (acc : List Access) (n : Nat) :
    Core.arm { c with nextId := id, flights := fl, acc := acc } n = c.arm n := rfl

theorem State.landArmed_landed {s : State} {gp : Nat} {k : Packet} {a : Arming} (hseam : s.gen.seamDone = false)
    (ha : (s.core gp).arm k.dring = some a) (cyc point : Nat) : s.Landed gp k a (s.landArmed gp cyc k point) := by
  have harmed : s.landArmed gp cyc k point
      = ((s.setCore gp ((s.core gp).setArm k.dring (some { a with got := a.got ++ (List.range (pktRows k).length).map (k.doff + ·) }))).landChecks gp
          cyc k.dring ((s.ringCfg gp k.dring).adv a.start k.doff) point k).startLanding gp cyc k.dring ((s.ringCfg gp k.dring).adv a.start k.doff)
          ((s.core gp).ring k.dring).gen 5 (pktRows k) k a.buckle := by
    simp only [State.landArmed, ha]
  have hrest := (s.setCore gp ((s.core gp).setArm k.dring
    (some { a with got := a.got ++ (List.range (pktRows k).length).map (k.doff + ·) }))).landChecks_rest gp cyc k.dring
    ((s.ringCfg gp k.dring).adv a.start k.doff) point k
  obtain ⟨f, acc, id, hland, hring, hrows, hstart⟩ := State.startLanding_core ((congrArg (·.seamDone) (State.gen_of_rest hrest)).trans hseam) gp cyc
    k.dring ((s.ringCfg gp k.dring).adv a.start k.doff) ((s.core gp).ring k.dring).gen 5 (pktRows k) k a.buckle
  rw [harmed, hstart]
  have hcore := (State.core_of_rest hrest gp).trans (State.core_setCore_same ..)
  refine ⟨?_, ?_, ?_, (State.arrived_of_rest hrest :), (State.mem_of_rest hrest :)⟩ <;> rw [State.core_modCore_same, hcore]
  · exact (Core.arm_withFlights ..).trans ((Core.arm_setArm ..).trans (if_pos rfl))
  · exact ⟨f, List.mem_append_right _ (List.mem_singleton_self f), hland, hring, hrows⟩
  · rfl

/-- A flow check that passes changes the flow table alone (R245). -/
theorem State.flowCheck_passed {s s' : State} {region dcore now : Nat} {k : Packet} (h : s.flowCheck region k dcore now = (true, s')) :
    ∃ fl, s' = { s with flows := fl } := by
  rw [show @State.flowCheck = _ by delta State.flowCheck; rfl] at h
  obtain ⟨drop, hdrop⟩ : ∃ f, f = State.rtDrop := ⟨_, rfl⟩
  obtain ⟨judge, hjudge⟩ : ∃ f, f = RxFlow.judge := ⟨_, rfl⟩
  obtain ⟨ms, hms⟩ : ∃ n, n = oneMs := ⟨_, rfl⟩
  rw [← hdrop, ← hjudge, ← hms] at h
  have hno {u : State} (hu : (false, u) = (true, s')) : ∃ fl, s' = { s with flows := fl } := absurd (Prod.mk.inj hu).1 Bool.false_ne_true
  generalize s.flows.find? (fun f => f.isKey region k.smod k.score dcore) = known at h
  cases known with
  | some f =>
    simp only at h
    generalize judge f k.gen k.seq now = verdict at h
    obtain ⟨v, f'⟩ := verdict
    cases v with
    | accept => exact ⟨_, (Prod.mk.inj h).2.symm⟩
    | dup => exact hno h
    | stale => exact hno h
  | none =>
    simp only at h
    by_cases hroom : (s.flows.filter (fun x => decide (x.region = region))).length < 4096
    · rw [if_pos hroom] at h
      exact ⟨_, (Prod.mk.inj h).2.symm⟩
    · rw [if_neg hroom] at h
      generalize List.find? (fun x : RxFlow => decide (x.last + ms ≤ now)) _ = old at h
      cases old with
      | some o => exact ⟨_, (Prod.mk.inj h).2.symm⟩
      | none => exact hno h

/-- A packet lands only in an armed ring (R104). -/
theorem State.armed_of_pktVerdict {s : State} {gp : Nat} {k : Packet} (h : s.pktVerdict gp k = 0) : ∃ a, (s.core gp).arm k.dring = some a := by
  cases ha : (s.core gp).arm k.dring with
  | some a => exact ⟨a, rfl⟩
  | none =>
    simp only [State.pktVerdict, State.armVerdict, ha] at h
    exact absurd h (by decide)

theorem State.MovesArms.landRows {gp : Nat} {s t : State} (h : State.MovesArms gp s t) : (t.core gp).landRows = (s.core gp).landRows := by
  obtain ⟨_, r, a, hc⟩ := h
  rw [hc]
  rfl

section
variable {n cyc gp : Nat} {p : NetPkt} {s s2 : State} {ctx : Option Nat}

/-- A RING_WRITE that passes its flow check and belongs to the core's context comes to its ring (R245). -/
theorem exec_ringWrite_received (harr : s.arrival n [1, 5] = some p) (hty : p.pkt.type = 1) (hcore : p.coreOf = some gp)
    (hdrop : (s.reach gp cyc).portDrops gp = false) (hroom : ((s.reach gp cyc).core gp).landRows < 64)
    (hflow : ((s.reach gp cyc).takeArrival n).flowCheck (gp / 80) p.pkt p.pkt.dcore ((s.reach gp cyc).cycleAt cyc) = (true, s2))
    (hctx : s2.inCtx p = (ctx, false)) (hok : s2.landCtxOk gp ctx = true) :
    exec (.ringWrite n cyc) s = .next (if (s2.recvPkt gp cyc p.pkt).1 then (s2.recvPkt gp cyc p.pkt).2 else s.reach gp cyc) := by
  have hdead : s2.treeDead p.pkt = false := by simp [State.treeDead, hty]
  change execRingWrite n cyc s = _
  simp only [execRingWrite, harr, hcore, hdrop, Nat.not_le.mpr hroom, hty, hflow, hdead, hctx, hok, ↓reduceIte, Bool.false_eq_true, Bool.not_true]

end

theorem exec_landingBufferDrain {gp : Nat} (hgp : gp < 5120) (cyc : Nat) (s : State) :
    exec (.landingBufferDrain gp cyc) s = .next ((s.reach gp cyc).drainBuf gp cyc ((s.reach gp cyc).core gp).landBuf) :=
  if_pos (decide_eq_true hgp)

/-- The landing buffer without a packet that has its turn. -/
def State.takeBuf (s : State) (gp : Nat) (k : Packet) : State := s.modCore gp (fun c => { c with landBuf := c.landBuf.erase k })

section
variable {s : State} {gp : Nat} {k : Packet} (cyc : Nat) (rest : List Packet)

theorem State.drainBuf_dead (h : (s.armAdvance gp k.dring).treeDead k = true) :
    s.drainBuf gp cyc (k :: rest) = ((s.armAdvance gp k.dring).takeBuf gp k).treeDrop := by
  simp only [State.drainBuf, h, ↓reduceIte]
  rfl

theorem State.drainBuf_lands (h : (s.armAdvance gp k.dring).treeDead k = false) (hv : (s.armAdvance gp k.dring).pktVerdict gp k = 0) :
    s.drainBuf gp cyc (k :: rest) = ((s.armAdvance gp k.dring).takeBuf gp k).landArmed gp cyc k (pktPoint k) := by
  simp only [State.drainBuf, h, hv, ↓reduceIte, Bool.false_eq_true]
  rfl

theorem State.drainBuf_dropped (h : (s.armAdvance gp k.dring).treeDead k = false) (hv : (s.armAdvance gp k.dring).pktVerdict gp k = 2) :
    s.drainBuf gp cyc (k :: rest) = ((s.armAdvance gp k.dring).takeBuf gp k).recvDrop gp := by
  simp only [State.drainBuf, h, hv, ↓reduceIte, Bool.false_eq_true]
  rfl

end

/-- Settles O17. -/
theorem ringLandings : Obligations.RingLandings := by
  refine ⟨?_, ?_⟩
  · intro n cyc gp p ctx s s2 harr hty hcore s0 s3 hdrop hroom hseam hflow hctx hok
    have hexec := exec_ringWrite_received harr hty hcore hdrop hroom hflow hctx hok
    obtain ⟨fl, hs2⟩ := State.flowCheck_passed hflow
    have hmoves := s2.armAdvance_movesArms gp p.pkt.dring
    have hland : (s3.core gp).landRows < 64 := by
      rw [hmoves.landRows, hs2]
      exact hroom
    obtain ⟨⟨cs, hs3⟩, _⟩ := hmoves
    have harrived : s3.arrived = s0.arrived.eraseIdx n := by
      rw [show s3 = _ from hs3, hs2]
      rfl
    have hseam3 : s3.gen.seamDone = false := by
      rw [show s3 = _ from hs3, hs2]
      exact hseam
    refine ⟨fun hv => ?_, fun hv => ?_⟩
    · obtain ⟨a, ha⟩ := State.armed_of_pktVerdict hv
      have htook : s2.recvPkt gp cyc p.pkt = (true, s3.landArmed gp cyc p.pkt (pktPoint p.pkt)) := by
        have hv' : (s2.armAdvance gp p.pkt.dring).pktVerdict gp p.pkt = 0 := hv
        simp only [State.recvPkt, hv']
        exact if_neg (Nat.not_le.mpr hland)
      obtain ⟨harm, hflight, _, harr', hmem⟩ := State.landArmed_landed hseam3 ha cyc (pktPoint p.pkt)
      rw [htook] at hexec
      exact ⟨_, a, _, hexec, harr'.trans harrived, ha, harm, rfl, rfl, hflight, hmem⟩
    · have htook : s2.recvPkt gp cyc p.pkt = (true, s3.recvDrop gp) := by
        have hv' : (s2.armAdvance gp p.pkt.dring).pktVerdict gp p.pkt = 2 := hv
        simp only [State.recvPkt, hv']
        rfl
      rw [htook] at hexec
      have hrest := s3.recvDrop_rest gp
      exact ⟨_, hexec, (State.arrived_of_rest hrest).trans harrived, s3.recvDrop_count gp, State.cores_of_rest hrest, State.mem_of_rest hrest⟩
  · intro gp cyc k rest s hgp s0 s1 hbuf hseam
    have hexec : exec (.landingBufferDrain gp cyc) s = .next (s0.drainBuf gp cyc (k :: rest)) := by
      rw [exec_landingBufferDrain hgp, ← hbuf]
    obtain ⟨⟨cs, hs1⟩, rings, arms, hcore⟩ := s0.armAdvance_movesArms gp k.dring
    have htaken : ((s1.takeBuf gp k).core gp).landBuf = rest := by
      rw [State.takeBuf, State.core_modCore_same]
      change (s1.core gp).landBuf.erase k = rest
      rw [show s1.core gp = _ from hcore]
      exact (congrArg (List.erase · k) hbuf).trans (List.erase_cons_head ..)
    have hdead : s1.treeDead k = s0.treeDead k := by
      rw [show s1 = _ from hs1]
      rfl
    refine ⟨fun hd => ?_, fun hd hv => ?_, fun hd hv => ?_⟩
    · rw [State.drainBuf_dead cyc rest (hdead.trans hd)] at hexec
      refine ⟨_, hexec, ?_, ?_⟩
      · rw [State.core_of_rest (State.treeDrop_rest _), htaken]
      · rw [State.treeDrop_count, State.takeBuf, State.rf_modCore]
    · rw [State.drainBuf_lands cyc rest (hdead.trans hd) hv] at hexec
      obtain ⟨a, ha⟩ := State.armed_of_pktVerdict hv
      have ha' : ((s1.takeBuf gp k).core gp).arm k.dring = some a := by
        rw [State.takeBuf, State.core_modCore_same]
        exact ha
      have hseam1 : (s1.takeBuf gp k).gen.seamDone = false := by
        rw [show s1 = _ from hs1]
        exact hseam
      obtain ⟨_, hflight, hlandBuf, _, _⟩ := State.landArmed_landed hseam1 ha' cyc (pktPoint k)
      exact ⟨_, hexec, hlandBuf.trans htaken, hflight⟩
    · rw [State.drainBuf_dropped cyc rest (hdead.trans hd) hv] at hexec
      refine ⟨_, hexec, ?_, ?_⟩
      · rw [State.core_of_rest (State.recvDrop_rest ..), htaken]
      · rw [State.recvDrop_count, State.takeBuf, State.rf_modCore]

end Sys2Proof.Machine

/-! Module memory: its rows, a MEM_WRITE, and the service of its rows (R183, R186, R188). -/

namespace Sys2Proof.Machine

/-! ### Rows and bytes of memory -/

theorem bytesLE_length (n x : Nat) : (bytesLE n x).length = n := by
  induction n generalizing x with
  | zero => rfl
  | succ n ih => exact congrArg (· + 1) (ih _)

theorem ofBytesLE_bytesLE (n x : Nat) : ofBytesLE (bytesLE n x) = x % 256 ^ n := by
  induction n generalizing x with
  | zero => simp [bytesLE, ofBytesLE, Nat.mod_one]
  | succ n ih => rw [bytesLE, ofBytesLE, ih, Nat.mod_mod, Nat.pow_succ', Nat.mod_mul]

theorem ofBytesLE_mod (l : List Nat) : ofBytesLE (l.map (· % 256)) = ofBytesLE l := by
  induction l with
  | nil => rfl
  | cons b l ih => rw [List.map_cons, ofBytesLE, ofBytesLE, ih, Nat.mod_mod]

theorem row_rowBytes (r : Row) : BitVec.ofNat 1024 (ofBytesLE (rowBytes r)) = r := by
  have hpow : (256 : Nat) ^ 128 = 2 ^ 1024 := (Nat.pow_mul 2 8 128).symm
  rw [rowBytes, ofBytesLE_bytesLE, hpow]
  exact BitVec.eq_of_toNat_eq (by rw [BitVec.toNat_ofNat, Nat.mod_mod, Nat.mod_eq_of_lt r.isLt])

theorem State.memByte_of_mem {s t : State} (h : t.mem = s.mem) (a : Nat) : t.memByte a = s.memByte a := by
  unfold State.memByte
  rw [h]

theorem State.memRow_of_mem {s t : State} (h : t.mem = s.mem) (a : Nat) : t.memRow a = s.memRow a := by
  simp only [State.memRow, State.memByte_of_mem h]

theorem State.memByte_setMemRow_other (s : State) {a b : Nat} (r : Row) (h : b < a ∨ a + 128 ≤ b) : (s.setMemRow a r).memByte b = s.memByte b := by
  rw [State.setMemRow, State.memByte_setMemBytes, List.length_map, rowBytes, bytesLE_length, if_neg (by omega)]

/-- A row written to memory is read back. -/
theorem State.memRow_setMemRow (s : State) (a : Nat) (r : Row) : (s.setMemRow a r).memRow a = r := by
  have hbyte (i : Nat) (hi : i < 128) : ((s.setMemRow a r).memByte (a + i)).toNat = (rowBytes r).getD i 0 % 256 := by
    rw [State.setMemRow, State.memByte_setMemBytes, List.length_map, rowBytes, bytesLE_length, if_pos (by omega), Nat.add_sub_cancel_left]
    simp [List.getD_eq_getElem?_getD]
  have hlist : (List.range 128).map (fun i => ((s.setMemRow a r).memByte (a + i)).toNat) = (rowBytes r).map (· % 256) := by
    refine List.ext_getElem (by simp [rowBytes, bytesLE_length]) fun i h1 h2 => ?_
    rw [List.length_map, List.length_range] at h1
    rw [List.getElem_map, List.getElem_map, List.getElem_range, hbyte i h1]
    rw [List.getD_eq_getElem]
  rw [State.memRow, hlist, ofBytesLE_mod, row_rowBytes]

/-- An address of module DRAM is that of its row in its region (R181). -/
theorem homeOf_dram {a region off : Nat} (h : homeOf a = .dram region off) :
    a % 2 ^ 43 = region * 2 ^ 34 + off ∧ off < 0x3C0000000 ∧ region < 64 := by
  simp only [homeOf] at h
  split at h
  · repeat' split at h
    all_goals exact absurd h (by simp)
  · next hlow =>
    split at h
    · next hzero =>
      split at h
      · next hoff =>
        simp only [Home.dram.injEq] at h
        omega
      · exact absurd h (by simp)
    · split at h <;> exact absurd h (by simp)
    · exact absurd h (by simp)

/-! ### MEM_WRITE and the service of its rows (R186, R188) -/

theorem State.rdByte_congr {s t : State} (h : s.regs = t.regs) (a : Nat) : s.rdByte a = t.rdByte a := by
  rw [State.rdByte, State.rdByte, State.rf_congr h]

theorem State.pageOk_congr {s t : State} (h : s.regs = t.regs) (region off : Nat) (ctx : Option Nat) (fabric : Bool) :
    s.pageOk region off ctx fabric = t.pageOk region off ctx fabric := by
  rw [State.pageOk, State.pageOk, State.rdByte_congr h]

/-- A class 2 without requests of a channel has nothing to serve there (R188). -/
theorem State.classTwo_none {s : State} {mc : Nat} (h : ∀ x ∈ s.class2, x.1 ≠ mc) (cyc n : Nat) : s.classTwo mc cyc n = s := by
  have hfind : s.class2.find? (fun x => decide (x.1 = mc)) = none := List.find?_eq_none.mpr fun x hx => by simp [h x hx]
  cases n with
  | zero => rfl
  | succ n =>
    simp only [State.classTwo, hfind]
    split <;> rfl

/-- A row that is not of DRAM does not touch memory when it is written (R186). -/
theorem State.writeMemRow_kept {s : State} {addr : Nat} (h : ∀ region off,
    homeOf addr ≠ .dram region off) (p : NetPkt) (ctx : Option Nat) (e : Entry) :
    (s.writeMemRow p ctx addr e).1.kept = s.kept := by
  simp only [State.writeMemRow]
  split
  · next hd => exact absurd hd (h _ _)
  · split
    · split
      · exact State.sliceWrite_kept ..
      · rfl
    · exact State.bump_kept ..
  · split
    · split
      · exact State.companionWrite_kept ..
      · rfl
    · rfl
  · split
    · exact State.returnRow_kept ..
    · rfl
  · rfl

/-- Issuing the rows of a MEM_WRITE leaves memory as it is (R188). -/
theorem State.issueWrite_kept (s : State) (p : NetPkt) (ctx : Option Nat) (id i : Nat) (e : Entry) : (s.issueWrite p ctx id i e).kept = s.kept := by
  simp only [State.issueWrite]
  split
  · simp only [State.peakQueue_kept, State.kept_mk, State.kept_eta]
  · next h => rw [State.writeServed_kept, State.writeMemRow_kept h]

theorem State.foldl_issueWrite_kept (p : NetPkt) (ctx : Option Nat) (id : Nat) (l : List (Entry × Nat)) (s : State) :
    (l.foldl (fun (s : State) e => s.issueWrite p ctx id e.2 e.1) s).kept = s.kept := by
  induction l generalizing s with
  | nil => rfl
  | cons e l ih => rw [List.foldl_cons, ih, State.issueWrite_kept]

theorem exec_memWrite_keeps {n : Nat} {s : State} {p : NetPkt} (h : s.arrival n [2] = some p) (waited t0 : Nat) :
    ∃ t, exec (.memWrite n waited t0) s = .next t ∧ t.kept = s.kept := by
  change ∃ t, execMemWrite n waited t0 s = .next t ∧ t.kept = s.kept
  simp only [execMemWrite, h]
  split_ifs <;> refine ⟨_, rfl, ?_⟩
  · simp only [State.rstDrop_kept, State.takeArrival_kept]
  · simp only [State.flowCheck_kept, State.takeArrival_kept]
  · simp only [State.rtDrop_kept, State.flowCheck_kept, State.takeArrival_kept]
  · rw [State.foldl_issueWrite_kept]
    simp only [State.kept_mk, State.kept_eta]
    split <;> simp only [State.tick_kept, State.flowCheck_kept, State.takeArrival_kept]

/-- A packet of one row that is not void carries that row. -/
theorem pktRows_one {k : Packet} (hrows : k.rows = 1) (hvoid : k.void = false) (hmask : k.voidmask = 0) :
    pktRows k = [some (k.payload.getD 0 0)] := by
  simp [pktRows, hrows, hvoid, hmask]

/-- A MEM_WRITE that passes its flow check and belongs to a context opens its write and issues its rows (R188). -/
theorem exec_memWrite_dram {n : Nat} {s s2 : State} {p : NetPkt} {ctx : Option Nat} {t0 region off : Nat} (h : s.arrival n [2] = some p)
    (hheld : s.unitHeld p = false)
    (hflow : (s.takeArrival n).flowCheck (addrRegion p.pkt.addr) p.pkt 0xFFF (s.gen.base + 16 * t0) = (true, s2)) (hctx : s2.inCtx p = (ctx, false))
    (hhome : homeOf p.pkt.addr = .dram region off) (waited : Nat) : exec (.memWrite n waited t0) s
      = .next ((withIndex 0 (pktRows p.pkt)).foldl (fun (s : State) e => s.issueWrite p ctx s2.nextXfer e.2 e.1)
          { s2 with nextXfer := s2.nextXfer + 1, memWrs := s2.memWrs ++ [{ id := s2.nextXfer, pkt := p, ctx := ctx }] }) := by
  have hheld' : (s.takeArrival n).unitHeld p = false := hheld
  have hflow' : (s.takeArrival n).flowCheck (addrRegion p.pkt.addr) p.pkt 0xFFF ((s.takeArrival n).gen.base + 16 * t0) = (true, s2) := hflow
  change execMemWrite n waited t0 s = _
  simp only [execMemWrite, h, hheld', hflow', hctx, hhome, Bool.not_true, Bool.false_eq_true, ↓reduceIte]

/-- The request for the one row of a MEM_WRITE, which carries the row (R188). -/
def memWriteReq (p : NetPkt) (ctx : Option Nat) (id : Nat) (e : Entry) : RowReq :=
  { xfer := id, idx := 0, addr := p.pkt.addr, ctx := ctx, fabric := p.fabric, core := p.reqCore, write := some e }

theorem State.issueWrite_dram {s : State} {p : NetPkt} {region off : Nat} (ha : p.pkt.addr < 2 ^ 43) (hhome : homeOf p.pkt.addr = .dram region off)
    (ctx : Option Nat) (id : Nat) (e : Entry) : s.issueWrite p ctx id 0 e
      = { s with reqs := s.reqs ++ [memWriteReq p ctx id e] }.peakQueue (mcOf region off) := by
  have haddr : (p.pkt.addr + 128 * 0) % 2 ^ 43 = p.pkt.addr := by omega
  simp only [State.issueWrite, haddr, hhome, memWriteReq]

/-- The queue of a channel with its peak is a state in which nothing but live counts has changed. -/
theorem State.peakQueue_live (s : State) (mc : Nat) : ∃ l, s.peakQueue mc = { s with live := l } := ⟨_, rfl⟩

/-- A MEM_WRITE of one DRAM row joins class 1 as one request (R188). -/
theorem exec_memWrite_one {n : Nat} {s s2 : State} {p : NetPkt} {ctx : Option Nat} {t0 region off : Nat} (h : s.arrival n [2] = some p)
    (hheld : s.unitHeld p = false)
    (hflow : (s.takeArrival n).flowCheck (addrRegion p.pkt.addr) p.pkt 0xFFF (s.gen.base + 16 * t0) = (true, s2)) (hctx : s2.inCtx p = (ctx, false))
    (hrows : p.pkt.rows = 1) (hvoid : p.pkt.void = false) (hmask : p.pkt.voidmask = 0) (ha : p.pkt.addr < 2 ^ 43)
    (hhome : homeOf p.pkt.addr = .dram region off) (waited : Nat) :
    ∃ fl l, exec (.memWrite n waited t0) s = .next { s with
      arrived := s.arrived.eraseIdx n, flows := fl, nextXfer := s.nextXfer + 1,
      memWrs := s.memWrs ++ [{ id := s.nextXfer, pkt := p, ctx := ctx }],
      reqs := s.reqs ++ [memWriteReq p ctx s.nextXfer (some (p.pkt.payload.getD 0 0))], live := l } := by
  have hexec := exec_memWrite_dram h hheld hflow hctx hhome waited
  obtain ⟨fl, hs2⟩ := State.flowCheck_passed hflow
  rw [pktRows_one hrows hvoid hmask, hs2] at hexec
  simp only [withIndex, List.foldl_cons, List.foldl_nil, State.issueWrite_dram ha hhome] at hexec
  obtain ⟨l, hl⟩ := State.peakQueue_live { s with
    arrived := s.arrived.eraseIdx n, flows := fl, nextXfer := s.nextXfer + 1, memWrs := s.memWrs ++ [{ id := s.nextXfer, pkt := p, ctx := ctx }],
    reqs := s.reqs ++ [memWriteReq p ctx s.nextXfer (some (p.pkt.payload.getD 0 0))] } (mcOf region off)
  exact ⟨fl, l, hexec.trans (congrArg Host.Outcome.next hl)⟩

theorem exec_mcRequest_served {mc n served t0 region off : Nat} {r : RowReq} {s : State} (hmc : mc < 128) (hheld : s.memHeld = false)
    (hreq : s.nthReq (reqOfMc mc) n = some r) (hpick : s.mcPick mc (s.gen.base + 16 * t0) = some r) (hhome : homeOf r.addr = .dram region off)
    (hclass : ∀ x ∈ (((s.mcTake mc (s.gen.base + 16 * t0) r).peak (mcPg mc + 0x10C) served).serveRow r region off 0 (tclkCycle t0)).class2,
        x.1 ≠ mc) :
    exec (.mcRequest mc n served 0 t0) s
      = .next (((s.mcTake mc (s.gen.base + 16 * t0) r).peak (mcPg mc + 0x10C) served).serveRow r region off 0 (tclkCycle t0)) := by
  have hwf : (Instr.mcRequest mc n served 0 t0).wf = true := Bool.and_eq_true_iff.mpr ⟨decide_eq_true hmc, rfl⟩
  refine (if_pos hwf).trans ?_
  simp only [hreq, hheld, hpick, hhome, Bool.false_eq_true, ne_eq, not_true_eq_false, ↓reduceIte, OfNat.zero_ne_ofNat]
  exact congrArg Host.Outcome.next (State.classTwo_none hclass ..)

/-- Without an error of the link a row is what it is (R194). -/
theorem State.linkFault_zero (s : State) (region off cyc : Nat) (patrol : Bool) (row : Row) (st : Option (BitVec 64)) :
    s.linkFault region off 0 cyc patrol row st = (row, st, s) := if_pos rfl

/-- A row written to DRAM: memory has it, and what is not of memory's upkeep is as it was. -/
theorem State.dramWrite_mem (s : State) (region off : Nat) (r : Row) :
    (s.dramWrite region off r).mem = (s.setMemRow (region * 2 ^ 34 + off) r).mem := by
  refine State.mem_of_kept ?_
  simp only [State.dramWrite, State.kept_mk, State.kept_eta, State.setHideBrand_kept]

theorem State.setHideBrand_dram (s : State) (k : Nat) (b : Option Word) :
    ∃ d u, s.setHideBrand k b = { s with dramBrand := d, dramUpset := u } := by
  simp only [State.setHideBrand]
  split
  · exact ⟨_, _, rfl⟩
  · exact ⟨_, _, rfl⟩

theorem State.setMemBytes_only (s : State) (a : Nat) (l : List (BitVec 8)) : ∃ m, s.setMemBytes a l = { s with mem := m } := by
  induction l generalizing s a with
  | nil => exact ⟨_, rfl⟩
  | cons b l ih =>
    obtain ⟨m, hm⟩ := ih (s.setMemByte a b) (a + 1)
    exact ⟨m, hm⟩

theorem State.setMemRow_only (s : State) (a : Nat) (r : Row) : ∃ m, s.setMemRow a r = { s with mem := m } := State.setMemBytes_only ..

/-- A row written to DRAM changes memory, brands and upsets alone. -/
theorem State.dramWrite_only (s : State) (region off : Nat) (r : Row) :
    ∃ m d u, s.dramWrite region off r = { s with mem := m, dramBrand := d, dramUpset := u } := by
  obtain ⟨m, hm⟩ := s.setMemRow_only (region * 2 ^ 34 + off) r
  obtain ⟨d, u, hd⟩ := ({ s with mem := m } : State).setHideBrand_dram ((region * 2 ^ 34 + off) / 2048) none
  simp only [State.dramWrite, hm, hd]
  exact ⟨m, d, _, rfl⟩

/-- A row written to DRAM leaves the queues of memory as they are. -/
theorem State.dramWrite_queues (s : State) (region off : Nat) (r : Row) : (s.dramWrite region off r).memWrs = s.memWrs
    ∧ (s.dramWrite region off r).reqs = s.reqs ∧ (s.dramWrite region off r).class2 = s.class2 := by
  obtain ⟨m, d, u, h⟩ := s.dramWrite_only region off r
  rw [h]
  exact ⟨rfl, rfl, rfl⟩

theorem State.setMemBytes_congr {s t : State} (h : t.mem = s.mem) (a : Nat) (l : List (BitVec 8)) :
    (t.setMemBytes a l).mem = (s.setMemBytes a l).mem := by
  induction l generalizing s t a with
  | nil => exact h
  | cons b l ih => exact ih (congrArg (Tbl.set memDefault · a b) h) (a + 1)

theorem State.setMemRow_tick (s : State) (p n a : Nat) (r : Row) : ((s.tick p n).setMemRow a r).mem = (s.setMemRow a r).mem :=
  State.setMemBytes_congr rfl ..

/-- One row of a MEM_WRITE served when others are still to come: the write waits for them (R188). -/
theorem State.writeServed_waits {s : State} {w : MemWr} {id : Nat} (hw : s.memWrs = [w]) (hid : w.id = id)
    (hmore : w.done.length + 1 < w.pkt.pkt.rows) (idx : Nat) (wrote admitted : Bool) :
    (s.writeServed id idx wrote admitted).mem = s.mem ∧ (s.writeServed id idx wrote admitted).reqs = s.reqs
      ∧ (s.writeServed id idx wrote admitted).class2 = s.class2 := by
  have hfind : s.memWrs.find? (fun w => decide (w.id = id)) = some w := by simp [hw, hid]
  have hlen : (w.done ++ [(idx, wrote, admitted)]).length ≠ w.pkt.pkt.rows := by simp; omega
  simp only [State.writeServed, hfind]
  rw [if_neg hlen]
  exact ⟨rfl, rfl, rfl⟩

section
variable {s t : State} (h : t.rest = s.rest)
include h

theorem State.reqs_of_rest : t.reqs = s.reqs := by
  change t.rest.reqs = s.rest.reqs
  rw [h]

theorem State.memWrs_of_rest : t.memWrs = s.memWrs := by
  change t.rest.memWrs = s.rest.memWrs
  rw [h]

theorem State.class2_of_rest : t.class2 = s.class2 := by
  change t.rest.class2 = s.rest.class2
  rw [h]

end

/-- A row of a page that the context does not own is not written; the core that sent it counts it (R186). -/
theorem State.writeMemRow_denied {s : State} {region off addr : Nat} {ctx : Option Nat} {p : NetPkt} (hhome : homeOf addr = .dram region off)
    (hok : s.pageOk region off ctx p.fabric = false) (e : Entry) :
    ∃ t, s.writeMemRow p ctx addr e = (t, false) ∧ t.rest = (s.tick (mcPg (mcOf region off) + 0x104) 1).rest := by
  have hok' : (s.tick (mcPg (mcOf region off) + 0x104) 1).pageOk region off ctx p.fabric = false := hok
  simp only [State.writeMemRow, hhome, hok', Bool.false_eq_true, ↓reduceIte]
  refine ⟨_, rfl, ?_⟩
  split
  · exact State.bump_rest ..
  · rfl

section
variable {s : State} {r : RowReq} {w : MemWr} {row : Row} {region off : Nat} (hr : r.write = some (some row)) (hw : s.memWrs = [w])
  (hid : w.id = r.xfer) (hmore : w.done.length + 1 < w.pkt.pkt.rows) (hhome : homeOf r.addr = .dram region off)
include hr hw hid hmore hhome

/-- The row of a MEM_WRITE whose page its context owns is written (R183, R186). -/
theorem State.serveRow_writes (hok : s.pageOk region off r.ctx w.pkt.fabric = true) (cyc : Nat) :
    (s.serveRow r region off 0 cyc).mem = (s.setMemRow (region * 2 ^ 34 + off) row).mem ∧ (s.serveRow r region off 0 cyc).reqs = s.reqs
      ∧ (s.serveRow r region off 0 cyc).class2 = s.class2 := by
  have hfind : s.memWrs.find? (fun w => decide (w.id = r.xfer)) = some w := by simp [hw, hid]
  have hadm : s.rowAdmitted w.pkt r.ctx r.addr = true := by simp only [State.rowAdmitted, hhome, hok]
  have hok' : (s.tick (mcPg (mcOf region off) + 0x104) 1).pageOk region off r.ctx w.pkt.fabric = true := hok
  have hserve : s.serveRow r region off 0 cyc
      = ((s.tick (mcPg (mcOf region off) + 0x104) 1).dramWrite region off row).writeServed r.xfer r.idx true true := by
    simp only [State.serveRow, hr, hfind, hadm, ite_self, State.linkFault_zero, State.writeMemRow, hhome, hok', ↓reduceIte]
  have hmem := (s.tick (mcPg (mcOf region off) + 0x104) 1).dramWrite_mem region off row
  obtain ⟨hw', hreqs, hclass⟩ := (s.tick (mcPg (mcOf region off) + 0x104) 1).dramWrite_queues region off row
  obtain ⟨hm, hq, hc⟩ := State.writeServed_waits (hw'.trans hw) hid hmore r.idx true true
  rw [hserve]
  exact ⟨hm.trans (hmem.trans (State.setMemRow_tick ..)), hq.trans hreqs, hc.trans hclass⟩

/-- The row of a MEM_WRITE whose page its context does not own is not written (R183, R186). -/
theorem State.serveRow_refuses (hok : s.pageOk region off r.ctx w.pkt.fabric = false) (cyc : Nat) :
    (s.serveRow r region off 0 cyc).mem = s.mem ∧ (s.serveRow r region off 0 cyc).reqs = s.reqs ∧ (s.serveRow r region off 0 cyc).class2 = s.class2
        := by
  have hfind : s.memWrs.find? (fun w => decide (w.id = r.xfer)) = some w := by simp [hw, hid]
  have hadm : s.rowAdmitted w.pkt r.ctx r.addr = false := by simp only [State.rowAdmitted, hhome, hok]
  obtain ⟨t, hwr, hrest⟩ := State.writeMemRow_denied hhome hok (some row)
  have hserve : s.serveRow r region off 0 cyc = t.writeServed r.xfer r.idx false false := by
    simp only [State.serveRow, hr, hfind, hadm, Bool.false_eq_true, ↓reduceIte, hwr]
  obtain ⟨hm, hq, hc⟩ := State.writeServed_waits ((State.memWrs_of_rest hrest).trans hw) hid hmore r.idx false false
  rw [hserve]
  exact ⟨hm.trans (State.mem_of_rest hrest :), hq.trans (State.reqs_of_rest hrest :), hc.trans (State.class2_of_rest hrest :)⟩

end

/-- Settles O19. -/
theorem memWriteWritesItsRows : Obligations.MemWriteWritesItsRows := by
  refine ⟨?_, ?_, ?_⟩
  · intro n waited t0 region off p ctx s s2 harr hheld hflow hctx hrows hvoid hmask ha hhome
    obtain ⟨fl, l, hexec⟩ := exec_memWrite_one harr hheld hflow hctx hrows hvoid hmask ha hhome waited
    exact ⟨_, _, _, hexec, rfl, rfl, rfl, rfl, rfl, rfl, rfl, rfl, rfl, rfl⟩
  · intro mc n served t0 region off r row w s hmc hheld hreq hpick ha hhome hr hw hid hmore hclass
    have haddr : r.addr = region * 2 ^ 34 + off := by
      obtain ⟨h, _, _⟩ := homeOf_dram hhome
      rwa [Nat.mod_eq_of_lt ha] at h
    have hexec := exec_mcRequest_served (served := served) hmc hheld hreq hpick hhome
    generalize hs1 : (s.mcTake mc (s.gen.base + 16 * t0) r).peak (mcPg mc + 0x10C) served = s1 at hexec
    have hregs : s1.regs = s.regs := hs1 ▸ rfl
    have hmem1 : s1.mem = s.mem := hs1 ▸ rfl
    have hreqs : s1.reqs = (s.mcTake mc (s.gen.base + 16 * t0) r).reqs := hs1 ▸ rfl
    have hw1 : s1.memWrs = [w] := hs1 ▸ hw
    have hclass1 : ∀ x ∈ s1.class2, x.1 ≠ mc := hs1 ▸ hclass
    cases hok : s.pageOk region off r.ctx w.pkt.fabric with
    | true =>
      obtain ⟨hmem, hq, hc⟩ := State.serveRow_writes hr hw1 hid hmore hhome ((State.pageOk_congr hregs ..).trans hok) (tclkCycle t0)
      refine ⟨_, hexec (hc.symm ▸ hclass1), hq.trans hreqs, fun _ => ⟨?_, fun b hb => ?_⟩, fun h => absurd h (by decide)⟩
      · rw [State.memRow_of_mem hmem, haddr, State.memRow_setMemRow]
      · rw [State.memByte_of_mem hmem, State.memByte_setMemRow_other _ _ (by omega), State.memByte_of_mem hmem1]
    | false =>
      obtain ⟨hmem, hq, hc⟩ := State.serveRow_refuses hr hw1 hid hmore hhome ((State.pageOk_congr hregs ..).trans hok) (tclkCycle t0)
      exact ⟨_, hexec (hc.symm ▸ hclass1), hq.trans hreqs, fun h => absurd h (by decide), fun _ b => State.memByte_of_mem (hmem.trans hmem1) b⟩
  · intro n waited t0 p s harr
    obtain ⟨t, hexec, hkept⟩ := exec_memWrite_keeps harr waited t0
    exact ⟨t, hexec, State.mem_of_kept hkept⟩

end Sys2Proof.Machine

/-! Rows read by a controller and by a slice (R151, R186, R189, R201, R346). -/

namespace Sys2Proof.Machine

/-! ### Rows read without errors (R151, R186, R189) -/

theorem tbl_get_nil {β : Type} (d : β) (k : Nat) : Tbl.get d [] k = d := rfl

theorem popBits_zero (n : Nat) : popBits n 0 = 0 := by
  induction n with
  | zero => rfl
  | succ n ih => simp [popBits, ih]

theorem dramClass_zero : dramClass 0 = 0 := by
  have h := popBits_zero 528
  unfold dramClass
  generalize popBits 528 0 = n at h ⊢
  subst h
  rfl

theorem eccClass_zero : eccClass 0 = 0 := by
  have h := popBits_zero 80
  unfold eccClass
  generalize popBits 80 0 = n at h ⊢
  subst h
  rfl

theorem upWord_zero (w : Nat) : upWord 0 w = 0 := by
  have h : (0 : BitVec 1152).toNat = 0 := BitVec.toNat_zero
  rw [upWord, h, Nat.zero_div, Nat.zero_mod]

/-- A burst without upsets reads as it is (R193). -/
theorem State.burst_clean {s : State} (h : s.dramUpset = []) (region off cyc : Nat) (patrol : Bool) :
    s.burst region off cyc patrol = (0, none, s) := by
  have hclass (k : Nat) : dramClass (Tbl.get 0 s.dramUpset k).toNat = 0 := by
    have hmask : Tbl.get 0 s.dramUpset k = 0 := by rw [h, tbl_get_nil]
    rw [hmask]
    exact (congrArg dramClass BitVec.toNat_zero).trans dramClass_zero
  unfold State.burst
  simp only [hclass]

theorem State.dramRead_clean {s : State} (h : s.dramUpset = []) (region off cyc : Nat) :
    s.dramRead region off cyc = (s.memRow (region * 2 ^ 34 + off), none, s) := by
  simp only [State.dramRead, State.burst_clean h, Nat.zero_mul, Nat.add_zero]
  exact Prod.ext (BitVec.xor_zero) rfl

theorem State.readBrand_clean {s : State} (h : s.dramUpset = []) (k cyc : Nat) : (s.readBrand k cyc 0).2 = s := by
  unfold State.readBrand
  extract_lets n region wordOff validOff
  rw [State.burst_clean h]
  dsimp only
  rw [State.burst_clean h]
  rfl

/-- The brand of a row without upsets is read without a report (R287). -/
theorem State.storedBrand_clean {s : State} (h : s.dramUpset = []) (addr cyc : Nat) : (s.storedBrand addr cyc 0).2 = s := by
  simp only [State.storedBrand]
  split
  · split
    · exact State.readBrand_clean h ..
    · rfl
  · rfl
  · rfl

theorem State.storedBrand_slice {s : State} {addr sl row : Nat} (h : homeOf addr = .slice sl row) (cyc err : Nat) :
    (s.storedBrand addr cyc err).2 = s := by
  simp only [State.storedBrand, h]

theorem State.sliceRead_clean {s : State} (h : s.sliceUpset = []) (n row cyc : Nat) :
    s.sliceRead n row cyc = (Tbl.get 0 s.slices (n * 4096 + row), s) := by
  have hmask (k : Nat) : Tbl.get 0 s.sliceUpset k = 0 := by rw [h]; rfl
  simp only [State.sliceRead, hmask, upWord_zero, eccClass_zero, ↓reduceIte]
  refine Prod.ext ?_ rfl
  simp [upData]

theorem State.xfers_of_rest {s t : State} (h : t.rest = s.rest) : t.xfers = s.xfers := by
  change t.rest.xfers = s.rest.xfers
  rw [h]

/-- A state whose transfers are other ones. -/
def State.withXfers (s : State) (l : List Xfer) : State := { s with xfers := l }

/-- A row of a transfer comes in while others are still to come (R189). -/
theorem State.rowDone_waits {s : State} {x : Xfer} {id : Nat} (hx : s.xfers = [x]) (hid : x.id = id) (hmore : x.got.length + 1 < x.rows) (idx : Nat)
    (e : Entry) (st : Option (BitVec 64)) : s.rowDone id idx e st = s.withXfers [{ x with got := x.got ++ [(idx, e, st)] }] := by
  have hfind : s.xfers.find? (fun x => decide (x.id = id)) = some x := by simp [hx, hid]
  have hlen : (x.got ++ [(idx, e, st)]).length ≠ x.rows := by simp; omega
  simp only [State.rowDone, hfind]
  rw [if_neg hlen, hx, List.map_cons, List.map_nil, if_pos hid]
  rfl

/-- The brand that comes with a row changes nothing of its transfer but its brands. -/
theorem State.rowBrand_one {s : State} {x : Xfer} {r : RowReq} (hx : s.xfers = [x]) (b : Option Word) :
    ∃ l, s.rowBrand r b = s.withXfers [{ x with brands := l }] := by
  cases b with
  | none => 
    refine ⟨x.brands, ?_⟩
    simp only [State.rowBrand, State.withXfers, ← hx]
  | some w =>
    simp only [State.rowBrand, hx, List.map_cons, List.map_nil]
    split
    · exact ⟨_, rfl⟩
    · exact ⟨x.brands, rfl⟩

section
variable {s : State} {r : RowReq} {x : Xfer} {region off : Nat} (hx : s.xfers = [x]) (hid : x.id = r.xfer) (hmore : x.got.length + 1 < x.rows)
include hx hid hmore

/-- A row comes back with what memory holds of it. -/
theorem State.rowDone_brand (b : Option Word) (e : Entry) : 
    ∃ l, (s.rowBrand r b).rowDone r.xfer r.idx e none = s.withXfers [{ x with brands := l, got := x.got ++ [(r.idx, e, none)] }] := by
  obtain ⟨l, hl⟩ := State.rowBrand_one (r := r) hx b
  refine ⟨l, ?_⟩
  rw [hl, State.rowDone_waits (x := { x with brands := l }) rfl hid hmore]
  rfl

/-- A row that is denied comes back void; a core that asked counts it in FEED_DENY (R186). -/
theorem State.rowDenied_waits : ∃ t : State, t.rest = s.rest ∧ s.rowDenied r = t.withXfers [{ x with got := x.got ++ [(r.idx, none, none)] }]
    ∧ ∀ gp, r.core = some gp → t.rf (corePg gp + 0x700) 31 0 = min (s.rf (corePg gp + 0x700) 31 0 + 1) (2 ^ 32 - 1) := by
  cases hc : r.core with
  | none =>
    refine ⟨s, rfl, ?_, fun _ h => by cases h⟩
    rw [State.rowDenied, hc]
    exact State.rowDone_waits hx hid hmore ..
  | some gp =>
    have hrest := s.bump_rest (corePg gp + 0x700) 31 0 1
    refine ⟨s.bump (corePg gp + 0x700) 31 0 1, hrest, ?_, fun g h => ?_⟩
    · rw [State.rowDenied, hc]
      exact State.rowDone_waits ((State.xfers_of_rest hrest).trans hx) hid hmore ..
    · cases h
      rw [State.rf_bump_same s (by decide)]

end

section
variable {s : State} {r : RowReq} {x : Xfer} {region off : Nat} (hx : s.xfers = [x]) (hid : x.id = r.xfer) (hmore : x.got.length + 1 < x.rows)
  (hr : r.write = none)
include hx hid hmore hr

theorem State.serveRow_reads (hclean : s.dramUpset = []) (hok : s.pageOk region off r.ctx r.fabric = true) (cyc : Nat) :
    ∃ l, s.serveRow r region off 0 cyc = (s.tick (mcPg (mcOf region off) + 0x104) 1).withXfers
      [{ x with brands := l, got := x.got ++ [(r.idx, some (s.memRow (region * 2 ^ 34 + off)), none)] }] := by
  have hok' : (s.tick (mcPg (mcOf region off) + 0x104) 1).pageOk region off r.ctx r.fabric = true := hok
  have hclean' : (s.tick (mcPg (mcOf region off) + 0x104) 1).dramUpset = [] := hclean
  obtain ⟨b, hb⟩ : ∃ b, (s.tick (mcPg (mcOf region off) + 0x104) 1).storedBrand r.addr cyc 0 = (b, s.tick (mcPg (mcOf region off) + 0x104) 1) :=
    ⟨_, Prod.ext rfl (State.storedBrand_clean hclean' ..)⟩
  obtain ⟨l,
      hl⟩ := State.rowDone_brand (s := s.tick (mcPg (mcOf region off) + 0x104) 1) (r := r) hx hid hmore b (some (s.memRow (region * 2 ^ 34 + off)))
  have hmem : (s.tick (mcPg (mcOf region off) + 0x104) 1).memRow (region * 2 ^ 34 + off) = s.memRow (region * 2 ^ 34 + off) := State.memRow_of_mem
      rfl _
  refine ⟨l, ?_⟩
  rw [← hl, ← hmem]
  simp only [State.serveRow, hr, hok', State.dramRead_clean hclean', ite_self, State.linkFault_zero, hb, Nat.zero_sub, ↓reduceIte]

end

theorem State.serveRow_denied {s : State} {r : RowReq} {region off : Nat} (hr : r.write = none) (hok : s.pageOk region off r.ctx r.fabric = false)
    (cyc : Nat) :
    s.serveRow r region off 0 cyc = (s.tick (mcPg (mcOf region off) + 0x104) 1).rowDenied r := by
  have hok' : (s.tick (mcPg (mcOf region off) + 0x104) 1).pageOk region off r.ctx r.fabric = false := hok
  simp only [State.serveRow, hr, hok', Bool.false_eq_true, ↓reduceIte]

theorem State.slices_of_rest {s t : State} (h : t.rest = s.rest) : t.slices = s.slices := by
  change t.rest.slices = s.rest.slices
  rw [h]

/-- A request that the controller does not serve next waits (R188). -/
theorem exec_mcRequest_waits {mc n served err t0 : Nat} {r : RowReq} {s : State} (hmc : mc < 128) (herr : err < 10)
    (hreq : s.nthReq (reqOfMc mc) n = some r) (hheld : s.memHeld = false) (hpick : s.mcPick mc (s.gen.base + 16 * t0) ≠ some r) :
    exec (.mcRequest mc n served err t0) s = .next s := by
  have hwf : (Instr.mcRequest mc n served err t0).wf = true := Bool.and_eq_true_iff.mpr ⟨decide_eq_true hmc, decide_eq_true herr⟩
  refine (if_pos hwf).trans ?_
  simp only [hreq, hheld, Bool.false_eq_true, ↓reduceIte]
  exact if_pos hpick

/-- What a request is that comes to a controller that a reset holds (R346). -/
def State.requestLost (s : State) (r : RowReq) : State :=
  { s.rstDrop with reqs := s.reqs.erase r, xfers := s.xfers.filter (fun x => r.write.isSome || decide (x.id ≠ r.xfer)),
                   memWrs := s.memWrs.filter (fun w => r.write.isNone || decide (w.id ≠ r.xfer)) }

theorem exec_mcRequest_held {mc n served err t0 : Nat} {r : RowReq} {s : State} (hmc : mc < 128) (herr : err < 10)
    (hreq : s.nthReq (reqOfMc mc) n = some r) (hheld : s.memHeld = true) : exec (.mcRequest mc n served err t0) s = .next (s.requestLost r) := by
  have hwf : (Instr.mcRequest mc n served err t0).wf = true := Bool.and_eq_true_iff.mpr ⟨decide_eq_true hmc, decide_eq_true herr⟩
  refine (if_pos hwf).trans ?_
  simp only [hreq]
  exact if_pos hheld

theorem State.rstDrop_rest (s : State) : s.rstDrop.rest = s.rest := State.bump_rest ..

theorem State.rstDrop_count (s : State) : s.rstDrop.rf (modPg 4 0 + 0x110) 31 0 = min (s.rf (modPg 4 0 + 0x110) 31 0 + 1) (2 ^ 32 - 1) := by
  rw [State.rstDrop, State.rf_bump_same s (by decide)]

section
variable {n waited t0 sl row : Nat} {r : RowReq} {s : State} (hreq : s.nthReq reqOfSlice n = some r) (hhome : homeOf r.addr = .slice sl row)
include hreq hhome

/-- A row for a core whose port has been shut is discarded (R203). -/
theorem exec_sliceAccess_shut (hshut : r.core.any s.portShut = true) : exec (.sliceAccess n waited 0 t0) s
    = .next { s with reqs := s.reqs.erase r, xfers := s.xfers.filter (fun x => decide (x.id ≠ r.xfer)) } := by
  have hwf : (Instr.sliceAccess n waited 0 t0).wf = true := rfl
  change execSliceAccess n waited 0 t0 s = _
  rw [execSliceAccess, inRange, if_pos hwf]
  simp only [hreq, hhome]
  exact if_pos hshut

section
variable (hshut : r.core.any s.portShut = false) (hheld : s.held.contains (sl / 8) = false)
include hshut hheld

/-- A row whose port is not granted waits (R201). -/
theorem exec_sliceAccess_waits (hwon : s.xbarWins (sl / 8) (10 + sl % 8) (coreIn (sl / 8) r.core) (s.slicePktOut (sl / 8)) = false) :
    exec (.sliceAccess n waited 0 t0) s = .next s := by
  have hwf : (Instr.sliceAccess n waited 0 t0).wf = true := rfl
  change execSliceAccess n waited 0 t0 s = _
  rw [execSliceAccess, inRange, if_pos hwf]
  simp only [hreq, hhome]
  refine (if_neg (ne_true_of_eq_false hshut)).trans ((if_neg (ne_true_of_eq_false hheld)).trans ?_)
  exact if_pos (by rw [hwon]; rfl)

/-- A state in which the port has granted a row its access: the row is asked for no more (R201). -/
def State.sliceGranted (s : State) (r : RowReq) (sl waited : Nat) : State :=
  ({ s with reqs := s.reqs.erase r }.xbarGrant (sl / 8) (10 + sl % 8) (coreIn (sl / 8) r.core)).tick (xbarPg (sl / 8) + 0x108) waited

theorem exec_sliceAccess_denied (hwon : s.xbarWins (sl / 8) (10 + sl % 8) (coreIn (sl / 8) r.core) (s.slicePktOut (sl / 8)) = true)
    (hok : s.sliceOk sl r.ctx = false) : exec (.sliceAccess n waited 0 t0) s
      = .next (((s.sliceGranted r sl waited).bump (slicePg sl + 0x104) 31 0 1).rowDone r.xfer r.idx none none) := by
  have hwf : (Instr.sliceAccess n waited 0 t0).wf = true := rfl
  change execSliceAccess n waited 0 t0 s = _
  rw [execSliceAccess, inRange, if_pos hwf]
  simp only [hreq, hhome]
  refine (if_neg (ne_true_of_eq_false hshut)).trans ((if_neg (ne_true_of_eq_false hheld)).trans ?_)
  rw [if_neg (by rw [hwon]; exact Bool.false_ne_true)]
  exact if_neg (ne_true_of_eq_false (show (s.sliceGranted r sl waited).sliceOk sl r.ctx = false from hok))

theorem exec_sliceAccess_serves (hwon : s.xbarWins (sl / 8) (10 + sl % 8) (coreIn (sl / 8) r.core) (s.slicePktOut (sl / 8)) = true)
    (hok : s.sliceOk sl r.ctx = true) (hclean : s.sliceUpset = []) : ∃ b, exec (.sliceAccess n waited 0 t0) s
      = .next (((s.sliceGranted r sl waited).rowBrand r b).rowDone r.xfer r.idx (some (Tbl.get 0 s.slices (sl * 4096 + row))) none) := by
  have hmask (k : Nat) : Tbl.get 0 s.sliceUpset k = 0 := by rw [hclean, tbl_get_nil]
  have hbad : (List.range 16).find? (fun w => decide (eccClass (upWord (Tbl.get 0 (s.sliceGranted r sl waited).sliceUpset (sl * 4096 + row)) w) = 2))
      = none := List.find?_eq_none.mpr fun w _ => by
    rw [show (s.sliceGranted r sl waited).sliceUpset = s.sliceUpset from rfl, hmask, upWord_zero, eccClass_zero]
    decide
  have hbrand := State.storedBrand_slice (s := s.sliceGranted r sl waited) hhome (tclkCycle t0) 0
  have hread := State.sliceRead_clean (s := s.sliceGranted r sl waited) hclean sl row (tclkCycle t0)
  have hok' : (s.sliceGranted r sl waited).sliceOk sl r.ctx = true := hok
  have hwf : (Instr.sliceAccess n waited 0 t0).wf = true := rfl
  refine ⟨((s.sliceGranted r sl waited).storedBrand r.addr (tclkCycle t0) 0).1, ?_⟩
  change execSliceAccess n waited 0 t0 s = _
  rw [execSliceAccess, inRange, if_pos hwf]
  simp only [hreq, hhome]
  refine (if_neg (ne_true_of_eq_false hshut)).trans ((if_neg (ne_true_of_eq_false hheld)).trans ?_)
  rw [if_neg (by rw [hwon]; exact Bool.false_ne_true)]
  generalize hgranted : State.tick (State.xbarGrant _ (sl / 8) _ _) _ _ = granted
  obtain rfl : s.sliceGranted r sl waited = granted := hgranted
  rw [if_neg (by decide : ¬ 0 = 1), if_neg (by decide : ¬ 0 = 2), if_pos hok']
  simp only [hbad, hbrand, hread, Option.map_none]
  rfl

end

end

/-- Settles O20. -/
theorem unitsServeRows : Obligations.UnitsServeRows := by
  refine ⟨?_, ?_, ?_⟩
  · intro mc n served t0 region off r x s hmc hheld hreq hpick hr hclass hhome hclean hx hid hmore
    have hexec := exec_mcRequest_served (served := served) hmc hheld hreq hpick hhome
    generalize hs1 : (s.mcTake mc (s.gen.base + 16 * t0) r).peak (mcPg mc + 0x10C) served = s1 at hexec
    have hregs : s1.regs = s.regs := hs1 ▸ rfl
    have hmem1 : s1.mem = s.mem := hs1 ▸ rfl
    have hreqs : s1.reqs = (s.mcTake mc (s.gen.base + 16 * t0) r).reqs := hs1 ▸ rfl
    have hx1 : s1.xfers = [x] := hs1 ▸ hx
    have hclass1 : ∀ x ∈ s1.class2, x.1 ≠ mc := hs1 ▸ hclass
    have hclean1 : s1.dramUpset = [] := hs1 ▸ hclean
    cases hok : s.pageOk region off r.ctx r.fabric with
    | true =>
      obtain ⟨l, hserve⟩ := State.serveRow_reads hx1 hid hmore hr hclean1 ((State.pageOk_congr hregs ..).trans hok) (tclkCycle t0)
      rw [hserve, State.memRow_of_mem hmem1] at hexec
      exact ⟨_, _, hexec hclass1, hreqs, rfl, rfl, rfl, State.memByte_of_mem hmem1, fun _ => ⟨rfl, hregs⟩, fun h => absurd h (by decide)⟩
    | false =>
      have hserve := State.serveRow_denied hr ((State.pageOk_congr hregs ..).trans hok) (tclkCycle t0)
      obtain ⟨u, hrest, hdenied, hcount⟩ := State.rowDenied_waits (s := s1.tick (mcPg (mcOf region off) + 0x104) 1) (r := r) hx1 hid hmore
      rw [hserve, hdenied] at hexec
      refine ⟨_, _, hexec ((State.class2_of_rest hrest).symm ▸ hclass1), (State.reqs_of_rest hrest).trans hreqs, rfl, rfl, rfl,
        State.memByte_of_mem ((State.mem_of_rest hrest).trans hmem1), fun h => absurd h (by decide), fun _ => ⟨rfl, fun gp hgp => ?_⟩⟩
      exact (hcount gp hgp).trans (by rw [State.rf_congr (s := s1.tick _ _) (t := s) hregs])
  · intro mc n served err t0 r s hmc herr hreq
    refine ⟨fun hheld hpick => exec_mcRequest_waits hmc herr hreq hheld hpick, fun hheld => ?_⟩
    exact ⟨_, exec_mcRequest_held hmc herr hreq hheld, rfl, (State.mem_of_rest s.rstDrop_rest :), s.rstDrop_count⟩
  · intro n waited t0 sl row r x s hreq hhome won
    refine ⟨fun hshut => ?_, fun hshut hheld hwon => exec_sliceAccess_waits hreq hhome hshut hheld hwon,
        fun hshut hheld hwon hclean hx hid hmore => ?_⟩
    · exact ⟨_, exec_sliceAccess_shut hreq hhome hshut, rfl, rfl, rfl, rfl, fun y hy => by simpa using (List.mem_filter.mp hy).2⟩
    · cases hok : s.sliceOk sl r.ctx with
      | true =>
        obtain ⟨b, hexec⟩ := exec_sliceAccess_serves (waited := waited) (t0 := t0) hreq hhome hshut hheld hwon hok hclean
        obtain ⟨l, hl⟩ := State.rowDone_brand (s := s.sliceGranted r sl waited) (r := r) hx hid hmore b (some (Tbl.get 0 s.slices (sl * 4096 + row)))
        rw [hl] at hexec
        exact ⟨_, _, hexec, rfl, rfl, rfl, rfl, rfl, rfl, fun _ => ⟨rfl, rfl⟩, fun h => absurd h (by decide)⟩
      | false =>
        have hexec := exec_sliceAccess_denied (waited := waited) (t0 := t0) hreq hhome hshut hheld hwon hok
        have hrest := (s.sliceGranted r sl waited).bump_rest (slicePg sl + 0x104) 31 0 1
        rw [State.rowDone_waits ((State.xfers_of_rest hrest).trans hx) hid hmore] at hexec
        refine ⟨_, _, hexec, State.reqs_of_rest hrest, (State.slices_of_rest hrest :), (State.mem_of_rest hrest :), rfl, rfl, rfl,
          fun h => absurd h (by decide), fun _ => ⟨rfl, ?_⟩⟩
        exact State.rf_bump_same (s.sliceGranted r sl waited) (by decide)

end Sys2Proof.Machine

/-! Upkeep of module memory (R179, R187, R188, R191, R193, R195), and the registers that the report of an error leaves. -/

namespace Sys2Proof.Machine

/-! ### Registers that the report of an error does not touch -/

theorem State.rd_ite (c : Prop) [Decidable c] (s t : State) (a : Nat) : (if c then s else t).rd a = if c then s.rd a else t.rd a :=
  apply_ite (fun t : State => t.rd a) ..

theorem State.rd_wf_other (s : State) {a b : Nat} (hi lo v : Nat) (h : b ≠ a) : (s.wf a hi lo v).rd b = s.rd b := by
  rw [State.rd_wf, if_neg h]

theorem State.rd_wr64_other (s : State) {a b : Nat} (v : Nat) (h : b ≠ a) (h4 : b ≠ a + 4) : (s.wr64 a v).rd b = s.rd b := by
  rw [State.wr64, State.rd_wr_other _ _ h4, State.rd_wr_other _ _ h]

theorem State.rd_withCap (s : State) (c : Tbl Capture) (a : Nat) : { s with cap := c }.rd a = s.rd a := id rfl

theorem State.rd_emit_eq (s : State) (r : Rec) (a : Nat) : (s.emit r).rd a = s.rd a := id rfl

theorem State.rd_withWin (s : State) (w : Tbl WinCnt) (a : Nat) : { s with win := w }.rd a = s.rd a := id rfl

theorem State.rd_withFlash (s : State) (f : Flash) (a : Nat) : { s with flash := f }.rd a = s.rd a := id rfl

section
variable {a pg : Nat} (h : ∀ o, o < 0x100 → a ≠ pg + o)
include h

theorem State.rd_errUp_other (s : State) (ue : Bool) : (s.errUp pg ue).rd a = s.rd a := by
  have hcount : (s.bump (pg + if ue = true then 0x24 else 0x20) 31 0 1).rd a = s.rd a := State.rd_bump_other _ (h _ (by split <;> decide))
  simp only [State.errUp, State.rd_ite, State.rd_wf_other _ _ _ _ (h 0x18 (by decide)), hcount, ite_self]

theorem State.rd_countErr_other (s : State) (bitNo sev : Nat) : (s.countErr pg bitNo sev).rd a = s.rd a := by
  simp only [State.countErr, State.rd_ite, State.rd_errUp_other h, State.rd_wf_other _ _ _ _ (h 0x18 (by decide)), ite_self]

theorem State.rd_writeCapture_other (s : State) (bitNo sev cls cyc : Nat) (synd : BitVec 64) :
    (s.writeCapture pg bitNo sev cls cyc synd).rd a = s.rd a := by
  simp only [State.writeCapture, State.rd_withCap, State.rd_wr64_other _ _ (h 0x38 (by decide)) (h (0x38 + 4) (by decide)),
    State.rd_wr_other _ _ (h 0x28 (by decide)), State.rd_wr_other _ _ (h 0x30 (by decide)), State.rd_wr_other _ _ (h 0x34 (by decide))]

theorem State.rd_capture_other (s : State) (bitNo sev cls cyc : Nat) (synd : BitVec 64) : (s.capture pg bitNo sev cls cyc synd).rd a = s.rd a := by
  fun_cases State.capture s pg bitNo sev cls cyc synd <;> simp only [State.rd_writeCapture_other h]

end

theorem State.rd_thrRec (s : State) (pg : Nat) (ue : Bool) (count cyc a : Nat) : (s.thrRec pg ue count cyc).rd a = s.rd a := by
  fun_cases State.thrRec s pg ue count cyc <;> simp only [State.rd_emit_eq]

theorem State.rd_chipRec (s : State) (pg sev cls cyc : Nat) (synd : BitVec 64) (ctx : Option Nat) (a : Nat) :
    (s.chipRec pg sev cls cyc synd ctx).rd a = s.rd a := by
  fun_cases State.chipRec s pg sev cls cyc synd ctx <;> simp only [State.rd_emit_eq]

theorem State.rd_noteSlice (s : State) (src a : Nat) : (s.noteSlice src).rd a = s.rd a := State.rd_withFlash ..

section
variable {a : Nat} (hd : a ≠ modPg 9 0 + 0x110)
include hd

theorem State.rd_requestDrain_other (s : State) (cause region block src cyc : Nat) : (s.requestDrain cause region block src cyc).rd a = s.rd a := by
  simp only [State.requestDrain, State.rd_ite, State.rd_chipRec, State.rd_withFlash, State.rd_wf_other _ _ _ _ hd, State.rd_noteSlice, ite_self]

theorem State.rd_unitDrain_other (s : State) (pg cyc : Nat) : (s.unitDrain pg cyc).rd a = s.rd a := by
  fun_cases State.unitDrain s pg cyc <;> simp only [State.rd_requestDrain_other hd]

theorem State.rd_window_other (s : State) (pg sev cyc : Nat) : (s.window pg sev cyc).rd a = s.rd a := by
  simp only [State.window, State.rd_ite, State.rd_unitDrain_other hd, State.rd_thrRec, State.rd_withWin, ite_self]

variable {pg : Nat} (h : ∀ o, o < 0x100 → a ≠ pg + o)
include h

theorem State.rd_countWin_other (s : State) (bitNo sev cyc : Nat) : (s.countWin pg bitNo sev cyc).rd a = s.rd a := by
  simp only [State.countWin, State.rd_ite, State.rd_window_other hd, State.rd_countErr_other h, ite_self]

/-- An error of a unit changes registers of its own header, and DRAIN at most (R26, R326). -/
theorem State.rd_regionErr_other (s : State) (bitNo sev cls cyc : Nat) (synd : BitVec 64) :
    (s.regionErr pg bitNo sev cls cyc synd).rd a = s.rd a := by
  rw [State.regionErr, State.rd_countWin_other hd h, State.rd_capture_other h]

end

theorem State.rf_of_rd {s t : State} {a : Nat} (h : t.rd a = s.rd a) (hi lo : Nat) : t.rf a hi lo = s.rf a hi lo := by
  rw [State.rf, State.rf, h]

/-! ### Upkeep of memory (R179, R187, R188, R191, R193, R195) -/

theorem tbl_get_filter {β : Type} (d : β) (m : Tbl β) (f : Nat → Bool) (k : Nat) :
    Tbl.get d (m.filter (fun p => f p.1)) k = if f k = true then Tbl.get d m k else d := by
  induction m with
  | nil => simp
  | cons p m ih =>
    obtain ⟨j, v⟩ := p
    simp only [Tbl.get, List.filter_cons, Tbl.find?] at ih ⊢
    by_cases hj : j = k
    · subst hj
      cases hf : f j <;> simp [hf, Tbl.find?, ih]
    · cases hf : f j <;> simp [hj, Tbl.find?, ih]

theorem locOf_regionAddr {region blk unit page off : Nat} (hregion : region < 64) (hblk : blk < 16) (hunit : unit < 64) (hpage : page < 16)
    (hoff : off < 4096) : locOf (regionAddr region blk unit page off) = ⟨false, region, blk, unit, page, off⟩ := by
  have hmodule : ¬ regionAddr region blk unit page off / 2 ^ 32 % 2 = 1 := by
    unfold regionAddr
    omega
  rw [locOf, if_neg hmodule]
  unfold regionAddr
  simp only [Loc.mk.injEq, true_and]
  omega

/-- A state in which a burst has been written back (R193). -/
def State.wroteBack (s : State) (mc key : Nat) : State :=
  { s with ceBursts := Tbl.set [] s.ceBursts mc ((Tbl.get [] s.ceBursts mc).filter (· ≠ key)), dramUpset := Tbl.set 0 s.dramUpset key 0 }

theorem State.dramUpset_wroteBack (s : State) (mc key : Nat) : Tbl.get 0 (s.wroteBack mc key).dramUpset key = 0 := by
  simp only [State.wroteBack, Tbl.get_set_same]

theorem State.ceBursts_wroteBack (s : State) (mc key : Nat) :
    Tbl.get [] (s.wroteBack mc key).ceBursts mc = (Tbl.get [] s.ceBursts mc).filter (· ≠ key) := Tbl.get_set_same ..

/-- A channel that is busy has no slot for its upkeep (R188). -/
theorem State.mcIdle_of_busy {s : State} {mc : Nat} (h : s.mcBusy mc = true) : s.mcIdle mc = false := by
  simp [State.mcIdle, h]

section
variable {mc : Nat} {s : State} (hmc : mc < 128)
include hmc

theorem exec_eccWriteback_idle {key : Nat} (hburst : s.nextBurst mc = some key) (hidle : s.mcIdle mc = true)
    (hclass : dramClass (Tbl.get 0 s.dramUpset key).toNat = 1) : exec (.eccWriteback mc) s = .next (s.wroteBack mc key) := by
  refine (if_pos (decide_eq_true hmc)).trans ?_
  simp only [hburst, hidle, hclass, Bool.not_true, Bool.false_eq_true, ↓reduceIte, State.wroteBack]

theorem exec_eccWriteback_busy (hbusy : s.mcBusy mc = true) : exec (.eccWriteback mc) s = .next s := by
  refine (if_pos (decide_eq_true hmc)).trans ?_
  split
  · rfl
  · exact if_pos (by rw [State.mcIdle_of_busy hbusy]; rfl)

theorem exec_refresh {rate bank : Nat} (hrate : rate < 8) (hbank : bank < 32) : exec (.refresh mc rate bank) s
    = if s.pwrState = 3 then .next s
      else .next { s.peak (mcPg mc + 0x100) (rate % 8) with openPages := Tbl.erase s.openPages (mc * 32 + bank) } := by
  have hwf : (Instr.refresh mc rate bank).wf = true := by simp [Instr.wf, hmc, hrate, hbank]
  exact if_pos hwf

end

theorem mcOf_patrol (mc addr : Nat) : mcOf (mc / 2) (offOf (mc % 2) addr) = mc := by
  unfold mcOf offOf
  omega

theorem State.nextBurst_none {s : State} {mc : Nat} (h : Tbl.get [] s.ceBursts mc = []) : s.nextBurst mc = none := by
  simp only [State.nextBurst, h]

theorem State.ceBursts_of_rest {s t : State} (h : t.rest = s.rest) : t.ceBursts = s.ceBursts := by
  change t.rest.ceBursts = s.rest.ceBursts
  rw [h]

theorem State.dramUpset_of_rest {s t : State} (h : t.rest = s.rest) : t.dramUpset = s.dramUpset := by
  change t.rest.dramUpset = s.rest.dramUpset
  rw [h]

theorem State.patrolAt_of_rest {s t : State} (h : t.rest = s.rest) : t.patrolAt = s.patrolAt := by
  change t.rest.patrolAt = s.rest.patrolAt
  rw [h]

/-- A state with one more burst of a channel to write back (R193). -/
def State.addBurst (s : State) (mc key : Nat) : State :=
  { s with ceBursts := Tbl.set [] s.ceBursts mc (Tbl.get [] s.ceBursts mc ++ [key]) }

/-- A burst read with a corrected error is reported and is to be written back (R193). -/
theorem State.burst_corrected {s : State} {region off : Nat}
    (h : dramClass (Tbl.get 0 s.dramUpset ((region * 2 ^ 34 + off) / 64)).toNat = 1) (cyc : Nat) (patrol : Bool) :
    ∃ t : State, t.rest = s.rest ∧ (s.burst region off cyc patrol).2.2 = t.addBurst (mcOf region off) ((region * 2 ^ 34 + off) / 64) := by
  generalize hkey : (region * 2 ^ 34 + off) / 64 = key at h
  unfold State.burst
  simp only [hkey, h]
  exact ⟨_, State.regionErr_rest .., rfl⟩

/-- A burst without upsets of its own reads as it is. -/
theorem State.burst_clear {s : State} {region off : Nat} (h : Tbl.get 0 s.dramUpset ((region * 2 ^ 34 + off) / 64) = 0) (cyc : Nat) (patrol : Bool) :
    (s.burst region off cyc patrol).2.2 = s := by
  generalize hkey : (region * 2 ^ 34 + off) / 64 = key at h
  have hclass : dramClass (Tbl.get 0 s.dramUpset key).toNat = 0 := by
    rw [h]
    exact (congrArg dramClass BitVec.toNat_zero).trans dramClass_zero
  unfold State.burst
  simp only [hkey, hclass]

/-- A patrol reads both bursts of its row, and without an error of the link nothing more (R195). -/
theorem State.patrol_next (u : State) (region off cyc : Nat) :
    (let (_, _, u) := u.burst region off cyc true
     let (_, _, u) := u.burst region (off + 64) cyc true
     let (_, _, u) := u.linkFault region off 0 cyc true 0 none
     Host.Outcome.next u : Host.Outcome State Fault Refusal) = .next ((u.burst region off cyc true).2.2.burst region (off + 64) cyc true).2.2 := by
  simp only [State.linkFault_zero]

section
variable {mc addr t0 : Nat} {s : State} (hmc : mc < 128) (haddr : addr < 2 ^ 33)
include hmc haddr

theorem exec_patrolScrub_busy (hbusy : s.mcBusy mc = true) : exec (.patrolScrub mc addr 0 t0) s = .next s := by
  have hwf : (Instr.patrolScrub mc addr 0 t0).wf = true :=
    Bool.and_eq_true_iff.mpr ⟨Bool.and_eq_true_iff.mpr ⟨decide_eq_true hmc, decide_eq_true haddr⟩, rfl⟩
  refine (if_pos hwf).trans (if_pos (.inr (.inr (.inl ?_))))
  rw [State.mcIdle_of_busy hbusy]
  rfl

/-- The state in which the patrol has moved on to its next row (R195). -/
def State.patrolled (s : State) (mc addr : Nat) : State := { s with patrolAt := Tbl.set 0 s.patrolAt mc (patrolNext addr) }

theorem exec_patrolScrub_reads (hat : addr = Tbl.get 0 s.patrolAt mc) (hheld : s.memHeld = false) (hon : s.rd (mcPg mc + 0x110) ≠ 0)
    (hidle : s.mcIdle mc = true) (hnone : Tbl.get [] s.ceBursts mc = []) : exec (.patrolScrub mc addr 0 t0) s
      = .next (((s.patrolled mc addr).burst (mc / 2) (offOf (mc % 2) addr) (tclkCycle t0) true).2.2.burst (mc / 2) (offOf (mc % 2) addr + 64)
          (tclkCycle t0) true).2.2 := by
  have hwf : (Instr.patrolScrub mc addr 0 t0).wf = true :=
    Bool.and_eq_true_iff.mpr ⟨Bool.and_eq_true_iff.mpr ⟨decide_eq_true hmc, decide_eq_true haddr⟩, rfl⟩
  refine (if_pos hwf).trans ((if_neg ?_).trans ?_)
  · rintro (h | h | h | h | h)
    · exact Bool.false_ne_true (hheld.symm.trans h)
    · exact hon h
    · exact absurd h (by rw [hidle]; decide)
    · exact absurd h (by rw [State.nextBurst_none hnone]; decide)
    · exact h hat
  · have h := (s.patrolled mc addr).patrol_next (mc / 2) (offOf (mc % 2) addr) (tclkCycle t0)
    simp only [State.patrolled] at h ⊢
    exact h

end

section
variable {region page : Nat} {s : State} (hregion : region < 64) (hpage : page < 7680)
include hregion hpage

theorem exec_clearingScrub_busy (hbusy : s.mcBusy (2 * region) = true) : exec (.clearingScrub region page) s = .next s := by
  have hwf : (Instr.clearingScrub region page).wf = true := by simp [Instr.wf, hregion, hpage]
  refine (if_pos hwf).trans (if_pos (.inr (.inr (.inr ?_))))
  simp [State.clearIdle, State.mcIdle_of_busy hbusy]

theorem exec_clearingScrub_clears (hstate : s.pageState region page = 2) (hlow : ∀ p, p < page → s.pageState region p ≠ 2)
    (hon : s.rd (rcPg region 0 + 0x114) ≠ 0) (hidle : s.clearIdle region = true) : ∃ v, exec (.clearingScrub region page) s
      = .next (((s.clearPage region page).freePage region page).wf (rcPg region 0 + 0x110) 12 0 v) := by
  have hwf : (Instr.clearingScrub region page).wf = true := by simp [Instr.wf, hregion, hpage]
  have hany : (List.range page).any (fun p => decide (s.pageState region p = 2)) = false := by
    simpa using hlow
  refine ⟨_, (if_pos hwf).trans ((if_neg ?_).trans rfl)⟩
  rintro (h | h | h | h)
  · exact h hstate
  · exact Bool.false_ne_true (hany.symm.trans h)
  · exact hon h
  · exact absurd h (by rw [hidle]; decide)

end

/-- Clearing a page zeroes its bytes and no others (R187). -/
theorem State.memByte_clearPage (s : State) (region page b : Nat) : (s.clearPage region page).memByte b
    = if region * 2 ^ 34 + page * 2 ^ 21 ≤ b ∧ b < region * 2 ^ 34 + page * 2 ^ 21 + 2 ^ 21 then 0 else s.memByte b := by
  refine (tbl_get_filter memDefault s.mem (fun k => !(decide (region * 2 ^ 34 + page * 2 ^ 21 ≤ k * 1)
    && decide (k * 1 < region * 2 ^ 34 + page * 2 ^ 21 + 2 ^ 21))) b).trans ?_
  rw [Nat.mul_one]
  by_cases hin : region * 2 ^ 34 + page * 2 ^ 21 ≤ b ∧ b < region * 2 ^ 34 + page * 2 ^ 21 + 2 ^ 21
  · rw [if_pos hin, decide_eq_true hin.1, decide_eq_true hin.2]
    rfl
  · rw [if_neg hin, ← Bool.decide_and, decide_eq_false hin]
    rfl

theorem State.rdByte_withRetirePend (s : State) (l : List (Nat × Nat)) (a : Nat) : { s with retirePend := l }.rdByte a = s.rdByte a := rfl

/-- A page that has been cleared is FREE, or RETIRED when a row of it has failed (R187, R195). -/
theorem State.freePage_entry (s : State) (region page : Nat) :
    (s.freePage region page).pageState region page = if s.retirePend.contains (region, page) then 3 else 0 := by
  unfold State.freePage State.pageState
  split
  · rw [State.rdByte_withRetirePend, State.setOwner_entry]
  · rw [State.setOwner_entry]

/-- The count of pages to clear is no owner entry (R184). -/
theorem State.pageState_wf (s : State) (region page hi lo v : Nat) :
    (s.wf (rcPg region 0 + 0x110) hi lo v).pageState region page = s.pageState region page := by
  have haddr : ownerAddr region page / 4 * 4 ≠ rcPg region 0 + 0x110 := by
    unfold ownerAddr rcPg regionAddr
    omega
  rw [State.pageState, State.pageState, State.rdByte, State.rdByte, State.rf_wf_other _ haddr]

/-- The ranks that report a multiplier above 2× after a report (R191). -/
def hotAfter (l : List (Nat × Nat)) (mc rank : Nat) (above : Bool) : List (Nat × Nat) :=
  if above then l.filter (· ≠ (mc, rank)) ++ [(mc, rank)] else l.filter (· ≠ (mc, rank))

theorem mem_hotAfter (l : List (Nat × Nat)) (mc rank : Nat) (above : Bool) :
    ((mc, rank) ∈ hotAfter l mc rank above ↔ above = true) ∧ ∀ d, d ≠ (mc, rank) → (d ∈ hotAfter l mc rank above ↔ d ∈ l) := by
  cases above with
  | true => exact ⟨by simp [hotAfter], fun d hd => by simp [hotAfter, hd]⟩
  | false => exact ⟨by simp [hotAfter], fun d hd => by simp [hotAfter, hd]⟩

/-- The state in which a report is kept for its rank (R191). -/
def State.hotNoted (s : State) (mc rank rate : Nat) (above : Bool) : State :=
  { s.peak (mcPg mc + 0x100) (rate % 8) with hotDevs := hotAfter s.hotDevs mc rank above }

theorem exec_hot {mc rank rate : Nat} (hmc : mc < 128) (hrank : rank < 2) (hrate : rate < 8) (t0 : Nat) (above : Bool) (s : State) :
    exec (.hot mc rank rate above t0) s
      = .next (if above = true ∧ (!s.hotDevs.any (fun d => decide (d.1 = mc))) = true
          then (s.hotNoted mc rank rate above).regionErr (mcPg mc) 4 0 0x7F (tclkCycle t0) 4 else s.hotNoted mc rank rate above) := by
  have hwf : (Instr.hot mc rank rate above t0).wf = true := by simp [Instr.wf, hmc, hrank, hrate]
  exact if_pos hwf

theorem State.hotDevs_of_rest {s t : State} (h : t.rest = s.rest) : t.hotDevs = s.hotDevs := by
  change t.rest.hotDevs = s.rest.hotDevs
  rw [h]

/-! ### MC_STAT.HOT at the seam (R191) -/

theorem mcStat_loc {mc : Nat} (hmc : mc < 128) : locOf (mcPg mc + 0x100) = ⟨false, mc / 2, 0xE, 1 + mc % 2, 0, 0x100⟩ := by
  have haddr : mcPg mc + 0x100 = regionAddr (mc / 2) 0xE (1 + mc % 2) 0 0x100 := by
    unfold mcPg regionAddr
    omega
  rw [haddr, locOf_regionAddr (by omega) (by decide) (by omega) (by decide) (by decide)]

theorem isMcStat_mcPg {mc : Nat} (hmc : mc < 128) : isMcStat (mcPg mc + 0x100) = true := by
  have hunit : mc % 2 = 0 ∨ mc % 2 = 1 := by omega
  rw [isMcStat, mcStat_loc hmc]
  rcases hunit with h | h <;> simp [h]

/-- HOT reads 0 from reset (R191). -/
theorem resetOf_mcStat {mc : Nat} (hmc : mc < 128) : fld (resetOf (mcPg mc + 0x100)) 29 29 = 0 := by
  have hunit : mc % 2 = 0 ∨ mc % 2 = 1 := by omega
  have hrow : rowOf (locOf (mcPg mc + 0x100)) = findRow mcRows 0x100 := by
    rw [mcStat_loc hmc]
    rcases hunit with h | h <;> simp [rowOf, pageRows, pastEnd, h]
  rw [resetOf, hrow]
  rfl

/-- What the seam shows of MC_STAT has HOT clear before the hot ranks are added. -/
theorem fld_mcStatSeam (sref : Bool) (v : Word) : fld (mcStatSeam sref v) 29 29 = 0 := by
  have hmask : (0x9FFFFFF8 : Nat).testBit 29 = false := by decide
  have hsref : (0x40000000 : Nat).testBit 29 = false := by decide
  have hbit : (mcStatSeam sref v).toNat.testBit 29 = false := by
    unfold mcStatSeam
    split <;> simp [hmask, hsref]
  refine Nat.eq_of_testBit_eq fun i => ?_
  rw [fld_testBit, Nat.zero_testBit]
  cases i with
  | zero => rw [hbit, Bool.and_false]
  | succ i => rw [decide_eq_false (by omega), Bool.false_and]

theorem mcPg_inj {mc mc' : Nat} (h : mcPg mc = mcPg mc') : mc = mc' := by
  unfold mcPg regionAddr at h
  omega

/-- Of a table in which every value under a key has a property, and the default too, what a key reads has it. -/
theorem tbl_get_of_forall {β : Type} {P : β → Prop} {d : β} {k : Nat} (hd : P d) (m : Tbl β) (h : ∀ p ∈ m, p.1 = k → P p.2) :
    P (Tbl.get d m k) := by
  induction m with
  | nil => exact hd
  | cons p m ih =>
    obtain ⟨j, v⟩ := p
    rw [Tbl.get, Tbl.find?]
    by_cases hj : j = k
    · rw [if_pos hj]
      exact h _ (List.mem_cons_self ..) hj
    · rw [if_neg hj]
      exact ih fun p hp => h p (List.mem_cons_of_mem _ hp)

/-- The registers of the seam before the hot ranks are added. -/
def State.mcSeam (s : State) : State :=
  let shown := s.regs.map (fun p => if isMcStat p.1 then (p.1, mcStatSeam (decide (s.pwrState = 3)) p.2) else p)
  { s with regs := shown.filter (fun p => !isMcStat p.1 || decide (p.2 ≠ 0)) }

theorem State.mcSeam_hot (s : State) {mc : Nat} (hmc : mc < 128) : s.mcSeam.rf (mcPg mc + 0x100) 29 29 = 0 := by
  refine tbl_get_of_forall (P := fun v => fld v 29 29 = 0) (resetOf_mcStat hmc) _ fun p hp hk => ?_
  obtain ⟨q, -, rfl⟩ := List.mem_map.mp (List.mem_filter.mp hp).1
  by_cases hq : isMcStat q.1 = true
  · rw [if_pos hq]
    exact fld_mcStatSeam ..
  · rw [if_neg hq] at hk
    exact absurd (hk ▸ isMcStat_mcPg hmc) hq

/-- Adding the hot ranks sets HOT of their channels and of no other (R191). -/
theorem State.hotSeam_hot (l : List (Nat × Nat)) (mc : Nat) (s : State) :
    (l.foldl (fun (s : State) d => s.wf (mcPg d.1 + 0x100) 29 29 1) s).rf (mcPg mc + 0x100) 29 29 = 1
      ↔ s.rf (mcPg mc + 0x100) 29 29 = 1 ∨ ∃ r, (mc, r) ∈ l := by
  induction l generalizing s with
  | nil => simp
  | cons d l ih =>
    rw [List.foldl_cons, ih]
    by_cases hd : d.1 = mc
    · have hset : (s.wf (mcPg d.1 + 0x100) 29 29 1).rf (mcPg mc + 0x100) 29 29 = 1 := by
        rw [hd, State.rf_wf_same s (by decide)]
        decide
      refine iff_of_true (.inl hset) (.inr ⟨d.2, ?_⟩)
      rw [← hd]
      exact List.mem_cons_self ..
    · have hother : mcPg mc + 0x100 ≠ mcPg d.1 + 0x100 := fun h => hd (mcPg_inj (Nat.add_right_cancel h)).symm
      have hmem (r : Nat) : (mc, r) ∈ d :: l ↔ (mc, r) ∈ l := by
        rw [List.mem_cons, or_iff_right fun h => hd (congrArg Prod.fst h).symm]
      rw [State.rf_wf_other s hother]
      simp only [hmem]

/-- HOT of a channel shows at s16 whether any rank of it reports a multiplier above 2× (R191). -/
theorem State.publishMc_hot (s : State) {mc : Nat} (hmc : mc < 128) :
    s.publishMc.rf (mcPg mc + 0x100) 29 29 = 1 ↔ ∃ r, (mc, r) ∈ s.hotDevs := by
  refine (State.hotSeam_hot s.hotDevs mc s.mcSeam).trans ?_
  rw [State.mcSeam_hot s hmc]
  simp

theorem State.dramUpset_patrolled (s : State) (mc addr : Nat) : (s.patrolled mc addr).dramUpset = s.dramUpset := rfl

theorem State.dramUpset_addBurst (s : State) (mc key : Nat) : (s.addBurst mc key).dramUpset = s.dramUpset := rfl

/-- MC_STAT is no register that an error of its controller changes. -/
theorem mcStat_ne (mc : Nat) : mcPg mc + 0x100 ≠ modPg 9 0 + 0x110 := by
  unfold mcPg regionAddr modPg modAddr
  omega

theorem State.ceBursts_addBurst (s : State) (mc key : Nat) : Tbl.get [] (s.addBurst mc key).ceBursts mc = Tbl.get [] s.ceBursts mc ++ [key] :=
  Tbl.get_set_same ..

/-- A patrol that reads a row with one corrected burst queues that burst for write-back (R193, R195). -/
theorem patrolScrub_queues {mc addr t0 key : Nat} {s : State} (hmc : mc < 128) (haddr : addr < 2 ^ 33) (hat : addr = Tbl.get 0 s.patrolAt mc)
    (hkey : (mc / 2 * 2 ^ 34 + offOf (mc % 2) addr) / 64 = key) (hheld : s.memHeld = false) (hon : s.rd (mcPg mc + 0x110) ≠ 0)
    (hidle : s.mcIdle mc = true) (hnone : Tbl.get [] s.ceBursts mc = []) (hclass : dramClass (Tbl.get 0 s.dramUpset key).toNat = 1)
    (hnext : Tbl.get 0 s.dramUpset (key + 1) = 0) :
    ∃ t, exec (.patrolScrub mc addr 0 t0) s = .next t ∧ Tbl.get [] t.ceBursts mc = [key]
      ∧ Tbl.get 0 t.patrolAt mc = patrolNext addr ∧ t.mem = s.mem ∧ t.dramUpset = s.dramUpset := by
  have hkey1 : (mc / 2 * 2 ^ 34 + (offOf (mc % 2) addr + 64)) / 64 = key + 1 := by
    rw [← Nat.add_assoc, Nat.add_div_right _ (by decide), hkey]
  obtain ⟨t, hrest, hfirst⟩ := State.burst_corrected (s := s.patrolled mc addr) (region := mc / 2) (off := offOf (mc % 2) addr)
    (by rw [hkey, State.dramUpset_patrolled, hclass]) (tclkCycle t0) true
  have hsecond := State.burst_clear (s := t.addBurst mc key) (region := mc / 2) (off := offOf (mc % 2) addr + 64)
    (by rw [hkey1, State.dramUpset_addBurst, State.dramUpset_of_rest hrest, State.dramUpset_patrolled, hnext]) (tclkCycle t0) true
  have hexec := exec_patrolScrub_reads (t0 := t0) hmc haddr hat hheld hon hidle hnone
  rw [hfirst, hkey, mcOf_patrol, hsecond] at hexec
  refine ⟨_, hexec, ?_, ?_, (State.mem_of_rest hrest :), ?_⟩
  · rw [State.ceBursts_addBurst, State.ceBursts_of_rest hrest]
    exact congrArg (· ++ [key]) hnone
  · exact (congrArg (Tbl.get 0 · mc) (State.patrolAt_of_rest hrest)).trans (Tbl.get_set_same ..)
  · rw [State.dramUpset_addBurst, State.dramUpset_of_rest hrest, State.dramUpset_patrolled]

/-- Settles O21. -/
theorem memoryUpkeep : Obligations.MemoryUpkeep := by
  refine ⟨⟨⟨?_, ?_, ?_⟩, ?_⟩, ?_, fun mc s hmc _ => s.publishMc_hot hmc⟩
  · intro mc key s hmc hburst
    refine ⟨fun hidle hclass => ?_, exec_eccWriteback_busy hmc⟩
    exact ⟨_, exec_eccWriteback_idle hmc hburst hidle hclass, s.dramUpset_wroteBack mc key, s.ceBursts_wroteBack mc key, rfl, rfl, rfl⟩
  · intro mc rate bank s hmc hrate hbank
    rw [exec_refresh hmc hrate hbank]
    refine ⟨fun h => if_pos h, fun h => ⟨_, if_neg h, rfl, rfl, rfl, rfl, rfl, rfl⟩⟩
  · intro mc addr t0 s hmc haddr hat off key
    exact ⟨patrolScrub_queues hmc haddr hat rfl, exec_patrolScrub_busy hmc haddr⟩
  · intro region page s hregion hpage hstate hlow hon
    refine ⟨fun hidle => ?_, exec_clearingScrub_busy hregion hpage⟩
    obtain ⟨v, hexec⟩ := exec_clearingScrub_clears hregion hpage hstate hlow hon hidle
    have hmem : (((s.clearPage region page).freePage region page).wf (rcPg region 0 + 0x110) 12 0 v).mem = (s.clearPage region page).mem :=
      State.mem_of_kept ((State.wf_kept ..).trans (State.freePage_kept ..))
    refine ⟨_, hexec, fun b hlo hhi => ?_, fun b hb => ?_, ?_⟩
    · rw [State.memByte_of_mem hmem, State.memByte_clearPage, if_pos ⟨hlo, hhi⟩]
    · rw [State.memByte_of_mem hmem, State.memByte_clearPage, if_neg (by omega)]
    · rw [State.pageState_wf, State.freePage_entry]
      rfl
  · intro mc rank rate t0 above s hmc hrank hrate
    obtain ⟨hmine, hothers⟩ := mem_hotAfter s.hotDevs mc rank above
    refine ⟨_, exec_hot hmc hrank hrate t0 above s, ?_⟩
    split
    · have hrest := (s.hotNoted mc rank rate above).regionErr_rest (mcPg mc) 4 0 0x7F (tclkCycle t0) 4
      rw [State.hotDevs_of_rest hrest, State.mem_of_rest hrest, State.cores_of_rest hrest]
      refine ⟨hmine, hothers, State.rf_of_rd ?_ .., rfl, rfl⟩
      exact (State.rd_regionErr_other (mcStat_ne mc) (fun o ho => by omega) ..).trans (id rfl)
    · exact ⟨hmine, hothers, rfl, rfl, rfl⟩

end Sys2Proof.Machine

/-! Buckles (R269 to R274). -/

namespace Sys2Proof.Machine

/-! ### Bits and registers of a buckle (R269) -/

/-- The registers of the buckles lie apart from those of their bank (R269, R270). -/
theorem bklAddr_ne_bank (i r : Nat) {k : Nat} (hk : k < 16) : bklAddr i + k ≠ bankPg r 0 + 0x100 := by
  unfold bklAddr bankPg regionAddr
  omega

theorem State.rd_withCores (s : State) (c : Tbl Core) (a : Nat) : { s with cores := c }.rd a = s.rd a := rfl

section
variable (s : State) (i : Nat)

theorem State.bklBit_of_rd {s t : State} {i : Nat} (h : t.rd (bklAddr i + 8) = s.rd (bklAddr i + 8)) (n : Nat) : t.bklBit i n = s.bklBit i n := by
  rw [State.bklBit, State.bklBit, State.rf_of_rd h]

theorem State.bklMode_of_rd {s t : State} {i : Nat} (h : t.rd (bklAddr i + 8) = s.rd (bklAddr i + 8)) : t.bklMode i = s.bklMode i := by
  rw [State.bklMode, State.bklMode, State.rf_of_rd h]

theorem State.bklBit_setBkl_same {n : Nat} (hn : n < 32) (b : Bool) : (s.setBkl i n b).bklBit i n = b := by
  rw [State.bklBit, State.setBkl, State.rf_wf_same s hn, Nat.add_sub_cancel_left, Nat.pow_one]
  cases b <;> rfl

theorem State.bklBit_setBkl_other {n m : Nat} (hn : n < 32) (h : m ≠ n) (b : Bool) : (s.setBkl i n b).bklBit i m = s.bklBit i m := by
  rw [State.bklBit, State.bklBit, State.setBkl, State.rf_wf_field s hn (by omega)]

theorem State.bklMode_setBkl {n : Nat} (hn : n < 30) (b : Bool) : (s.setBkl i n b).bklMode i = s.bklMode i := by
  rw [State.bklMode, State.bklMode, State.setBkl, State.rf_wf_field s (by omega) (by omega)]

theorem State.rd_setBkl_other {a : Nat} (h : a ≠ bklAddr i + 8) (n : Nat) (b : Bool) : (s.setBkl i n b).rd a = s.rd a :=
  State.rd_wf_other _ _ _ _ h

/-- Waking the waiters of a buckle changes cores and bit 7 of the buckle, and no queue (R273). -/
theorem State.wakeAll_only (tok : Option (BitVec 16)) : ∃ c b, s.wakeAll i tok = ({ s with cores := c } : State).setBkl i 7 b := by
  have hfold (l : List (Nat × Core)) (s : State) :
      ∃ c, l.foldl (fun (s : State) p => s.modCore p.1 (fun c => c.wake i tok)) s = { s with cores := c } := by
    induction l generalizing s with
    | nil => exact ⟨s.cores, rfl⟩
    | cons p l ih =>
      obtain ⟨c, hc⟩ := ih (s.modCore p.1 (fun c => c.wake i tok))
      exact ⟨c, hc⟩
  obtain ⟨c, hc⟩ := hfold (s.waitersOf i) s
  simp only [State.wakeAll, hc]
  exact ⟨c, _, rfl⟩

theorem Core.wake_queues (c : Core) (tok : Option (BitVec 16)) : (c.wake i tok).queues = c.queues := by
  unfold Core.wake
  split
  · split <;> rfl
  · split <;> rfl
  · rfl

theorem State.wakeAll_queues (tok : Option (BitVec 16)) (gp : Nat) : ((s.wakeAll i tok).core gp).queues = (s.core gp).queues := by
  have hfold (l : List (Nat × Core)) (s : State) :
      ((l.foldl (fun (s : State) p => s.modCore p.1 (fun c => c.wake i tok)) s).core gp).queues = (s.core gp).queues := by
    induction l generalizing s with
    | nil => rfl
    | cons p l ih =>
      rw [List.foldl_cons, ih]
      by_cases h : gp = p.1
      · rw [h, State.core_modCore_same, Core.wake_queues]
      · rw [State.core_modCore_other _ _ h]
  rw [State.wakeAll, State.setBkl, State.core_wf, hfold]

end

section
variable {s : State} {i : Nat}

/-- A test of an unarmed buckle, of a released one, or of one that is not satisfied, does nothing (R272). -/
theorem State.bklTest_unarmed (h : s.bklBit i 12 = false) : s.bklTest i = s := by
  simp [State.bklTest, h]

theorem State.bklTest_unsatisfied (h : s.bklSat i = false) : s.bklTest i = s := by
  simp [State.bklTest, h]

/-- An armed, unreleased buckle of mode RELEASE that is satisfied is released (R272). -/
theorem State.bklTest_releases (h12 : s.bklBit i 12 = true) (h11 : s.bklBit i 11 = false) (hmode : s.bklMode i = 0) (hsat : s.bklSat i = true) :
    s.bklTest i = (s.setBkl i 11 true).wakeAll i none := by
  have hmode' : (s.setBkl i 11 true).bklMode i = 0 := (s.bklMode_setBkl i (by decide) true).trans hmode
  simp [State.bklTest, h12, h11, hmode, hsat, State.bklRelease, hmode']

/-- What a buckle of mode RELEASE shows once it is released: REL, its other flags, and its registers, as they were (R272). -/
theorem State.released_bit (m : Nat) (hm : m ≠ 7) :
    ((s.setBkl i 11 true).wakeAll i none).bklBit i m = if m = 11 then true else s.bklBit i m := by
  obtain ⟨c, b, hw⟩ := (s.setBkl i 11 true).wakeAll_only i none
  rw [hw, State.bklBit_setBkl_other _ _ (by decide) hm]
  rw [State.bklBit_of_rd (State.rd_withCores (s.setBkl i 11 true) c _) m]
  split
  · next h => rw [h, State.bklBit_setBkl_same _ _ (by decide)]
  · next h => rw [State.bklBit_setBkl_other _ _ (by decide) h]

theorem State.released_rd {a : Nat} (ha : a ≠ bklAddr i + 8) : ((s.setBkl i 11 true).wakeAll i none).rd a = s.rd a := by
  obtain ⟨c, b, hw⟩ := (s.setBkl i 11 true).wakeAll_only i none
  rw [hw, State.rd_setBkl_other _ _ ha, State.rd_withCores, State.rd_setBkl_other s i ha 11 true]

end

theorem State.rd_tick (s : State) (p n a : Nat) : (s.tick p n).rd a = s.rd a := rfl

theorem State.bklDeny_count (s : State) (i : Nat) :
    (s.bklDeny i).rf (bankPg (i / 1024) 0 + 0x100) 31 0 = min (s.rf (bankPg (i / 1024) 0 + 0x100) 31 0 + 1) (2 ^ 32 - 1) := by
  rw [State.bklDeny, State.rf_bump_same s (by decide)]

theorem State.rd_bklDeny_other (s : State) (i : Nat) {a : Nat} (h : a ≠ bankPg (i / 1024) 0 + 0x100) : (s.bklDeny i).rd a = s.rd a :=
  State.rd_bump_other s h

/-- A refused addition or arming changes no count of a buckle (R270). -/
theorem State.bklCount_bklDeny (s : State) (i j : Nat) : (s.bklDeny i).bklCount j = s.bklCount j := by
  have hbank := bklAddr_ne_bank j (i / 1024) (k := 0) (by decide)
  rw [Nat.add_zero] at hbank
  rw [State.bklCount, State.bklCount, State.rd_bklDeny_other s i hbank]

theorem State.bklAdd_denied {s : State} {ctx : Option Nat} {i : Nat} (h : ctx = none ∨ ctx ≠ s.bklCtx i) (v : Word) :
    s.bklAdd ctx i v = s.bklDeny i := by
  have hno : ¬ (ctx.isSome = true ∧ ctx = s.bklCtx i) := by
    rintro ⟨hsome, hown⟩
    rcases h with rfl | hne
    · exact Bool.false_ne_true hsome
    · exact hne hown
  rw [State.bklAdd, if_neg hno]

/-- An addition to an unarmed buckle by its owner changes COUNT (R270, R271). -/
theorem State.bklAdd_unarmed {s : State} {ctx : Option Nat} {i : Nat} (hsome : ctx.isSome = true) (hown : ctx = s.bklCtx i)
    (h12 : s.bklBit i 12 = false) (v : Word) :
    s.bklAdd ctx i v = (s.wr (bklAddr i) (s.rd (bklAddr i) + v)).tick (bankPg (i / 1024) 0 + 0x104) 1 := by
  have harmed : ((s.wr (bklAddr i) (s.rd (bklAddr i) + v)).tick (bankPg (i / 1024) 0 + 0x104) 1).bklBit i 12 = false := by
    rw [State.bklBit_of_rd (s := s) ((State.rd_tick ..).trans (State.rd_wr_other _ _ (by omega))), h12]
  rw [State.bklAdd, if_pos ⟨hsome, hown⟩]
  exact State.bklTest_unarmed harmed

section
variable {n t0 : Nat} {p : NetPkt} {s s2 : State} (harr : s.arrival n [7] = some p) (hratio : s.ratioOk = true)
include harr hratio

theorem exec_buckleAdd_held (hheld : s.unitHeld p = true) : exec (.buckleAdd n t0) s = .next (s.takeArrival n).rstDrop := by
  have hheld' : (s.takeArrival n).unitHeld p = true := hheld
  change execBuckleAdd n t0 s = _
  simp only [execBuckleAdd, harr, hratio, hheld', Bool.not_true, Bool.false_eq_true, ↓reduceIte]

theorem exec_buckleAdd_adds {ctx : Option Nat} (hheld : s.unitHeld p = false)
    (hflow : (s.takeArrival n).flowCheck (p.pkt.buckle / 1024) p.pkt 0xFFE (s.gen.base + 16 * t0) = (true, s2)) (hctx : s2.inCtx p = (ctx, false)) :
    exec (.buckleAdd n t0) s = .next (s2.bklAdd ctx p.pkt.buckle p.pkt.value) := by
  have hheld' : (s.takeArrival n).unitHeld p = false := hheld
  have hflow' : (s.takeArrival n).flowCheck (p.pkt.buckle / 1024) p.pkt 0xFFE ((s.takeArrival n).gen.base + 16 * t0) = (true, s2) := hflow
  change execBuckleAdd n t0 s = _
  simp only [execBuckleAdd, harr, hratio, hheld', hflow', hctx, Bool.not_true, Bool.false_eq_true, ↓reduceIte]

end

/-- Settles O23. -/
theorem buckleAdditionByOwner : Obligations.BuckleAdditionByOwner := by
  intro n t0 p ctx s s2 harr hratio _
  refine ⟨exec_buckleAdd_held harr hratio, fun hheld hflow hctx h12 => ?_⟩
  have hexec := exec_buckleAdd_adds harr hratio hheld hflow hctx
  refine ⟨fun hsome hown => ?_, fun hno => ?_⟩
  · rw [State.bklAdd_unarmed hsome hown h12] at hexec
    refine ⟨_, hexec, ?_, fun a ha => ?_, ?_, ?_⟩
    · rw [State.rd_tick, State.rd_wr_same]
    · rw [State.rd_tick, State.rd_wr_other _ _ ha]
    · rw [State.tick_cores, State.wr_cores]
    · rw [State.tick_mem, State.wr_mem]
  · rw [State.bklAdd_denied hno] at hexec
    exact ⟨_, hexec, s2.bklDeny_count _, fun i _ => s2.bklCount_bklDeny _ i⟩

/-- A write of a buckle's register by an agent that may write it (R24, R269). -/
theorem exec_buckleRegWrite {ag : Agent} {i : Nat} {s : State} (hi : i < 65536) (hmay : s.mayWrite ag (bklAddr i)) (target : Bool) (val : Word) :
    exec (.buckleRegWrite ag i target val) s = .next ((s.wr (bklAddr i + if target then 4 else 0) val).bklTest i) := by
  obtain ⟨hdark, hadm⟩ := hmay
  refine (if_pos (decide_eq_true hi)).trans (congrArg Host.Outcome.next ?_)
  rw [State.ifAdmitted, if_neg (ne_true_of_eq_false hdark), if_pos hadm, State.bklWrite]

theorem exec_buckleTimeout {i : Nat} {s : State} (hi : i < 65536) (hratio : s.ratioOk = true) (hopen : s.bklOpen i = true)
    (ht : s.rf (bklAddr i + 8) 29 14 ≠ 0) (hage : s.rf (bklAddr i + 12) 15 0 = s.rf (bklAddr i + 8) 29 14) :
    exec (.buckleTimeout i) s = .next (s.bklExpire i (seamCycle 24)) := by
  refine (if_pos (decide_eq_true hi)).trans ?_
  rw [if_neg (by rw [hratio]; decide)]
  exact if_pos ⟨hopen, ht, hage.ge⟩

/-- The registers of a buckle are none of a core's header. -/
theorem bklAddr_ne_corePg (i gp : Nat) {k : Nat} (hk : k < 16) (o : Nat) (ho : o < 0x100) : bklAddr i + k ≠ corePg gp + o := by
  unfold bklAddr bankPg corePg regionAddr
  omega

theorem State.rd_suppMark (s : State) (cyc pg cls a : Nat) : (s.suppMark cyc pg cls).rd a = s.rd a := by
  unfold State.suppMark
  split <;> exact id rfl

theorem State.rd_emitCore (s : State) (gp bitNo sev cls cyc : Nat) (synd : BitVec 64) (a : Nat) :
    (s.emitCore gp bitNo sev cls cyc synd).rd a = s.rd a := by
  fun_cases State.emitCore s gp bitNo sev cls cyc synd <;> simp only [State.rd_suppMark, State.rd_emit_eq]

/-- An error of a core changes registers of its own header at most (R26). -/
theorem State.rd_coreErr_other {a gp : Nat} (h : ∀ o, o < 0x100 → a ≠ corePg gp + o) (s : State) (sev cls cyc : Nat) (synd : BitVec 64) :
    (s.coreErr gp sev cls cyc synd).rd a = s.rd a := by
  rw [State.coreErr, State.rd_emitCore, State.rd_countErr_other h, State.rd_capture_other h]

/-- A buckle of mode RELEASE whose AGE has reached its TIMEOUT has FAULT_TO and is released; what else is reported changes no register of it
(R274). -/
theorem State.bklExpire_faults {s : State} {i : Nat} (hopen : s.bklOpen i = true) (hmode : s.bklMode i = 0) (cyc : Nat) :
    ∀ k, k < 16 → (s.bklExpire i cyc).rd (bklAddr i + k) = (((s.setBkl i 10 true).setBkl i 11 true).wakeAll i none).rd (bklAddr i + k) := by
  intro k hk
  have h11 : s.bklBit i 11 = false := by simpa using (Bool.and_eq_true_iff.mp hopen).2
  have hmode1 : (s.setBkl i 10 true).bklMode i = 0 := (s.bklMode_setBkl i (by decide) true).trans hmode
  have hmode2 : ((s.setBkl i 10 true).setBkl i 11 true).bklMode i = 0 := (State.bklMode_setBkl _ i (by decide) true).trans hmode1
  have hfault : s.bklFault i 10 = ((s.setBkl i 10 true).setBkl i 11 true).wakeAll i none := by
    simp [State.bklFault, h11, hmode1, State.bklRelease, hmode2]
  simp only [State.bklExpire, hfault]
  split
  · exact State.rd_coreErr_other (bklAddr_ne_corePg i _ hk) ..
  · rfl

/-- Settles O24. -/
theorem buckleWritesAndTimeouts : Obligations.BuckleWritesAndTimeouts := by
  refine ⟨⟨?_, ?_⟩, ?_⟩
  · intro ag i val s hi hmay h12 h11 hmode
    have hexec := exec_buckleRegWrite hi hmay false val
    have hctl : (s.wr (bklAddr i) val).rd (bklAddr i + 8) = s.rd (bklAddr i + 8) := State.rd_wr_other _ _ (by omega)
    have hsat : (s.wr (bklAddr i) val).bklSat i = decide ((val.toNat + 2 ^ 32 - s.bklTarget i) % 2 ^ 32 < 2 ^ 31) := by
      rw [State.bklSat, State.bklCount, State.bklTarget, State.rd_wr_same, State.rd_wr_other _ _ (by omega), State.bklTarget]
    have h12' := (State.bklBit_of_rd hctl 12).trans h12
    have h11' := (State.bklBit_of_rd hctl 11).trans h11
    rw [if_neg Bool.false_ne_true, Nat.add_zero] at hexec
    rw [← hsat]
    cases hs : (s.wr (bklAddr i) val).bklSat i with
    | true =>
      rw [State.bklTest_releases h12' h11' ((State.bklMode_of_rd hctl).trans hmode) hs] at hexec
      refine ⟨_, hexec, ?_, ?_⟩
      · rw [State.released_rd (by omega), State.rd_wr_same]
      · rw [State.released_bit 11 (by decide), if_pos rfl]
    | false =>
      rw [State.bklTest_unsatisfied hs] at hexec
      exact ⟨_, hexec, State.rd_wr_same .., h11'⟩
  · intro ag i target val s hi hmay h12
    have hexec := exec_buckleRegWrite hi hmay target val
    have hctl : (s.wr (bklAddr i + if target = true then 4 else 0) val).rd (bklAddr i + 8) = s.rd (bklAddr i + 8) :=
      State.rd_wr_other _ _ (by split <;> omega)
    rw [State.bklTest_unarmed ((State.bklBit_of_rd hctl 12).trans h12)] at hexec
    exact ⟨_, hexec, State.rd_wr_same .., fun a ha => State.rd_wr_other _ _ ha, State.wr_cores .., State.wr_mem ..⟩
  · intro i s hi hratio hopen ht hage hmode
    have hshow := State.bklExpire_faults hopen hmode (seamCycle 24)
    have hbit (m : Nat) (hm : m ≠ 7) : (s.bklExpire i (seamCycle 24)).bklBit i m = if m = 11 then true else (s.setBkl i 10 true).bklBit i m := by
      rw [State.bklBit_of_rd (hshow 8 (by decide)), State.released_bit m hm]
    refine ⟨_, exec_buckleTimeout hi hratio hopen ht hage, ?_, ?_, ?_, ?_, State.mem_of_kept (State.bklExpire_kept ..)⟩
    · rw [hbit 10 (by decide), if_neg (by decide), State.bklBit_setBkl_same _ _ (by decide)]
    · rw [hbit 11 (by decide), if_pos rfl]
    · rw [hbit 12 (by decide), if_neg (by decide), State.bklBit_setBkl_other _ _ (by decide) (by decide)]
      exact (Bool.and_eq_true_iff.mp hopen).1
    · have hcount := hshow 0 (by decide)
      rw [Nat.add_zero, State.released_rd (by omega), State.rd_setBkl_other _ _ (by omega)] at hcount
      exact hcount

/-- A buckle with each of the flags of a list cleared. -/
def State.clearFlags (s : State) (i : Nat) (l : List Nat) : State := l.foldl (fun (s : State) n => s.setBkl i n false) s

section
variable (s : State) (i : Nat) (l : List Nat)

theorem State.rd_clearFlags {a : Nat} (ha : a ≠ bklAddr i + 8) : (s.clearFlags i l).rd a = s.rd a := by
  induction l generalizing s with
  | nil => rfl
  | cons n l ih => exact (ih (s.setBkl i n false)).trans (State.rd_setBkl_other _ i ha _ _)

theorem State.core_clearFlags (gp : Nat) : (s.clearFlags i l).core gp = s.core gp := by
  induction l generalizing s with
  | nil => rfl
  | cons n l ih => exact (ih (s.setBkl i n false)).trans (State.core_wf ..)

theorem State.bklBit_clearFlags (h : ∀ n ∈ l, n < 32) (m : Nat) : (s.clearFlags i l).bklBit i m = if m ∈ l then false else s.bklBit i m := by
  induction l generalizing s with
  | nil => simp [State.clearFlags]
  | cons n l ih =>
    obtain ⟨hn, hl⟩ := List.forall_mem_cons.mp h
    have hrest := ih (s.setBkl i n false) hl
    refine hrest.trans ?_
    by_cases hm : m = n
    · rw [hm, State.bklBit_setBkl_same _ i hn]
      simp
    · rw [State.bklBit_setBkl_other _ i hn hm]
      simp [hm]

theorem State.bklMode_clearFlags (h : ∀ n ∈ l, n < 30) : (s.clearFlags i l).bklMode i = s.bklMode i := by
  induction l generalizing s with
  | nil => rfl
  | cons n l ih =>
    obtain ⟨hn, hl⟩ := List.forall_mem_cons.mp h
    exact (ih (s.setBkl i n false) hl).trans (State.bklMode_setBkl _ i hn _)

end

/-- COUNT 0 and TARGET written, and no arrival of the buckle's kept or posted (R270). -/
def State.bklLoaded (s : State) (i : Nat) (target : Word) : State :=
  let s := (s.dropArrival i).wr (bklAddr i) 0 |>.wr (bklAddr i + 4) target
  { s with posted := Tbl.set 0 s.posted i 0 }

/-- What an owner's ARMB leaves of its buckle before the test of R272: loaded, the flags and AGE clear, and ARMED set (R270). -/
def State.bklArmed (s : State) (i : Nat) (target : Word) : State :=
  (((s.bklLoaded i target).clearFlags i [11, 10, 9, 8, 6]).wf (bklAddr i + 12) 15 0 0).setBkl i 12 true

section
variable (s : State) (i : Nat)

theorem State.bklArm_owner {ctx : Option Nat} (h : ctx.isSome = true) (hown : ctx = s.bklCtx i) (target : Word) :
    s.bklArm ctx i target = (s.bklArmed i target).bklTest i :=
  if_pos ⟨h, hown⟩

theorem State.bklArm_denied {ctx : Option Nat} (h : ctx = none ∨ ctx ≠ s.bklCtx i) (target : Word) : s.bklArm ctx i target = s.bklDeny i := by
  refine if_neg fun ⟨hsome, hown⟩ => ?_
  obtain rfl | hne := h
  · exact Bool.noConfusion hsome
  · exact hne hown

theorem State.rd_withPosted (t : State) (p : Tbl (BitVec 16)) (a : Nat) : { t with posted := p }.rd a = t.rd a := rfl

theorem State.core_withPosted (t : State) (p : Tbl (BitVec 16)) (gp : Nat) : { t with posted := p }.core gp = t.core gp := rfl

theorem State.rd_dropArrival (a : Nat) : (s.dropArrival i).rd a = s.rd a := rfl

variable (target : Word)

theorem State.rd_bklLoaded (a : Nat) :
    (s.bklLoaded i target).rd a = if a = bklAddr i + 4 then target else if a = bklAddr i then 0 else s.rd a := by
  have hposted (t : State) (p : Tbl (BitVec 16)) := State.rd_withPosted t p a
  rw [State.bklLoaded, hposted]
  split
  · next h => rw [h, State.rd_wr_same]
  · next h =>
    rw [State.rd_wr_other _ _ h]
    split
    · next h => rw [h, State.rd_wr_same]
    · next h => rw [State.rd_wr_other _ _ h, State.rd_dropArrival]

theorem State.core_bklLoaded (gp : Nat) : (s.bklLoaded i target).core gp = s.core gp := by
  rw [State.bklLoaded, State.core_withPosted, State.core_wr, State.core_wr]
  rfl

theorem State.rd_bklArmed {a : Nat} (h8 : a ≠ bklAddr i + 8) (h12 : a ≠ bklAddr i + 12) :
    (s.bklArmed i target).rd a = (s.bklLoaded i target).rd a := by
  rw [State.bklArmed, State.rd_setBkl_other _ i h8, State.rd_wf_other _ _ _ _ h12, State.rd_clearFlags _ i _ h8]

theorem State.bklArmed_count : (s.bklArmed i target).bklCount i = 0 := by
  rw [State.bklCount, s.rd_bklArmed i target (by omega) (by omega), State.rd_bklLoaded, if_neg (by omega), if_pos rfl]
  rfl

theorem State.bklArmed_target : (s.bklArmed i target).bklTarget i = target.toNat := by
  rw [State.bklTarget, s.rd_bklArmed i target (by omega) (by omega), State.rd_bklLoaded, if_pos rfl]

theorem State.bklArmed_flags {m : Nat} (hm : m ∈ [11, 10, 9, 8, 6]) : (s.bklArmed i target).bklBit i m = false := by
  have h12 : m ≠ 12 := by
    rintro rfl
    exact absurd hm (by decide)
  rw [State.bklArmed, State.bklBit_setBkl_other _ i (by decide) h12, State.bklBit_of_rd (State.rd_wf_other _ _ _ _ (by omega)),
    State.bklBit_clearFlags _ i _ (by decide), if_pos hm]

theorem State.bklArmed_armed : (s.bklArmed i target).bklBit i 12 = true :=
  State.bklBit_setBkl_same _ i (by decide) true

theorem State.bklArmed_mode : (s.bklArmed i target).bklMode i = s.bklMode i := by
  rw [State.bklArmed, State.bklMode_setBkl _ i (by decide), State.bklMode_of_rd (State.rd_wf_other _ _ _ _ (by omega)),
    State.bklMode_clearFlags _ i _ (by decide), State.bklMode_of_rd (s := s)]
  rw [State.rd_bklLoaded, if_neg (by omega), if_neg (by omega)]

theorem State.bklArmed_age : (s.bklArmed i target).rf (bklAddr i + 12) 15 0 = 0 := by
  rw [State.bklArmed, State.rf_of_rd (State.rd_setBkl_other _ i (by omega) _ _), State.rf_wf_same _ (by decide), Nat.zero_mod]

theorem State.bklArmed_core (gp : Nat) : (s.bklArmed i target).core gp = s.core gp := by
  rw [State.bklArmed, State.setBkl, State.core_wf, State.core_wf, State.core_clearFlags, State.core_bklLoaded]

/-- A buckle armed with a TARGET above 0 and at most 2^31 is not satisfied; one armed with any other is (R272). -/
theorem State.bklArmed_sat : (s.bklArmed i target).bklSat i = decide (target.toNat = 0 ∨ 2 ^ 31 < target.toNat) := by
  rw [State.bklSat, s.bklArmed_count, s.bklArmed_target, decide_eq_decide]
  have := target.isLt
  omega

end

section
variable (s : State) (c : Tbl Core)

theorem State.bklCtx_withCores (i : Nat) : { s with cores := c }.bklCtx i = s.bklCtx i := rfl

theorem State.bklMode_withCores (i : Nat) : { s with cores := c }.bklMode i = s.bklMode i := rfl

end

section
variable {gp cyc b target : Nat} {s : State} {q : QEnt} {rest : List QEnt}

/-- An ARMB that fires launches its operation and then arms its buckle for the context of its core (R102, R270). -/
theorem exec_armb (hgp : gp < 5120) (hi : (s.reachUnit gp 7 cyc).issues gp = true)
    (hh : (s.reachUnit gp 7 cyc).headIs ⟨.armb gp cyc, gp, 7, cyc, isArmb⟩ q rest (.armb b target))
    (hm : (s.reachUnit gp 7 cyc).mayFire ⟨.armb gp cyc, gp, 7, cyc, isArmb⟩ q rest (.armb b target)) :
    ∃ t : State, exec (.armb gp cyc) s = .next (t.bklArm ((s.reachUnit gp 7 cyc).coreCtx gp) b (BitVec.ofNat 32 target))
      ∧ (t.core gp).queue 7 = rest ∧ (∀ i, t.bklCtx i = (s.reachUnit gp 7 cyc).bklCtx i) ∧ (∀ i, t.bklMode i = (s.reachUnit gp 7 cyc).bklMode i)
      ∧ (∀ a, t.rd a = (s.reachUnit gp 7 cyc).rd a) ∧ t.mem = (s.reachUnit gp 7 cyc).mem := by
  have hf : (⟨.armb gp cyc, gp, 7, cyc, isArmb⟩ : FireCmd) ∈ fireCmds gp cyc := by simp [fireCmds]
  have hexec := exec_fireCmd_launch hf hgp hi hh hm
  obtain ⟨hqueue, _⟩ := State.launch_fired (s.reachUnit gp 7 cyc) gp 7 cyc q rest (.armb b target)
  generalize s.reachUnit gp 7 cyc = s1 at *
  obtain ⟨c, hc⟩ := State.launch_only s1 gp 7 cyc q rest (.armb b target)
  rw [hc] at hexec hqueue
  exact ⟨_, hexec, hqueue, s1.bklCtx_withCores c, s1.bklMode_withCores c, s1.rd_withCores c, rfl⟩

end

/-- Settles O25. -/
theorem armbArmsItsBuckle : Obligations.ArmbArmsItsBuckle := by
  intro gp cyc b target s q rest hgp _ htarget s1 hi hh hm
  obtain ⟨t, hexec, hqueue, hctx, hmode, hrd, hmem⟩ := exec_armb hgp hi hh hm
  have hval : (BitVec.ofNat 32 target).toNat = target := by rw [BitVec.toNat_ofNat, Nat.mod_eq_of_lt htarget]
  have hcore (x : State) (h : (x.core gp).queues = (t.core gp).queues) : (x.core gp).queue 7 = rest :=
    (congrArg (Tbl.get [] · 7) h).trans hqueue
  have hmem' (x : State) (h : x.kept = (t.bklArm (s1.coreCtx gp) b (BitVec.ofNat 32 target)).kept) : x.mem = s1.mem := by
    rw [State.mem_of_kept (h.trans (t.bklArm_kept ..)), hmem]
  refine ⟨fun hsome hown => ?_, fun hno => ?_⟩
  · have hown' := hown.trans (hctx b).symm
    have harm := t.bklArm_owner b hsome hown' (BitVec.ofNat 32 target)
    have hsat := t.bklArmed_sat b (BitVec.ofNat 32 target)
    have hbit (m : Nat) (hmem : m ∈ [11, 10, 9, 8, 6]) := t.bklArmed_flags b (BitVec.ofNat 32 target) hmem
    rw [hval] at hsat
    refine ⟨fun hpos hle => ?_, fun hrange hrel => ?_⟩
    · rw [State.bklTest_unsatisfied (hsat.trans (decide_eq_false (by omega)))] at harm
      rw [harm] at hexec
      refine ⟨_, hexec, hcore _ (congrArg Core.queues (t.bklArmed_core ..)), t.bklArmed_count .., ?_, t.bklArmed_armed .., hbit 11 (by decide),
        hbit 10 (by decide), hbit 9 (by decide), t.bklArmed_age .., hmem' _ (congrArg State.kept harm.symm)⟩
      rw [t.bklArmed_target, hval]
    · have hrel' := (t.bklArmed_mode b (BitVec.ofNat 32 target)).trans ((hmode b).trans hrel)
      rw [State.bklTest_releases (t.bklArmed_armed ..) (hbit 11 (by decide)) hrel' (hsat.trans (decide_eq_true hrange))] at harm
      rw [harm] at hexec
      have hcount : (((t.bklArmed b (BitVec.ofNat 32 target)).setBkl b 11 true).wakeAll b none).bklCount b = 0 := by
        rw [State.bklCount, State.released_rd (by omega)]
        exact t.bklArmed_count ..
      have htgt : (((t.bklArmed b (BitVec.ofNat 32 target)).setBkl b 11 true).wakeAll b none).bklTarget b = target := by
        rw [State.bklTarget, State.released_rd (by omega)]
        exact (t.bklArmed_target ..).trans hval
      refine ⟨_, hexec, hcore _ ?_, hcount, htgt, ?_, ?_, ?_, ?_, hmem' _ (congrArg State.kept harm.symm)⟩
      · rw [State.wakeAll_queues, State.setBkl, State.core_wf, State.bklArmed_core]
      · rw [State.released_bit 12 (by decide), if_neg (by decide), State.bklArmed_armed]
      · rw [State.released_bit 11 (by decide), if_pos rfl]
      · rw [State.released_bit 10 (by decide), if_neg (by decide), hbit 10 (by decide)]
      · rw [State.released_bit 9 (by decide), if_neg (by decide), hbit 9 (by decide)]
  · rw [t.bklArm_denied b (hno.imp_right fun h => by rwa [hctx]) ] at hexec
    refine ⟨_, hexec, hcore _ (congrArg Core.queues (State.core_bump ..)), ?_, fun a ha => ?_, ?_⟩
    · rw [t.bklDeny_count, State.rf_of_rd (hrd _)]
    · rw [State.bklDeny, State.rd_bump_other _ ha, hrd]
    · rw [State.bklDeny, State.bump_mem, hmem]

end Sys2Proof.Machine

/-! Barriers and the girth's packets (R278, R279). -/

namespace Sys2Proof.Machine

/-- The access an agent makes is admitted: it does what an admitted access does (R24, R393). -/
theorem State.ifAdmitted_may {s : State} {ag : Agent} {a : Nat} (h : s.mayWrite ag a) (f : State → State) : s.ifAdmitted ag a f = f s := by
  obtain ⟨hdark, hadm⟩ := h
  rw [State.ifAdmitted, if_neg (ne_true_of_eq_false hdark), if_pos hadm]

section
variable (s : State) (g : Nat)

theorem State.barrier_setBarrier_same (b : Barrier) : (s.setBarrier g b).barrier g = b := Tbl.get_set_same ..

/-- A barrier that waits for more of its own module's arrivals does not complete (R278). -/
theorem State.barCheck_waits (h : s.rf (barAddr g + 4) 15 0 ≠ s.rf (barAddr g) 15 0) (e n : Nat) : s.barCheck g e n = s := by
  cases n with
  | zero => rfl
  | succ n => simp [State.barCheck, h]

/-- The parent direction of the current epoch is read from the girth register of the epoch and the states of its ports (R279). -/
theorem State.parentLost_congr {t : State} (h0 : t.girth0 = s.girth0) (h1 : t.girth1 = s.girth1) (hst : t.rd (rtPg + 0x108) = s.rd (rtPg + 0x108))
    (hport : ∀ p, t.portLive p = s.portLive p) : t.parentLost = s.parentLost := by
  have hepoch : t.epoch = s.epoch := State.rf_of_rd hst 0 0
  have hlive (x : State) : x.liveEpochs.contains x.epoch = true := by
    unfold State.liveEpochs
    split <;> simp
  have hgirth (x : State) : x.girth x.epoch = if x.epoch = 0 then x.girth0 else x.girth1 := if_pos (hlive x)
  have htree : t.girth t.epoch = s.girth s.epoch := by rw [hgirth, hgirth, hepoch, h0, h1]
  simp only [State.parentLost, htree, hport]

end

section
variable {n q : Nat} {p : NetPkt} {s : State} (harr : s.arrival n [8] = some p) (hin : p.at_ = .ingress q)
  (hep : s.epochGone p.pkt.epoch = false)
include harr hin hep

/-- A GIRTH packet of a live epoch leaves its ingress buffer for the barrier unit (R278). -/
theorem exec_girth_received : exec (.girth n) s = .next (((s.takeArrival n).freeIngress q p).girthRx q p.pkt) := by
  have hep' : ((s.takeArrival n).freeIngress q p).epochGone p.pkt.epoch = false := by
    rw [← hep]
    unfold State.freeIngress
    split <;> rfl
  change execGirth n s = _
  simp only [execGirth, harr, hin, hep', Bool.false_eq_true, ↓reduceIte]

end

theorem State.freeIngress_only (s : State) (q : Nat) (p : NetPkt) : ∃ l, s.freeIngress q p = { s with links := l } := by
  unfold State.freeIngress
  split
  · exact ⟨s.links, rfl⟩
  · exact ⟨_, rfl⟩

section
variable (s : State) (g : Nat)

theorem State.rd_setBarrier (b : Barrier) (a : Nat) : (s.setBarrier g b).rd a = s.rd a := rfl

theorem State.rf_setBarrier (b : Barrier) (a hi lo : Nat) : (s.setBarrier g b).rf a hi lo = s.rf a hi lo := rfl

/-- VALID and LCNT of a barrier entry, as a write of it leaves them (R278). -/
def State.withEntry (val : Word) : State := (s.wf (barAddr g) 31 31 (fld val 31 31)).wf (barAddr g) 15 0 (fld val 15 0)

/-- A barrier entry with no arrival counted and no fault; what its own module had sent is lost (R279). -/
def State.barReset : State :=
  ((s.setBarrier g { lost := (s.barrier g).lost ++ (s.barrier g).sent }).wf (barAddr g) 30 30 0).wf (barAddr g + 4) 15 0 0

theorem State.barrier_barReset : (s.barReset g).barrier g = { lost := (s.barrier g).lost ++ (s.barrier g).sent } := by
  rw [State.barReset, State.barrier, State.wf_barriers, State.wf_barriers]
  exact State.barrier_setBarrier_same ..

theorem State.rf_barReset_count : (s.barReset g).rf (barAddr g + 4) 15 0 = 0 := by
  rw [State.barReset, State.rf_wf_same _ (by decide), Nat.zero_mod]

theorem State.barFault_barReset : (s.barReset g).barFault g = false := by
  rw [State.barFault, State.barReset, State.rf_wf_other _ (by omega), State.rf_wf_same _ (by decide), Nat.zero_mod]
  rfl

theorem State.barGen_barReset : (s.barReset g).barGen g = s.barGen g := by
  rw [State.barGen, State.barReset, State.rf_wf_field _ (by decide) (by decide), State.rf_wf_other _ (by omega), State.rf_setBarrier, State.barGen]

/-- The fields of an entry that clearing its arrivals leaves (R278). -/
theorem State.rf_barReset {hi lo : Nat} (h : hi < 30 ∨ 30 < lo) : (s.barReset g).rf (barAddr g) hi lo = s.rf (barAddr g) hi lo := by
  rw [State.barReset, State.rf_wf_other _ (by omega), State.rf_wf_field _ (by decide) h, State.rf_setBarrier]

theorem State.rf_withEntry_valid (val : Word) : (s.withEntry g val).rf (barAddr g) 31 31 = fld val 31 31 := by
  rw [State.withEntry, State.rf_wf_field _ (by decide) (by decide), State.rf_wf_same _ (by decide)]
  exact Nat.mod_eq_of_lt (fld_lt ..)

theorem State.rf_withEntry_count (val : Word) : (s.withEntry g val).rf (barAddr g) 15 0 = fld val 15 0 := by
  rw [State.withEntry, State.rf_wf_same _ (by decide)]
  exact Nat.mod_eq_of_lt (fld_lt ..)

theorem State.barGen_withEntry (val : Word) : (s.withEntry g val).barGen g = s.barGen g := by
  rw [State.barGen, State.withEntry, State.rf_wf_other _ (by omega), State.rf_wf_other _ (by omega), State.barGen]

theorem State.writeBarrier_entry (val : Word) :
    s.writeBarrier g false val = ((s.withEntry g val).barReset g).barCheck g ((s.withEntry g val).barReset g).epoch 2 := rfl

/-- A GIRTH packet for an entry that is not valid, or of another generation, is counted in VC0_DROP (R278). -/
theorem State.girthRx_drops {k : Packet} (h : s.barValid (k.tree % 256) = false ∨ k.opid ≠ s.barGen (k.tree % 256)) (p : Nat) :
    s.girthRx p k = s.bump (rtPg + 0x138) 31 0 1 :=
  if_pos (h.imp_left fun h => by rw [h]; rfl)

end

/-- The arrival of a child's UP, kept before the barrier is tested (R278). -/
def State.upKept (s : State) (g q : Nat) (fault : Bool) : State :=
  let s := s.setBarrier g { s.barrier g with ups := (s.barrier g).ups ++ [q] }
  if fault then s.wf (barAddr g) 30 30 1 else s

section
variable (s : State) (g q : Nat) (fault : Bool)

theorem State.rd_upKept {a : Nat} (h : a ≠ barAddr g) : (s.upKept g q fault).rd a = s.rd a := by
  unfold State.upKept
  split
  · rw [State.rd_wf_other _ _ _ _ h, State.rd_setBarrier]
  · exact State.rd_setBarrier ..

theorem State.rf_upKept_count : (s.upKept g q fault).rf (barAddr g) 15 0 = s.rf (barAddr g) 15 0 := by
  unfold State.upKept
  split
  · rw [State.rf_wf_field _ (by decide) (by decide), State.rf_setBarrier]
  · exact State.rf_setBarrier ..

theorem State.barrier_upKept : (s.upKept g q fault).barrier g = { s.barrier g with ups := (s.barrier g).ups ++ [q] } := by
  unfold State.upKept
  split
  · rw [State.barrier, State.wf_barriers]
    exact State.barrier_setBarrier_same ..
  · exact State.barrier_setBarrier_same ..

theorem State.barFault_upKept : (s.upKept g q true).barFault g = true := by
  rw [State.barFault, State.upKept, if_pos rfl, State.rf_wf_same _ (by decide)]
  rfl

theorem State.girths_upKept : (s.upKept g q fault).girth0 = s.girth0 ∧ (s.upKept g q fault).girth1 = s.girth1 := by
  unfold State.upKept
  split
  · exact ⟨(State.wf_girth0 ..).trans rfl, (State.wf_girth1 ..).trans rfl⟩
  · exact ⟨rfl, rfl⟩

/-- A port whose state register is the entry of a valid barrier shows a state that is not live, whatever the entry's other bits. -/
theorem State.portLive_entry {t : State} {p : Nat} (h : fabPg p + 0x100 = barAddr g) (hv : t.barValid g = true) : t.portLive p = false := by
  have hbit : fld (t.rd (barAddr g)) 31 31 = 1 := of_decide_eq_true hv
  have hstate : 8 ≤ t.portState p := by
    rw [State.portState, h, State.rf]
    simp only [fld] at hbit ⊢
    omega
  simp only [State.portLive, State.portUp, Bool.or_eq_false_iff, decide_eq_false_iff_not]
  omega

theorem State.barValid_upKept : (s.upKept g q fault).barValid g = s.barValid g := by
  unfold State.upKept
  split
  · rw [State.barValid, State.rf_wf_field _ (by decide) (by decide), State.rf_setBarrier, State.barValid]
  · rfl

theorem State.parentLost_upKept (hv : s.barValid g = true) : (s.upKept g q fault).parentLost = s.parentLost := by
  have hst : rtPg + 0x108 ≠ barAddr g := by
    unfold rtPg barAddr barrierPg modAddr
    omega
  obtain ⟨h0, h1⟩ := s.girths_upKept g q fault
  refine s.parentLost_congr h0 h1 (s.rd_upKept g q fault hst) fun p => ?_
  by_cases h : fabPg p + 0x100 = barAddr g
  · rw [State.portLive_entry g h hv, State.portLive_entry g h ((s.barValid_upKept g q fault).trans hv)]
  · have hstate : (s.upKept g q fault).portState p = s.portState p := State.rf_of_rd (s.rd_upKept g q fault h) 31 28
    simp only [State.portLive, State.portUp, hstate]

end

section
variable {s : State} {p : Nat} {k : Packet}

/-- An UP for a valid entry that waits for its own module is kept while a rail of the parent direction is live (R278). -/
theorem State.girthRx_up (hv : s.barValid (k.tree % 256) = true) (hgen : k.opid = s.barGen (k.tree % 256)) (hdown : k.down = false)
    (hlost : s.parentLost = false) (hwait : s.rf (barAddr (k.tree % 256) + 4) 15 0 < s.rf (barAddr (k.tree % 256)) 15 0)
    (hnew : (s.barrier (k.tree % 256)).ups.contains (p / 2 * 2) = false) :
    s.girthRx p k = s.upKept (k.tree % 256) (p / 2 * 2) (decide (k.value.toNat % 2 = 1)) := by
  have hlost' := (s.parentLost_upKept (k.tree % 256) (p / 2 * 2) (decide (k.value.toNat % 2 = 1)) hv).trans hlost
  have hcount : (s.upKept (k.tree % 256) (p / 2 * 2) (decide (k.value.toNat % 2 = 1))).rf (barAddr (k.tree % 256) + 4) 15 0
      ≠ (s.upKept (k.tree % 256) (p / 2 * 2) (decide (k.value.toNat % 2 = 1))).rf (barAddr (k.tree % 256)) 15 0 := by
    rw [s.rf_upKept_count, State.rf_of_rd (s.rd_upKept _ _ _ (by omega))]
    exact hwait.ne
  have hstep : s.girthRx p k = (s.upKept (k.tree % 256) (p / 2 * 2) (decide (k.value.toNat % 2 = 1))).barStep (k.tree % 256) k.epoch := by
    simp only [State.girthRx, hv, hgen, hdown, hnew, State.upKept, Bool.not_true, Bool.false_eq_true, ne_eq, not_true_eq_false, or_self, ↓reduceIte]
  rw [hstep, State.barStep, hlost', if_neg Bool.false_ne_true, State.barCheck_waits _ _ hcount]

end

/-- Settles O26. -/
theorem barriersAndGirthPackets : Obligations.BarriersAndGirthPackets := by
  refine ⟨fun ag g val s hg hmay hl => ?_, fun n q p s harr hin hep => ?_⟩
  · have hexec : exec (.barrierEntryWrite ag g false val) s = .next (s.writeBarrier g false val) := by
      refine (if_pos (decide_eq_true hg)).trans ?_
      rw [State.ifAdmitted_may hmay]
    have hwait : ((s.withEntry g val).barReset g).rf (barAddr g + 4) 15 0 ≠ ((s.withEntry g val).barReset g).rf (barAddr g) 15 0 := by
      rw [State.rf_barReset_count, State.rf_barReset _ _ (.inl (by decide)), State.rf_withEntry_count]
      exact hl.ne
    rw [s.writeBarrier_entry, State.barCheck_waits _ _ hwait] at hexec
    refine ⟨_, hexec, ?_, ?_, State.rf_barReset_count .., State.barFault_barReset .., ?_, ?_, ?_⟩
    · rw [State.rf_barReset _ _ (.inr (by decide)), State.rf_withEntry_valid]
    · rw [State.rf_barReset _ _ (.inl (by decide)), State.rf_withEntry_count]
    · rw [State.barrier_barReset]
    · rw [State.barrier_barReset]
    · rw [State.barGen_barReset, State.barGen_withEntry]
  · have hexec := exec_girth_received harr hin hep
    obtain ⟨l, hl⟩ := (s.takeArrival n).freeIngress_only q p
    rw [hl] at hexec
    refine ⟨fun hdrop => ?_, fun hv hgen hdown hlost hwait hnew => ?_⟩
    · rw [State.girthRx_drops ({ s.takeArrival n with links := l } : State) hdrop] at hexec
      exact ⟨_, hexec, rfl, State.rf_bump_same _ (by decide), rfl⟩
    · rw [State.girthRx_up (s := { s.takeArrival n with links := l }) hv hgen hdown hlost hwait hnew] at hexec
      refine ⟨_, hexec, ?_, fun hodd => ?_⟩
      · rw [State.barrier_upKept]
        rfl
      · rw [decide_eq_true hodd]
        exact State.barFault_upKept ..

end Sys2Proof.Machine

/-! The switch of an epoch (R260 to R263). -/

namespace Sys2Proof.Machine

theorem Tbl.mem_insertSorted {α : Type} {t : Tbl α} {k : Nat} {v : α} {p : Nat × α} (h : p ∈ Tbl.insertSorted t k v) : p ∈ t ∨ p.1 = k := by
  induction t with
  | nil => exact .inr (congrArg Prod.fst (List.mem_singleton.mp h))
  | cons x t ih =>
    rw [Tbl.insertSorted] at h
    split at h
    · obtain h | h := List.mem_cons.mp h
      · exact .inr (congrArg Prod.fst h)
      · exact .inl h
    · obtain h | h := List.mem_cons.mp h
      · exact .inl (h ▸ List.mem_cons_self)
      · exact (ih h).imp_left (List.mem_cons_of_mem x)

theorem Tbl.mem_set {α : Type} [DecidableEq α] {d : α} {t : Tbl α} {k : Nat} {v : α} {p : Nat × α} (h : p ∈ Tbl.set d t k v) : p ∈ t ∨ p.1 = k := by
  unfold Tbl.set at h
  split at h
  · exact .inl (List.mem_of_mem_filter h)
  · exact (Tbl.mem_insertSorted h).imp_left List.mem_of_mem_filter

section
variable (s : State)

theorem State.treesOf_eq_nil {bank : Nat} : s.treesOf bank = [] ↔ ∀ p ∈ s.regs, ∀ u, treeOf p.1 = some (bank, u) → s.treeValid bank u = false := by
  rw [State.treesOf, List.filterMap_eq_nil_iff]
  refine forall₂_congr fun p _ => ?_
  split
  · next b u h =>
    simp only [h, Option.some.injEq, Prod.mk.injEq, ite_eq_right_iff, reduceCtorEq, imp_false, not_and, Bool.not_eq_true]
    exact ⟨fun hno u' ⟨hb, hu⟩ => hb ▸ hu ▸ hno hb, fun hno hb => hb ▸ hno u ⟨hb, rfl⟩⟩
  · next h => simp [h]

/-- A register below the tree tables makes no tree valid (R250). -/
theorem State.treesOf_wr {bank a : Nat} (ha : a < modAddr 2 64 0) (hno : treeOf a = none) (v : Word) (h : s.treesOf bank = []) :
    (s.wr a v).treesOf bank = [] := by
  rw [State.treesOf_eq_nil] at h ⊢
  intro p hp u hu
  have hne : treeAddr bank u ≠ a := by
    unfold treeAddr modAddr
    unfold modAddr at ha
    omega
  rw [State.treeValid, State.rf_wr_other _ _ _ _ hne]
  rw [State.wr_regs] at hp
  obtain hp | rfl := Tbl.mem_set hp
  · exact h p hp u hu
  · rw [hno] at hu
    cases hu

end

/-- What stays while the barriers, the girth and its links take a new epoch: EP_STAT, the stroke at which the drain ends, and no arrival of the
module's own buckles kept at a barrier. -/
structure State.Switched (v : Word) (r : Option Nat) (t : State) : Prop where
  epStat : t.rd (rtPg + 0x108) = v
  retire : t.epRetire = r
  sent : ∀ g, (t.barrier g).sent = []

namespace State.Switched

variable {v : Word} {r : Option Nat} {t : State} (h : t.Switched v r)
include h

theorem wr {a : Nat} (ha : rtPg + 0x108 ≠ a) (w : Word) : (t.wr a w).Switched v r := by
  obtain ⟨hst, hret, hsent⟩ := h
  exact ⟨(State.rd_wr_other t w ha).trans hst, (State.wr_epRetire ..).trans hret,
      fun g => (congrArg (Tbl.get {} · g |>.sent) (State.wr_barriers ..)).trans (hsent g)⟩

theorem wf {a : Nat} (ha : rtPg + 0x108 ≠ a) (hi lo w : Nat) : (t.wf a hi lo w).Switched v r := h.wr ha _

theorem bump {a : Nat} (ha : rtPg + 0x108 ≠ a) (hi lo n : Nat) : (t.bump a hi lo n).Switched v r := h.wf ha ..

theorem foldl {α : Type} {f : State → α → State} (l : List α) (hf : ∀ a ∈ l, ∀ u : State, u.Switched v r → (f u a).Switched v r) :
    (l.foldl f t).Switched v r := by
  induction l generalizing t with
  | nil => exact h
  | cons a l ih =>
    obtain ⟨ha, hl⟩ := List.forall_mem_cons.mp hf
    exact ih (ha t h) hl

theorem linkFlush (p n : Nat) : (t.linkFlush p n).Switched v r := by
  induction n generalizing t with
  | zero => exact h
  | succ n ih =>
    rw [State.linkFlush]
    split
    · exact ih ⟨h.epStat, h.retire, h.sent⟩
    · exact h

theorem linkSend (p : Nat) (k : Packet) : (t.linkSend p k).Switched v r := by
  have hset : (t.setLink p { t.link p with waiting := (t.link p).waiting ++ [k] }).Switched v r := ⟨h.epStat, h.retire, h.sent⟩
  rw [State.linkSend, State.linkGo]
  split
  · refine (hset.linkFlush p _).foldl _ fun x hx u hu => hu.wf ?_ ..
    have hlt := List.mem_range.mp hx
    unfold rtPg fabPg modAddr
    omega
  · exact hset

theorem setBarrier {b : Barrier} (hb : b.sent = []) (g : Nat) : (t.setBarrier g b).Switched v r := by
  refine ⟨h.epStat, h.retire, fun g' => ?_⟩
  by_cases hg : g' = g
  · rw [hg, State.barrier_setBarrier_same, hb]
  · rw [State.setBarrier, State.barrier, Tbl.get_set_other _ _ _ _ hg]
    exact h.sent g'

/-- Completing a barrier at which no buckle of the module waits (R278). -/
theorem barComplete (g : Nat) (down : Bool) (e : Nat) : (t.barComplete g down e).Switched v r := by
  have hentry (k : Nat) (hk : k < 8) : rtPg + 0x108 ≠ barAddr g + k := by
    unfold rtPg barAddr barrierPg modAddr
    omega
  have hgirth : rtPg + 0x108 ≠ girthPg + 0x110 := by decide
  have hsends (k : Packet) (l : List Nat) := h.foldl (f := fun (s : State) p => s.linkSend p { k with dmod := s.rf (fabPg p + 0x104) 12 0 }) l
    fun p _ u hu => hu.linkSend p _
  simp only [State.barComplete]
  generalize hsent : List.foldl _ t _ = u
  have hu : u.Switched v r := hsent ▸ hsends _ _
  rw [hu.sent g, List.foldl_nil]
  have hset := hu.setBarrier (b := { lost := (u.barrier g).lost }) rfl g
  have hclear := (hset.wf (hentry 0 (by decide)) 30 30 0).wf (hentry 4 (by decide)) 15 0 0
  have hcount (n : Nat) := (hclear.wf (hentry 4 (by decide)) 31 16 n).bump hgirth 31 16 1
  split
  · exact (hcount _).bump hgirth 15 0 1
  · exact hcount _

theorem barCheck (g e n : Nat) : (t.barCheck g e n).Switched v r := by
  induction n generalizing t with
  | zero => exact h
  | succ n ih =>
    have hdone := ih (h.barComplete g (t.barFault g) e)
    have hup (k : Packet) := (h.setBarrier (b := { t.barrier g with sentUp := true }) (h.sent g) g).linkSend (t.girth e).parent k
    rw [State.barCheck]
    dsimp only
    split
    · split
      · exact hdone
      · exact hup _
    · exact h

theorem girthRegs : t.girthRegs.Switched v r := by
  have ha : rtPg + 0x108 ≠ girthPg + 0x100 := by decide
  exact ((h.wf ha 29 29 _).wf ha 15 12 _).wf ha 27 16 _

theorem girthRenew (bank : Nat) : (t.girthRenew bank).Switched v r := by
  rw [State.girthRenew]
  refine girthRegs ?_
  split
  · exact ⟨h.epStat, h.retire, h.sent⟩
  · exact ⟨h.epStat, h.retire, h.sent⟩

theorem chipRec (pg sev cls cyc : Nat) (synd : BitVec 64) (ctx : Option Nat) : (t.chipRec pg sev cls cyc synd ctx).Switched v r := by
  rw [State.chipRec]
  split
  · exact h
  · exact ⟨h.epStat, h.retire, h.sent⟩

theorem followPath (n : Nat) : (t.followPath n).Switched v r := by
  have ha : rtPg + 0x108 ≠ girthPg + 0x100 := by decide
  have hpath := h.wf ha 30 30 (bit t.pathLocked)
  simp only [State.followPath]
  split
  · exact hpath.wf ha ..
  · split
    · exact (hpath.wf ha ..).chipRec ..
    · exact hpath

theorem rootChanged (was : Bool) (n : Nat) : (t.rootChanged was n).Switched v r := by
  have hstat : rtPg + 0x108 ≠ genStat := by decide
  simp only [State.rootChanged]
  refine followPath ?_ n
  split
  · exact h
  · have hbits := (h.wf hstat 5 5 (bit (!t.girthChild))).wf hstat 6 6 (bit false)
    have hgen x : ({ (t.setGenBit 5 (!t.girthChild)).setGenBit 6 false with gen := x } : State).Switched v r :=
      ⟨hbits.epStat, hbits.retire, hbits.sent⟩
    split
    · exact ((hgen _).wf hstat 7 7 _).wr (a := genPg + 0x11C) (by decide) 0
    · exact hgen _

theorem barRecheck (e : Nat) : (t.barRecheck e).Switched v r :=
  h.foldl _ fun g _ _ hu => hu.barCheck g e 2

theorem parentDown : t.parentDown.Switched v r := by
  refine (h.wf (a := girthPg + 0x100) (by decide) 28 28 1).foldl _ fun g _ u hu => ?_
  dsimp only
  split
  · exact hu.barComplete g true _
  · exact hu

end State.Switched

/-- EP_STAT when the module takes the other epoch: EPOCH, not armed, draining, and KEYS_OVER (R260, R262). -/
def State.epochTaken (s : State) : State :=
  ((((s.wf (rtPg + 0x108) 0 0 (1 - s.epoch)).wf (rtPg + 0x108) 29 29 0).wf (rtPg + 0x108) 28 28 1).wf (rtPg + 0x108) 30 30 0).wf
    (rtPg + 0x108) 26 26 (bit (s.keysOver (1 - s.epoch)))

/-- The stroke at which a drain ends (R263). -/
def State.withRetire (s : State) (r : Option Nat) : State := { s with epRetire := r }

/-- The end of a drain (R263). -/
def State.epochDrained (s : State) (faults : List (Nat × Nat)) : State := { s with epRetire := none, treeFaults := faults }

section
variable (s : State) (l : List (Nat × Nat))

theorem State.epochDrained_rf (a hi lo : Nat) : (s.epochDrained l).rf a hi lo = s.rf a hi lo := rfl

theorem State.epochDrained_cores : (s.epochDrained l).cores = s.cores := rfl

theorem State.epochDrained_mem : (s.epochDrained l).mem = s.mem := rfl

theorem State.epochDrained_retire : (s.epochDrained l).epRetire = none := rfl

theorem State.epochDrained_faults : (s.epochDrained l).treeFaults = l := rfl

end

/-- An armed switch whose stroke has come takes effect, and the girth and the barriers follow (R260, R262). -/
theorem exec_epochFlip_takes {t0 : Nat} {s : State} (harmed : s.rf (rtPg + 0x108) 29 29 = 1) (hreach : s.rd64 (rtPg + 0x114) % 2 ^ 40 ≤ s.stroke) :
    exec (.epochFlip t0) s = .next (
      let u := (((s.epochTaken.withRetire (some (s.rd64 (rtPg + 0x114) % 2 ^ 40 + s.epochTaken.rf (rtPg + 0x110) 15 0))).girthRenew (1 - s.epoch)).wf
        (girthPg + 0x100) 28 28 0)
      let u := (u.activationFaults (1 - s.epoch) (tclkCycle t0)).rootChanged (!s.girthChild) t0
      if u.parentLost then u.parentDown else u.barRecheck (1 - s.epoch)) := by
  change execEpochFlip t0 s = _
  rw [execEpochFlip]
  refine (if_neg ?_).trans rfl
  omega

section
variable (s : State) (val : Word)

theorem State.epCtl_rest : (s.epCtl val).rest = s.rest := by
  simp only [State.epCtl, apply_ite State.rest, State.wf_rest, ite_self]

/-- A write of 1 to ARM arms the switch when none is armed or draining, and changes no bit of EP_STAT when one is (R260). -/
theorem State.epCtl_arms {val : Word} (harm : fld val 31 31 = 1) :
    (s.rf (rtPg + 0x108) 29 29 = 0 → s.rf (rtPg + 0x108) 28 28 = 0 → (s.epCtl val).rf (rtPg + 0x108) 29 29 = 1)
      ∧ ((s.rf (rtPg + 0x108) 29 29 = 1 ∨ s.rf (rtPg + 0x108) 28 28 = 1) → (s.epCtl val).rd (rtPg + 0x108) = s.rd (rtPg + 0x108)) := by
  have hne : rtPg + 0x108 ≠ rtPg + 0x110 := by decide
  simp only [State.epCtl, harm, State.rf_wf_other s hne, Nat.one_ne_zero, false_or]
  refine ⟨fun h29 h28 => ?_, fun hbusy => ?_⟩
  · rw [if_neg (by omega), State.rf_wf_field _ (by decide) (by decide), State.rf_wf_same _ (by decide)]
    rfl
  · rw [if_pos hbusy, State.rd_wf_other _ _ _ _ hne]

end

theorem exec_epCtlArm {ag : Agent} {val : Word} {s : State} (hmay : s.mayWrite ag (rtPg + 0x110)) :
    exec (.epCtlArm ag val) s = .next (s.epCtl val) := by
  change execEpCtlArm ag val s = _
  rw [execEpCtlArm, State.ifAdmitted_may hmay]

theorem exec_epochRetire_drained {t0 k : Nat} {s : State} (hret : s.epRetire = some k) (hdrain : s.rf (rtPg + 0x108) 28 28 = 1) (hk : k ≤ s.stroke)
    (hkeys : s.keys = []) : exec (.epochRetire t0) s = .next ((s.wf (rtPg + 0x108) 28 28 0).epochDrained
        (s.treeFaults.filter (fun x => decide (x.2 ≠ 1 - s.epoch)))) := by
  change execEpochRetire t0 s = _
  simp only [execEpochRetire, hret, hdrain, Nat.not_lt.mpr hk, hkeys, State.epochDrained, Nat.one_ne_zero, or_self, ↓reduceIte, List.filter_nil,
    List.map_nil, List.dedup_nil, List.foldl_nil]

section
variable (s : State)

theorem State.treesOf_wf {bank a : Nat} (ha : a < modAddr 2 64 0) (hno : treeOf a = none) (hi lo v : Nat) (h : s.treesOf bank = []) :
    (s.wf a hi lo v).treesOf bank = [] :=
  s.treesOf_wr ha hno _ h

theorem State.treesOf_girthRenew {bank : Nat} (e : Nat) (h : s.treesOf bank = []) : (s.girthRenew e).treesOf bank = [] := by
  have hlow : girthPg + 0x100 < modAddr 2 64 0 := by decide
  have hno : treeOf (girthPg + 0x100) = none := by decide
  have hregs (t : State) (ht : t.treesOf bank = []) : t.girthRegs.treesOf bank = [] :=
    State.treesOf_wf _ hlow hno 27 16 _ (State.treesOf_wf _ hlow hno 15 12 _ (State.treesOf_wf _ hlow hno 29 29 _ ht))
  rw [State.girthRenew]
  refine hregs _ ?_
  split
  · exact h
  · exact h

theorem State.treesOf_epochTaken {bank : Nat} (h : s.treesOf bank = []) : s.epochTaken.treesOf bank = [] := by
  have hlow : rtPg + 0x108 < modAddr 2 64 0 := by decide
  have hno : treeOf (rtPg + 0x108) = none := by decide
  unfold State.epochTaken
  iterate 5 refine State.treesOf_wf _ hlow hno _ _ _ ?_
  exact h

theorem State.epochTaken_epoch : s.epochTaken.epoch = 1 - s.epoch := by
  have hlt : (1 - s.epoch) % 2 ^ (0 + 1 - 0) = 1 - s.epoch := Nat.mod_eq_of_lt (by omega)
  rw [State.epoch, State.epochTaken, State.rf_wf_field _ (by decide) (by decide), State.rf_wf_field _ (by decide) (by decide),
    State.rf_wf_field _ (by decide) (by decide), State.rf_wf_field _ (by decide) (by decide), State.rf_wf_same _ (by decide), hlt]

theorem State.epochTaken_unarmed : s.epochTaken.rf (rtPg + 0x108) 29 29 = 0 := by
  rw [State.epochTaken, State.rf_wf_field _ (by decide) (by decide), State.rf_wf_field _ (by decide) (by decide),
    State.rf_wf_field _ (by decide) (by decide), State.rf_wf_same _ (by decide), Nat.zero_mod]

theorem State.epochTaken_draining : s.epochTaken.rf (rtPg + 0x108) 28 28 = 1 := by
  rw [State.epochTaken, State.rf_wf_field _ (by decide) (by decide), State.rf_wf_field _ (by decide) (by decide), State.rf_wf_same _ (by decide)]
  rfl

theorem State.epochTaken_drain : s.epochTaken.rf (rtPg + 0x110) 15 0 = s.rf (rtPg + 0x110) 15 0 := by
  have hne : rtPg + 0x110 ≠ rtPg + 0x108 := by decide
  rw [State.epochTaken, State.rf_wf_other _ hne, State.rf_wf_other _ hne, State.rf_wf_other _ hne, State.rf_wf_other _ hne, State.rf_wf_other _ hne]

theorem State.activationFaults_nil {e : Nat} (h : s.treesOf e = []) (cyc : Nat) : s.activationFaults e cyc = s := by
  rw [State.activationFaults, h, List.foldl_nil]

theorem State.withRetire_rd (r : Option Nat) (a : Nat) : (s.withRetire r).rd a = s.rd a := rfl

theorem State.withRetire_barriers (r : Option Nat) : (s.withRetire r).barriers = s.barriers := rfl

theorem State.withRetire_treesOf (r : Option Nat) (bank : Nat) : (s.withRetire r).treesOf bank = s.treesOf bank := rfl

theorem State.epochTaken_switched (r : Option Nat) (h : s.barriers = []) :
    (s.epochTaken.withRetire r).Switched (s.epochTaken.rd (rtPg + 0x108)) r := by
  refine ⟨State.withRetire_rd .., rfl, fun g => ?_⟩
  have hbar : (s.epochTaken.withRetire r).barriers = s.barriers := by
    rw [State.withRetire_barriers, State.epochTaken, State.wf_barriers, State.wf_barriers, State.wf_barriers, State.wf_barriers, State.wf_barriers]
  rw [State.barrier, hbar, h]
  rfl

end

/-- Settles O29. -/
theorem epochSwitch : Obligations.EpochSwitch := by
  refine ⟨fun ag val s hmay harm => ?_, fun t0 s harmed hreach htrees hbars => ?_, fun t0 k s hret hdrain hk hkeys => ?_⟩
  · obtain ⟨hfree, hbusy⟩ := s.epCtl_arms harm
    exact ⟨_, exec_epCtlArm hmay, hfree, hbusy, State.mem_of_rest (s.epCtl_rest val), State.cores_of_rest (s.epCtl_rest val)⟩
  · have hexec := exec_epochFlip_takes (t0 := t0) harmed hreach
    rw [s.epochTaken_drain] at hexec
    generalize hr : some (s.rd64 (rtPg + 0x114) % 2 ^ 40 + s.rf (rtPg + 0x110) 15 0) = r at hexec ⊢
    have htaken := (s.epochTaken_switched r hbars).girthRenew (1 - s.epoch)
    have hnone := State.treesOf_girthRenew (s.epochTaken.withRetire r) (1 - s.epoch) ((State.withRetire_treesOf ..).trans (s.treesOf_epochTaken
        htrees))
    generalize (s.epochTaken.withRetire r).girthRenew (1 - s.epoch) = u at *
    have hmark := (htaken.wf (a := girthPg + 0x100) (by decide) 28 28 0).rootChanged (!s.girthChild) t0
    dsimp only at hexec
    rw [State.activationFaults_nil _ (u.treesOf_wf (by decide) (by decide) 28 28 0 hnone)] at hexec
    generalize (u.wf (girthPg + 0x100) 28 28 0).rootChanged (!s.girthChild) t0 = w at *
    have hfinal : (if w.parentLost then w.parentDown else w.barRecheck (1 - s.epoch)).Switched (s.epochTaken.rd (rtPg + 0x108)) r := by
      split
      · exact hmark.parentDown
      · exact hmark.barRecheck _
    obtain ⟨hst, hret, _⟩ := hfinal
    refine ⟨_, hexec, ?_, ?_, ?_, hret⟩
    · exact (State.rf_of_rd hst 0 0).trans s.epochTaken_epoch
    · exact (State.rf_of_rd hst 29 29).trans s.epochTaken_unarmed
    · exact (State.rf_of_rd hst 28 28).trans s.epochTaken_draining
  · have hexec := exec_epochRetire_drained (t0 := t0) hret hdrain hk hkeys
    refine ⟨_, hexec, ?_, ?_, State.epochDrained_retire .., State.epochDrained_faults .., ?_, ?_⟩
    · rw [State.epochDrained_rf, State.rf_wf_same s (by decide), Nat.zero_mod]
    · rw [State.epoch, State.epochDrained_rf, State.rf_wf_field s (by decide) (by decide), State.epoch]
    · rw [State.epochDrained_cores, State.wf_cores]
    · rw [State.epochDrained_mem, State.wf_mem]

end Sys2Proof.Machine

/-! The module's identity (R236). -/

namespace Sys2Proof.Machine

theorem State.rd_foldl {α : Type} {f : State → α → State} {a : Nat} (hf : ∀ t x, (f t x).rd a = t.rd a) (l : List α) (s : State) :
    (l.foldl f s).rd a = s.rd a := by
  induction l generalizing s with
  | nil => rfl
  | cons x l ih => rw [List.foldl_cons, ih, hf]

theorem State.rd_fresh (s : State) (a : Nat) : s.fresh.2.rd a = s.rd a := rfl

theorem State.rd_withGen (s : State) (g) (a : Nat) : { s with gen := g }.rd a = s.rd a := rfl

section
variable {a : Nat} (hgirth : a ≠ girthPg + 0x100)
include hgirth

theorem State.rd_girthRegs_other (s : State) : s.girthRegs.rd a = s.rd a := by
  simp only [State.girthRegs, State.rd_wf_other _ _ _ _ hgirth]

theorem State.rd_girthRenew_other (s : State) (bank : Nat) : (s.girthRenew bank).rd a = s.rd a := by
  rw [State.girthRenew, State.rd_girthRegs_other hgirth, State.rd_ite]
  split <;> rfl

theorem State.rd_followPath_other (s : State) (n : Nat) : (s.followPath n).rd a = s.rd a := by
  simp only [State.followPath, State.rd_ite, State.rd_chipRec, State.rd_wf_other _ _ _ _ hgirth, ite_self]

theorem State.rd_rootChanged_other (hstat : a ≠ genStat) (hphase : a ≠ genPg + 0x11C) (s : State) (was : Bool) (n : Nat) :
    (s.rootChanged was n).rd a = s.rd a := by
  have hgen (t : State) (g) : { t with gen := g }.rd a = t.rd a := State.rd_withGen t g a
  simp only [State.rootChanged, State.rd_followPath_other hgirth, State.rd_ite, State.setGenBit, State.rd_wr_other _ _ hphase,
    State.rd_wf_other _ _ _ _ hstat, hgen, ite_self]

end

/-- ID_BAD as a write of MY_ID or TORUS_DIM leaves it, and the two registers it is of (R236). -/
theorem State.rd_checkId_other (s : State) {a : Nat} (hgirth : a ≠ girthPg + 0x100) (h : a ≠ rtPg + 0x108) : s.checkId.rd a = s.rd a := by
  rw [State.checkId, State.rd_foldl fun t x => t.rd_girthRenew_other hgirth x, State.rd_wf_other _ _ _ _ h]

theorem State.rf_checkId (s : State) : s.checkId.rf (rtPg + 0x108) 31 31 = bit (!s.idInside s.myId) := by
  have hlt (b : Bool) : bit b % 2 ^ (31 + 1 - 31) = bit b := by cases b <;> rfl
  rw [State.checkId, State.rf_of_rd (State.rd_foldl (fun t x => t.rd_girthRenew_other (by decide) x) _ _), State.rf_wf_same _ (by decide), hlt]

/-- Whether an identity lies inside the torus is read from TORUS_DIM alone (R236). -/
theorem State.idInside_congr {s t : State} (h : t.rd (rtPg + 0x104) = s.rd (rtPg + 0x104)) (id : Nat) : t.idInside id = s.idInside id := by
  have hdim (d : Nat) : t.dimN d = s.dimN d := by
    simp only [State.dimN, State.rf_of_rd h]
  simp only [State.idInside, hdim]

/-- A write of MY_ID or TORUS_DIM while no port is up or trains: the register takes its value, and ID_BAD follows (R236). -/
theorem State.idWrite_accepted {s : State} {off : Nat} (hoff : off = 0x100 ∨ off = 0x104) (h : s.allPortsDown = true) (val : Word) :
    (s.idWrite off val).rf (rtPg + off) 12 0 = fld val 12 0
      ∧ (s.idWrite off val).rf (rtPg + 0x108) 31 31 = bit (!(s.idWrite off val).idInside (s.idWrite off val).myId) := by
  have hkeep (a : Nat) (ha : a ∈ [rtPg + 0x100, rtPg + 0x104, rtPg + 0x108]) :
      (s.idWrite off val).rd a = ((s.wf (rtPg + off) 12 0 (fld val 12 0)).checkId).rd a := by
    have hne : a ≠ girthPg + 0x100 ∧ a ≠ genStat ∧ a ≠ genPg + 0x11C := by
      revert a
      decide
    obtain ⟨hgirth, hstat, hphase⟩ := hne
    fun_cases State.idWrite s off val
    · rfl
    · next u _ n w hfresh =>
      rw [State.rd_rootChanged_other hgirth hstat hphase]
      exact (congrArg (fun x : Nat × State => x.2.rd a) hfresh).symm.trans (State.rd_fresh ..)
    · next hno => exact absurd h hno
  have hoff' : rtPg + off ∈ [rtPg + 0x100, rtPg + 0x104, rtPg + 0x108] := by
    obtain rfl | rfl := hoff <;> decide
  have hmy : (s.idWrite off val).myId = (s.wf (rtPg + off) 12 0 (fld val 12 0)).checkId.myId := State.rf_of_rd (hkeep (rtPg + 0x100) (by decide)) 12 0
  have hstat : rtPg + off ≠ girthPg + 0x100 ∧ rtPg + off ≠ rtPg + 0x108 := by
    obtain rfl | rfl := hoff <;> decide
  constructor
  · rw [State.rf_of_rd (hkeep _ hoff'), State.rf_of_rd (State.rd_checkId_other _ hstat.1 hstat.2), State.rf_wf_same _ (by decide)]
    exact Nat.mod_eq_of_lt (fld_lt ..)
  · rw [State.rf_of_rd (hkeep _ (by decide)), State.rf_checkId, State.idInside_congr (hkeep _ (by decide)), hmy,
      State.idInside_congr (State.rd_checkId_other _ (by decide) (by decide)), State.myId, State.myId,
      State.rf_of_rd (State.rd_checkId_other _ (by decide) (by decide))]

/-- No port trains while ID_BAD is set (R236). -/
theorem State.softRetrain_idBad {s : State} {port : Nat} (hdown : s.portState port = 0) (hbad : s.rf (rtPg + 0x108) 31 31 = 1) (res : TrainResult)
    (quals : List (Nat × Nat × Nat)) (again : List TrainResult) (cyc : Nat) : s.softRetrain port res quals again cyc = s := by
  have hup : s.portUp port = false := by simp [State.portUp, hdown]
  simp [State.softRetrain, State.train, State.qualify, hdown, hbad, hup]

/-- Settles O33. -/
theorem moduleIdentityWrites : Obligations.ModuleIdentityWrites := by
  intro ag val s hid hdim
  have hexecId : exec (.fabIdWrite ag val) s = .next (s.idWrite 0x100 val) := by
    change execFabIdWrite ag val s = _
    rw [execFabIdWrite, State.ifAdmitted_may hid]
  have hexecDim : exec (.torusDimWrite ag val) s = .next (s.idWrite 0x104 val) := by
    change execTorusDimWrite ag val s = _
    rw [execTorusDimWrite, State.ifAdmitted_may hdim]
  refine ⟨fun hall => ⟨?_, ?_⟩, fun hbusy => ?_, fun port res quals again t0 hport hres hq hagain hdown hbad => ?_⟩
  · obtain ⟨hval, hid⟩ := State.idWrite_accepted (.inl rfl) hall val
    exact ⟨_, hexecId, hval, hid⟩
  · obtain ⟨hval, hid⟩ := State.idWrite_accepted (.inr rfl) hall val
    exact ⟨_, hexecDim, hval, hid⟩
  · have hkeep (off : Nat) : s.idWrite off val = s := by
      rw [State.idWrite, if_neg (ne_true_of_eq_false hbusy)]
    exact ⟨hexecId.trans (by rw [hkeep]), hexecDim.trans (by rw [hkeep])⟩
  · have hwf : (Instr.fabRetrain port res quals again t0).wf = true := by
      simp only [Instr.wf, Bool.and_eq_true, decide_eq_true_eq, List.all_eq_true]
      exact ⟨⟨⟨hport, hres⟩, hq⟩, hagain⟩
    refine (if_pos hwf).trans ?_
    rw [State.softRetrain_idBad hdown hbad]

end Sys2Proof.Machine

/-! The fabric links: acknowledgement, credit and replay (R221 to R226). -/

namespace Sys2Proof.Machine

section
variable {s t : State} (h : t.rest = s.rest)
include h

theorem State.out_of_rest : t.out = s.out := by
  change t.rest.out = s.rest.out
  rw [h]

theorem State.link_of_rest (p : Nat) : t.link p = s.link p := by
  change t.rest.link p = s.rest.link p
  rw [h]

end

section
variable (s : State)

theorem State.fabErr_rest (src cls cyc : Nat) (synd : BitVec 64) : (s.fabErr src cls cyc synd).rest = s.rest := by
  simp only [State.fabErr, State.countErr_rest, State.capture_rest]

/-- An error of the fabric unit changes registers of its own header (R26). -/
theorem State.rd_fabErr_other {a : Nat} (h : ∀ o, o < 0x100 → a ≠ fabPg 0 + o) (src cls cyc : Nat) (synd : BitVec 64) :
    (s.fabErr src cls cyc synd).rd a = s.rd a := by
  rw [State.fabErr, State.rd_countErr_other h, State.rd_capture_other h]

theorem State.rd_srcRec (pg bitNo sev cls cyc : Nat) (synd : BitVec 64) (a : Nat) : (s.srcRec pg bitNo sev cls cyc synd).rd a = s.rd a := by
  rw [State.srcRec, State.rd_ite, State.rd_chipRec, ite_self]

theorem State.rd_setLink (p : Nat) (l : FabLink) (a : Nat) : (s.setLink p l).rd a = s.rd a := rfl

theorem State.link_setLink_same (p : Nat) (l : FabLink) : (s.setLink p l).link p = l := Tbl.get_set_same ..

theorem State.credRegs_rest (p : Nat) : (s.credRegs p).rest = s.rest := State.foldl_rest _ (fun t _ => t.wf_rest ..) _ s

/-- With nothing waiting a link sends nothing; its credit registers are written again (R224). -/
theorem State.linkGo_empty {p : Nat} (h : (s.link p).waiting = []) : (s.linkGo p).rest = s.rest := by
  rw [State.linkGo]
  split
  · rw [State.credRegs_rest, h]
    rfl
  · rfl

end

/-- A field of a control block below its CRC (R216). -/
theorem blk_mkBlock (body : Nat) {hi lo : Nat} (h : hi < 240) : blk (mkBlock body) hi lo = body / 2 ^ lo % 2 ^ (hi + 1 - lo) := by
  apply Nat.eq_of_testBit_eq
  intro i
  rw [blk, mkBlock, Nat.testBit_mod_two_pow, Nat.testBit_mod_two_pow, Nat.testBit_div_two_pow, Nat.testBit_div_two_pow]
  by_cases hi' : i < hi + 1 - lo
  · rw [BitVec.toNat_ofNat, Nat.testBit_mod_two_pow, Nat.add_comm (body % 2 ^ 240), Nat.mul_comm,
      Nat.testBit_two_pow_mul_add _ (Nat.mod_lt _ (by decide)), if_pos (by omega), Nat.testBit_mod_two_pow]
    simp only [show i + lo < 256 by omega, show i + lo < 240 by omega, decide_true, Bool.true_and]
  · simp [hi']

/-! ### Blocks, timers and replay (R221 to R226) -/

section
variable {port t0 : Nat} {block : BitVec 256} {s : State} (hport : port < 12) (hup : s.portUp port = true)
include hport hup

theorem exec_ack (hok : blockOk block = true) (hty : blk block 7 0 = 2) :
    exec (.ack port block t0) s = .next ((s.setLink port ((s.link port).acked (blk block 19 8))).linkGo port) := by
  refine (if_pos (decide_eq_true hport)).trans ?_
  simp only [State.onBlock, hup, hok, hty, Bool.not_true, Bool.false_eq_true, ↓reduceIte]

theorem exec_credit (hok : blockOk block = true) (hty : blk block 7 0 = 4) :
    exec (.credit port block t0) s = .next ((s.setLink port { s.link port with
      freedSeen := (List.range 5).map (fun v => blk block (16 * v + 23) (16 * v + 8)) }).linkGo port) := by
  refine (if_pos (decide_eq_true hport)).trans ?_
  simp only [State.onBlock, hup, hok, hty, Bool.not_true, Bool.false_eq_true, ↓reduceIte]

theorem exec_nak (hok : blockOk block = true) (hty : blk block 7 0 = 3) :
    exec (.nak port block t0) s = .next (s.replay port (blk block 19 8) t0) := by
  refine (if_pos (decide_eq_true hport)).trans ?_
  simp only [State.onBlock, hup, hok, hty, Bool.not_true, Bool.false_eq_true, ↓reduceIte]

theorem exec_replayTimeout {x : Nat × Packet} {l : List (Nat × Packet)} (hl : (s.link port).unacked = x :: l) :
    exec (.replayTimeout port t0) s = .next (s.replay port x.1 t0) := by
  refine (if_pos (decide_eq_true hport)).trans ?_
  simp only [hl, hup, ↓reduceIte]

theorem exec_linkAckTimer_owed (h : 0 < (s.link port).pendAck) : exec (.linkAckTimer port) s = .next (s.sendAck port) := by
  refine (if_pos (decide_eq_true hport)).trans ?_
  exact if_pos ⟨hup, h⟩

theorem exec_creditTimer_owed (h : (s.link port).freed ≠ (s.link port).freedTold) :
    exec (.creditTimer port) s = .next ((s.setLink port { s.link port with freedTold := (s.link port).freed }).sendBlock port
      (4 + packFields ((0, 8) :: (s.link port).freed.map (fun n => (n, 16))))) := by
  refine (if_pos (decide_eq_true hport)).trans ?_
  exact if_pos ⟨hup, h⟩

end

/-- A link as a replay marks it: where it began, and how many in a row from that SEQ (R221, R229). -/
def State.replayLink (s : State) (p seq t : Nat) : FabLink :=
  let l := s.link p
  { l with lastReplay := some seq, sameReplay := if l.lastReplay = some seq then l.sameReplay + 1 else 1, replayAt := some (s.gen.base + 16 * t),
           replayFrom := seq, winReps := l.winReps + 1 }

/-- A replay's marks, count and error, before the record of many replays. -/
def State.replayNoted (s : State) (p seq t : Nat) : State :=
  ((s.setLink p (s.replayLink p seq t)).bump (fabPg p + 0x114) 31 0 1).fabErr 3 0x20 (tclkCycle t) (BitVec.ofNat 64 (p + seq * 2 ^ 20))

/-- What a replay writes before it sends or retrains (R221, R223, R229). -/
def State.replayBegun (s : State) (p seq t : Nat) : State := (s.replayNoted p seq t).replayRecord p seq (tclkCycle t)

section
variable (s : State) (p seq t : Nat)

theorem State.replay_starts (h : (s.link p).unacked.any (fun x => decide (x.1 = seq)) = true) (hr : s.replaying p seq (s.gen.base + 16 * t) = false) :
    s.replay p seq t = if 4 ≤ (if (s.link p).lastReplay = some seq then (s.link p).sameReplay + 1 else 1)
      then (s.replayBegun p seq t).startRetrain p (tclkCycle t) else (s.replayBegun p seq t).resendFrom p seq := by
  rw [State.replay]
  refine (if_neg ?_).trans rfl
  rw [h, hr]
  decide

end

section
variable (s : State) (p : Nat)

/-- The record of many replays marks the link's window, and is else a record alone (R229). -/
theorem State.replayRecord_link (seq cyc : Nat) : ∃ b, (s.replayRecord p seq cyc).link p = { s.link p with winDone := b } := by
  simp only [State.replayRecord]
  split
  · refine ⟨true, ?_⟩
    rw [State.link_of_rest (State.srcRec_rest ..), State.link_setLink_same]
  · exact ⟨(s.link p).winDone, rfl⟩

theorem State.replayRecord_out (seq cyc : Nat) : (s.replayRecord p seq cyc).out = s.out ∧ (s.replayRecord p seq cyc).gen = s.gen := by
  simp only [State.replayRecord]
  split
  · rw [State.out_of_rest (State.srcRec_rest ..), State.gen_of_rest (State.srcRec_rest ..)]
    exact ⟨rfl, rfl⟩
  · exact ⟨rfl, rfl⟩

theorem State.rd_replayRecord (seq cyc a : Nat) : (s.replayRecord p seq cyc).rd a = s.rd a := by
  simp only [State.replayRecord]
  split
  · rw [State.rd_srcRec, State.rd_setLink]
  · rfl

variable (seq t : Nat)

theorem State.replayNoted_rest : (s.replayNoted p seq t).rest = (s.setLink p (s.replayLink p seq t)).rest :=
  (State.fabErr_rest ..).trans (State.bump_rest ..)

theorem State.replayBegun_link : ∃ b, (s.replayBegun p seq t).link p = { s.replayLink p seq t with winDone := b } := by
  have hnoted := (State.link_of_rest (s.replayNoted_rest p seq t) p).trans (State.link_setLink_same ..)
  rw [← hnoted]
  exact State.replayRecord_link ..

theorem State.replayBegun_out : (s.replayBegun p seq t).out = s.out ∧ (s.replayBegun p seq t).gen = s.gen := by
  obtain ⟨hout, hgen⟩ := (s.replayNoted p seq t).replayRecord_out p seq (tclkCycle t)
  have hnoted := s.replayNoted_rest p seq t
  exact ⟨hout.trans (State.out_of_rest hnoted :), hgen.trans (State.gen_of_rest hnoted :)⟩

theorem State.rd_replayBegun_other {a : Nat} (h : ∀ o, o < 0x100 → a ≠ fabPg 0 + o) (ha : a ≠ fabPg p + 0x114) :
    (s.replayBegun p seq t).rd a = s.rd a := by
  simp only [State.replayBegun, State.replayNoted, State.rd_replayRecord, State.rd_fabErr_other _ h, State.rd_bump_other _ ha, State.rd_setLink]

/-- The packets that a replay from a SEQ sends again, each under its trailer (R221, R223). -/
def State.resendOuts (s : State) (p seq : Nat) : List Out :=
  ((s.link p).unacked.dropWhile (fun x => decide (x.1 ≠ seq))).map (fun x => Out.packet p x.1 x.2 false (trailerOf x.2 x.1 false))

/-- Sending again from a SEQ changes the output alone (R221). -/
theorem State.resendFrom_eq : s.resendFrom p seq = { s with out := s.out ++ s.resendOuts p seq } := by
  have hfold (l : List (Nat × Packet)) (u : State) :
      l.foldl (fun (s : State) x => s.send (.packet p x.1 x.2 false (trailerOf x.2 x.1 false))) u
        = { u with out := u.out ++ l.map (fun x => Out.packet p x.1 x.2 false (trailerOf x.2 x.1 false)) } := by
    induction l generalizing u with
    | nil => simp
    | cons x l ih =>
      rw [List.foldl_cons, ih]
      simp [State.send]
  exact hfold _ s

/-- A replay under way does not start again in the cycle of its start (R221). -/
theorem State.replay_again {s : State} {p seq t : Nat} (h : (s.link p).replayAt = some (s.gen.base + 16 * t)) : s.replay p seq t = s := by
  simp [State.replay, State.replaying, h]

end

/-- A port's own registers lie above the header of the fabric unit. -/
theorem fabPg_ne_header (p : Nat) {k : Nat} (h : 0x100 ≤ k) : ∀ o, o < 0x100 → fabPg p + k ≠ fabPg 0 + o := by
  unfold fabPg modAddr
  omega

theorem myId_ne_header : ∀ o, o < 0x100 → modAddr 2 16 0x100 ≠ fabPg 0 + o := by
  unfold fabPg modAddr
  omega

theorem myId_ne_port {p k : Nat} (hp : p < 12) (hk : k < 4096) : modAddr 2 16 0x100 ≠ fabPg p + k := by
  unfold fabPg modAddr
  omega

section
variable (s : State) (p : Nat)

theorem State.send_rest (o : Out) : (s.send o).rest = s.rest.send o := rfl

/-- A port that starts a retrain is RETRAINING and counts it (R230). -/
theorem State.rf_startRetrain (cyc : Nat) :
    (s.startRetrain p cyc).portState p = 4 ∧ (s.startRetrain p cyc).rf (fabPg p + 0x128) 31 0 = min (s.rf (fabPg p + 0x128) 31 0 + 1) (2 ^ 32 - 1) :=
        by
  have hsend (t : State) (a hi lo : Nat) : (t.sendTraining p).rf a hi lo = t.rf a hi lo := rfl
  have hcount : fabPg p + 0x128 ≠ fabPg p + 0x100 := by omega
  constructor
  · rw [State.portState, State.startRetrain, hsend, State.rf_of_rd (State.rd_fabErr_other _ (fabPg_ne_header p (by decide)) ..),
      State.rf_bump_other _ hcount.symm, State.rf_wf_same _ (by decide)]
    rfl
  · rw [State.startRetrain, hsend, State.rf_of_rd (State.rd_fabErr_other _ (fabPg_ne_header p (by decide)) ..), State.rf_bump_same _ (by decide),
      State.rf_wf_other _ hcount]

/-- Its training carries the module's ID, the port and the SEQ it expects (R218, R230). -/
theorem State.startRetrain_rest {p : Nat} (hp : p < 12) (cyc : Nat) :
    (s.startRetrain p cyc).rest = (s.send (.training p s.myId p (s.link p).rx)).rest := by
  have hrest : (((s.wf (fabPg p + 0x100) 31 28 4).bump (fabPg p + 0x128) 31 0 1).fabErr 4 0x7F cyc 4).rest = s.rest := by
    rw [State.fabErr_rest, State.bump_rest, State.wf_rest]
  have hid : (((s.wf (fabPg p + 0x100) 31 28 4).bump (fabPg p + 0x128) 31 0 1).fabErr 4 0x7F cyc 4).myId = s.myId := by
    rw [State.myId, State.rf_of_rd (State.rd_fabErr_other _ myId_ne_header ..), State.rf_bump_other _ (myId_ne_port hp (by decide)),
      State.rf_wf_other _ (myId_ne_port hp (by decide)), State.myId]
  rw [State.startRetrain, State.sendTraining, hid, State.link_of_rest hrest, State.send_rest, hrest, State.send_rest]

end

/-- Settles O31. -/
theorem acknowledgeAndReplay : Obligations.AcknowledgeAndReplay := by
  refine ⟨fun port t0 block s hport hup hwait => ⟨fun hok hty hany => ?_, fun hok hty => ?_, fun howed => ?_, fun howed => ?_⟩,
    fun port seq t0 block s hport hup hany hok hty hseq hrep => ?_⟩
  · have hacked : (s.link port).acked (blk block 19 8) = { s.link port with
        unacked := ((s.link port).unacked.dropWhile (fun x => decide (x.1 ≠ blk block 19 8))).drop 1 } := if_pos hany
    have hexec := exec_ack (t0 := t0) hport hup hok hty
    have hrest := State.linkGo_empty (s := s.setLink port ((s.link port).acked (blk block 19 8))) (p := port)
      (by rw [State.link_setLink_same, hacked]; exact hwait)
    refine ⟨_, hexec, ?_, (State.net_of_rest hrest :)⟩
    rw [State.link_of_rest hrest, State.link_setLink_same, hacked]
  · have hexec := exec_credit (t0 := t0) hport hup hok hty
    have hrest := State.linkGo_empty (s := s.setLink port { s.link port with
      freedSeen := (List.range 5).map (fun v => blk block (16 * v + 23) (16 * v + 8)) }) (p := port) (by rw [State.link_setLink_same]; exact hwait)
    refine ⟨_, hexec, ?_, ?_⟩
    · rw [State.link_of_rest hrest, State.link_setLink_same]
    · rw [State.link_of_rest hrest, State.link_setLink_same]
  · refine ⟨_, _, exec_linkAckTimer_owed hport hup howed, rfl, ?_, ?_, congrArg FabLink.pendAck (State.link_setLink_same ..)⟩
    · rw [blk_mkBlock _ (by decide)]
      omega
    · rw [blk_mkBlock _ (by decide)]
      omega
  · refine ⟨_, _, exec_creditTimer_owed hport hup howed, rfl, ?_, congrArg FabLink.freedTold (State.link_setLink_same ..)⟩
    rw [blk_mkBlock _ (by decide), packFields]
    omega
  · intro again
    have hstart := s.replay_starts port seq t0 hany hrep
    have hnak := exec_nak (t0 := t0) hport hup hok hty
    rw [hseq] at hnak
    obtain ⟨b, hlink⟩ := s.replayBegun_link port seq t0
    obtain ⟨hout, hgen⟩ := s.replayBegun_out port seq t0
    refine ⟨fun hfew => ?_, fun hlast hmany => ?_⟩
    · have hless : ¬ 4 ≤ (if (s.link port).lastReplay = some seq then (s.link port).sameReplay + 1 else 1) := by
        split
        · next h =>
          have := hfew.resolve_left (not_not_intro h)
          omega
        · decide
      have hagain : (s.replayBegun port seq t0).resendOuts port seq = again := by
        rw [State.resendOuts, hlink]
        rfl
      rw [if_neg hless, State.resendFrom_eq, hagain, hout] at hstart
      have hlink' (u : State) (o : List Out) : { u with out := o }.link port = u.link port := rfl
      have hup' : { s.replayBegun port seq t0 with out := s.out ++ again }.portUp port = true := by
        have hstate (u : State) (o : List Out) : { u with out := o }.portState port = u.portState port := rfl
        have hsame : (s.replayBegun port seq t0).portState port = s.portState port :=
          State.rf_of_rd (s.rd_replayBegun_other port seq t0 (fabPg_ne_header port (by decide)) (by omega)) 31 28
        rw [State.portUp, hstate, hsame]
        exact hup
      have hrepeat : { s.replayBegun port seq t0 with out := s.out ++ again }.replay port seq t0
          = { s.replayBegun port seq t0 with out := s.out ++ again } := by
        refine State.replay_again ?_
        have hgen' (u : State) (o : List Out) : { u with out := o }.gen = u.gen := rfl
        rw [hlink', hlink, hgen', hgen, State.replayLink]
      refine ⟨⟨_, hnak.trans (congrArg _ hstart), rfl, ?_, ?_⟩, fun x l hl hx => ⟨{ s.replayBegun port seq t0 with out := s.out ++ again }, ?_, rfl⟩⟩
      · rw [hlink', hlink, State.replayLink]
      · rw [exec_nak hport hup' hok hty, hseq, hrepeat]
      · rw [exec_replayTimeout hport hup hl, hx, hstart]
    · rw [hlast, if_pos rfl, if_pos (by omega)] at hstart
      rw [hstart] at hnak
      refine ⟨_, hnak, ?_, (State.rf_startRetrain ..).1⟩
      have hid : (s.replayBegun port seq t0).myId = s.myId :=
        State.rf_of_rd (s.rd_replayBegun_other port seq t0 myId_ne_header (myId_ne_port hport (by decide))) 12 0
      rw [State.out_of_rest ((s.replayBegun port seq t0).startRetrain_rest hport _), hid, hlink, State.send, hout]
      rfl

end Sys2Proof.Machine

/-! The fabric links: retrain and the loss of a link (R229 to R234). -/

namespace Sys2Proof.Machine

/-- What the link layer of the host ports leaves of a state: all but the ports and what goes out. -/
def State.offHost (s : State) : State := { s with qa := {}, qb := {}, out := [] }

section
variable (s : State) (p : QPort)

theorem State.setQ_offHost (x : QState) : (s.setQ p x).offHost = s.offHost := by
  cases p <;> rfl

theorem State.send_offHost (o : Out) : (s.send o).offHost = s.offHost := rfl

theorem State.flit_offHost (idle nak : Bool) (slots : List (BitVec 128)) : (s.flit p idle nak slots).offHost = s.offHost := by
  simp only [State.flit]
  split
  · rfl
  · rw [State.send_offHost, State.setQ_offHost]

theorem State.qFlushList_offHost (l : List QMsg) (blocked : List Nat) : (s.qFlushList p l blocked).offHost = s.offHost := by
  induction l generalizing s blocked with
  | nil => rfl
  | cons m l ih =>
    simp only [State.qFlushList]
    split
    · rw [ih, State.flit_offHost, State.send_offHost, State.setQ_offHost]
    · exact ih ..

theorem State.qNakFlush_offHost : (s.qNakFlush p).offHost = s.offHost := by
  simp only [State.qNakFlush]
  split
  · rw [State.flit_offHost, State.setQ_offHost]
  · rfl

theorem State.qFlush_offHost : (s.qFlush p).offHost = s.offHost := by
  rw [State.qFlush]
  split
  · rw [State.qFlushList_offHost, State.qNakFlush_offHost]
  · rfl

theorem State.qMsg_offHost (m : QMsg) : (s.qMsg p m).offHost = s.offHost := by
  simp only [State.qMsg]
  rw [State.qFlush_offHost, State.setQ_offHost]

theorem State.qReq_offHost (op addr : Nat) (data : List Row) (why : QWhy) : (s.qReq p op addr data why).offHost = s.offHost := by
  simp only [State.qReq]
  rw [State.qMsg_offHost, State.setQ_offHost]

theorem State.intWr_offHost (v : Nat) (fault : Bool) : (s.intWr p v fault).offHost = s.offHost := State.qReq_offHost ..

end

section
variable {s t : State} (h : t.offHost = s.offHost)
include h

theorem State.rd_of_offHost (a : Nat) : t.rd a = s.rd a := by
  change t.offHost.rd a = s.offHost.rd a
  rw [h]

theorem State.link_of_offHost (p : Nat) : t.link p = s.link p := by
  change t.offHost.link p = s.offHost.link p
  rw [h]

theorem State.recQ_of_offHost : t.recQ = s.recQ := by
  change t.offHost.recQ = s.offHost.recQ
  rw [h]

end

/-- What a fault of a buckle does once its bit is set, when the buckle was not released yet: it counts at its barrier, or releases (R274). -/
def State.bklFaulted (s : State) (i : Nat) : State :=
  if s.bklMode i = 2 then
    let g := s.bklAux i % 256
    let s := if (s.barrier g).has i then s.wf (barAddr g) 30 30 1 else s.girthArrive i true
    if s.bklBit i 11 then s else (s.setBkl i 11 true).wakeAll i none
  else s.bklRelease i true

theorem State.bklFault_eq (s : State) (i n : Nat) :
    s.bklFault i n = if s.bklBit i 11 then s.setBkl i n true else (s.setBkl i n true).bklFaulted i := rfl

/-- What stays of a fabric port that has gone down while the module hands back its packets and its trees and barriers react: its state register,
nothing unacknowledged, and the records already on their way (R231, R234). -/
structure State.PortGone (p : Nat) (v : Word) (rs : List Rec) (t : State) : Prop where
  port : p < 12
  down : fld v 31 28 = 0
  reg : t.rd (fabPg p + 0x100) = v
  unacked : (t.link p).unacked = []
  recs : ∀ r ∈ rs, r ∈ t.recQ

namespace State.PortGone

variable {p : Nat} {v : Word} {rs : List Rec} {t : State} (h : t.PortGone p v rs)
include h

theorem wr {a : Nat} (ha : fabPg p + 0x100 ≠ a) (w : Word) : (t.wr a w).PortGone p v rs := by
  obtain ⟨hport, hdown, hreg, hun, hrec⟩ := h
  exact ⟨hport, hdown, (State.rd_wr_other t w ha).trans hreg, (congrArg (Tbl.get {} · p |>.unacked) (State.wr_links t a w)).trans hun,
    fun r hr => (State.wr_recQ t a w) ▸ hrec r hr⟩

theorem wf {a : Nat} (ha : fabPg p + 0x100 ≠ a) (hi lo w : Nat) : (t.wf a hi lo w).PortGone p v rs := h.wr ha _

theorem bump {a : Nat} (ha : fabPg p + 0x100 ≠ a) (hi lo n : Nat) : (t.bump a hi lo n).PortGone p v rs := h.wf ha ..

theorem foldl {α : Type} {f : State → α → State} (l : List α) (hf : ∀ a ∈ l, ∀ u : State, u.PortGone p v rs → (f u a).PortGone p v rs) :
    (l.foldl f t).PortGone p v rs := by
  induction l generalizing t with
  | nil => exact h
  | cons a l ih =>
    obtain ⟨ha, hl⟩ := List.forall_mem_cons.mp hf
    exact ih (ha t h) hl

theorem of_offHost {u : State} (hu : u.offHost = t.offHost) : u.PortGone p v rs :=
  ⟨h.port, h.down, (State.rd_of_offHost hu _).trans h.reg, (congrArg FabLink.unacked (State.link_of_offHost hu p)).trans h.unacked,
    fun r hr => (State.recQ_of_offHost hu) ▸ h.recs r hr⟩

theorem setLink {q : Nat} {l : FabLink} (hl : q = p → l.unacked = []) : (t.setLink q l).PortGone p v rs := by
  refine ⟨h.port, h.down, h.reg, ?_, h.recs⟩
  by_cases hq : p = q
  · rw [hq, State.link_setLink_same]
    exact hl hq.symm
  · rw [State.setLink, State.link, Tbl.get_set_other _ _ _ _ hq]
    exact h.unacked

theorem setBarrier (b : Barrier) (g : Nat) : (t.setBarrier g b).PortGone p v rs := ⟨h.port, h.down, h.reg, h.unacked, h.recs⟩

theorem withPosted (x) : ({ t with posted := x } : State).PortGone p v rs := ⟨h.port, h.down, h.reg, h.unacked, h.recs⟩

theorem emit (r : Rec) : (t.emit r).PortGone p v rs :=
  ⟨h.port, h.down, h.reg, h.unacked, fun r' hr => List.mem_append_left _ (h.recs r' hr)⟩

theorem chipRec (pg sev cls cyc : Nat) (synd : BitVec 64) (ctx : Option Nat) : (t.chipRec pg sev cls cyc synd ctx).PortGone p v rs := by
  rw [State.chipRec]
  split
  · exact h
  · exact h.emit _

theorem setBkl (i n : Nat) (b : Bool) : (t.setBkl i n b).PortGone p v rs := by
  refine h.wf ?_ ..
  unfold fabPg modAddr bklAddr bankPg regionAddr
  omega

theorem wakeAll (i : Nat) (tok : Option (BitVec 16)) : (t.wakeAll i tok).PortGone p v rs := by
  obtain ⟨c, b, hw⟩ := t.wakeAll_only i tok
  have hcores : ({ t with cores := c } : State).PortGone p v rs := ⟨h.port, h.down, h.reg, h.unacked, h.recs⟩
  rw [hw]
  exact hcores.setBkl ..

theorem bklDeny (i : Nat) : (t.bklDeny i).PortGone p v rs := by
  have hp := h.port
  refine h.bump ?_ ..
  unfold fabPg modAddr bankPg regionAddr
  omega

theorem notify (q : QPort) (n : Nat) (fault : Bool) : (t.notify q n fault).PortGone p v rs := by
  have hp := h.port
  have hheld (x) : ({ t with vecHeld := x } : State).PortGone p v rs := ⟨h.port, h.down, h.reg, h.unacked, h.recs⟩
  have ha : fabPg p + 0x100 ≠ qPg q + 0x40C + 16 * n := by
    cases q
    · simp only [fabPg, modAddr, qPg, modPg]
      omega
    · simp only [fabPg, modAddr, qPg, modPg]
      omega
  simp only [State.notify]
  split
  · exact (hheld _).wf ha ..
  · split
    · exact h.of_offHost (State.intWr_offHost ..)
    · exact h

theorem bklEvent (i : Nat) (fault : Bool) : (t.bklEvent i fault).PortGone p v rs := by
  simp only [State.bklEvent]
  split
  · split
    · exact h.bklDeny i
    · exact h.notify ..
  · exact h.bklDeny i

theorem bklRelease (i : Nat) (fault : Bool) : (t.bklRelease i fault).PortGone p v rs := by
  have hset := h.setBkl i 11 true
  by_cases h1 : (t.setBkl i 11 true).bklMode i = 1
  · simp only [State.bklRelease, h1]
    exact ((hset.withPosted _).setBkl i 8 _).wakeAll ..
  · by_cases h3 : (t.setBkl i 11 true).bklMode i = 3
    · simp only [State.bklRelease, h3]
      exact (hset.bklEvent ..).wakeAll ..
    · simp only [State.bklRelease]
      exact hset.wakeAll ..

theorem portDown : t.portUp p = false := by
  have hstate : t.portState p = 0 := by rw [State.portState, State.rf, h.reg, h.down]
  simp [State.portUp, hstate]

theorem linkFlush {q : Nat} (hq : q ≠ p) (n : Nat) : (t.linkFlush q n).PortGone p v rs := by
  induction n generalizing t with
  | zero => exact h
  | succ n ih =>
    rw [State.linkFlush]
    split
    · next k _ =>
      have hset := h.setLink (l := (t.link q).transmit k) fun e => absurd e hq
      exact ih ⟨hset.port, hset.down, hset.reg, hset.unacked, hset.recs⟩
    · exact h

/-- A link that is not up sends nothing, so a port that is down acknowledges nothing either (R231). -/
theorem linkGo (q : Nat) : (t.linkGo q).PortGone p v rs := by
  rw [State.linkGo]
  by_cases hq : q = p
  · rw [hq, h.portDown]
    exact h
  · split
    · refine (h.linkFlush hq _).foldl _ fun x hx u hu => hu.wf ?_ ..
      have hlt := List.mem_range.mp hx
      unfold fabPg modAddr
      omega
    · exact h

theorem linkSend (q : Nat) (k : Packet) : (t.linkSend q k).PortGone p v rs := by
  refine (h.setLink fun e => ?_).linkGo q
  rw [e]
  exact h.unacked

theorem barRelease (g : Nat) (fault : Bool) (i : Nat) : (t.barRelease g fault i).PortGone p v rs := by
  have hset : (if fault then t.setBkl i 6 true else t).PortGone p v rs := by
    split
    · exact h.setBkl ..
    · exact h
  rw [State.barRelease]
  split
  · dsimp only
    split
    · exact hset
    · exact hset.bklRelease ..
  · exact h

theorem barEntry (g k : Nat) : fabPg p + 0x100 ≠ barAddr g + k := by
  have hp := h.port
  unfold fabPg barAddr barrierPg modAddr
  omega

theorem girthReg {k : Nat} : fabPg p + 0x100 ≠ girthPg + k := by
  have hp := h.port
  unfold fabPg girthPg modAddr
  omega

theorem routerReg {k : Nat} : fabPg p + 0x100 ≠ rtPg + k := by
  have hp := h.port
  unfold fabPg rtPg modAddr
  omega

theorem barComplete (g : Nat) (down : Bool) (e : Nat) : (t.barComplete g down e).PortGone p v rs := by
  have hsends (k : Packet) (l : List Nat) := h.foldl (f := fun (s : State) p => s.linkSend p { k with dmod := s.rf (fabPg p + 0x104) 12 0 }) l
    fun q _ u hu => hu.linkSend q _
  simp only [State.barComplete]
  generalize hsent : List.foldl _ t _ = u
  have hu : u.PortGone p v rs := hsent ▸ hsends _ _
  have hrel := hu.foldl (f := fun (s : State) i => s.barRelease g (down || t.barFault g) i) (u.barrier g).sent fun i _ w hw => hw.barRelease ..
  have hclear := ((hrel.setBarrier { lost := (u.barrier g).lost } g).wf (hrel.barEntry g 0) 30 30 0).wf (hrel.barEntry g 4) 15 0 0
  have hcount (n : Nat) := (hclear.wf (hrel.barEntry g 4) 31 16 n).bump (hrel.girthReg (k := 0x110)) 31 16 1
  split
  · exact (hcount _).bump hrel.girthReg 15 0 1
  · exact hcount _

theorem barCheck (g e n : Nat) : (t.barCheck g e n).PortGone p v rs := by
  induction n generalizing t with
  | zero => exact h
  | succ n ih =>
    have hdone := ih (h.barComplete g (t.barFault g) e)
    have hup (k : Packet) := (h.setBarrier { t.barrier g with sentUp := true } g).linkSend (t.girth e).parent k
    rw [State.barCheck]
    dsimp only
    split
    · split
      · exact hdone
      · exact hup _
    · exact h

theorem barStep (g e : Nat) : (t.barStep g e).PortGone p v rs := by
  rw [State.barStep]
  split
  · exact (h.wf h.girthReg 28 28 1).barComplete ..
  · exact h.barCheck ..

theorem girthArrive (i : Nat) (fault : Bool) : (t.girthArrive i fault).PortGone p v rs := by
  simp only [State.girthArrive]
  split
  · exact (h.setBarrier _ _).bump h.routerReg ..
  · have hcount := (h.setBarrier { t.barrier (t.bklAux i % 256) with sent := (t.barrier (t.bklAux i % 256)).sent ++ [i] } (t.bklAux i % 256)).bump
      (h.barEntry (t.bklAux i % 256) 4) 15 0 1
    split
    · exact (hcount.wf (h.barEntry _ 0) 30 30 1).barStep ..
    · exact hcount.barStep ..

theorem bklFaulted (i : Nat) : (t.bklFaulted i).PortGone p v rs := by
  have harrive : (if (t.barrier (t.bklAux i % 256)).has i = true then t.wf (barAddr (t.bklAux i % 256)) 30 30 1
      else t.girthArrive i true).PortGone p v rs := by
    split
    · exact h.wf (h.barEntry _ 0) 30 30 1
    · exact h.girthArrive ..
  rw [State.bklFaulted]
  split
  · dsimp only
    generalize (if (t.barrier (t.bklAux i % 256)).has i = true then _ else _ : State) = u at harrive ⊢
    split
    · exact harrive
    · exact (harrive.setBkl ..).wakeAll ..
  · exact h.bklRelease ..

theorem bklFault (i n : Nat) : (t.bklFault i n).PortGone p v rs := by
  rw [State.bklFault_eq]
  split
  · exact h.setBkl ..
  · exact (h.setBkl ..).bklFaulted i

theorem treeFault (n e cause port : Nat) (from_ : Option Nat) (cyc : Nat) : (t.treeFault n e cause port from_ cyc).PortGone p v rs := by
  simp only [State.treeFault]
  split
  · exact h
  · have hmark : ({ t with treeFaults := t.treeFaults ++ [(n, e)] } : State).PortGone p v rs := ⟨h.port, h.down, h.reg, h.unacked, h.recs⟩
    have hsent (l : List Nat) := hmark.foldl (f := fun (s : State) q => s.sendNotice n e q) l fun q _ u hu => hu.linkSend ..
    refine chipRec (bklFault ?_ ..) ..
    exact ⟨h.port, h.down, (hsent _).reg, (hsent _).unacked, (hsent _).recs⟩

theorem portTrees (q cyc : Nat) : (t.portTrees q cyc).PortGone p v rs := by
  refine h.foldl _ fun e _ u hu => hu.foldl _ fun n _ w hw => ?_
  split
  · exact hw.treeFault ..
  · exact hw

theorem handBack (q cyc : Nat) (k : Packet) : (t.handBack q cyc k).PortGone p v rs := by
  simp only [State.handBack]
  split
  · split
    · exact h.linkSend ..
    · exact h.bump h.routerReg ..
  · split
    · exact h.treeFault ..
    · exact h
  · exact ⟨h.port, h.down, h.reg, h.unacked, h.recs⟩

theorem girthRenew (bank : Nat) : (t.girthRenew bank).PortGone p v rs := by
  have hregs (u : State) (hu : u.PortGone p v rs) : u.girthRegs.PortGone p v rs :=
    ((hu.wf hu.girthReg 29 29 _).wf hu.girthReg 15 12 _).wf hu.girthReg 27 16 _
  rw [State.girthRenew]
  refine hregs _ ?_
  split
  · exact ⟨h.port, h.down, h.reg, h.unacked, h.recs⟩
  · exact ⟨h.port, h.down, h.reg, h.unacked, h.recs⟩

theorem linksChanged : t.linksChanged.PortGone p v rs := by
  have hrenew (l : List Nat) := h.foldl (f := fun (s : State) e => s.girthRenew e) l fun e _ u hu => hu.girthRenew e
  simp only [State.linksChanged]
  split
  · refine ((hrenew _).wf (hrenew []).girthReg 28 28 1).foldl _ fun g _ u hu => ?_
    dsimp only
    split
    · exact hu.barComplete ..
    · exact hu
  · exact hrenew _

end State.PortGone

/-- A port that goes down, reported: its state and its lanes, the error of the fabric unit and the record LINK_DOWN (R231, R234). -/
def State.portNoted (s : State) (p cause cyc : Nat) : State :=
  let s := (s.wf (fabPg p + 0x100) 31 28 0).wf (fabPg p + 0x100) 19 12 0
  (s.fabErr 6 0x21 cyc (s.downSynd p 0 cause)).srcRec (fabPg p) 6 2 0x21 cyc (s.downSynd p 0 cause)

section
variable (s : State) (p cause cyc : Nat)

theorem State.portDown_eq (h : ¬ (s.portState p = 0 ∨ s.portState p = 5)) : s.portDown p cause cyc =
    ((((s.link p).unacked.map (·.2) ++ (s.link p).waiting).foldl (fun (s : State) k => s.handBack p cyc k)
      ((((s.portNoted p cause cyc).setLink p { winReps := (s.link p).winReps, winDone := (s.link p).winDone }).emptyInputs p).portTrees p
          cyc))).linksChanged := by
  rw [State.portDown]
  exact if_neg h

theorem State.rd_portNoted : (s.portNoted p cause cyc).rd (fabPg p + 0x100)
    = ((s.wf (fabPg p + 0x100) 31 28 0).wf (fabPg p + 0x100) 19 12 0).rd (fabPg p + 0x100) := by
  rw [State.portNoted, State.rd_srcRec, State.rd_fabErr_other _ (fabPg_ne_header p (by decide))]

theorem State.rf_portNoted :
    (s.portNoted p cause cyc).rf (fabPg p + 0x100) 31 28 = 0 ∧ (s.portNoted p cause cyc).rf (fabPg p + 0x100) 19 12 = 0 := by
  constructor
  · rw [State.rf_of_rd (s.rd_portNoted ..), State.rf_wf_field _ (by decide) (by decide), State.rf_wf_same _ (by decide), Nat.zero_mod]
  · rw [State.rf_of_rd (s.rd_portNoted ..), State.rf_wf_same _ (by decide), Nat.zero_mod]

end

/-- A port just taken down, whose link is new: nothing of it changes while its packets are handed back and its trees and barriers react (R231). -/
theorem State.PortGone.fresh {s : State} {p : Nat} (hp : p < 12) (hdown : s.rf (fabPg p + 0x100) 31 28 = 0) {l : FabLink} (hl : l.unacked = []) :
    ((s.setLink p l).emptyInputs p).PortGone p (s.rd (fabPg p + 0x100)) s.recQ := by
  refine ⟨hp, hdown, rfl, ?_, fun r hr => hr⟩
  have hlink : ((s.setLink p l).emptyInputs p).link p = l := State.link_setLink_same ..
  rw [hlink, hl]

section
variable (s : State) (cause cyc : Nat)

theorem State.portDown_gone {p : Nat} (hp : p < 12) (h : ¬ (s.portState p = 0 ∨ s.portState p = 5)) :
    (s.portDown p cause cyc).PortGone p ((s.portNoted p cause cyc).rd (fabPg p + 0x100)) (s.portNoted p cause cyc).recQ := by
  rw [s.portDown_eq p cause cyc h]
  exact ((((State.PortGone.fresh hp (s.rf_portNoted p cause cyc).1 rfl).portTrees p cyc).foldl _ fun k _ u hu => hu.handBack p cyc k)).linksChanged

theorem State.portDown_state {p : Nat} (hp : p < 12) (h : ¬ (s.portState p = 0 ∨ s.portState p = 5)) :
    (s.portDown p cause cyc).portState p = 0 ∧ (s.portDown p cause cyc).rf (fabPg p + 0x100) 19 12 = 0
      ∧ ((s.portDown p cause cyc).link p).unacked = [] := by
  obtain ⟨_, hdown, hreg, hun, _⟩ := s.portDown_gone cause cyc hp h
  obtain ⟨hstate, hlanes⟩ := s.rf_portNoted p cause cyc
  exact ⟨(State.rf_of_rd hreg 31 28).trans hstate, (State.rf_of_rd hreg 19 12).trans hlanes, hun⟩

end

section
variable (s : State) (pg bitNo sev cls cyc : Nat) (synd : BitVec 64)

/-- The mask of a unit's sources is the header register that no error of the unit changes (R26, R27). -/
theorem State.rd_countErr_mask : (s.countErr pg bitNo sev).rd (pg + 0x1C) = s.rd (pg + 0x1C) := by
  have hstat : pg + 0x1C ≠ pg + 0x18 := by omega
  have hup (t : State) (ue : Bool) : (t.errUp pg ue).rd (pg + 0x1C) = t.rd (pg + 0x1C) := by
    have hcount : (t.bump (pg + if ue = true then 0x24 else 0x20) 31 0 1).rd (pg + 0x1C) = t.rd (pg + 0x1C) :=
      State.rd_bump_other _ (by split <;> omega)
    simp only [State.errUp, State.rd_ite, State.rd_wf_other _ _ _ _ hstat, hcount, ite_self]
  simp only [State.countErr, State.rd_ite, hup, State.rd_wf_other _ _ _ _ hstat, ite_self]

theorem State.rd_capture_mask : (s.capture pg bitNo sev cls cyc synd).rd (pg + 0x1C) = s.rd (pg + 0x1C) := by
  have hne (k : Nat) (hk : k ≠ 0x1C) : pg + 0x1C ≠ pg + k := by omega
  have hwrite (t : State) : (t.writeCapture pg bitNo sev cls cyc synd).rd (pg + 0x1C) = t.rd (pg + 0x1C) := by
    rw [State.writeCapture, State.rd_withCap, State.rd_wr64_other _ _ (hne 0x38 (by decide)) (hne 0x3C (by decide)),
      State.rd_wr_other _ _ (hne 0x34 (by decide)), State.rd_wr_other _ _ (hne 0x30 (by decide)), State.rd_wr_other _ _ (hne 0x28 (by decide))]
  fun_cases State.capture s pg bitNo sev cls cyc synd <;> simp only [hwrite]

theorem State.rd_fabErr_mask (src : Nat) : (s.fabErr src cls cyc synd).rd (fabPg 0 + 0x1C) = s.rd (fabPg 0 + 0x1C) := by
  rw [State.fabErr, State.rd_countErr_mask, State.rd_capture_mask]

end

theorem locOf_fabPg {p k : Nat} (hp : p < 12) (hk : k < 4096) : locOf (fabPg p + k) = ⟨true, 0, 0, 2, p, k⟩ := by
  have hmod : (fabPg p + k) / 2 ^ 32 % 2 = 1 := by
    unfold fabPg modAddr
    omega
  have hunit : (fabPg p + k) / 2 ^ 24 % 256 = 2 := by
    unfold fabPg modAddr
    omega
  have hpage : (fabPg p + k) / 2 ^ 12 % 4096 = p := by
    unfold fabPg modAddr
    omega
  have hoff : (fabPg p + k) % 4096 = k := by
    unfold fabPg modAddr
    omega
  unfold locOf
  rw [hmod, hunit, hpage, hoff]
  rfl

theorem homeAddr_fabPg {p : Nat} (hp : p < 12) : homeAddr (fabPg p + 0x1C) = fabPg 0 + 0x1C := by
  have hloc := locOf_fabPg hp (show 0x1C < 4096 by decide)
  generalize fabPg p + 0x1C = a at hloc ⊢
  simp only [homeAddr, hloc, show 0x1C < 0x100 by decide, ↓reduceIte, fabPg, modAddr]

/-- LINK_DOWN of severity UC is on its way to the hearth unless its source is masked (R27, R234). -/
theorem State.portNoted_rec (s : State) (cause cyc : Nat) {p : Nat} (hp : p < 12) (h : s.rf (homeAddr (fabPg p + 0x1C)) 6 6 = 0) :
    ∃ r ∈ (s.portNoted p cause cyc).recQ, r.cls = 0x21 ∧ r.sev = 2 ∧ r.src = fabPg p := by
  have hne : fabPg 0 + 0x1C ≠ fabPg p + 0x100 := fun e => fabPg_ne_header p (by decide) 0x1C (by decide) e.symm
  have hmask (synd : BitVec 64) : (((s.wf (fabPg p + 0x100) 31 28 0).wf (fabPg p + 0x100) 19 12 0).fabErr 6 0x21 cyc synd).rf
      (homeAddr (fabPg p + 0x1C)) 6 6 = 0 := by
    rw [homeAddr_fabPg hp] at h ⊢
    rw [State.rf_of_rd (State.rd_fabErr_mask ..), State.rf_wf_other _ hne, State.rf_wf_other _ hne, h]
  have hlevel (t : State) (pg : Nat) : t.lvlSuppresses pg 2 = false := by simp [State.lvlSuppresses]
  simp only [State.portNoted, State.srcRec, hmask, State.chipRec, hlevel, Nat.zero_ne_one, Bool.false_eq_true, false_and, ↓reduceIte]
  exact ⟨_, List.mem_append_right _ (List.mem_singleton_self _), rfl, rfl, rfl⟩

section
variable {s : State} {p : Nat} (hup : s.portUp p = true)
include hup

theorem State.portState_of_up : s.portState p = 2 ∨ s.portState p = 3 := by
  simpa [State.portUp] using hup

/-- A port that is up and trains without completing starts a retrain (R229, R230). -/
theorem State.train_up {r : TrainResult} (hr : r.done = false) (cyc : Nat) : s.train p r cyc = s.startRetrain p cyc := by
  obtain h | h := State.portState_of_up hup
  · simp [State.train, h, hr]
  · simp [State.train, h, hr]

end

/-- What the causes of a retrain leave of a state before the retrain starts: the port is up, and all that the retrain is of is as it was. -/
structure State.RetrainReady (s : State) (p : Nat) (u : State) : Prop where
  up : u.portUp p = true
  count : u.rf (fabPg p + 0x128) 31 0 = s.rf (fabPg p + 0x128) 31 0
  id : u.myId = s.myId
  link : u.link p = s.link p
  net : u.net = s.net
  mem : u.mem = s.mem

namespace State.RetrainReady

variable {s u : State} {p : Nat} (h : s.RetrainReady p u)
include h

theorem cutPacket (cut : Bool) : s.RetrainReady p (u.cutPacket p cut) := by
  unfold State.cutPacket
  split
  · exact ⟨h.up, h.count, h.id, h.link, h.net, h.mem⟩
  · exact h

theorem fabErr (src cls cyc : Nat) (synd : BitVec 64) : s.RetrainReady p (u.fabErr src cls cyc synd) := by
  have hrest := u.fabErr_rest src cls cyc synd
  have hport (k : Nat) (hk : 0x100 ≤ k) := u.rd_fabErr_other (fabPg_ne_header p hk) src cls cyc synd
  refine ⟨?_, (State.rf_of_rd (hport 0x128 (by decide)) 31 0).trans h.count, ?_, ?_, ?_, ?_⟩
  · have hstate : (u.fabErr src cls cyc synd).portState p = u.portState p := State.rf_of_rd (hport 0x100 (by decide)) 31 28
    rw [State.portUp, hstate]
    exact h.up
  · exact (State.rf_of_rd (u.rd_fabErr_other myId_ne_header src cls cyc synd) 12 0).trans h.id
  · rw [State.link_of_rest hrest, h.link]
  · rw [State.net_of_rest hrest, h.net]
  · rw [State.mem_of_rest hrest, h.mem]

/-- A write of a port's register that keeps its state and its count of retrains. -/
theorem wf (hp : p < 12) {k hi lo : Nat} (hk : k < 4096) (hcount : k ≠ 0x128) (hi32 : hi < 32) (hstate : k ≠ 0x100 ∨ hi < 28) (v : Nat) :
    s.RetrainReady p (u.wf (fabPg p + k) hi lo v) := by
  have hsame : (u.wf (fabPg p + k) hi lo v).portState p = u.portState p := by
    by_cases h0 : k = 0x100
    · rw [State.portState, h0, State.rf_wf_field _ hi32 (.inr (hstate.resolve_left (not_not_intro h0)))]
      rfl
    · rw [State.portState, State.rf_wf_other _ (by omega)]
      rfl
  refine ⟨?_, ?_, ?_, ?_, ?_, ?_⟩
  · rw [State.portUp, hsame]
    exact h.up
  · rw [State.rf_wf_other _ (by omega), h.count]
  · rw [State.myId, State.rf_wf_other _ (myId_ne_port hp hk)]
    exact h.id
  · rw [State.link, State.wf_links]
    exact h.link
  · rw [State.wf_net, h.net]
  · rw [State.wf_mem, h.mem]

theorem bump (hp : p < 12) {k hi lo : Nat} (hk : k < 4096) (hcount : k ≠ 0x128) (hi32 : hi < 32) (hstate : k ≠ 0x100 ∨ hi < 28) (n : Nat) :
    s.RetrainReady p (u.bump (fabPg p + k) hi lo n) := h.wf hp hk hcount hi32 hstate _

/-- The retrain that starts: RETRAINING, counted, its training sent, and no packet lost (R218, R230). -/
theorem startRetrain (hp : p < 12) (cyc : Nat) :
    (u.startRetrain p cyc).portState p = 4
      ∧ (u.startRetrain p cyc).rf (fabPg p + 0x128) 31 0 = min (s.rf (fabPg p + 0x128) 31 0 + 1) (2 ^ 32 - 1)
      ∧ .training p s.myId p (s.link p).rx ∈ (u.startRetrain p cyc).out
      ∧ ((u.startRetrain p cyc).link p).unacked = (s.link p).unacked ∧ (u.startRetrain p cyc).net = s.net ∧ (u.startRetrain p cyc).mem = s.mem := by
  obtain ⟨hstate, hcount⟩ := u.rf_startRetrain p cyc
  have hrest := u.startRetrain_rest hp cyc
  refine ⟨hstate, ?_, ?_, ?_, ?_, ?_⟩
  · rw [hcount, h.count]
  · rw [State.out_of_rest hrest, h.id, h.link]
    exact List.mem_append_right _ (List.mem_singleton_self _)
  · rw [State.link_of_rest hrest, ← h.link]
    rfl
  · rw [State.net_of_rest hrest, ← h.net]
    rfl
  · rw [State.mem_of_rest hrest, ← h.mem]
    rfl

end State.RetrainReady

/-- Each cause of a retrain starts one, after the error it counts and the packet it cuts (R229, R230). -/
theorem exec_retrain {port t0 : Nat} {lanes : BitVec 8} {cut : Bool} {quals : List (Nat × Nat × Nat)} {res : TrainResult} {again : List TrainResult}
    {s : State} {c : Instr} (hport : port < 12) (hres : res.wf = true) (hdone : res.done = false) (hquals : ∀ q ∈ quals, q.1 < 8)
    (hagain : ∀ r ∈ again, r.wf = true) (hup : s.portUp port = true)
    (hlanes : 4 ≤ ((lanesOf (s.rf (fabPg port + 0x100) 27 20)).filter (fun i => !lanes.getLsbD i)).length)
    (hc : c ∈ [.fabRetrain port res quals again t0, .peerTraining port res t0, .fecRetrainTrigger port cut res t0, .laneLoss port lanes cut res t0]) :
    ∃ u, s.RetrainReady port u ∧ exec c s = .next (u.startRetrain port (tclkCycle t0)) := by
  have hself : s.RetrainReady port s := ⟨hup, rfl, rfl, rfl, rfl, rfl⟩
  have hwf : (decide (port < 12) && res.wf) = true := Bool.and_eq_true_iff.mpr ⟨decide_eq_true hport, hres⟩
  simp only [List.mem_cons, List.not_mem_nil, or_false] at hc
  obtain rfl | rfl | rfl | rfl := hc
  · have hwf : (Instr.fabRetrain port res quals again t0).wf = true := by
      simp only [Instr.wf, Bool.and_eq_true, decide_eq_true_eq, List.all_eq_true]
      exact ⟨⟨⟨hport, hres⟩, hquals⟩, hagain⟩
    have hstate : s.portState port ≠ 0 := by
      have := State.portState_of_up hup
      omega
    refine ⟨s, hself, (if_pos hwf).trans ?_⟩
    simp only [State.softRetrain, State.train_up hup hdone, hstate, decide_false, Bool.false_eq_true, ↓reduceIte]
  · refine ⟨s, hself, (if_pos hwf).trans ?_⟩
    simp only [hup, Bool.true_or, ↓reduceIte, State.train_up hup hdone]
  · have hcounted := hself.bump hport (k := 0x120) (hi := 31) (lo := 0) (by decide) (by decide) (by decide) (.inl (by decide)) 4
    have hu := (hcounted.fabErr 1 0x7F (tclkCycle t0) 1).cutPacket cut
    refine ⟨_, hu, (if_pos hwf).trans ?_⟩
    rw [if_pos hup, State.train_up hu.up hdone]
  · have hnarrowed := hself.wf hport (k := 0x100) (hi := 27) (lo := 20) (by decide) (by decide) (by decide) (.inr (by decide))
      (laneMask ((lanesOf (s.rf (fabPg port + 0x100) 27 20)).filter (fun i => !lanes.getLsbD i)))
    have hu := (hnarrowed.fabErr 5 0x7F (tclkCycle t0) 5).cutPacket (cut && s.portUp port)
    refine ⟨_, hu, (if_pos hwf).trans ?_⟩
    rw [hup] at hu ⊢
    simp only [Bool.true_or, Bool.not_true, Bool.false_eq_true, ↓reduceIte, Nat.not_lt.mpr hlanes, State.train_up hu.up hdone]

/-- A port whose training fails a third time in a row goes down, and one with fewer failures starts again, counted (R230, R231). -/
theorem exec_retrainTimeout {port t0 : Nat} {res : TrainResult} {s : State} (hport : port < 12) (hres : res.wf = true) (hdone : res.done = false)
    (hstate : s.portState port = 4) :
    exec (.retrainTimeout port res t0) s = .next (if 3 ≤ s.rf (fabPg port + 0x100) 11 10 + 1
      then (s.wf (fabPg port + 0x100) 11 10 0).portDown port 0 (tclkCycle t0)
      else (s.wf (fabPg port + 0x100) 11 10 (s.rf (fabPg port + 0x100) 11 10 + 1)).startRetrain port (tclkCycle t0)) := by
  refine (if_pos (Bool.and_eq_true_iff.mpr ⟨decide_eq_true hport, hres⟩)).trans ?_
  rw [if_neg (not_not_intro hstate)]
  simp only [hdone, Bool.false_eq_true, ↓reduceIte]
  split
  · rfl
  · rfl

/-- The fields of a port's state register that a retrain leaves (R230). -/
theorem State.rf_startRetrain_low (s : State) (p cyc : Nat) {hi lo : Nat} (h : hi < 28) :
    (s.startRetrain p cyc).rf (fabPg p + 0x100) hi lo = s.rf (fabPg p + 0x100) hi lo := by
  have hsend (t : State) (a : Nat) : (t.sendTraining p).rf a hi lo = t.rf a hi lo := rfl
  rw [State.startRetrain, hsend, State.rf_of_rd (State.rd_fabErr_other _ (fabPg_ne_header p (by decide)) ..), State.rf_bump_other _ (by omega),
    State.rf_wf_field _ (by decide) (.inl h)]

/-- What takes a live port down, after the lanes it has lost are off (R231). -/
theorem exec_portDown {port t0 : Nat} {cause : DownCause} {good : BitVec 8} {s : State} {c : Instr} (hport : port < 12) (hup : s.portUp port = true)
    (hc : c ∈ [.linkDown port cause good t0, .controlBlockTimeout port t0]) :
    ∃ (u : State) (k : Nat),
        s.RetrainReady port u ∧ u.rd (fabPg 0 + 0x1C) = s.rd (fabPg 0 + 0x1C) ∧ exec c s = .next (u.portDown port k (tclkCycle t0)) := by
  have hself : s.RetrainReady port s := ⟨hup, rfl, rfl, rfl, rfl, rfl⟩
  have hmask : fabPg 0 + 0x1C ≠ fabPg port + 0x100 := fun e => fabPg_ne_header port (by decide) 0x1C (by decide) e.symm
  simp only [List.mem_cons, List.not_mem_nil, or_false] at hc
  obtain rfl | rfl := hc
  · refine ⟨_, downCode cause, ?_, ?_, if_pos (decide_eq_true hport)⟩
    · split
      · exact hself.wf hport (by decide) (by decide) (by decide) (.inr (by decide)) _
      · exact hself
    · split
      · exact State.rd_wf_other _ _ _ _ hmask
      · rfl
  · exact ⟨s, 2, hself, rfl, (if_pos (decide_eq_true hport)).trans (if_pos hup)⟩

/-- Settles O32. -/
theorem retrainAndLinkDown : Obligations.RetrainAndLinkDown := by
  refine ⟨fun port t0 lanes cut quals res again s c hport hres hdone hquals hagain hup hlanes hc => ?_,
    fun port t0 res s hport hres hdone hstate => ⟨fun hmany => ?_, fun hfew => ?_⟩, fun port t0 cause good s c hport hup hmask hc => ?_⟩
  · obtain ⟨u, hu, hexec⟩ := exec_retrain hport hres hdone hquals hagain hup hlanes hc
    exact ⟨_, hexec, hu.startRetrain hport _⟩
  · have hdown : ¬ ((s.wf (fabPg port + 0x100) 11 10 0).portState port = 0 ∨ (s.wf (fabPg port + 0x100) 11 10 0).portState port = 5) := by
      rw [State.portState, State.rf_wf_field _ (by decide) (by decide)]
      rw [State.portState] at hstate
      omega
    refine ⟨_, (exec_retrainTimeout hport hres hdone hstate).trans (congrArg _ (if_pos (by omega))), ?_⟩
    exact (State.portDown_state _ 0 _ hport hdown).1
  · refine ⟨_, (exec_retrainTimeout hport hres hdone hstate).trans (congrArg _ (if_neg (by omega))), (State.rf_startRetrain ..).1, ?_⟩
    rw [State.rf_startRetrain_low _ _ _ (by decide), State.rf_wf_same _ (by decide)]
    omega
  · obtain ⟨u, k, hu, hsame, hexec⟩ := exec_portDown (t0 := t0) hport hup hc
    have hlive := State.portState_of_up hu.up
    have hdown : ¬ (u.portState port = 0 ∨ u.portState port = 5) := by omega
    obtain ⟨hstate, hlanes, hun⟩ := u.portDown_state k (tclkCycle t0) hport hdown
    have hmask' : u.rf (homeAddr (fabPg port + 0x1C)) 6 6 = 0 := by
      rw [homeAddr_fabPg hport] at hmask ⊢
      rw [State.rf_of_rd hsame, hmask]
    obtain ⟨r, hr, hrec⟩ := u.portNoted_rec k (tclkCycle t0) hport hmask'
    exact ⟨_, hexec, hstate, hlanes, hun, r, (u.portDown_gone k (tclkCycle t0) hport hdown).recs r hr, hrec⟩

end Sys2Proof.Machine

/-! The commit of a seam (R47 to R49). -/

namespace Sys2Proof.Machine

/-- A state with another record of the stroke generator. -/
def State.withGen (s : State) (g : Gen) : State := { s with gen := g }

section
variable (s : State) (g : Gen)

theorem State.withGen_rd (a : Nat) : (s.withGen g).rd a = s.rd a := rfl

theorem State.withGen_genBit (n : Nat) : (s.withGen g).genBit n = s.genBit n := rfl

theorem State.withGen_shadow : (s.withGen g).shadow = s.shadow := rfl

end

section
variable (s : State)

theorem State.genBit_setGenBit_same {n : Nat} (hn : n < 32) (b : Bool) : (s.setGenBit n b).genBit n = b := by
  rw [State.genBit, State.setGenBit, State.rf_wf_same _ hn]
  cases b <;> simp [bit]

theorem State.genBit_setGenBit_other {n m : Nat} (hn : n < 32) (h : m ≠ n) (b : Bool) : (s.setGenBit n b).genBit m = s.genBit m := by
  rw [State.genBit, State.setGenBit, State.rf_wf_field _ hn (Nat.lt_or_gt_of_ne h), State.genBit]

theorem State.rd_setGenBit_other {a : Nat} (h : a ≠ genStat) (n : Nat) (b : Bool) : (s.setGenBit n b).rd a = s.rd a :=
  State.rd_wf_other _ _ _ _ h

theorem State.setGenBit_shadow (n : Nat) (b : Bool) : (s.setGenBit n b).shadow = s.shadow := State.wf_shadow ..

/-- COMMIT_PEND, and AT_MISSED for a commit whose stroke has passed (R47). -/
def State.commitMarked (late : Bool) : State := if late then (s.setGenBit 2 true).setGenBit 8 true else s.setGenBit 2 true

/-- The stroke that COMMIT_AT names, and whether its seam is still to come; across the wrap of the count the model compares the counts as they
stand (R47, log entry 69). -/
def State.commitTarget : Nat := s.rd64 (genPg + 0x128) % 2 ^ 40

def State.commitAhead : Bool := decide (s.stroke < s.commitTarget) || (decide (s.commitTarget = s.stroke) && !s.gen.seamDone)

theorem State.commitAhead_iff : s.commitAhead = true ↔ s.stroke < s.commitTarget ∨ (s.commitTarget = s.stroke ∧ s.gen.seamDone = false) := by
  simp [State.commitAhead]

/-- A commit while none is armed arms the stroke COMMIT_AT names while its seam is still to come, else the next seam (R47). -/
theorem State.armCommit_arms (h : s.gen.armed = none) :
    ∃ g, s.armCommit = (s.commitMarked (decide (s.commitTarget ≠ 0) && !s.commitAhead)).withGen g
      ∧ g.armed = some (if s.commitTarget ≠ 0 ∧ s.commitAhead = true then s.commitTarget
        else if s.gen.seamDone then (s.stroke + 1) % 2 ^ 40 else s.stroke) := by
  have hnext : (if (!s.gen.seamDone) = true then s.stroke else (s.stroke + 1) % 2 ^ 40)
      = if s.gen.seamDone then (s.stroke + 1) % 2 ^ 40 else s.stroke := by
    cases s.gen.seamDone <;> simp only [Bool.not_true, Bool.not_false, Bool.false_eq_true, ↓reduceIte]
  rw [← hnext, State.armCommit, h]
  unfold State.commitAhead State.commitTarget
  dsimp only
  generalize (decide (s.rd64 (genPg + 0x128) % 2 ^ 40 ≠ 0) && !(decide (s.stroke < s.rd64 (genPg + 0x128) % 2 ^ 40)
    || decide (s.rd64 (genPg + 0x128) % 2 ^ 40 = s.stroke) && !s.gen.seamDone)) = late
  cases late
  · simp only [State.commitMarked, Bool.false_eq_true, ↓reduceIte]
    exact ⟨_, rfl, rfl⟩
  · simp only [State.commitMarked, ↓reduceIte]
    exact ⟨_, rfl, rfl⟩

theorem State.commitMarked_bits (late : Bool) :
    (s.commitMarked late).genBit 2 = true ∧ (late = true → (s.commitMarked late).genBit 8 = true)
      ∧ (∀ a, a ≠ genStat → (s.commitMarked late).rd a = s.rd a) ∧ (s.commitMarked late).shadow = s.shadow := by
  unfold State.commitMarked
  split
  · refine ⟨?_, fun _ => State.genBit_setGenBit_same _ (by decide) _, fun a ha => ?_, ?_⟩
    · rw [State.genBit_setGenBit_other _ (by decide) (by decide), State.genBit_setGenBit_same _ (by decide)]
    · rw [State.rd_setGenBit_other _ ha, State.rd_setGenBit_other _ ha]
    · rw [State.setGenBit_shadow, State.setGenBit_shadow]
  · next hlate =>
    exact ⟨State.genBit_setGenBit_same _ (by decide) _, fun h => absurd h hlate, fun a ha => State.rd_setGenBit_other _ ha ..,
        State.setGenBit_shadow ..⟩

end

theorem exec_commit {ag : Agent} {s : State} (hmay : s.mayWrite ag (genPg + 0x110)) : exec (.commit ag) s = .next s.armCommit := by
  change execCommit ag s = _
  rw [execCommit, State.ifAdmitted_may hmay]

theorem exec_commitAtWrite {ag : Agent} {h : Half} {val : BitVec 64} {s : State} (hmay : s.mayWrite ag (genPg + 0x128)) :
    exec (.commitAtWrite ag h val) s = .next (s.commitAt h val) := by
  change execCommitAtWrite ag h val s = _
  rw [execCommitAtWrite, State.ifAdmitted_may hmay]

/-- A write of COMMIT_AT while a commit is armed sets AT_IGN alone (R48). -/
theorem State.commitAt_ignored {s : State} (h : s.gen.armed.isSome = true) (half : Half) (val : BitVec 64) :
    s.commitAt half val = (s.setGenBit 9 true).withGen { s.gen with armedAfterIgn := false } := by
  obtain ⟨k, hk⟩ := Option.isSome_iff_exists.mp h
  rw [State.commitAt, hk]
  rfl

/-- A write of COMMIT_AT while no commit is armed, by half (R48). -/
theorem State.commitAt_taken {s : State} (h : s.gen.armed = none) (half : Half) (val : BitVec 64) :
    s.commitAt half val = match half with
      | .lo => s.wr (genPg + 0x128) (val.truncate 32)
      | .hi => s.wf (genPg + 0x12C) 7 0 (val.toNat % 256)
      | .both => (s.wr (genPg + 0x128) (val.truncate 32)).wf (genPg + 0x12C) 7 0 (val.toNat / 2 ^ 32) := by
  rw [State.commitAt, h]
  cases half <;> simp only [BitVec.ofNat_toNat, BitVec.truncate_eq_setWidth]

/-- The commit of one register's pending value (R49). -/
theorem State.commitOne_eq {a : Nat} {r : RegRow} (h : rowOf (locOf a) = some r) (s : State) (p : Word) :
    s.commitOne a p = s.wr a ((s.rd a &&& ~~~r.rws) ||| (p &&& r.rws)) := by
  rw [State.commitOne, h]

/-- COMMIT_AT 0 and COMMIT_PEND clear (R48). -/
def State.commitCleared (s : State) : State := ((s.wr (genPg + 0x128) 0).wf (genPg + 0x12C) 7 0 0).setGenBit 2 false

/-- AT_MISSED and AT_IGN, as a commit clears them (R47, R48). -/
def State.commitFlags (s : State) (late ign : Bool) : State :=
  let s := if late then s else s.setGenBit 8 false
  if ign then s.setGenBit 9 false else s

theorem State.commitFlags_keeps (s : State) (late ign : Bool) :
    (∀ a, a ≠ genStat → (s.commitFlags late ign).rd a = s.rd a) ∧ (s.commitFlags late ign).genBit 2 = s.genBit 2 := by
  have hbit (t : State) (n : Nat) (hn : n < 32) (h : 2 ≠ n) : (t.setGenBit n false).genBit 2 = t.genBit 2 := State.genBit_setGenBit_other _ hn h _
  cases late <;> cases ign
  · exact ⟨fun a ha => State.rd_setGenBit_other _ ha .., hbit _ 8 (by decide) (by decide)⟩
  · exact ⟨fun a ha => (State.rd_setGenBit_other _ ha ..).trans (State.rd_setGenBit_other _ ha ..),
      (hbit _ 9 (by decide) (by decide)).trans (hbit _ 8 (by decide) (by decide))⟩
  · exact ⟨fun _ _ => rfl, rfl⟩
  · exact ⟨fun a ha => State.rd_setGenBit_other _ ha .., hbit _ 9 (by decide) (by decide)⟩

/-- What a commit leaves: COMMIT_AT 0, COMMIT_PEND clear and no stroke armed (R47, R48). -/
theorem State.commitDone_clears (s : State) :
    s.commitDone.rd (genPg + 0x128) = 0 ∧ s.commitDone.rf (genPg + 0x12C) 7 0 = 0 ∧ s.commitDone.genBit 2 = false ∧ s.commitDone.gen.armed = none :=
        by
  have hat : genPg + 0x128 ≠ genStat := by decide
  have hat4 : genPg + 0x12C ≠ genStat := by decide
  have hrd : s.commitCleared.rd (genPg + 0x128) = 0 := by
    rw [State.commitCleared, State.rd_setGenBit_other _ hat, State.rd_wf_other _ _ _ _ (by decide), State.rd_wr_same]
  have hrf : s.commitCleared.rf (genPg + 0x12C) 7 0 = 0 := by
    rw [State.commitCleared, State.rf_of_rd (State.rd_setGenBit_other _ hat4 ..), State.rf_wf_same _ (by decide), Nat.zero_mod]
  have hbit : s.commitCleared.genBit 2 = false := State.genBit_setGenBit_same _ (by decide) _
  have hdone : ∃ g, s.commitDone = (s.commitCleared.commitFlags s.gen.armedLate s.gen.armedAfterIgn).withGen g ∧ g.armed = none := ⟨_, rfl, rfl⟩
  obtain ⟨hkeep, hkeepBit⟩ := s.commitCleared.commitFlags_keeps s.gen.armedLate s.gen.armedAfterIgn
  obtain ⟨g, hdone, hg⟩ := hdone
  rw [hdone]
  exact ⟨(hkeep _ hat).trans hrd, (State.rf_of_rd (hkeep _ hat4) 7 0).trans hrf, hkeepBit.trans hbit, hg⟩

/-- Settles O37. -/
theorem commitArmsOneSeam : Obligations.CommitArmsOneSeam := by
  refine ⟨fun ag s hmay hnone => ?_, fun ag h val s hmay harmed => ?_, fun ag val s hmay hnone => ⟨?_, ?_, ?_⟩, fun a p r s hrow => ?_,
      fun old n => ?_⟩
  · intro target ahead
    obtain ⟨g, harm, hat⟩ := s.armCommit_arms hnone
    obtain ⟨hpend, hlate, hrd, hshadow⟩ := s.commitMarked_bits (decide (s.commitTarget ≠ 0) && !s.commitAhead)
    refine ⟨_, (exec_commit hmay).trans (congrArg _ harm), ?_, ?_, fun hne hpast => ?_, fun a ha => ?_, ?_⟩
    · rw [State.withGen_genBit, hpend]
    · refine hat.trans ?_
      simp only [s.commitAhead_iff]
      rfl
    · rw [State.withGen_genBit]
      refine hlate ?_
      rw [decide_eq_true (show s.commitTarget ≠ 0 from hne), Bool.true_and, Bool.not_eq_true', Bool.eq_false_iff]
      exact fun h => hpast (s.commitAhead_iff.mp h)
    · rw [State.withGen_rd, hrd a ha]
    · rw [State.withGen_shadow, hshadow]
  · refine ⟨_, (exec_commitAtWrite hmay).trans (congrArg _ (State.commitAt_ignored harmed h val)), ?_, rfl, fun a ha => ?_⟩
    · rw [State.withGen_genBit, State.genBit_setGenBit_same _ (by decide)]
    · rw [State.withGen_rd, State.rd_setGenBit_other _ ha]
  · refine ⟨_, (exec_commitAtWrite hmay).trans (congrArg _ (State.commitAt_taken hnone ..)), ?_, ?_, ?_⟩
    · dsimp only
      rw [State.rd_wf_other _ _ _ _ (by decide), State.rd_wr_same]
    · dsimp only
      rw [State.rf_wf_same _ (by decide)]
      rfl
    · dsimp only
      rw [State.wf_gen, State.wr_gen]
  · refine ⟨_, (exec_commitAtWrite hmay).trans (congrArg _ (State.commitAt_taken hnone ..)), State.rd_wr_same .., State.wr_gen .., fun a ha => ?_⟩
    exact State.rd_wr_other _ _ ha
  · refine ⟨_, (exec_commitAtWrite hmay).trans (congrArg _ (State.commitAt_taken hnone ..)), ?_, State.wf_gen .., fun a ha => ?_⟩
    · dsimp only
      rw [State.rf_wf_same _ (by decide)]
      exact Nat.mod_mod ..
    · exact State.rd_wf_other _ _ _ _ ha
  · rw [State.commitOne_eq hrow]
    exact ⟨State.rd_wr_same .., fun b hb => State.rd_wr_other _ _ hb⟩
  · have hdone : ∃ u : State, old.commitAll n = u.commitDone := ⟨_, rfl⟩
    obtain ⟨u, hu⟩ := hdone
    rw [hu]
    exact u.commitDone_clears

end Sys2Proof.Machine

/-! Sources of the stroke and the timing exchange (R39 to R41, R281). -/

namespace Sys2Proof.Machine

/-! ### Sources of the stroke (R39 to R41) -/

section
variable (s : State)

theorem State.srcActive_of_rd {t : State} (h : t.rd genStat = s.rd genStat) : t.srcActive = s.srcActive := State.rf_of_rd h 1 0

theorem State.genBit_of_rd {t : State} (h : t.rd genStat = s.rd genStat) (n : Nat) : t.genBit n = s.genBit n :=
  congrArg (fun x => decide (x = 1)) (State.rf_of_rd h n n)

theorem State.followPath_rest (n : Nat) : (s.followPath n).rest = s.rest := by
  simp only [State.followPath, apply_ite State.rest, State.chipRec_rest, State.wf_rest, ite_self]

/-- STROKE_STAT in holdover (R39). -/
def State.heldOver : State := (((s.wf genStat 1 0 0).setGenBit 3 true).setGenBit 5 false).setGenBit 6 false

theorem State.rd_sourceLost {a : Nat} (h : a ≠ girthPg + 0x100) (n : Nat) : (s.sourceLost n).rd a = s.heldOver.rd a := by
  rw [State.sourceLost, State.rd_chipRec, State.rd_followPath_other h]
  exact State.withGen_rd s.heldOver _ a

/-- Holdover after the loss of a source: no source is active, SRC_LOST is set, LOCKED clears, and the trim stays (R39). -/
theorem State.sourceLost_shows (n : Nat) :
    (s.sourceLost n).srcActive = 0 ∧ (s.sourceLost n).genBit 3 = true ∧ (s.sourceLost n).genBit 5 = false ∧ (s.sourceLost n).trim = s.trim := by
  have hstat := s.rd_sourceLost (a := genStat) (by decide) n
  have htrim := s.rd_sourceLost (a := genPg + 0x120) (by decide) n
  have hne : genPg + 0x120 ≠ genStat := by decide
  refine ⟨?_, ?_, ?_, ?_⟩
  · rw [State.srcActive_of_rd _ hstat, State.srcActive, State.heldOver, State.setGenBit, State.rf_wf_field _ (by decide) (by decide), State.setGenBit,
      State.rf_wf_field _ (by decide) (by decide), State.setGenBit, State.rf_wf_field _ (by decide) (by decide), State.rf_wf_same _ (by decide),
          Nat.zero_mod]
  · rw [State.genBit_of_rd _ hstat, State.heldOver, State.genBit_setGenBit_other _ (by decide) (by decide),
      State.genBit_setGenBit_other _ (by decide) (by decide), State.genBit_setGenBit_same _ (by decide)]
  · rw [State.genBit_of_rd _ hstat, State.heldOver, State.genBit_setGenBit_other _ (by decide) (by decide), State.genBit_setGenBit_same _ (by decide)]
  · rw [State.trim, htrim, State.heldOver, State.rd_setGenBit_other _ hne, State.rd_setGenBit_other _ hne, State.rd_setGenBit_other _ hne,
      State.rd_wf_other _ _ _ _ hne, State.trim]

end

section
variable {t16 : Nat} {s : State}

theorem State.withGen_acquire (s : State) (g : Gen) (e : Nat) :
    (s.withGen g).acquire e = s.withGen { g with extend := some (s.ts16 - e % s.ts16) } := rfl

theorem exec_strokeInEdge_early (hsrc : s.srcActive = 2) {k : Nat} (hk : s.gen.lastEdge = some k) (hearly : 2 * (s.gen.base + t16 - k) < s.ts16) :
    exec (.strokeInEdge t16) s = .next (s.bump (genPg + 0x124) 31 0 1) := by
  change execStrokeInEdge t16 s = _
  simp only [execStrokeInEdge, hsrc, hk, hearly, ne_eq, not_true_eq_false, ↓reduceIte, decide_true]

theorem exec_strokeInEdge_acquires (hsrc : s.srcActive = 2) (hk : s.gen.lastEdge = none) (hbit : s.genBit 6 = true) (hacq : s.gen.acquired = false)
    (hext : s.gen.extend = none) : exec (.strokeInEdge t16) s = .next (s.withGen { s.gen with
      acquired := false
      lastEdge := some (s.gen.base + t16)
      extend := some (s.ts16 - (s.gen.base + s.gen.len - (s.gen.base + t16)) % s.ts16) }) := by
  change execStrokeInEdge t16 s = _
  have hbit' (g : Gen) : (s.withGen g).genBit 6 = true := hbit
  simp only [execStrokeInEdge, hsrc, hk, hacq, hext, ne_eq, not_true_eq_false, ↓reduceIte, Bool.false_eq_true, Option.isSome_none]
  refine (if_pos (hbit' { s.gen with acquired := false, extend := none, lastEdge := some (s.gen.base + t16) })).trans (congrArg Host.Outcome.next ?_)
  refine (s.withGen_acquire { s.gen with acquired := false, extend := none, lastEdge := some (s.gen.base + t16) } _).trans ?_
  exact congrArg (fun e => s.withGen { s.gen with acquired := false, lastEdge := some (s.gen.base + t16), extend := some (s.ts16 - e) })
    (Nat.mod_mod (s.gen.base + s.gen.len - (s.gen.base + t16)) s.ts16)

theorem exec_strokeInLost {n : Nat} (hsrc : s.srcActive = 2) (hsince : s.gen.since + 4 * s.ts16 ≤ s.gen.base + 16 * n)
    (hlast : ∀ k, s.gen.lastEdge = some k → k + 4 * s.ts16 ≤ s.gen.base + 16 * n) : exec (.strokeInLost n) s = .next (s.sourceLost n) := by
  change execStrokeInLost n s = _
  have hover : 4 * s.ts16 ≤ s.gen.base + 16 * n - (match s.gen.lastEdge with | some k => max k s.gen.since | none => s.gen.since) := by
    split
    · next k hk =>
      have := hlast k hk
      omega
    · omega
  exact if_pos ⟨hsrc, hover⟩

theorem exec_girthSourceLost {n : Nat} (hsrc : s.srcActive = 1) (hchild : s.girthChild = true) (hsilent : 64 ≤ s.gen.girthSilent) :
    exec (.girthSourceLost n) s = .next (s.sourceLost n) := by
  change execGirthSourceLost n s = _
  exact if_pos ⟨hsrc, hchild, hsilent⟩

/-- While another source is active an edge changes nothing and no loss is declared (R39). -/
theorem exec_otherSource (n : Nat) (s : State) : (s.srcActive ≠ 2 → exec (.strokeInEdge n) s = .next s ∧ exec (.strokeInLost n) s = .next s)
    ∧ (s.srcActive ≠ 1 → exec (.girthSourceLost n) s = .next s) := by
  refine ⟨fun h => ⟨?_, ?_⟩, fun h => ?_⟩
  · change execStrokeInEdge n s = _
    exact if_pos h
  · change execStrokeInLost n s = _
    exact if_neg fun hboth => h hboth.1
  · change execGirthSourceLost n s = _
    exact if_neg fun hboth => h hboth.1

end

/-! ### The timing exchange (R281) -/

theorem blk_lt (b : BitVec 256) (hi lo : Nat) : blk b hi lo < 2 ^ (hi + 1 - lo) := Nat.mod_lt _ (Nat.two_pow_pos _)

/-- A timing block whose kind, stroke, time and exchange number are its fields (R281). -/
theorem timeBlock_fields (kind : Nat) (locked : Bool) (stroke ts exch sender : Nat) :
    blk (mkBlock (timeBlock kind locked stroke ts exch sender)) 9 8 = kind % 4
      ∧ blk (mkBlock (timeBlock kind locked stroke ts exch sender)) 47 16 = stroke % 2 ^ 32
      ∧ blk (mkBlock (timeBlock kind locked stroke ts exch sender)) 79 48 = ts % 2 ^ 32
      ∧ blk (mkBlock (timeBlock kind locked stroke ts exch sender)) 95 80 = exch % 2 ^ 16 := by
  simp only [blk_mkBlock _ (show 9 < 240 by decide), blk_mkBlock _ (show 47 < 240 by decide), blk_mkBlock _ (show 79 < 240 by decide),
    blk_mkBlock _ (show 95 < 240 by decide), timeBlock, packFields]
  omega

section
variable {port t16 : Nat} {block : BitVec 256} {s : State} (hport : port < 12) (hup : s.portUp port = true) (hok : blockOk block = true)
  (hty : blk block 7 0 = 5)
include hport hup hok hty

theorem exec_timeSync_foreign (hkind : blk block 9 8 = 0) (hparent : s.isParentPort port = false) : exec (.timeSync port block t16) s = .next s := by
  refine (if_pos (decide_eq_true hport)).trans ?_
  simp only [State.onBlock, hup, hok, hty, hkind, hparent, Bool.not_true, Bool.not_false, Bool.false_eq_true, ne_eq, not_true_eq_false, or_true,
    ↓reduceIte]

/-- What a child keeps of its parent's SYNC (R281). -/
def State.syncKept (s : State) (block : BitVec 256) (t16 : Nat) : TimeX :=
  let t2 : Int := (t16 : Int) + strokeDiff s.stroke (blk block 47 16) * (s.ts16 : Int)
  { t1 := (blk block 79 48 : Nat), t2 := t2, t3 := t2, exch := blk block 95 80, sender := blk block 108 96, stroke := blk block 47 16,
    parentLocked := decide (blk block 10 10 = 1), heard := true }

theorem exec_timeSync_parent (hkind : blk block 9 8 = 0) (hparent : s.isParentPort port = true) : exec (.timeSync port block t16) s = .next (
    let u := ({ s with time := s.syncKept block t16 } : State).followPath (t16 / 16)
    u.sendBlock port (timeBlock 1 u.pathLocked u.stroke t16 (blk block 95 80) u.myId)) := by
  refine (if_pos (decide_eq_true hport)).trans ?_
  simp only [State.onBlock, hup, hok, hty, hkind, hparent, Bool.not_true, Bool.false_eq_true, ne_eq, not_true_eq_false, or_self, ↓reduceIte]
  rfl

theorem exec_timeReq (hkind : blk block 9 8 = 1) : exec (.timeReq port block t16) s
    = .next (s.sendBlock port (timeBlock 2 s.pathLocked s.stroke t16 (blk block 95 80) s.myId)) := by
  refine (if_pos (decide_eq_true hport)).trans ?_
  simp only [State.onBlock, hup, hok, hty, hkind, Bool.not_true, Bool.false_eq_true, ne_eq, not_true_eq_false, ↓reduceIte]

theorem exec_timeResp_foreign (hkind : blk block 9 8 = 2) (h : s.isParentPort port = false ∨ s.time.heard = false ∨ blk block 95 80 ≠ s.time.exch) :
    exec (.timeResp port block t16) s = .next s := by
  refine (if_pos (decide_eq_true hport)).trans ?_
  simp only [State.onBlock, hup, hok, hty, hkind, Bool.not_true, Bool.false_eq_true, ne_eq, not_true_eq_false, false_or, ↓reduceIte]
  rw [if_pos]
  simpa using h

/-- The delay and the phase of a completed exchange (R281). -/
def State.delayOf (s : State) (t4 : Int) : Int := ((s.time.t2 - s.time.t1) + (t4 - s.time.t3)) / 2

def State.phaseOf (s : State) (t4 : Int) : Int := ((t4 - s.time.t3) - (s.time.t2 - s.time.t1)) / 2

theorem exec_timeResp_parent (hkind : blk block 9 8 = 2) (hparent : s.isParentPort port = true) (hheard : s.time.heard = true)
    (hexch : blk block 95 80 = s.time.exch) : exec (.timeResp port block t16) s = .next (
    let t4 : Int := ((blk block 79 48 : Nat) : Int) + strokeDiff (blk block 47 16) s.time.stroke * (s.ts16 : Int)
    let u := ({ s with time := { s.time with parentLocked := decide (blk block 10 10 = 1), heard := false } } : State).wr (girthPg + 0x10C)
      (BitVec.ofInt 32 (s.delayOf t4))
    (u.followPath (t16 / 16)).exchangeDone (s.phaseOf t4) (t16 / 16)) := by
  refine (if_pos (decide_eq_true hport)).trans ?_
  simp only [State.onBlock, hup, hok, hty, hkind, hparent, hheard, hexch, Bool.not_true, Bool.false_eq_true, ne_eq, not_true_eq_false, or_self,
      ↓reduceIte]
  rfl

end

theorem State.time_of_rest {s t : State} (h : t.rest = s.rest) : t.time = s.time := by
  change t.rest.time = s.rest.time
  rw [h]

section
variable (s : State)

theorem State.stroke_followPath (n : Nat) : (s.followPath n).stroke = s.stroke := by
  rw [State.stroke, State.stroke, State.rd64, State.rd64, State.rd_followPath_other (by decide), State.rd_followPath_other (by decide)]

/-- One step of the law of R41: the phase and the trim are written, TRIM_LIMIT and LOCKED follow, and the generator's record. -/
theorem State.reference_only (ph : Int) : ∃ (trim : Word) (limit locked : Bool) (g : Gen), s.reference ph
    = ((((s.wr (genPg + 0x11C) (BitVec.ofInt 32 ph)).wr (genPg + 0x120) trim).setGenBit 7 limit).setGenBit 5 locked).withGen g :=
  ⟨_, _, _, _, rfl⟩

theorem State.rd_reference_other {a : Nat} (hstat : a ≠ genStat) (hphase : a ≠ genPg + 0x11C) (htrim : a ≠ genPg + 0x120) (ph : Int) :
    (s.reference ph).rd a = s.rd a := by
  obtain ⟨trim, limit, locked, g, hr⟩ := s.reference_only ph
  rw [hr, State.withGen_rd, State.rd_setGenBit_other _ hstat, State.rd_setGenBit_other _ hstat, State.rd_wr_other _ _ htrim,
      State.rd_wr_other _ _ hphase]

theorem State.rd_reference_phase (ph : Int) : (s.reference ph).rd (genPg + 0x11C) = BitVec.ofInt 32 ph := by
  obtain ⟨trim, limit, locked, g, hr⟩ := s.reference_only ph
  rw [hr, State.withGen_rd, State.rd_setGenBit_other _ (by decide), State.rd_setGenBit_other _ (by decide), State.rd_wr_other _ _ (by decide),
    State.rd_wr_same]

theorem State.withGen_time (g : Gen) : (s.withGen g).time = s.time := rfl

theorem State.time_reference (ph : Int) : (s.reference ph).time = s.time := by
  obtain ⟨trim, limit, locked, g, hr⟩ := s.reference_only ph
  rw [hr, State.withGen_time, State.setGenBit, State.wf_time, State.setGenBit, State.wf_time, State.wr_time, State.wr_time]

/-- What an exchange does once its delay is written (R281): nothing under another discipline, else an acquisition or a step of the law. -/
theorem State.exchangeDone_cases (ph : Int) (n : Nat) :
    (s.srcActive ≠ 1 ∧ s.exchangeDone ph n = s)
      ∨ (s.srcActive = 1 ∧ s.genBit 6 = true ∧ ∃ g, s.exchangeDone ph n = s.withGen g)
      ∨ (s.srcActive = 1 ∧ s.genBit 6 = false ∧ ∃ g, s.exchangeDone ph n = ((s.withGen g).reference ph).followPath n) := by
  rw [State.exchangeDone]
  split
  · next h => exact .inl ⟨h, rfl⟩
  · next h =>
    have hbit (g : Gen) : ({ s with gen := g } : State).genBit 6 = s.genBit 6 := rfl
    have hsrc : s.srcActive = 1 := by simpa using h
    dsimp only
    rw [hbit]
    split
    · next h6 =>
      refine .inr (.inl ⟨hsrc, h6, ?_⟩)
      split
      · exact ⟨_, rfl⟩
      · exact ⟨_, rfl⟩
    · next h6 => exact .inr (.inr ⟨hsrc, by simpa using h6, _, rfl⟩)

theorem State.exchangeDone_keeps (ph : Int) (n : Nat) : (s.exchangeDone ph n).time = s.time
    ∧ ∀ a, a ≠ genStat → a ≠ genPg + 0x11C → a ≠ genPg + 0x120 → a ≠ girthPg + 0x100 → (s.exchangeDone ph n).rd a = s.rd a := by
  obtain ⟨_, hx⟩ | ⟨_, _, g, hx⟩ | ⟨_, _, g, hx⟩ := s.exchangeDone_cases ph n
  · rw [hx]
    exact ⟨rfl, fun _ _ _ _ _ => rfl⟩
  · rw [hx]
    exact ⟨rfl, fun a _ _ _ _ => s.withGen_rd g a⟩
  · rw [hx]
    refine ⟨?_, fun a hstat hphase htrim hgirth => ?_⟩
    · rw [State.time_of_rest (State.followPath_rest ..), State.time_reference, State.withGen_time]
    · rw [State.rd_followPath_other hgirth, State.rd_reference_other _ hstat hphase htrim, State.withGen_rd]

theorem State.exchangeDone_phase (hsrc : s.srcActive = 1) (hbit : s.genBit 6 = false) (ph : Int) (n : Nat) :
    (s.exchangeDone ph n).rd (genPg + 0x11C) = BitVec.ofInt 32 ph := by
  obtain ⟨h, _⟩ | ⟨_, h, _⟩ | ⟨_, _, g, hx⟩ := s.exchangeDone_cases ph n
  · exact absurd hsrc h
  · exact absurd (hbit.symm.trans h) Bool.false_ne_true
  · rw [hx, State.rd_followPath_other (by decide), State.rd_reference_phase]

end

/-- Settles O39. -/
theorem strokeSources : Obligations.StrokeSources := by
  refine ⟨⟨fun t16 s hsrc => ⟨fun k hk hearly => ?_, fun hk hbit hacq hext => ?_⟩, fun n s hsrc hsince hlast => ?_, fun n s hsrc hchild hsilent => ?_,
    exec_otherSource⟩, fun port t16 block s hport hup hok hty hkind => ⟨fun hparent => ?_, exec_timeSync_foreign hport hup hok hty hkind⟩,
    fun port t16 block s hport hup hok hty hkind => ?_, fun port t16 block s hport hup hok hty hkind => ⟨fun hparent hheard hexch => ?_,
      exec_timeResp_foreign hport hup hok hty hkind⟩⟩
  · exact ⟨_, exec_strokeInEdge_early hsrc hk hearly, State.rf_bump_same s (by decide), State.bump_gen ..⟩
  · exact ⟨_, exec_strokeInEdge_acquires hsrc hk hbit hacq hext, rfl, rfl, rfl⟩
  · exact ⟨_, exec_strokeInLost hsrc hsince hlast, s.sourceLost_shows n⟩
  · exact ⟨_, exec_girthSourceLost hsrc hchild hsilent, s.sourceLost_shows n⟩
  · refine ⟨_, exec_timeSync_parent hport hup hok hty hkind hparent, ?_⟩
    dsimp only
    have hrest := State.followPath_rest { s with time := s.syncKept block t16 } (t16 / 16)
    have htime : (({ s with time := s.syncKept block t16 } : State).followPath (t16 / 16)).time = s.syncKept block t16 := State.time_of_rest hrest
    have hout : (({ s with time := s.syncKept block t16 } : State).followPath (t16 / 16)).out = s.out := (State.out_of_rest hrest :)
    have hstroke : (({ s with time := s.syncKept block t16 } : State).followPath (t16 / 16)).stroke = s.stroke := State.stroke_followPath ..
    generalize ({ s with time := s.syncKept block t16 } : State).followPath (t16 / 16) = u at htime hout hstroke ⊢
    obtain ⟨hkindF, hstrokeF, htimeF, hexchF⟩ := timeBlock_fields 1 u.pathLocked u.stroke t16 (blk block 95 80) u.myId
    have hsame : (u.sendBlock port (timeBlock 1 u.pathLocked u.stroke t16 (blk block 95 80) u.myId)).time = u.time := rfl
    rw [hsame, htime]
    refine ⟨rfl, rfl, rfl, rfl, rfl, rfl, _, congrArg (· ++ _) hout, hkindF, ?_, htimeF, ?_⟩
    · rw [hstrokeF, hstroke]
    · rw [hexchF]
      exact Nat.mod_eq_of_lt (blk_lt ..)
  · obtain ⟨hkindF, hstroke, htime, hexch⟩ := timeBlock_fields 2 s.pathLocked s.stroke t16 (blk block 95 80) s.myId
    refine ⟨_, exec_timeReq hport hup hok hty hkind, rfl, rfl, _, rfl, hkindF, hstroke, htime, ?_⟩
    rw [hexch]
    exact Nat.mod_eq_of_lt (blk_lt ..)
  · intro t4
    have hexec := exec_timeResp_parent (t16 := t16) hport hup hok hty hkind hparent hheard hexch
    dsimp only at hexec
    generalize hu : ({ s with time := { s.time with parentLocked := decide (blk block 10 10 = 1), heard := false } } : State) = u at hexec
    have hutime : u.time = { s.time with parentLocked := decide (blk block 10 10 = 1), heard := false } := by rw [← hu]
    have hurd (a : Nat) : u.rd a = s.rd a := by
      rw [← hu]
      rfl
    have hw (a : Nat) (ha : a ≠ girthPg + 0x10C) (hg : a ≠ girthPg + 0x100) :
        ((u.wr (girthPg + 0x10C) (BitVec.ofInt 32 (s.delayOf t4))).followPath (t16 / 16)).rd a = s.rd a := by
      rw [State.rd_followPath_other hg, State.rd_wr_other _ _ ha, hurd]
    obtain ⟨htime, hrd⟩ := State.exchangeDone_keeps ((u.wr (girthPg + 0x10C) (BitVec.ofInt 32 (s.delayOf t4))).followPath (t16 / 16))
      (s.phaseOf t4) (t16 / 16)
    rw [State.time_of_rest ((State.followPath_rest ..).trans (State.wr_rest ..)), hutime] at htime
    refine ⟨_, hexec, congrArg TimeX.heard htime, congrArg TimeX.parentLocked htime, ?_, fun hsrc hbit => ?_⟩
    · rw [hrd _ (by decide) (by decide) (by decide) (by decide), State.rd_followPath_other (by decide), State.rd_wr_same]
      rfl
    · refine State.exchangeDone_phase _ ?_ ?_ _ _
      · rw [State.srcActive_of_rd _ (hw genStat (by decide) (by decide)), hsrc]
      · rw [State.genBit_of_rd _ (hw genStat (by decide) (by decide)), hbit]

end Sys2Proof.Machine

/-! Writes of registers (R7, R24, R25). -/

namespace Sys2Proof.Machine

/-- A pending value as a write leaves it: the RWS bits of the value written (R7). -/
theorem and_or_and_and (x v r : Word) : ((x &&& ~~~r) ||| (v &&& r)) &&& r = v &&& r := by
  ext i hi
  simp only [BitVec.getElem_and, BitVec.getElem_or, BitVec.getElem_not]
  cases r[i] <;> simp

theorem locOf_corePg {gp o : Nat} (hgp : gp < 5120) (ho : o < 4096) :
    locOf (corePg gp + o) = ⟨false, gp / 80, gp / 10 % 8, 0x10 + gp % 10, 0, o⟩ := by
  have haddr : corePg gp + o = regionAddr (gp / 80) (gp / 10 % 8) (0x10 + gp % 10) 0 o := by
    unfold corePg regionAddr
    omega
  rw [haddr, locOf_regionAddr (by omega) (by omega) (by omega) (by omega) ho]

section
variable {a region blk n o : Nat} (hloc : locOf a = ⟨false, region, blk, 0x10 + n, 0, o⟩) (h100 : 0x100 ≤ o)
include hloc h100

/-- A core page's own register is its own home, on a page of a physical core (R21 to R23). -/
theorem State.homeReg_ofCore (hrow : (rowOf (locOf a)).isSome = true) (s : State) : s.homeReg a = some a := by
  obtain ⟨r, hr⟩ := Option.isSome_iff_exists.mp hrow
  have hlogical : (locOf a).logical = false := by
    rw [hloc]
    simp [Loc.logical, show ¬ 0x10 + n < 8 by omega]
  have hhome : homeAddr a = a := by
    simp only [homeAddr, hloc, Nat.not_lt.mpr h100, ↓reduceIte]
  simp only [State.homeReg, hr, hlogical, Bool.false_eq_true, ↓reduceIte, hhome]

theorem State.keepFence_ofCore (s : State) (v : Word) : s.keepFence a v = v := by
  simp [State.keepFence, hloc, show o ≠ 0x10 by omega]

/-- A write of a core page's own register goes to the register alone, but for the two that are commands of their own. -/
theorem State.writeReg_ofCore (hblk : blk < 8) (hn : n < 10) {ag : Agent} {s : State} (h218 : o ≠ 0x218) (h2B8 : o ≠ 0x2B8) (hrow : (rowOf (locOf
    a)).isSome = true)
    (hmay : s.mayWrite ag a) (v : Word) : s.writeReg ag a v = s.regWrite a v := by
  obtain ⟨hdark, hadm⟩ := hmay
  have hrows : (pageRows (locOf a)).isNone = false := by
    cases hp : pageRows (locOf a) with
    | none => simp [rowOf, hp] at hrow
    | some rows => rfl
  have hnone : (rowOf (locOf a)).isNone = false := by
    rw [Option.isNone_eq_false_iff]
    exact hrow
  have hunit8 : ¬ 0x10 + n < 8 := by omega
  have hunitA : 0x10 + n < 0x1A := by omega
  simp only [State.writeReg, hrows, hdark, hadm, hnone, Bool.false_eq_true, or_self, ↓reduceIte, Bool.not_true]
  simp [State.writeReg32, hloc, bankOfReg, Nat.not_lt.mpr h100, Loc.logical, Loc.physical, hunit8, hunitA, hblk, State.writeCore, h218, h2B8]

end

/-- What a write of a register does at its home (R7): RW bits take the value, each 1 clears an RW1C bit, and RWS bits wait in the shadow. -/
theorem State.regWrite_home {s : State} {a : Nat} (hhome : s.homeReg a = some a) (hfence : ∀ v, s.keepFence a v = v) (v : Word) :
    (s.regWrite a v).rd a = ((s.rd a &&& ~~~(rwMask a)) ||| (v &&& rwMask a)) &&& ~~~(v &&& w1cMask a)
      ∧ (s.regWrite a v).rdPend a &&& rwsMask a = v &&& rwsMask a ∧ (∀ b, b ≠ a → (s.regWrite a v).rd b = s.rd b)
      ∧ (s.regWrite a v).cores = s.cores ∧ (s.regWrite a v).mem = s.mem ∧ (s.regWrite a v).out = s.out := by
  have hshadow (t : State) (x) (b : Nat) : ({ t with shadow := x } : State).rd b = t.rd b := rfl
  have hcores (t : State) (x) : ({ t with shadow := x } : State).cores = t.cores := rfl
  have hmem (t : State) (x) : ({ t with shadow := x } : State).mem = t.mem := rfl
  have hout (t : State) (x) : ({ t with shadow := x } : State).out = t.out := rfl
  simp only [State.regWrite, hhome, hfence]
  split
  · next h0 =>
    refine ⟨State.rd_wr_same .., ?_, fun b hb => State.rd_wr_other _ _ hb, State.wr_cores .., State.wr_mem .., State.wr_out ..⟩
    rw [h0]
    exact BitVec.and_zero.trans BitVec.and_zero.symm
  · refine ⟨?_, ?_, fun b hb => ?_, ?_, ?_, ?_⟩
    · rw [hshadow, State.rd_wr_same]
    · rw [State.rdPend, Tbl.find?_put_same, Option.getD_some, and_or_and_and]
    · rw [hshadow, State.rd_wr_other _ _ hb]
    · exact (hcores ..).trans (State.wr_cores ..)
    · exact (hmem ..).trans (State.wr_mem ..)
    · exact (hout ..).trans (State.wr_out ..)

/-- A register access that is not naturally aligned counts in MMIO_BAD of the host port it came by, and does nothing else (R25). -/
theorem exec_registerWrite_misaligned {ag : Agent} {a : Nat} {wide : Bool} {val : BitVec 64} {s : State} (ha : a < 2 ^ 33)
    (hmis : a % (if wide then 8 else 4) ≠ 0) : exec (.registerWrite ag a wide val) s = .next (match ag with
      | .qa => s.bump (qPg .qa + 0x110) 31 0 1 | .qb => s.bump (qPg .qb + 0x110) 31 0 1 | .mgmt => s) := by
  refine (if_pos (decide_eq_true ha)).trans ?_
  have hbad : mmioOk a (if wide then 8 else 4) = false := by
    simp only [mmioOk, decide_eq_false hmis, Bool.and_false, Bool.false_and]
  exact if_neg (hbad ▸ Bool.false_ne_true)

/-- Settles O34. -/
theorem registerWriteKinds : Obligations.RegisterWriteKinds := by
  refine ⟨fun ag gp o val s hgp h100 ho h4 h218 h2B8 hrow hmay => ?_, fun ag a val s h8 ha hne => ?_, fun a wide val s ha hmis => ⟨?_, fun p => ?_⟩,
    fun ag a v s hdark hrow hadm => ?_⟩
  · have hloc := locOf_corePg hgp ho
    have hblk : gp / 10 % 8 < 8 := by omega
    have hn : gp % 10 < 10 := by omega
    have haddr : corePg gp + o < 2 ^ 33 ∧ (corePg gp + o) % 4 = 0 := by
      unfold corePg regionAddr
      omega
    have hexec := exec_registerWrite_aligned ag false val s haddr.1 haddr.2
    have hwrite : s.mmioWrite ag (corePg gp + o) false val = s.writeReg ag (corePg gp + o) (val.truncate 32) := by
      simp [State.mmioWrite]
    rw [hwrite, State.writeReg_ofCore hloc h100 hblk hn h218 h2B8 hrow hmay] at hexec
    exact ⟨_, hexec, State.regWrite_home (State.homeReg_ofCore hloc h100 hrow s) (State.keepFence_ofCore hloc h100 s) _⟩
  · rw [exec_registerWrite_aligned ag true val s ha h8, State.mmioWrite, if_neg fun h => hne h.2]
    rfl
  · exact exec_registerWrite_misaligned ha hmis
  · cases p
    · exact ⟨_, exec_registerWrite_misaligned ha hmis, State.rf_bump_same s (by decide), fun b hb => State.rd_bump_other _ hb, State.bump_cores ..,
        State.bump_mem .., State.bump_out ..⟩
    · exact ⟨_, exec_registerWrite_misaligned ha hmis, State.rf_bump_same s (by decide), fun b hb => State.rd_bump_other _ hb, State.bump_cores ..,
        State.bump_mem .., State.bump_out ..⟩
  · have hrows : (pageRows (locOf a)).isNone = false := by
      cases hp : pageRows (locOf a) with
      | none => simp [rowOf, hp] at hrow
      | some rows => rfl
    simp only [State.writeReg, hrows, hdark, hadm, Bool.false_eq_true, or_self, ↓reduceIte, Bool.not_false]

end Sys2Proof.Machine

/-! Hearths (R354): heartbeats, the takeover of the standby and the watchdog of the always-on domain. -/

namespace Sys2Proof.Machine

/-- A state that holds these always-on values. -/
def State.withAon (s : State) (a : Aon) : State := { s with aon := a }

theorem State.withAon_aon (s : State) (a : Aon) : (s.withAon a).aon = a := rfl
theorem State.withAon_regs (s : State) (a : Aon) : (s.withAon a).regs = s.regs := rfl
theorem State.withAon_mem (s : State) (a : Aon) : (s.withAon a).mem = s.mem := rfl
theorem State.withAon_cores (s : State) (a : Aon) : (s.withAon a).cores = s.cores := rfl
theorem State.rd_withAon (s : State) (a : Aon) (b : Nat) : (s.withAon a).rd b = s.rd b := rfl
theorem State.rf_withAon (s : State) (a : Aon) (b hi lo : Nat) : (s.withAon a).rf b hi lo = s.rf b hi lo := rfl

theorem State.aon_of_rest {s t : State} (h : s.rest = t.rest) : s.aon = t.aon :=
  (congrArg State.aon h :)

/-- A record of severity UF or above leaves its unit whatever is masked (R27). -/
theorem State.chipRec_severe (s : State) (pg cls cyc : Nat) (synd : BitVec 64) (ctx : Option Nat) :
    s.chipRec pg 3 cls cyc synd ctx
      = s.emit { stroke := s.stroke, cycle := stampCycle cyc, src := pg, cls := cls, sev := 3, synd := synd, ctx := ctx, chip := true } := by
  rw [State.chipRec, if_neg (by omega)]

/-- A record the region controllers lose counts there and changes nothing but what the report of an error changes (R29). -/
theorem State.queueRecs_rest (s : State) (n : Nat) : (s.queueRecs n).rest = s.rest := by
  simp only [State.queueRecs]
  refine (State.foldl_rest _ (fun t r => ?_) _ _).trans (id rfl)
  rw [apply_ite State.rest, State.window_rest, State.errUp_rest, ite_self]

/-- The beats of a hearth (R354). -/
theorem heartbeat_counts (ok : Bool) (s : State) :
    ∃ t, exec (.heartbeat ok) s = .next t ∧ t.aon.missed = (if ok then 0 else s.aon.missed + 1)
      ∧ t.rf (rstPg + 0x114) 1 1 = bit ok ∧ ∀ a, a ≠ rstPg + 0x114 → t.rd a = s.rd a := by
  refine ⟨_, rfl, ?_, ?_, fun a ha => State.rd_wf_other _ _ _ _ ha⟩
  · rw [State.wf_aon]
  · rw [State.rf_wf_same _ (by omega)]
    cases ok <;> rfl

/-- The failure of the standby itself leaves no hearth (R354). -/
theorem takeover_of_standby (n : Nat) {s : State} (h : 10 ≤ s.aon.missed) (hs : s.rf (rstPg + 0x114) 0 0 = 1) :
    ∃ t, exec (.hearthTakeover n) s = .next t ∧ t.aon.hearthDead = true ∧ t.regs = s.regs := by
  refine ⟨s.withAon { s.aon with hearthDead := true }, ?_, rfl, rfl⟩
  change execHearthTakeover n s = _
  rw [execHearthTakeover, if_neg (by omega), if_pos hs]
  rfl

/-- The state of a takeover before its record. -/
def State.tookOver (s : State) (n : Nat) : State :=
  let u := ((((s.withAon { s.aon with missed := 0 }).queueRecs n).wf (rstPg + 0x114) 0 0 1).bump (rstPg + 0x114) 31 16 1).wf (rstPg + 0x114) 1 1 0
  { u with flash := { u.flash with replaceSoon := true } }

theorem State.tookOver_rest (s : State) (n : Nat) : (s.tookOver n).rest = (s.withAon { s.aon with missed := 0 }).rest := by
  rw [State.tookOver, State.withFlash_rest, State.wf_rest, State.bump_rest, State.wf_rest, State.queueRecs_rest]

theorem State.rf_tookOver (s : State) (n : Nat) : (s.tookOver n).rf (rstPg + 0x114) 0 0 = 1 := by
  change ((((s.withAon { s.aon with missed := 0 }).queueRecs n).wf (rstPg + 0x114) 0 0 1).bump (rstPg + 0x114) 31 16 1
    |>.wf (rstPg + 0x114) 1 1 0).rf (rstPg + 0x114) 0 0 = 1
  rw [State.rf_wf_field _ (by omega) (by omega), State.bump, State.rf_wf_field _ (by omega) (by omega), State.rf_wf_same _ (by omega)]
  rfl

/-- After ten missed heartbeats the standby takes over, once (R354). -/
theorem takeover_by_standby (n : Nat) {s : State} (h : 10 ≤ s.aon.missed) (hs : s.rf (rstPg + 0x114) 0 0 = 0) :
    ∃ t, exec (.hearthTakeover n) s = .next t ∧ t.rf (rstPg + 0x114) 0 0 = 1 ∧ t.aon.missed = 0
      ∧ t.flash.replaceSoon = true ∧ t.mem = s.mem ∧ t.cores = s.cores ∧ ∃ r ∈ t.recQ, r.cls = 0x43 ∧ r.sev = 3 := by
  have hx : exec (.hearthTakeover n) s
      = .next ((s.tookOver n).chipRec rstPg 3 0x43 (tclkCycle n) (BitVec.ofNat 64 (7 + 7 * 2 ^ 3 + 0xFFF * 2 ^ 22))) := by
    change execHearthTakeover n s = _
    rw [execHearthTakeover, if_neg (by omega), if_neg (by omega)]
    rfl
  rw [hx, State.chipRec_severe]
  refine ⟨_, rfl, ?_, ?_, rfl, ?_, ?_, _, List.mem_append_right _ (List.mem_singleton_self _), rfl, rfl⟩
  · exact State.rf_tookOver s n
  · rw [State.emit_aon, State.aon_of_rest (State.tookOver_rest s n), State.withAon_aon]
  · rw [State.emit_mem, State.mem_of_rest (State.tookOver_rest s n), State.withAon_mem]
  · rw [State.emit_cores, State.cores_of_rest (State.tookOver_rest s n), State.withAon_cores]

/-- Settles O53, for heartbeats, takeovers and the watchdog each. -/
theorem hearthsWatchEachOther : Obligations.HearthsWatchEachOther := by
  refine ⟨heartbeat_counts, fun n s h => ⟨takeover_of_standby n h, takeover_by_standby n h⟩, fun s hp h => ?_⟩
  refine ⟨s.withAon { s.aon with pwrcyc := true }, ?_, rfl, rfl⟩
  change execAonWatchdog s = _
  rw [execAonWatchdog, if_pos]
  · rfl
  · simpa using ⟨hp, h⟩

end Sys2Proof.Machine

/-! Attestation and JTAG (R389, R390, R397, R426). -/

namespace Sys2Proof.Machine

/-- An answer on MCTP goes out in units of 64 B and writes no register (R415). -/
theorem State.spdmReply_mctp (s : State) (bytes : List (BitVec 8)) :
    (s.spdmReply none bytes).regs = s.regs ∧ (s.spdmReply none bytes).out = s.out ++ [.reply 5 (mctpUnits (bytes.take 3584))] :=
  ⟨rfl, rfl⟩

/-- An answer into a mailbox writes its length and RESULT 0 (R388). -/
theorem State.spdmReply_mailbox (s : State) (ag : Agent) (bytes : List (BitVec 8)) :
    (s.spdmReply (some ag) bytes).out = s.out ∧ (s.spdmReply (some ag) bytes).rf (mbPg ag + 0x104) 3 0 = 0
      ∧ (s.spdmReply (some ag) bytes).rf (mbPg ag + 0x104) 15 4 = (bytes.take 3584).length := by
  have hl : (bytes.take 3584).length < 4096 := by rw [List.length_take]; omega
  simp only [State.spdmReply, State.secResult]
  refine ⟨?_, ?_, ?_⟩
  · refine State.out_of_rest ?_
    rw [State.wf_rest, State.wf_rest]
    exact State.foldl_rest _ (fun t k => State.wr_rest ..) _ _
  · rw [State.rf_wf_same _ (by omega), Nat.zero_mod]
  · rw [State.rf_wf_field _ (by omega) (by omega), State.rf_wf_same _ (by omega)]
    exact Nat.mod_eq_of_lt hl

/-- What draws a free value writes no register and sends nothing. -/
theorem State.spdmReq_eq (s : State) (mailbox : Option Agent) (msg : List (BitVec 8)) :
    s.spdmReq mailbox msg = s.fresh.2.spdmReply mailbox (Config.spdmAnswer s.freeCtr spdmFacts s.certChain msg) := rfl

/-- With the auxiliary supply and TRST_N high the TAP works (R426). -/
theorem State.tap_high {s : State} (h : s.aon.aux = true) (f : State → State) : s.tap false f = f s := by
  rw [State.tap, h]
  rfl

/-- With TRST_N low the TAP is in reset; without the auxiliary supply it does nothing (R426). -/
theorem State.tap_low (s : State) (f : State → State) : s.tap true f = if s.aon.aux then { s with jtag := false } else s := by
  cases h : s.aon.aux <;> simp [State.tap, h]

/-- A scan register without a D3 session acts as BYPASS (R397). -/
theorem State.scanOut_bypass {s : State} (h : s.d3Open = false) (tdi : Bool) : s.scanOut tdi = s.bypass tdi := by
  rw [State.scanOut, h]
  rfl

/-- A scan register under a D3 session shifts out a free value (R395). -/
theorem State.scanOut_free {s : State} (h : s.d3Open = true) (tdi : Bool) :
    s.scanOut tdi = s.fresh.2.send (.tdo (Config.freeWord s.freeCtr)) := by
  rw [State.scanOut, h]
  rfl

theorem exec_jtagSamplePreload (trst tdi : Bool) (s : State) :
    exec (.jtagSamplePreload trst tdi) s = .next (s.tap trst (fun s => s.scanOut tdi)) := rfl

theorem exec_jtagExtest (scan trst tdi : Bool) (s : State) :
    exec (.jtagExtest scan trst tdi) s = .next (s.tap trst (fun s => s.scanOut tdi)) := rfl

/-- The two scan instructions do the same (R397). -/
theorem exec_scan {scan trst tdi : Bool} {c : Instr} (hc : c ∈ [Instr.jtagSamplePreload trst tdi, Instr.jtagExtest scan trst tdi]) (s : State) :
    exec c s = .next (s.tap trst (fun s => s.scanOut tdi)) := by
  simp only [List.mem_cons, List.not_mem_nil, or_false] at hc
  obtain rfl | rfl := hc
  · exact exec_jtagSamplePreload ..
  · exact exec_jtagExtest ..

/-- JTAG while the TAP works (R397, R426). -/
theorem jtag_works (tdi scan : Bool) {s : State} (h : s.aon.aux = true) :
    (∃ t, exec (.jtagBypass false tdi) s = .next t ∧ t.jtag = tdi ∧ t.out = s.out ++ [.tdo (BitVec.ofNat 32 (bit s.jtag))] ∧ t.regs = s.regs)
      ∧ (∃ t, exec (.jtagIdcode false) s = .next t ∧ t.out = s.out ++ [.tdo Config.idcode] ∧ t.regs = s.regs ∧ t.jtag = s.jtag)
      ∧ (s.d3Open = false → ∀ c ∈ [Instr.jtagSamplePreload false tdi, Instr.jtagExtest scan false tdi], ∃ t, exec c s = .next t ∧ t.jtag = tdi
        ∧ t.out = s.out ++ [.tdo (BitVec.ofNat 32 (bit s.jtag))] ∧ t.regs = s.regs)
      ∧ (s.d3Open = true → ∀ c ∈ [Instr.jtagSamplePreload false tdi, Instr.jtagExtest scan false tdi], ∃ t, exec c s = .next t
        ∧ t.out = s.out ++ [.tdo (Config.freeWord s.freeCtr)] ∧ t.regs = s.regs) := by
  refine ⟨⟨s.bypass tdi, ?_, rfl, rfl, rfl⟩, ⟨s.send (.tdo Config.idcode), ?_, rfl, rfl, rfl⟩, fun h3 c hc => ⟨s.bypass tdi, ?_, rfl, rfl, rfl⟩,
    fun h3 c hc => ⟨s.fresh.2.send (.tdo (Config.freeWord s.freeCtr)), ?_, rfl, rfl⟩⟩
  · exact congrArg Host.Outcome.next (State.tap_high h _)
  · exact congrArg Host.Outcome.next (State.tap_high h _)
  · rw [exec_scan hc, State.tap_high h, State.scanOut_bypass h3]
  · rw [exec_scan hc, State.tap_high h, State.scanOut_free h3]

/-- JTAG while the TAP is held in reset (R426). -/
theorem jtag_held (tdi scan : Bool) (s : State) :
    ∀ c ∈ [Instr.jtagBypass true tdi, Instr.jtagIdcode true, Instr.jtagSamplePreload true tdi, Instr.jtagExtest scan true tdi],
      exec c s = .next (if s.aon.aux then { s with jtag := false } else s) := by
  intro c hc
  simp only [List.mem_cons, List.not_mem_nil, or_false] at hc
  obtain rfl | rfl | hc := hc
  · exact congrArg Host.Outcome.next (State.tap_low s _)
  · exact congrArg Host.Outcome.next (State.tap_low s _)
  · rw [exec_scan (scan := scan) (trst := true) (tdi := tdi) (by simpa using hc), State.tap_low]

/-- Settles O47: answers by the way they leave, and the TAP as it works and as it is held. -/
theorem attestationAndJtag : Obligations.AttestationAndJtag := by
  refine ⟨fun msg s => ⟨⟨_, rfl, ?_⟩, fun ag => ⟨_, rfl, ?_⟩⟩, fun index s => ⟨⟨_, rfl, ?_⟩, fun ag => ⟨_, rfl, ?_⟩⟩,
    fun tdi scan s h => jtag_works tdi scan h, jtag_held⟩
  · rw [State.spdmReq_eq]
    exact State.spdmReply_mctp s.fresh.2 _
  · rw [State.spdmReq_eq]
    exact State.spdmReply_mailbox s.fresh.2 ag _
  · exact State.spdmReply_mctp s _
  · exact State.spdmReply_mailbox s ag _

end Sys2Proof.Machine

/-! Entropy, zeroisation and the dispute capture (R154, R177, R296, R349). -/

namespace Sys2Proof.Machine

theorem State.wrByte_rest (s : State) (a v : Nat) : (s.wrByte a v).rest = s.rest := State.wf_rest ..

theorem State.pendPage_rest (s : State) (region page : Nat) : (s.pendPage region page).rest = s.rest := by
  rw [State.pendPage, State.bump_rest, State.setOwner, State.wrByte_rest]

theorem State.pendCtx_rest (s : State) (c : Nat) : (s.pendCtx c).rest = s.rest :=
  State.foldl_rest _ (fun _ _ => State.pendPage_rest ..) _ _

theorem State.clearEntries_rest (s : State) (c : Nat) : (s.clearEntries c).rest = s.rest :=
  State.foldl_rest _ (fun _ _ => State.wrByte_rest ..) _ _

theorem State.rst_of_rest {s t : State} (h : s.rest = t.rest) : s.rst = t.rst := (congrArg State.rst h :)

theorem State.sliceZero_of_rest {s t : State} (h : s.rest = t.rest) : s.sliceZero = t.sliceZero := (congrArg State.sliceZero h :)

/-- A state with these resets in progress. -/
def State.withRst (s : State) (l : List RstJob) : State := { s with rst := l }

theorem State.withRst_rst (s : State) (l : List RstJob) : (s.withRst l).rst = l := rfl
theorem State.withRst_cores (s : State) (l : List RstJob) : (s.withRst l).cores = s.cores := rfl
theorem State.withRst_sliceZero (s : State) (l : List RstJob) : (s.withRst l).sliceZero = s.sliceZero := rfl

/-- A reset that completes leaves the list of those in progress, and changes registers alone beside (R349). -/
theorem State.endJob_rest (s : State) (j : RstJob) (now : Nat) : (s.endJob j now).rest = (s.withRst (s.rst.erase j)).rest := by
  simp only [State.endJob, apply_ite State.rest, State.wf_rest, State.wr_rest, ite_self]
  split
  · exact State.foldl_rest _ (fun t c => (State.clearEntries_rest ..).trans (State.pendCtx_rest ..)) _ _
  · rfl

/-- The resets in progress are among these, and cores and slices under zeroisation are those of `s`. -/
def State.Settling (s t : State) : Prop := t.rst ⊆ s.rst ∧ t.cores = s.cores ∧ t.sliceZero = s.sliceZero

theorem State.Settling.endJob {s t : State} (h : s.Settling t) (j : RstJob) (now : Nat) : s.Settling (t.endJob j now) := by
  obtain ⟨hrst, hcores, hslice⟩ := h
  have hrest := State.endJob_rest t j now
  refine ⟨?_, ?_, ?_⟩
  · rw [State.rst_of_rest hrest, State.withRst_rst]
    exact fun x hx => hrst (List.erase_subset hx)
  · rw [State.cores_of_rest hrest, State.withRst_cores, hcores]
  · rw [State.sliceZero_of_rest hrest, State.withRst_sliceZero, hslice]

/-- What has nothing left to zeroise ends; no reset begins, and no core or slice changes (R349). -/
theorem State.settleJobs_settling (s : State) (now : Nat) : s.Settling (s.settleJobs now) := by
  rw [State.settleJobs]
  generalize s.rst.filter _ = l
  suffices h : ∀ t, s.Settling t → s.Settling (l.foldl (fun (s : State) j => s.endJob j now) t) from h s ⟨fun _ h => h, rfl, rfl⟩
  intro t ht
  induction l generalizing t with
  | nil => exact ht
  | cons j l ih => exact ih _ (ht.endJob j now)

theorem State.zeroing_setKeys (s : State) (gp : Nat) (key : Nat → BitVec 64) : ((s.setKeys gp key).core gp).zeroing = (s.core gp).zeroing := by
  rw [State.setKeys, State.core_modCore_same]
  rfl

/-- A state whose free values are taken from here on. -/
def State.withFree (s : State) (n : Nat) : State := { s with freeCtr := n }

theorem State.core_withFree (s : State) (n gp : Nat) : (s.withFree n).core gp = s.core gp := rfl

theorem State.freshKeys_eq (s : State) (gp : Nat) (h : s.entropyBad.contains (gp / 80) = false) :
    s.freshKeys gp = (((s.withFree (s.freeCtr + 3)).setKeys gp (fun k => Config.entropyKey (s.freeCtr + k))).wf (corePg gp + 0x2A0) 31 31 0).bump
      (corePg gp + 0x2A0) 15 0 1 := if_neg (by rw [h]; exact Bool.false_ne_true)

/-- A core of a region whose entropy source has failed gets no keys (R177). -/
theorem State.freshKeys_withheld (s : State) (gp : Nat) (h : s.entropyBad.contains (gp / 80) = true) : s.freshKeys gp = s := if_pos h

/-- Fresh keys leave a core in service. -/
theorem State.zeroing_freshKeys (s : State) (gp : Nat) : ((s.freshKeys gp).core gp).zeroing = (s.core gp).zeroing := by
  cases h : s.entropyBad.contains (gp / 80) with
  | true => rw [State.freshKeys_withheld s gp h]
  | false => rw [State.freshKeys_eq s gp h, State.core_bump, State.core_wf, State.zeroing_setKeys, State.core_withFree]

/-- A core back in service, before its keys. -/
def State.coreBack (s : State) (gp : Nat) : State :=
  ((s.modCore gp (fun c => { c with zeroing := false })).wf (corePg gp + 0x280) 31 31 0).bump (corePg gp + 0x280) 15 0 1

theorem State.zeroing_coreBack (s : State) (gp : Nat) : ((s.coreBack gp).core gp).zeroing = false := by
  rw [State.coreBack, State.core_bump, State.core_wf, State.core_modCore_same]

theorem State.zeroCoreDone_eq (s : State) (gp : Nat) :
    s.zeroCoreDone gp = if (s.coreBack gp).rf (corePg gp + 0x294) 0 0 = 1 then (s.coreBack gp).seedKeys gp else (s.coreBack gp).freshKeys gp := id rfl

/-- A core whose zeroisation completes returns to service (R154). -/
theorem State.zeroing_zeroCoreDone (s : State) (gp : Nat) : ((s.zeroCoreDone gp).core gp).zeroing = false := by
  rw [State.zeroCoreDone_eq]
  split
  · rw [State.seedKeys, State.zeroing_setKeys, State.zeroing_coreBack]
  · rw [State.zeroing_freshKeys, State.zeroing_coreBack]

/-- No reset waits for this core any more. -/
def State.coreSettled (s : State) (gp : Nat) : State := s.withRst (s.rst.map (fun (j : RstJob) => { j with cores := j.cores.filter (· ≠ gp) }))

/-- No reset waits for this slice any more. -/
def State.sliceSettled (s : State) (n : Nat) : State := s.withRst (s.rst.map (fun (j : RstJob) => { j with slices := j.slices.filter (· ≠ n) }))

theorem State.coreSettled_rst (s : State) (gp : Nat) : ∀ j ∈ (s.coreSettled gp).rst, gp ∉ j.cores := by
  intro j hj
  obtain ⟨k, -, rfl⟩ := List.mem_map.1 hj
  simp

theorem State.sliceSettled_rst (s : State) (n : Nat) : ∀ j ∈ (s.sliceSettled n).rst, n ∉ j.slices := by
  intro j hj
  obtain ⟨k, -, rfl⟩ := List.mem_map.1 hj
  simp

/-- A core whose zeroisation completes leaves every reset that waits for it (R154, R349). -/
theorem zeroisation_core {gp : Nat} (t0 : Nat) {s : State} (hgp : gp < 5120) (hz : (s.core gp).zeroing = true)
    (hh : s.held.contains (gp / 10) = false) :
    ∃ t, exec (.zeroisationComplete (.core gp) t0) s = .next t ∧ (t.core gp).zeroing = false ∧ ∀ j ∈ t.rst, gp ∉ j.cores := by
  have hx : exec (.zeroisationComplete (.core gp) t0) s
      = .next (((s.zeroCoreDone gp).coreSettled gp).settleJobs (s.aon.time + 16 * t0)) := by
    refine (if_pos (decide_eq_true hgp)).trans (if_neg ?_)
    rw [hz, hh]
    decide
  obtain ⟨hrst, hcores, -⟩ := State.settleJobs_settling ((s.zeroCoreDone gp).coreSettled gp) (s.aon.time + 16 * t0)
  refine ⟨_, hx, ?_, fun j hj => State.coreSettled_rst _ gp j (hrst hj)⟩
  rw [State.core, hcores, State.coreSettled, State.withRst_cores]
  exact State.zeroing_zeroCoreDone s gp

/-- A slice back in service. -/
theorem State.zeroSliceDone_sliceZero (s : State) (n : Nat) : (s.zeroSliceDone n).sliceZero = s.sliceZero.filter (· ≠ n) := by
  rw [State.zeroSliceDone, State.bump_sliceZero, State.wf_sliceZero]

/-- A slice whose zeroisation completes returns to service and leaves every reset that waits for it (R154, R349). -/
theorem zeroisation_slice {n : Nat} (t0 : Nat) {s : State} (hn : n < 4096) (hz : s.sliceZero.contains n = true)
    (hh : s.held.contains (n / 8) = false) :
    ∃ t, exec (.zeroisationComplete (.slice n) t0) s = .next t ∧ n ∉ t.sliceZero ∧ ∀ j ∈ t.rst, n ∉ j.slices := by
  have hx : exec (.zeroisationComplete (.slice n) t0) s
      = .next (((s.zeroSliceDone n).sliceSettled n).settleJobs (s.aon.time + 16 * t0)) := by
    refine (if_pos (decide_eq_true hn)).trans (if_neg ?_)
    rw [hz, hh]
    decide
  obtain ⟨hrst, -, hslice⟩ := State.settleJobs_settling ((s.zeroSliceDone n).sliceSettled n) (s.aon.time + 16 * t0)
  refine ⟨_, hx, ?_, fun j hj => State.sliceSettled_rst _ n j (hrst hj)⟩
  rw [hslice, State.sliceSettled, State.withRst_sliceZero, State.zeroSliceDone_sliceZero]
  simp

/-- Registers of a page cleared one after the other. -/
theorem State.rd_clearRegs (pg a : Nat) (l : List Nat) (s : State) :
    (l.foldl (fun (s : State) o => s.wr (pg + o) 0) s).rd a = if ∃ o ∈ l, a = pg + o then 0 else s.rd a := by
  induction l generalizing s with
  | nil => simp
  | cons o l ih =>
    rw [List.foldl_cons, ih, State.rd_wr]
    by_cases h : a = pg + o <;> simp [h]

/-- A cleared dispute capture reads zero (R296). -/
theorem State.clearDispute_reads (s : State) (gp : Nat) {o : Nat} (ho : o ∈ [0x2B8, 0x2BC, 0x2C0, 0x2C4]) :
    (s.clearDispute gp).rd (corePg gp + o) = 0 := by
  rw [State.clearDispute, State.rd_modCore, State.rd_clearRegs, if_pos ⟨o, ho, rfl⟩]

/-- The count of uncorrectable errors of a unit whose error of that kind is reported (R26). -/
theorem State.rf_regionErr_ue {s : State} {pg : Nat} (hpg : pg + 0x24 ≠ modPg 9 0 + 0x110) (bitNo cls cyc : Nat) (synd : BitVec 64) :
    (s.regionErr pg bitNo 2 cls cyc synd).rf (pg + 0x24) 31 0 = min (s.rf (pg + 0x24) 31 0 + 1) (2 ^ 32 - 1) := by
  have hcap : (s.capture pg bitNo 2 cls cyc synd).rd (pg + 0x24) = s.rd (pg + 0x24) := by
    have hw : (s.writeCapture pg bitNo 2 cls cyc synd).rd (pg + 0x24) = s.rd (pg + 0x24) := by
      simp only [State.writeCapture, State.rd_withCap]
      rw [State.rd_wr64_other _ _ (by omega) (by omega), State.rd_wr_other _ _ (by omega), State.rd_wr_other _ _ (by omega),
        State.rd_wr_other _ _ (by omega)]
    fun_cases State.capture s pg bitNo 2 cls cyc synd <;> simp only [hw]
  have herr : ∀ u : State, (u.errUp pg true).rf (pg + 0x24) 31 0 = min (u.rf (pg + 0x24) 31 0 + 1) (2 ^ 32 - 1) := by
    intro u
    simp only [State.errUp, ↓reduceIte]
    split
    · rw [State.rf_wf_other _ (by omega), State.rf_bump_same _ (by omega)]
    · rw [State.rf_bump_same _ (by omega)]
  have hcount : ∀ u : State, (u.countErr pg bitNo 2).rf (pg + 0x24) 31 0 = min (u.rf (pg + 0x24) 31 0 + 1) (2 ^ 32 - 1) := by
    intro u
    simp only [State.countErr]
    rw [if_neg (by decide), if_pos (by decide), herr, State.rf_wf_other _ (by omega)]
  have hwin : ∀ u : State, (u.countWin pg bitNo 2 cyc).rd (pg + 0x24) = (u.countErr pg bitNo 2).rd (pg + 0x24) := by
    intro u
    simp only [State.countWin]
    split
    · exact State.rd_window_other hpg ..
    · rfl
  rw [State.regionErr, State.rf_of_rd (hwin _), hcount, State.rf_of_rd hcap]

/-- The commands of a unit's page reach no counter of its region's page. -/
theorem corePg_ne_rcPg (region k : Nat) : rcPg region 0 + 0x24 ≠ corePg (80 * region + k) + 0x2A0 := by
  unfold rcPg corePg regionAddr
  omega

theorem rcPg_ne_drain (region : Nat) : rcPg region 0 + 0x24 ≠ modPg 9 0 + 0x110 := by
  unfold rcPg modPg modAddr regionAddr
  omega

/-- The entropy status of a core. -/
def entropyAddr (region k : Nat) : Nat := corePg (80 * region + k) + 0x2A0

/-- Every core of a region shows that its entropy source has failed. -/
def State.markEntropy (s : State) (region : Nat) (l : List Nat) : State :=
  l.foldl (fun (s : State) k => s.wf (entropyAddr region k) 31 31 1) s

theorem State.markEntropy_rest (s : State) (region : Nat) (l : List Nat) : (s.markEntropy region l).rest = s.rest :=
  State.foldl_rest _ (fun _ _ => State.wf_rest ..) _ _

theorem State.markEntropy_cons (s : State) (region k : Nat) (l : List Nat) :
    s.markEntropy region (k :: l) = (s.wf (entropyAddr region k) 31 31 1).markEntropy region l := by
  rw [State.markEntropy, List.foldl_cons, State.markEntropy]

theorem State.rd_markEntropy_other (s : State) (region : Nat) {a : Nat} (l : List Nat) (h : ∀ k ∈ l, a ≠ entropyAddr region k) :
    (s.markEntropy region l).rd a = s.rd a := by
  induction l generalizing s with
  | nil => rfl
  | cons k l ih =>
    rw [State.markEntropy_cons, ih _ fun j hj => h j (List.mem_cons_of_mem _ hj), State.rd_wf_other _ _ _ _ (h k List.mem_cons_self)]

theorem State.rf_markEntropy (s : State) (region : Nat) (l : List Nat) {k : Nat}
    (h : k ∈ l ∨ s.rf (entropyAddr region k) 31 31 = 1) : (s.markEntropy region l).rf (entropyAddr region k) 31 31 = 1 := by
  induction l generalizing s with
  | nil => exact h.resolve_left (List.not_mem_nil)
  | cons j l ih =>
    rw [State.markEntropy_cons]
    refine ih _ ?_
    by_cases hj : entropyAddr region k = entropyAddr region j
    · rw [hj, State.rf_wf_same _ (by omega)]
      exact Or.inr rfl
    · rw [State.rf_wf_other _ hj]
      refine h.imp_left fun hk => ?_
      obtain rfl | hk := List.mem_cons.1 hk
      · exact absurd rfl hj
      · exact hk

/-- The sources of entropy that have failed. -/
def State.withEntropyBad (s : State) (region : Nat) : State :=
  { s with entropyBad := if s.entropyBad.contains region then s.entropyBad else s.entropyBad ++ [region] }

theorem State.withEntropyBad_contains (s : State) (region : Nat) : (s.withEntropyBad region).entropyBad.contains region = true := by
  simp only [State.withEntropyBad]
  split
  · assumption
  · simp

theorem State.rf_withEntropyBad (s : State) (region a hi lo : Nat) : (s.withEntropyBad region).rf a hi lo = s.rf a hi lo := rfl

theorem State.entropyBad_of_rest {s t : State} (h : s.rest = t.rest) : s.entropyBad = t.entropyBad := (congrArg State.entropyBad h :)

/-- A failed entropy source withholds keys and is counted (R177). -/
theorem entropy_fails {region : Nat} (t0 : Nat) (s : State) (hregion : region < 64) :
    ∃ t, exec (.entropyHealthFail region t0) s = .next t ∧ region ∈ t.entropyBad
      ∧ (∀ k, k < 80 → t.rf (corePg (80 * region + k) + 0x2A0) 31 31 = 1)
      ∧ t.rf (rcPg region 0 + 0x24) 31 0 = min (s.rf (rcPg region 0 + 0x24) 31 0 + 1) (2 ^ 32 - 1)
      ∧ ∀ gp, gp / 80 = region → t.freshKeys gp = t := by
  let u := (s.withEntropyBad region).regionErr (rcPg region 0) 0 2 0x7F (tclkCycle t0) 0
  have hbad : (u.markEntropy region (List.range 80)).entropyBad.contains region = true := by
    rw [State.entropyBad_of_rest ((State.markEntropy_rest ..).trans (State.regionErr_rest ..)), State.withEntropyBad_contains]
  refine ⟨u.markEntropy region (List.range 80), (if_pos (decide_eq_true hregion)).trans rfl, List.contains_iff_mem.1 hbad, fun k hk => ?_, ?_,
    fun gp hgp => State.freshKeys_withheld _ _ (hgp ▸ hbad)⟩
  · exact State.rf_markEntropy u region _ (Or.inl (List.mem_range.2 hk))
  · rw [State.rf_of_rd (State.rd_markEntropy_other u region _ fun k _ => corePg_ne_rcPg region k),
      State.rf_regionErr_ue (rcPg_ne_drain region), State.rf_withEntropyBad]

/-- Settles O49. -/
theorem zeroisationAndEntropy : Obligations.ZeroisationAndEntropy := by
  refine ⟨fun region t0 s => entropy_fails t0 s, fun gp t0 s hgp => zeroisation_core t0 hgp, fun n t0 s hn => zeroisation_slice t0 hn,
    fun ag gl gp s hgl hmay hphys => ⟨s.clearDispute gp, ?_, ?_⟩⟩
  · refine (if_pos (decide_eq_true hgl)).trans (congrArg Host.Outcome.next ?_)
    rw [State.ifAdmitted_may hmay, hphys]
  · exact ⟨s.clearDispute_reads gp (by decide), s.clearDispute_reads gp (by decide), s.clearDispute_reads gp (by decide),
      s.clearDispute_reads gp (by decide)⟩

end Sys2Proof.Machine

/-! The host ports: what each port operation does to the port, and what stays. -/

namespace Sys2Proof.Machine

/-! ### A port and the other one -/

section
variable (s : State) (p : QPort)

@[simp] theorem State.q_setQ_same (x : QState) : (s.setQ p x).q p = x := by
  cases p <;> rfl

theorem State.q_setQ_other {p' : QPort} (h : p' ≠ p) (x : QState) : (s.setQ p x).q p' = s.q p' := by
  cases p with
  | qa =>
    cases p' with
    | qa => exact absurd rfl h
    | qb => rfl
  | qb =>
    cases p' with
    | qa => rfl
    | qb => exact absurd rfl h

theorem State.q_send (o : Out) : (s.send o).q p = s.q p := by
  cases p <;> rfl

theorem State.q_wr (a : Nat) (v : Word) : (s.wr a v).q p = s.q p := by
  cases p <;> rfl

theorem State.q_wf (a hi lo v : Nat) : (s.wf a hi lo v).q p = s.q p := State.q_wr ..

theorem State.q_bump (a hi lo n : Nat) : (s.bump a hi lo n).q p = s.q p := State.q_wf ..

theorem State.setQ_out (x : QState) : (s.setQ p x).out = s.out := by
  cases p <;> rfl

end

theorem State.q_of_rest {s t : State} (h : t.rest = s.rest) (p : QPort) : t.q p = s.q p := by
  change t.rest.q p = s.rest.q p
  rw [h]

section
variable {s t : State} (h : t.offHost = s.offHost)
include h

theorem State.rf_of_offHost (a hi lo : Nat) : t.rf a hi lo = s.rf a hi lo := State.rf_of_rd (State.rd_of_offHost h a) hi lo

theorem State.cache_of_offHost : t.cache = s.cache := by
  change t.offHost.cache = s.offHost.cache
  rw [h]

theorem State.mem_of_offHost : t.mem = s.mem := by
  change t.offHost.mem = s.offHost.mem
  rw [h]

theorem State.engines_of_offHost : t.engines = s.engines := by
  change t.offHost.engines = s.offHost.engines
  rw [h]

theorem State.cores_of_offHost : t.cores = s.cores := by
  change t.offHost.cores = s.offHost.cores
  rw [h]

end

/-! ### Messages given to a port (R361) -/

/-- A message stays given to its port, whatever the port then sends. -/
theorem State.hasSent_flit (s : State) (p p' : QPort) (m : QMsg) (idle nak : Bool) (slots : List (BitVec 128)) (h : s.hasSent p m) :
    (s.flit p' idle nak slots).hasSent p m := by
  simp only [State.flit]
  split
  · exact h
  · by_cases hp : p = p'
    · subst hp
      refine h.imp (fun hw => ?_) (fun ho => ?_)
      · rw [State.q_send, State.q_setQ_same]
        exact hw
      · rw [State.send_out, State.setQ_out]
        exact List.mem_append_left _ ho
    · refine h.imp (fun hw => ?_) (fun ho => ?_)
      · rw [State.q_send, State.q_setQ_other _ _ hp]
        exact hw
      · rw [State.send_out, State.setQ_out]
        exact List.mem_append_left _ ho

/-- A message that leaves is out, and the others stay where they are. -/
theorem State.hasSent_leaves (s : State) (p p' : QPort) (m k : QMsg) (l : QLink) (h : s.hasSent p m) :
    ((s.setQ p' { s.q p' with link := l, waiting := (s.q p').waiting.erase k }).send
      (.quexon p' k.op k.addr k.tag k.status (if k.grant = 4 then 0 else k.grant) k.data)).hasSent p m := by
  by_cases hp : p = p'
  · subst hp
    obtain hw | ho := h
    · by_cases hm : m = k
      · subst hm
        refine Or.inr ?_
        rw [State.send_out]
        exact List.mem_append_right _ List.mem_cons_self
      · refine Or.inl ?_
        rw [State.q_send, State.q_setQ_same]
        exact (List.mem_erase_of_ne hm).2 hw
    · refine Or.inr ?_
      rw [State.send_out, State.setQ_out]
      exact List.mem_append_left _ ho
  · refine h.imp (fun hw => ?_) (fun ho => ?_)
    · rw [State.q_send, State.q_setQ_other _ _ hp]
      exact hw
    · rw [State.send_out, State.setQ_out]
      exact List.mem_append_left _ ho

theorem State.hasSent_qFlushList (p p' : QPort) (m : QMsg) (l : List QMsg) (blocked : List Nat) (s : State) (h : s.hasSent p m) :
    (s.qFlushList p' l blocked).hasSent p m := by
  induction l generalizing s blocked with
  | nil => exact h
  | cons k l ih =>
    simp only [State.qFlushList]
    split
    · exact ih _ _ (State.hasSent_flit _ p p' m _ _ _ (State.hasSent_leaves s p p' m k _ h))
    · exact ih _ _ h

/-- A change of a port that keeps what waits there. -/
theorem State.hasSent_setQ (s : State) (p p' : QPort) (m : QMsg) (x : QState) (hx : (s.q p').waiting ⊆ x.waiting) (h : s.hasSent p m) :
    (s.setQ p' x).hasSent p m := by
  refine h.imp (fun hw => ?_) (fun ho => ?_)
  · by_cases hp : p = p'
    · subst hp
      rw [State.q_setQ_same]
      exact hx hw
    · rw [State.q_setQ_other _ _ hp]
      exact hw
  · rw [State.setQ_out]
    exact ho

theorem State.hasSent_qNakFlush (s : State) (p p' : QPort) (m : QMsg) (h : s.hasSent p m) : (s.qNakFlush p').hasSent p m := by
  simp only [State.qNakFlush]
  split
  · exact State.hasSent_flit _ _ _ _ _ _ _ (State.hasSent_setQ s p p' m _ (fun _ h => h) h)
  · exact h

theorem State.hasSent_qFlush (s : State) (p p' : QPort) (m : QMsg) (h : s.hasSent p m) : (s.qFlush p').hasSent p m := by
  rw [State.qFlush]
  split
  · exact State.hasSent_qFlushList _ _ _ _ _ _ (State.hasSent_qNakFlush s p p' m h)
  · exact h

theorem State.hasSent_qMsg (s : State) (p p' : QPort) (m k : QMsg) (h : s.hasSent p m) : (s.qMsg p' k).hasSent p m :=
  State.hasSent_qFlush _ p p' m (State.hasSent_setQ s p p' m _ (List.subset_append_left _ _) h)

theorem State.hasSent_qReq (s : State) (p p' : QPort) (m : QMsg) (op addr : Nat) (data : List Row) (why : QWhy) (h : s.hasSent p m) :
    (s.qReq p' op addr data why).hasSent p m :=
  State.hasSent_qMsg _ p p' m _ (State.hasSent_setQ s p p' m _ (fun _ h => h) h)

/-- A message queued at a port has been given to it. -/
theorem State.qMsg_sends (s : State) (p : QPort) (m : QMsg) : (s.qMsg p m).hasSent p m := by
  refine State.hasSent_qFlush _ p p m (Or.inl ?_)
  rw [State.q_setQ_same]
  exact List.mem_append_right _ List.mem_cons_self

/-! ### What the link layer of a port keeps (R222, R360) -/

section
variable (s : State) (p : QPort)

theorem State.rx_flit (idle nak : Bool) (slots : List (BitVec 128)) :
    ((s.flit p idle nak slots).q p).link.rx = (s.q p).link.rx ∧ ((s.flit p idle nak slots).q p).link.naked = (s.q p).link.naked := by
  simp only [State.flit]
  split
  · exact ⟨rfl, rfl⟩
  · rw [State.q_send, State.q_setQ_same]
    exact ⟨rfl, rfl⟩

theorem State.rx_qFlushList (l : List QMsg) (blocked : List Nat) (s : State) :
    ((s.qFlushList p l blocked).q p).link.rx = (s.q p).link.rx ∧ ((s.qFlushList p l blocked).q p).link.naked = (s.q p).link.naked := by
  induction l generalizing s blocked with
  | nil => exact ⟨rfl, rfl⟩
  | cons m l ih =>
    simp only [State.qFlushList]
    split
    · rw [(ih _ _).1, (ih _ _).2, (State.rx_flit ..).1, (State.rx_flit ..).2, State.q_send, State.q_setQ_same]
      exact ⟨rfl, rfl⟩
    · exact ih ..

theorem State.rx_qNakFlush :
    ((s.qNakFlush p).q p).link.rx = (s.q p).link.rx ∧ ((s.qNakFlush p).q p).link.naked = (s.q p).link.naked := by
  simp only [State.qNakFlush]
  split
  · rw [(State.rx_flit ..).1, (State.rx_flit ..).2, State.q_setQ_same]
    exact ⟨rfl, rfl⟩
  · exact ⟨rfl, rfl⟩

theorem State.rx_qFlush :
    ((s.qFlush p).q p).link.rx = (s.q p).link.rx ∧ ((s.qFlush p).q p).link.naked = (s.q p).link.naked := by
  rw [State.qFlush]
  split
  · rw [(State.rx_qFlushList ..).1, (State.rx_qFlushList ..).2]
    exact State.rx_qNakFlush s p
  · exact ⟨rfl, rfl⟩

end

end Sys2Proof.Machine

/-! The link layer of the Quexon ports (R222, R358 to R360), and a port that goes DOWN (R379). -/

namespace Sys2Proof.Machine

theorem hitch_ne_qStat {n : Nat} (hn : n < 256) (p : QPort) : qPg p + 0x100 ≠ hitchAddr n := by
  cases p <;> simp only [qPg, hitchAddr, modPg, modAddr] <;> omega

/-- Replays in a row from one SEQ. -/
def QLink.replays (l : QLink) (seq : Nat) : Nat := if l.sameReplay ≠ 0 ∧ l.lastReplay = seq then l.sameReplay + 1 else 1

/-- A port whose replay has begun. -/
def State.qReplayed (s : State) (p : QPort) (seq : Nat) : State :=
  (s.setQ p { s.q p with link := { (s.q p).link with lastReplay := seq, sameReplay := (s.q p).link.replays seq } }).bump (qPg p + 0x108) 31 0 1

/-- A replay from a SEQ that is unacknowledged (R360). -/
theorem State.qReplay_eq (s : State) (p : QPort) (seq : Nat) :
    s.qReplay p seq = if !(s.q p).link.unacked.any (fun f => decide (f.1 = seq)) then s
      else if 4 ≤ (s.q p).link.replays seq then (s.qReplayed p seq).wf (qPg p + 0x100) 31 28 4
      else (s.qReplayed p seq).qResend p ((s.q p).link.unacked.dropWhile (fun f => decide (f.1 ≠ seq))) := id rfl

/-! ### Flits (R359, R360, R222) -/

section
variable (s : State) (p : QPort)

theorem State.rx_qResend (l : List (Nat × Nat × List (BitVec 128))) (s : State) : (s.qResend p l).q p = s.q p := by
  induction l generalizing s with
  | nil => rfl
  | cons x l ih => rw [State.qResend, ih, State.q_send]

/-- A replay expects the same SEQ of the peer as before. -/
theorem State.rx_qReplay (seq : Nat) : ((s.qReplay p seq).q p).link.rx = (s.q p).link.rx := by
  rw [State.qReplay_eq]
  split
  · rfl
  · split
    · rw [State.q_wf, State.qReplayed, State.q_bump, State.q_setQ_same]
    · rw [State.rx_qResend, State.qReplayed, State.q_bump, State.q_setQ_same]

/-- What a header says about this side's own flits changes no SEQ expected. -/
theorem State.rx_qHeard (h : Nat) : ((s.qHeard p h).q p).link.rx = (s.q p).link.rx := by
  have hacked : ∀ (l : QLink) (seq : Nat), (l.acked seq).rx = l.rx := by
    intro l seq
    rw [QLink.acked]
    split <;> rfl
  simp only [State.qHeard]
  split
  · rw [State.rx_qReplay, (State.rx_qNakFlush ..).1, State.q_setQ_same, hacked]
  · rw [(State.rx_qNakFlush ..).1, State.q_setQ_same, hacked]

/-- A NAK is sent, or one is outstanding already; the SEQ expected stays (R222). -/
theorem State.qNak_naked : ((s.qNak p).q p).link.naked = true ∧ ((s.qNak p).q p).link.rx = (s.q p).link.rx := by
  simp only [State.qNak]
  split
  · exact ⟨by assumption, rfl⟩
  · rw [(State.rx_qNakFlush ..).1, (State.rx_qNakFlush ..).2, State.q_setQ_same]
    exact ⟨rfl, rfl⟩

theorem State.qNak_offHost : (s.qNak p).offHost = s.offHost := by
  simp only [State.qNak]
  split
  · rfl
  · rw [State.qNakFlush_offHost, State.setQ_offHost]

/-- The flit expected advances the SEQ expected (R360). -/
theorem State.qAccept_advances (h : Nat) :
    ((s.qAccept p h).q p).link.rx = ((s.q p).link.rx + 1) % 4096 ∧ ((s.qAccept p h).q p).link.naked = false := by
  simp only [State.qAccept]
  split
  · rw [(State.rx_flit ..).1, (State.rx_flit ..).2, (State.rx_qFlush ..).1, (State.rx_qFlush ..).2, State.q_setQ_same]
    exact ⟨rfl, rfl⟩
  · rw [(State.rx_qFlush ..).1, (State.rx_qFlush ..).2, State.q_setQ_same]
    exact ⟨rfl, rfl⟩

end

section
variable {p : QPort} {h : BitVec 128} {slots : List (BitVec 128)} {s : State} (hlen : slots.length = 15) (hup : s.qUp p = true)
include hlen hup

/-- A flit of a port that is up. -/
theorem exec_quexonFlitRx_up : exec (.quexonFlitRx p h slots) s = (if h.toNat / 2 ^ 64 ≠ flitCrc (h.toNat % 2 ^ 64) slots then
      .next (((s.setQ p { s.q p with link := { (s.q p).link with
        naked := (s.q p).link.naked && decide (h.toNat % 2 ^ 64 % 4096 ≠ (s.q p).link.rx) } }).bump (qPg p + 0x10C) 31 0 1).qNak p)
    else
      let d := (h.toNat % 2 ^ 64 % 4096 + 4096 - (s.q p).link.rx) % 4096
      if d = 0 then .next ((s.qHeard p (h.toNat % 2 ^ 64)).qAccept p (h.toNat % 2 ^ 64))
      else if 2048 ≤ d then .next ((s.qHeard p (h.toNat % 2 ^ 64)).flit p true false [])
      else .next ((s.qHeard p (h.toNat % 2 ^ 64)).qNak p)) := by
  refine (if_pos (decide_eq_true hlen)).trans ?_
  rw [hup, Bool.not_true, if_neg Bool.false_ne_true]
  simp only [State.rx_qHeard]

/-- A flit whose CRC fails is counted and not accepted (R359). -/
theorem flit_fails (hcrc : h.toNat / 2 ^ 64 ≠ flitCrc (h.toNat % 2 ^ 64) slots) :
    ∃ t, exec (.quexonFlitRx p h slots) s = .next t ∧ (t.q p).link.rx = (s.q p).link.rx ∧ (t.q p).link.naked = true
      ∧ t.rf (qPg p + 0x10C) 31 0 = min (s.rf (qPg p + 0x10C) 31 0 + 1) (2 ^ 32 - 1) := by
  rw [exec_quexonFlitRx_up hlen hup, if_pos hcrc]
  refine ⟨_, rfl, ?_, (State.qNak_naked ..).1, ?_⟩
  · rw [(State.qNak_naked ..).2, State.q_bump, State.q_setQ_same]
  · rw [State.rf_of_offHost (State.qNak_offHost ..), State.rf_bump_same _ (by omega), State.rf_of_offHost (State.setQ_offHost ..)]

/-- The flit expected (R360). -/
theorem flit_expected (hcrc : h.toNat / 2 ^ 64 = flitCrc (h.toNat % 2 ^ 64) slots) (hseq : h.toNat % 2 ^ 64 % 4096 = (s.q p).link.rx % 4096) :
    ∃ t, exec (.quexonFlitRx p h slots) s = .next t ∧ (t.q p).link.rx = ((s.q p).link.rx + 1) % 4096 ∧ (t.q p).link.naked = false := by
  rw [exec_quexonFlitRx_up hlen hup, if_neg (not_not_intro hcrc)]
  simp only
  rw [if_pos (by omega)]
  refine ⟨_, rfl, ?_, (State.qAccept_advances ..).2⟩
  rw [(State.qAccept_advances ..).1, State.rx_qHeard]

/-- A duplicate changes no SEQ (R222). -/
theorem flit_duplicate (hcrc : h.toNat / 2 ^ 64 = flitCrc (h.toNat % 2 ^ 64) slots)
    (hd : 2048 ≤ (h.toNat % 2 ^ 64 % 4096 + 4096 - (s.q p).link.rx) % 4096) :
    ∃ t, exec (.quexonFlitRx p h slots) s = .next t ∧ (t.q p).link.rx = (s.q p).link.rx := by
  rw [exec_quexonFlitRx_up hlen hup, if_neg (not_not_intro hcrc)]
  simp only
  rw [if_neg (by omega), if_pos hd]
  refine ⟨_, rfl, ?_⟩
  rw [(State.rx_flit ..).1, State.rx_qHeard]

end

/-! ### Replays (R222, R360) -/

theorem State.qResend_out (p : QPort) (l : List (Nat × Nat × List (BitVec 128))) (s : State) :
    (s.qResend p l).out = s.out ++ l.map (fun f => .flit p ((s.q p).link.header f.2.1 false f.2.2) f.2.2) := by
  induction l generalizing s with
  | nil => simp [State.qResend]
  | cons x l ih => simp [State.qResend, ih, State.q_send, State.send_out]

theorem State.qResend_offHost (p : QPort) (l : List (Nat × Nat × List (BitVec 128))) (s : State) : (s.qResend p l).offHost = s.offHost := by
  induction l generalizing s with
  | nil => rfl
  | cons x l ih => rw [State.qResend, ih, State.send_offHost]

theorem State.q_qReplayed (s : State) (p : QPort) (seq : Nat) :
    (s.qReplayed p seq).q p = { s.q p with link := { (s.q p).link with lastReplay := seq, sameReplay := (s.q p).link.replays seq } } := by
  rw [State.qReplayed, State.q_bump, State.q_setQ_same]

section
variable {p : QPort} {x : Nat × Nat × List (BitVec 128)} {rest : List (Nat × Nat × List (BitVec 128))} {s : State}
  (hun : (s.q p).link.unacked = x :: rest) (hup : s.qUp p = true)
include hun hup

theorem exec_qReplayTimeout_up : exec (.qReplayTimeout p) s = .next (if 4 ≤ (s.q p).link.replays x.1 then
    (s.qReplayed p x.1).wf (qPg p + 0x100) 31 28 4 else (s.qReplayed p x.1).qResend p (x :: rest)) := by
  change execQReplayTimeout p s = _
  rw [execQReplayTimeout, hun]
  simp only [hup, if_true]
  rw [State.qReplay_eq, hun, if_neg (by simp)]
  simp only [List.dropWhile_cons, ne_eq, not_true, decide_false, Bool.false_eq_true, if_false]

/-- Every unacknowledged flit goes out again, in order (R222, R360). -/
theorem qReplay_resends (h : ¬ (3 ≤ (s.q p).link.sameReplay ∧ (s.q p).link.lastReplay = x.1)) :
    ∃ t, exec (.qReplayTimeout p) s = .next t
      ∧ t.out = s.out ++ (x :: rest).map (fun f => .flit p ((s.q p).link.header f.2.1 false f.2.2) f.2.2)
      ∧ (t.q p).link.unacked = x :: rest ∧ t.rf (qPg p + 0x108) 31 0 = min (s.rf (qPg p + 0x108) 31 0 + 1) (2 ^ 32 - 1) := by
  have hfew : ¬ 4 ≤ (s.q p).link.replays x.1 := by
    rw [QLink.replays]
    split <;> omega
  rw [exec_qReplayTimeout_up hun hup, if_neg hfew]
  refine ⟨_, rfl, ?_, ?_, ?_⟩
  · rw [State.qResend_out, State.q_qReplayed, State.qReplayed, State.bump_out, State.setQ_out]
    rfl
  · rw [State.rx_qResend, State.q_qReplayed]
    exact hun
  · rw [State.rf_of_offHost (State.qResend_offHost ..), State.qReplayed, State.rf_bump_same _ (by omega),
      State.rf_of_offHost (State.setQ_offHost ..)]

/-- After the fourth replay in a row from one SEQ the port retrains (R360). -/
theorem qReplay_retrains (h3 : 3 ≤ (s.q p).link.sameReplay) (hlast : (s.q p).link.lastReplay = x.1) :
    ∃ t, exec (.qReplayTimeout p) s = .next t ∧ t.rf (qPg p + 0x100) 31 28 = 4 ∧ t.out = s.out := by
  have hmany : 4 ≤ (s.q p).link.replays x.1 := by
    rw [QLink.replays, if_pos ⟨by omega, hlast⟩]
    omega
  rw [exec_qReplayTimeout_up hun hup, if_pos hmany]
  refine ⟨_, rfl, ?_, ?_⟩
  · rw [State.rf_wf_same _ (by omega)]
    rfl
  · rw [State.wf_out, State.qReplayed, State.bump_out, State.setQ_out]

end

/-! ### Training (R358, R360) -/

/-- A port that is DOWN trains with fresh link state (R358). -/
theorem q_trains {p : QPort} {res : QTrainResult} (n : Nat) {s : State} (hlive : s.qLive p = false) (hdone : res.done = true)
    (hpow : s.aon.powered = true) (hperst : s.rf (modPg 8 0 + 0x118) 30 30 = 0) (hidle : s.lanesIdle = false)
    (hw : qWidth res.good.toNat = 16) : ∃ t, exec (.qRetrain p res n) s = .next t ∧ t.qUp p = true ∧ t.q p = {} := by
  have hx : exec (.qRetrain p res n) s = .next (((s.wf (qPg p + 0x100) 27 12 res.good.toNat).setQ p {}).qUpNow p 16) := by
    change Host.Outcome.next (s.qSoft p res (tclkCycle n)) = _
    rw [State.qSoft, hlive, if_neg Bool.false_ne_true, State.qTrain, if_neg (by simp [hdone, hpow, hperst, hidle])]
    simp only [hw]
    rfl
  refine ⟨_, hx, ?_, ?_⟩
  · rw [State.qUp, State.qUpNow, State.rf_wf_field _ (by omega) (by omega), State.rf_wf_same _ (by omega)]
    rfl
  · rw [State.qUpNow, State.q_wf, State.q_wf, State.q_setQ_same]

/-- A retrain that fails for the first or second time is counted (R360). -/
theorem q_retrain_fails {p : QPort} {res : QTrainResult} (n : Nat) {s : State} (hlive : s.qLive p = true) (hdone : res.done = false)
    (hfew : s.rf (qPg p + 0x100) 11 10 < 2) :
    ∃ t, exec (.qRetrain p res n) s = .next t ∧ t.rf (qPg p + 0x100) 31 28 = 4
      ∧ t.rf (qPg p + 0x100) 11 10 = s.rf (qPg p + 0x100) 11 10 + 1 ∧ t.q p = s.q p := by
  have hx : exec (.qRetrain p res n) s
      = .next ((s.wf (qPg p + 0x100) 31 28 4).wf (qPg p + 0x100) 11 10 (s.rf (qPg p + 0x100) 11 10 + 1)) := by
    change Host.Outcome.next (s.qSoft p res (tclkCycle n)) = _
    rw [State.qSoft, hlive, if_pos rfl, State.qRetrain]
    simp only [hdone, Bool.not_false, if_true, State.rf_wf_field s (show 31 < 32 by decide) (show 11 < 28 ∨ 31 < 10 from Or.inl (by decide))]
    rw [if_neg (by omega)]
  refine ⟨_, hx, ?_, ?_, ?_⟩
  · rw [State.rf_wf_field _ (by omega) (by omega), State.rf_wf_same _ (by omega)]
    rfl
  · rw [State.rf_wf_same _ (by omega)]
    omega
  · rw [State.q_wf, State.q_wf]

/-! ### The port goes DOWN (R379) -/

theorem State.dbg_of_rest {s t : State} (h : t.rest = s.rest) : t.dbg = s.dbg := by
  change t.rest.dbg = s.rest.dbg
  rw [h]

theorem State.releaseHalts_dbg (s : State) (ctx : Nat) : (s.releaseHalts ctx).dbg = s.dbg := by
  rw [State.releaseHalts]
  generalize hl : s.cores = l
  clear hl
  induction l generalizing s with
  | nil => rfl
  | cons x l ih =>
    rw [List.foldl_cons, ih, apply_ite State.dbg, State.modCore_dbg, ite_self]

/-- A session that closes is over, but for a D3 session (R395). -/
theorem State.closeSession_dbg {s : State} {d : DbgSession} (h : s.dbg = some d) : s.closeSession.dbg = if d.level = 3 then some d else none := by
  rw [State.closeSession, h]
  simp only
  split
  · exact h
  · exact State.releaseHalts_dbg ..

/-- The session of a port's agent closes, if it is open (R379). -/
def State.closeOf (s : State) (p : QPort) : State :=
  match s.dbg with
  | some d => if d.agent = qAgent p then s.closeSession else s
  | none => s

theorem State.closeOf_dbg (s : State) (p : QPort) : ∀ d, (s.closeOf p).dbg = some d → d.agent = qAgent p → d.level = 3 := by
  intro d hd hag
  rw [State.closeOf] at hd
  cases hs : s.dbg with
  | none => simp [hs] at hd
  | some e =>
    simp only [hs] at hd
    by_cases he : e.agent = qAgent p
    · rw [if_pos he, State.closeSession_dbg hs] at hd
      by_cases h3 : e.level = 3
      · rw [if_pos h3] at hd
        cases hd
        exact h3
      · simp [h3] at hd
    · rw [if_neg he, hs] at hd
      cases hd
      exact absurd hag he

theorem exec_quexonLinkDown_live {p : QPort} {cause : Nat} (n : Nat) {s : State} (hc : cause < 3) (hl : s.qLive p = true) :
    exec (.quexonLinkDown p cause n) s
      = .next ((s.qLose p).2.chipRec (qPg p) 2 0x21 (tclkCycle n) ((s.qLose p).2.qSynd p 0 cause (s.qLose p).1)) := by
  refine (if_pos (decide_eq_true hc)).trans (congrArg Host.Outcome.next ?_)
  rw [State.qDown, if_pos hl]

/-- Every hitch of an owner is free (R366, R379). -/
theorem State.freeHitches_rest (s : State) (id : Nat) : (s.freeHitches id).rest = s.rest :=
  State.foldl_rest _ (fun t n => by rw [apply_ite State.rest, State.wf_rest, ite_self]) _ _

theorem hitchAddr_inj {n m : Nat} (h : hitchAddr n = hitchAddr m) : n = m := by
  simp only [hitchAddr] at h
  omega

/-- One step of the freeing of an owner's hitches. -/
def State.freeHitch (id : Nat) (s : State) (n : Nat) : State := if s.rf (hitchAddr n) 1 0 = id then s.wf (hitchAddr n) 1 0 0 else s

theorem State.rd_freeHitch_other (s : State) (id n : Nat) {a : Nat} (h : a ≠ hitchAddr n) : (s.freeHitch id n).rd a = s.rd a := by
  rw [State.freeHitch, State.rd_ite, State.rd_wf_other _ _ _ _ h, ite_self]

theorem State.rf_freeHitch_same (s : State) {id : Nat} (hid : id ≠ 0) (n : Nat) : (s.freeHitch id n).rf (hitchAddr n) 1 0 ≠ id := by
  rw [State.freeHitch]
  split
  · rw [State.rf_wf_same _ (by omega), Nat.zero_mod]
    exact hid.symm
  · assumption

theorem State.rd_freeHitches_other (s : State) (id : Nat) {a : Nat} (h : ∀ n, n < 256 → a ≠ hitchAddr n) : (s.freeHitches id).rd a = s.rd a := by
  have hl : ∀ l : List Nat, (∀ n ∈ l, n < 256) → ∀ t : State, (l.foldl (State.freeHitch id) t).rd a = t.rd a := by
    intro l
    induction l with
    | nil => exact fun _ _ => rfl
    | cons n l ih =>
      intro hn t
      rw [List.foldl_cons, ih (fun m hm => hn m (List.mem_cons_of_mem _ hm)), State.rd_freeHitch_other _ _ _ (h n (hn n List.mem_cons_self))]
  exact hl _ (fun n hn => List.mem_range.1 hn) s

/-- No hitch of the owner is left (R379). -/
theorem State.freeHitches_frees (s : State) {id : Nat} (hid : id ≠ 0) {k : Nat} (hk : k < 256) : (s.freeHitches id).rf (hitchAddr k) 1 0 ≠ id := by
  have hl : ∀ (l : List Nat) (t : State), (k ∈ l ∨ t.rf (hitchAddr k) 1 0 ≠ id) → (l.foldl (State.freeHitch id) t).rf (hitchAddr k) 1 0 ≠ id := by
    intro l
    induction l with
    | nil => exact fun t h => h.resolve_left List.not_mem_nil
    | cons n l ih =>
      intro t h
      rw [List.foldl_cons]
      refine ih _ ?_
      by_cases hn : k = n
      · subst hn
        exact Or.inr (State.rf_freeHitch_same t hid k)
      · refine h.imp (fun hm => (List.mem_cons.1 hm).resolve_left hn) fun hf => ?_
        rw [State.rf_of_rd (State.rd_freeHitch_other t id n fun he => hn (hitchAddr_inj he))]
        exact hf
  exact hl _ s (Or.inl (List.mem_range.2 hk))

/-- A port that has lost its hitches, before its contexts end. -/
def State.qFreed (s : State) (p : QPort) : State := (s.wf (qPg p + 0x100) 31 28 0).freeHitches (hitchId (qAgent p))

theorem State.qFreed_rest (s : State) (p : QPort) : (s.qFreed p).rest = s.rest := by
  rw [State.qFreed, State.freeHitches_rest, State.wf_rest]

theorem ctxReg_ne_qReg (c : Nat) (p : QPort) {j k : Nat} (hj : j < 4096) (hk : k < 4096) : ctxPg c + j ≠ qPg p + k := by
  cases p <;> simp only [ctxPg, qPg, modPg, modAddr] <;> omega

theorem ctxReg_ne_hitch (c n : Nat) (hn : n < 256) {j : Nat} (hj : j < 4096) : ctxPg c + j ≠ hitchAddr n := by
  simp only [ctxPg, hitchAddr, modPg, modAddr]
  omega

theorem State.rd_qFreed_ctx (s : State) (p : QPort) (c : Nat) {j : Nat} (hj : j < 4096) : (s.qFreed p).rd (ctxPg c + j) = s.rd (ctxPg c + j) := by
  rw [State.qFreed, State.rd_freeHitches_other _ _ fun n hn => ctxReg_ne_hitch c n hn hj,
    State.rd_wf_other _ _ _ _ (ctxReg_ne_qReg c p hj (by decide))]

theorem State.ctxActive_qFreed (s : State) (p : QPort) (c : Nat) : (s.qFreed p).ctxActive c = s.ctxActive c := by
  rw [State.ctxActive, State.ctxActive, State.rf_of_rd (s.rd_qFreed_ctx p c (by decide))]

theorem State.engines_of_rest {s t : State} (h : t.rest = s.rest) : t.engines = s.engines := by
  change t.rest.engines = s.rest.engines
  rw [h]

theorem State.cache_of_rest {s t : State} (h : t.rest = s.rest) : t.cache = s.cache := by
  change t.rest.cache = s.rest.cache
  rw [h]

theorem State.ctxPort_qFreed (s : State) (p : QPort) (c : Nat) : (s.qFreed p).ctxPort c = s.ctxPort c := by
  rw [State.ctxPort, State.ctxPort, State.ctxActive_qFreed, State.ctxEng, State.ctxEng, State.engines_of_rest (s.qFreed_rest p),
    State.rf_of_rd (s.rd_qFreed_ctx p c (by decide))]

/-- A state whose cache holds these lines. -/
def State.withCache (s : State) (l : Tbl CLine) : State := { s with cache := l }

theorem State.withCache_cache (s : State) (l : Tbl CLine) : (s.withCache l).cache = l := rfl
theorem State.withCache_mem (s : State) (l : Tbl CLine) : (s.withCache l).mem = s.mem := rfl
theorem State.withCache_cores (s : State) (l : Tbl CLine) : (s.withCache l).cores = s.cores := rfl
theorem State.withCache_dbg (s : State) (l : Tbl CLine) : (s.withCache l).dbg = s.dbg := rfl
theorem State.rd_withCache (s : State) (l : Tbl CLine) (a : Nat) : (s.withCache l).rd a = s.rd a := rfl
theorem State.rf_withCache (s : State) (l : Tbl CLine) (a hi lo : Nat) : (s.withCache l).rf a hi lo = s.rf a hi lo := rfl
theorem State.q_withCache (s : State) (l : Tbl CLine) (p : QPort) : (s.withCache l).q p = s.q p := by
  cases p <;> rfl

theorem State.dbg_of_offHost {s t : State} (h : t.offHost = s.offHost) : t.dbg = s.dbg := by
  change t.offHost.dbg = s.offHost.dbg
  rw [h]

/-- The lines of a port's companion space leave the cache (R379). -/
def State.loseLines (s : State) (p : QPort) : State := s.withCache (s.cache.filter (fun l => !keyOf p l.1))

/-- A port that nothing used has lost its hitches, its cache lines and its link state, and nothing else is lost (R379). -/
def State.qIdleLost (s : State) (p : QPort) : State := ((s.qFreed p).loseLines p).setQ p {}

/-- A port's requests are answered with nothing, and its link state is new (R379). -/
def State.answerNone (s : State) (p : QPort) : State :=
  (s.q p).reqs.foldl (fun (t : State) r => t.answered p r 0 none false) (s.setQ p {})

/-- The contexts of a port that are ACTIVE. -/
def State.portCtxs (s : State) (p : QPort) : List Nat := (List.range 16).filter (fun c => s.ctxActive c && decide (s.ctxPort c = p))

theorem State.qLose_eq (s : State) (p : QPort) : (s.qLose p).2
    = (((((s.qFreed p).portCtxs p).foldl (fun (s : State) c => s.reqContext c false {}) (s.qFreed p)).loseLines p).answerNone p).closeOf p := id rfl

section
variable {s : State} {p : QPort} (hctx : ∀ c, c < 16 → s.ctxActive c = true → s.ctxPort c ≠ p) (hreq : (s.q p).reqs = []) (hdbg : s.dbg = none)
include hctx hreq hdbg

theorem State.qLose_idle : (s.qLose p).2 = s.qIdleLost p := by
  have hnone : (s.qFreed p).portCtxs p = [] := by
    refine List.filter_eq_nil_iff.2 fun c hc => ?_
    rw [State.ctxActive_qFreed, State.ctxPort_qFreed]
    cases hact : s.ctxActive c with
    | false => simp
    | true => simp [hctx c (List.mem_range.1 hc) hact]
  have hq : (((s.qFreed p).loseLines p).q p).reqs = [] := by
    rw [State.loseLines, State.q_withCache, State.q_of_rest (s.qFreed_rest p), hreq]
  have hd : (((s.qFreed p).loseLines p).setQ p {}).dbg = none := by
    rw [State.dbg_of_offHost (State.setQ_offHost ..), State.loseLines, State.withCache_dbg, State.dbg_of_rest (s.qFreed_rest p), hdbg]
  rw [State.qLose_eq, hnone, List.foldl_nil, State.answerNone, hq, List.foldl_nil, State.closeOf, hd, State.qIdleLost]

/-- A port that nothing uses, when it goes DOWN (R379). -/
theorem State.qDown_idle (hl : s.qLive p = true) (cause cyc : Nat) :
    (s.qDown p cause cyc).qLive p = false ∧ (s.qDown p cause cyc).q p = {}
      ∧ (∀ k, k < 256 → (s.qDown p cause cyc).rf (hitchAddr k) 1 0 ≠ hitchId (qAgent p))
      ∧ (∀ l ∈ (s.qDown p cause cyc).cache, keyOf p l.1 = false) ∧ (s.qDown p cause cyc).mem = s.mem ∧ (s.qDown p cause cyc).cores = s.cores := by
  have hx : ∃ synd, s.qDown p cause cyc = (s.qIdleLost p).chipRec (qPg p) 2 0x21 cyc synd := by
    refine ⟨(s.qIdleLost p).qSynd p 0 cause (s.qLose p).1, ?_⟩
    rw [State.qDown, if_pos hl]
    simp only [State.qLose_idle hctx hreq hdbg]
  obtain ⟨synd, hx⟩ := hx
  have hrest : (s.qDown p cause cyc).rest = (s.qIdleLost p).rest := by rw [hx, State.chipRec_rest]
  have hrd : ∀ a, (s.qDown p cause cyc).rd a = (s.qFreed p).rd a := fun a => by
    rw [hx, State.rd_chipRec, State.qIdleLost, State.rd_of_offHost (State.setQ_offHost ..), State.loseLines, State.rd_withCache]
  have hstat : (s.qDown p cause cyc).rf (qPg p + 0x100) 31 28 = 0 := by
    rw [State.rf_of_rd (hrd _), State.qFreed, State.rf_of_rd (State.rd_freeHitches_other _ _ fun n hn => hitch_ne_qStat hn p),
      State.rf_wf_same _ (by omega), Nat.zero_mod]
  have hid : hitchId (qAgent p) ≠ 0 := by cases p <;> decide
  refine ⟨?_, ?_, fun k hk => ?_, fun l hlc => ?_, ?_, ?_⟩
  · rw [State.qLive, State.qUp, hstat]
    decide
  · rw [State.q_of_rest hrest, State.qIdleLost, State.q_setQ_same]
  · rw [State.rf_of_rd (hrd _)]
    exact State.freeHitches_frees _ hid hk
  · rw [State.cache_of_rest hrest, State.qIdleLost, State.cache_of_offHost (State.setQ_offHost ..), State.loseLines, State.withCache_cache] at hlc
    simpa using (List.mem_filter.1 hlc).2
  · rw [State.mem_of_rest hrest, State.qIdleLost, State.mem_of_offHost (State.setQ_offHost ..), State.loseLines, State.withCache_mem,
      State.mem_of_rest (s.qFreed_rest p)]
  · rw [State.cores_of_rest hrest, State.qIdleLost, State.cores_of_offHost (State.setQ_offHost ..), State.loseLines, State.withCache_cores,
      State.cores_of_rest (s.qFreed_rest p)]

end

/-- Settles O40: flits, replays and trainings of the link layer, then the ways a port goes DOWN. -/
theorem quexonLinkLayer : Obligations.QuexonLinkLayer := by
  refine ⟨⟨fun p h slots s hlen hup => ⟨flit_fails hlen hup, fun hcrc hseq _ => flit_expected hlen hup hcrc hseq, flit_duplicate hlen hup⟩,
    fun p x rest s hun hup => ⟨qReplay_resends hun hup, qReplay_retrains hun hup⟩,
    fun p res n s => ⟨q_trains n, q_retrain_fails n⟩⟩, fun p cause n s hc hl => ?_, fun p cause n s hc hl hctx hreq hdbg => ?_,
    fun p res n s hl hctx hreq hdbg => ?_⟩
  · rw [exec_quexonLinkDown_live n hc hl]
    refine ⟨_, rfl, ?_⟩
    rw [State.dbg_of_rest (State.chipRec_rest ..), State.qLose_eq]
    exact State.closeOf_dbg _ p
  · exact ⟨_, if_pos (decide_eq_true hc), State.qDown_idle hctx hreq hdbg hl cause _⟩
  · have hx : exec (.qLinkLoss p 0 res n) s = .next (s.qDown p 2 (tclkCycle n)) := by
      change execQLinkLoss p 0 res n s = _
      rw [execQLinkLoss, hl, Bool.not_true, if_neg Bool.false_ne_true, if_pos rfl]
    obtain ⟨hdown, hfresh, -⟩ := State.qDown_idle hctx hreq hdbg hl 2 (tclkCycle n)
    exact ⟨_, hx, hdown, hfresh⟩

end Sys2Proof.Machine

/-! Snoops, and host accesses to module memory (R361, R363). -/

namespace Sys2Proof.Machine

theorem tbl_get_erase {β : Type} (d : β) (m : Tbl β) (k : Nat) : Tbl.get d (Tbl.erase m k) k = d := by
  have h := tbl_get_filter d m (fun j => decide (j ≠ k)) k
  rw [Tbl.erase, h]
  simp

/-! ### Snoops (R361) -/

/-- Reading a slot line leaves the cache and memory, and what has been given to a port (R373). -/
theorem State.slotFetch_keeps (s : State) (c i : Nat) :
    (s.slotFetch c i).cache = s.cache ∧ (s.slotFetch c i).mem = s.mem ∧ ∀ p m, s.hasSent p m → (s.slotFetch c i).hasSent p m := by
  simp only [State.slotFetch]
  split
  · exact ⟨rfl, rfl, fun p m h => by cases p <;> exact h⟩
  · split
    · exact ⟨State.cache_of_offHost (State.qReq_offHost ..), State.mem_of_offHost (State.qReq_offHost ..),
        fun p m h => State.hasSent_qReq s p _ m _ _ _ _ h⟩
    · exact ⟨rfl, rfl, fun p m h => h⟩

theorem State.slotFetches_keep (l : List (Nat × Nat)) (s : State) :
    (l.foldl (fun (s : State) x => s.slotFetch x.1 x.2) s).cache = s.cache ∧ (l.foldl (fun (s : State) x => s.slotFetch x.1 x.2) s).mem = s.mem
      ∧ ∀ p m, s.hasSent p m → (l.foldl (fun (s : State) x => s.slotFetch x.1 x.2) s).hasSent p m := by
  induction l generalizing s with
  | nil => exact ⟨rfl, rfl, fun _ _ h => h⟩
  | cons x l ih =>
    obtain ⟨hc, hm, hs⟩ := ih (s.slotFetch x.1 x.2)
    obtain ⟨hc1, hm1, hs1⟩ := s.slotFetch_keeps x.1 x.2
    exact ⟨hc.trans hc1, hm.trans hm1, fun p m h => hs p m (hs1 p m h)⟩

theorem State.snpFree_offHost (s : State) (p : QPort) : (s.snpFree p).offHost = s.offHost := State.setQ_offHost ..

theorem State.qMsg_cache (s : State) (p : QPort) (m : QMsg) : (s.qMsg p m).cache = s.cache := State.cache_of_offHost (State.qMsg_offHost ..)

theorem State.qMsg_mem (s : State) (p : QPort) (m : QMsg) : (s.qMsg p m).mem = s.mem := State.mem_of_offHost (State.qMsg_offHost ..)

/-- The line a snoop of a port names. -/
def State.snpLine (s : State) (p : QPort) (addr : Nat) : CLine := Tbl.get {} s.cache (lineKey p addr)

/-- The cache without the line an invalidation names, and its answer given to the port (R361). -/
def State.snpDrop (s : State) (p : QPort) (addr tag : Nat) : State :=
  if (s.snpLine p addr).st = 3 then
    (s.withCache (Tbl.erase s.cache (lineKey p addr))).qMsg p { op := 0x1A, addr := addr, tag := tag, data := [(s.snpLine p addr).data] }
  else (s.withCache (Tbl.erase s.cache (lineKey p addr))).qMsg p { op := 0x18, addr := addr, tag := tag }

/-- The cache with the line a data snoop names shared, and its answer given to the port (R361). -/
def State.snpShare (s : State) (p : QPort) (addr tag : Nat) : State :=
  let u := s.withCache (Tbl.set {} s.cache (lineKey p addr) { s.snpLine p addr with st := 1 })
  if (s.snpLine p addr).st = 3 then u.qMsg p { op := 0x1A, addr := addr, tag := tag, data := [(s.snpLine p addr).data] }
  else u.qMsg p { op := 0x19, addr := addr, tag := tag }

section
variable (s : State) (p : QPort) (addr tag : Nat)

theorem State.snpDrop_takes : (s.snpDrop p addr tag).cache = Tbl.erase s.cache (lineKey p addr) ∧ (s.snpDrop p addr tag).mem = s.mem
    ∧ (s.snpDrop p addr tag).hasSent p (if (s.snpLine p addr).st = 3 then { op := 0x1A, addr := addr, tag := tag, data := [(s.snpLine p addr).data] }
      else { op := 0x18, addr := addr, tag := tag }) := by
  rw [State.snpDrop]
  split
  · exact ⟨State.qMsg_cache .., State.qMsg_mem .., State.qMsg_sends ..⟩
  · exact ⟨State.qMsg_cache .., State.qMsg_mem .., State.qMsg_sends ..⟩

theorem State.snpShare_keeps : (s.snpShare p addr tag).cache = Tbl.set {} s.cache (lineKey p addr) { s.snpLine p addr with st := 1 }
    ∧ (s.snpShare p addr tag).mem = s.mem
    ∧ ((s.snpLine p addr).st = 3 →
      (s.snpShare p addr tag).hasSent p { op := 0x1A, addr := addr, tag := tag, data := [(s.snpLine p addr).data] })
    ∧ ((s.snpLine p addr).st ≠ 3 → (s.snpShare p addr tag).hasSent p { op := 0x19, addr := addr, tag := tag }) := by
  simp only [State.snpShare]
  split
  next h =>
    exact ⟨State.qMsg_cache .., State.qMsg_mem .., fun _ => State.qMsg_sends ..,
      fun hn => absurd h hn⟩
  next h =>
    exact ⟨State.qMsg_cache .., State.qMsg_mem .., fun he => absurd he h,
      fun _ => State.qMsg_sends ..⟩

end

section
variable {p : QPort} {addr tag : Nat} {s : State} (haddr : addr < 2 ^ 43) (htag : tag < 4096) (hup : s.qUp p = true)

theorem State.snpLine_snpFree : (s.snpFree p).snpLine p addr = s.snpLine p addr := by
  rw [State.snpLine, State.snpLine, State.cache_of_offHost (s.snpFree_offHost p)]

include haddr htag hup

theorem exec_snpInv_up : exec (.snpInv p addr tag) s = .next ((((s.snpFree p).snpDrop p addr tag).slotsAt p addr).foldl
    (fun (s : State) x => s.slotFetch x.1 x.2) ((s.snpFree p).snpDrop p addr tag)) := by
  have hwf : (Instr.snpInv p addr tag).wf = true :=
    Bool.and_eq_true_iff.mpr ⟨decide_eq_true haddr, decide_eq_true htag⟩
  refine (if_pos hwf).trans (if_neg ?_)
  rw [hup]
  decide

theorem exec_snpData_up : exec (.snpData p addr tag) s = if (s.snpLine p addr).st = 0 then
      .next ((s.snpFree p).qMsg p { op := 0x18, addr := addr, tag := tag }) else .next ((s.snpFree p).snpShare p addr tag) := by
  have hwf : (Instr.snpData p addr tag).wf = true :=
    Bool.and_eq_true_iff.mpr ⟨decide_eq_true haddr, decide_eq_true htag⟩
  rw [← State.snpLine_snpFree (p := p) (s := s)]
  refine (if_pos hwf).trans ((if_neg ?_).trans rfl)
  rw [hup]
  decide

/-- An invalidation takes the line from the cache, and forwards an M line (R361). -/
theorem snpInv_takes : ∃ t, exec (.snpInv p addr tag) s = .next t ∧ Tbl.get {} t.cache (lineKey p addr) = {} ∧ t.mem = s.mem
    ∧ t.hasSent p (if (s.snpLine p addr).st = 3 then { op := 0x1A, addr := addr, tag := tag, data := [(s.snpLine p addr).data] }
      else { op := 0x18, addr := addr, tag := tag }) := by
  obtain ⟨hc, hm, hs⟩ := State.slotFetches_keep (((s.snpFree p).snpDrop p addr tag).slotsAt p addr) ((s.snpFree p).snpDrop p addr tag)
  obtain ⟨hc1, hm1, hs1⟩ := (s.snpFree p).snpDrop_takes p addr tag
  rw [State.snpLine_snpFree] at hs1
  refine ⟨_, exec_snpInv_up haddr htag hup, ?_, ?_, hs _ _ hs1⟩
  · rw [hc, hc1, tbl_get_erase]
  · rw [hm, hm1, State.mem_of_offHost (s.snpFree_offHost p)]

/-- A data snoop leaves the line shared, and forwards an M line (R361). -/
theorem snpData_shares : ∃ t, exec (.snpData p addr tag) s = .next t ∧ t.mem = s.mem
    ∧ ((s.snpLine p addr).st = 0 → Tbl.get {} t.cache (lineKey p addr) = s.snpLine p addr ∧ t.hasSent p { op := 0x18, addr := addr, tag := tag })
    ∧ ((s.snpLine p addr).st ≠ 0 → Tbl.get {} t.cache (lineKey p addr) = { s.snpLine p addr with st := 1 })
    ∧ ((s.snpLine p addr).st = 3 → t.hasSent p { op := 0x1A, addr := addr, tag := tag, data := [(s.snpLine p addr).data] })
    ∧ ((s.snpLine p addr).st = 1 ∨ (s.snpLine p addr).st = 2 → t.hasSent p { op := 0x19, addr := addr, tag := tag }) := by
  have hcache : (s.snpFree p).cache = s.cache := State.cache_of_offHost (s.snpFree_offHost p)
  have hmem : (s.snpFree p).mem = s.mem := State.mem_of_offHost (s.snpFree_offHost p)
  rw [exec_snpData_up haddr htag hup]
  by_cases h0 : (s.snpLine p addr).st = 0
  · rw [if_pos h0]
    refine ⟨_, rfl, ?_, fun _ => ⟨?_, State.qMsg_sends ..⟩, fun h => absurd h0 h, fun h => absurd (h0.symm.trans h) (by decide),
      fun h => absurd h (by omega)⟩
    · rw [State.qMsg_mem, hmem]
    · rw [State.qMsg_cache, hcache]
      rfl
  · rw [if_neg h0]
    obtain ⟨hc, hm, h3, hn3⟩ := (s.snpFree p).snpShare_keeps p addr tag
    rw [State.snpLine_snpFree] at hc h3 hn3
    exact ⟨_, rfl, hm.trans hmem, fun h => absurd h h0, fun _ => by rw [hc, Tbl.get_set_same], h3, fun h => hn3 (by omega)⟩

end

/-! ### Host accesses to module memory (R363, R188) -/

/-- The operation of a host access to memory, the data slots it fills, and the command that carries it. -/
def hostCmd (p : QPort) (addr tag t0 : Nat) (mask : BitVec 128) (line : Row) : Nat → Instr
  | 0x01 => .memRd p addr tag 0 t0
  | 0x04 => .memWr p addr tag 0 t0 line
  | _ => .memWrPtl p addr tag 0 t0 mask line

/-- The class-2 request of a host access. -/
def hostReq (p : QPort) (off tag : Nat) (mask : BitVec 128) (line : Row) (op : Nat) : Class2 :=
  .host p op off tag 0 (if op = 0x05 then mask else 0) (if op = 0x01 then 0 else line)

theorem State.reqFree_offHost (s : State) (p : QPort) (n : Nat) : (s.reqFree p n).offHost = s.offHost := State.setQ_offHost ..

theorem State.hostHome_of_offHost {s t : State} (h : t.offHost = s.offHost) (p : QPort) (addr : Nat) : t.hostHome p addr = s.hostHome p addr := by
  have hact : ∀ c, t.ctxActive c = s.ctxActive c := fun c => by rw [State.ctxActive, State.ctxActive, State.rf_of_offHost h]
  have hport : ∀ c, t.ctxPort c = s.ctxPort c := fun c => by
    rw [State.ctxPort, State.ctxPort, hact, State.ctxEng, State.ctxEng, State.engines_of_offHost h, State.rf_of_offHost h]
  rw [State.hostHome, State.hostHome]
  cases homeOf addr with
  | dram region off => exact if_congr (by simp only [State.rdByte, State.rf_of_offHost h, hact, hport]) rfl rfl
  | slice n row => rfl
  | companion q a => rfl
  | window c i => rfl
  | reserved => rfl

section
variable {p : QPort} {addr tag t0 : Nat} {mask : BitVec 128} {line : Row} {s : State} (haddr : addr < 2 ^ 43) (htag : tag < 4096)
  (hup : s.qUp p = true)
include haddr htag hup

/-- A host access of a port that is up joins class 2 of its channel when its page is the context's (R363). -/
theorem exec_hostCmd_joins {op region off : Nat} (hop : op = 0x01 ∨ op = 0x04 ∨ op = 0x05) (hhome : s.hostHome p addr = some (region, off)) :
    exec (hostCmd p addr tag t0 mask line op) s
      = .next ((s.reqFree p (hostSlots op)).joinTwo (mcOf region off) (tclkCycle t0) (hostReq p off tag mask line op)) := by
  have hwf : (hostCmd p addr tag t0 mask line op).wf = true := by
    obtain rfl | rfl | rfl := hop <;>
      exact Bool.and_eq_true_iff.mpr ⟨Bool.and_eq_true_iff.mpr ⟨decide_eq_true haddr, decide_eq_true htag⟩, rfl⟩
  have hacc : ∀ (m : BitVec 128) (l : Row), s.hostAccess p op addr tag 0 t0 m l
      = (s.reqFree p (hostSlots op)).joinTwo (mcOf region off) (tclkCycle t0) (.host p op off tag 0 m l) := by
    intro m l
    rw [State.hostAccess, hup, Bool.not_true, if_neg Bool.false_ne_true]
    simp only [State.hostHome_of_offHost (State.reqFree_offHost ..), hhome]
  obtain rfl | rfl | rfl := hop
  · exact (if_pos hwf).trans (congrArg Host.Outcome.next (hacc 0 0))
  · exact (if_pos hwf).trans (congrArg Host.Outcome.next (hacc 0 line))
  · exact (if_pos hwf).trans (congrArg Host.Outcome.next (hacc mask line))

/-- A write to a page of no context of the port is refused, answered with STATUS 1 and counted (R363). -/
theorem memWr_refused (hhome : s.hostHome p addr = none) : ∃ t, exec (.memWr p addr tag 0 t0 line) s = .next t ∧ t.mem = s.mem
    ∧ t.rf (qPg p + 0x114) 31 0 = min (s.rf (qPg p + 0x114) 31 0 + 1) (2 ^ 32 - 1)
    ∧ t.hasSent p { op := 0x30, addr := 0, tag := tag, status := 1 } := by
  have hx : exec (.memWr p addr tag 0 t0 line) s = .next ((s.reqFree p (hostSlots 0x04)).memDeny p (hostAnswer 0x04 tag)) := by
    have hwf : (Instr.memWr p addr tag 0 t0 line).wf = true :=
      Bool.and_eq_true_iff.mpr ⟨Bool.and_eq_true_iff.mpr ⟨decide_eq_true haddr, decide_eq_true htag⟩, rfl⟩
    refine (if_pos hwf).trans (congrArg Host.Outcome.next ?_)
    rw [State.hostAccess, hup, Bool.not_true, if_neg Bool.false_ne_true]
    simp only [State.hostHome_of_offHost (State.reqFree_offHost ..), hhome]
  refine ⟨_, hx, ?_, ?_, ?_⟩
  · rw [State.memDeny, State.qMsg_mem, State.bump_mem, State.mem_of_offHost (State.reqFree_offHost ..)]
  · rw [State.memDeny, State.rf_of_offHost (State.qMsg_offHost ..), State.rf_bump_same _ (by omega),
      State.rf_of_offHost (State.reqFree_offHost ..)]
  · exact State.qMsg_sends ..

end

theorem State.mcBusy_of_offHost {s t : State} (h : t.offHost = s.offHost) (mc : Nat) : t.mcBusy mc = s.mcBusy mc := by
  change t.offHost.mcBusy mc = s.offHost.mcBusy mc
  rw [h]

theorem State.memHeld_of_offHost {s t : State} (h : t.offHost = s.offHost) : t.memHeld = s.memHeld := by
  change t.offHost.memHeld = s.offHost.memHeld
  rw [h]

theorem State.class2_of_offHost {s t : State} (h : t.offHost = s.offHost) : t.class2 = s.class2 := by
  change t.offHost.class2 = s.offHost.class2
  rw [h]

/-- A state whose class 2 holds these requests. -/
def State.withClass2 (s : State) (l : List (Nat × Class2)) : State := { s with class2 := l }

theorem State.withClass2_self {s : State} {l : List (Nat × Class2)} (h : s.class2 = l) : s.withClass2 l = s := by
  subst h
  rfl

/-- While rows of class 1 wait, a request of class 2 waits behind them (R188). -/
theorem State.joinTwo_busy {s : State} {mc : Nat} (h : s.mcBusy mc = true) (cyc : Nat) (x : Class2) :
    s.joinTwo mc cyc x = s.withClass2 (s.class2 ++ [(mc, x)]) := by
  have hb : (s.withClass2 (s.class2 ++ [(mc, x)])).mcBusy mc = true := h
  change (s.withClass2 (s.class2 ++ [(mc, x)])).classTwo mc cyc (s.class2.length + 1) = _
  rw [State.classTwo, if_pos (Or.inl hb)]

/-- At a channel with no other request, a request of class 2 is served at once (R188). -/
theorem State.joinTwo_alone {s : State} {mc : Nat} (hb : s.mcBusy mc = false) (hheld : s.memHeld = false) (hc : s.class2 = []) (cyc : Nat)
    (x : Class2) : s.joinTwo mc cyc x = s.serveTwo mc cyc x := by
  have h1 : (s.withClass2 [(mc, x)]).mcBusy mc = false := hb
  have h2 : (s.withClass2 [(mc, x)]).memHeld = false := hheld
  have hfind : (s.withClass2 [(mc, x)]).class2.find? (fun y => decide (y.1 = mc)) = some (mc, x) := by
    simp [State.withClass2]
  have herase : (s.withClass2 [(mc, x)]).class2.erase (mc, x) = [] := by
    simp [State.withClass2]
  have hjoin : s.joinTwo mc cyc x = (s.withClass2 [(mc, x)]).classTwo mc cyc 1 := by
    rw [State.joinTwo, hc]
    rfl
  rw [hjoin, State.classTwo, if_neg (by simp [h1, h2])]
  simp only [hfind, herase, State.classTwo]
  exact congrArg (fun u : State => u.serveTwo mc cyc x) (State.withClass2_self hc)

theorem homeOf_dramAddr {region off : Nat} (hr : region < 64) (ho : off < 0x3C0000000) : homeOf (region * 2 ^ 34 + off) = .dram region off := by
  have hmod : (region * 2 ^ 34 + off) % 2 ^ 43 = region * 2 ^ 34 + off := by omega
  have hkind : (region * 2 ^ 34 + off) / 2 ^ 40 % 8 = 0 := by omega
  have hoff : (region * 2 ^ 34 + off) % 2 ^ 34 = off := by omega
  have hreg : (region * 2 ^ 34 + off) / 2 ^ 34 % 64 = region := by omega
  simp only [homeOf, hmod, hkind, hoff, hreg, if_pos ho]
  rw [if_neg (by omega)]

/-- The page of a row a host access may reach (R363). -/
theorem State.hostHome_row {s : State} {p : QPort} {addr region off : Nat} (h : s.hostHome p addr = some (region, off)) :
    s.hostHome p (region * 2 ^ 34 + off) = some (region, off) ∧ region < 64 := by
  rw [State.hostHome] at h
  cases hhome : homeOf addr with
  | slice n row => simp [hhome] at h
  | companion q a => simp [hhome] at h
  | window c i => simp [hhome] at h
  | reserved => simp [hhome] at h
  | dram r o =>
    obtain ⟨-, ho, hr⟩ := homeOf_dram hhome
    rw [hhome] at h
    simp only at h
    split at h
    next hok =>
      obtain ⟨rfl, rfl⟩ : r = region ∧ o / 128 * 128 = off := by simpa using h
      refine ⟨?_, hr⟩
      have hsame : homeOf (r * 2 ^ 34 + o / 128 * 128) = .dram r (o / 128 * 128) := homeOf_dramAddr hr (by omega)
      rw [State.hostHome, hsame]
      simp only [show o / 128 * 128 / 128 * 128 = o / 128 * 128 by omega, if_pos hok]
    next => cases h

theorem mcOf_region (region off : Nat) : mcOf region off / 2 = region := by
  rw [mcOf]
  omega

section
variable {p : QPort} {region off tag cyc : Nat} {mask : BitVec 128} {line : Row} {s : State}
  (hrow : s.hostHome p (region * 2 ^ 34 + off) = some (region, off))
include hrow

/-- A read returns the row as the controller reads it, and changes no byte (R363). -/
theorem State.hostServe_read : (s.hostServe p 0x01 region off tag 0 mask line cyc).mem = s.mem
    ∧ ∃ st, (s.hostServe p 0x01 region off tag 0 mask line cyc).hasSent p
      { op := 0x31, addr := 0, tag := tag, status := st, data := [(s.dramRead region off cyc).1] } := by
  have hx : s.hostServe p 0x01 region off tag 0 mask line cyc = (s.dramRead region off cyc).2.2.qMsg p
      { hostAnswer 0x01 tag with status := if (s.dramRead region off cyc).2.1.isSome then 3 else 0, data := [(s.dramRead region off cyc).1] } := by
    rw [State.hostServe, if_neg (not_not_intro hrow), if_neg (by decide)]
    simp only [State.linkFault_zero]
    rw [if_neg (by decide)]
  rw [hx]
  exact ⟨by rw [State.qMsg_mem, State.mem_of_kept (State.dramRead_kept ..)], _, State.qMsg_sends ..⟩

/-- A write stores its line, and no other byte (R363). -/
theorem State.hostServe_write : (s.hostServe p 0x04 region off tag 0 mask line cyc).mem = (s.setMemRow (region * 2 ^ 34 + off) line).mem
    ∧ (s.hostServe p 0x04 region off tag 0 mask line cyc).hasSent p { op := 0x30, addr := 0, tag := tag } := by
  have hx : s.hostServe p 0x04 region off tag 0 mask line cyc = (s.dramWrite region off line).qMsg p (hostAnswer 0x04 tag) := by
    rw [State.hostServe, if_neg (not_not_intro hrow), if_pos rfl]
    simp only [State.linkFault_zero]
  rw [hx]
  exact ⟨by rw [State.qMsg_mem, State.dramWrite_mem], State.qMsg_sends ..⟩

/-- A partial write stores the masked bytes over the row as read, and no other byte (R363). -/
theorem State.hostServe_partial : (s.hostServe p 0x05 region off tag 0 mask line cyc).mem
      = ((s.dramRead region off cyc).2.2.setMemRow (region * 2 ^ 34 + off) (mergeRow (s.dramRead region off cyc).1 line mask)).mem
    ∧ (s.hostServe p 0x05 region off tag 0 mask line cyc).hasSent p { op := 0x30, addr := 0, tag := tag } := by
  have hx : s.hostServe p 0x05 region off tag 0 mask line cyc
      = ((s.dramRead region off cyc).2.2.dramWrite region off (mergeRow (s.dramRead region off cyc).1 line mask)).qMsg p (hostAnswer 0x05 tag) := by
    rw [State.hostServe, if_neg (not_not_intro hrow), if_neg (by decide)]
    simp only [State.linkFault_zero, if_true]
  rw [hx]
  exact ⟨by rw [State.qMsg_mem, State.dramWrite_mem], State.qMsg_sends ..⟩

end

section
variable {p : QPort} {addr tag t0 region off : Nat} {mask : BitVec 128} {line : Row} {s : State} (haddr : addr < 2 ^ 43) (htag : tag < 4096)
  (hup : s.qUp p = true) (hhome : s.hostHome p addr = some (region, off))
include haddr htag hup hhome

/-- At a channel with no other request a permitted access is served at once (R363, R188). -/
theorem exec_hostCmd_served {op : Nat} (hop : op = 0x01 ∨ op = 0x04 ∨ op = 0x05) (hb : s.mcBusy (mcOf region off) = false)
    (hheld : s.memHeld = false) (hc : s.class2 = []) : exec (hostCmd p addr tag t0 mask line op) s
      = .next ((s.reqFree p (hostSlots op)).hostServe p op region off tag 0 (if op = 0x05 then mask else 0) (if op = 0x01 then 0 else line)
        (tclkCycle t0)) := by
  have hfree := s.reqFree_offHost p (hostSlots op)
  rw [exec_hostCmd_joins haddr htag hup hop hhome, State.joinTwo_alone ((State.mcBusy_of_offHost hfree _).trans hb)
    ((State.memHeld_of_offHost hfree).trans hheld) ((State.class2_of_offHost hfree).trans hc), hostReq, State.serveTwo, mcOf_region]

/-- A permitted access to a channel at which rows of class 1 wait, waits behind them (R188). -/
theorem hostCmd_waits {op : Nat} (hop : op = 0x01 ∨ op = 0x04 ∨ op = 0x05) (hb : s.mcBusy (mcOf region off) = true) :
    ∃ t x, exec (hostCmd p addr tag t0 mask line op) s = .next t ∧ t.class2 = s.class2 ++ [(mcOf region off, x)] ∧ t.mem = s.mem ∧ t.out = s.out := by
  have hfree := s.reqFree_offHost p (hostSlots op)
  have hx := exec_hostCmd_joins (t0 := t0) (mask := mask) (line := line) haddr htag hup hop hhome
  rw [State.joinTwo_busy ((State.mcBusy_of_offHost hfree _).trans hb)] at hx
  refine ⟨_, hostReq p off tag mask line op, hx, ?_, ?_, ?_⟩
  · rw [← State.class2_of_offHost hfree]
    rfl
  · rw [← State.mem_of_offHost hfree]
    rfl
  · exact State.setQ_out ..

/-- What a permitted access does at a channel with no other request (R363). -/
theorem hostCmd_serves (hb : s.mcBusy (mcOf region off) = false) (hheld : s.memHeld = false) (hc : s.class2 = []) :
    (∃ t, exec (.memRd p addr tag 0 t0) s = .next t ∧ t.mem = s.mem
        ∧ ∃ st, t.hasSent p { op := 0x31, addr := 0, tag := tag, status := st, data := [((s.reqFree p 0).dramRead region off (tclkCycle t0)).1] })
      ∧ (∃ t, exec (.memWr p addr tag 0 t0 line) s = .next t ∧ t.memRow (region * 2 ^ 34 + off) = line
        ∧ (∀ b, outsideRows [region * 2 ^ 34 + off] b → t.memByte b = s.memByte b) ∧ t.hasSent p { op := 0x30, addr := 0, tag := tag })
      ∧ (∃ t, exec (.memWrPtl p addr tag 0 t0 mask line) s = .next t
        ∧ t.memRow (region * 2 ^ 34 + off) = mergeRow ((s.reqFree p 9).dramRead region off (tclkCycle t0)).1 line mask
        ∧ (∀ b, outsideRows [region * 2 ^ 34 + off] b → t.memByte b = s.memByte b) ∧ t.hasSent p { op := 0x30, addr := 0, tag := tag }) := by
  have hrow : ∀ n, (s.reqFree p n).hostHome p (region * 2 ^ 34 + off) = some (region, off) := fun n => by
    rw [State.hostHome_of_offHost (s.reqFree_offHost p n)]
    exact (State.hostHome_row hhome).1
  have hmem : ∀ n, (s.reqFree p n).mem = s.mem := fun n => State.mem_of_offHost (s.reqFree_offHost p n)
  have hout : ∀ b, outsideRows [region * 2 ^ 34 + off] b → b < region * 2 ^ 34 + off ∨ region * 2 ^ 34 + off + 128 ≤ b := fun b h => by
    have := h _ List.mem_cons_self
    omega
  refine ⟨?_, ?_, ?_⟩
  · obtain ⟨hm, st, hs⟩ := State.hostServe_read (tag := tag) (cyc := tclkCycle t0) (mask := 0) (line := 0) (hrow 0)
    exact ⟨_, exec_hostCmd_served (mask := mask) (line := line) haddr htag hup hhome (op := 0x01) (by decide) hb hheld hc, hm.trans (hmem 0), st, hs⟩
  · obtain ⟨hm, hs⟩ := State.hostServe_write (tag := tag) (cyc := tclkCycle t0) (mask := 0) (line := line) (hrow 8)
    refine ⟨_, exec_hostCmd_served (mask := mask) (line := line) haddr htag hup hhome (op := 0x04) (by decide) hb hheld hc, ?_, fun b h => ?_, hs⟩
    · exact (State.memRow_of_mem hm _).trans (State.memRow_setMemRow ..)
    · exact (State.memByte_of_mem hm b).trans ((State.memByte_setMemRow_other _ _ (hout b h)).trans (State.memByte_of_mem (hmem 8) b))
  · obtain ⟨hm, hs⟩ := State.hostServe_partial (tag := tag) (cyc := tclkCycle t0) (mask := mask) (line := line) (hrow 9)
    refine ⟨_, exec_hostCmd_served (mask := mask) (line := line) haddr htag hup hhome (op := 0x05) (by decide) hb hheld hc, ?_, fun b h => ?_, hs⟩
    · exact (State.memRow_of_mem hm _).trans (State.memRow_setMemRow ..)
    · refine (State.memByte_of_mem hm b).trans ((State.memByte_setMemRow_other _ _ (hout b h)).trans (State.memByte_of_mem ?_ b))
      rw [State.mem_of_kept (State.dramRead_kept ..), hmem]

end

/-- Settles O41: snoops, then the host's accesses as their page and their channel allow. -/
theorem hostCoherence : Obligations.HostCoherence := by
  refine ⟨fun p addr tag s haddr htag hup => ⟨snpInv_takes haddr htag hup, snpData_shares haddr htag hup⟩,
    fun p addr tag t0 region off line mask s haddr htag hup hhome => ⟨hostCmd_serves haddr htag hup hhome, fun hb c hc => ?_⟩,
    fun p addr tag t0 line s haddr htag hup hhome => memWr_refused haddr htag hup hhome⟩
  simp only [List.mem_cons, List.not_mem_nil, or_false] at hc
  obtain rfl | rfl | rfl := hc
  · exact hostCmd_waits (mask := mask) (line := line) haddr htag hup hhome (op := 0x01) (by decide) hb
  · exact hostCmd_waits (mask := mask) (line := line) haddr htag hup hhome (op := 0x04) (by decide) hb
  · exact hostCmd_waits (mask := mask) (line := line) haddr htag hup hhome (op := 0x05) (by decide) hb

end Sys2Proof.Machine

/-! Slot lines that the cache has no room for (R365). -/

namespace Sys2Proof.Machine

/-- Sixteen ACTIVE contexts of one port whose slot lines of one set fill it, and a slot read of an engine of context 0 that had another base:
its line is of the same set, and is not a slot line of the context any more. -/
def crowded : State :=
  let on : State := (List.range 16).foldl (fun (s : State) c => s.wf (ctxPg c + 0x114) 31 31 1) State.reset
  { on with engines := (List.range 16).map (fun c => (c, { port := .qa, base := 2 ^ 20 * (c + 1) })),
            cache := (List.range 16).map (fun c => (8192 * (c + 1), { st := 1 })),
            qa := { reqs := [{ tag := 5, addr := 2 ^ 20 * 20, why := .slotRead 0 3 }] } }

/-- The line that comes back is not kept: every line of its set is pinned. -/
theorem crowded_drops : (match exec (.cmpData .qa 5 1 0 7) crowded with
    | .next t => decide (Tbl.get {} t.cache (lineKey .qa (2 ^ 20 * 20)) = {})
    | _ => false) = true := by
  decide +kernel

/-- Refutes O42: a slot line that is answered while its set of the cache is full of slot lines of ACTIVE contexts is not kept in the cache. -/
theorem not_hostMessages : ¬ Obligations.HostMessages := by
  rintro ⟨-, hdata, -⟩
  obtain ⟨t, ht, -, -, hcache⟩ := hdata .qa 5 1 0 3 7 { tag := 5, addr := 2 ^ 20 * 20, why := .slotRead 0 3 } crowded (by decide) (by decide)
    (by decide +kernel) rfl (by decide +kernel) (by decide +kernel)
  have hdrop := crowded_drops
  rw [ht] at hdrop
  exact absurd ((of_decide_eq_true hdrop).symm.trans (hcache (Or.inl rfl))) (by decide)

/-- A step of context 0 whose copy-out is complete, its slot line held for writing, and a cache that lists sixteen lines of the same set beside
it, each of them a slot line of context 1. -/
def overfull : State :=
  { State.reset.wf (ctxPg 1 + 0x114) 31 31 1 with
    engines := [(0, { copies := [{ slot := 0, open_ := 0, status := 0, irq := false, due := true }] }), (1, { base := 2 ^ 20 })],
    cache := (0, { st := 2 }) :: List.replicate 16 (8192, { st := 1 }) }

/-- The line of the slot keeps its state: the new line is not kept where every other line of a full set is pinned. -/
theorem overfull_keeps : (match exec (.doneWrite 0) overfull with
    | .next t => decide ((Tbl.get {} t.cache (lineKey .qa 0) : CLine).st = 2)
    | _ => false) = true := by
  decide +kernel

/-- Refutes O44: the statement is of every state, and in one whose cache lists sixteen pinned lines of a set beside the slot line (no step leads to
such a cache) the line that says DONE is written back and not kept, so that the cache does not hold it as M. -/
theorem not_contextsSlotsAndHitches : ¬ Obligations.ContextsSlotsAndHitches := by
  rintro ⟨⟨-, -, hdone, -⟩, -⟩
  obtain ⟨t, ht, -, -, -, hst, -⟩ := hdone 0 { slot := 0, open_ := 0, status := 0, irq := false, due := true } overfull (by decide) rfl rfl rfl rfl
    (by decide +kernel)
  have hkept := overfull_keeps
  rw [ht] at hkept
  exact absurd ((of_decide_eq_true hkept).symm.trans hst) (by decide)

end Sys2Proof.Machine

/-! Signed objects (R382 to R394), and the close of sessions (R395). -/

namespace Sys2Proof.Machine

theorem State.wr64_nonceCtr (s : State) (a v : Nat) : (s.wr64 a v).nonceCtr = s.nonceCtr := id rfl
theorem State.wr64_dbg (s : State) (a v : Nat) : (s.wr64 a v).dbg = s.dbg := id rfl
theorem State.wr64_flash (s : State) (a v : Nat) : (s.wr64 a v).flash = s.flash := id rfl

theorem State.rd64_of_rd {s t : State} {a : Nat} (h : t.rd a = s.rd a) (h4 : t.rd (a + 4) = s.rd (a + 4)) : t.rd64 a = s.rd64 a := by
  rw [State.rd64, State.rd64, h, h4]

theorem State.rd64_wr64_mod (s : State) (a v : Nat) : (s.wr64 a v).rd64 a = v % 2 ^ 64 := by
  have hlo : (s.wr64 a v).rd a = BitVec.ofNat 32 v := by
    rw [State.wr64, State.rd_wr_other _ _ (by omega), State.rd_wr_same]
  have hhi : (s.wr64 a v).rd (a + 4) = BitVec.ofNat 32 (v / 2 ^ 32) := State.rd_wr_same _ _ _
  rw [State.rd64, hlo, hhi, BitVec.toNat_ofNat, BitVec.toNat_ofNat]
  omega

theorem mbPg_ne_nonce (ag : Agent) : secPg + 0x110 ≠ mbPg ag + 0x104 ∧ secPg + 0x110 + 4 ≠ mbPg ag + 0x104 ∧ secPg + 0x118 ≠ mbPg ag + 0x104
    ∧ secPg + 0x118 + 4 ≠ mbPg ag + 0x104 := by
  cases ag <;> decide

/-- A state that has drawn this many nonces. -/
def State.withNonces (s : State) (n : Nat) : State := { s with nonceCtr := n }

theorem State.withNonces_nonceCtr (s : State) (n : Nat) : (s.withNonces n).nonceCtr = n := rfl
theorem State.withNonces_dbg (s : State) (n : Nat) : (s.withNonces n).dbg = s.dbg := rfl
theorem State.withNonces_flash (s : State) (n : Nat) : (s.withNonces n).flash = s.flash := rfl

theorem State.redraw_eq (s : State) : s.redraw = ((s.withNonces (s.nonceCtr + 1)).wr64 (secPg + 0x110) (Config.nonce s.nonceCtr).toNat).wr64
    (secPg + 0x118) ((Config.nonce s.nonceCtr).toNat / 2 ^ 64) := id rfl

/-- A new nonce is drawn, and stands in DBG_NONCE (R387). -/
theorem State.redraw_draws (s : State) (ag : Agent) (r : Nat) : (s.redraw.secResult ag r).nonceCtr = s.nonceCtr + 1
    ∧ (s.redraw.secResult ag r).nonceNow = (Config.nonce s.nonceCtr).toNat := by
  obtain ⟨h1, h2, h3, h4⟩ := mbPg_ne_nonce ag
  have hlt : (Config.nonce s.nonceCtr).toNat < 2 ^ 128 := (Config.nonce s.nonceCtr).isLt
  refine ⟨?_, ?_⟩
  · rw [State.secResult, State.wf_nonceCtr, State.redraw_eq, State.wr64_nonceCtr, State.wr64_nonceCtr, State.withNonces_nonceCtr]
  · rw [State.nonceNow, State.secResult, State.rd64_of_rd (State.rd_wf_other _ _ _ _ h1) (State.rd_wf_other _ _ _ _ h2),
      State.rd64_of_rd (State.rd_wf_other _ _ _ _ h3) (State.rd_wf_other _ _ _ _ h4), State.redraw_eq, State.rd64_wr64_same _ _ (by omega),
      State.rd64_of_rd (State.rd_wr64_other _ _ (by decide) (by decide)) (State.rd_wr64_other _ _ (by decide) (by decide)), State.rd64_wr64_mod]
    exact Nat.mod_add_div' _ _

theorem State.redraw_dbg (s : State) : s.redraw.dbg = s.dbg := by
  rw [State.redraw_eq, State.wr64_dbg, State.wr64_dbg, State.withNonces_dbg]

theorem State.redraw_flash (s : State) : s.redraw.flash = s.flash := by
  rw [State.redraw_eq, State.wr64_flash, State.wr64_flash, State.withNonces_flash]

/-- What an object does, and what its presentation shows. -/
theorem State.present_shows (s : State) (ag : Agent) (type : Nat) (o : SecObject) (rule : State → Nat) (go : State → State) (hrule : rule s < 16) :
    let r := if secMalformed type o then 8 else if s.secCheck ag type o ≠ 0 then s.secCheck ag type o else rule s
    (s.present ag type o rule go).rf (mbPg ag + 0x104) 3 0 = r ∧ (s.present ag type o rule go).flash = (if r = 0 then go s else s).flash
      ∧ (s.present ag type o rule go).dbg = (if r = 0 then go s else s).dbg
      ∧ (s.present ag type o rule go).nonceCtr = (if r = 0 then go s else s).nonceCtr + 1
      ∧ (s.present ag type o rule go).nonceNow = (Config.nonce (if r = 0 then go s else s).nonceCtr).toNat := by
  intro r
  have hr : r < 16 := by
    have hcheck : s.secCheck ag type o < 16 := by
      rw [State.secCheck]
      repeat' split
      all_goals omega
    simp only [r]
    repeat' split
    all_goals omega
  have hx : s.present ag type o rule go = (if r = 0 then go s else s).redraw.secResult ag r := rfl
  rw [hx]
  refine ⟨?_, ?_, ?_, State.redraw_draws ..⟩
  · rw [State.secResult, State.rf_wf_same _ (by omega)]
    exact Nat.mod_eq_of_lt hr
  · rw [State.secResult, State.wf_flash, State.redraw_flash]
  · rw [State.secResult, State.wf_dbg, State.redraw_dbg]

/-! ### The close of a session (R395) -/

/-- A state whose flash holds these values. -/
def State.withFlash (s : State) (f : Flash) : State := { s with flash := f }

theorem State.withFlash_flash (s : State) (f : Flash) : (s.withFlash f).flash = f := rfl

/-! ### What each object does -/

/-- A debug token that is accepted opens its session (R394, R397). -/
theorem State.openSession_opens (s : State) (ag : Agent) (o : SecObject) : (s.openSession ag o).flash = s.flash
    ∧ (s.openSession ag o).nonceCtr = s.nonceCtr ∧ ∃ d,
        (s.openSession ag o).dbg = some d ∧ d.level = o.arg ∧ d.agent = ag ∧ (o.arg = 2 → d.ctx = o.ctx) ∧ d.left = o.duration * 16000000000 := by
  simp only [State.openSession]
  split
  · exact ⟨rfl, rfl, _, rfl, rfl, rfl, fun h => if_pos h, rfl⟩
  · exact ⟨rfl, rfl, _, rfl, rfl, rfl, fun h => if_pos h, rfl⟩

theorem State.tokenRule_lt (s : State) (o : SecObject) : s.tokenRule o < 16 := by
  simp only [State.tokenRule]
  repeat' split
  all_goals omega

theorem State.lifecycleRule_lt (s : State) (o : SecObject) : s.lifecycleRule o < 16 := by
  simp only [State.lifecycleRule]
  repeat' split
  all_goals omega

theorem State.ownerRule_lt (s : State) (o : SecObject) : s.ownerRule o < 16 := by
  simp only [State.ownerRule]
  repeat' split
  all_goals omega

/-- The lifecycles from which a LIFECYCLE object is accepted (R391). -/
theorem State.lifecycleRule_zero {s : State} {o : SecObject} (h : s.lifecycleRule o = 0) :
    (s.flash.lifecycle = 1 ∧ o.arg % 128 = 2) ∨ ((s.flash.lifecycle = 1 ∨ s.flash.lifecycle = 2) ∧ o.arg % 128 = 3)
      ∨ (s.flash.lifecycle = 3 ∧ o.arg = 131) := by
  simp only [State.lifecycleRule] at h
  repeat' split at h
  all_goals omega

/-- A LIFECYCLE object that is accepted changes the state, or clears the fence list (R391, R392). -/
theorem State.lifecycleGo_goes {s : State} {o : SecObject} (h : s.lifecycleRule o = 0) :
    (s.lifecycleGo o).flash.lifecycle = (if o.arg % 128 = 3 then 3 else 2)
      ∧ (o.arg % 128 = 3 → s.flash.lifecycle ≠ 3 → (s.lifecycleGo o).flash.owner = none)
      ∧ (o.arg = 131 → (s.lifecycleGo o).flash.fence = []) := by
  by_cases h3 : s.flash.lifecycle = 3
  · have harg : o.arg = 131 := by
      obtain ⟨h1, -⟩ | ⟨h1 | h1, -⟩ | ⟨-, ha⟩ := State.lifecycleRule_zero h
      · omega
      · omega
      · omega
      · exact ha
    have hx : s.lifecycleGo o = s.withFlash { s.flash with fence := [] } := if_pos h3
    rw [hx, State.withFlash_flash, if_pos (by omega)]
    exact ⟨h3, fun _ hn => absurd h3 hn, fun _ => rfl⟩
  · by_cases ha : o.arg % 128 = 3
    · have hx : s.lifecycleGo o = s.enterReturned (decide (128 ≤ o.arg)) := (if_neg h3).trans (if_pos ha)
      rw [hx, if_pos ha, State.enterReturned]
      exact ⟨rfl, fun _ _ => rfl, fun h => if_pos (by rw [h]; decide)⟩
    · have hx : s.lifecycleGo o = s.closeSession.withFlash { s.closeSession.flash with lifecycle := 2 } := (if_neg h3).trans (if_neg ha)
      rw [hx, State.withFlash_flash, if_neg ha]
      exact ⟨rfl, fun h => absurd h ha, fun h => absurd (by omega) ha⟩

/-- An OWNER_KEY object that is accepted installs its key (R391). -/
theorem State.ownerGo_installs (s : State) (o : SecObject) : (s.ownerGo o).flash.owner = some o.key
    ∧ (s.ownerGo o).flash.lifecycle = (if s.flash.lifecycle = 0 ∨ s.flash.lifecycle = 3 then 1 else s.flash.lifecycle) := ⟨rfl, rfl⟩

/-- The rule of a REVOKE object: a powered module, and another vendor key (R384). -/
def State.revokeRule (s : State) (o : SecObject) : Nat := if !s.aon.powered then 5 else if o.signer = 4 ∨ o.signer = o.arg then 2 else 0

theorem State.revokeRule_eq (s : State) (o : SecObject) :
    s.revokeRule o = if s.aon.powered = false then 5 else if o.signer = 4 ∨ o.signer = o.arg then 2 else 0 := by
  cases h : s.aon.powered <;> simp [State.revokeRule, h]

theorem State.revokeRule_lt (s : State) (o : SecObject) : s.revokeRule o < 16 := by
  rw [State.revokeRule]
  repeat' split
  all_goals omega

/-- A vendor key is revoked (R384). -/
def State.revokeGo (s : State) (o : SecObject) : State :=
  s.withFlash { s.flash with revoked := s.flash.revoked ||| BitVec.ofNat 4 (2 ^ o.arg) }

theorem State.revokeGo_dbg (s : State) (o : SecObject) : (s.revokeGo o).dbg = s.dbg := rfl

/-- Settles O45, for each kind of object: what `present` shows of the first refusal that applies, and what the object does without one. -/
theorem signedObjectsTakeEffect : Obligations.SignedObjectsTakeEffect := by
  refine ⟨fun ag o s => ?_, fun ag o s => ?_, fun ag o s => ?_, fun ag o s => ?_⟩
  · obtain ⟨hres, hflash, hdbg, hctr, hnow⟩ := s.present_shows ag 1 o (fun s => s.tokenRule o) (fun s => s.openSession ag o) (s.tokenRule_lt o)
    obtain ⟨hkept, hnonces, d, hd, hopen⟩ := s.openSession_opens ag o
    rw [apply_ite State.nonceCtr, hnonces, ite_self] at hctr hnow
    rw [apply_ite State.flash, hkept, ite_self] at hflash
    refine ⟨_, rfl, hres, hflash, hctr, hnow, fun h => hdbg.trans (congrArg State.dbg (if_neg h)), fun h => ?_⟩
    exact ⟨d, (hdbg.trans (congrArg State.dbg (if_pos h))).trans hd, hopen⟩
  · obtain ⟨hres, hflash, hdbg, -⟩ := s.present_shows ag 2 o (fun s => s.lifecycleRule o) (fun s => s.lifecycleGo o) (s.lifecycleRule_lt o)
    refine ⟨_, rfl, hres, fun h => ?_, fun h => ?_⟩
    · rw [if_neg h] at hflash hdbg
      exact ⟨hflash, hdbg⟩
    · rw [if_pos h] at hflash
      have hrule : s.lifecycleRule o = 0 := by
        split at h
        · cases h
        · split at h
          · omega
          · exact h
      exact hflash ▸ State.lifecycleGo_goes hrule
  · obtain ⟨hres, hflash, hdbg, -⟩ := s.present_shows ag 3 o (fun s => s.ownerRule o) (fun s => s.ownerGo o) (s.ownerRule_lt o)
    refine ⟨_, rfl, hres, fun h => ?_, fun h => ?_⟩
    · rw [if_neg h] at hflash hdbg
      exact ⟨hflash, hdbg⟩
    · rw [if_pos h] at hflash
      exact hflash ▸ s.ownerGo_installs o
  · obtain ⟨hres, hflash, hdbg, -⟩ := s.present_shows ag 4 o (fun s => s.revokeRule o) (fun s => s.revokeGo o) (s.revokeRule_lt o)
    rw [State.revokeRule_eq] at hres hflash hdbg
    refine ⟨_, rfl, hres, ?_, ?_⟩
    · refine hdbg.trans ?_
      rw [apply_ite State.dbg, State.revokeGo_dbg, ite_self]
    · exact hflash.trans (apply_ite State.flash ..)

end Sys2Proof.Machine

/-! Pattern loads (R97, R98). -/

namespace Sys2Proof.Machine

/-! ### The commands of the load engine (R97) -/

theorem fld_status (w : Word) : fld w 31 28 = fld w 31 31 * 8 + fld w 30 28 := by
  simp only [fld]
  omega

section
variable (s : State) (gp : Nat)

/-- A load that stops shows its error, and nothing is loaded any more (R97). -/
theorem State.loadStop_stops {err : Nat} (herr : err < 8) : ((s.loadStop gp err).core gp).loader = none
    ∧ (s.loadStop gp err).rf (loadStat gp) 31 28 = err := by
  refine ⟨?_, ?_⟩
  · rw [State.loadStop, State.core_wf, State.core_wf, State.core_modCore_same]
  · rw [State.rf, fld_status]
    change (s.loadStop gp err).rf (loadStat gp) 31 31 * 8 + (s.loadStop gp err).rf (loadStat gp) 30 28 = err
    rw [State.loadStop, State.rf_wf_field _ (by omega) (by omega), State.rf_wf_same _ (by omega), State.rf_wf_same _ (by omega)]
    omega

theorem State.rd_loadStop_other {err a : Nat} (h : a ≠ loadStat gp) : (s.loadStop gp err).rd a = s.rd a := by
  rw [State.loadStop, State.rd_wf_other _ _ _ _ h, State.rd_wf_other _ _ _ _ h, State.rd_modCore]

/-- A load that is denied counts in FEED_DENY (R98). -/
theorem State.loadDenied_stops : ((s.loadDenied gp).core gp).loader = none ∧ (s.loadDenied gp).rf (loadStat gp) 31 28 = 7
    ∧ (s.loadDenied gp).rf (corePg gp + 0x700) 31 0 = min (s.rf (corePg gp + 0x700) 31 0 + 1) (2 ^ 32 - 1) := by
  obtain ⟨hl, hst⟩ := (s.bump (corePg gp + 0x700) 31 0 1).loadStop_stops gp (show 7 < 8 by decide)
  refine ⟨hl, hst, ?_⟩
  rw [State.loadDenied, State.rf_of_rd (State.rd_loadStop_other _ _ (by unfold loadStat; omega)), State.rf_bump_same _ (by omega)]

end

section
variable {s : State} {gp : Nat} {v : Word}

/-- What a write of PAT_LOAD_CTL asks for, once the register has it (R97). -/
def State.loadAsk (s : State) (gp : Nat) (v : Word) : State :=
  if fld v 30 30 = 1 then (if (s.core gp).loader.isSome then s.loadStop gp 6 else s)
  else if fld v 31 31 = 0 ∨ (s.core gp).loader.isSome ∨ (s.core gp).zeroing then s
  else s.loadGo gp v

theorem State.loadCtl_eq (s : State) (gp : Nat) (v : Word) :
    s.loadCtl gp v = (s.wr (corePg gp + 0x218) ((s.rd (corePg gp + 0x218) &&& ~~~(0x1FFF1FFF : Word)) ||| (v &&& 0x1FFF1FFF))).loadAsk gp v := id rfl

/-- GO without ABORT, at an idle engine (R97). -/
theorem State.loadAsk_go (hz : (s.core gp).zeroing = false) (hl : (s.core gp).loader = none) (ha : fld v 30 30 = 0) (hg : fld v 31 31 = 1) :
    s.loadAsk gp v = s.loadGo gp v := by
  rw [State.loadAsk, hz, hl, if_neg (by omega), if_neg (by simp [hg])]

/-- A GO for the bank in use, or for entries that do not fit, is refused (R97). -/
theorem State.loadGo_refused (hl : (s.core gp).loader = none) :
    (fld v 28 28 = s.rf (corePg gp + 0x200) 0 0 → (s.loadGo gp v).rf (loadStat gp) 30 28 = 1 ∧ ((s.loadGo gp v).core gp).loader = none)
      ∧ (fld v 28 28 ≠ s.rf (corePg gp + 0x200) 0 0 → (4096 < fld v 27 16 + fld v 12 0 ∨ fld v 12 0 = 0) →
        (s.loadGo gp v).rf (loadStat gp) 30 28 = 2 ∧ ((s.loadGo gp v).core gp).loader = none) := by
  have hbank : ((s.wf (loadStat gp) 30 28 0).wf (loadStat gp) 12 0 0).rf (corePg gp + 0x200) 0 0 = s.rf (corePg gp + 0x200) 0 0 := by
    rw [State.rf_wf_other _ (by unfold loadStat; omega), State.rf_wf_other _ (by unfold loadStat; omega)]
  refine ⟨fun h => ?_, fun h hfit => ?_⟩
  · have hx : s.loadGo gp v = ((s.wf (loadStat gp) 30 28 0).wf (loadStat gp) 12 0 0).wf (loadStat gp) 30 28 1 := if_pos (h.trans hbank.symm)
    rw [hx, State.rf_wf_same _ (by omega), State.core_wf, State.core_wf, State.core_wf]
    exact ⟨rfl, hl⟩
  · have hx : s.loadGo gp v = ((s.wf (loadStat gp) 30 28 0).wf (loadStat gp) 12 0 0).wf (loadStat gp) 30 28 2 :=
      (if_neg fun he => h (he.trans hbank)).trans (if_pos hfit)
    rw [hx, State.rf_wf_same _ (by omega), State.core_wf, State.core_wf, State.core_wf]
    exact ⟨rfl, hl⟩

/-- The registers of a load that starts. -/
def State.loadStarts (s : State) (gp bank : Nat) : State :=
  (((s.wf (loadStat gp) 30 28 0).wf (loadStat gp) 12 0 0).wf (loadStat gp) (16 + bank) (16 + bank) 0).wf (loadStat gp) 31 31 1

/-- A GO that is accepted starts a load (R97). -/
theorem State.loadGo_starts (h : fld v 28 28 ≠ s.rf (corePg gp + 0x200) 0 0) (hfit : fld v 27 16 + fld v 12 0 ≤ 4096) (hc : fld v 12 0 ≠ 0) :
    ∃ l, ((s.loadGo gp v).core gp).loader = some l ∧ l.bank = fld v 28 28 ∧ l.first = fld v 27 16 ∧ l.count = fld v 12 0 ∧ l.done = 0
      ∧ l.addr = s.rd64 (corePg gp + 0x210) % 2 ^ 43 ∧ (s.loadGo gp v).rf (loadStat gp) 31 31 = 1
      ∧ (s.loadGo gp v).rf (loadStat gp) (16 + fld v 28 28) (16 + fld v 28 28) = 0 := by
  have hbank : ((s.wf (loadStat gp) 30 28 0).wf (loadStat gp) 12 0 0).rf (corePg gp + 0x200) 0 0 = s.rf (corePg gp + 0x200) 0 0 := by
    rw [State.rf_wf_other _ (by unfold loadStat; omega), State.rf_wf_other _ (by unfold loadStat; omega)]
  have hlt : fld v 28 28 < 2 := fld_lt v 28 28
  have hrd : ∀ a, a ≠ loadStat gp → (s.loadStarts gp (fld v 28 28)).rd a = s.rd a := fun a ha => by
    rw [State.loadStarts, State.rd_wf_other _ _ _ _ ha, State.rd_wf_other _ _ _ _ ha, State.rd_wf_other _ _ _ _ ha, State.rd_wf_other _ _ _ _ ha]
  have hx : s.loadGo gp v = (s.loadStarts gp (fld v 28 28)).modCore gp (fun c => { c with
      loadNo := c.loadNo + 1, loader := some { addr := (s.loadStarts gp (fld v 28 28)).rd64 (corePg gp + 0x210) % 2 ^ 43,
                                               bank := fld v 28 28, first := fld v 27 16, count := fld v 12 0, no := c.loadNo + 1 } }) :=
    (if_neg fun he => h (he.trans hbank)).trans (if_neg (by omega))
  rw [hx, State.core_modCore_same]
  refine ⟨_, rfl, rfl, rfl, rfl, rfl, ?_, ?_, ?_⟩
  · exact congrArg (· % 2 ^ 43) (State.rd64_of_rd (hrd _ (by unfold loadStat; omega)) (hrd _ (by unfold loadStat; omega)))
  · rw [State.rf_modCore, State.loadStarts, State.rf_wf_same _ (by omega)]
    rfl
  · rw [State.rf_modCore, State.loadStarts, State.rf_wf_field _ (by omega) (by omega), State.rf_wf_same _ (by omega), Nat.zero_mod]

end

/-! ### Rows of the image (R98) -/

/-- One entry of an image row is written, without upsets. -/
def Core.setEntry (c : Core) (idx : Nat) (e : BitVec 128) : Core :=
  { c with pmem := Tbl.set 0 c.pmem idx e, pmemUpset := Tbl.set 0 c.pmemUpset idx 0 }

/-- Entries written in order stand in the pattern memory. -/
theorem Core.pmem_setEntries (base n : Nat) (e : Nat → BitVec 128) (c : Core) : ∀ i, i < n →
    Tbl.get 0 ((List.range n).foldl (fun (c : Core) i => c.setEntry (base + i) (e i)) c).pmem (base + i) = e i := by
  induction n with
  | zero => exact fun i h => absurd h (Nat.not_lt_zero i)
  | succ n ih =>
    intro i hi
    rw [List.range_succ, List.foldl_append, List.foldl_cons, List.foldl_nil]
    by_cases h : i = n
    · subst h
      exact Tbl.get_set_same ..
    · refine Eq.trans (Tbl.get_set_other _ _ _ _ (by omega)) (ih i (by omega))

theorem State.dramRead_clear {s : State} {region off : Nat} (h0 : Tbl.get 0 s.dramUpset ((region * 2 ^ 34 + off) / 64) = 0)
    (h1 : Tbl.get 0 s.dramUpset ((region * 2 ^ 34 + (off + 64)) / 64) = 0) (cyc : Nat) :
    s.dramRead region off cyc = (s.memRow (region * 2 ^ 34 + off), none, s) := by
  have hburst : ∀ o, Tbl.get 0 s.dramUpset ((region * 2 ^ 34 + o) / 64) = 0 → s.burst region o cyc false = (0, none, s) := by
    intro o ho
    generalize hkey : (region * 2 ^ 34 + o) / 64 = key at ho
    have hclass : dramClass (Tbl.get 0 s.dramUpset key).toNat = 0 := by
      rw [ho]
      exact (congrArg dramClass BitVec.toNat_zero).trans dramClass_zero
    unfold State.burst
    simp only [hkey, hclass]
  simp only [State.dramRead, hburst off h0, hburst (off + 64) h1]
  simp

/-- A state whose core has this load engine and these entries. -/
def State.loaded (s : State) (gp : Nat) (c : Core) (l : Loader) : State := (s.setCore gp { c with loader := some l }).wf (loadStat gp) 12 0 l.done

/-- An image row without error, of a hide that is not read whole: its entries are written in order, and the last one makes the bank ready (R98). -/
theorem State.loadRow_writes {s : State} {gp : Nat} {l : Loader} (hl : (s.core gp).loader = some l) (hnot : l.rowAddr % 2048 ≠ 1920)
    (hbank : l.bank < 2) (cyc mcAt : Nat) (row : Row) :
    let p := (l.addr + 16 * l.done) % 128 / 16
    let n := min (8 - p) (l.count - l.done)
    (s.loadRow gp cyc mcAt 0 row none).mem = s.mem
      ∧ (∀ i, i < n → Tbl.get 0 ((s.loadRow gp cyc mcAt 0 row none).core gp).pmem (l.bank * 4096 + l.first + l.done + i)
          = BitVec.ofNat 128 (row.toNat / 2 ^ (128 * (p + i))))
      ∧ (l.done + n = l.count → ((s.loadRow gp cyc mcAt 0 row none).core gp).loader = none
          ∧ (s.loadRow gp cyc mcAt 0 row none).rf (loadStat gp) (16 + l.bank) (16 + l.bank) = 1) := by
  intro p n
  let c := ((s.core gp).loadEntries l row).1
  let l' : Loader := { l with done := l.done + n, rows := if l.rowAddr % 2048 = 0 then [row] else l.rows ++ [row] }
  have hpmem : ∀ i, i < n → Tbl.get 0 c.pmem (l.bank * 4096 + l.first + l.done + i) = BitVec.ofNat 128 (row.toNat / 2 ^ (128 * (p + i))) :=
    Core.pmem_setEntries (l.bank * 4096 + l.first + l.done) n (fun i => BitVec.ofNat 128 (row.toNat / 2 ^ (128 * (p + i)))) (s.core gp)
  have hx : s.loadRow gp cyc mcAt 0 row none = if l'.done = l.count then
      (((s.loaded gp c l').modCore gp (fun c => { c with loader := none })).wf (loadStat gp) 31 31 0).wf (loadStat gp) (16 + l.bank) (16 + l.bank) 1
      else s.loaded gp c l' := by
    unfold State.loadRow
    simp only [hl, hnot, false_and, if_false]
    rw [if_neg (by simp)]
    rfl
  rw [hx]
  refine ⟨?_, fun i hi => ?_, fun hn => ?_⟩
  · split
    · rw [State.wf_mem, State.wf_mem, State.modCore_mem, State.loaded, State.wf_mem, State.setCore_mem]
    · rw [State.loaded, State.wf_mem, State.setCore_mem]
  · split
    · rw [State.core_wf, State.core_wf, State.core_modCore_same, State.loaded, State.core_wf, State.core_setCore_same]
      exact hpmem i hi
    · rw [State.loaded, State.core_wf, State.core_setCore_same]
      exact hpmem i hi
  · rw [if_pos hn]
    refine ⟨?_, ?_⟩
    · rw [State.core_wf, State.core_wf, State.core_modCore_same]
    · rw [State.rf_wf_same _ (by omega)]
      rw [show 16 + l.bank + 1 - (16 + l.bank) = 1 by omega]
      rfl

section
variable {gp : Nat} {l : Loader} {s : State} (hgp : gp < 5120) (hl : (s.core gp).loader = some l)
include hgp hl

theorem exec_patLoadRow_noSlot (cyc t0 : Nat) (h : s.loadSlot gp l = false) : exec (.patLoadRow gp cyc 0 t0) s = .next s := by
  have hwf : (Instr.patLoadRow gp cyc 0 t0).wf = true := Bool.and_eq_true_iff.mpr ⟨decide_eq_true hgp, rfl⟩
  refine (if_pos hwf).trans ?_
  simp only [hl, h, Bool.not_false, if_true]

variable {region off : Nat} (hslot : s.loadSlot gp l = true) (hhome : homeOf l.rowAddr = .dram region off) (hc : s.class2 = [])
include hslot hhome hc

theorem exec_patLoadRow_dram (cyc t0 : Nat) :
    exec (.patLoadRow gp cyc 0 t0) s = .next (s.joinTwo (mcOf region off) (tclkCycle t0) (.load gp l.no 0)) := by
  have hwf : (Instr.patLoadRow gp cyc 0 t0).wf = true := Bool.and_eq_true_iff.mpr ⟨decide_eq_true hgp, rfl⟩
  refine (if_pos hwf).trans ?_
  simp only [hl, hslot, hhome, hc, Bool.not_true, Bool.false_eq_true, if_false, List.any_nil]

variable (hb : s.mcBusy (mcOf region off) = false) (hheld : s.memHeld = false)
include hb hheld

theorem exec_patLoadRow_served (cyc t0 : Nat) : exec (.patLoadRow gp cyc 0 t0) s = .next (s.loadDram gp region off 0 (tclkCycle t0)) := by
  rw [exec_patLoadRow_dram hgp hl hslot hhome hc, State.joinTwo_alone hb hheld hc, State.serveTwo]
  simp only [hl, ne_eq, not_true, if_false, hhome]

/-- A row of a page that is not the context's stops the load (R98). -/
theorem patLoadRow_denied (cyc t0 : Nat) (hok : s.pageOk region off (s.coreCtx gp) false = false) :
    ∃ t, exec (.patLoadRow gp cyc 0 t0) s = .next t ∧ (t.core gp).loader = none ∧ t.rf (loadStat gp) 31 28 = 7
      ∧ t.rf (corePg gp + 0x700) 31 0 = min (s.rf (corePg gp + 0x700) 31 0 + 1) (2 ^ 32 - 1) := by
  refine ⟨s.loadDenied gp, ?_, s.loadDenied_stops gp⟩
  rw [exec_patLoadRow_served hgp hl hslot hhome hc hb hheld, State.loadDram, hok, if_neg Bool.false_ne_true]

/-- A row of a page of the context, without upsets, is written (R98). -/
theorem exec_patLoadRow_reads (cyc t0 : Nat) (hok : s.pageOk region off (s.coreCtx gp) false = true)
    (h0 : Tbl.get 0 s.dramUpset ((region * 2 ^ 34 + off) / 64) = 0) (h1 : Tbl.get 0 s.dramUpset ((region * 2 ^ 34 + (off + 64)) / 64) = 0) :
    exec (.patLoadRow gp cyc 0 t0) s
      = .next (s.loadRow gp (s.coreAt (s.core gp).now) (tclkCycle t0) 0 (s.memRow (region * 2 ^ 34 + off)) none) := by
  rw [exec_patLoadRow_served hgp hl hslot hhome hc hb hheld, State.loadDram, hok, if_pos rfl]
  simp only [State.dramRead_clear h0 h1, State.linkFault_zero]

end

section
variable {ag : Agent} {gl gp : Nat} {s : State} (hgl : gl < 4096) (hmay : s.mayWrite ag (logPg gl + 0x218)) (hphys : s.physOf gl = some gp)
include hgl hmay hphys

theorem exec_patLoadGo_admitted (val : Word) : exec (.patLoadGo ag gl val) s = .next (s.loadCtl gp (val ||| 0x80000000)) := by
  refine (if_pos (decide_eq_true hgl)).trans (congrArg Host.Outcome.next ?_)
  rw [State.ifAdmitted_may hmay, hphys]

theorem exec_patLoadAbort_admitted (hb : (s.core gp).loader.isSome = true) : exec (.patLoadAbort ag gl) s = .next (s.loadStop gp 6) := by
  refine (if_pos (decide_eq_true hgl)).trans (congrArg Host.Outcome.next ?_)
  rw [State.ifAdmitted_may hmay, hphys]
  exact if_pos hb

end

/-- A field below bit 31 is that of the value written with GO. -/
theorem fld_go (val : Word) {hi lo : Nat} (h : hi < 31) : fld (val ||| 0x80000000) hi lo = fld val hi lo := by
  refine Nat.eq_of_testBit_eq fun i => ?_
  rw [fld_testBit, fld_testBit, BitVec.toNat_or, Nat.testBit_or]
  by_cases hi' : i < hi + 1 - lo
  · have hbit : (0x80000000 : Word).toNat.testBit (lo + i) = false := by
      rw [show (0x80000000 : Word).toNat = 2 ^ 31 from rfl, Nat.testBit_two_pow]
      exact decide_eq_false (by omega)
    rw [hbit, Bool.or_false]
  · simp [hi']

theorem fld_go_bit (val : Word) : fld (val ||| 0x80000000) 31 31 = 1 := by
  have h : (fld (val ||| 0x80000000) 31 31).testBit 0 = true := by
    rw [fld_testBit, BitVec.toNat_or, Nat.testBit_or, show (0x80000000 : Word).toNat = 2 ^ 31 from rfl, Nat.testBit_two_pow]
    simp
  have hlt := fld_lt (val ||| 0x80000000) 31 31
  rw [Nat.testBit_zero] at h
  have := of_decide_eq_true h
  omega

/-- GO at an idle engine (R97). -/
theorem patLoadGo_rules {ag : Agent} {gl gp : Nat} {val : Word} {s : State} (hgl : gl < 4096) (hmay : s.mayWrite ag (logPg gl + 0x218))
    (hphys : s.physOf gl = some gp) (hz : (s.core gp).zeroing = false) (hl : (s.core gp).loader = none) (ha : fld val 30 30 = 0) :
    (fld val 28 28 = s.rf (corePg gp + 0x200) 0 0 → ∃ t, exec (.patLoadGo ag gl val) s = .next t ∧ t.rf (loadStat gp) 30 28 = 1
        ∧ (t.core gp).loader = none)
      ∧ (fld val 28 28 ≠ s.rf (corePg gp + 0x200) 0 0 → (4096 < fld val 27 16 + fld val 12 0 ∨ fld val 12 0 = 0) →
        ∃ t, exec (.patLoadGo ag gl val) s = .next t ∧ t.rf (loadStat gp) 30 28 = 2 ∧ (t.core gp).loader = none)
      ∧ (fld val 28 28 ≠ s.rf (corePg gp + 0x200) 0 0 → fld val 27 16 + fld val 12 0 ≤ 4096 → fld val 12 0 ≠ 0 →
        ∃ t l, exec (.patLoadGo ag gl val) s = .next t ∧ (t.core gp).loader = some l ∧ l.bank = fld val 28 28 ∧ l.first = fld val 27 16
          ∧ l.count = fld val 12 0 ∧ l.done = 0 ∧ l.addr = s.rd64 (corePg gp + 0x210) % 2 ^ 43 ∧ t.rf (loadStat gp) 31 31 = 1
          ∧ t.rf (loadStat gp) (16 + fld val 28 28) (16 + fld val 28 28) = 0) := by
  have hgo := exec_patLoadGo_admitted hgl hmay hphys val
  rw [State.loadCtl_eq] at hgo
  generalize (s.rd (corePg gp + 0x218) &&& ~~~(0x1FFF1FFF : Word)) ||| ((val ||| 0x80000000) &&& 0x1FFF1FFF) = w at hgo
  have hrd : ∀ a, a ≠ corePg gp + 0x218 → (s.wr (corePg gp + 0x218) w).rd a = s.rd a := fun a h => State.rd_wr_other _ _ h
  have hbank : (s.wr (corePg gp + 0x218) w).rf (corePg gp + 0x200) 0 0 = s.rf (corePg gp + 0x200) 0 0 := State.rf_of_rd (hrd _ (by omega)) 0 0
  have haddr : (s.wr (corePg gp + 0x218) w).rd64 (corePg gp + 0x210) = s.rd64 (corePg gp + 0x210) :=
    State.rd64_of_rd (hrd _ (by omega)) (hrd _ (by omega))
  rw [State.loadAsk_go (by rw [State.core_wr, hz]) (by rw [State.core_wr, hl]) ((fld_go val (by decide)).trans ha) (fld_go_bit val)] at hgo
  obtain ⟨href, hfit⟩ := State.loadGo_refused (v := val ||| 0x80000000) (s := s.wr (corePg gp + 0x218) w) (gp := gp) (by rw [State.core_wr, hl])
  have hgo2 := State.loadGo_starts (v := val ||| 0x80000000) (s := s.wr (corePg gp + 0x218) w) (gp := gp)
  simp only [hbank, haddr, fld_go val (show 28 < 31 by decide), fld_go val (show 27 < 31 by decide), fld_go val (show 12 < 31 by decide)]
    at href hfit hgo2
  refine ⟨fun h => ⟨_, hgo, href h⟩, fun h hf => ⟨_, hgo, hfit h hf⟩, fun h hf hc => ?_⟩
  obtain ⟨l, hload⟩ := hgo2 h hf hc
  exact ⟨_, l, hgo, hload⟩

/-- Settles O48: the commands of the engine, then its rows as their page and channel allow. -/
theorem patternLoadRules : Obligations.PatternLoadRules := by
  refine ⟨fun ag gl gp val s hgl hmay hphys hz hl ha => patLoadGo_rules hgl hmay hphys hz hl ha, fun ag gl gp s hgl hmay hphys hb => ?_,
      fun gp cyc t0 region off l s hgp hl => ?_⟩
  · exact ⟨_, exec_patLoadAbort_admitted hgl hmay hphys hb, s.loadStop_stops gp (by decide)⟩
  · refine ⟨exec_patLoadRow_noSlot hgp hl cyc t0, fun hslot hhome hc => ⟨fun hb => ?_, fun hb hheld => ⟨?_, fun hok h0 h1 hnot hbank => ?_⟩⟩⟩
    · refine ⟨_, exec_patLoadRow_dram hgp hl hslot hhome hc cyc t0, ?_⟩
      rw [State.joinTwo_busy hb, hc]
      exact ⟨rfl, rfl, rfl⟩
    · exact patLoadRow_denied hgp hl hslot hhome hc hb hheld cyc t0
    · exact ⟨_, exec_patLoadRow_reads hgp hl hslot hhome hc hb hheld cyc t0 hok h0 h1, State.loadRow_writes hl hnot hbank _ _ _⟩

end Sys2Proof.Machine

/-! Assay (R305 to R315). -/

namespace Sys2Proof.Machine

section
variable (s : State) (gp : Nat)

@[simp] theorem State.asyCore_setAsy_same (x : AsyCore) : (s.setAsy gp x).asyCore gp = x := Tbl.get_set_same ..

theorem State.asyCore_modAsy_same (f : AsyCore → AsyCore) : (s.modAsy gp f).asyCore gp = f (s.asyCore gp) := Tbl.get_set_same ..

theorem State.setAsy_heals (x : AsyCore) : (s.setAsy gp x).heals = s.heals := rfl
theorem State.rf_modAsy (f : AsyCore → AsyCore) (a hi lo : Nat) : (s.modAsy gp f).rf a hi lo = s.rf a hi lo := rfl

theorem State.coreChip_rest (sev cls t : Nat) (synd : BitVec 64) : (s.coreChip gp sev cls t synd).rest = s.rest := by
  unfold State.coreChip
  split
  · rfl
  · rw [State.emit_rest]

theorem State.rd_coreChip (sev cls t : Nat) (synd : BitVec 64) (a : Nat) : (s.coreChip gp sev cls t synd).rd a = s.rd a := by
  unfold State.coreChip
  split
  · rfl
  · exact State.rd_emit_eq ..

theorem State.asyCore_of_rest {s t : State} (h : t.rest = s.rest) (gp : Nat) : t.asyCore gp = s.asyCore gp := by
  change t.rest.asyCore gp = s.rest.asyCore gp
  rw [h]

theorem State.heals_of_rest {s t : State} (h : t.rest = s.rest) : t.heals = s.heals := by
  change t.rest.heals = s.rest.heals
  rw [h]

theorem State.asyTgt_of_rest {s t : State} (h : t.rest = s.rest) : t.asyTgt = s.asyTgt := by
  change t.rest.asyTgt = s.rest.asyTgt
  rw [h]

theorem State.overdueReg_rest : s.overdueReg.rest = s.rest := State.wr_rest ..

theorem State.setTurn_asyTgt (r : Nat) (o : Option Nat) : (s.setTurn r o).asyTgt = s.asyTgt := rfl
theorem State.rf_setTurn (r : Nat) (o : Option Nat) (a hi lo : Nat) : (s.setTurn r o).rf a hi lo = s.rf a hi lo := rfl

theorem State.turn_setTurn_same (r : Nat) (o : Option Nat) : (s.setTurn r o).turn r = o := Tbl.get_set_same ..

/-- A core that a confirmed failure names waits for its heal (R316). -/
theorem State.confirm_heals (cause area : Nat) (h : s.physState gp ≠ 2) :
    (∃ c k, (gp, c, k) ∈ (s.confirm gp cause area).heals) ∧ (s.confirm gp cause area).asy = s.asy
      ∧ (s.confirm gp cause area).asyTgt = s.asyTgt ∧ (s.confirm gp cause area).regs = s.regs := by
  rw [State.confirm]
  split
  next hc =>
    refine ⟨?_, rfl, rfl, rfl⟩
    obtain ⟨⟨g, c, k⟩, hm, hg⟩ := List.any_eq_true.1 (hc.resolve_right h)
    exact ⟨c, k, of_decide_eq_true hg ▸ hm⟩
  next =>
    refine ⟨⟨cause, decide (area = 1), List.mem_append_right _ List.mem_cons_self⟩, ?_⟩
    cases decide (area = 1) <;> exact ⟨rfl, rfl, rfl⟩

end

/-! ### A segment starts (R308 to R311) -/

/-- A tile's data that is not stated any more leaves the stores of its core, and all else (log entry 4). -/
theorem State.freeTile_keeps (s : State) (gp t : Nat) : (s.freeTile gp t).regs = s.regs ∧ (∀ g, g ≠ gp → (s.freeTile gp t).core g = s.core g)
    ∧ ((s.freeTile gp t).core gp).store = (s.core gp).store ∧ (s.freeTile gp t).mem = s.mem := by
  refine ⟨rfl, fun g hg => State.core_modCore_other _ _ hg, ?_, rfl⟩
  have h : ((s.freeTile gp t).core gp) = (s.core gp).setTile t { ((s.core gp).tile t) with
      elems := (List.range 256).foldl (fun (m : Tbl (BitVec 46)) e => Tbl.set 0 m e (Config.freeAx s.freeCtr e)) [] } := State.core_modCore_same ..
  rw [h, Core.setTile]
  split <;> rfl

/-- The state in which the rows of a segment are asked for and its tile is moved (R311). -/
def State.asyMoved (s : State) (gp cyc : Nat) (rows : List Nat) (tile : Option Nat) : State :=
  let accs : List Access := (withIndex 0 (rows.dedup)).map (fun p =>
    { cyc := cyc + p.2, fl := (s.core gp).nextId, rank := 6, code := 8, field := 0, op := .rd 0 0 (.asy p.1) })
  let s := s.modCore gp (fun c => { c with nextId := c.nextId + 1, acc := c.acc ++ accs })
  match tile with
  | some t => s.freeTile gp t
  | none => s

theorem State.asyMoved_keeps (s : State) (gp cyc : Nat) (rows : List Nat) (tile : Option Nat) : (s.asyMoved gp cyc rows tile).regs = s.regs
    ∧ (∀ g, g ≠ gp → (s.asyMoved gp cyc rows tile).core g = s.core g) ∧ ((s.asyMoved gp cyc rows tile).core gp).store = (s.core gp).store
    ∧ (s.asyMoved gp cyc rows tile).mem = s.mem := by
  simp only [State.asyMoved]
  cases tile with
  | none =>
    refine ⟨rfl, fun g hg => State.core_modCore_other _ _ hg, ?_, rfl⟩
    simp only [State.core_modCore_same]
  | some t =>
    obtain ⟨hr, ho, hs, hm⟩ := State.freeTile_keeps (s.modCore gp (fun c => { c with
      nextId := c.nextId + 1, acc := c.acc ++ (withIndex 0 (rows.dedup)).map (fun p =>
        ({ cyc := cyc + p.2, fl := (s.core gp).nextId, rank := 6, code := 8, field := 0, op := .rd 0 0 (.asy p.1) } : Access)) })) gp t
    refine ⟨hr, fun g hg => (ho g hg).trans (State.core_modCore_other _ _ hg), hs.trans ?_, hm⟩
    rw [State.core_modCore_same]

theorem State.asyBegin_eq (s : State) (gp cyc : Nat) (rows : List Nat) (tile : Option Nat) (tgt : Bool) :
    ∃ slot, s.asyBegin gp cyc rows tile tgt = (s.asyMoved gp cyc rows tile).modAsy gp (fun x =>
      { x with running := some cyc, tgt := tgt, fl := (s.core gp).nextId, saved := [], slot := slot, gained := true }) := by
  cases tile with
  | none => exact ⟨_, rfl⟩
  | some t => exact ⟨_, rfl⟩

/-- A segment begins: it runs, and the registers, the stores and the other cores stay (R311). -/
theorem State.asyBegin_runs (s : State) (gp cyc : Nat) (rows : List Nat) (tile : Option Nat) (tgt : Bool) :
    ((s.asyBegin gp cyc rows tile tgt).asyCore gp).running = some cyc ∧ ((s.asyBegin gp cyc rows tile tgt).asyCore gp).gained = true
      ∧ (s.asyBegin gp cyc rows tile tgt).regs = s.regs ∧ (∀ g, g ≠ gp → (s.asyBegin gp cyc rows tile tgt).core g = s.core g)
      ∧ ((s.asyBegin gp cyc rows tile tgt).core gp).store = (s.core gp).store ∧ (s.asyBegin gp cyc rows tile tgt).mem = s.mem := by
  obtain ⟨slot, hx⟩ := s.asyBegin_eq gp cyc rows tile tgt
  obtain ⟨hr, ho, hs, hm⟩ := s.asyMoved_keeps gp cyc rows tile
  rw [hx, State.asyCore_modAsy_same]
  exact ⟨rfl, rfl, hr, ho, hs, hm⟩

/-- A core that begins its pass adopts the set in use (R306). -/
def State.adoptSet (s : State) (gp : Nat) : State :=
  s.modAsy gp (fun x => if x.seg = 0 ∧ !x.rerun then { x with set_ := s.setVersion, failed := false } else x)

/-- A segment starts for the core that has its region's turn, in slack that holds it (R308, R309). -/
theorem segment_starts {gp cyc : Nat} {rows : List Nat} {tile : Option Nat} {s s0 : State} (hgp : gp < 5120) (hrows : rows.length ≤ 32)
    (hreal : ∀ la ∈ rows, laReal la = true) (htile : ∀ k, tile = some k → k < 2) (hs0 : (s.reach gp cyc).choose (gp / 80) = s0)
    (htgt : s0.tgtOf (gp / 80) = none) (hon : s0.asyOn = true) (hturn : s0.turn (gp / 80) = some gp) (hel : s0.eligible gp = true)
    (hruns : s0.segRuns (gp / 80) = false) (hgate : (s0.core gp).gated = false) (hseam : s0.gen.seamDone = false) (hslack : s0.inSlack gp = true)
    (hfit : cyc + cutLen s0.cut ≤ s0.bodyNow) :
    exec (.assaySegmentStart gp cyc rows tile) s = .next ((s0.adoptSet gp).asyBegin gp cyc rows tile false) := by
  have htile' : tile.all (fun k => decide (k < 2)) = true := by
    cases tile with
    | none => rfl
    | some k => exact decide_eq_true (htile k rfl)
  have hwf : (Instr.assaySegmentStart gp cyc rows tile).wf = true := by
    exact Bool.and_eq_true_iff.mpr ⟨Bool.and_eq_true_iff.mpr ⟨Bool.and_eq_true_iff.mpr ⟨decide_eq_true hgp, decide_eq_true hrows⟩,
      List.all_eq_true.2 hreal⟩, htile'⟩
  refine (if_pos hwf).trans ?_
  simp only [hs0, htgt]
  rw [if_neg (by simp [hon, hturn, hel, hruns, hgate, hseam, hslack]; omega)]
  rfl

/-! ### A segment ends (R306, R313, R314) -/

/-- A region's next core takes the turn, or none does: what the core of the region has run stays, but for those it waits for (R308). -/
theorem State.choose_keeps (s : State) (r gp : Nat) : (s.choose r).heals = s.heals
    ∧ ∃ w, (s.choose r).asyCore gp = { s.asyCore gp with waits := w } := by
  have hmap : ∀ (q : Nat) (m : Tbl AsyCore), ∃ w, (Tbl.get {} (m.map (fun p => if p.1 / 80 = q / 80 then
      (p.1, { p.2 with waits := p.2.waits.filter (· ≠ q) }) else p)) gp : AsyCore) = { (Tbl.get {} m gp : AsyCore) with waits := w } := by
    intro q m
    induction m with
    | nil => exact ⟨[], rfl⟩
    | cons p m ih =>
      obtain ⟨j, x⟩ := p
      by_cases hj : j = gp
      · subst hj
        by_cases hq : j / 80 = q / 80
        · exact ⟨x.waits.filter (· ≠ q), by simp [hq, Tbl.get, Tbl.find?]⟩
        · exact ⟨x.waits, by simp [hq, Tbl.get, Tbl.find?]⟩
      · obtain ⟨w, hw⟩ := ih
        refine ⟨w, ?_⟩
        by_cases hq : j / 80 = q / 80
        · simpa [hq, Tbl.get, Tbl.find?, hj] using hw
        · simpa [hq, Tbl.get, Tbl.find?, hj] using hw
  rw [State.choose]
  split
  · split
    next q _ =>
      refine ⟨rfl, ?_⟩
      exact hmap q s.asy
    next => exact ⟨rfl, (s.asyCore gp).waits, rfl⟩
  · exact ⟨rfl, (s.asyCore gp).waits, rfl⟩

section
variable {s : State} {gp : Nat} {misr : BitVec 64} (n : Nat)

/-- A core that restores its rows runs no segment any more, and its history is as it was (R311). -/
theorem State.asyRestore_idle (s : State) (gp : Nat) : ((s.asyRestore gp).asyCore gp).running = none := by
  rw [State.asyRestore, State.asyCore_setAsy_same]

/-- The golden value of the segment a core runs (R306). -/
def State.goldenNow (s : State) (gp : Nat) : BitVec 64 := (s.goldenOf (s.asyCore gp).set_ s.cut (s.asyCore gp).seg).1

/-- A core gives up its turn. -/
def State.dropTurn (s : State) (gp : Nat) : State := if s.turn (gp / 80) = some gp then s.setTurn (gp / 80) none else s

theorem State.dropTurn_keeps (s : State) (gp : Nat) : (s.dropTurn gp).asyCore gp = s.asyCore gp ∧ (s.dropTurn gp).regs = s.regs := by
  rw [State.dropTurn]
  split <;> exact ⟨rfl, rfl⟩

/-- A rerun that matches counts as transient (R314). -/
def State.transient (s : State) (gp : Nat) : State := if (s.asyCore gp).rerun then s.bump (asyPg + 0x114) 15 0 1 else s

theorem State.transient_keeps (s : State) (gp : Nat) : (s.transient gp).asyCore gp = s.asyCore gp ∧ (s.transient gp).heals = s.heals
    ∧ (s.transient gp).cut = s.cut := by
  rw [State.transient]
  split
  · exact ⟨State.asyCore_of_rest (State.bump_rest ..) gp, State.heals_of_rest (State.bump_rest ..),
      State.rf_of_rd (State.rd_bump_other _ (by decide)) 1 0⟩
  · exact ⟨rfl, rfl, rfl⟩

theorem State.passEnd_match (h : misr = s.goldenNow gp) : s.passEnd gp misr n = (s.transient gp).segmentPassed gp n := if_pos h

/-- A segment that matches, not the last of its pass (R306). -/
theorem State.passEnd_advances (h : misr = s.goldenNow gp) (hseg : (s.asyCore gp).seg + 1 < cutSegs s.cut) :
    ((s.passEnd gp misr n).asyCore gp).seg = (s.asyCore gp).seg + 1 ∧ ((s.passEnd gp misr n).asyCore gp).running = (s.asyCore gp).running
      ∧ ((s.passEnd gp misr n).asyCore gp).rerun = false ∧ (s.passEnd gp misr n).heals = s.heals := by
  obtain ⟨hx, hh, hc⟩ := s.transient_keeps gp
  have hp : (s.transient gp).segmentPassed gp n
      = (s.transient gp).setAsy gp { (s.transient gp).asyCore gp with seg := ((s.transient gp).asyCore gp).seg + 1, rerun := false } :=
    if_pos (by rw [hx, hc]; exact hseg)
  rw [State.passEnd_match n h, hp, State.asyCore_setAsy_same, State.setAsy_heals, hx]
  exact ⟨rfl, rfl, rfl, hh⟩

/-- The last segment of a pass that matches completes it (R306, R313). -/
theorem State.passEnd_completes (h : misr = s.goldenNow gp) (hseg : cutSegs s.cut ≤ (s.asyCore gp).seg + 1) :
    ((s.passEnd gp misr n).asyCore gp).seg = 0 ∧ ((s.passEnd gp misr n).asyCore gp).passes = (s.asyCore gp).passes + 1
      ∧ ((s.passEnd gp misr n).asyCore gp).overdue = false := by
  obtain ⟨hx, -, hc⟩ := s.transient_keeps gp
  rw [State.passEnd_match n h, State.segmentPassed]
  simp only [hx, hc]
  rw [if_neg (by omega)]
  generalize hu : ((s.transient gp).setAsy gp _).overdueReg = u
  have hasy : ∃ since,
      u.asyCore gp = { s.asyCore gp with seg := 0, rerun := false, passes := (s.asyCore gp).passes + 1, overdue := false, since := since } := by
    refine ⟨if (s.asyCore gp).failed then (s.asyCore gp).since else (s.transient gp).aon.time + 16 * n, ?_⟩
    rw [← hu, State.asyCore_of_rest (State.overdueReg_rest _), State.asyCore_setAsy_same]
  obtain ⟨since, hasy⟩ := hasy
  split
  · obtain ⟨-, w, hw⟩ := (u.setTurn (gp / 80) none).choose_keeps (gp / 80) gp
    have hturn : (u.setTurn (gp / 80) none).asyCore gp = u.asyCore gp := rfl
    rw [hw, hturn, hasy]
    exact ⟨rfl, rfl, rfl⟩
  · rw [hasy]
    exact ⟨rfl, rfl, rfl⟩

/-- The first mismatch reruns the segment (R314). -/
theorem State.passEnd_reruns (h : misr ≠ s.goldenNow gp) (hr : (s.asyCore gp).rerun = false) :
    ((s.passEnd gp misr n).asyCore gp).seg = (s.asyCore gp).seg ∧ ((s.passEnd gp misr n).asyCore gp).rerun = true
      ∧ ((s.passEnd gp misr n).asyCore gp).fails = min ((s.asyCore gp).fails + 1) 0xFFFF ∧ (s.passEnd gp misr n).heals = s.heals := by
  have hx : ∃ synd, s.passEnd gp misr n = ((s.modAsy gp (fun x => { x with fails := min (x.fails + 1) 0xFFFF })).modAsy gp
      (fun x => { x with rerun := true })).coreChip gp 0 0x30 n synd := by
    refine ⟨_, (if_neg h).trans (if_pos ?_)⟩
    rw [hr]
    rfl
  obtain ⟨synd, hx⟩ := hx
  rw [hx, State.asyCore_of_rest (State.coreChip_rest ..), State.heals_of_rest (State.coreChip_rest ..), State.asyCore_modAsy_same,
    State.asyCore_modAsy_same]
  exact ⟨rfl, rfl, rfl, rfl⟩

/-- The second mismatch in a row confirms a failure (R314, R316). -/
theorem State.passEnd_confirms (h : misr ≠ s.goldenNow gp) (hr : (s.asyCore gp).rerun = true) (hp : s.physState gp ≠ 2) :
    (∃ c k, (gp, c, k) ∈ (s.passEnd gp misr n).heals) ∧ ((s.passEnd gp misr n).asyCore gp).failed = true := by
  have hx : ∃ synd area,
      s.passEnd gp misr n = State.confirm (State.dropTurn (((s.modAsy gp (fun x => { x with fails := min (x.fails + 1) 0xFFFF })).modAsy gp
      (fun x => { x with rerun := false, failed := true })).coreChip gp 2 0x30 n synd) gp) gp 0 area := by
    refine ⟨_, _, (if_neg h).trans (if_neg ?_)⟩
    rw [hr]
    decide
  obtain ⟨synd, area, hx⟩ := hx
  obtain ⟨u, hu⟩ : ∃ u, u = ((s.modAsy gp (fun x => { x with fails := min (x.fails + 1) 0xFFFF })).modAsy gp
    (fun x => { x with rerun := false, failed := true })).coreChip gp 2 0x30 n synd := ⟨_, rfl⟩
  rw [← hu] at hx
  have hphys : (u.dropTurn gp).physState gp ≠ 2 := by
    rw [State.physState, State.rf_congr (u.dropTurn_keeps gp).2, hu, State.rf_of_rd (State.rd_coreChip ..), State.rf_modAsy, State.rf_modAsy]
    exact hp
  obtain ⟨hheal, hasy, -⟩ := (u.dropTurn gp).confirm_heals gp 0 area hphys
  rw [hx]
  refine ⟨hheal, ?_⟩
  rw [State.asyCore, hasy]
  change ((u.dropTurn gp).asyCore gp).failed = true
  rw [(u.dropTurn_keeps gp).1, hu, State.asyCore_of_rest (State.coreChip_rest ..), State.asyCore_modAsy_same]

end

/-- The state in which the segment running on a core has ended and its rows and tile are restored (R311). -/
def State.segEnded (s : State) (gp n : Nat) : State := (s.reach gp (n * s.aclk / 1000)).asyRestore gp

section
variable {s : State} {gp n : Nat} {misr : BitVec 64} (hgp : gp < 5120) (hrun : (s.asyCore gp).running.isSome = true)
include hgp hrun

theorem exec_assaySegmentEnd_own (ht : ((s.segEnded gp n).asyCore gp).tgt = false) :
    exec (.assaySegmentEnd gp misr n) s = .next ((s.segEnded gp n).passEnd gp misr n) := by
  refine (if_pos (decide_eq_true hgp)).trans ((if_neg ?_).trans ?_)
  · rw [← Option.not_isSome, hrun]
    decide
  · change (match ((s.segEnded gp n).asyCore gp).tgt, (s.segEnded gp n).asyTgt with
      | true, some x => Host.Outcome.next (if x.gp = gp then (s.segEnded gp n).tgtEnd x misr else s.segEnded gp n)
      | true, none => .next (s.segEnded gp n)
      | false, _ => .next ((s.segEnded gp n).passEnd gp misr n)) = _
    rw [ht]

theorem exec_assaySegmentEnd_tgt {y : AsyTgt} (ht : ((s.segEnded gp n).asyCore gp).tgt = true) (hy : (s.segEnded gp n).asyTgt = some y)
    (hyg : y.gp = gp) : exec (.assaySegmentEnd gp misr n) s = .next ((s.segEnded gp n).tgtEnd y misr) := by
  refine (if_pos (decide_eq_true hgp)).trans ((if_neg ?_).trans ?_)
  · rw [← Option.not_isSome, hrun]
    decide
  · change (match ((s.segEnded gp n).asyCore gp).tgt, (s.segEnded gp n).asyTgt with
      | true, some x => Host.Outcome.next (if x.gp = gp then (s.segEnded gp n).tgtEnd x misr else s.segEnded gp n)
      | true, none => .next (s.segEnded gp n)
      | false, _ => .next ((s.segEnded gp n).passEnd gp misr n)) = _
    rw [ht, hy]
    simp only [if_pos hyg]

end

/-- A state with this targeted assay. -/
def State.withTgt (s : State) (x : Option AsyTgt) : State := { s with asyTgt := x }

theorem State.withTgt_asyTgt (s : State) (x : Option AsyTgt) : (s.withTgt x).asyTgt = x := rfl
theorem State.withTgt_heals (s : State) (x : Option AsyTgt) : (s.withTgt x).heals = s.heals := rfl
theorem State.rf_withTgt (s : State) (x : Option AsyTgt) (a hi lo : Nat) : (s.withTgt x).rf a hi lo = s.rf a hi lo := rfl

theorem State.tgtEnd_eq {s : State} {y : AsyTgt} {seg : Nat} {rest : List Nat} (hl : y.left = seg :: rest) (misr : BitVec 64) : s.tgtEnd y misr
    = if misr = (s.goldenOf s.setVersion s.cut seg).1 then s.withTgt (some { y with left := rest })
      else (s.withTgt (some { y with
        left := rest, miss := some (y.miss.getD
          (seg, misr ^^^ (s.goldenOf s.setVersion s.cut seg).1, (s.goldenOf s.setVersion s.cut seg).2)) })).modAsy y.gp
        (fun y => { y with fails := min (y.fails + 1) 0xFFFF }) := by
  rw [State.tgtEnd, hl]
  by_cases h : misr = (s.goldenOf s.setVersion s.cut seg).1
  · simp only [if_pos h]
    rfl
  · simp only [if_neg h]
    rfl

/-- A segment of a targeted assay is compared with its golden value, and the first mismatch is kept (R315). -/
theorem State.tgtEnd_keeps {s : State} {y : AsyTgt} {seg : Nat} {rest : List Nat} (hl : y.left = seg :: rest) (misr : BitVec 64) :
    ∃ y', (s.tgtEnd y misr).asyTgt = some y' ∧ y'.gp = y.gp ∧ y'.left = rest ∧ (s.tgtEnd y misr).heals = s.heals
      ∧ (misr = (s.goldenOf s.setVersion s.cut seg).1 → y'.miss = y.miss)
      ∧ (misr ≠ (s.goldenOf s.setVersion s.cut seg).1 → y.miss = none →
        y'.miss = some (seg, misr ^^^ (s.goldenOf s.setVersion s.cut seg).1, (s.goldenOf s.setVersion s.cut seg).2)) := by
  rw [State.tgtEnd_eq hl]
  split
  next h => exact ⟨_, State.withTgt_asyTgt .., rfl, rfl, State.withTgt_heals .., fun _ => rfl, fun hn => absurd h hn⟩
  next h =>
    refine ⟨_, rfl, rfl, rfl, rfl, fun he => absurd he h, fun _ hm => ?_⟩
    rw [hm, Option.getD_none]

/-! ### The targeted assay (R315) -/

/-- ASY_TGT and ASY_TGT_STAT of a request that names a logical core. -/
def State.tgtAsked (s : State) (w : Word) (gl : Nat) : State := (s.wr (asyPg + 0x108) w).wf (asyPg + 0x10C) 11 0 gl

theorem State.rd_tgtAsked_other (s : State) (w : Word) (gl : Nat) {a : Nat} (h1 : a ≠ asyPg + 0x108) (h2 : a ≠ asyPg + 0x10C) :
    (s.tgtAsked w gl).rd a = s.rd a := by
  rw [State.tgtAsked, State.rd_wf_other _ _ _ _ h2, State.rd_wr_other _ _ h1]

theorem xbarPg_ne_asyPg {b o k : Nat} (ho : o < 4096) (hk : k < 4096) : xbarPg b + o ≠ asyPg + k := by
  unfold xbarPg asyPg modPg modAddr regionAddr
  omega

theorem State.physOf_tgtAsked (s : State) (w : Word) (g : Nat) (gl : Nat) : (s.tgtAsked w g).physOf gl = s.physOf gl := by
  rw [State.physOf, State.physOf, State.rf_of_rd (State.rd_tgtAsked_other _ _ _ (xbarPg_ne_asyPg (by decide) (by decide))
    (xbarPg_ne_asyPg (by decide) (by decide)))]

/-- A targeted assay that is refused (R315). -/
def State.tgtRefused (s : State) : State := s.wf (asyPg + 0x10C) 30 28 3

/-- A targeted assay that begins: the core's region has no turn, and every segment of the class is to run twice (R315). -/
def State.tgtBegun (s : State) (gp cls gl : Nat) : State :=
  let s := (s.wf (asyPg + 0x10C) 31 31 1).wf (asyPg + 0x10C) 30 28 0
  (s.withTgt (some { gp := gp, cls := cls, lcore := gl, left := s.classSegs cls ++ s.classSegs cls })).setTurn (gp / 80) none

/-- What a targeted assay that is asked for does (R315). -/
def State.tgtAsk (s : State) (v : Word) : State :=
  match s.physOf (fld v 11 0) with
  | none => s.tgtRefused
  | some gp => if s.heals.any (fun h => decide (h.1 = gp)) ∨ s.reserve.isEmpty ∨ s.asyTgt.isSome ∨ 2 < fld v 30 28 then s.tgtRefused
    else s.tgtBegun gp (fld v 30 28) (fld v 11 0)

theorem State.asyTgtWrite_go (s : State) {v : Word} (h : fld v 31 31 ≠ 0) : s.asyTgtWrite v
    = State.tgtAsk ((s.wr (asyPg + 0x108) ((s.rd (asyPg + 0x108) &&& ~~~(0x70000FFF : Word)) ||| (v &&& 0x70000FFF))).wf
        (asyPg + 0x10C) 11 0 (fld v 11 0)) v := by
  refine (if_neg h).trans ?_
  simp only [State.tgtAsk]
  cases State.physOf _ (fld v 11 0)
  · rfl
  · rfl

theorem exec_asyTgtGo_admitted {ag : Agent} {s : State} (hmay : s.mayWrite ag (asyPg + 0x108)) (val : Word) :
    exec (.asyTgtGo ag val) s = .next (s.asyTgtWrite (val ||| 0x80000000)) := by
  change Host.Outcome.next (s.ifAdmitted ag (asyPg + 0x108) (fun s => s.asyTgtWrite (val ||| 0x80000000))) = _
  rw [State.ifAdmitted_may hmay]

theorem State.classSegs_congr {s t : State} (hr : t.reserve = s.reserve) (hc : t.cut = s.cut) (cls : Nat) : t.classSegs cls = s.classSegs cls := by
  rw [State.classSegs, State.classSegs, hr, hc]

/-- A targeted assay that begins shows BUSY, and its core's region has no turn (R315). -/
theorem State.tgtBegun_shows (s : State) (gp cls gl : Nat) : (s.tgtBegun gp cls gl).rf (asyPg + 0x10C) 31 31 = 1
    ∧ (s.tgtBegun gp cls gl).rf (asyPg + 0x10C) 30 28 = 0 ∧ (s.tgtBegun gp cls gl).turn (gp / 80) = none
    ∧ (s.tgtBegun gp cls gl).asyTgt = some { gp := gp, cls := cls, lcore := gl, left := s.classSegs cls ++ s.classSegs cls } := by
  have hsegs : ((s.wf (asyPg + 0x10C) 31 31 1).wf (asyPg + 0x10C) 30 28 0).classSegs cls = s.classSegs cls := by
    refine State.classSegs_congr ?_ ?_ cls
    · rw [State.wf_reserve, State.wf_reserve]
    · rw [State.cut, State.rf_wf_other _ (by decide), State.rf_wf_other _ (by decide), State.cut]
  have hbusy : ((s.wf (asyPg + 0x10C) 31 31 1).wf (asyPg + 0x10C) 30 28 0).rf (asyPg + 0x10C) 31 31 = 1 := by
    rw [State.rf_wf_field _ (by omega) (by omega), State.rf_wf_same _ (by omega)]
    rfl
  have hres : ((s.wf (asyPg + 0x10C) 31 31 1).wf (asyPg + 0x10C) 30 28 0).rf (asyPg + 0x10C) 30 28 = 0 := by
    rw [State.rf_wf_same _ (by omega), Nat.zero_mod]
  rw [State.tgtBegun]
  generalize (s.wf (asyPg + 0x10C) 31 31 1).wf (asyPg + 0x10C) 30 28 0 = u at hsegs hbusy hres ⊢
  refine ⟨?_, ?_, State.turn_setTurn_same .., ?_⟩
  · rw [State.rf_setTurn, State.rf_withTgt, hbusy]
  · rw [State.rf_setTurn, State.rf_withTgt, hres]
  · rw [State.setTurn_asyTgt, State.withTgt_asyTgt, hsegs]

/-- A targeted assay that is asked for (R315). -/
theorem asyTgtGo_rules {ag : Agent} {val : Word} {s : State} (hmay : s.mayWrite ag (asyPg + 0x108)) :
    (s.physOf (fld val 11 0) = none → ∃ t, exec (.asyTgtGo ag val) s = .next t ∧ t.rf (asyPg + 0x10C) 30 28 = 3 ∧ t.asyTgt = s.asyTgt)
      ∧ (∀ gp, s.physOf (fld val 11 0) = some gp → (∀ h ∈ s.heals, h.1 ≠ gp) → s.reserve ≠ [] → s.asyTgt = none →
        fld val 30 28 ≤ 2 → ∃ t, exec (.asyTgtGo ag val) s = .next t ∧ t.rf (asyPg + 0x10C) 31 31 = 1 ∧ t.rf (asyPg + 0x10C) 30 28 = 0
          ∧ t.asyTgt = some { gp := gp, cls := fld val 30 28, lcore := fld val 11 0,
                              left := s.classSegs (fld val 30 28) ++ s.classSegs (fld val 30 28) } ∧ t.turn (gp / 80) = none) := by
  have hx := exec_asyTgtGo_admitted hmay val
  rw [s.asyTgtWrite_go (by rw [fld_go_bit]; decide), ← State.tgtAsked] at hx
  generalize (s.rd (asyPg + 0x108) &&& ~~~(0x70000FFF : Word)) ||| ((val ||| 0x80000000) &&& 0x70000FFF) = w at hx
  have h11 : fld (val ||| 0x80000000) 11 0 = fld val 11 0 := fld_go val (by decide)
  have h30 : fld (val ||| 0x80000000) 30 28 = fld val 30 28 := fld_go val (by decide)
  have hphys := s.physOf_tgtAsked w (fld val 11 0) (fld val 11 0)
  rw [h11] at hx
  generalize hu : s.tgtAsked w (fld val 11 0) = u at hx hphys
  have htgt : u.asyTgt = s.asyTgt := by rw [← hu, State.tgtAsked, State.wf_asyTgt, State.wr_asyTgt]
  have hheals : u.heals = s.heals := by rw [← hu, State.tgtAsked, State.wf_heals, State.wr_heals]
  have hres : u.reserve = s.reserve := by rw [← hu, State.tgtAsked, State.wf_reserve, State.wr_reserve]
  have hsegs : ∀ c, u.classSegs c = s.classSegs c :=
    State.classSegs_congr hres (State.rf_of_rd (by rw [← hu]; exact State.rd_tgtAsked_other _ _ _ (by decide) (by decide)) 1 0)
  rw [State.tgtAsk, h11, hphys, h30] at hx
  refine ⟨fun hnone => ?_, fun gp hsome hheal hset hno hcls => ?_⟩
  · rw [hnone] at hx
    refine ⟨_, hx, ?_, ?_⟩
    · rw [State.tgtRefused, State.rf_wf_same _ (by omega)]
      rfl
    · rw [State.tgtRefused, State.wf_asyTgt, htgt]
  · rw [hsome] at hx
    have hgo : ¬ (u.heals.any (fun h => decide (h.1 = gp)) = true ∨ u.reserve.isEmpty = true ∨ u.asyTgt.isSome = true ∨ 2 < fld val 30 28) := by
      rw [hheals, hres, htgt, hno, List.isEmpty_iff]
      rintro (hh | hh | hh | hh)
      · obtain ⟨x, hx, hg⟩ := List.any_eq_true.1 hh
        exact hheal x hx (of_decide_eq_true hg)
      · exact hset hh
      · exact absurd hh (by decide)
      · omega
    simp only [if_neg hgo] at hx
    obtain ⟨hbusy, hres0, hturn, hbegun⟩ := u.tgtBegun_shows gp (fld val 30 28) (fld val 11 0)
    rw [hsegs] at hbegun
    exact ⟨_, hx, hbusy, hres0, hbegun, hturn⟩

/-- The result of a targeted assay, shown in ASY_TGT_STAT. -/
def State.tgtResult (s : State) (r : Nat) : State := ((s.withTgt none).wf (asyPg + 0x10C) 31 31 0).wf (asyPg + 0x10C) 30 28 r

theorem State.tgtResult_shows (s : State) {r : Nat} (hr : r < 8) : (s.tgtResult r).rf (asyPg + 0x10C) 31 28 = r := by
  rw [State.rf, fld_status]
  change (s.tgtResult r).rf (asyPg + 0x10C) 31 31 * 8 + (s.tgtResult r).rf (asyPg + 0x10C) 30 28 = r
  rw [State.tgtResult, State.rf_wf_field _ (by omega) (by omega), State.rf_wf_same _ (by omega), State.rf_wf_same _ (by omega)]
  omega

/-- A targeted assay that has ended (R315). -/
theorem targetedAssayDone_rules (n : Nat) {y : AsyTgt} {s : State} (hy : s.asyTgt = some y) :
    (y.left ≠ [] → exec (.targetedAssayDone n) s = .next s)
      ∧ (y.left = [] → y.miss = none → ∃ t, exec (.targetedAssayDone n) s = .next t ∧ t.asyTgt = none ∧ t.rf (asyPg + 0x10C) 31 28 = 1
        ∧ t.heals = s.heals)
      ∧ (y.left = [] → y.miss.isSome = true → s.physState y.gp ≠ 2 → ∃ t, exec (.targetedAssayDone n) s = .next t ∧ t.asyTgt = none
        ∧ t.rf (asyPg + 0x10C) 31 28 = 2 ∧ ∃ c k, (y.gp, c, k) ∈ t.heals) := by
  have hx : ∀ u, execTargetedAssayDone n s = .next u → exec (.targetedAssayDone n) s = .next u := fun _ h => h
  refine ⟨fun hl => hx _ ?_, fun hl hm => ⟨(s.tgtResult 1).bump (asyPg + 0x114) 15 0 1, hx _ ?_, ?_, ?_, ?_⟩, fun hl hm hp => ?_⟩
  · rw [execTargetedAssayDone, hy]
    exact if_pos hl
  · rw [execTargetedAssayDone, hy]
    refine (if_neg (not_not_intro hl)).trans ?_
    rw [hm]
    rfl
  · rw [State.bump_asyTgt, State.tgtResult, State.wf_asyTgt, State.wf_asyTgt, State.withTgt_asyTgt]
  · rw [State.rf_of_rd (State.rd_bump_other _ (by decide)), State.tgtResult_shows s (by decide)]
  · rw [State.bump_heals, State.tgtResult, State.wf_heals, State.wf_heals, State.withTgt_heals]
  · obtain ⟨⟨seg, diff, area⟩, hmiss⟩ := Option.isSome_iff_exists.1 hm
    have hdone : ∃ synd, execTargetedAssayDone n s = .next (((s.tgtResult 2).coreChip y.gp 2 0x30 n synd).confirm y.gp (y.cls + 1) area) := by
      refine ⟨asyFailSynd seg ((s.withTgt none).wf (asyPg + 0x10C) 31 31 0).cut true true area diff, ?_⟩
      rw [execTargetedAssayDone, hy]
      refine (if_neg (not_not_intro hl)).trans ?_
      rw [hmiss]
      rfl
    obtain ⟨synd, hdone⟩ := hdone
    generalize hu : (s.tgtResult 2).coreChip y.gp 2 0x30 n synd = u at hdone
    have hphys : u.physState y.gp ≠ 2 := by
      rw [State.physState, ← hu, State.rf_of_rd (State.rd_coreChip ..), State.tgtResult,
          State.rf_wf_other _ (xbarPg_ne_asyPg (by decide) (by decide)),
        State.rf_wf_other _ (xbarPg_ne_asyPg (by decide) (by decide))]
      exact hp
    obtain ⟨hheal, -, htgt, hregs⟩ := u.confirm_heals y.gp (y.cls + 1) area hphys
    refine ⟨_, hx _ hdone, ?_, ?_, hheal⟩
    · rw [htgt, ← hu, State.asyTgt_of_rest (State.coreChip_rest ..), State.tgtResult, State.wf_asyTgt, State.wf_asyTgt, State.withTgt_asyTgt]
    · rw [State.rf_congr hregs, ← hu, State.rf_of_rd (State.rd_coreChip ..), State.tgtResult_shows s (by decide)]

/-! ### Overdue cores and turns without segments (R308, R313) -/

/-- A core whose last pass is too long ago is marked (R313). -/
theorem assayOverdue_marks {gp n : Nat} {s : State} (hgp : gp < 5120) (hlate : 21600 * 16000000000 < s.aon.time + 16 * n - s.debtFrom gp)
    (hno : (s.asyCore gp).overdue = false) (hp : s.physState gp ≠ 2) :
    ∃ t, exec (.assayOverdue gp n) s = .next t ∧ (t.asyCore gp).overdue = true := by
  refine ⟨_, (if_pos (decide_eq_true hgp)).trans (if_neg ?_), ?_⟩
  · rintro (h | h | h)
    · omega
    · rw [hno] at h
      cases h
    · exact hp h
  · rw [State.asyCore_of_rest (State.coreChip_rest ..), State.asyCore_of_rest (State.overdueReg_rest _), State.asyCore_modAsy_same]

/-- A turn that has gone by without a segment is yielded (R308). -/
theorem assayTurnYield_yields {region gp : Nat} {s : State} (hr : region < 64) (ht : s.turn region = some gp)
    (hidle : 65536 ≤ (s.asyCore gp).idle) :
    ∃ t, exec (.assayTurnYield region) s = .next t ∧ t.turn region = none ∧ (t.asyCore gp).idle = 0 ∧ t.regs = s.regs := by
  obtain ⟨w, hw⟩ : ∃ w, exec (.assayTurnYield region) s
      = .next ((s.setAsy gp { s.asyCore gp with idle := 0, waits := w }).setTurn region none) := by
    refine ⟨((List.range 80).map (80 * region + ·)).filter (fun q => decide (q ≠ gp) && s.eligible q), (if_pos (decide_eq_true hr)).trans ?_⟩
    rw [ht]
    exact if_neg (by omega)
  refine ⟨_, hw, State.turn_setTurn_same .., ?_, rfl⟩
  change ((s.setAsy gp _).asyCore gp).idle = 0
  rw [State.asyCore_setAsy_same]

/-- A segment of the core's own pass that ends (R306, R314). -/
theorem ownSegmentEnd_rules {gp n : Nat} {misr : BitVec 64} {s : State} (hgp : gp < 5120) (hrun : (s.asyCore gp).running.isSome = true)
    (ht : ((s.segEnded gp n).asyCore gp).tgt = false) :
    (misr = (s.segEnded gp n).goldenNow gp → ((s.segEnded gp n).asyCore gp).seg + 1 < cutSegs (s.segEnded gp n).cut →
        ∃ t, exec (.assaySegmentEnd gp misr n) s = .next t ∧ (t.asyCore gp).seg = ((s.segEnded gp n).asyCore gp).seg + 1
          ∧ (t.asyCore gp).running = none ∧ (t.asyCore gp).rerun = false ∧ t.heals = (s.segEnded gp n).heals)
      ∧ (misr = (s.segEnded gp n).goldenNow gp → cutSegs (s.segEnded gp n).cut ≤ ((s.segEnded gp n).asyCore gp).seg + 1 →
        ∃ t, exec (.assaySegmentEnd gp misr n) s = .next t ∧ (t.asyCore gp).seg = 0
          ∧ (t.asyCore gp).passes = ((s.segEnded gp n).asyCore gp).passes + 1 ∧ (t.asyCore gp).overdue = false)
      ∧ (misr ≠ (s.segEnded gp n).goldenNow gp → ((s.segEnded gp n).asyCore gp).rerun = false →
        ∃ t, exec (.assaySegmentEnd gp misr n) s = .next t ∧ (t.asyCore gp).seg = ((s.segEnded gp n).asyCore gp).seg
          ∧ (t.asyCore gp).rerun = true ∧ (t.asyCore gp).fails = min (((s.segEnded gp n).asyCore gp).fails + 1) 0xFFFF
          ∧ t.heals = (s.segEnded gp n).heals)
      ∧ (misr ≠ (s.segEnded gp n).goldenNow gp → ((s.segEnded gp n).asyCore gp).rerun = true → (s.segEnded gp n).physState gp ≠ 2 →
        ∃ t, exec (.assaySegmentEnd gp misr n) s = .next t ∧ (∃ c k, (gp, c, k) ∈ t.heals) ∧ (t.asyCore gp).failed = true) := by
  have hx := exec_assaySegmentEnd_own (misr := misr) hgp hrun ht
  have hidle : ((s.segEnded gp n).asyCore gp).running = none := State.asyRestore_idle ..
  refine ⟨fun hm hs => ?_, fun hm hs => ⟨_, hx, State.passEnd_completes n hm hs⟩, fun hm hr => ⟨_, hx, State.passEnd_reruns n hm hr⟩,
    fun hm hr hp => ⟨_, hx, State.passEnd_confirms n hm hr hp⟩⟩
  obtain ⟨hseg, hrn, hrest⟩ := State.passEnd_advances n hm hs
  exact ⟨_, hx, hseg, hrn.trans hidle, hrest⟩

/-- Settles O50: each event of an assay decides by the state it finds, and what a clause speaks of is what its own event writes. -/
theorem assaySegmentsDecide : Obligations.AssaySegmentsDecide := by
  unfold Obligations.AssaySegmentsDecide
  refine ⟨fun gp cyc rows tile s hgp hrows hreal htile htgt hon hturn hel hruns hgate hseam hslack hfit => ?_,
    fun gp n misr s hgp hrun ht => ownSegmentEnd_rules hgp hrun ht, fun gp n seg rest misr y s hgp hrun ht hy hyg hl => ?_,
        fun gp n s hgp hlate hno hp => assayOverdue_marks hgp hlate hno hp,
    fun region gp s hr ht hidle => assayTurnYield_yields hr ht hidle, fun ag val s hmay => asyTgtGo_rules hmay,
    fun n y s hy => targetedAssayDone_rules n hy⟩
  · obtain ⟨hrun, hgain, hregs, hcores, hstore, hmem⟩ := (((s.reach gp cyc).choose (gp / 80)).adoptSet gp).asyBegin_runs gp cyc rows tile false
    exact ⟨_, segment_starts hgp hrows hreal htile rfl htgt hon hturn hel hruns hgate hseam hslack hfit, hrun, hgain, hregs, hcores, hstore, hmem⟩
  · obtain ⟨y', htgt, hg, hleft, hheals, hsame, hmiss⟩ := State.tgtEnd_keeps hl misr
    exact ⟨_, y', exec_assaySegmentEnd_tgt hgp hrun ht hy hyg, htgt, hg.trans hyg, hleft, hheals, hsame, hmiss⟩

end Sys2Proof.Machine

/-! The event log and the stream (R378, R419 to R422). -/

namespace Sys2Proof.Machine

/-! ### What a notification of the host leaves (R377, R378) -/

/-- What a notification of the host leaves of a state: all but the ports, their registers, what is held back and what goes out. -/
def State.offNote (s : State) : State := { s with qa := {}, qb := {}, out := [], vecHeld := [], regs := [] }

section
variable (s : State) (p : QPort)

theorem State.offNote_of_offHost {s t : State} (h : t.offHost = s.offHost) : t.offNote = s.offNote := by
  change t.offHost.offNote = s.offHost.offNote
  rw [h]

theorem State.wr_offNote (a : Nat) (v : Word) : (s.wr a v).offNote = s.offNote := id rfl

theorem State.wf_offNote (a hi lo v : Nat) : (s.wf a hi lo v).offNote = s.offNote := State.wr_offNote ..

theorem State.bump_offNote (a hi lo n : Nat) : (s.bump a hi lo n).offNote = s.offNote := State.wf_offNote ..

/-- A notification held back: its vector's PENDING is set (R377). -/
def State.holdVec (s : State) (k n a : Nat) : State := { s with vecHeld := Tbl.set 0 s.vecHeld k n }.wf a 1 1 1

theorem State.notify_eq (v : Nat) (fault : Bool) : s.notify p v fault
    = if s.rf (qPg p + 0x40C + 16 * v) 0 0 = 1 then
        s.holdVec ((match p with | .qa => 0 | .qb => 64) + v)
          (Nat.lor (Tbl.get 0 s.vecHeld ((match p with | .qa => 0 | .qb => 64) + v)) (if fault then 2 else 1)) (qPg p + 0x40C + 16 * v)
      else if s.qLive p then s.intWr p v fault else s := id rfl

theorem State.holdVec_offNote (k n a : Nat) : (s.holdVec k n a).offNote = s.offNote := State.wf_offNote ..

theorem State.notify_offNote (v : Nat) (fault : Bool) : (s.notify p v fault).offNote = s.offNote := by
  rw [State.notify_eq]
  split
  · exact State.holdVec_offNote ..
  · split
    · exact State.offNote_of_offHost (State.intWr_offHost ..)
    · rfl

theorem State.rd_holdVec_other (k n : Nat) {a b : Nat} (h : b ≠ a) : (s.holdVec k n a).rd b = s.rd b := State.rd_wf_other _ _ _ _ h

theorem State.rd_notify_other (v : Nat) (fault : Bool) {a : Nat} (h : a ≠ qPg p + 0x40C + 16 * v) : (s.notify p v fault).rd a = s.rd a := by
  rw [State.notify_eq]
  split
  · exact State.rd_holdVec_other _ _ _ h
  · split
    · exact State.rd_of_offHost (State.intWr_offHost ..) a
    · rfl

end

/-- What the module has said so far stays said. -/
def State.saysMore (s t : State) : Prop := s.out ⊆ t.out

section
variable (s : State) (p : QPort)

theorem State.saysMore.refl : s.saysMore s := List.Subset.refl _
theorem State.saysMore.trans {s t u : State} (h : s.saysMore t) (h' : t.saysMore u) : s.saysMore u := List.Subset.trans h h'
theorem State.saysMore_of_eq {s t : State} (h : t.out = s.out) : s.saysMore t := by
  rw [State.saysMore, h]
  exact List.Subset.refl _
theorem State.saysMore_send (o : Out) : s.saysMore (s.send o) := List.subset_append_left ..
theorem State.saysMore_setQ (x : QState) : s.saysMore (s.setQ p x) := State.saysMore_of_eq (State.setQ_out ..)

theorem State.saysMore_flit (idle nak : Bool) (slots : List (BitVec 128)) : s.saysMore (s.flit p idle nak slots) := by
  simp only [State.flit]
  split
  · exact State.saysMore.refl s
  · exact (State.saysMore_setQ ..).trans (State.saysMore_send ..)

theorem State.saysMore_qFlushList (l : List QMsg) (blocked : List Nat) : s.saysMore (s.qFlushList p l blocked) := by
  induction l generalizing s blocked with
  | nil => exact State.saysMore.refl s
  | cons m l ih =>
    simp only [State.qFlushList]
    split
    · exact ((State.saysMore_setQ ..).trans (State.saysMore_send ..)).trans ((State.saysMore_flit ..).trans (ih ..))
    · exact ih ..

theorem State.saysMore_qNakFlush : s.saysMore (s.qNakFlush p) := by
  simp only [State.qNakFlush]
  split
  · exact (State.saysMore_setQ ..).trans (State.saysMore_flit ..)
  · exact State.saysMore.refl s

theorem State.saysMore_qFlush : s.saysMore (s.qFlush p) := by
  rw [State.qFlush]
  split
  · exact (State.saysMore_qNakFlush ..).trans (State.saysMore_qFlushList ..)
  · exact State.saysMore.refl s

theorem State.saysMore_qReq (op addr : Nat) (data : List Row) (why : QWhy) : s.saysMore (s.qReq p op addr data why) := by
  simp only [State.qReq, State.qMsg]
  exact (State.saysMore_setQ ..).trans ((State.saysMore_setQ ..).trans (State.saysMore_qFlush ..))

theorem State.saysMore_notify (v : Nat) (fault : Bool) : s.saysMore (s.notify p v fault) := by
  rw [State.notify_eq]
  split
  · exact State.saysMore_of_eq (State.wf_out ..)
  · split
    · exact State.saysMore_qReq ..
    · exact State.saysMore.refl s

end

/-- What a step of the event queue keeps: all but the host's ports, and every register outside their pages. -/
structure State.Notes (s t : State) : Prop where
  off : t.offNote = s.offNote
  regs : ∀ a, (∀ p k, k < 0x1000 → a ≠ qPg p + k) → t.rd a = s.rd a
  sent : s.saysMore t

theorem State.Notes.refl (s : State) : s.Notes s := ⟨rfl, fun _ _ => rfl, State.saysMore.refl s⟩

theorem State.Notes.trans {s t u : State} (h : s.Notes t) (h' : t.Notes u) : s.Notes u :=
  ⟨h'.off.trans h.off, fun a ha => (h'.regs a ha).trans (h.regs a ha), h.sent.trans h'.sent⟩

section
variable (s : State) (p : QPort)

theorem State.notes_setQ (x : QState) : s.Notes (s.setQ p x) :=
  ⟨State.offNote_of_offHost (State.setQ_offHost ..), fun a _ => State.rd_of_offHost (State.setQ_offHost ..) a, State.saysMore_setQ ..⟩

theorem State.notes_qReq (op addr : Nat) (data : List Row) (why : QWhy) : s.Notes (s.qReq p op addr data why) :=
  ⟨State.offNote_of_offHost (State.qReq_offHost ..), fun a _ => State.rd_of_offHost (State.qReq_offHost ..) a, State.saysMore_qReq ..⟩

theorem State.notes_bump (k hi lo n : Nat) (hk : k < 0x1000) : s.Notes (s.bump (qPg p + k) hi lo n) :=
  ⟨State.bump_offNote .., fun _ ha => State.rd_bump_other s (ha p k hk), State.saysMore_of_eq (State.bump_out ..)⟩

theorem State.notes_notify {v : Nat} (hv : v < 64) (fault : Bool) : s.Notes (s.notify p v fault) :=
  ⟨State.notify_offNote .., fun _ ha => State.rd_notify_other s p v fault (by simpa only [Nat.add_assoc] using ha p (0x40C + 16 * v) (by omega)),
    State.saysMore_notify ..⟩

theorem State.notes_evqGo (n : Nat) : s.Notes (s.evqGo p n) := by
  induction n generalizing s with
  | zero => exact State.Notes.refl s
  | succ n ih =>
    simp only [State.evqGo]
    split
    · exact State.Notes.refl s
    · split
      · exact State.Notes.refl s
      · split
        · exact (State.notes_setQ s p _).trans ((State.notes_bump _ p 0x130 _ _ _ (by decide)).trans
            ((State.notes_notify _ p (by decide) _).trans (ih _)))
        · exact State.notes_qReq ..

theorem State.notes_chipNotify (r : Row) : s.Notes (s.chipNotify r) := by
  have hone : ∀ (p : QPort) (u : State), u.Notes (if !u.qLive p then u
      else if u.rf (qPg p + 0x120) 0 0 = 0 then u.notify p 63 false
      else (u.setQ p { u.q p with evq := (u.q p).evq ++ [r] }).evqGo p ((u.q p).evq.length + 1)) := fun p u => by
    split
    · exact State.Notes.refl u
    · split
      · exact State.notes_notify _ _ (by decide) _
      · exact (State.notes_setQ ..).trans (State.notes_evqGo ..)
  exact (hone .qa s).trans (hone .qb _)

end

/-! ### The event log (R419 to R421) -/

section
variable {s t : State} (h : t.offNote = s.offNote)
include h

theorem State.recQ_of_offNote : t.recQ = s.recQ := by
  change t.offNote.recQ = s.offNote.recQ
  rw [h]

theorem State.log_of_offNote : t.log = s.log := by
  change t.offNote.log = s.offNote.log
  rw [h]

theorem State.aon_of_offNote : t.aon = s.aon := by
  change t.offNote.aon = s.offNote.aon
  rw [h]

theorem State.mem_of_offNote : t.mem = s.mem := by
  change t.offNote.mem = s.offNote.mem
  rw [h]

theorem State.cores_of_offNote : t.cores = s.cores := by
  change t.offNote.cores = s.offNote.cores
  rw [h]

end

theorem State.ifHearth_up {s : State} (h : s.hearthUp = true) (f : State → State) : s.ifHearth f = f s := if_pos h

theorem evtPg_ne_qPg (p : QPort) {j k : Nat} (hj : j < 4096) (hk : k < 4096) : evtPg + j ≠ qPg p + k := by
  cases p <;> simp only [evtPg, qPg, modPg, modAddr] <;> omega

/-- A state with this log. -/
def State.withLog (s : State) (l : List LogRec) : State := { s with log := l }

theorem State.withLog_log (s : State) (l : List LogRec) : (s.withLog l).log = l := rfl

theorem State.logRec_eq (s : State) (l : LogRec) : s.logRec l = if s.log.length < 32768 then (s.withLog (s.log ++ [l])).showFill
    else if l.rec_.sev < 2 then s.recLost
    else match s.log.find? (fun k => decide (k.rec_.sev < 2)) with
      | none => s.recLost
      | some k => (s.withLog (s.log.erase k ++ [l])).recLost := id rfl

/-- What a record that is numbered changes: the log, its count and its fill. -/
structure State.Logs (s t : State) : Prop where
  recQ : t.recQ = s.recQ
  aon : t.aon = s.aon
  mem : t.mem = s.mem
  cores : t.cores = s.cores
  out : t.out = s.out
  seq : t.rd (evtPg + 0x108) = s.rd (evtPg + 0x108)

theorem State.Logs.trans {s t u : State} (h : s.Logs t) (h' : t.Logs u) : s.Logs u :=
  ⟨h'.recQ.trans h.recQ, h'.aon.trans h.aon, h'.mem.trans h.mem, h'.cores.trans h.cores, h'.out.trans h.out, h'.seq.trans h.seq⟩

theorem State.logs_wf (s : State) {a : Nat} (h : evtPg + 0x108 ≠ a) (hi lo v : Nat) : s.Logs (s.wf a hi lo v) :=
  ⟨State.wf_recQ .., State.wf_aon .., State.wf_mem .., State.wf_cores .., State.wf_out .., State.rd_wf_other _ _ _ _ h⟩

theorem State.logs_bump (s : State) {a : Nat} (h : evtPg + 0x108 ≠ a) (hi lo n : Nat) : s.Logs (s.bump a hi lo n) := s.logs_wf h ..

theorem State.logs_withLog (s : State) (l : List LogRec) : s.Logs (s.withLog l) := ⟨rfl, rfl, rfl, rfl, rfl, rfl⟩

theorem State.logs_showFill (s : State) : s.Logs s.showFill := s.logs_wf (by decide) ..

theorem State.logs_recLost (s : State) : s.Logs s.recLost := s.logs_bump (by decide) ..

theorem State.logs_logRec (s : State) (l : LogRec) : s.Logs (s.logRec l) := by
  rw [State.logRec_eq]
  split
  · exact (State.logs_withLog ..).trans (State.logs_showFill _)
  · split
    · exact State.logs_recLost s
    · split
      · exact State.logs_recLost s
      · exact (State.logs_withLog ..).trans (State.logs_recLost _)

theorem State.logRec_room {s : State} (h : s.log.length < 32768) (l : LogRec) : (s.logRec l).log = s.log ++ [l] := by
  rw [State.logRec_eq, if_pos h, State.showFill, State.wf_log, State.withLog_log]

/-- A record leaves those under way and takes its number (R419, R420). -/
def State.recNumbered (s : State) (n : Nat) (l : LogRec) : State :=
  ({ s with recQ := s.recQ.eraseIdx n, recent := (s.recent ++ [l]).drop (s.recent.length + 1 - 120) }).wr (evtPg + 0x108) (BitVec.ofNat 32 l.seq)

theorem State.recNumbered_keeps (s : State) (n : Nat) (l : LogRec) : (s.recNumbered n l).recQ = s.recQ.eraseIdx n ∧ (s.recNumbered n l).log = s.log
    ∧ (s.recNumbered n l).mem = s.mem ∧ (s.recNumbered n l).cores = s.cores ∧ (s.recNumbered n l).rd (evtPg + 0x108) = BitVec.ofNat 32 l.seq := by
  rw [State.recNumbered]
  exact ⟨State.wr_recQ .., State.wr_log .., State.wr_mem .., State.wr_cores .., State.rd_wr_same ..⟩

/-- Management is alerted (R421). -/
def State.raiseAlert (s : State) : State := ((s.modAon (fun a => { a with alert := true })).wf (evtPg + 0x104) 29 29 1).send .ibi

/-- The module reacts to a record that has been numbered and logged (R378, R421). -/
def State.recReacts (s : State) (r : Rec) (l : LogRec) : State :=
  let s := if r.sev = 3 then s.raiseAlert else s
  if r.chip then s.chipNotify (BitVec.ofNat 1024 l.nat) else s

theorem State.raiseAlert_keeps (s : State) : s.raiseAlert.recQ = s.recQ ∧ s.raiseAlert.log = s.log ∧ s.raiseAlert.mem = s.mem
    ∧ s.raiseAlert.cores = s.cores ∧ s.raiseAlert.rd (evtPg + 0x108) = s.rd (evtPg + 0x108) ∧ s.raiseAlert.aon.alert = true
    ∧ .ibi ∈ s.raiseAlert.out := by
  have hseq : s.raiseAlert.rd (evtPg + 0x108) = s.rd (evtPg + 0x108) := by
    rw [State.raiseAlert, State.rd_of_offHost (State.send_offHost ..), State.rd_wf_other _ _ _ _ (by decide)]
    rfl
  rw [hseq, State.raiseAlert, State.send_recQ, State.wf_recQ, State.send_log, State.wf_log, State.send_mem,
    State.wf_mem, State.send_cores, State.wf_cores, State.send_aon, State.wf_aon]
  exact ⟨rfl, rfl, rfl, rfl, rfl, rfl, List.mem_append_right _ List.mem_cons_self⟩

theorem State.recReacts_keeps (s : State) (r : Rec) (l : LogRec) : (s.recReacts r l).recQ = s.recQ ∧ (s.recReacts r l).log = s.log
    ∧ (s.recReacts r l).mem = s.mem ∧ (s.recReacts r l).cores = s.cores ∧ (s.recReacts r l).rd (evtPg + 0x108) = s.rd (evtPg + 0x108)
    ∧ (r.sev = 3 → (s.recReacts r l).aon.alert = true ∧ .ibi ∈ (s.recReacts r l).out) := by
  obtain ⟨u, hu⟩ : ∃ u, u = if r.sev = 3 then s.raiseAlert else s := ⟨_, rfl⟩
  have hkeep : u.recQ = s.recQ ∧ u.log = s.log ∧ u.mem = s.mem ∧ u.cores = s.cores ∧ u.rd (evtPg + 0x108) = s.rd (evtPg + 0x108)
      ∧ (r.sev = 3 → u.aon.alert = true ∧ .ibi ∈ u.out) := by
    obtain ⟨hq, hl, hm, hc, hr, halert⟩ := s.raiseAlert_keeps
    rw [hu]
    split
    next h => exact ⟨hq, hl, hm, hc, hr, fun _ => halert⟩
    next h => exact ⟨rfl, rfl, rfl, rfl, rfl, fun h' => absurd h' h⟩
  obtain ⟨hq, hl, hm, hc, hr, halert⟩ := hkeep
  have hx : s.recReacts r l = if r.chip then u.chipNotify (BitVec.ofNat 1024 l.nat) else u := by
    rw [hu]
    rfl
  rw [hx]
  split
  · obtain ⟨hoff, hregs, hsent⟩ := u.notes_chipNotify (BitVec.ofNat 1024 l.nat)
    refine ⟨(State.recQ_of_offNote hoff).trans hq, (State.log_of_offNote hoff).trans hl, (State.mem_of_offNote hoff).trans hm,
      (State.cores_of_offNote hoff).trans hc, (hregs _ (fun p k hk => evtPg_ne_qPg p (by decide) hk)).trans hr, fun h => ?_⟩
    obtain ⟨ha, ho⟩ := halert h
    exact ⟨(congrArg (·.alert) (State.aon_of_offNote hoff)).trans ha, hsent ho⟩
  · exact ⟨hq, hl, hm, hc, hr, halert⟩

theorem execEventRecord_eq {n : Nat} {r : Rec} {s : State} (hup : s.hearthUp = true) (hr : s.recQ[n]? = some r) :
    execEventRecord n s = .next (((((s.recNumbered n { seq := nextSeq (s.rd (evtPg + 0x108)).toNat, rec_ := r }).bump
      (evtPg + 0x134 + 4 * min r.sev 3) 31 0 1).logRec { seq := nextSeq (s.rd (evtPg + 0x108)).toNat, rec_ := r })).recReacts r
        { seq := nextSeq (s.rd (evtPg + 0x108)).toNat, rec_ := r }) := by
  rw [execEventRecord, State.ifHearth_up hup, hr]
  rfl

/-- A record that reaches the hearth is numbered, logged, and alerts management when it is a UF record (R419 to R421). -/
theorem eventRecord_rules {n : Nat} {r : Rec} {s : State} (hup : s.hearthUp = true) (hr : s.recQ[n]? = some r) :
    ∃ t, exec (.eventRecord n) s = .next t ∧ t.rd (evtPg + 0x108) = BitVec.ofNat 32 (nextSeq (s.rd (evtPg + 0x108)).toNat)
      ∧ t.recQ = s.recQ.eraseIdx n
      ∧ (s.log.length < 32768 → t.log = s.log ++ [{ seq := nextSeq (s.rd (evtPg + 0x108)).toNat, rec_ := r }])
      ∧ (r.sev = 3 → t.aon.alert = true ∧ .ibi ∈ t.out) ∧ t.mem = s.mem ∧ t.cores = s.cores := by
  refine ⟨_, execEventRecord_eq hup hr, ?_⟩
  generalize nextSeq (s.rd (evtPg + 0x108)).toNat = seq
  obtain ⟨hq, hl, hm, hc, hseq⟩ := s.recNumbered_keeps n { seq := seq, rec_ := r }
  generalize s.recNumbered n { seq := seq, rec_ := r } = u at hq hl hm hc hseq ⊢
  obtain ⟨hq1, -, hm1, hc1, -, hseq1⟩ := (u.logs_bump (a := evtPg + 0x134 + 4 * min r.sev 3) (by omega) 31 0 1).trans
    (State.logs_logRec _ { seq := seq, rec_ := r })
  have hl1 : (u.bump (evtPg + 0x134 + 4 * min r.sev 3) 31 0 1).log = s.log := (State.bump_log ..).trans hl
  obtain ⟨hq2, hl2, hm2, hc2, hseq2, halert⟩ := State.recReacts_keeps
    ((u.bump (evtPg + 0x134 + 4 * min r.sev 3) 31 0 1).logRec { seq := seq, rec_ := r }) r { seq := seq, rec_ := r }
  refine ⟨hseq2.trans (hseq1.trans hseq), hq2.trans (hq1.trans hq), fun hroom => ?_, halert, hm2.trans (hm1.trans hm), hc2.trans (hc1.trans hc)⟩
  rw [hl2, State.logRec_room (by rw [hl1]; exact hroom), hl1]

/-! ### The stream (R421, R422) -/

theorem byteList_length (n x : Nat) : (byteList n x).length = n := by
  rw [byteList, List.length_map, bytesLE_length]

/-- The number of a stream advances as a datagram of it is made. -/
def State.streamNext (s : State) (kind : Nat) : State :=
  { s with streamSeq := Tbl.set 0 s.streamSeq kind ((Tbl.get 0 s.streamSeq kind + 1) % 2 ^ 32) }

theorem State.sendDatagram_eq (s : State) (kind count first offset : Nat) (payload : List (BitVec 8)) :
    s.sendDatagram kind count first offset payload
      = ((s.streamNext kind).bump (evtPg + 0x130) 31 0 1).send (.datagram (s.streamNext kind).udpHead kind first offset
          (byteList 1 1 ++ byteList 1 kind ++ byteList 2 count ++ byteList 4 (Tbl.get 0 s.streamSeq kind) ++ byteList 4 first ++ byteList 4 offset
            ++ payload)) := id rfl

/-- A datagram goes out as the management registers address it: 16 B of header, and what it carries (R421). -/
theorem State.sendDatagram_sends (s : State) (kind count first offset : Nat) (payload : List (BitVec 8)) :
    ∃ bytes, (s.sendDatagram kind count first offset payload).out = s.out ++ [.datagram s.udpHead kind first offset bytes]
      ∧ bytes.length = 16 + payload.length := by
  refine ⟨byteList 1 1 ++ byteList 1 kind ++ byteList 2 count ++ byteList 4 (Tbl.get 0 s.streamSeq kind) ++ byteList 4 first ++ byteList 4 offset
    ++ payload, ?_, ?_⟩
  · rw [State.sendDatagram_eq, State.send_out, State.bump_out]
    rfl
  · simp only [List.length_append, byteList_length]

theorem State.flatMap_records_length (ls : List LogRec) : (ls.flatMap (fun k => byteList 32 k.nat)).length = 32 * ls.length := by
  induction ls with
  | nil => rfl
  | cons k ls ih =>
    rw [List.flatMap_cons, List.length_append, ih, byteList_length, List.length_cons]
    omega

/-- Records leave in one datagram, up to 44 of them (R422). -/
theorem eventDatagram_rules {aged : Bool} {s : State} (hup : s.hearthUp = true) (hl : s.log ≠ []) (hst : s.streams = true)
    (hdue : aged = true ∨ 44 ≤ s.log.length) :
    ∃ t first bytes, exec (.eventDatagramSend aged) s = .next t ∧ t.log = s.log.drop 44
      ∧ t.out = s.out ++ [.datagram s.udpHead 1 first 0 bytes] ∧ bytes.length = 16 + 32 * min 44 s.log.length := by
  obtain ⟨l, ls, hcons⟩ := List.exists_cons_of_ne_nil hl
  have hgo : ¬ ((!s.streams) = true ∨ ((!aged) = true ∧ s.log.length < 44)) := by
    rintro (h | ⟨ha, hn⟩)
    · rw [hst] at h
      cases h
    · obtain ha' | hn' := hdue
      · rw [ha'] at ha
        cases ha
      · omega
  have hx : execEventDatagramSend aged s = .next (((s.sendDatagram 1 (s.log.take 44).length l.seq 0
      ((s.log.take 44).flatMap (fun k => byteList 32 k.nat))).withLog (s.log.drop 44)).showFill) := by
    rw [execEventDatagramSend, State.ifHearth_up hup]
    split
    next h => exact absurd h hl
    next l' ls' h =>
      obtain ⟨rfl, -⟩ := List.cons.inj (hcons.symm.trans h)
      rw [if_neg hgo]
      rfl
  obtain ⟨bytes, hout, hlen⟩ := s.sendDatagram_sends 1 (s.log.take 44).length l.seq 0 ((s.log.take 44).flatMap (fun k => byteList 32 k.nat))
  refine ⟨_, l.seq, bytes, hx, ?_, ?_, ?_⟩
  · rw [State.showFill, State.wf_log, State.withLog_log]
  · rw [State.showFill, State.wf_out]
    exact hout
  · rw [hlen, State.flatMap_records_length, List.length_take]

/-- An idle second sends its mark (R422). -/
theorem idleDatagram_rules {s : State} (hup : s.hearthUp = true) (hst : s.streams = true) (hl : s.log = [])
    (hdump : s.rf (dumpPg + 0x104) 30 30 = 0) :
    ∃ t first bytes, exec .idleDatagram s = .next t ∧ t.out = s.out ++ [.datagram s.udpHead 4 first 0 bytes] ∧ bytes.length = 16 := by
  have hx : execIdleDatagram s = .next (s.fresh.2.sendMark 4 (Config.freeWord s.fresh.1).toNat) := by
    rw [execIdleDatagram, State.ifHearth_up hup, if_neg (by rw [hst, hl, hdump]; decide)]
  obtain ⟨bytes, hout,
      hlen⟩ := s.fresh.2.fresh.2.sendDatagram_sends 4 (Config.freeWord s.fresh.2.fresh.1).toNat (Config.freeWord s.fresh.1).toNat 0 []
  exact ⟨_, _, bytes, hx, hout, hlen⟩

/-! ### The management link (R414, R421) -/

/-- A request for SRC_IP is answered with the MAC address (R421). -/
theorem arpRequest_answers {s : State} (hup : s.hearthUp = true) (hlink : s.rf (evtPg + 0x104) 31 31 = 1) :
    ∃ t, exec (.arpRequest (s.rd (evtPg + 0x118))) s = .next t ∧ t.out = s.out ++ [.arp (s.rd (evtPg + 0x118)) s.flash.mac] ∧ t.regs = s.regs := by
  refine ⟨s.send (.arp (s.rd (evtPg + 0x118)) s.flash.mac), ?_, State.send_out .., State.send_regs ..⟩
  change execArpRequest _ s = _
  rw [execArpRequest, State.ifHearth_up hup, if_pos ⟨hlink, rfl⟩]

/-- LINK_UP follows the link, with AN_EN only once auto-negotiation has completed (R421). -/
theorem mgmtLinkUp_rules {s : State} (hup : s.hearthUp = true) :
    (∀ ok, (s.rf (evtPg + 0x100) 30 30 = 0 ∨ ok = true) → ∃ t, exec (.mgmtLinkUp ok) s = .next t ∧ t.rf (evtPg + 0x104) 31 31 = 1
        ∧ ∀ a, a ≠ evtPg + 0x104 → t.rd a = s.rd a)
      ∧ (s.rf (evtPg + 0x100) 30 30 = 1 → exec (.mgmtLinkUp false) s = .next s) := by
  refine ⟨fun ok hok => ⟨s.wf (evtPg + 0x104) 31 31 1, ?_, State.rf_wf_same _ (by omega) .., fun a ha => State.rd_wf_other _ _ _ _ ha⟩, fun han => ?_⟩
  · change execMgmtLinkUp ok s = _
    rw [execMgmtLinkUp, State.ifHearth_up hup, if_pos hok]
  · change execMgmtLinkUp false s = _
    rw [execMgmtLinkUp, State.ifHearth_up hup, if_neg (by rw [han]; decide)]

/-- Management alone clears ALERT (R421). -/
theorem alertRelease_clears (s : State) : ∃ t, exec (.alertRelease .mgmt) s = .next t ∧ t.aon.alert = false ∧ t.rf (evtPg + 0x104) 29 29 = 0 := by
  refine ⟨s.alertClear, rfl, ?_, State.rf_wf_same _ (by omega) ..⟩
  rw [State.alertClear, State.wf_aon]
  rfl

/-- Settles O57: each command of the log and the stream, by what it writes. -/
theorem eventLogAndStream : Obligations.EventLogAndStream := by
  unfold Obligations.EventLogAndStream
  exact ⟨fun n r s hup hr => eventRecord_rules hup hr, fun aged s hup hl hst hdue => eventDatagram_rules hup hl hst hdue,
    fun s hup hst hl hd => idleDatagram_rules hup hst hl hd, fun s hup => ⟨fun hlink => arpRequest_answers hup hlink, mgmtLinkUp_rules hup⟩,
    fun s => ⟨⟨s.wf (evtPg + 0x104) 31 31 0, rfl, State.rf_wf_same _ (by omega) .., fun a ha => State.rd_wf_other _ _ _ _ ha⟩,
      alertRelease_clears s, fun ag hag => congrArg Host.Outcome.next (if_neg hag)⟩⟩

end Sys2Proof.Machine

/-! Dumps (R355 to R357, R422, R423). -/

namespace Sys2Proof.Machine

/-! ### What a capture leaves of the registers (R356) -/

/-- The top two bits of a register, apart. -/
theorem fld_top_two (w : Word) : fld w 31 30 = fld w 31 31 * 2 + fld w 30 30 := by
  simp only [fld]
  omega

/-- An address that no error report of a core writes. -/
def offHeaders (a : Nat) : Prop := ∀ gp o, o < 0x100 → a ≠ corePg gp + o

theorem dumpPg_offHeaders {k : Nat} (hlo : 0x100 ≤ k) (hhi : k < 4096) : offHeaders (dumpPg + k) := by
  intro gp o ho
  simp only [dumpPg, modPg, modAddr, corePg, regionAddr]
  omega

/-- A core that remembers a row for its scrub. -/
def State.scrubNote (s : State) (gp la : Nat) : State :=
  s.modCore gp (fun c => if c.watch.scrub.length < 4 ∧ ¬ c.watch.scrub.contains la then
    { c with watch := { c.watch with scrub := c.watch.scrub ++ [la] } } else c)

theorem State.rd_scrubNote (s : State) (gp la b : Nat) : (s.scrubNote gp la).rd b = s.rd b := rfl

/-- Whether a row read with these upsets has a word that is corrected. -/
def rowCorrected (u : BitVec 1152) : Bool := (List.range 16).any (fun w => eccClass (upWord u w) = 1 || eccClass (upWord u w) = 3)

theorem State.storeRead_state (s : State) (gp la code cyc : Nat) : (s.storeRead gp la code cyc).2
    = if Tbl.get 0 (s.core gp).upset la = 0 then s
      else if rowCorrected (Tbl.get 0 (s.core gp).upset la)
        then (s.eccReport gp la code cyc (Tbl.get 0 (s.core gp).upset la) (List.range 16)).scrubNote gp la
        else s.eccReport gp la code cyc (Tbl.get 0 (s.core gp).upset la) (List.range 16) := by
  rw [State.storeRead]
  by_cases hu : Tbl.get 0 (s.core gp).upset la = 0
  · simp only [if_pos hu]
  · simp only [if_neg hu, rowCorrected, State.scrubNote]

/-- A row of a record goes through the correction stage (R142). -/
def State.correctRow (gp now : Nat) (x : DumpUnit × State) (la : Nat) : DumpUnit × State :=
  ({ x.1 with
      rows := x.1.rows.set (dumpIndex la) (x.2.fresh.2.storeRead gp la ((Config.freeWord x.2.fresh.1).toNat % 16) (x.2.fresh.2.coreAt now)).1 },
          (x.2.fresh.2.storeRead gp la ((Config.freeWord x.2.fresh.1).toNat % 16) (x.2.fresh.2.coreAt now)).2)

theorem State.dumpCorrect_none {s : State} {u : DumpUnit} (h : s.pageCore u.addr = none) : s.dumpCorrect u = (u, s) := by
  rw [State.dumpCorrect, h]

theorem State.dumpCorrect_some {s : State} {u : DumpUnit} {gp : Nat} (h : s.pageCore u.addr = some gp) : s.dumpCorrect u
    = (((s.core gp).upset.map (·.1)).filter (fun la => decide (dumpIndex la < u.rows.length))).foldl
        (State.correctRow gp (s.core gp).now) (u, s) := by
  rw [State.dumpCorrect, h]
  rfl

section
variable {a : Nat} (h : offHeaders a)
include h

theorem State.rd_eccReport_other (gp la code cyc : Nat) (u : BitVec 1152) (l : List Nat) (s : State) :
    (s.eccReport gp la code cyc u l).rd a = s.rd a := by
  induction l generalizing s with
  | nil =>
    unfold State.eccReport
    exact Eq.refl _
  | cons w l ih =>
    unfold State.eccReport
    extract_lets m syn t
    rw [ih t]
    unfold t
    generalize eccClass m = k
    split
    · exact State.rd_coreErr_other (h gp) ..
    · exact State.rd_coreErr_other (h gp) ..
    · exact State.rd_coreErr_other (h gp) ..
    · exact Eq.refl _

theorem State.rd_storeRead_other (s : State) (gp la code cyc : Nat) : (s.storeRead gp la code cyc).2.rd a = s.rd a := by
  rw [State.storeRead_state, State.rd_ite, State.rd_ite, State.rd_scrubNote, State.rd_eccReport_other h]
  split <;> simp only [ite_self]

theorem State.rd_correctRows_other (gp now : Nat) (l : List Nat) (x : DumpUnit × State) :
    (l.foldl (State.correctRow gp now) x).2.rd a = x.2.rd a := by
  induction l generalizing x with
  | nil => rfl
  | cons la l ih =>
    rw [List.foldl_cons, ih]
    exact (State.rd_storeRead_other h _ _ _ _ _).trans (State.rd_fresh ..)

theorem State.rd_dumpCorrect_other (s : State) (u : DumpUnit) : (s.dumpCorrect u).2.rd a = s.rd a := by
  cases hc : s.pageCore u.addr with
  | none => rw [State.dumpCorrect_none hc]
  | some gp => rw [State.dumpCorrect_some hc, State.rd_correctRows_other h]

end

/-- A unit of a capture whose store rows are corrected (R142). -/
def State.readUnit (x : List DumpUnit × State) (u : DumpUnit) : List DumpUnit × State :=
  if u.rows.isEmpty then (x.1 ++ [u], x.2) else (x.1 ++ [(x.2.dumpCorrect u).1], (x.2.dumpCorrect u).2)

theorem State.dumpRows_eq (s : State) (us : List DumpUnit) : s.dumpRows us = us.foldl State.readUnit ([], s) := rfl

theorem State.rd_dumpRows_other {a : Nat} (h : offHeaders a) (s : State) (us : List DumpUnit) : (s.dumpRows us).2.rd a = s.rd a := by
  have hfold : ∀ x : List DumpUnit × State, (us.foldl State.readUnit x).2.rd a = x.2.rd a := by
    induction us with
    | nil => exact fun _ => rfl
    | cons u us ih =>
      intro x
      rw [List.foldl_cons, ih, State.readUnit]
      split
      · rfl
      · exact State.rd_dumpCorrect_other h _ u
  rw [State.dumpRows_eq, hfold]

theorem State.rd_sendDatagram_other (s : State) (kind count first offset : Nat) (payload : List (BitVec 8)) {a : Nat} (h : a ≠ evtPg + 0x130) :
    (s.sendDatagram kind count first offset payload).rd a = s.rd a := by
  rw [State.sendDatagram_eq, State.rd_of_offHost (State.send_offHost ..), State.rd_bump_other _ h]
  rfl

theorem State.rd_sendMark_other (s : State) (kind first : Nat) {a : Nat} (h : a ≠ evtPg + 0x130) : (s.sendMark kind first).rd a = s.rd a := by
  rw [State.sendMark]
  exact State.rd_sendDatagram_other _ _ _ _ _ _ h

theorem State.rd_abandonStream_other (s : State) {a : Nat} (h1 : a ≠ dumpPg + 0x104) (h2 : a ≠ evtPg + 0x104) (h3 : a ≠ evtPg + 0x130) :
    s.abandonStream.rd a = s.rd a := by
  rw [State.abandonStream]
  split
  · split
    · simp only [apply_ite (State.rd · a), State.rd_sendMark_other _ _ _ h3, State.rd_wf_other _ _ _ _ h1, State.rd_wf_other _ _ _ _ h2, ite_self]
    · rfl
  · rfl

/-- A state with this dump. -/
def State.withDump (s : State) (d : Option Dump) : State := { s with dump := d }

theorem State.withDump_dump (s : State) (d : Option Dump) : (s.withDump d).dump = d := rfl
theorem State.rd_withDump (s : State) (d : Option Dump) (a : Nat) : (s.withDump d).rd a = s.rd a := rfl

/-- The units that a capture reads, and the state after it has read them (R356). -/
def State.dumpRead (s : State) (sc : DumpScope) (silent : List Nat) (data : Option Nat) : List DumpUnit × State :=
  s.abandonStream.dumpRows (fitUnits (2 ^ 25 - 64) (s.abandonStream.dumpUnits sc silent data)).1

theorem State.rd_dumpRead (s : State) (sc : DumpScope) (silent : List Nat) (data : Option Nat) :
    (s.dumpRead sc silent data).2.rd (dumpPg + 0x108) = s.rd (dumpPg + 0x108) := by
  rw [State.dumpRead, State.rd_dumpRows_other (dumpPg_offHeaders (by decide) (by decide)),
    State.rd_abandonStream_other _ (by decide) (by decide) (by decide)]

/-- A capture takes the next DUMP_SEQ and shows that it is in progress (R355, R356). -/
def State.dumpTaken (u : State) (seq : Word) (d : Dump) (trunc : Nat) : State :=
  (((u.wr (dumpPg + 0x108) seq).withDump (some d)).wf (dumpPg + 0x104) 31 31 1).wf (dumpPg + 0x104) 29 29 trunc

theorem State.dumpTaken_shows (u : State) (seq : Word) (d : Dump) (trunc : Nat) : (u.dumpTaken seq d trunc).rf (dumpPg + 0x104) 31 31 = 1
    ∧ (u.dumpTaken seq d trunc).rd (dumpPg + 0x108) = seq ∧ (u.dumpTaken seq d trunc).dump = some d := by
  rw [State.dumpTaken]
  refine ⟨?_, ?_, ?_⟩
  · rw [State.rf_wf_field _ (by omega) (by omega), State.rf_wf_same _ (by omega)]
    rfl
  · rw [State.rd_wf_other _ _ _ _ (by decide), State.rd_wf_other _ _ _ _ (by decide), State.rd_withDump, State.rd_wr_same]
  · rw [State.wf_dump, State.wf_dump, State.withDump_dump]

theorem State.dumpBegin_eq (s : State) (sc : DumpScope) (trigger mask : Nat) (silent : List Nat) (data : Option Nat) :
    ∃ d trunc, s.dumpBegin sc trigger mask silent data
        = (s.dumpRead sc silent data).2.dumpTaken ((s.dumpRead sc silent data).2.rd (dumpPg + 0x108) + 1) d trunc
      ∧ d.seq = ((s.dumpRead sc silent data).2.rd (dumpPg + 0x108) + 1).toNat ∧ d.trigger = trigger ∧ d.scope = sc := by
  refine ⟨_, _, rfl, ?_, rfl, rfl⟩
  exact congrArg BitVec.toNat (State.rd_wr_same ..)

/-- What a capture that begins shows (R355, R356). -/
theorem State.dumpBegin_shows (s : State) (sc : DumpScope) (trigger mask : Nat) (silent : List Nat) (data : Option Nat) :
    ∃ d, (s.dumpBegin sc trigger mask silent data).rf (dumpPg + 0x104) 31 31 = 1
      ∧ (s.dumpBegin sc trigger mask silent data).rd (dumpPg + 0x108) = s.rd (dumpPg + 0x108) + 1
      ∧ (s.dumpBegin sc trigger mask silent data).dump = some d ∧ d.seq = (s.rd (dumpPg + 0x108) + 1).toNat ∧ d.trigger = trigger ∧ d.scope = sc := by
  obtain ⟨d, trunc, hx, hseq, htrig, hsc⟩ := s.dumpBegin_eq sc trigger mask silent data
  rw [State.rd_dumpRead] at hx hseq
  obtain ⟨hbusy, hrd, hd⟩ := (s.dumpRead sc silent data).2.dumpTaken_shows (s.rd (dumpPg + 0x108) + 1) d trunc
  rw [← hx] at hbusy hrd hd
  exact ⟨d, hbusy, hrd, hd, hseq, htrig, hsc⟩

/-! ### Requests, placeholders and the end of a capture (R355 to R357) -/

theorem exec_dumpCtlGo_admitted {ag : Agent} {silent : List Nat} {s : State} (hs : ∀ a ∈ silent, a < 2 ^ 33)
    (hmay : s.mayWrite ag (dumpPg + 0x100)) (val : Word) :
    exec (.dumpCtlGo ag val silent) s = .next (s.dumpCtl (val ||| 0x80000000) silent) := by
  have hwf : (Instr.dumpCtlGo ag val silent).wf = true := List.all_eq_true.2 fun a ha => decide_eq_true (hs a ha)
  refine (if_pos hwf).trans ?_
  rw [State.ifAdmitted_may hmay]

/-- What a request that waits for the capture in progress adds. -/
def State.withDumpWait (s : State) (l : List DumpWait) : State := { s with dumpWait := l }

theorem State.rd_withDumpWait (s : State) (l : List DumpWait) (a : Nat) : (s.withDumpWait l).rd a = s.rd a := rfl
theorem State.withDumpWait_dumpSlots (s : State) (l : List DumpWait) : (s.withDumpWait l).dumpSlots = s.dumpSlots := rfl
theorem State.withDumpWait_dumpNext (s : State) (l : List DumpWait) : (s.withDumpWait l).dumpNext = s.dumpNext := rfl

theorem State.dumpCtl_go (s : State) {val : Word} (silent : List Nat) (hsc : fld val 30 28 ≤ 1) : s.dumpCtl (val ||| 0x80000000) silent
    = if !s.capturing then s.dumpRequest (val ||| 0x80000000) silent
      else if s.sameScope (s.ctlScope (val ||| 0x80000000)) then s
      else s.withDumpWait (s.dumpWait ++ [.ctl (val ||| 0x80000000) silent]) := by
  have h30 : fld (val ||| 0x80000000) 30 28 = fld val 30 28 := fld_go val (by decide)
  refine if_neg ?_
  rw [fld_go_bit, h30]
  omega

/-- A DUMP_CTL request that begins its capture (R355, R356). -/
theorem State.dumpRequest_shows (s : State) (v : Word) (silent : List Nat) :
    ∃ d, (s.dumpRequest v silent).rf (dumpPg + 0x104) 31 31 = 1
      ∧ (s.dumpRequest v silent).rd (dumpPg + 0x108) = s.rd (dumpPg + 0x108) + 1
      ∧ (s.dumpRequest v silent).dump = some d ∧ d.seq = (s.rd (dumpPg + 0x108) + 1).toNat ∧ d.trigger = 0 ∧ d.scope = s.ctlScope v := by
  obtain ⟨x, mask, data, hx⟩ : ∃ x mask data, s.dumpRequest v silent
      = (s.wf (dumpPg + 0x104) 28 28 x).dumpBegin (s.ctlScope v) 0 mask silent data := ⟨_, _, _, rfl⟩
  have h := (s.wf (dumpPg + 0x104) 28 28 x).dumpBegin_shows (s.ctlScope v) 0 mask silent data
  rw [State.rd_wf_other _ _ _ _ (by decide), ← hx] at h
  exact h

/-- A capture starts with the next DUMP_SEQ, joins a capture of its scope, or waits for another (R355, R357). -/
theorem dumpCtlGo_rules {ag : Agent} {val : Word} {silent : List Nat} {s : State} (hs : ∀ a ∈ silent, a < 2 ^ 33)
    (hmay : s.mayWrite ag (dumpPg + 0x100)) (hsc : fld val 30 28 ≤ 1) :
    (s.rf (dumpPg + 0x104) 31 31 = 0 → ∃ t d, exec (.dumpCtlGo ag val silent) s = .next t ∧ t.rf (dumpPg + 0x104) 31 31 = 1
        ∧ t.rd (dumpPg + 0x108) = s.rd (dumpPg + 0x108) + 1 ∧ t.dump = some d ∧ d.seq = (t.rd (dumpPg + 0x108)).toNat ∧ d.trigger = 0
        ∧ d.scope = s.ctlScope (val ||| 0x80000000))
      ∧ (s.rf (dumpPg + 0x104) 31 31 = 1 → ∃ t, exec (.dumpCtlGo ag val silent) s = .next t ∧ t.dump = s.dump ∧ t.regs = s.regs
        ∧ t.dumpWait = (if s.sameScope (s.ctlScope (val ||| 0x80000000)) then s.dumpWait
            else s.dumpWait ++ [.ctl (val ||| 0x80000000) silent])) := by
  have hx := (exec_dumpCtlGo_admitted hs hmay val).trans (congrArg Host.Outcome.next (s.dumpCtl_go silent hsc))
  refine ⟨fun hidle => ?_, fun hbusy => ?_⟩
  · have hc : s.capturing = false := by rw [State.capturing, hidle]; rfl
    rw [hc] at hx
    obtain ⟨d, hb, hrd, hd, hseq, htrig, hscope⟩ := s.dumpRequest_shows (val ||| 0x80000000) silent
    exact ⟨_, d, hx, hb, hrd, hd, hseq.trans (congrArg BitVec.toNat hrd.symm), htrig, hscope⟩
  · have hc : s.capturing = true := by rw [State.capturing, hbusy]; rfl
    rw [hc] at hx
    by_cases hsame : s.sameScope (s.ctlScope (val ||| 0x80000000)) = true
    · rw [if_pos hsame]
      exact ⟨s, hx.trans (congrArg Host.Outcome.next ((if_neg (by decide)).trans (if_pos hsame))), rfl, rfl, rfl⟩
    · rw [if_neg hsame]
      exact ⟨_, hx.trans (congrArg Host.Outcome.next ((if_neg (by decide)).trans (if_neg hsame))), rfl, rfl, rfl⟩

/-- A unit without answer becomes a placeholder, and the others stay (R356). -/
theorem dumpReadTimeout_placeholder {addr : Nat} {d : Dump} {s : State} (ha : addr < 2 ^ 33) (hb : s.rf (dumpPg + 0x104) 31 31 = 1)
    (hd : s.dump = some d) :
    ∃ t d', exec (.dumpReadTimeout addr) s = .next t ∧ t.dump = some d' ∧ (∀ u ∈ d'.units, u.addr = addr → u.silent = true ∧ u.words = [])
      ∧ (∀ u ∈ d.units, u.addr ≠ addr → u ∈ d'.units) ∧ t.regs = s.regs := by
  obtain ⟨us, hus⟩ : ∃ us, us = d.units.map (fun u => if u.addr = addr then ({ addr := addr, words := [], silent := true } : DumpUnit) else u) :=
    ⟨_, rfl⟩
  have hx : exec (.dumpReadTimeout addr) s = .next (s.withDump (some { d with units := us })) := by
    refine (if_pos (decide_eq_true ha)).trans ((if_neg (by omega)).trans ?_)
    rw [hd, hus]
    rfl
  refine ⟨_, _, hx, State.withDump_dump .., fun u hu hau => ?_, fun u hu hau => ?_, rfl⟩
  · obtain ⟨w, -, rfl⟩ := List.mem_map.1 (hus ▸ hu)
    split at hau
    next h => simp only [if_pos h, and_self]
    next h => exact absurd hau h
  · change u ∈ us
    rw [hus]
    exact List.mem_map.2 ⟨u, hu, if_neg hau⟩

/-- The state in which a capture shows that it is complete and that its stream runs (R357). -/
def State.dumpShown (s : State) (d : Dump) : State :=
  ((((s.wf (dumpPg + 0x104) 31 31 0).wf (dumpPg + 0x104) 30 30 1).wf (evtPg + 0x104) 30 30 1).wr (dumpPg + 0x10C) (BitVec.ofNat 32 d.len)).wr
    (dumpPg + 0x110) (BitVec.ofNat 32 (d.units.filter (·.silent)).length)

/-- A dump goes to a slot of DRAM (R357). -/
def State.dumpPut (s : State) (n : Nat) (d : Dump) : State :=
  ({ s with dump := some d, dumpSlots := Tbl.put s.dumpSlots n d, dumpNext := (n + 1) % 256 }).wf (dumpPg + 0x104) 15 8 n

theorem State.dumpEnd_slot {s : State} {d : Dump} (hd : s.dump = some d) (hb : s.rf (dumpPg + 0x104) 31 31 = 1) (hst : d.store = false) :
    s.dumpEnd = (s.dumpShown d).dumpPut (s.dumpShown d).dumpNext { d with slot := some (s.dumpShown d).dumpNext, sent := 0 } := by
  rw [State.dumpEnd, hd]
  refine (if_neg (by omega)).trans (if_neg ?_)
  rw [hst]
  decide

theorem State.dumpPut_shows (s : State) (n : Nat) (d : Dump) : (s.dumpPut n d).rf (dumpPg + 0x104) 31 31 = s.rf (dumpPg + 0x104) 31 31
    ∧ (s.dumpPut n d).rf (dumpPg + 0x104) 30 30 = s.rf (dumpPg + 0x104) 30 30 ∧ (s.dumpPut n d).rd (dumpPg + 0x10C) = s.rd (dumpPg + 0x10C)
    ∧ Tbl.find? (s.dumpPut n d).dumpSlots n = some d ∧ (s.dumpPut n d).dumpNext = (n + 1) % 256 ∧ (s.dumpPut n d).dumpWait = s.dumpWait := by
  rw [State.dumpPut]
  refine ⟨?_, ?_, ?_, ?_, ?_, ?_⟩
  · rw [State.rf_wf_field _ (by omega) (by omega)]
    rfl
  · rw [State.rf_wf_field _ (by omega) (by omega)]
    rfl
  · rw [State.rd_wf_other _ _ _ _ (by decide)]
    rfl
  · rw [State.wf_dumpSlots]
    exact Tbl.find?_put_same ..
  · rw [State.wf_dumpNext]
  · rw [State.wf_dumpWait]

theorem State.dumpShown_shows (s : State) (d : Dump) : (s.dumpShown d).rf (dumpPg + 0x104) 31 31 = 0
    ∧ (s.dumpShown d).rf (dumpPg + 0x104) 30 30 = 1 ∧ (s.dumpShown d).rd (dumpPg + 0x10C) = BitVec.ofNat 32 d.len
    ∧ (s.dumpShown d).dumpNext = s.dumpNext ∧ (s.dumpShown d).dumpWait = s.dumpWait := by
  have hrd : (s.dumpShown d).rd (dumpPg + 0x104) = ((s.wf (dumpPg + 0x104) 31 31 0).wf (dumpPg + 0x104) 30 30 1).rd (dumpPg + 0x104) := by
    rw [State.dumpShown, State.rd_wr_other _ _ (by decide), State.rd_wr_other _ _ (by decide), State.rd_wf_other _ _ _ _ (by decide)]
  refine ⟨?_, ?_, ?_, ?_, ?_⟩
  · rw [State.rf_of_rd hrd, State.rf_wf_field _ (by omega) (by omega), State.rf_wf_same _ (by omega)]
    rfl
  · rw [State.rf_of_rd hrd, State.rf_wf_same _ (by omega)]
    rfl
  · rw [State.dumpShown, State.rd_wr_other _ _ (by decide), State.rd_wr_same]
  · rw [State.dumpShown, State.wr_dumpNext, State.wr_dumpNext, State.wf_dumpNext, State.wf_dumpNext, State.wf_dumpNext]
  · rw [State.dumpShown, State.wr_dumpWait, State.wr_dumpWait, State.wf_dumpWait, State.wf_dumpWait, State.wf_dumpWait]

/-- A capture that is complete goes to the next slot, and its stream starts (R357). -/
theorem dumpComplete_stores {d : Dump} {s : State} (hb : s.rf (dumpPg + 0x104) 31 31 = 1) (hd : s.dump = some d) (hw : s.dumpWait = [])
    (hst : d.store = false) :
    ∃ t d', exec .dumpComplete s = .next t ∧ t.rf (dumpPg + 0x104) 31 30 = 1 ∧ t.rd (dumpPg + 0x10C) = BitVec.ofNat 32 d.len
      ∧ Tbl.find? t.dumpSlots s.dumpNext = some d' ∧ d'.units = d.units ∧ d'.seq = d.seq ∧ t.dumpNext = (s.dumpNext + 1) % 256 := by
  have hc : s.capturing = true := by rw [State.capturing, hb]; rfl
  have hx : exec .dumpComplete s = .next (s.dumpEnd.withDumpWait []) := by
    change execDumpComplete s = _
    rw [execDumpComplete, hc, hw]
    rfl
  rw [State.dumpEnd_slot hd hb hst] at hx
  obtain ⟨h31, h30, hlen, hnext, -⟩ := s.dumpShown_shows d
  rw [hnext] at hx
  obtain ⟨p31, p30, plen, pslot, pnext, -⟩ := (s.dumpShown d).dumpPut_shows s.dumpNext { d with slot := some s.dumpNext, sent := 0 }
  generalize (s.dumpShown d).dumpPut s.dumpNext { d with slot := some s.dumpNext, sent := 0 } = u at hx p31 p30 plen pslot pnext
  refine ⟨_, { d with slot := some s.dumpNext, sent := 0 }, hx, ?_, ?_, ?_, rfl, rfl, ?_⟩
  · rw [State.rf_of_rd (State.rd_withDumpWait ..), State.rf, fld_top_two]
    change u.rf (dumpPg + 0x104) 31 31 * 2 + u.rf (dumpPg + 0x104) 30 30 = 1
    rw [p31, p30, h31, h30]
  · rw [State.rd_withDumpWait, plen, hlen]
  · rw [State.withDumpWait_dumpSlots, pslot]
  · rw [State.withDumpWait_dumpNext, pnext]

/-! ### The bytes of a dump, and its stream (R422, R423) -/

theorem flatMap_length_const {α β : Type} {k : Nat} (f : α → List β) (hf : ∀ a, (f a).length = k) (l : List α) :
    (l.flatMap f).length = k * l.length := by
  induction l with
  | nil => rfl
  | cons a l ih =>
    rw [List.flatMap_cons, List.length_append, ih, hf, List.length_cons, Nat.mul_succ, Nat.add_comm]

theorem DumpUnit.bytes_length (u : DumpUnit) : u.bytes.length = u.size := by
  simp only [DumpUnit.bytes, DumpUnit.size, List.length_append, bytesLE_length,
    flatMap_length_const (k := 4) (fun w : Word => bytesLE 4 w.toNat) (fun _ => bytesLE_length ..),
    flatMap_length_const (k := 128) rowBytes (fun _ => bytesLE_length ..)]

theorem sum_sizes (n : Nat) (us : List DumpUnit) : us.foldl (fun n u => n + u.size) n = n + (us.flatMap DumpUnit.bytes).length := by
  induction us generalizing n with
  | nil => rfl
  | cons u us ih =>
    rw [List.foldl_cons, ih, List.flatMap_cons, List.length_append, DumpUnit.bytes_length, Nat.add_assoc]

theorem Dump.bytes_length (d : Dump) : d.bytes.length = d.len := by
  have hlen : d.len = 64 + (d.units.flatMap DumpUnit.bytes).length := by rw [Dump.len, sum_sizes, Nat.zero_add]
  rw [hlen, Dump.bytes]
  generalize crc32c (d.raw 0) = crc
  simp only [Dump.raw, List.length_append, bytesLE_length, List.length_replicate]

/-- The stream of a dump goes out 1,024 B at a time (R422). -/
theorem dumpChunkSend_sends {d : Dump} {s : State} (hd : s.dump = some d) (hrun : s.rf (dumpPg + 0x104) 30 30 = 1) (hst : s.streams = true)
    (hl : s.log.length < 44) (hleft : d.sent + 1024 < d.len) :
    ∃ t bytes, exec .dumpChunkSend s = .next t ∧ t.out = s.out ++ [.datagram s.udpHead 2 d.seq d.sent bytes] ∧ bytes.length = 16 + 1024
      ∧ t.dump = some { d with sent := d.sent + 1024 } := by
  have hn : min 1024 (d.len - d.sent) = 1024 := by omega
  have hx : exec .dumpChunkSend s = .next ((s.sendDatagram 2 1024 d.seq d.sent (((d.bytes.drop d.sent).take 1024).map (BitVec.ofNat 8))).withDump
      (some { d with sent := d.sent + 1024 })) := by
    change execDumpChunkSend s = _
    rw [execDumpChunkSend, hd]
    refine (if_neg ?_).trans ?_
    · rw [hrun, hst]
      simp
      omega
    · rw [hn]
      exact congrArg Host.Outcome.next (if_pos hleft)
  obtain ⟨bytes, hout, hlen⟩ := s.sendDatagram_sends 2 1024 d.seq d.sent (((d.bytes.drop d.sent).take 1024).map (BitVec.ofNat 8))
  refine ⟨_, bytes, hx, hout, ?_, State.withDump_dump ..⟩
  rw [hlen, List.length_map, List.length_take, List.length_drop, Dump.bytes_length]
  omega

/-- DUMP_RESEND keeps its slot number, and streams the dump of the slot when nothing is in progress (R423). -/
theorem dumpResend_rules {ag : Agent} {val : Word} {s : State} (hmay : s.mayWrite ag (evtPg + 0x12C)) :
    (s.rf (dumpPg + 0x104) 31 30 ≠ 0 → ∃ t, exec (.dumpResend ag val) s = .next t ∧ t.resend = some (fld val 7 0) ∧ t.dump = s.dump)
      ∧ (s.rf (dumpPg + 0x104) 31 30 = 0 → ∀ d, Tbl.find? s.dumpSlots (fld val 7 0) = some d →
        ∃ t, exec (.dumpResend ag val) s = .next t ∧ t.dump = some { d with sent := 0 } ∧ t.rf (dumpPg + 0x104) 30 30 = 1) := by
  have h7 : fld (val ||| 0x80000000) 7 0 = fld val 7 0 := fld_go val (by decide)
  obtain ⟨u, hu⟩ : ∃ u, u = s.wf (evtPg + 0x12C) 7 0 (fld val 7 0) := ⟨_, rfl⟩
  have hx : exec (.dumpResend ag val) s = .next (if u.rf (dumpPg + 0x104) 31 30 ≠ 0 then { u with resend := some (fld val 7 0) }
      else u.resendSlot (fld val 7 0)) := by
    change Host.Outcome.next (s.ifAdmitted ag (evtPg + 0x12C) (fun s => s.dumpResend (val ||| 0x80000000))) = _
    rw [State.ifAdmitted_may hmay, State.dumpResend, fld_go_bit, h7, hu]
    rfl
  have hrf : u.rf (dumpPg + 0x104) 31 30 = s.rf (dumpPg + 0x104) 31 30 := by rw [hu, State.rf_wf_other _ (by decide)]
  have hdump : u.dump = s.dump := by rw [hu, State.wf_dump]
  have hslots : u.dumpSlots = s.dumpSlots := by rw [hu, State.wf_dumpSlots]
  rw [hrf] at hx
  refine ⟨fun hbusy => ?_, fun hidle d hd => ?_⟩
  · rw [if_pos hbusy] at hx
    exact ⟨_, hx, rfl, hdump⟩
  · rw [if_neg (not_not_intro hidle)] at hx
    have hslot : u.resendSlot (fld val 7 0)
        = ((u.withDump (some { d with sent := 0 })).wf (dumpPg + 0x104) 30 30 1).wf (evtPg + 0x104) 30 30 1 := by
      simp only [State.resendSlot, hslots, hd, State.withDump]
    rw [hslot] at hx
    refine ⟨_, hx, ?_, ?_⟩
    · rw [State.wf_dump, State.wf_dump, State.withDump_dump]
    · rw [State.rf_wf_other _ (by decide), State.rf_wf_same _ (by omega)]
      rfl

/-- Settles O56: each event of a capture and its stream, by what it writes; the bytes of a dump are as many as its length says. -/
theorem dumpsCaptureAndStream : Obligations.DumpsCaptureAndStream := by
  unfold Obligations.DumpsCaptureAndStream
  exact ⟨fun ag val silent s hs hmay hsc => dumpCtlGo_rules hs hmay hsc, fun addr d s ha hb hd => dumpReadTimeout_placeholder ha hb hd,
    fun d s hb hd hw hst => dumpComplete_stores hb hd hw hst, fun d s hd hrun hst hl hleft => dumpChunkSend_sends hd hrun hst hl hleft,
    fun ag val s hmay => dumpResend_rules hmay⟩

end Sys2Proof.Machine

/-! Management messages and firmware update (R385, R415 to R418). -/

namespace Sys2Proof.Machine

/-! ### MCTP units and answers (R415) -/

/-- Units of 64 B, enough of them, hold all bytes (R415). -/
theorem cutUnits_flatten (n : Nat) (l : List (BitVec 8)) (h : l.length ≤ 64 * n) : (cutUnits n l).flatten = l := by
  induction n generalizing l with
  | zero =>
    have hl : l = [] := List.eq_nil_of_length_eq_zero (by omega)
    rw [hl]
    rfl
  | succ n ih =>
    rw [cutUnits, List.flatten_cons, ih _ (by rw [List.length_drop]; omega), List.take_append_drop]

theorem cutUnits_length (n : Nat) (l : List (BitVec 8)) : ∀ u ∈ cutUnits n l, u.length ≤ 64 := by
  induction n generalizing l with
  | zero => exact fun u hu => absurd hu List.not_mem_nil
  | succ n ih =>
    intro u hu
    rw [cutUnits] at hu
    obtain rfl | hu := List.mem_cons.1 hu
    · rw [List.length_take]
      omega
    · exact ih _ u hu

theorem mctpUnits_rules (l : List (BitVec 8)) : (mctpUnits l).flatten = l ∧ ∀ u ∈ mctpUnits l, u.length ≤ 64 :=
  ⟨cutUnits_flatten _ l (by omega), cutUnits_length _ l⟩

/-- What the module has sent once it has answered an exchange. -/
def State.outReplied (s : State) (n : Nat) (vals : List Nat) : List Out := s.out ++ [.reply n (mctpUnits (Config.pldmAnswer n vals))]

section
variable (s : State) (n : Nat) (vals : List Nat)

theorem State.mctpReply_out : (s.mctpReply n vals).out = s.outReplied n vals := State.send_out ..
theorem State.mctpReply_regs : (s.mctpReply n vals).regs = s.regs := State.send_regs ..
theorem State.mctpReply_flash : (s.mctpReply n vals).flash = s.flash := State.send_flash ..
theorem State.mctpReply_update : (s.mctpReply n vals).update = s.update := State.send_update ..
theorem State.mctpReply_reserve : (s.mctpReply n vals).reserve = s.reserve := State.send_reserve ..

end

/-- The module takes its dynamic address (R415). -/
theorem State.setDynAddr_rules (s : State) {addr : Nat} (h : addr < 128) : (s.setDynAddr addr).rf i3cStat 31 24 = 128 + addr
    ∧ (s.setDynAddr addr).out = s.out ∧ ∀ a, a ≠ i3cStat → (s.setDynAddr addr).rd a = s.rd a := by
  have hsplit : ∀ w : Word, fld w 31 24 = fld w 31 31 * 128 + fld w 30 24 := fun w => by
    simp only [fld]
    omega
  rw [State.rf, hsplit]
  change (s.setDynAddr addr).rf i3cStat 31 31 * 128 + (s.setDynAddr addr).rf i3cStat 30 24 = 128 + addr ∧ _
  rw [State.setDynAddr, State.rf_wf_same _ (by omega), State.rf_wf_field _ (by omega) (by omega), State.rf_wf_same _ (by omega)]
  refine ⟨by omega, ?_, fun a ha => ?_⟩
  · rw [State.wf_out, State.wf_out]
  · rw [State.rd_wf_other _ _ _ _ ha, State.rd_wf_other _ _ _ _ ha]

section
variable {s : State} (hup : s.hearthUp = true)
include hup

/-- SETDASA to the static address and ENTDAA give the dynamic address (R415, R431). -/
theorem dynamicAddress_rules :
    (∀ addr, addr < 128 → ∀ c ∈ [Instr.setdasa (0x10 + s.rf (pwrPg + 0x118) 5 0) addr, Instr.entdaa addr],
        ∃ t, exec c s = .next t ∧ t.rf i3cStat 31 24 = 128 + addr ∧ t.out = s.out ∧ ∀ a, a ≠ i3cStat → t.rd a = s.rd a)
      ∧ ∀ static addr, static < 128 → addr < 128 → static ≠ 0x10 + s.rf (pwrPg + 0x118) 5 0 → exec (.setdasa static addr) s = .next s := by
  refine ⟨fun addr ha c hc => ⟨s.setDynAddr addr, ?_, s.setDynAddr_rules ha⟩, fun static addr hs ha hne => ?_⟩
  · obtain rfl | hc := List.mem_cons.1 hc
    · have hslot : s.rf (pwrPg + 0x118) 5 0 < 64 := fld_lt _ 5 0
      refine (if_pos (Bool.and_eq_true_iff.mpr ⟨decide_eq_true (by omega), decide_eq_true ha⟩)).trans ?_
      rw [State.ifHearth_up hup]
      exact congrArg Host.Outcome.next (if_pos rfl)
    · obtain rfl := List.mem_singleton.1 hc
      refine (if_pos (decide_eq_true ha)).trans ?_
      rw [State.ifHearth_up hup]
  · refine (if_pos (Bool.and_eq_true_iff.mpr ⟨decide_eq_true hs, decide_eq_true ha⟩)).trans ?_
    rw [State.ifHearth_up hup]
    exact congrArg Host.Outcome.next (if_neg hne)

/-- Set Endpoint ID (R415). -/
theorem setEndpointId_rules {eid : Nat} (h : eid < 256) :
    ∃ t, exec (.setEndpointId eid) s = .next t ∧ t.rf i3cStat 7 0 = eid ∧ t.out = s.outReplied 1 [eid] := by
  refine ⟨(s.wf i3cStat 7 0 eid).mctpReply 1 [eid], ?_, ?_, ?_⟩
  · refine (if_pos (decide_eq_true h)).trans ?_
    rw [State.ifHearth_up hup]
  · rw [State.rf_congr (State.mctpReply_regs ..), State.rf_wf_same _ (by omega), Nat.mod_eq_of_lt (by omega)]
  · rw [State.mctpReply_out, State.outReplied, State.wf_out]
    rfl

/-- A request that only asks is answered, and no register changes (R415, R416). -/
theorem ifHearth_answers (n : Nat) (vals : List Nat) :
    ∃ t, (Host.Outcome.next (s.ifHearth (fun s => s.mctpReply n vals)) : Host.Outcome State Fault Refusal) = .next t ∧ t.regs = s.regs
      ∧ t.out = s.outReplied n vals :=
  ⟨_, congrArg Host.Outcome.next (State.ifHearth_up hup _), State.mctpReply_regs .., State.mctpReply_out ..⟩

/-- A sensor answers with the value held at the last boundary (R416). -/
theorem sensorRead_answers {id : Nat} (h1 : 1 ≤ id) (h7 : id ≤ 7) : ∃ t, exec (.sensorRead id) s = .next t ∧ t.regs = s.regs
    ∧ t.out = s.outReplied 6 [id, (BitVec.ofInt 32 (Tbl.get 0 s.pow.held id)).toNat] := by
  have hs : s.sensor id = some (BitVec.ofInt 32 (Tbl.get 0 s.pow.held id)).toNat := (if_neg (by omega)).trans (if_pos ⟨h1, h7⟩)
  refine ⟨s.mctpReply 6 (id :: (s.sensor id).toList), (if_pos (decide_eq_true (by omega))).trans ?_, State.mctpReply_regs .., ?_⟩
  · rw [State.ifHearth_up hup]
  · rw [State.mctpReply_out, hs]
    rfl

end

/-! ### Firmware update (R385, R417, R418) -/

/-- A state with this update in progress. -/
def State.withUpdate (s : State) (u : Option Update) : State := { s with update := u }

section
variable (s : State) (u : Option Update)
theorem State.withUpdate_update : (s.withUpdate u).update = u := rfl
theorem State.withUpdate_flash : (s.withUpdate u).flash = s.flash := rfl
theorem State.withUpdate_regs : (s.withUpdate u).regs = s.regs := rfl
theorem State.withUpdate_out : (s.withUpdate u).out = s.out := rfl
theorem State.withUpdate_reserve : (s.withUpdate u).reserve = s.reserve := rfl
end

theorem tbl_find?_filter_none {β : Type} {f : Nat → Bool} {k : Nat} (h : f k = false) (m : Tbl β) :
    Tbl.find? (m.filter (fun p => f p.1)) k = none := by
  induction m with
  | nil => rfl
  | cons p m ih =>
    obtain ⟨j, x⟩ := p
    by_cases hj : f j = true
    · have hne : j ≠ k := fun e => by rw [e, h] at hj; cases hj
      rw [List.filter_cons, if_pos hj, Tbl.find?, if_neg hne, ih]
    · rw [List.filter_cons, if_neg hj, ih]

section
variable {s : State} (hup : s.hearthUp = true)
include hup

/-- An update starts without what an earlier one left (R418). -/
theorem requestUpdate_starts (hno : s.update = none) :
    ∃ t, exec .requestUpdate s = .next t ∧ t.update = some {} ∧ t.regs = s.regs ∧ t.flash.verified = []
      ∧ (∀ c, c ∉ s.flash.activated → Tbl.find? t.flash.fwNew c = none) ∧ t.flash.fw = s.flash.fw := by
  refine ⟨(s.discardCopies.withUpdate (some {})).mctpReply 8 [0], ?_, rfl, rfl, rfl, fun c hc => ?_, rfl⟩
  · change execRequestUpdate s = _
    rw [execRequestUpdate, State.ifHearth_up hup, hno]
    rfl
  · refine tbl_find?_filter_none (f := fun k => s.flash.activated.contains k) ?_ s.flash.fwNew
    simpa using hc

/-- Nothing is activated outside an update (R418). -/
theorem activateFirmware_outside (hno : s.update = none) : ∃ t, exec .activateFirmware s = .next t ∧ t.flash = s.flash ∧ t.update = none := by
  refine ⟨s.mctpReply 12 [notInUpdate], ?_, State.mctpReply_flash .., (State.mctpReply_update ..).trans hno⟩
  change execActivateFirmware s = _
  rw [execActivateFirmware, State.ifHearth_up hup, hno]

variable {u : Update} (hu : s.update = some u)
include hu

/-- One update at a time (R418). -/
theorem requestUpdate_refused : ∃ t, exec .requestUpdate s = .next t ∧ t.update = some u ∧ t.regs = s.regs ∧ t.flash = s.flash := by
  refine ⟨s.mctpReply 8 [alreadyInUpdate], ?_, (State.mctpReply_update ..).trans hu, State.mctpReply_regs .., State.mctpReply_flash ..⟩
  change execRequestUpdate s = _
  rw [execRequestUpdate, State.ifHearth_up hup, hu]

/-- Components 1 to 3 are accepted, in ROM recovery the first alone (R385, R417). -/
theorem passComponentTable_accepts {comps : List Nat} (hc : ∀ c ∈ comps, c < 65536) :
    ∃ t u', exec (.passComponentTable comps) s = .next t ∧ t.update = some u' ∧ ∀ c, (c ∈ u'.comps ↔ c ∈ comps ∧ s.mayUpdate c = true) := by
  obtain ⟨w, hw⟩ : ∃ w, w = s.withUpdate (some { u with comps := comps.filter (fun c => s.mayUpdate c) }) := ⟨_, rfl⟩
  have hx : exec (.passComponentTable comps) s = .next (w.mctpReply 9 (0 :: comps.map (fun c => bit (w.mayUpdate c)))) := by
    refine (if_pos (List.all_eq_true.2 fun c h => decide_eq_true (hc c h))).trans ?_
    rw [State.ifHearth_up hup, hu, hw]
    rfl
  refine ⟨_, { u with comps := comps.filter (fun c => s.mayUpdate c) }, hx, ?_, fun c => List.mem_filter⟩
  rw [State.mctpReply_update, hw, State.withUpdate_update]

/-- A transfer begins by giving up the inactive copy of its component, and the module asks for data (R417). -/
theorem updateComponent_begins {c : Nat} (hc : c < 65536) (hin : u.comps.contains c = true) :
    ∃ t u', exec (.updateComponent c) s = .next t ∧ t.update = some u' ∧ u'.current = some c ∧ u'.data = [] ∧ Tbl.find? t.flash.fwNew c = none
      ∧ c ∉ t.flash.verified ∧ t.flash.fw = s.flash.fw
      ∧ t.out = s.outReplied 10 [0, 0] ++ [.reply 13 (mctpUnits (Config.pldmAnswer 13 [c, 0]))] := by
  obtain ⟨f, hf⟩ : ∃ f, f = { s.flash with
      fwNew := Tbl.erase s.flash.fwNew c, fwPrev := Tbl.erase s.flash.fwPrev c, verified := s.flash.verified.filter (· ≠ c)
      activated := s.flash.activated.filter (· ≠ c), assayPrev := if c = 3 then none else s.flash.assayPrev } := ⟨_, rfl⟩
  have hx : exec (.updateComponent c) s
      = .next ((((s.withUpdate (some { u with current := some c, data := [] })).withFlash f).mctpReply 10 [0, 0]).mctpReply 13 [c, 0]) := by
    refine (if_pos (decide_eq_true hc)).trans ?_
    rw [State.ifHearth_up hup, hu, hf]
    refine congrArg Host.Outcome.next (if_neg ?_)
    rw [hin]
    decide
  refine ⟨_, { u with current := some c, data := [] }, hx, rfl, rfl, rfl, ?_, ?_, ?_, rfl⟩ <;>
    rw [State.mctpReply_flash, State.mctpReply_flash, State.withFlash_flash, hf]
  · exact Tbl.find?_erase_same ..
  · simp

/-- Data gather until the last (R417). -/
theorem firmwareData_gathers {c : Nat} {img : Image} {env : BootEnv} (he : env.wf = true) (hc : u.current = some c) :
    ∃ t u', exec (.requestFirmwareData false img env) s = .next t ∧ t.update = some u' ∧ u'.data = u.data ++ img.data ∧ t.flash = s.flash
      ∧ t.out = s.outReplied 13 [c, (u.data ++ img.data).length] := by
  refine ⟨(s.withUpdate (some { u with data := u.data ++ img.data })).mctpReply 13 [c, (u.data ++ img.data).length], _,
    (if_pos he).trans ?_, State.mctpReply_update .., rfl, State.mctpReply_flash .., State.mctpReply_out ..⟩
  rw [State.ifHearth_up hup, hu]
  simp only [hc]
  rfl

/-- The state in which the last data of a component have come, and what they say is answered (R417). -/
def State.lastData (s : State) (u : Update) (r : Nat) : State :=
  ((s.withUpdate (some { u with current := none, data := [] })).mctpReply 14 [0]).mctpReply 11 [r]

omit hup hu in
theorem State.lastData_keeps (r : Nat) : (s.lastData u r).flash = s.flash
    ∧ (s.lastData u r).update = some { u with current := none, data := [] } ∧ (s.lastData u r).aon = s.aon := ⟨rfl, rfl, rfl⟩

/-- The last data are verified: what fails is not kept, and what does not is written to the inactive copy (R417). -/
theorem firmwareData_verified {c : Nat} {img : Image} {env : BootEnv} (he : env.wf = true) (hc : u.current = some c) :
    (s.verifyResult c { img with data := u.data ++ img.data } ≠ 0 →
        ∃ t u', exec (.requestFirmwareData true img env) s = .next t ∧ t.update = some u' ∧ u'.current = none ∧ t.flash = s.flash)
      ∧ (s.verifyResult c { img with data := u.data ++ img.data } = 0 → s.aon.recovery = false →
        ∃ t, exec (.requestFirmwareData true img env) s = .next t ∧ c ∈ t.flash.verified
          ∧ Tbl.find? t.flash.fwNew c = some { img with data := u.data ++ img.data }) := by
  obtain ⟨m, hm⟩ : ∃ m, m = { img with data := u.data ++ img.data } := ⟨_, rfl⟩
  rw [← hm]
  obtain ⟨w, hw⟩ : ∃ w, w = s.lastData u (s.verifyResult c m) := ⟨_, rfl⟩
  obtain ⟨hflash, hupd, haon⟩ := State.lastData_keeps (s := s) (u := u) (s.verifyResult c m)
  rw [← hw] at hflash hupd haon
  have hx : exec (.requestFirmwareData true img env) s = .next (if s.verifyResult c m ≠ 0 then w
      else if w.aon.recovery ∧ w.aon.powered then ((w.modFlash (fun f => { f with fw := Tbl.put f.fw 1 m })).mctpReply 15 [0]).cold env false
      else w.applied c m) := by
    refine (if_pos he).trans ?_
    rw [State.ifHearth_up hup, hu, hw, hm]
    simp only [hc]
    rfl
  refine ⟨fun hbad => ?_, fun hok hrec => ?_⟩
  · rw [if_pos hbad] at hx
    exact ⟨w, _, hx, hupd, rfl, hflash⟩
  · rw [if_neg (not_not_intro hok), if_neg (by rw [haon, hrec]; exact fun h => absurd h.1 (by decide))] at hx
    refine ⟨_, hx, ?_, ?_⟩ <;> rw [State.applied, State.mctpReply_flash]
    · exact List.mem_append_right _ List.mem_cons_self
    · exact Tbl.find?_put_same ..

/-- What activation makes of the flash: what is verified waits for the next bring-up (R417). -/
def Flash.activating (f : Flash) : Flash :=
  { f with verified := [], activated := (f.activated ++ f.verified.filter (fun c => decide (c ≠ 3))).dedup }

omit hup hu in
theorem State.newSet_shows (w : State) (m : Image) : (w.newSet m).flash.verified = w.flash.verified
    ∧ (w.newSet m).flash.activated = w.flash.activated ∧ (w.newSet m).flash.assay = some m ∧ (w.newSet m).flash.assayPrev = w.flash.assay
    ∧ (w.aon.powered = true → (w.newSet m).reserve = (m :: w.reserve).take 2) := by
  simp only [State.newSet]
  split
  · exact ⟨rfl, rfl, rfl, rfl, fun _ => rfl⟩
  next h => exact ⟨rfl, rfl, rfl, rfl, fun hp => absurd hp h⟩

/-- Activation ends the update and makes verified copies active (R417). -/
theorem activateFirmware_activates :
    ∃ t, exec .activateFirmware s = .next t ∧ t.update = none ∧ t.flash.verified = []
      ∧ (∀ c ∈ s.flash.verified, c ≠ 3 → c ∈ t.flash.activated)
      ∧ ∀ m, 3 ∈ s.flash.verified → Tbl.find? s.flash.fwNew 3 = some m → t.flash.assay = some m ∧ t.flash.assayPrev = s.flash.assay
        ∧ (s.aon.powered = true → t.reserve = (m :: s.reserve).take 2) := by
  obtain ⟨w, hw⟩ : ∃ w, w = s.withFlash s.flash.activating := ⟨_, rfl⟩
  have hact : ∀ c ∈ s.flash.verified, c ≠ 3 → c ∈ w.flash.activated := fun c hc h3 => by
    rw [hw]
    exact List.mem_dedup.2 (List.mem_append_right _ (List.mem_filter.2 ⟨hc, decide_eq_true h3⟩))
  have hver : w.flash.verified = [] := by rw [hw]; rfl
  have hassay : w.flash.assay = s.flash.assay := by rw [hw]; rfl
  have hres : w.reserve = s.reserve := by rw [hw]; rfl
  have haon : w.aon = s.aon := by rw [hw]; rfl
  by_cases hnew : ∃ m, s.flash.verified.contains 3 = true ∧ Tbl.find? s.flash.fwNew 3 = some m
  · obtain ⟨m, h3, hm⟩ := hnew
    have hx : exec .activateFirmware s = .next (((w.newSet m).withUpdate none).mctpReply 12 [0]) := by
      change execActivateFirmware s = _
      rw [execActivateFirmware, State.ifHearth_up hup, hu, hw]
      change Host.Outcome.next (State.mctpReply (State.withUpdate (match s.flash.verified.contains 3, Tbl.find? s.flash.fwNew 3 with
        | true, some m => State.newSet (s.withFlash s.flash.activating) m
        | _, _ => s.withFlash s.flash.activating) none) 12 [0]) = _
      rw [h3, hm]
    obtain ⟨hv, ha, hset, hprev, hr⟩ := w.newSet_shows m
    refine ⟨_, hx, rfl, ?_, fun c hc hne => ?_, fun m' _ hm' => ?_⟩
    · rw [State.mctpReply_flash, State.withUpdate_flash, hv, hver]
    · rw [State.mctpReply_flash, State.withUpdate_flash, ha]
      exact hact c hc hne
    · obtain rfl := Option.some.inj (hm.symm.trans hm')
      rw [State.mctpReply_flash, State.withUpdate_flash, State.mctpReply_reserve, State.withUpdate_reserve, hset, hprev, hassay]
      refine ⟨rfl, rfl, fun hp => ?_⟩
      rw [hr (haon ▸ hp), hres]
  · have hx : exec .activateFirmware s = .next ((w.withUpdate none).mctpReply 12 [0]) := by
      change execActivateFirmware s = _
      rw [execActivateFirmware, State.ifHearth_up hup, hu, hw]
      change Host.Outcome.next (State.mctpReply (State.withUpdate (match s.flash.verified.contains 3, Tbl.find? s.flash.fwNew 3 with
        | true, some m => State.newSet (s.withFlash s.flash.activating) m
        | _, _ => s.withFlash s.flash.activating) none) 12 [0]) = _
      cases h3 : s.flash.verified.contains 3 with
      | false => rfl
      | true =>
        cases hm : Tbl.find? s.flash.fwNew 3 with
        | none => rfl
        | some m => exact absurd ⟨m, h3, hm⟩ hnew
    refine ⟨_, hx, rfl, ?_, fun c hc hne => ?_, fun m h3 hm => absurd ⟨m, List.contains_iff_mem.2 h3, hm⟩ hnew⟩
    · rw [State.mctpReply_flash, State.withUpdate_flash, hver]
    · rw [State.mctpReply_flash, State.withUpdate_flash]
      exact hact c hc hne

end

/-- Settles O58: each message of the management channel, while a hearth serves, by what it answers and what it writes. -/
theorem managementMessages : Obligations.ManagementMessages := by
  unfold Obligations.ManagementMessages
  refine ⟨fun s hup => ⟨(dynamicAddress_rules hup).1, (dynamicAddress_rules hup).2, fun eid h => setEndpointId_rules hup h,
      ifHearth_answers hup .., ifHearth_answers hup .., ifHearth_answers hup .., fun h hh => ?_,
      fun id h1 h7 => sensorRead_answers hup h1 h7, fun c hc => ?_, mctpUnits_rules⟩,
    fun s hup => ⟨fun hno => ⟨requestUpdate_starts hup hno, activateFirmware_outside hup hno⟩, fun u hu => ⟨requestUpdate_refused hup hu,
      fun comps hc => passComponentTable_accepts hup hu hc, fun c hc hin => updateComponent_begins hup hu hc hin,
      fun c img env he hc => ⟨firmwareData_gathers hup hu he hc, firmwareData_verified hup hu he hc⟩, activateFirmware_activates hup hu⟩⟩⟩
  · obtain ⟨t, hx, ht⟩ := ifHearth_answers hup 5 [h]
    exact ⟨t, (if_pos (decide_eq_true hh)).trans hx, ht⟩
  · obtain ⟨t, hx, ht⟩ := ifHearth_answers hup 7 [c]
    exact ⟨t, (if_pos (decide_eq_true hc)).trans hx, ht⟩

end Sys2Proof.Machine

/-! What the supplies and the resets are, and what leaves them as they are. -/

namespace Sys2Proof.Machine

/-- What the supplies and the resets of the module are: the always-on domain, what is held in reset, the resets in progress,
open pages of memory, the power controller, the shutdown record, and the cores to be healed. -/
def State.bones (s : State) : Aon × List Nat × Bool × List RstJob × Tbl Nat × Power × Option ShutRec × List (Nat × Nat × Bool) :=
  (s.aon, s.held, s.memHeld, s.rst, s.openPages, s.pow, s.flash.shut, s.heals)

/-- The bones of a state built field by field. -/
theorem State.bones_mk (regs shadow gen cores supp suppNext cap win winPar recQ net arrived mem dbg perturbed nextXfer xfers reqs memWrs class2 flows
    ceBursts
      openPages hotDevs patrolAt xbarRR netRR vcCov repairs retirePend dramBrand brandBase dramUpset slices sliceUpset sliceBrand sliceZero qa qb
      vecHeld cache engines links posted live barriers girth0 girth1 keys treeFaults combFaults out badLinks netDegrade netPend held memHeld aon
      flash pow asy asyTurn asyTgt asyFrom asyAt reserve heals cfgLost rst dump dumpWait dumpSlots dumpNext resend log recent streamSeq update time
      entropyBad epRetire nonceCtr jtag freeCtr pending) :
    State.bones ⟨regs, shadow, gen, cores, supp, suppNext, cap, win, winPar, recQ, net, arrived, mem, dbg, perturbed, nextXfer, xfers, reqs, memWrs,
        class2,
      flows, ceBursts, openPages, hotDevs, patrolAt, xbarRR, netRR, vcCov, repairs, retirePend, dramBrand, brandBase, dramUpset, slices,
      sliceUpset, sliceBrand, sliceZero, qa, qb, vecHeld, cache, engines, links, posted, live, barriers, girth0, girth1, keys, treeFaults,
      combFaults, out, badLinks, netDegrade, netPend, held, memHeld, aon, flash, pow, asy, asyTurn, asyTgt, asyFrom, asyAt, reserve, heals,
      cfgLost, rst, dump, dumpWait, dumpSlots, dumpNext, resend, log, recent, streamSeq, update, time, entropyBad, epRetire, nonceCtr, jtag,
      freeCtr, pending⟩ = (aon, held, memHeld, rst, openPages, pow, flash.shut, heals) := id rfl

/-- The bones of a state, read from its fields. -/
theorem State.bones_eta (s : State) : (s.aon, s.held, s.memHeld, s.rst, s.openPages, s.pow, s.flash.shut, s.heals) = s.bones := id rfl

/-- A fold of steps that each keep the bones keeps them. -/
theorem State.foldl_bones {α : Type} {f : State → α → State} (h : ∀ t x, (f t x).bones = t.bones) (l : List α) (s : State) :
    (l.foldl f s).bones = s.bones := by
  induction l generalizing s with
  | nil => rfl
  | cons x r ih => exact (ih _).trans (h s x)
theorem State.wr_bones (s : State) (a : Nat) (v : Word) : (s.wr a v).bones = s.bones := by
  simp only [State.wr, State.bones_mk, State.bones_eta]

theorem State.wf_bones (s : State) (a : Nat) (hi : Nat) (lo : Nat) (v : Nat) : (s.wf a hi lo v).bones = s.bones := by
  simp only [State.wf, State.wr_bones]

theorem State.bump_bones (s : State) (a : Nat) (hi : Nat) (lo : Nat) (n : Nat) : (s.bump a hi lo n).bones = s.bones := by
  simp only [State.bump, State.wf_bones]

theorem State.fresh_bones (s : State) : (s.fresh).2.bones = s.bones := by
  simp only [State.fresh, State.bones_mk, State.bones_eta]

theorem State.modFlash_bones (s : State) {f : Flash → Flash} (hf : ∀ x, (f x).shut = x.shut) : (s.modFlash f).bones = s.bones := by
  simp only [State.modFlash, State.bones_mk, hf, State.bones_eta]

theorem State.discardCopies_bones (s : State) : (s.discardCopies).bones = s.bones := by
  simp only [State.discardCopies, State.modFlash_bones, implies_true]

theorem State.cancelUpdate_bones (s : State) : (s.cancelUpdate).bones = s.bones := by
  unfold State.cancelUpdate
  split <;> simp only [State.bones_mk, State.bones_eta, State.discardCopies_bones]

theorem State.wrByte_bones (s : State) (a : Nat) (v : Nat) : (s.wrByte a v).bones = s.bones := by
  simp only [State.wrByte, State.wf_bones]

theorem State.clearEntries_bones (s : State) (c : Nat) : (s.clearEntries c).bones = s.bones := by
  unfold State.clearEntries
  refine State.foldl_bones (fun t x => ?_) _ _
  simp only [State.wrByte_bones]

theorem State.setOwner_bones (s : State) (region : Nat) (page : Nat) (v : Nat) : (s.setOwner region page v).bones = s.bones := by
  simp only [State.setOwner, State.wrByte_bones]

theorem State.pendPage_bones (s : State) (region : Nat) (page : Nat) : (s.pendPage region page).bones = s.bones := by
  simp only [State.pendPage, State.bump_bones, State.setOwner_bones]

theorem State.pendCtx_bones (s : State) (c : Nat) : (s.pendCtx c).bones = s.bones := by
  unfold State.pendCtx
  refine State.foldl_bones (fun t x => ?_) _ _
  simp only [State.pendPage_bones]

theorem State.dropTraffic_bones (s : State) (gp : Nat) : (s.dropTraffic gp).bones = s.bones := by
  simp only [State.dropTraffic]
  split <;> simp only [State.bones_mk, State.bones_eta, State.wf_bones]

theorem State.setAsy_bones (s : State) (gp : Nat) (x : AsyCore) : (s.setAsy gp x).bones = s.bones := by
  simp only [State.setAsy, State.bones_mk, State.bones_eta]

theorem State.modAsy_bones (s : State) (gp : Nat) (f : AsyCore → AsyCore) : (s.modAsy gp f).bones = s.bones := by
  simp only [State.modAsy, State.setAsy_bones]

theorem State.setCore_bones (s : State) (gp : Nat) (c : Core) : (s.setCore gp c).bones = s.bones := by
  simp only [State.setCore, State.bones_mk, State.bones_eta]

theorem State.modCore_bones (s : State) (gp : Nat) (f : Core → Core) : (s.modCore gp f).bones = s.bones := by
  simp only [State.modCore, State.setCore_bones]

theorem State.asyRestore_bones (s : State) (gp : Nat) : (s.asyRestore gp).bones = s.bones := by
  simp only [State.asyRestore, State.modCore_bones, State.setAsy_bones]

theorem State.abandonSegment_bones (s : State) (gp : Nat) : (s.abandonSegment gp).bones = s.bones := by
  unfold State.abandonSegment
  split <;> simp only [State.asyRestore_bones, State.modAsy_bones]

theorem State.dropArrival_bones (s : State) (i : Nat) : (s.dropArrival i).bones = s.bones := by
  simp only [State.dropArrival, State.bones_mk, State.bones_eta]

theorem State.setBkl_bones (s : State) (i : Nat) (n : Nat) (b : Bool) : (s.setBkl i n b).bones = s.bones := by
  simp only [State.setBkl, State.wf_bones]

theorem State.dropWaiter_bones (s : State) (gp : Nat) : (s.dropWaiter gp).bones = s.bones := by
  unfold State.dropWaiter
  split <;> simp only [State.setBkl_bones, State.modCore_bones]

theorem State.wr64_bones (s : State) (a : Nat) (v : Nat) : (s.wr64 a v).bones = s.bones := by
  simp only [State.wr64, State.wr_bones]

theorem State.writeCapture_bones (s : State) (pg : Nat) (bitNo : Nat) (sev : Nat) (cls : Nat) (cyc : Nat) (synd : BitVec 64) :
    (s.writeCapture pg bitNo sev cls cyc synd).bones = s.bones := by
  simp only [State.writeCapture, State.bones_mk, State.bones_eta, State.wr64_bones, State.wr_bones]

theorem State.capture_bones (s : State) (pg : Nat) (bitNo : Nat) (sev : Nat) (cls : Nat) (cyc : Nat) (synd : BitVec 64) :
    (s.capture pg bitNo sev cls cyc synd).bones = s.bones := by
  simp only [State.capture]
  repeat' split
  all_goals simp only [State.writeCapture_bones]

theorem State.errUp_bones (s : State) (pg : Nat) (ue : Bool) : (s.errUp pg ue).bones = s.bones := by
  simp only [State.errUp, apply_ite State.bones, ite_self, State.wf_bones, State.bump_bones]

theorem State.countErr_bones (s : State) (pg : Nat) (bitNo : Nat) (sev : Nat) : (s.countErr pg bitNo sev).bones = s.bones := by
  simp only [State.countErr, apply_ite State.bones, ite_self, State.wf_bones, State.errUp_bones]

theorem State.suppMark_bones (s : State) (cyc : Nat) (pg : Nat) (cls : Nat) : (s.suppMark cyc pg cls).bones = s.bones := by
  unfold State.suppMark
  split <;> simp only [State.bones_mk, State.bones_eta]

theorem State.emit_bones (s : State) (r : Rec) : (s.emit r).bones = s.bones := by
  simp only [State.emit, State.bones_mk, State.bones_eta]

theorem State.emitCore_bones (s : State) (gp : Nat) (bitNo : Nat) (sev : Nat) (cls : Nat) (cyc : Nat) (synd : BitVec 64) :
    (s.emitCore gp bitNo sev cls cyc synd).bones = s.bones := by
  simp only [State.emitCore, apply_ite State.bones, ite_self, State.suppMark_bones, State.emit_bones]

theorem State.coreErr_bones (s : State) (gp : Nat) (sev : Nat) (cls : Nat) (cyc : Nat) (synd : BitVec 64) :
    (s.coreErr gp sev cls cyc synd).bones = s.bones := by
  simp only [State.coreErr, State.countErr_bones, State.emitCore_bones, State.capture_bones]

theorem State.brandFail_bones (s : State) (gp : Nat) (cyc : Nat) (ue : Bool) (synd : BitVec 64) : (s.brandFail gp cyc ue synd).bones = s.bones := by
  unfold State.brandFail
  split <;> simp only [State.bump_bones, State.coreErr_bones]

theorem State.outUnit_bones (s : State) (gp : Nat) (ring : Nat) (unit : Nat) (la : Option Nat) (b : Option Word) (ue : Bool) (rows : List Entry) :
    (s.outUnit gp ring unit la b ue rows).2.bones = s.bones := by
  unfold State.outUnit
  repeat' split
  all_goals simp only [State.brandFail_bones]

theorem State.finishPkt_bones (s : State) (gp : Nat) (p : OutPkt) : (s.finishPkt gp p).2.bones = s.bones := by
  simp only [State.finishPkt]
  repeat' split
  all_goals simp only [State.outUnit_bones]

theorem State.endPacket_bones (s : State) (gp : Nat) (p : OutPkt) : (s.endPacket gp p).bones = s.bones := by
  simp only [State.endPacket, State.bones_mk, State.bones_eta, State.finishPkt_bones]

theorem State.cutPackets_bones (s : State) (gp : Nat) : (s.cutPackets gp).bones = s.bones := by
  unfold State.cutPackets
  refine State.foldl_bones (fun t x => ?_) _ _
  simp only [State.endPacket_bones]

theorem State.dropBanks_bones (s : State) (gp : Nat) (loading : Bool) : (s.dropBanks gp loading).bones = s.bones := by
  unfold State.dropBanks
  split <;> simp only [State.wf_bones]

theorem State.clearCoreRegs_bones (s : State) (gp : Nat) (which : Nat → Bool) : (s.clearCoreRegs gp which).bones = s.bones := by
  simp only [State.clearCoreRegs, State.bones_mk, State.bones_eta]

theorem State.zeroCore_bones (s : State) (gp : Nat) (which : Nat → Bool) : (s.zeroCore gp which).bones = s.bones := by
  simp only [State.zeroCore, State.dropWaiter_bones, State.wf_bones, State.cutPackets_bones, State.modCore_bones, State.modAsy_bones,
      State.dropBanks_bones, State.clearCoreRegs_bones]

theorem State.zeroSlice_bones (s : State) (n : Nat) : (s.zeroSlice n).bones = s.bones := by
  simp only [State.zeroSlice, State.bones_mk, State.bones_eta, State.wf_bones, State.wr_bones]

theorem State.setCtxEng_bones (s : State) (c : Nat) (e : CtxEng) : (s.setCtxEng c e).bones = s.bones := by
  simp only [State.setCtxEng, State.bones_mk, State.bones_eta]

theorem State.releaseHalts_bones (s : State) (ctx : Nat) : (s.releaseHalts ctx).bones = s.bones := by
  unfold State.releaseHalts
  refine State.foldl_bones (fun t x => ?_) _ _
  split <;> simp only [State.modCore_bones]

theorem State.closeSession_bones (s : State) : (s.closeSession).bones = s.bones := by
  unfold State.closeSession
  repeat' split
  all_goals simp only [State.bones_mk, State.bones_eta, State.releaseHalts_bones]

theorem State.closeFor_bones (s : State) (ctx : Nat) : (s.closeFor ctx).bones = s.bones := by
  unfold State.closeFor
  repeat' split
  all_goals simp only [State.closeSession_bones]

theorem State.endCtx_bones (s : State) (c : Nat) : (s.endCtx c).bones = s.bones := by
  simp only [State.endCtx, State.bones_mk, State.bones_eta, State.closeFor_bones, State.wf_bones, State.setCtxEng_bones, State.wr_bones]

theorem State.clearPages_bones (s : State) (which : Loc → Bool) : (s.clearPages which).bones = s.bones := by
  simp only [State.clearPages, State.bones_mk, State.bones_eta]

theorem State.enableUnit_bones (s : State) (pg : Nat) : (s.enableUnit pg).bones = s.bones := by
  simp only [State.enableUnit, State.wf_bones]

theorem State.setKeys_bones (s : State) (gp : Nat) (key : Nat → BitVec 64) : (s.setKeys gp key).bones = s.bones := by
  simp only [State.setKeys, State.modCore_bones]

theorem State.seedKeys_bones (s : State) (gp : Nat) : (s.seedKeys gp).bones = s.bones := by
  simp only [State.seedKeys, State.setKeys_bones]

theorem State.freshKeys_bones (s : State) (gp : Nat) : (s.freshKeys gp).bones = s.bones := by
  unfold State.freshKeys
  split <;> simp only [State.bones_mk, State.bones_eta, State.wf_bones, State.bump_bones, State.setKeys_bones]

theorem State.zeroCoreDone_bones (s : State) (gp : Nat) : (s.zeroCoreDone gp).bones = s.bones := by
  simp only [State.zeroCoreDone]
  split <;> simp only [State.wf_bones, State.bump_bones, State.modCore_bones, State.seedKeys_bones, State.freshKeys_bones]

theorem State.zeroSliceDone_bones (s : State) (n : Nat) : (s.zeroSliceDone n).bones = s.bones := by
  simp only [State.zeroSliceDone, State.bones_mk, State.bones_eta, State.wf_bones, State.bump_bones]

theorem State.noteSlice_bones (s : State) (src : Nat) : (s.noteSlice src).bones = s.bones := by
  simp only [State.noteSlice, State.bones_mk, State.bones_eta]

theorem State.chipRec_bones (s : State) (pg : Nat) (sev : Nat) (cls : Nat) (cyc : Nat) (synd : BitVec 64) (ctx : optParam (Option Nat) none) :
    (s.chipRec pg sev cls cyc synd ctx).bones = s.bones := by
  unfold State.chipRec
  split <;> simp only [State.emit_bones]

theorem State.requestDrain_bones (s : State) (cause : Nat) (region : Nat) (block : Nat) (src : Nat) (cyc : Nat) :
    (s.requestDrain cause region block src cyc).bones = s.bones := by
  simp only [State.requestDrain, apply_ite State.bones, ite_self, State.bones_mk, State.bones_eta, State.chipRec_bones, State.wf_bones,
      State.noteSlice_bones]

theorem State.pendAll_bones (s : State) : (s.pendAll).bones = s.bones := by
  unfold State.pendAll
  refine State.foldl_bones (fun t x => ?_) _ _
  simp only [State.pendPage_bones]

theorem State.keepRetired_bones (s : State) (r : Nat × Nat) : (s.keepRetired r).bones = s.bones := by
  simp only [State.keepRetired]
  repeat' split
  all_goals simp only [State.bones_mk, State.bones_eta, State.setOwner_bones]

theorem State.repairRow_bones (s : State) (hppr : List (Nat × Nat)) (r : Nat × Nat) : (s.repairRow hppr r).bones = s.bones := by
  simp only [State.repairRow, apply_ite State.bones, ite_self, State.bump_bones, State.countErr_bones, State.requestDrain_bones,
      State.keepRetired_bones,
      State.capture_bones]

theorem State.unretire_bones (s : State) (r : Nat × Nat) : (s.unretire r).bones = s.bones := by
  simp only [State.unretire]
  split <;> simp only [State.bones_mk, State.bones_eta, State.setOwner_bones]

theorem State.dumpEnd_bones (s : State) : (s.dumpEnd).bones = s.bones := by
  unfold State.dumpEnd
  repeat' split
  all_goals simp only [State.bones_mk, State.bones_eta, State.wf_bones, State.wr_bones]

theorem State.send_bones (s : State) (o : Out) : (s.send o).bones = s.bones := by
  simp only [State.send, State.bones_mk, State.bones_eta]

theorem State.sendDatagram_bones (s : State) (kind : Nat) (count : Nat) (first : Nat) (offset : Nat) (payload : List (BitVec 8)) :
    (s.sendDatagram kind count first offset payload).bones = s.bones := by
  simp only [State.sendDatagram, State.bones_mk, State.bones_eta, State.bump_bones, State.send_bones]

theorem State.sendMark_bones (s : State) (kind : Nat) (first : Nat) : (s.sendMark kind first).bones = s.bones := by
  simp only [State.sendMark, State.sendDatagram_bones, State.fresh_bones]

theorem State.abandonStream_bones (s : State) : (s.abandonStream).bones = s.bones := by
  simp only [State.abandonStream]
  repeat' split
  all_goals simp only [State.wf_bones, State.sendMark_bones]

theorem State.freeHitches_bones (s : State) (id : Nat) : (s.freeHitches id).bones = s.bones := by
  unfold State.freeHitches
  refine State.foldl_bones (fun t x => ?_) _ _
  split <;> simp only [State.wf_bones]

theorem State.setQ_bones (s : State) (p : QPort) (x : QState) : (s.setQ p x).bones = s.bones := by
  unfold State.setQ
  split <;> simp only [State.bones_mk, State.bones_eta]

theorem State.flit_bones (s : State) (p : QPort) (idle : Bool) (nak : Bool) (slots : List (BitVec 128)) :
    (s.flit p idle nak slots).bones = s.bones := by
  simp only [State.flit]
  split <;> simp only [State.setQ_bones, State.send_bones]

theorem State.qNakFlush_bones (s : State) (p : QPort) : (s.qNakFlush p).bones = s.bones := by
  simp only [State.qNakFlush]
  split <;> simp only [State.flit_bones, State.setQ_bones]

theorem State.xferSend_bones (s : State) (x : Xfer) : (s.xferSend x).bones = s.bones := by
  simp only [State.xferSend, State.bones_mk, State.bones_eta]

theorem State.rowDone_bones (s : State) (xid : Nat) (idx : Nat) (e : Entry) (err : Option (BitVec 64)) :
    (s.rowDone xid idx e err).bones = s.bones := by
  simp only [State.rowDone]
  repeat' split
  all_goals simp only [State.bones_mk, State.bones_eta, State.xferSend_bones]

theorem State.rowDenied_bones (s : State) (r : RowReq) : (s.rowDenied r).bones = s.bones := by
  unfold State.rowDenied
  split <;> simp only [State.bump_bones, State.rowDone_bones]

theorem State.xferDenied_bones (s : State) (xid : Nat) (idx : Nat) : (s.xferDenied xid idx).bones = s.bones := by
  simp only [State.xferDenied, State.rowDenied_bones]

theorem State.loadStop_bones (s : State) (gp : Nat) (err : Nat) : (s.loadStop gp err).bones = s.bones := by
  simp only [State.loadStop, State.wf_bones, State.modCore_bones]

theorem State.thrRec_bones (s : State) (pg : Nat) (ue : Bool) (count : Nat) (cyc : Nat) : (s.thrRec pg ue count cyc).bones = s.bones := by
  simp only [State.thrRec, apply_ite State.bones, ite_self, State.emit_bones]

theorem State.unitDrain_bones (s : State) (pg : Nat) (cyc : Nat) : (s.unitDrain pg cyc).bones = s.bones := by
  simp only [State.unitDrain]
  split <;> simp only [State.requestDrain_bones]

theorem State.window_bones (s : State) (pg : Nat) (sev : Nat) (cyc : Nat) : (s.window pg sev cyc).bones = s.bones := by
  simp only [State.window, apply_ite State.bones, ite_self, State.bones_mk, State.bones_eta, State.unitDrain_bones, State.thrRec_bones]

theorem State.countWin_bones (s : State) (pg : Nat) (bitNo : Nat) (sev : Nat) (cyc : Nat) : (s.countWin pg bitNo sev cyc).bones = s.bones := by
  simp only [State.countWin]
  split <;> simp only [State.countErr_bones, State.window_bones]

theorem State.regionErr_bones (s : State) (pg : Nat) (bitNo : Nat) (sev : Nat) (cls : Nat) (cyc : Nat) (synd : BitVec 64) :
    (s.regionErr pg bitNo sev cls cyc synd).bones = s.bones := by
  simp only [State.regionErr, State.countWin_bones, State.capture_bones]

theorem State.rowFails_bones (s : State) (region : Nat) (off : Nat) : (s.rowFails region off).bones = s.bones := by
  simp only [State.rowFails]
  repeat' split
  all_goals simp only [State.bones_mk, State.bones_eta, State.wrByte_bones]

theorem State.linkCe_bones (s : State) (region : Nat) (off : Nat) (cyc : Nat) : (s.linkCe region off cyc).bones = s.bones := by
  simp only [State.linkCe, State.regionErr_bones]

theorem State.linkUe_bones (s : State) (region : Nat) (off : Nat) (cyc : Nat) (patrol : Bool) :
    (s.linkUe region off cyc patrol).2.bones = s.bones := by
  simp only [State.linkUe, State.fresh_bones, State.rowFails_bones, State.regionErr_bones]

theorem State.loadDenied_bones (s : State) (gp : Nat) : (s.loadDenied gp).bones = s.bones := by
  simp only [State.loadDenied, State.bump_bones, State.loadStop_bones]

theorem State.modCtx_bones (s : State) (c : Nat) (f : CtxEng → CtxEng) : (s.modCtx c f).bones = s.bones := by
  simp only [State.modCtx, State.setCtxEng_bones]

theorem State.slotSeen_bones (s : State) (c : Nat) (i : Nat) (r : Row) : (s.slotSeen c i r).bones = s.bones := by
  simp only [State.slotSeen, State.modCtx_bones]

theorem State.setTaken_bones (s : State) (c : Nat) (l : List Nat) : (s.setTaken c l).bones = s.bones := by
  simp only [State.setTaken, State.wf_bones, State.modCtx_bones]

theorem State.useFirmware_bones (s : State) : (s.useFirmware).bones = s.bones := by
  unfold State.useFirmware
  refine State.foldl_bones (fun t x => ?_) _ _
  repeat' split
  all_goals simp only [State.modFlash_bones, implies_true]

theorem State.redraw_bones (s : State) : (s.redraw).bones = s.bones := by
  simp only [State.redraw, State.bones_mk, State.bones_eta, State.wr64_bones]

theorem State.sendTraining_bones (s : State) (p : Nat) : (s.sendTraining p).bones = s.bones := by
  simp only [State.sendTraining, State.send_bones]

theorem State.emptyInputs_bones (s : State) (p : Nat) : (s.emptyInputs p).bones = s.bones := by
  simp only [State.emptyInputs, State.bones_mk, State.bones_eta]

theorem State.srcRec_bones (s : State) (pg : Nat) (bitNo : Nat) (sev : Nat) (cls : Nat) (cyc : Nat) (synd : BitVec 64) :
    (s.srcRec pg bitNo sev cls cyc synd).bones = s.bones := by
  unfold State.srcRec
  split <;> simp only [State.chipRec_bones]

theorem State.fabErr_bones (s : State) (src : Nat) (cls : Nat) (cyc : Nat) (synd : BitVec 64) : (s.fabErr src cls cyc synd).bones = s.bones := by
  simp only [State.fabErr, State.countErr_bones, State.capture_bones]

theorem State.setLink_bones (s : State) (p : Nat) (l : FabLink) : (s.setLink p l).bones = s.bones := by
  simp only [State.setLink, State.bones_mk, State.bones_eta]

theorem State.credRegs_bones (s : State) (p : Nat) : (s.credRegs p).bones = s.bones := by
  unfold State.credRegs
  refine State.foldl_bones (fun t x => ?_) _ _
  simp only [State.wf_bones]

theorem State.setBarrier_bones (s : State) (g : Nat) (b : Barrier) : (s.setBarrier g b).bones = s.bones := by
  simp only [State.setBarrier, State.bones_mk, State.bones_eta]

theorem State.bklDeny_bones (s : State) (i : Nat) : (s.bklDeny i).bones = s.bones := by
  simp only [State.bklDeny, State.bump_bones]

theorem State.rtDrop_bones (s : State) (off : Nat) : (s.rtDrop off).bones = s.bones := by
  simp only [State.rtDrop, State.bump_bones]

theorem State.girthRegs_bones (s : State) : (s.girthRegs).bones = s.bones := by
  simp only [State.girthRegs, State.wf_bones]

theorem State.girthRenew_bones (s : State) (bank : Nat) : (s.girthRenew bank).bones = s.bones := by
  unfold State.girthRenew
  split <;> simp only [State.bones_mk, State.bones_eta, State.girthRegs_bones]

theorem State.resendFrom_bones (s : State) (p : Nat) (seq : Nat) : (s.resendFrom p seq).bones = s.bones := by
  unfold State.resendFrom
  refine State.foldl_bones (fun t x => ?_) _ _
  simp only [State.send_bones]

theorem State.startRetrain_bones (s : State) (p : Nat) (cyc : Nat) : (s.startRetrain p cyc).bones = s.bones := by
  simp only [State.startRetrain, State.wf_bones, State.bump_bones, State.sendTraining_bones, State.fabErr_bones]

theorem State.advanceSvn_bones (s : State) : (s.advanceSvn).bones = s.bones := by
  unfold State.advanceSvn
  refine State.foldl_bones (fun t x => ?_) _ _
  repeat' split
  all_goals simp only [State.modFlash_bones, implies_true]

theorem State.bootHoles_bones (s : State) : (s.bootHoles).bones = s.bones := by
  simp only [State.bootHoles, apply_ite State.bones, ite_self, State.modFlash_bones, implies_true, State.requestDrain_bones]

theorem State.setLog_bones (s : State) (gl : Nat) (p : Nat) : (s.setLog gl p).bones = s.bones := by
  simp only [State.setLog, State.wf_bones]

theorem State.setPhys_bones (s : State) (gp : Nat) (st : Nat) : (s.setPhys gp st).bones = s.bones := by
  simp only [State.setPhys, State.wf_bones]

theorem State.setFence_bones (s : State) (gp : Nat) (b : Bool) : (s.setFence gp b).bones = s.bones := by
  simp only [State.setFence]
  split <;> simp only [State.bones_mk, State.bones_eta, State.wf_bones]

theorem State.followPath_bones (s : State) (t : Nat) : (s.followPath t).bones = s.bones := by
  simp only [State.followPath, apply_ite State.bones, ite_self, State.chipRec_bones, State.wf_bones]

theorem State.qUpNow_bones (s : State) (p : QPort) (width : Nat) : (s.qUpNow p width).bones = s.bones := by
  simp only [State.qUpNow, State.wf_bones]

theorem State.qTrain_bones (s : State) (p : QPort) (r : QTrainResult) : (s.qTrain p r).bones = s.bones := by
  simp only [State.qTrain, apply_ite State.bones, ite_self, State.wf_bones, State.setQ_bones, State.qUpNow_bones]

theorem State.quexonTrain_bones (s : State) (env : BootEnv) : (s.quexonTrain env).bones = s.bones := by
  unfold State.quexonTrain
  refine State.foldl_bones (fun t x => ?_) _ _
  split <;> simp only [State.qTrain_bones]

theorem State.bklReset_bones (s : State) (i : Nat) : (s.bklReset i).bones = s.bones := by
  simp only [State.bklReset, State.bones_mk, State.bones_eta, State.modCore_bones, State.wr_bones, State.dropArrival_bones, State.foldl_bones,
      implies_true]

theorem State.resetBuckles_bones (s : State) (gl : Nat) : (s.resetBuckles gl).bones = s.bones := by
  simp only [State.resetBuckles, State.bklReset_bones, State.foldl_bones, implies_true]

theorem State.wipeCore_bones (s : State) (gp : Nat) (which : Nat → Bool) : (s.wipeCore gp which).bones = s.bones := by
  simp only [State.wipeCore]
  split <;> simp only [State.dropTraffic_bones, State.zeroCore_bones, State.abandonSegment_bones, State.resetBuckles_bones]

theorem State.resetCtx_bones (s : State) (c : Nat) (hung : List Nat) : (s.resetCtx c hung).bones = s.bones := by
  simp only [State.resetCtx, State.zeroSlice_bones, State.endCtx_bones, State.wipeCore_bones, State.resetBuckles_bones, State.foldl_bones,
      implies_true]

theorem State.enableBlock_bones (s : State) (b : Nat) : (s.enableBlock b).bones = s.bones := by
  simp only [State.enableBlock, apply_ite State.bones, ite_self, State.enableUnit_bones, State.foldl_bones, implies_true]

theorem State.channelFails_bones (s : State) (mc : Nat) (t : Nat) : (s.channelFails mc t).bones = s.bones := by
  simp only [State.channelFails, State.wf_bones, State.requestDrain_bones, State.wr_bones, State.foldl_bones, implies_true]

theorem State.enableAll_bones (s : State) : (s.enableAll).bones = s.bones := by
  simp only [State.enableAll, State.enableUnit_bones, State.enableBlock_bones, State.foldl_bones, implies_true]

theorem State.wakeAll_bones (s : State) (i : Nat) (tok : Option (BitVec 16)) : (s.wakeAll i tok).bones = s.bones := by
  simp only [State.wakeAll, State.setBkl_bones, State.modCore_bones, State.foldl_bones, implies_true]

theorem State.enableUnits_bones (s : State) : (s.enableUnits).bones = s.bones := by
  simp only [State.enableUnits, State.enableUnit_bones, State.enableAll_bones, State.foldl_bones, implies_true]

theorem State.mapBlock_bones (s : State) (b : Nat) : (s.mapBlock b).bones = s.bones := by
  simp only [State.mapBlock, State.setPhys_bones, State.setLog_bones, State.setFence_bones, State.foldl_bones, implies_true]

theorem State.repairAll_bones (s : State) (bringUp : Bool) (hppr rows : List (Nat × Nat)) :
    (s.repairAll bringUp hppr rows).bones = s.bones := by
  have hgo (l : List (Nat × Nat)) (x : State × List (Nat × Nat)) :
      (l.foldl (fun x r => (x.1.repairRow hppr r, if x.1.canRepair hppr r then x.2 else x.2 ++ [r])) x).1.bones = x.1.bones := by
    induction l generalizing x with
    | nil => rfl
    | cons r l ih => exact (ih _).trans (x.1.repairRow_bones hppr r)
  simp only [State.repairAll, apply_ite State.bones, State.foldl_bones, State.keepRetired_bones, State.unretire_bones, implies_true, hgo, ite_self]

theorem State.eccReport_bones (s : State) (gp la code cyc : Nat) (u : BitVec 1152) (l : List Nat) :
    (s.eccReport gp la code cyc u l).bones = s.bones := by
  induction l generalizing s with
  | nil => rfl
  | cons w r ih =>
    unfold State.eccReport
    extract_lets m syn t
    rw [ih t]
    unfold t
    split <;> simp only [State.coreErr_bones]

theorem State.qFlushList_bones (s : State) (p : QPort) (l : List QMsg) (blocked : List Nat) : (s.qFlushList p l blocked).bones = s.bones := by
  induction l generalizing s blocked with
  | nil => rfl
  | cons m r ih =>
    rw [State.qFlushList]
    dsimp only
    split
    · rw [ih, State.flit_bones, State.send_bones, State.setQ_bones]
    · exact ih s _

theorem State.linkFlush_bones (s : State) (p n : Nat) : (s.linkFlush p n).bones = s.bones := by
  induction n generalizing s with
  | zero => rfl
  | succ n ih =>
    rw [State.linkFlush]
    split
    · rw [ih, State.send_bones, State.setLink_bones]
    · rfl

theorem State.burst_bones (s : State) (region off cyc : Nat) (patrol : Bool) : (s.burst region off cyc patrol).2.2.bones = s.bones := by
  unfold State.burst
  extract_lets key m mc synd ce
  have hce (t : State) : (ce t).bones = t.bones := by simp only [ce, State.bones_mk, State.bones_eta, State.regionErr_bones]
  split <;> simp only [hce, State.regionErr_bones, State.rowFails_bones, apply_ite State.bones, ite_self]

theorem State.replayRepairs_bones (s : State) (bringUp : Bool) (hppr : List (Nat × Nat)) : (s.replayRepairs bringUp hppr).bones = s.bones := by
  fun_cases State.replayRepairs s bringUp hppr
  simp +zetaDelta only [State.wf_bones, State.wr_bones, State.repairAll_bones, State.foldl_bones, implies_true]

theorem State.storeRead_bones (s : State) (gp : Nat) (la : Nat) (code : Nat) (cyc : Nat) : (s.storeRead gp la code cyc).2.bones = s.bones := by
  simp only [State.storeRead]
  repeat' split
  all_goals simp only [State.modCore_bones, State.eccReport_bones]

theorem State.qFlush_bones (s : State) (p : QPort) : (s.qFlush p).bones = s.bones := by
  fun_cases State.qFlush s p <;> simp only [State.qFlushList_bones, State.qNakFlush_bones]

theorem State.qMsg_bones (s : State) (p : QPort) (m : QMsg) : (s.qMsg p m).bones = s.bones := by
  fun_cases State.qMsg s p m
  simp only [State.qFlush_bones, State.setQ_bones]

theorem State.qReq_bones (s : State) (p : QPort) (op : Nat) (addr : Nat) (data : List Row) (why : QWhy) :
    (s.qReq p op addr data why).bones = s.bones := by
  fun_cases State.qReq s p op addr data why
  simp +zetaDelta only [State.setQ_bones, State.qMsg_bones]

theorem State.cachePut_bones (s : State) (key : Nat) (l : CLine) : (s.cachePut key l).bones = s.bones := by
  simp only [State.cachePut]
  repeat' split
  all_goals simp only [State.bones_mk, State.bones_eta, State.qReq_bones]

theorem State.readBrand_bones (s : State) (k : Nat) (cyc : Nat) (err : Nat) : (s.readBrand k cyc err).2.bones = s.bones := by
  unfold State.readBrand
  split <;> simp only [State.burst_bones, State.fresh_bones, State.linkUe_bones, State.linkCe_bones]

theorem State.storedBrand_bones (s : State) (addr : Nat) (cyc : Nat) (err : Nat) : (s.storedBrand addr cyc err).2.bones = s.bones := by
  fun_cases State.storedBrand s addr cyc err <;> simp only [State.readBrand_bones]

theorem State.intWr_bones (s : State) (p : QPort) (v : Nat) (fault : Bool) : (s.intWr p v fault).bones = s.bones := by
  fun_cases State.intWr s p v fault
  simp only [State.qReq_bones]

theorem State.notify_bones (s : State) (p : QPort) (v : Nat) (fault : Bool) : (s.notify p v fault).bones = s.bones := by
  fun_cases State.notify s p v fault <;> simp +zetaDelta only [State.bones_mk, State.bones_eta, State.wf_bones, State.intWr_bones]

theorem State.doneNow_bones (s : State) (c : Nat) (slot : Nat) (line : Row) : (s.doneNow c slot line).bones = s.bones := by
  simp only [State.doneNow]
  repeat' split
  all_goals simp only [State.slotSeen_bones, State.notify_bones, State.bump_bones, State.cachePut_bones, State.wr_bones, State.setTaken_bones,
      State.modCtx_bones]

theorem State.linkGo_bones (s : State) (p : Nat) : (s.linkGo p).bones = s.bones := by
  fun_cases State.linkGo s p <;> simp only [State.credRegs_bones, State.linkFlush_bones]

theorem State.linkSend_bones (s : State) (p : Nat) (k : Packet) : (s.linkSend p k).bones = s.bones := by
  fun_cases State.linkSend s p k
  simp only [State.linkGo_bones, State.setLink_bones]

theorem State.sendNotice_bones (s : State) (t : Nat) (e : Nat) (p : Nat) : (s.sendNotice t e p).bones = s.bones := by
  fun_cases State.sendNotice s t e p
  simp only [State.linkSend_bones]

theorem State.bklEvent_bones (s : State) (i : Nat) (fault : Bool) : (s.bklEvent i fault).bones = s.bones := by
  fun_cases State.bklEvent s i fault <;> simp only [State.notify_bones, State.bklDeny_bones]

theorem State.bklRelease_bones (s : State) (i : Nat) (fault : Bool) : (s.bklRelease i fault).bones = s.bones := by
  fun_cases State.bklRelease s i fault <;> simp +zetaDelta only [State.bones_mk, State.bones_eta, State.bklEvent_bones, State.setBkl_bones,
      State.wakeAll_bones]

theorem State.barRelease_bones (s : State) (g : Nat) (fault : Bool) (i : Nat) : (s.barRelease g fault i).bones = s.bones := by
  simp only [State.barRelease, apply_ite State.bones, ite_self, State.bklRelease_bones, State.setBkl_bones]

theorem State.barComplete_bones (s : State) (g : Nat) (down : Bool) (epoch : Nat) : (s.barComplete g down epoch).bones = s.bones := by
  fun_cases State.barComplete s g down epoch <;> simp +zetaDelta only [State.wf_bones, State.bump_bones, State.setBarrier_bones,
      State.barRelease_bones,
      State.linkSend_bones, State.foldl_bones, implies_true]

theorem State.parentDown_bones (s : State) : (s.parentDown).bones = s.bones := by
  simp only [State.parentDown, apply_ite State.bones, ite_self, State.wf_bones, State.barComplete_bones, State.foldl_bones, implies_true]

theorem State.linksChanged_bones (s : State) : (s.linksChanged).bones = s.bones := by
  fun_cases State.linksChanged s <;> simp +zetaDelta only [State.girthRenew_bones, State.parentDown_bones, State.foldl_bones, implies_true]

theorem State.resume_bones (s : State) (p : Nat) (exp : Nat) : (s.resume p exp).bones = s.bones := by
  fun_cases State.resume s p exp
  simp only [State.linkGo_bones, State.resendFrom_bones, State.setLink_bones]

theorem State.portUpNow_bones (s : State) (p : Nat) (use : List Nat) (exp : Nat) (fresh : Bool) (cyc : Nat) :
    (s.portUpNow p use exp fresh cyc).bones = s.bones := by
  simp only [State.portUpNow, apply_ite State.bones, ite_self, State.wf_bones, State.srcRec_bones, State.resume_bones, State.linksChanged_bones,
      State.linkGo_bones, State.setLink_bones]

theorem State.foldl_snd_bones {α β : Type} {f : β × State → α → β × State} (h : ∀ x a, (f x a).2.bones = x.2.bones) (l : List α) (x : β × State) :
    (l.foldl f x).2.bones = x.2.bones := by
  induction l generalizing x with
  | nil => rfl
  | cons a l ih => exact (ih _).trans (h x a)

theorem State.dumpCorrect_bones (s : State) (u : DumpUnit) : (s.dumpCorrect u).2.bones = s.bones := by
  unfold State.dumpCorrect
  split
  · rfl
  · refine State.foldl_snd_bones (fun x la => ?_) _ _
    exact (State.storeRead_bones ..).trans (State.fresh_bones _)

theorem State.storedBrand_if_bones (s t : State) {c : Prop} [Decidable c] {a m b : Nat} {r : Option Word}
    (h : (if c then s.storedBrand a m b else (none, s)) = (r, t)) : t.bones = s.bones := by
  split at h
  · rw [← s.storedBrand_bones a m b, h]
  · rw [(Prod.mk.inj h).2]

theorem State.loadRow_bones (s : State) (gp cyc mcAt brandErr : Nat) (row : Row) (err : Option (BitVec 64)) :
    (s.loadRow gp cyc mcAt brandErr row err).bones = s.bones := by
  fun_cases State.loadRow s gp cyc mcAt brandErr row err with
  | case1 => rfl
  | case2 => simp only [State.coreErr_bones, State.loadStop_bones]
  | case3 => simp only [State.loadStop_bones, State.brandFail_bones, State.storedBrand_if_bones s _ ‹_ = (_, _)›]
  | case4 => simp +zetaDelta only [State.modCore_bones, State.setCore_bones, State.wf_bones,
      State.storedBrand_if_bones s _ ‹(if _ then _ else _) = (_,
      _)›]
  | case5 => simp +zetaDelta only [State.setCore_bones, State.wf_bones, State.storedBrand_if_bones s _ ‹(if _ then _ else _) = (_, _)›]

theorem State.barCheck_bones (s : State) (g e n : Nat) : (s.barCheck g e n).bones = s.bones := by
  induction n generalizing s with
  | zero => rfl
  | succ n ih =>
    unfold State.barCheck
    extract_lets b t lcnt
    simp only [apply_ite State.bones, ih, State.barComplete_bones, State.linkSend_bones, State.setBarrier_bones, ite_self]

theorem State.answered_bones (s : State) (p : QPort) (r : QReq) (grant : Nat) (line : Option Row) (ue : Bool) :
    (s.answered p r grant line ue).bones = s.bones := by
  simp only [State.answered]
  repeat' split
  all_goals simp only [State.slotSeen_bones, State.bump_bones, State.xferDenied_bones, State.cachePut_bones, State.setTaken_bones,
      State.loadRow_bones,
      State.doneNow_bones, State.rowDone_bones, State.loadDenied_bones]

theorem State.barStep_bones (s : State) (g : Nat) (e : Nat) : (s.barStep g e).bones = s.bones := by
  fun_cases State.barStep s g e <;> simp only [State.wf_bones, State.barCheck_bones, State.barComplete_bones]

theorem State.girthArrive_bones (s : State) (i : Nat) (fault : Bool) : (s.girthArrive i fault).bones = s.bones := by
  simp only [State.girthArrive, apply_ite State.bones, ite_self, State.wf_bones, State.bump_bones, State.setBarrier_bones, State.barStep_bones]

theorem State.bklFault_bones (s : State) (i : Nat) (n : Nat) : (s.bklFault i n).bones = s.bones := by
  simp only [State.bklFault, apply_ite State.bones, ite_self, State.wf_bones, State.bklRelease_bones, State.girthArrive_bones, State.setBkl_bones,
      State.wakeAll_bones]

theorem State.treeFault_bones (s : State) (t : Nat) (e : Nat) (cause : Nat) (port : Nat) (from_ : Option Nat) (cyc : Nat) :
    (s.treeFault t e cause port from_ cyc).bones = s.bones := by
  fun_cases State.treeFault s t e cause port from_ cyc <;> simp +zetaDelta only [State.bones_mk, State.bones_eta, State.chipRec_bones,
      State.bklFault_bones, State.sendNotice_bones, State.foldl_bones, implies_true]

theorem State.portTrees_bones (s : State) (p : Nat) (cyc : Nat) : (s.portTrees p cyc).bones = s.bones := by
  simp only [State.portTrees, apply_ite State.bones, ite_self, State.treeFault_bones, State.foldl_bones, implies_true]

theorem State.handBack_bones (s : State) (p : Nat) (cyc : Nat) (k : Packet) : (s.handBack p cyc k).bones = s.bones := by
  fun_cases State.handBack s p cyc k <;> simp only [State.bones_mk, State.bones_eta, State.rtDrop_bones, State.treeFault_bones, State.linkSend_bones]

theorem State.portDown_bones (s : State) (p : Nat) (cause : Nat) (cyc : Nat) : (s.portDown p cause cyc).bones = s.bones := by
  fun_cases State.portDown s p cause cyc <;> simp +zetaDelta only [State.wf_bones, State.srcRec_bones, State.handBack_bones, State.portTrees_bones,
      State.linksChanged_bones, State.fabErr_bones, State.emptyInputs_bones, State.setLink_bones, State.foldl_bones, implies_true]

theorem State.trainDone_bones (s : State) (p : Nat) (r : TrainResult) (fresh : Bool) (cyc : Nat) : (s.trainDone p r fresh cyc).bones = s.bones := by
  fun_cases State.trainDone s p r fresh cyc <;> simp +zetaDelta only [State.wf_bones, State.portDown_bones, State.wr_bones, State.portUpNow_bones,
      State.emptyInputs_bones]

theorem State.train_bones (s : State) (p : Nat) (r : TrainResult) (cyc : Nat) : (s.train p r cyc).bones = s.bones := by
  fun_cases State.train s p r cyc <;> simp +zetaDelta only [State.wf_bones, State.sendTraining_bones, State.trainDone_bones, State.startRetrain_bones]

theorem State.trainPorts_bones (s : State) (env : BootEnv) : (s.trainPorts env).bones = s.bones := by
  simp only [State.trainPorts, apply_ite State.bones, ite_self, State.wf_bones, State.train_bones, State.foldl_bones, implies_true]

theorem State.dumpRows_bones (s : State) (l : List DumpUnit) : (s.dumpRows l).2.bones = s.bones := by
  unfold State.dumpRows
  refine State.foldl_snd_bones (fun x u => ?_) _ _
  split
  · rfl
  · exact State.dumpCorrect_bones ..

theorem State.attempts_bones (s : State) (p cyc n : Nat) (rs : List TrainResult) : (s.attempts p cyc n rs).1.bones = s.bones := by
  fun_induction State.attempts s p cyc n rs <;>
    simp_all +zetaDelta only [State.trainDone_bones, State.portDown_bones, State.wf_bones, State.startRetrain_bones]

theorem State.dumpBegin_bones (s : State) (sc : DumpScope) (trigger : Nat) (mask : Nat) (silent : List Nat) (data : Option Nat) :
    (s.dumpBegin sc trigger mask silent data).bones = s.bones := by
  simp only [State.dumpBegin, State.bones_mk, State.bones_eta, State.abandonStream_bones, State.wf_bones, State.wr_bones, State.dumpRows_bones]

theorem State.qualify_bones (s : State) (p : Nat) (err1 : Nat → Nat) (err2 : Nat → Nat) (again : List TrainResult) (cold : Bool) (cyc : Nat) :
    (s.qualify p err1 err2 again cold cyc).bones = s.bones := by
  unfold State.qualify
  split
  · rfl
  · extract_lets pg old bad1 bad2 t u dis kept was fl w v
    have hu : u.bones = s.bones := by
      simp only [u, t, State.wf_bones, State.wr_bones, State.foldl_bones, implies_true]
    have hv : v.bones = s.bones := by
      rw [← hu]
      simp only [v, w, fl, was, State.bones_mk, State.wf_aon, State.wf_held, State.wf_memHeld, State.wf_rst, State.wf_openPages, State.wf_pow,
          State.wf_heals, State.bones_eta]
    clear_value v
    simp only [apply_ite State.bones, ite_self, State.wf_bones, State.attempts_bones, State.setLink_bones, State.startRetrain_bones, hv]

end Sys2Proof.Machine

/-! Zeroisation (R134, R154). -/

namespace Sys2Proof.Machine

/-! ### Which registers a zeroisation reaches (R134, R154) -/

/-- An address that is neither of a core, nor of a buckle, nor of a slice. -/
structure offCompute (a : Nat) : Prop where
  core : ∀ gp o, o < 0x2000 → a ≠ corePg gp + o
  buckle : ∀ i, a ≠ bklAddr i + 8
  slice : ∀ n o, o < 0x1000 → a ≠ slicePg n + o

theorem offCompute.headers {a : Nat} (h : offCompute a) : offHeaders a := fun gp o ho => h.core gp o (by omega)

/-- A register that the errors of a core, its packets, its keys and its buckles leave. -/
structure offCores (a : Nat) : Prop where
  err : ∀ (s : State) gp sev cls cyc synd, (s.coreErr gp sev cls cyc synd).rd a = s.rd a
  core : ∀ gp o, 0x100 ≤ o → o < 0x2000 → a ≠ corePg gp + o
  buckle : ∀ i, a ≠ bklAddr i + 8

theorem offCompute.cores {a : Nat} (h : offCompute a) : offCores a where
  err _ gp _ _ _ _ := State.rd_coreErr_other (h.headers gp) ..
  core gp o _ ho := h.core gp o ho
  buckle := h.buckle

/-- A register that the clearing of a core's registers keeps. -/
def clearKeeps (gp : Nat) (which : Nat → Bool) (a : Nat) : Prop := ∀ o, o < 0x2000 → a = corePg gp + o → which o = false

theorem offCompute.clearKeeps {a : Nat} (h : offCompute a) (gp : Nat) (which : Nat → Bool) : clearKeeps gp which a :=
  fun o ho ha => absurd ha (h.core gp o ho)

/-- The registers of the module's own units are none of the compute domain. -/
theorem modPg_offCompute (u : Nat) {k : Nat} (hk : k < 0x2000) : offCompute (modPg u 0 + k) := by
  refine ⟨fun gp o ho => ?_, fun i => ?_, fun n o ho => ?_⟩
  · simp only [modPg, modAddr, corePg, regionAddr]
    omega
  · simp only [modPg, modAddr, bklAddr, bankPg, regionAddr]
    omega
  · simp only [modPg, modAddr, slicePg, regionAddr]
    omega

theorem tbl_find?_filterMap {β : Type} {f : Nat × β → Option (Nat × β)} {k : Nat} (hk : ∀ v, f (k, v) = some (k, v))
    (hf : ∀ p q, f p = some q → q.1 = p.1) (m : Tbl β) : Tbl.find? (m.filterMap f) k = Tbl.find? m k := by
  induction m with
  | nil => rfl
  | cons p m ih =>
    obtain ⟨j, v⟩ := p
    by_cases hj : j = k
    · subst hj
      rw [List.filterMap_cons, hk]
      simp only [Tbl.find?, if_pos]
    · rw [Tbl.find?, if_neg hj, List.filterMap_cons]
      split
      · exact ih
      next q hq =>
        obtain ⟨i, w⟩ := q
        have hi : i = j := hf _ _ hq
        rw [Tbl.find?, if_neg (by rw [hi]; exact hj), ih]

theorem clearedReg_key {p q : Nat × Word} (h : clearedReg p = some q) : q.1 = p.1 := by
  rw [clearedReg] at h
  split at h
  · rw [← Option.some.inj h]
  · cases h

/-- Registers of a table whose chosen ones return to their reset values. -/
theorem tbl_get_cleared {a : Nat} {d : Word} {gone : Nat → Bool} (h : gone a = false) (m : Tbl Word) :
    Tbl.get d (m.filterMap (fun p => if gone p.1 then clearedReg p else some p)) a = Tbl.get d m a := by
  rw [Tbl.get, tbl_find?_filterMap (fun v => by simp only [h]; rfl) (fun p q hq => ?_), Tbl.get]
  split at hq
  · exact clearedReg_key hq
  · rw [← Option.some.inj hq]

section
variable (s : State)

theorem State.rd_dropWaiter {a : Nat} (h : offCores a) (gp : Nat) : (s.dropWaiter gp).rd a = s.rd a := by
  rw [State.dropWaiter]
  split
  · exact (State.rd_wf_other _ _ _ _ (h.buckle _)).trans (State.rd_modCore ..)
  · rfl

theorem State.rd_brandFail {a : Nat} (h : offCores a) (gp cyc : Nat) (ue : Bool) (synd : BitVec 64) : (s.brandFail gp cyc ue synd).rd a = s.rd a := by
  have hb : (s.bump (corePg gp + 0x2D0) 15 0 1).rd a = s.rd a := State.rd_bump_other s (h.core gp _ (by decide) (by decide))
  simp only [State.brandFail, State.rd_ite, h.err, hb, ite_self]

theorem State.rd_outUnit {a : Nat} (h : offCores a) (gp ring unit : Nat) (la : Option Nat) (b : Option Word) (ue : Bool) (rows : List Entry) :
    (s.outUnit gp ring unit la b ue rows).2.rd a = s.rd a := by
  rw [State.outUnit]
  split
  · split
    · exact s.rd_brandFail h ..
    · rfl
  · rfl

theorem State.rd_finishPkt {a : Nat} (h : offCores a) (gp : Nat) (p : OutPkt) : (s.finishPkt gp p).2.rd a = s.rd a := by
  rw [State.finishPkt]
  split
  · rfl
  · simp only
    split
    · rw [State.rd_outUnit _ h, State.rd_outUnit _ h]
    · rw [State.rd_outUnit _ h]

theorem State.rd_endPacket {a : Nat} (h : offCores a) (gp : Nat) (p : OutPkt) : (s.endPacket gp p).rd a = s.rd a := s.rd_finishPkt h gp p

theorem State.rd_cutPackets {a : Nat} (h : offCores a) (gp : Nat) : (s.cutPackets gp).rd a = s.rd a := by
  rw [State.cutPackets, State.rd_foldl (fun t p => t.rd_endPacket h gp p)]
  rfl

theorem State.rd_clearCoreRegs {a gp : Nat} {which : Nat → Bool} (h : clearKeeps gp which a) : (s.clearCoreRegs gp which).rd a = s.rd a := by
  refine tbl_get_cleared (gone := fun a => decide (corePg gp ≤ a) && decide (a < corePg gp + 0x2000) && which (a - corePg gp)) ?_ s.regs
  by_cases h1 : corePg gp ≤ a ∧ a < corePg gp + 0x2000
  · rw [h (a - corePg gp) (by omega) (by omega), Bool.and_false]
  · rw [← Bool.decide_and, decide_eq_false h1, Bool.false_and]

theorem State.rd_dropBanks {a : Nat} (h : offCores a) (gp : Nat) (l : Bool) : (s.dropBanks gp l).rd a = s.rd a := by
  have ha : a ≠ corePg gp + 0x21C := h.core gp _ (by decide) (by decide)
  simp only [State.dropBanks, State.rd_ite, State.rd_wf_other _ _ _ _ ha, ite_self]

/-- The core of a zeroisation that begins, before its registers are cleared. -/
def State.coreCut (s : State) (gp : Nat) : State :=
  ((s.dropWaiter gp).modAsy gp (fun x => { x with running := none, fl := 0, saved := [], slot := none })).cutPackets gp

/-- A core whose contents are gone. -/
def State.coreEmpty (s : State) (gp : Nat) : State := s.modCore gp (fun c => { c.zeroed with zeroing := true })

theorem State.zeroCore_eq (gp : Nat) (which : Nat → Bool) : ∃ l, s.zeroCore gp which
    = ((((s.coreCut gp).coreEmpty gp).clearCoreRegs gp which).dropBanks gp l).wf (corePg gp + 0x280) 31 31 1 := ⟨_, rfl⟩

theorem State.rd_coreCut {a : Nat} (h : offCores a) (gp : Nat) : (s.coreCut gp).rd a = s.rd a :=
  (State.rd_cutPackets _ h gp).trans (s.rd_dropWaiter h gp)

theorem State.rd_zeroCore {a gp : Nat} {which : Nat → Bool} (h : offCores a) (hw : clearKeeps gp which a) : (s.zeroCore gp which).rd a = s.rd a := by
  obtain ⟨l, hx⟩ := s.zeroCore_eq gp which
  rw [hx, State.rd_wf_other _ _ _ _ (h.core gp _ (by decide) (by decide)), State.rd_dropBanks _ h, State.rd_clearCoreRegs _ hw, State.coreEmpty,
    State.rd_modCore, State.rd_coreCut _ h]

theorem State.rd_setKeys (gp : Nat) (key : Nat → BitVec 64) (a : Nat) : (s.setKeys gp key).rd a = s.rd a := State.rd_modCore ..

theorem State.rd_freshKeys {a : Nat} (h : offCores a) (gp : Nat) : (s.freshKeys gp).rd a = s.rd a := by
  have ha : a ≠ corePg gp + 0x2A0 := h.core gp _ (by decide) (by decide)
  cases hb : s.entropyBad.contains (gp / 80) with
  | true => rw [State.freshKeys_withheld s gp hb]
  | false => rw [State.freshKeys_eq s gp hb, State.rd_bump_other _ ha, State.rd_wf_other _ _ _ _ ha, State.rd_setKeys]; rfl

theorem State.rd_coreBack {a : Nat} (h : offCores a) (gp : Nat) : (s.coreBack gp).rd a = s.rd a := by
  have ha : a ≠ corePg gp + 0x280 := h.core gp _ (by decide) (by decide)
  rw [State.coreBack, State.rd_bump_other _ ha, State.rd_wf_other _ _ _ _ ha, State.rd_modCore]

theorem State.rd_zeroCoreDone {a : Nat} (h : offCores a) (gp : Nat) : (s.zeroCoreDone gp).rd a = s.rd a := by
  rw [State.zeroCoreDone_eq, State.rd_ite, State.seedKeys, State.rd_setKeys, State.rd_freshKeys _ h, State.rd_coreBack _ h, ite_self]

theorem State.rd_zeroSlice {a : Nat} (h : offCompute a) (n : Nat) : (s.zeroSlice n).rd a = s.rd a := by
  rw [State.zeroSlice, State.rd_wf_other _ _ _ _ (h.slice n _ (by decide)), State.rd_wr_other _ _ (h.slice n _ (by decide))]
  rfl

theorem State.rd_zeroSliceDone {a : Nat} (h : offCompute a) (n : Nat) : (s.zeroSliceDone n).rd a = s.rd a := by
  rw [State.zeroSliceDone, State.rd_bump_other _ (h.slice n _ (by decide)), State.rd_wf_other _ _ _ _ (h.slice n _ (by decide))]
  rfl

/-! ### Which cores a zeroisation reaches (R154) -/

theorem State.core_setBkl (i n : Nat) (b : Bool) (g : Nat) : (s.setBkl i n b).core g = s.core g := State.core_wf ..

theorem State.core_modAsy (gp : Nat) (f : AsyCore → AsyCore) (g : Nat) : (s.modAsy gp f).core g = s.core g := rfl

theorem State.core_clearCoreRegs (gp : Nat) (which : Nat → Bool) (g : Nat) : (s.clearCoreRegs gp which).core g = s.core g := rfl

omit s in
theorem State.core_ite (c : Prop) [Decidable c] (s t : State) (g : Nat) : (if c then s else t).core g = if c then s.core g else t.core g :=
  apply_ite (State.core · g) c s t

theorem State.core_dropBanks (gp : Nat) (l : Bool) (g : Nat) : (s.dropBanks gp l).core g = s.core g := by
  rw [State.dropBanks, State.core_ite, State.core_wf, State.core_wf, State.core_wf, ite_self]

/-- A core that waits for no buckle any more. -/
def State.unwaited (s : State) (gp : Nat) : State := s.modCore gp (fun c => { c with waiter := none })

theorem State.core_unwaited_other {gp g : Nat} (h : g ≠ gp) : (s.unwaited gp).core g = s.core g := State.core_modCore_other _ _ h

theorem State.dropWaiter_some {gp : Nat} {w : Nat × Nat} (hw : (s.core gp).waiter = some w) :
    s.dropWaiter gp = (s.unwaited gp).setBkl w.1 7 (decide ((s.unwaited gp).waitersOf w.1 ≠ [])) := by
  rw [State.dropWaiter, hw]
  rfl

theorem State.dropWaiter_none {gp : Nat} (hw : (s.core gp).waiter = none) : s.dropWaiter gp = s := by
  rw [State.dropWaiter, hw]

theorem State.core_dropWaiter_other {gp g : Nat} (h : g ≠ gp) : (s.dropWaiter gp).core g = s.core g := by
  cases hw : (s.core gp).waiter with
  | none => rw [State.dropWaiter_none s hw]
  | some w => rw [State.dropWaiter_some s hw, State.core_setBkl, State.core_unwaited_other s h]

theorem State.core_cutPackets_other {gp g : Nat} (h : g ≠ gp) : (s.cutPackets gp).core g = s.core g := by
  have hfold : ∀ (l : List OutPkt) (t : State), (l.foldl (fun (s : State) p => s.endPacket gp p) t).core g = t.core g := fun l => by
    induction l with
    | nil => exact fun _ => rfl
    | cons p l ih => exact fun t => (ih _).trans (t.endPacket_core gp g p)
  rw [State.cutPackets, hfold]
  exact State.core_setCore_other _ _ h

theorem State.core_zeroCore (gp g : Nat) (which : Nat → Bool) : (s.zeroCore gp which).core g = ((s.coreCut gp).coreEmpty gp).core g := by
  obtain ⟨l, hx⟩ := s.zeroCore_eq gp which
  rw [hx, State.core_wf, State.core_dropBanks, State.core_clearCoreRegs]

theorem State.core_zeroCore_other {gp g : Nat} (h : g ≠ gp) (which : Nat → Bool) : (s.zeroCore gp which).core g = s.core g := by
  rw [State.core_zeroCore, State.coreEmpty, State.core_modCore_other _ _ h, State.coreCut, State.core_cutPackets_other _ h, State.core_modAsy,
    State.core_dropWaiter_other _ h]

theorem State.core_zeroCore_same (gp : Nat) (which : Nat → Bool) :
    (s.zeroCore gp which).core gp = { ((s.coreCut gp).core gp).zeroed with zeroing := true } := by
  rw [State.core_zeroCore, State.coreEmpty, State.core_modCore_same]

/-- Keys of a core's streams leave its contents. -/
theorem Core.setStreams_keep (key : Nat → BitVec 64) (c : Core) :
    ([0, 1, 2].foldl (fun (c : Core) n => c.setStream n { key := key n }) c).store = c.store
    ∧ ([0, 1, 2].foldl (fun (c : Core) n => c.setStream n { key := key n }) c).queues = c.queues
    ∧ ([0, 1, 2].foldl (fun (c : Core) n => c.setStream n { key := key n }) c).zeroing = c.zeroing := ⟨rfl, rfl, rfl⟩

/-- A core back in service and empty. -/
def Core.clean (c : Core) : Prop := c.zeroing = false ∧ c.store = [] ∧ c.queues = []

theorem State.clean_setKeys {gp : Nat} (h : (s.core gp).clean) (key : Nat → BitVec 64) : ((s.setKeys gp key).core gp).clean := by
  obtain ⟨hz, hs, hq⟩ := h
  rw [State.setKeys, State.core_modCore_same]
  obtain ⟨h1, h2, h3⟩ := Core.setStreams_keep key (s.core gp)
  exact ⟨h3.trans hz, h1.trans hs, h2.trans hq⟩

theorem State.core_coreBack_other {gp g : Nat} (h : g ≠ gp) : (s.coreBack gp).core g = s.core g := by
  rw [State.coreBack, State.core_bump, State.core_wf, State.core_modCore_other _ _ h]

theorem State.core_setKeys_other {gp g : Nat} (h : g ≠ gp) (key : Nat → BitVec 64) : (s.setKeys gp key).core g = s.core g :=
  State.core_modCore_other _ _ h

theorem State.core_freshKeys_other {gp g : Nat} (h : g ≠ gp) : (s.freshKeys gp).core g = s.core g := by
  cases hb : s.entropyBad.contains (gp / 80) with
  | true => rw [State.freshKeys_withheld s gp hb]
  | false => rw [State.freshKeys_eq s gp hb, State.core_bump, State.core_wf, State.core_setKeys_other _ h, State.core_withFree]

theorem State.core_zeroCoreDone_other {gp g : Nat} (h : g ≠ gp) : (s.zeroCoreDone gp).core g = s.core g := by
  rw [State.zeroCoreDone_eq]
  split
  · rw [State.seedKeys, State.core_setKeys_other _ h, State.core_coreBack_other _ h]
  · rw [State.core_freshKeys_other _ h, State.core_coreBack_other _ h]

theorem State.clean_freshKeys {gp : Nat} (h : (s.core gp).clean) : ((s.freshKeys gp).core gp).clean := by
  cases hb : s.entropyBad.contains (gp / 80) with
  | true =>
    rw [State.freshKeys_withheld s gp hb]
    exact h
  | false =>
    rw [State.freshKeys_eq s gp hb, State.core_bump, State.core_wf]
    exact State.clean_setKeys _ (by rw [State.core_withFree]; exact h) _

/-- A core that is zeroised, from beginning to end, is back in service and empty (R154). -/
theorem State.clean_zeroised (gp : Nat) (which : Nat → Bool) : (((s.zeroCore gp which).zeroCoreDone gp).core gp).clean := by
  have hback : (((s.zeroCore gp which).coreBack gp).core gp).clean := by
    rw [State.coreBack, State.core_bump, State.core_wf, State.core_modCore_same, State.core_zeroCore_same]
    exact ⟨rfl, rfl, rfl⟩
  rw [State.zeroCoreDone_eq]
  split
  · exact State.clean_setKeys _ hback _
  · exact State.clean_freshKeys _ hback

theorem State.core_zeroSlice (n g : Nat) : (s.zeroSlice n).core g = s.core g := by
  rw [State.zeroSlice, State.core_wf, State.core_wr]
  rfl

theorem State.core_zeroSliceDone (n g : Nat) : (s.zeroSliceDone n).core g = s.core g := by
  rw [State.zeroSliceDone, State.core_bump, State.core_wf]
  rfl

end

end Sys2Proof.Machine

/-! Power states, the seam and samples (R179, R398 to R401, R439). -/

namespace Sys2Proof.Machine

/-! ### Requests of power states (R398, R399) -/

/-- PWR_CTL keeps a request and its target (R398). -/
def State.pwrAsked (s : State) (req target : Nat) : State := (s.wf (pwrPg + 0x100) 31 30 req).wf (pwrPg + 0x100) 10 0 target

/-- IDLE_DENY shows a request for an idle state that waits (R399). -/
def State.pwrShown (s : State) (req : Nat) : State :=
  s.wf pwrStat 23 23 (bit (s.aon.powered && (decide (req = 1) || decide (req = 2)) && decide (s.pwrState ≠ req + 1)))

/-- A request for another state begins to leave I2 (R398). -/
def State.pwrLeaves (s : State) (req : Nat) : State :=
  s.modPow (fun p => { p with leaving := decide (s.pwrState = 3) && decide (req ≠ 2) && !s.pow.runNext })

theorem State.pwrCtl_eq (s : State) (req target : Nat) : s.pwrCtl req target = ((s.pwrAsked req target).pwrShown req).pwrLeaves req := id rfl

theorem State.rf_modPow (s : State) (f : Power → Power) (a hi lo : Nat) : (s.modPow f).rf a hi lo = s.rf a hi lo := rfl

theorem State.pwrAsked_shows (s : State) {req target : Nat} (hr : req < 4) (ht : target < 2048) :
    (s.pwrAsked req target).rf (pwrPg + 0x100) 31 30 = req ∧ (s.pwrAsked req target).rf (pwrPg + 0x100) 10 0 = target
      ∧ (s.pwrAsked req target).aon = s.aon ∧ (s.pwrAsked req target).pow = s.pow ∧ (s.pwrAsked req target).pwrState = s.pwrState := by
  refine ⟨?_, ?_, ?_, ?_, ?_⟩ <;> rw [State.pwrAsked]
  · rw [State.rf_wf_field _ (by omega) (by omega), State.rf_wf_same _ (by omega)]
    exact Nat.mod_eq_of_lt (by omega)
  · rw [State.rf_wf_same _ (by omega)]
    exact Nat.mod_eq_of_lt (by omega)
  · rw [State.wf_aon, State.wf_aon]
  · rw [State.wf_pow, State.wf_pow]
  · rw [State.pwrState, State.rf_wf_other _ (by decide), State.rf_wf_other _ (by decide), State.pwrState]

/-- A request of a power state keeps itself and its target, and IDLE_DENY shows whether it waits (R398, R399). -/
theorem State.pwrCtl_shows (s : State) {req target : Nat} (hr : req < 4) (ht : target < 2048) :
    (s.pwrCtl req target).rf (pwrPg + 0x100) 31 30 = req ∧ (s.pwrCtl req target).rf (pwrPg + 0x100) 10 0 = target
      ∧ (s.pwrCtl req target).rf pwrStat 23 23
        = bit (s.aon.powered && (decide (req = 1) || decide (req = 2)) && decide (s.pwrState ≠ req + 1))
      ∧ (s.pwrCtl req target).pow.leaving = (decide (s.pwrState = 3) && decide (req ≠ 2) && !s.pow.runNext) := by
  obtain ⟨hreq, htgt, haon, hpow, hst⟩ := s.pwrAsked_shows hr ht
  rw [State.pwrCtl_eq]
  generalize s.pwrAsked req target = u at hreq htgt haon hpow hst
  obtain ⟨b, hb⟩ : ∃ b, b = (s.aon.powered && (decide (req = 1) || decide (req = 2)) && decide (s.pwrState ≠ req + 1)) := ⟨_, rfl⟩
  have hst2 : (u.wf pwrStat 23 23 (bit b)).pwrState = s.pwrState := by
    rw [State.pwrState, ← hst, State.pwrState]
    exact State.rf_wf_field _ (by omega) (by omega)
  rw [State.pwrShown, haon, hst, ← hb, State.pwrLeaves, State.rf_modPow, State.rf_modPow, State.rf_modPow, State.modPow_pow, hst2, State.wf_pow, hpow,
    State.rf_wf_other _ (by decide), State.rf_wf_other _ (by decide), State.rf_wf_same _ (by omega)]
  refine ⟨hreq, htgt, ?_, rfl⟩
  cases b <;> rfl

/-- A request that PWR_CTL admits (R398, R399). -/
theorem pwrCtl_rules {ag : Agent} {target : Nat} {s : State} (ht : target < 2048) (hmay : s.mayWrite ag (pwrPg + 0x100)) :
    (∃ t, exec (.pwrCtlRun ag target) s = .next t ∧ t.rf (pwrPg + 0x100) 31 30 = 0 ∧ t.rf (pwrPg + 0x100) 10 0 = target
        ∧ t.rf pwrStat 23 23 = 0 ∧ (s.pwrState = 3 → s.pow.runNext = false → t.pow.leaving = true))
      ∧ (∃ t, exec (.pwrCtlI1 ag target) s = .next t ∧ t.rf (pwrPg + 0x100) 31 30 = 1 ∧ t.rf (pwrPg + 0x100) 10 0 = target
        ∧ t.rf pwrStat 23 23 = bit (s.aon.powered && decide (s.pwrState ≠ 2))
        ∧ t.pow.leaving = (decide (s.pwrState = 3) && !s.pow.runNext))
      ∧ ∃ t, exec (.pwrCtlI2 ag target) s = .next t ∧ t.rf (pwrPg + 0x100) 31 30 = 2 ∧ t.rf (pwrPg + 0x100) 10 0 = target
        ∧ t.rf pwrStat 23 23 = bit (s.aon.powered && decide (s.pwrState ≠ 3)) ∧ t.pow.leaving = false := by
  have hgo : ∀ req, (Host.Outcome.next (s.ifAdmitted ag (pwrPg + 0x100) (fun s => s.pwrCtl req target)) : Host.Outcome State Fault Refusal)
      = .next (s.pwrCtl req target) := fun req => by rw [State.ifAdmitted_may hmay]
  refine ⟨⟨_, (if_pos (decide_eq_true ht)).trans (hgo 0), ?_⟩, ⟨_, (if_pos (decide_eq_true ht)).trans (hgo 1), ?_⟩,
    ⟨_, (if_pos (decide_eq_true ht)).trans (hgo 2), ?_⟩⟩
  · obtain ⟨h1, h2, h3, h4⟩ := s.pwrCtl_shows (req := 0) (by decide) ht
    refine ⟨h1, h2, h3.trans ?_, fun hst hrun => h4.trans ?_⟩
    · simp [bit]
    · rw [hst, hrun]
      rfl
  · obtain ⟨h1, h2, h3, h4⟩ := s.pwrCtl_shows (req := 1) (by decide) ht
    refine ⟨h1, h2, h3.trans ?_, h4.trans ?_⟩
    · simp
    · simp
  · obtain ⟨h1, h2, h3, h4⟩ := s.pwrCtl_shows (req := 2) (by decide) ht
    refine ⟨h1, h2, h3.trans ?_, h4.trans ?_⟩
    · simp
    · simp

/-! ### Leaving I2 (R154, R398, R410) -/

/-- Compute is powered up, and memory has left self-refresh with its pages closed (R179, R398). -/
def State.i2Powered (s : State) : State := { s with held := if s.heldFast then s.held else [], openPages := [] }

/-- The core PLL has relocked, unless REFCLK is lost (R410). -/
def State.relocked (s : State) : State := s.wf (clkPg + 0x104) 29 29 (bit (decide (s.rf (clkPg + 0x104) 30 30 = 0)))

/-- Every core is zeroised (R154). -/
def State.coresClean (s : State) : State := (List.range 5120).foldl (fun (s : State) gp => (s.zeroCore gp zeroesReg).zeroCoreDone gp) s

/-- Every slice is zeroised (R154). -/
def State.slicesClean (s : State) : State := (List.range 4096).foldl (fun (s : State) n => (s.zeroSlice n).zeroSliceDone n) s

theorem State.coresClean_bones (s : State) : s.coresClean.bones = s.bones :=
  State.foldl_bones (fun t gp => (State.zeroCoreDone_bones _ gp).trans (State.zeroCore_bones t gp _)) _ s

theorem State.slicesClean_bones (s : State) : s.slicesClean.bones = s.bones :=
  State.foldl_bones (fun t n => (State.zeroSliceDone_bones _ n).trans (State.zeroSlice_bones t n)) _ s

theorem State.coresClean_kept (s : State) : s.coresClean.kept = s.kept :=
  State.foldl_kept (fun t gp => (State.zeroCoreDone_kept _ gp).trans (State.zeroCore_kept t gp _)) _ s

theorem State.slicesClean_kept (s : State) : s.slicesClean.kept = s.kept :=
  State.foldl_kept (fun t n => (State.zeroSliceDone_kept _ n).trans (State.zeroSlice_kept t n)) _ s

theorem State.rd_coresClean (s : State) {a : Nat} (h : offCompute a) : s.coresClean.rd a = s.rd a :=
  State.rd_foldl (fun _ _ => (State.rd_zeroCoreDone _ h.cores _).trans (State.rd_zeroCore _ h.cores (h.clearKeeps _ _))) _ s

theorem State.rd_slicesClean (s : State) {a : Nat} (h : offCompute a) : s.slicesClean.rd a = s.rd a :=
  State.rd_foldl (fun _ _ => (State.rd_zeroSliceDone _ h _).trans (State.rd_zeroSlice _ h _)) _ s

theorem State.clean_coresClean (s : State) {gp : Nat} (h : gp < 5120) : (s.coresClean.core gp).clean := by
  have hfold : ∀ (l : List Nat) (t : State), gp ∈ l ∨ (t.core gp).clean →
      ((l.foldl (fun (s : State) gp => (s.zeroCore gp zeroesReg).zeroCoreDone gp) t).core gp).clean := fun l => by
    induction l with
    | nil => exact fun t ht => ht.resolve_left List.not_mem_nil
    | cons g l ih =>
      intro t ht
      refine ih _ (or_iff_not_imp_left.2 fun hl => ?_)
      by_cases hg : gp = g
      · rw [hg]
        exact t.clean_zeroised g zeroesReg
      · rw [State.core_zeroCoreDone_other _ hg, State.core_zeroCore_other _ hg]
        exact ht.resolve_left fun hm => (List.mem_cons.1 hm).elim hg hl
  exact hfold _ s (Or.inl (List.mem_range.2 h))

theorem State.core_foldl {f : State → Nat → State} {g : Nat} (hf : ∀ t n, (f t n).core g = t.core g) (l : List Nat) (s : State) :
    (l.foldl f s).core g = s.core g := by
  induction l generalizing s with
  | nil => rfl
  | cons n l ih => exact (ih _).trans (hf s n)

theorem State.core_slicesClean (s : State) (g : Nat) : s.slicesClean.core g = s.core g :=
  State.core_foldl (fun _ _ => (State.core_zeroSliceDone ..).trans (State.core_zeroSlice ..)) _ s

/-- The step of `mirrorSlices` for one slice. -/
theorem State.mirrorSlices_eq (s : State) : s.mirrorSlices = (List.range 4096).foldl (fun (s : State) n =>
    if s.rdByte (rcPg (n / 64) 1 + 0x140 + n % 64) / 128 = 1
      then s.wr (slicePg n + 0x100) (BitVec.ofNat 32 (16 + s.rdByte (rcPg (n / 64) 1 + 0x140 + n % 64) % 16)) else s) s := rfl

theorem State.core_mirrorSlices (s : State) (g : Nat) : s.mirrorSlices.core g = s.core g := by
  rw [State.mirrorSlices_eq]
  exact State.core_foldl (fun _ _ => by rw [State.core_ite, State.core_wr, ite_self]) _ s

theorem State.rd_mirrorSlices (s : State) {a : Nat} (h : offCompute a) : s.mirrorSlices.rd a = s.rd a := by
  rw [State.mirrorSlices_eq]
  exact State.rd_foldl (fun _ n => by rw [State.rd_ite, State.rd_wr_other _ _ (h.slice n _ (by decide)), ite_self]) _ s

theorem State.mirrorSlices_bones (s : State) : s.mirrorSlices.bones = s.bones := by
  rw [State.mirrorSlices_eq]
  refine State.foldl_bones (fun t n => ?_) _ s
  rw [apply_ite State.bones, State.wr_bones, ite_self]

theorem exec_i2ExitDone {s : State} (hst : s.pwrState = 3) (hl : s.pow.leaving = true) : exec .i2ExitDone s
    = .next (s.i2Powered.relocked.coresClean.slicesClean.mirrorSlices.modPow (fun p => { p with leaving := false, runNext := true })) := by
  refine if_neg ?_
  rw [hst, hl]
  decide

/-- What the power-up out of I2 leaves (R154, R179, R398, R410). -/
theorem i2ExitDone_rules {s : State} (hst : s.pwrState = 3) (hl : s.pow.leaving = true) :
    ∃ t, exec .i2ExitDone s = .next t ∧ (s.heldFast = false → t.held = []) ∧ t.openPages = []
      ∧ (s.rf (clkPg + 0x104) 30 30 = 0 → t.rf (clkPg + 0x104) 29 29 = 1) ∧ t.pow.leaving = false ∧ t.pow.runNext = true
      ∧ (∀ gp, gp < 5120 → (t.core gp).zeroing = false ∧ (t.core gp).store = [] ∧ (t.core gp).queues = []) ∧ t.mem = s.mem := by
  obtain ⟨u, hu⟩ : ∃ u, u = s.i2Powered.relocked.coresClean.slicesClean.mirrorSlices := ⟨_, rfl⟩
  have hx := exec_i2ExitDone hst hl
  rw [← hu] at hx
  have hb : u.bones = s.i2Powered.relocked.bones := by
    rw [hu, State.mirrorSlices_bones, State.slicesClean_bones, State.coresClean_bones]
  have hoff : offCompute (clkPg + 0x104) := modPg_offCompute 5 (by decide)
  have hrd : u.rd (clkPg + 0x104) = s.i2Powered.relocked.rd (clkPg + 0x104) := by
    rw [hu, State.rd_mirrorSlices _ hoff, State.rd_slicesClean _ hoff, State.rd_coresClean _ hoff]
  have hheld : u.held = s.i2Powered.held ∧ u.openPages = [] := by
    have hr : s.i2Powered.relocked.bones = s.i2Powered.bones := State.wf_bones ..
    exact ⟨congrArg (·.2.1) (hb.trans hr), congrArg (·.2.2.2.2.1) (hb.trans hr)⟩
  have hcore : ∀ gp, u.core gp = s.i2Powered.relocked.coresClean.core gp := fun gp => by
    rw [hu, State.core_mirrorSlices, State.core_slicesClean]
  refine ⟨_, hx, fun hfast => ?_, hheld.2, fun hclk => ?_, rfl, rfl, fun gp hgp => ?_, ?_⟩
  · refine hheld.1.trans (if_neg ?_)
    rw [hfast]
    decide
  · rw [State.rf_modPow, State.rf_of_rd hrd, State.relocked, State.rf_wf_same _ (by omega)]
    have hpll : s.i2Powered.rf (clkPg + 0x104) 30 30 = 0 := hclk
    rw [hpll]
    rfl
  · have hclean := s.i2Powered.relocked.clean_coresClean hgp
    rw [← hcore] at hclean
    exact hclean
  · refine State.mem_of_kept (Eq.trans (b := u.kept) rfl ?_)
    rw [hu, State.mirrorSlices_kept, State.slicesClean_kept, State.coresClean_kept, State.relocked, State.wf_kept]
    rfl

/-! ### Self-refresh at the seam (R439) -/

/-- Outside self-refresh, and on a channel that is not trained, MC_STAT shows none. -/
theorem fld_mcStatSeam_none {sref : Bool} {v : Word} (h : ¬ (sref = true ∧ fld v 31 31 = 1)) : fld (mcStatSeam sref v) 30 30 = 0 := by
  have hmask : (0x9FFFFFF8 : Nat).testBit 30 = false := by decide
  have hbit : (mcStatSeam sref v).toNat.testBit 30 = false := by
    rw [mcStatSeam, if_neg h]
    simp [hmask]
  refine Nat.eq_of_testBit_eq fun i => ?_
  rw [fld_testBit, Nat.zero_testBit]
  cases i with
  | zero => rw [hbit, Bool.and_false]
  | succ i => rw [decide_eq_false (by omega), Bool.false_and]

/-- In self-refresh a trained channel shows it. -/
theorem fld_mcStatSeam_shown {v : Word} (h : fld v 31 31 = 1) : fld (mcStatSeam true v) 30 30 = 1 := by
  have hset : (0x40000000 : Nat).testBit 30 = true := by decide
  have hbit : (mcStatSeam true v).toNat.testBit 30 = true := by
    rw [mcStatSeam, if_pos ⟨rfl, h⟩]
    simp [hset]
  have hone : (1 : Nat).testBit 0 = true := by decide
  refine Nat.eq_of_testBit_eq fun i => ?_
  rw [fld_testBit]
  cases i with
  | zero => rw [hbit, hone]; rfl
  | succ i =>
    rw [decide_eq_false (by omega), Bool.false_and, Nat.testBit_succ]
    exact (Nat.zero_testBit i).symm

/-- Setting HOT of a channel leaves the other bits of its register. -/
theorem State.hotSeam_other (l : List (Nat × Nat)) (mc : Nat) (s : State) :
    (l.foldl (fun (s : State) d => s.wf (mcPg d.1 + 0x100) 29 29 1) s).rf (mcPg mc + 0x100) 30 30 = s.rf (mcPg mc + 0x100) 30 30 := by
  induction l generalizing s with
  | nil => rfl
  | cons d l ih =>
    rw [List.foldl_cons, ih]
    by_cases hd : d.1 = mc
    · rw [hd, State.rf_wf_field _ (by omega) (by omega)]
    · exact State.rf_wf_other s fun h => hd (mcPg_inj (Nat.add_right_cancel h)).symm

theorem State.publishMc_sref (s : State) (mc : Nat) : s.publishMc.rf (mcPg mc + 0x100) 30 30 = s.mcSeam.rf (mcPg mc + 0x100) 30 30 :=
  State.hotSeam_other s.hotDevs mc s.mcSeam

/-- A register of a table whose values are shown anew, where the shown value is none that the table leaves out. -/
theorem tbl_find?_shown {β : Type} {show_ : Nat × β → Nat × β} {keep : Nat × β → Bool} {k : Nat} {v : β} (hkey : ∀ p, (show_ p).1 = p.1)
    (hkeep : keep (show_ (k, v)) = true) (m : Tbl β) (h : Tbl.find? m k = some v) :
    Tbl.find? ((m.map show_).filter keep) k = some (show_ (k, v)).2 := by
  induction m with
  | nil => cases h
  | cons p m ih =>
    obtain ⟨j, w⟩ := p
    have hj' : (show_ (j, w)).1 = j := hkey _
    rw [List.map_cons, List.filter_cons]
    by_cases hj : j = k
    · subst hj
      have hw : w = v := by simpa [Tbl.find?] using h
      subst hw
      rw [if_pos hkeep]
      rcases hp : show_ (j, w) with ⟨i, x⟩
      rw [hp] at hj'
      rw [Tbl.find?, if_pos hj']
    · have hm : Tbl.find? m k = some v := by simpa [Tbl.find?, hj] using h
      split
      · rcases hp : show_ (j, w) with ⟨i, x⟩
        rw [hp] at hj'
        have hi : i ≠ k := fun e => hj (hj'.symm.trans e)
        rw [Tbl.find?, if_neg hi, ih hm]
      · exact ih hm

/-- MC_STAT reads 0 from reset (R338). -/
theorem resetOf_mcStat_zero {mc : Nat} (hmc : mc < 128) : resetOf (mcPg mc + 0x100) = 0 := by
  have hunit : mc % 2 = 0 ∨ mc % 2 = 1 := by omega
  have hrow : rowOf (locOf (mcPg mc + 0x100)) = findRow mcRows 0x100 := by
    rw [mcStat_loc hmc]
    rcases hunit with h | h <;> simp [rowOf, pageRows, pastEnd, h]
  rw [resetOf, hrow]
  rfl

/-- A register as the seam shows it (R439). -/
def mcShow (sref : Bool) (p : Nat × Word) : Nat × Word := if isMcStat p.1 then (p.1, mcStatSeam sref p.2) else p

/-- A register that the seam's table keeps: MC_STAT when it is not 0. -/
def mcKeep (p : Nat × Word) : Bool := !isMcStat p.1 || decide (p.2 ≠ 0)

theorem State.mcSeam_regs (s : State) : s.mcSeam.regs = (s.regs.map (mcShow (decide (s.pwrState = 3)))).filter mcKeep := rfl

theorem mcShow_key (sref : Bool) (p : Nat × Word) : (mcShow sref p).1 = p.1 := by
  rw [mcShow]
  split <;> rfl

theorem mcShow_stat {mc : Nat} (hmc : mc < 128) (sref : Bool) (v : Word) :
    mcShow sref (mcPg mc + 0x100, v) = (mcPg mc + 0x100, mcStatSeam sref v) := if_pos (isMcStat_mcPg hmc)

theorem State.rd_mcSeam_shown {s : State} {mc : Nat} {v : Word} (hmc : mc < 128) (hst : s.pwrState = 3)
    (hv : Tbl.find? s.regs (mcPg mc + 0x100) = some v) (hnz : mcStatSeam true v ≠ 0) : s.mcSeam.rd (mcPg mc + 0x100) = mcStatSeam true v := by
  have hkeep : mcKeep (mcShow (decide (s.pwrState = 3)) (mcPg mc + 0x100, v)) = true := by
    rw [hst, mcShow_stat hmc, mcKeep]
    exact Bool.or_eq_true_iff.2 (Or.inr (decide_eq_true hnz))
  have hfind := tbl_find?_shown (mcShow_key _) hkeep s.regs hv
  rw [State.rd, Tbl.get, State.mcSeam_regs, hfind, hst, mcShow_stat hmc]
  rfl

/-- MC_STAT shows self-refresh of a trained channel at the s16 of a stroke in I2, and of no other (R398, R439). -/
theorem publishMc_rules {mc : Nat} {s : State} (hmc : mc < 128) : (s.pwrState ≠ 3 → s.publishMc.rf (mcPg mc + 0x100) 30 30 = 0)
    ∧ (s.pwrState = 3 → s.rf (mcPg mc + 0x100) 31 31 = 1 → s.publishMc.rf (mcPg mc + 0x100) 30 30 = 1) := by
  rw [State.publishMc_sref]
  have hreset := resetOf_mcStat_zero hmc
  refine ⟨fun hst => ?_, fun hst htr => ?_⟩
  · rw [State.rf, State.rd, State.mcSeam_regs]
    refine tbl_get_of_forall (P := fun v => fld v 30 30 = 0) (by rw [hreset]; decide) _ fun p hp hk => ?_
    obtain ⟨q, -, rfl⟩ := List.mem_map.mp (List.mem_filter.mp hp).1
    have hq : isMcStat q.1 = true := by
      rw [mcShow_key] at hk
      exact hk ▸ isMcStat_mcPg hmc
    rw [mcShow, if_pos hq]
    exact fld_mcStatSeam_none fun h => hst (of_decide_eq_true h.1)
  · obtain ⟨v, hv⟩ : ∃ v, Tbl.find? s.regs (mcPg mc + 0x100) = some v := by
      cases hf : Tbl.find? s.regs (mcPg mc + 0x100) with
      | some v => exact ⟨v, rfl⟩
      | none =>
        rw [State.rf, State.rd, Tbl.get, hf, hreset] at htr
        exact absurd htr (by decide)
    have htrained : fld v 31 31 = 1 := by
      rw [State.rf, State.rd, Tbl.get, hv] at htr
      exact htr
    have hshown := fld_mcStatSeam_shown htrained
    have hnz : mcStatSeam true v ≠ 0 := fun h => by
      rw [h] at hshown
      exact absurd hshown (by decide)
    rw [State.rf, State.rd_mcSeam_shown hmc hst hv hnz]
    exact hshown

/-! ### Samples (R400) -/

/-- The hottest junction of a sample ends throttling, or not (R401): registers and the controller's flags at most. -/
theorem State.throttleEnd_keeps (s : State) : s.throttleEnd.aon = s.aon ∧ s.throttleEnd.cores = s.cores
    ∧ (∃ b, s.throttleEnd.pow = { s.pow with throttle := b }) ∧ ∀ a, a ≠ pwrStat → s.throttleEnd.rd a = s.rd a := by
  rw [State.throttleEnd]
  split
  · exact ⟨State.wf_aon .., State.wf_cores .., ⟨false, State.wf_pow ..⟩, fun a h => State.rd_wf_other _ _ _ _ h⟩
  · exact ⟨rfl, rfl, ⟨s.pow.throttle, rfl⟩, fun _ _ => rfl⟩

/-- What a sample makes of the power controller (R400). -/
def Power.sampled (p : Power) (watts mv i10ma : Nat) (tj : Int) (low : List Bool) : Power :=
  { p with
    samples := (p.samples ++ [watts]).drop ((p.samples ++ [watts]).length - 100), peak := max p.peak watts, tj := tj, vin := mv, iin := i10ma,
    low := low }

/-- Which samples of the last millisecond had a low input voltage (R429). -/
def Power.lows (p : Power) (mv : Nat) : List Bool := (p.low ++ [decide (38000 ≤ mv) && decide (mv < 40000)]).drop (p.low.length + 1 - 100)

/-- The always-on clock counts a sample while the generator stands still (R334). -/
def State.sampleTime (s : State) : State := if s.gen.running then s else { s with aon := { s.aon with time := s.aon.time + 160000 } }

/-- The registers that show a sample (R400). -/
def State.sampleShown (s : State) (tj : Int) (low : Bool) : State :=
  ((s.wf (pwrPg + 0x10C) 31 16 (min s.pow.peak 0xFFFF)).wr (pwrPg + 0x110) (BitVec.ofNat 32 ((BitVec.ofInt 16 tj).toNat))).wf
    (pwrPg + 0x118) 27 27 (bit low)

theorem State.sampleTime_keeps (s : State) : s.sampleTime.pow = s.pow ∧ s.sampleTime.cores = s.cores ∧ s.sampleTime.mem = s.mem := by
  rw [State.sampleTime]
  split <;> exact ⟨rfl, rfl, rfl⟩

theorem exec_powerSample {watts mv i10ma : Nat} {s : State} (tj : Int) (hw : watts < 65536) (hv : mv < 65536) (hi : i10ma < 65536)
    (hp : s.aon.powered = true) : exec (.powerSample watts mv i10ma tj) s
      = .next (((s.modPow (·.sampled watts mv i10ma tj (s.pow.lows mv))).sampleTime.sampleShown tj ((s.pow.lows mv).any id)).throttleEnd) := by
  have hwf : (Instr.powerSample watts mv i10ma tj).wf = true := by
    exact Bool.and_eq_true_iff.mpr ⟨Bool.and_eq_true_iff.mpr ⟨decide_eq_true hw, decide_eq_true hv⟩, decide_eq_true hi⟩
  change execPowerSample watts mv i10ma tj s = _
  rw [execPowerSample, inRange, if_pos hwf, hp, if_neg (by decide)]
  rfl

/-- A sample joins those of the last millisecond and raises the peak (R400). -/
theorem powerSample_rules {watts mv i10ma : Nat} {s : State} (tj : Int) (hw : watts < 65536) (hv : mv < 65536) (hi : i10ma < 65536)
    (hp : s.aon.powered = true) :
    ∃ t, exec (.powerSample watts mv i10ma tj) s = .next t ∧ t.pow.peak = max s.pow.peak watts ∧ t.pow.tj = tj ∧ t.pow.vin = mv
      ∧ (s.pow.samples.length < 100 → t.pow.samples = s.pow.samples ++ [watts])
      ∧ t.rd (pwrPg + 0x110) = BitVec.ofNat 32 (BitVec.ofInt 16 tj).toNat ∧ t.cores = s.cores ∧ t.mem = s.mem := by
  obtain ⟨low, hlow⟩ : ∃ low, low = s.pow.lows mv := ⟨_, rfl⟩
  have hx := exec_powerSample tj hw hv hi hp
  rw [← hlow] at hx
  obtain ⟨hpow, hcores, hmem⟩ := (s.modPow (·.sampled watts mv i10ma tj low)).sampleTime_keeps
  obtain ⟨w, hw⟩ : ∃ w, w = (s.modPow (·.sampled watts mv i10ma tj low)).sampleTime.sampleShown tj (low.any id) := ⟨_, rfl⟩
  rw [← hw] at hx
  have hwpow : w.pow = s.pow.sampled watts mv i10ma tj low := by
    rw [hw, State.sampleShown, State.wf_pow, State.wr_pow, State.wf_pow, hpow, State.modPow_pow]
  have hwcores : w.cores = s.cores := by
    rw [hw, State.sampleShown, State.wf_cores, State.wr_cores, State.wf_cores, hcores]
    rfl
  have hwmem : w.mem = s.mem := by
    rw [hw, State.sampleShown, State.wf_mem, State.wr_mem, State.wf_mem, hmem]
    rfl
  have hwrd : w.rd (pwrPg + 0x110) = BitVec.ofNat 32 (BitVec.ofInt 16 tj).toNat := by
    rw [hw, State.sampleShown, State.rd_wf_other _ _ _ _ (by decide), State.rd_wr_same]
  obtain ⟨-, htc, ⟨b, htp⟩, htr⟩ := w.throttleEnd_keeps
  rw [hwpow] at htp
  refine ⟨_, hx, ?_, ?_, ?_, fun hlen => ?_, (htr _ (by decide)).trans hwrd, htc.trans hwcores,
      (State.mem_of_kept (State.throttleEnd_kept w)).trans hwmem⟩
  · rw [htp]; rfl
  · rw [htp]; rfl
  · rw [htp]; rfl
  · rw [htp]
    have hdrop : (s.pow.samples ++ [watts]).length - 100 = 0 := by
      rw [List.length_append, List.length_singleton]
      omega
    exact (congrArg (List.drop · (s.pow.samples ++ [watts])) hdrop).trans List.drop_zero

/-- Settles O59: what PWR_CTL keeps, what the power-up out of I2 leaves, what the seam shows, and what a sample adds. -/
theorem powerRequestsAndSamples : Obligations.PowerRequestsAndSamples := by
  unfold Obligations.PowerRequestsAndSamples
  exact ⟨fun ag target s ht hmay => pwrCtl_rules ht hmay, fun s hst hl => i2ExitDone_rules hst hl, fun mc s hmc => publishMc_rules hmc,
    fun watts mv i10ma tj s hw hv hi hp => powerSample_rules tj hw hv hi hp⟩

end Sys2Proof.Machine

/-! Resets (R348 to R357). -/

namespace Sys2Proof.Machine

/-! ### What is held in reset (R350, R351) -/

/-- Which blocks are held in reset, and whether memory is. -/
def State.holds (s : State) : List Nat × Bool := (s.held, s.memHeld)

theorem State.holds_of_bones {s t : State} (h : t.bones = s.bones) : t.holds = s.holds :=
  Prod.ext (congrArg (·.2.1) h) (congrArg (·.2.2.1) h)

theorem State.aon_of_bones {s t : State} (h : t.bones = s.bones) : t.aon = s.aon := congrArg (·.1) h

theorem State.rst_of_bones {s t : State} (h : t.bones = s.bones) : t.rst = s.rst := congrArg (·.2.2.2.1) h

theorem State.foldl_holds {α : Type} {f : State → α → State} (h : ∀ t x, (f t x).holds = t.holds) (l : List α) (s : State) :
    (l.foldl f s).holds = s.holds := by
  induction l generalizing s with
  | nil => rfl
  | cons x r ih => exact (ih _).trans (h s x)

/-- The requests, rows and windows of the compute domain as reset leaves them (R351). -/
def State.computeEmpty (s : State) : State :=
  { s with reqs := [], xfers := [], memWrs := [], class2 := [], flows := [], posted := [], win := [], winPar := [], entropyBad := [],
           ceBursts := [], openPages := [], patrolAt := [], xbarRR := [] }

theorem State.computeEmpty_holds (s : State) : s.computeEmpty.holds = s.holds := rfl

theorem State.freshCompute_holds (s : State) : s.freshCompute.holds = s.holds := by
  have hctx : ∀ (l : List Nat) (u : State), (l.foldl (fun (s : State) c => (s.endCtx c).clearEntries c) u).holds = u.holds := fun l =>
    State.foldl_holds (fun t c => (State.holds_of_bones (State.clearEntries_bones ..)).trans (State.holds_of_bones (State.endCtx_bones t c))) l
  have hcore : ∀ (l : List Nat) (u : State),
      (l.foldl (fun (s : State) gp => ((s.abandonSegment gp).dropTraffic gp).zeroCore gp domainClears) u).holds = u.holds := fun l =>
    State.foldl_holds (fun t gp => (State.holds_of_bones (State.zeroCore_bones ..)).trans
      ((State.holds_of_bones (State.dropTraffic_bones ..)).trans (State.holds_of_bones (State.abandonSegment_bones t gp)))) l
  have hslice : ∀ (l : List Nat) (u : State), (l.foldl (fun (s : State) n => s.zeroSlice n) u).holds = u.holds := fun l =>
    State.foldl_holds (fun t n => State.holds_of_bones (State.zeroSlice_bones t n)) l
  have hback : ∀ (l : List Nat) (u : State), (l.foldl (fun (s : State) gp => s.zeroCoreDone gp) u).holds = u.holds := fun l =>
    State.foldl_holds (fun t gp => State.holds_of_bones (State.zeroCoreDone_bones t gp)) l
  have hdone : ∀ (l : List Nat) (u : State), (l.foldl (fun (s : State) n => s.zeroSliceDone n) u).holds = u.holds := fun l =>
    State.foldl_holds (fun t n => State.holds_of_bones (State.zeroSliceDone_bones t n)) l
  rw [State.freshCompute, hdone, hback]
  refine (State.computeEmpty_holds _).trans ?_
  rw [State.holds_of_bones (State.clearPages_bones ..), hslice, hcore, hctx]

theorem State.endJob_holds (s : State) (j : RstJob) (now : Nat) : (s.endJob j now).holds = s.holds := by
  have hctx : ∀ (l : List Nat) (u : State), (l.foldl (fun (s : State) c => (s.pendCtx c).clearEntries c) u).holds = u.holds := fun l =>
    State.foldl_holds (fun t c => (State.holds_of_bones (State.clearEntries_bones ..)).trans (State.holds_of_bones (State.pendCtx_bones t c))) l
  have hwr : ∀ (u : State) (v : Word), (u.wr (rstPg + 0x108) v).holds = u.holds := fun u v => State.holds_of_bones (State.wr_bones ..)
  have hwf : ∀ u : State, (u.wf (rstPg + 0x104) 31 31 0).holds = u.holds := fun u => State.holds_of_bones (State.wf_bones ..)
  simp only [State.endJob]
  rw [apply_ite State.holds, hwf, ite_self, hwr, apply_ite State.holds, hctx, ite_self]
  rfl

theorem State.settleJobs_holds (s : State) (now : Nat) : (s.settleJobs now).holds = s.holds := by
  rw [State.settleJobs]
  exact State.foldl_holds (fun t j => t.endJob_holds j now) _ s

/-! ### Requests (R348, R353, R355) -/

/-- The state in which a reset begins: its dump, if one is asked for, is captured (R355). -/
def State.dumped (s : State) (dump : Bool) (r : RstGo) : State :=
  if dump then s.dumpNow (s.rstScope r) r.level (s.rstMask r) r.env.silent else s

/-- A request that a reset in progress covers joins it (R353). -/
theorem State.request_joins {s : State} {r : RstGo} (hc : s.rst.any (fun j => j.covers (s.rstJob r)) = true) (dump : Bool) :
    s.request dump r = s := if_pos (Or.inr hc)

section
variable {s : State} {r : RstGo} {dump : Bool} (hp : s.aon.powered = true)
  (hc : s.rst.any (fun j => j.covers (s.rstJob r)) = false)
include hp hc

theorem State.request_eq (dump : Bool) : s.request dump r = s.dumpThen dump r := by
  refine if_neg ?_
  rw [hp, hc]
  decide

/-- A request that nothing covers, with no capture before it, begins its reset (R355). -/
theorem State.request_begins (hd : dump = false ∨ s.capturing = false) : s.request dump r = (s.dumped dump r).goLevel r := by
  rw [State.request_eq hp hc, State.dumpThen, State.dumped]
  cases dump with
  | false => rw [if_pos (by decide), if_neg (by decide)]
  | true =>
    have hcap : s.capturing = false := hd.resolve_left Bool.noConfusion
    rw [if_neg (by decide), if_neg (by rw [hcap]; decide), if_pos rfl]

/-- Behind a capture in progress a reset that asks for a dump waits (R355, R357). -/
theorem State.request_waits (hcap : s.capturing = true) :
    s.request true r = s.withDumpWait (s.dumpWait ++ [.rst (s.sameScope (s.rstScope r)) r]) := by
  rw [State.request_eq hp hc, State.dumpThen, if_neg (by decide), if_pos hcap]
  rfl

end

/-! ### The levels (R349 to R352) -/

/-- A state that holds these blocks in reset. -/
def State.withHeld (s : State) (l : List Nat) : State := { s with held := l }

theorem State.withHeld_held (s : State) (l : List Nat) : (s.withHeld l).held = l := rfl

/-- The blocks, cores and slices of a partition reset once their contents are gone (R350). -/
def State.partWiped (s : State) (r : RstGo) : State :=
  let bs := s.ctxBlocks r.ctx
  let u := (maskCtxs (s.rstMask r)).foldl (fun (s : State) k => s.resetCtx k []) (s.startJob (s.rstJob r) r.esc)
  let u := (bs.flatMap (fun b => (List.range 10).map (10 * b + ·))).foldl (fun (s : State) gp =>
    if (s.core gp).zeroing then s.clearCoreRegs gp domainClears else s.wipeCore gp domainClears) u
  let u := (s.partSlices r).foldl (fun (s : State) n => if s.sliceZero.contains n then s else s.zeroSlice n) u
  u.clearPages (fun l => decide (l.blk < 8) && !l.module && decide (0x20 ≤ l.unit) && decide (l.unit < 0x29) && bs.contains (8 * l.region + l.blk))

theorem State.goPartition_eq (s : State) (r : RstGo) : s.goPartition r
    = if r.env.stuck || s.heldFast then (s.partWiped r).withHeld (((s.partWiped r).held ++ s.ctxBlocks r.ctx).dedup)
      else ((s.ctxBlocks r.ctx).foldl (fun (s : State) b => s.enableBlock b)
        ((s.partWiped r).withHeld ((s.partWiped r).held.filter (fun b => !(s.ctxBlocks r.ctx).contains b)))).settleJobs (s.aon.time + 16 * r.env.t) :=
  id rfl

/-- A partition reset holds its blocks when it does not complete, or while the domains are held fast, and releases them when it completes
(R350). -/
theorem State.goPartition_held (s : State) (r : RstGo) :
    ∀ b ∈ s.ctxBlocks r.ctx, (b ∈ (s.goPartition r).held ↔ r.env.stuck = true ∨ s.heldFast = true) := by
  intro b hb
  rw [State.goPartition_eq]
  generalize s.partWiped r = u
  cases hst : r.env.stuck || s.heldFast with
  | true =>
    rw [if_pos rfl, State.withHeld_held]
    exact iff_of_true (List.mem_dedup.2 (List.mem_append_right _ hb)) (Bool.or_eq_true_iff.1 hst)
  | false =>
    have hheld : ∀ (l : List Nat) (v : State) (now : Nat), ((l.foldl (fun (s : State) b => s.enableBlock b) v).settleJobs now).held = v.held :=
      fun l v now => congrArg (·.1) ((State.settleJobs_holds _ now).trans
        (State.foldl_holds (fun t x => State.holds_of_bones (State.enableBlock_bones t x)) l v))
    rw [if_neg Bool.false_ne_true, hheld, State.withHeld_held]
    refine iff_of_false (fun h => ?_) (fun h => ?_)
    · have := (List.mem_filter.1 h).2
      rw [List.contains_iff_mem.2 hb] at this
      cases this
    · rw [Bool.or_eq_true_iff.2 h] at hst
      cases hst

/-- A state with these blocks held in reset, and with memory held or not. -/
def State.withHolds (s : State) (l : List Nat) (m : Bool) : State := { s with held := l, memHeld := m }

theorem State.withHolds_holds (s : State) (l : List Nat) (m : Bool) : (s.withHolds l m).holds = (l, m) := rfl
theorem State.withHolds_held (s : State) (l : List Nat) (m : Bool) : (s.withHolds l m).held = l := rfl
theorem State.withHolds_memHeld (s : State) (l : List Nat) (m : Bool) : (s.withHolds l m).memHeld = m := rfl
theorem State.withHolds_flash (s : State) (l : List Nat) (m : Bool) : (s.withHolds l m).flash = s.flash := rfl
theorem State.withHolds_aon (s : State) (l : List Nat) (m : Bool) : (s.withHolds l m).aon = s.aon := rfl
theorem State.rd_withHolds (s : State) (l : List Nat) (m : Bool) (a : Nat) : (s.withHolds l m).rd a = s.rd a := rfl

theorem State.holdAll_eq (s : State) : s.holdAll = s.withHolds (List.range 512) true := by
  rw [State.holdAll, State.withHolds]

/-- The work of a chip compute reset that completes (R351). -/
def State.chipDone (s : State) (r : RstGo) : State :=
  (((r.env.badChannels.foldl (fun (s : State) mc => s.channelFails mc r.env.t) ((s.startJob (s.rstJob r) r.esc).withHolds []
      false).freshCompute).replayRepairs
    false r.env.hppr).pendAll.enableAll).endJob (s.rstJob r) (s.aon.time + 16 * r.env.t + 16000 * r.env.us)

theorem State.goChip_eq (s : State) (r : RstGo) : s.goChip r = if r.env.stuck || s.heldFast
    then ((List.range 16).foldl (fun (s : State) c => s.endCtx c) (s.startJob (s.rstJob r) r.esc)).holdAll else s.chipDone r := by
  rw [State.goChip, State.chipDone, State.withHolds]

theorem State.chipDone_holds (s : State) (r : RstGo) : (s.chipDone r).holds = ([], false) := by
  have hbad : ∀ (l : List Nat) (u : State), (l.foldl (fun (s : State) mc => s.channelFails mc r.env.t) u).holds = u.holds := fun l =>
    State.foldl_holds (fun t mc => State.holds_of_bones (State.channelFails_bones t mc _)) l
  rw [State.chipDone, State.endJob_holds, State.holds_of_bones (State.enableAll_bones _), State.holds_of_bones (State.pendAll_bones _),
    State.holds_of_bones (State.replayRepairs_bones ..), hbad, State.freshCompute_holds, State.withHolds_holds]

/-- A chip compute reset holds compute and memory when it does not complete, or while they are held fast, and releases them when it completes
(R351). -/
theorem State.goChip_held (s : State) (r : RstGo) : (s.goChip r).held = (if r.env.stuck || s.heldFast then List.range 512 else [])
    ∧ (s.goChip r).memHeld = (r.env.stuck || s.heldFast) := by
  rw [State.goChip_eq]
  cases hst : r.env.stuck || s.heldFast with
  | true =>
    rw [if_pos rfl, if_pos rfl]
    rw [State.holdAll_eq, State.withHolds_held, State.withHolds_memHeld]
    exact ⟨Eq.refl _, Eq.refl _⟩
  | false =>
    rw [if_neg Bool.false_ne_true, if_neg Bool.false_ne_true]
    have h := s.chipDone_holds r
    exact ⟨congrArg (·.1) h, congrArg (·.2) h⟩

/-- An engine reset that completes begins the zeroisation of its core (R349). -/
theorem State.goEngine_zeroes {s : State} {r : RstGo} {gp : Nat} (hl : r.level = 2) (hphys : s.physOf r.gl = some gp) (hst : r.env.stuck = false) :
    ((s.goEngine r).core gp).zeroing = true ∧ (s.goEngine r).rf (corePg gp + 0x280) 31 31 = 1
      ∧ ∃ j ∈ (s.goEngine r).rst, j.level = 2 ∧ j.cores = [gp] := by
  have hx : s.goEngine r = (s.startJob (s.rstJob r) r.esc).wipeCore gp domainClears := by
    rw [State.goEngine, hphys]
    exact if_neg (by rw [hst]; decide)
  obtain ⟨u, hu⟩ : ∃ u : State, (s.startJob (s.rstJob r) r.esc).wipeCore gp domainClears = u.zeroCore gp domainClears := ⟨_, rfl⟩
  have hrst : (s.goEngine r).rst = (s.startJob (s.rstJob r) r.esc).rst := by
    rw [hx, State.rst_of_bones (State.wipeCore_bones ..)]
  have hjob : (s.rstJob r).cores = [gp] := by
    simp only [State.rstJob, hl, hphys]
    rfl
  refine ⟨?_, ?_, s.rstJob r, ?_, hl, hjob⟩
  · rw [hx, hu, State.core_zeroCore_same]
  · obtain ⟨l, hz⟩ := u.zeroCore_eq gp domainClears
    rw [hx, hu, hz, State.rf_wf_same _ (by omega)]
    rfl
  · rw [hrst, State.startJob, State.wr_rst]
    exact List.mem_append_right _ List.mem_cons_self

/-- A power cycle's record and request, after its job has started (R352). -/
def State.powerCut (u : State) : State :=
  ((u.withFlash { u.flash with
      postMortem := u.recent.drop (u.recent.length - 120), postRst := u.rd (rstPg + 0x104) }).withAon { u.aon with
      pwrcyc := u.aon.pwrcyc || decide (u.rf (rstPg + 0x10C) 8 8 = 1) }).holdAll

theorem State.goPower_eq (s : State) (r : RstGo) : s.goPower r = (s.startJob (s.rstJob r) r.esc).powerCut := id rfl

theorem State.withAon_flash (s : State) (a : Aon) : (s.withAon a).flash = s.flash := rfl
theorem State.rd_withFlash' (s : State) (f : Flash) (a : Nat) : (s.withFlash f).rd a = s.rd a := rfl

theorem State.powerCut_memHeld (u : State) : u.powerCut.memHeld = true := by
  rw [State.powerCut, State.holdAll_eq, State.withHolds_memHeld]

theorem State.rd_powerCut (u : State) (a : Nat) : u.powerCut.rd a = u.rd a := by
  rw [State.powerCut, State.holdAll_eq, State.rd_withHolds, State.rd_withAon, State.rd_withFlash']
theorem State.powerCut_postMortem (u : State) : u.powerCut.flash.postMortem = u.recent.drop (u.recent.length - 120) := by
  rw [State.powerCut, State.holdAll_eq, State.withHolds_flash, State.withAon_flash, State.withFlash_flash]
theorem State.powerCut_pwrcyc (u : State) : u.powerCut.aon.pwrcyc = (u.aon.pwrcyc || decide (u.rf (rstPg + 0x10C) 8 8 = 1)) := by
  rw [State.powerCut, State.holdAll_eq, State.withHolds_aon, State.withAon_aon]

theorem State.withRst_recent (s : State) (l : List RstJob) : (s.withRst l).recent = s.recent := rfl
theorem State.withRst_aon (s : State) (l : List RstJob) : (s.withRst l).aon = s.aon := rfl
theorem State.rd_withRst (s : State) (l : List RstJob) (a : Nat) : (s.withRst l).rd a = s.rd a := rfl

/-- The status a reset that starts shows (R348). -/
def RstJob.statWord (j : RstJob) (esc : Bool) : Word :=
  BitVec.ofNat 32 (2 ^ 31 + j.level * 2 ^ 28 + bit esc * 2 ^ 27 + j.origin * 2 ^ 24 + j.ctxMask % 2 ^ 16)

theorem State.startJob_eq (s : State) (j : RstJob) (esc : Bool) :
    s.startJob j esc = (s.withRst (s.rst.filter (fun (k : RstJob) => !k.meets j) ++ [j])).wr (rstPg + 0x104) (j.statWord esc) := id rfl

theorem State.rd_startJob_other (s : State) (j : RstJob) (esc : Bool) {a : Nat} (h : a ≠ rstPg + 0x104) : (s.startJob j esc).rd a = s.rd a := by
  rw [State.startJob_eq, State.rd_wr_other _ _ h, State.rd_withRst]

/-- A power cycle writes the post-mortem record and asserts PWRCYC_REQ_N under PCYC_EN (R352). -/
theorem State.goPower_writes {s : State} {r : RstGo} (hl : r.level = 5) (he : r.esc = false) (ho : r.origin = 5) :
    (s.goPower r).memHeld = true ∧ (s.goPower r).rf (rstPg + 0x104) 31 28 = 8 + 5
      ∧ (s.goPower r).flash.postMortem = s.recent.drop (s.recent.length - 120)
      ∧ (s.goPower r).aon.pwrcyc = (s.aon.pwrcyc || decide (s.rf (rstPg + 0x10C) 8 8 = 1)) := by
  have hstat : (s.startJob (s.rstJob r) r.esc).rd (rstPg + 0x104) = BitVec.ofNat 32 (2 ^ 31 + 5 * 2 ^ 28 + 0 * 2 ^ 27 + 5 * 2 ^ 24 + s.rstMask r % 2
      ^ 16) := by
    rw [State.startJob_eq, State.rd_wr_same, RstJob.statWord, State.rstJob, hl, he, ho]
    rfl
  rw [State.goPower_eq]
  refine ⟨State.powerCut_memHeld _, ?_, ?_, ?_⟩
  · rw [State.rf_of_rd (State.rd_powerCut ..), State.rf, hstat, fld, BitVec.toNat_ofNat]
    omega
  · rw [State.powerCut_postMortem, State.startJob_eq, State.wr_recent, State.withRst_recent]
  · rw [State.powerCut_pwrcyc, State.rf_of_rd (State.rd_startJob_other _ _ _ (by decide)), State.startJob_eq, State.wr_aon, State.withRst_aon]

/-! ### The end of a context (R349) -/

theorem State.rd_foldl_mem {α : Type} {f : State → α → State} {a : Nat} {l : List α} (hf : ∀ t, ∀ x ∈ l, (f t x).rd a = t.rd a) (s : State) :
    (l.foldl f s).rd a = s.rd a := by
  induction l generalizing s with
  | nil => rfl
  | cons x l ih =>
    rw [List.foldl_cons, ih (fun t y hy => hf t y (List.mem_cons_of_mem _ hy)), hf s x List.mem_cons_self]

theorem locOf_region_lt (a : Nat) : (locOf a).region < 64 := by
  rw [locOf]
  split
  · exact Nat.zero_lt_succ _
  · exact Nat.mod_lt _ (by decide)

theorem locOf_page_lt {a : Nat} (h : (locOf a).module = false) : (locOf a).page < 16 ∧ (locOf a).off < 4096 := by
  revert h
  rw [locOf]
  split
  · exact fun h => Bool.noConfusion h
  · exact fun _ => ⟨Nat.mod_lt _ (by decide), Nat.mod_lt _ (by decide)⟩

theorem State.pagesWhere_lt {s : State} {f : Nat → Bool} {p : Nat × Nat} (h : p ∈ s.pagesWhere f) : p.1 < 64 ∧ p.2 < 8192 := by
  rw [State.pagesWhere, List.mem_flatMap] at h
  obtain ⟨q, -, h⟩ := h
  simp only at h
  split at h
  next hl =>
    obtain ⟨hm, -, -, hpage, hoff⟩ := hl
    obtain ⟨i, hi, h⟩ := List.mem_filterMap.1 h
    have hoff := (locOf_page_lt (Bool.not_eq_true' _ ▸ hm)).2
    have hreg := locOf_region_lt q.1
    have hi := List.mem_range.1 hi
    split at h
    · cases h
      exact ⟨hreg, by simp only; omega⟩
    · cases h
  next => cases h

theorem State.ctxEntries_lt {s : State} {c : Nat} {e : Nat × Nat} (h : e ∈ s.ctxEntries c) : e.1 < 64 ∧ e.2 < 4096 := by
  rw [State.ctxEntries, List.mem_flatMap] at h
  obtain ⟨q, -, h⟩ := h
  rw [partEntriesOf] at h
  split at h
  next hl =>
    obtain ⟨hm, -, -, hpage, hoff⟩ := hl
    obtain ⟨i, hi, h⟩ := List.mem_filterMap.1 h
    have hoff := (locOf_page_lt (Bool.not_eq_true' _ ▸ hm)).2
    have hreg := locOf_region_lt q.1
    have hi := List.mem_range.1 hi
    split at h
    · cases h
      exact ⟨hreg, by simp only; omega⟩
    · cases h
  next => cases h

section
variable {a : Nat} (ha : 2 ^ 32 ≤ a)
include ha

theorem State.rd_wrByte_module (s : State) {b : Nat} (v : Nat) (hb : b < 2 ^ 32) : (s.wrByte b v).rd a = s.rd a :=
  State.rd_wf_other _ _ _ _ (by omega)

theorem State.rd_pendPage_module (s : State) {r p : Nat} (hr : r < 64) (hp : p < 8192) : (s.pendPage r p).rd a = s.rd a := by
  have hrc : ∀ q k, q < 16 → k < 0x10000 → rcPg r q + k < 2 ^ 32 := fun q k hq hk => by
    rw [rcPg, regionAddr]
    omega
  have howner : ownerAddr r p < 2 ^ 32 := by
    rw [ownerAddr, Nat.add_assoc]
    exact hrc _ _ (by omega) (by omega)
  rw [State.pendPage, State.rd_bump_other _ (by have := hrc 0 0x110 (by decide) (by decide); omega), State.setOwner,
      State.rd_wrByte_module ha _ _ howner]

theorem State.rd_pendCtx_module (s : State) (c : Nat) : (s.pendCtx c).rd a = s.rd a :=
  State.rd_foldl_mem (fun t _ hp => t.rd_pendPage_module ha (State.pagesWhere_lt hp).1 (State.pagesWhere_lt hp).2) s

theorem State.rd_clearEntries_module (s : State) (c : Nat) : (s.clearEntries c).rd a = s.rd a :=
  State.rd_foldl_mem (fun t e he => t.rd_wrByte_module ha _ (by
    obtain ⟨h1, h2⟩ := State.ctxEntries_lt he
    rw [rcPg, regionAddr]
    omega)) s

theorem State.rd_endJob_module (s : State) (j : RstJob) (now : Nat) (h1 : a ≠ rstPg + 0x108) (h2 : a ≠ rstPg + 0x104) :
    (s.endJob j now).rd a = s.rd a := by
  simp only [State.endJob]
  rw [State.rd_ite, State.rd_wf_other _ _ _ _ h2, ite_self, State.rd_wr_other _ _ h1, State.rd_ite,
    State.rd_foldl (fun t c => (State.rd_clearEntries_module ha _ c).trans (t.rd_pendCtx_module ha c)), ite_self]
  exact State.rd_withRst ..

theorem State.rd_settleJobs_module (s : State) (now : Nat) (h1 : a ≠ rstPg + 0x108) (h2 : a ≠ rstPg + 0x104) :
    (s.settleJobs now).rd a = s.rd a :=
  State.rd_foldl (fun t j => t.rd_endJob_module ha j now h1 h2) _ s

end

theorem State.endJob_engines (s : State) (j : RstJob) (now : Nat) : (s.endJob j now).engines = s.engines := by
  have hctx : ∀ (l : List Nat) (u : State), (l.foldl (fun (s : State) c => (s.pendCtx c).clearEntries c) u).engines = u.engines := fun l u =>
    State.engines_of_rest (State.foldl_rest _ (fun t c => (State.clearEntries_rest ..).trans (t.pendCtx_rest c)) l u)
  simp only [State.endJob]
  rw [apply_ite State.engines, State.wf_engines, ite_self, State.wr_engines, apply_ite State.engines, hctx, ite_self]

theorem State.settleJobs_engines (s : State) (now : Nat) : (s.settleJobs now).engines = s.engines := by
  rw [State.settleJobs]
  generalize s.rst.filter _ = l
  induction l generalizing s with
  | nil => rfl
  | cons j l ih => rw [List.foldl_cons, ih, State.endJob_engines]

theorem State.releaseHalts_engines (s : State) (ctx : Nat) : (s.releaseHalts ctx).engines = s.engines := by
  rw [State.releaseHalts]
  generalize s.cores = l
  induction l generalizing s with
  | nil => rfl
  | cons x l ih => rw [List.foldl_cons, ih, apply_ite State.engines, State.modCore_engines, ite_self]

theorem State.rd_releaseHalts (s : State) (ctx a : Nat) : (s.releaseHalts ctx).rd a = s.rd a :=
  State.rd_foldl (fun t x => by rw [State.rd_ite, State.rd_modCore, ite_self]) _ s

/-- A session that closes changes no register and no slot engine (R395). -/
theorem State.closeSession_frame (s : State) : s.closeSession.engines = s.engines ∧ ∀ a, s.closeSession.rd a = s.rd a := by
  rw [State.closeSession]
  split
  · exact ⟨rfl, fun _ => rfl⟩
  · split
    · exact ⟨rfl, fun _ => rfl⟩
    · exact ⟨State.releaseHalts_engines .., State.rd_releaseHalts _ _⟩

theorem State.closeFor_frame (s : State) (c : Nat) : (s.closeFor c).engines = s.engines ∧ ∀ a, (s.closeFor c).rd a = s.rd a := by
  rw [State.closeFor]
  split
  · split
    · exact s.closeSession_frame
    · exact ⟨rfl, fun _ => rfl⟩
  · exact ⟨rfl, fun _ => rfl⟩

/-- A state in which these contexts' windows are disturbed. -/
def State.withPerturbed (s : State) (l : List Nat) : State := { s with perturbed := l }

theorem State.withPerturbed_engines (s : State) (l : List Nat) : (s.withPerturbed l).engines = s.engines := rfl
theorem State.rd_withPerturbed (s : State) (l : List Nat) (a : Nat) : (s.withPerturbed l).rd a = s.rd a := rfl

/-- The registers and the engines of a context that has ended, before its session closes (R349). -/
def State.ctxOff (s : State) (c : Nat) : State :=
  (((((s.wf (ctxPg c + 0x100) 31 31 0).wf (ctxPg c + 0x114) 31 31 0).wf (ctxPg c + 0x114) 22 16 0).setCtxEng c {}).wr (rstPg + 0x200 + 4 * c) 0).wf
    (rtPg + 0x180 + 4 * c) 31 31 0

theorem State.endCtx_eq (s : State) (c : Nat) :
    s.endCtx c = ((s.ctxOff c).closeFor c).withPerturbed (((s.ctxOff c).closeFor c).perturbed.filter (· ≠ c)) := id rfl

theorem State.rd_setCtxEng (s : State) (c : Nat) (e : CtxEng) (a : Nat) : (s.setCtxEng c e).rd a = s.rd a := rfl

theorem State.setCtxEng_ctxEng (s : State) (c : Nat) (e : CtxEng) : Tbl.get {} (s.setCtxEng c e).engines c = e := Tbl.get_set_same ..

/-- The addresses of a context's own registers are apart from each other and from those of a reset's status. -/
theorem ctx_regs_apart {c : Nat} (hc : c < 16) :
    ctxPg c + 0x114 ≠ rtPg + 0x180 + 4 * c ∧ ctxPg c + 0x114 ≠ rstPg + 0x200 + 4 * c ∧ ctxPg c + 0x100 ≠ rtPg + 0x180 + 4 * c
      ∧ ctxPg c + 0x100 ≠ rstPg + 0x200 + 4 * c ∧ rstPg + 0x200 + 4 * c ≠ rtPg + 0x180 + 4 * c
      ∧ (∀ k, ctxPg c + 0x114 ≠ rstPg + 0x100 + k ∨ 256 ≤ k) ∧ (∀ k, ctxPg c + 0x100 ≠ rstPg + 0x100 + k ∨ 256 ≤ k)
      ∧ (∀ k, rtPg + 0x180 + 4 * c ≠ rstPg + 0x100 + k ∨ 256 ≤ k) ∧ ∀ k, rstPg + 0x200 + 4 * c ≠ rstPg + 0x100 + k ∨ 256 ≤ k := by
  have h1 : ctxPg c = 2 ^ 32 + 3 * 2 ^ 24 + (16 + c) * 2 ^ 12 := rfl
  have h2 : rtPg = 2 ^ 32 + 2 * 2 ^ 24 + 16 * 2 ^ 12 := rfl
  have h3 : rstPg = 2 ^ 32 + 4 * 2 ^ 24 := rfl
  exact ⟨by omega, by omega, by omega, by omega, by omega, fun k => by omega, fun k => by omega, fun k => by omega, fun k => by omega⟩

/-- What the end of a context leaves (R349). -/
theorem State.endCtx_leaves (s : State) {c : Nat} (hc : c < 16) : (s.endCtx c).ctxActive c = false ∧ (s.endCtx c).ctxEng c = {}
    ∧ (s.endCtx c).rf (ctxPg c + 0x100) 31 31 = 0 ∧ (s.endCtx c).rd (rstPg + 0x200 + 4 * c) = 0
    ∧ (s.endCtx c).rf (rtPg + 0x180 + 4 * c) 31 31 = 0 := by
  obtain ⟨h1, h2, h3, h4, h5, -⟩ := ctx_regs_apart hc
  have hrd : ∀ a, (s.endCtx c).rd a = (s.ctxOff c).rd a := fun a => by
    rw [State.endCtx_eq, State.rd_withPerturbed, (State.closeFor_frame _ c).2]
  have hact : (s.ctxOff c).rf (ctxPg c + 0x114) 31 31 = 0 := by
    rw [State.ctxOff, State.rf_of_rd (State.rd_wf_other _ _ _ _ h1), State.rf_of_rd (State.rd_wr_other _ _ h2),
      State.rf_of_rd (State.rd_setCtxEng ..), State.rf_wf_field _ (by omega) (by omega), State.rf_wf_same _ (by omega)]
    rfl
  refine ⟨?_, ?_, ?_, ?_, ?_⟩
  · rw [State.ctxActive, State.rf_of_rd (hrd _), hact]
    rfl
  · rw [State.ctxEng, State.endCtx_eq, State.withPerturbed_engines, (State.closeFor_frame _ c).1, State.ctxOff, State.wf_engines, State.wr_engines,
      State.setCtxEng_ctxEng]
  · rw [State.rf_of_rd (hrd _), State.ctxOff, State.rf_of_rd (State.rd_wf_other _ _ _ _ h3), State.rf_of_rd (State.rd_wr_other _ _ h4),
      State.rf_of_rd (State.rd_setCtxEng ..), State.rf_of_rd (State.rd_wf_other _ _ _ _ (by omega)),
      State.rf_of_rd (State.rd_wf_other _ _ _ _ (by omega)), State.rf_wf_same _ (by omega)]
    rfl
  · rw [hrd, State.ctxOff, State.rd_wf_other _ _ _ _ h5, State.rd_wr_same]
  · rw [State.rf_of_rd (hrd _), State.ctxOff, State.rf_wf_same _ (by omega)]
    rfl

/-- A context reset ends its context: its engines are empty and EN, CTX_PROG and FLOW_CTX.EN clear (R349). -/
theorem State.goContext_leaves (s : State) {r : RstGo} (hc : r.ctx < 16) : (s.goContext r).ctxActive r.ctx = false ∧ (s.goContext r).ctxEng r.ctx = {}
    ∧ (s.goContext r).rf (ctxPg r.ctx + 0x100) 31 31 = 0 ∧ (s.goContext r).rd (rstPg + 0x200 + 4 * r.ctx) = 0
    ∧ (s.goContext r).rf (rtPg + 0x180 + 4 * r.ctx) 31 31 = 0 := by
  obtain ⟨u, now, hx⟩ : ∃ u now, s.goContext r = (State.endCtx u r.ctx).settleJobs now := ⟨_, _, rfl⟩
  obtain ⟨hact, heng, hen, hprog, hflow⟩ := u.endCtx_leaves hc
  have hrd : ∀ a, 2 ^ 32 ≤ a → (∀ k, a ≠ rstPg + 0x100 + k ∨ 256 ≤ k) → (s.goContext r).rd a = (u.endCtx r.ctx).rd a := fun a ha hk => by
    rw [hx, State.rd_settleJobs_module ha _ _ ((hk 8).resolve_right (by decide)) ((hk 4).resolve_right (by decide))]
  have hpos : 2 ^ 32 ≤ ctxPg r.ctx ∧ 2 ^ 32 ≤ rtPg ∧ 2 ^ 32 ≤ rstPg := by
    refine ⟨?_, by decide, by decide⟩
    rw [ctxPg, modPg, modAddr]
    omega
  obtain ⟨-, -, -, -, -, k1, k2, k3, k4⟩ := ctx_regs_apart hc
  refine ⟨?_, ?_, ?_, ?_, ?_⟩
  · rw [State.ctxActive, State.rf_of_rd (hrd _ (by omega) k1)]
    exact hact
  · rw [State.ctxEng, hx, State.settleJobs_engines]
    exact heng
  · rw [State.rf_of_rd (hrd _ (by omega) k2), hen]
  · rw [hrd _ (by omega) k4, hprog]
  · rw [State.rf_of_rd (hrd _ (by omega) k3), hflow]

/-! ### A capture keeps what holds a reset fast (R355, R401) -/

theorem State.withDump_dbg (s : State) (d : Option Dump) : (s.withDump d).dbg = s.dbg := rfl

theorem State.eccReport_dbg (gp la code cyc : Nat) (u : BitVec 1152) (l : List Nat) (s : State) : (s.eccReport gp la code cyc u l).dbg = s.dbg := by
  induction l generalizing s with
  | nil =>
    unfold State.eccReport
    exact Eq.refl _
  | cons w l ih =>
    unfold State.eccReport
    extract_lets m syn t
    rw [ih t]
    unfold t
    generalize eccClass m = k
    split
    · exact State.dbg_of_rest (State.coreErr_rest ..)
    · exact State.dbg_of_rest (State.coreErr_rest ..)
    · exact State.dbg_of_rest (State.coreErr_rest ..)
    · exact Eq.refl _

theorem State.storeRead_dbg (s : State) (gp la code cyc : Nat) : (s.storeRead gp la code cyc).2.dbg = s.dbg := by
  rw [State.storeRead_state, apply_ite State.dbg, apply_ite State.dbg, State.scrubNote, State.modCore_dbg, State.eccReport_dbg]
  simp only [ite_self]

theorem State.dumpCorrect_dbg (s : State) (u : DumpUnit) : (s.dumpCorrect u).2.dbg = s.dbg := by
  have hrows : ∀ (gp now : Nat) (l : List Nat) (x : DumpUnit × State), (l.foldl (State.correctRow gp now) x).2.dbg = x.2.dbg := fun gp now l => by
    induction l with
    | nil => exact fun _ => rfl
    | cons la l ih =>
      intro x
      rw [List.foldl_cons, ih]
      exact State.storeRead_dbg ..
  cases hc : s.pageCore u.addr with
  | none => rw [State.dumpCorrect_none hc]
  | some gp => rw [State.dumpCorrect_some hc, hrows]

theorem State.dumpRows_dbg (s : State) (us : List DumpUnit) : (s.dumpRows us).2.dbg = s.dbg := by
  have hfold : ∀ x : List DumpUnit × State, (us.foldl State.readUnit x).2.dbg = x.2.dbg := by
    induction us with
    | nil => exact fun _ => rfl
    | cons u us ih =>
      intro x
      rw [List.foldl_cons, ih, State.readUnit]
      split
      · rfl
      · exact State.dumpCorrect_dbg ..
  rw [State.dumpRows_eq, hfold]

theorem State.dumpPut_dbg (s : State) (n : Nat) (d : Dump) : (s.dumpPut n d).dbg = s.dbg := by
  rw [State.dumpPut, State.wf_dbg]

theorem State.dumpShown_dbg (s : State) (d : Dump) : (s.dumpShown d).dbg = s.dbg := by
  rw [State.dumpShown, State.wr_dbg, State.wr_dbg, State.wf_dbg, State.wf_dbg, State.wf_dbg]

theorem State.dumpEnd_dbg (s : State) : s.dumpEnd.dbg = s.dbg := by
  cases hd : s.dump with
  | none => rw [State.dumpEnd, hd]
  | some d =>
    by_cases hb : s.rf (dumpPg + 0x104) 31 31 = 0
    · have hx : s.dumpEnd = s := by
        rw [State.dumpEnd, hd]
        exact if_pos hb
      rw [hx]
    · cases hst : d.store with
      | false =>
        have hb : s.rf (dumpPg + 0x104) 31 31 = 1 := by
          have := s.rf_lt (dumpPg + 0x104) 31 31
          omega
        rw [State.dumpEnd_slot hd hb hst, State.dumpPut_dbg, State.dumpShown_dbg]
      | true =>
        have hx : s.dumpEnd = (s.dumpShown d).withDump (some { d with sent := 0 }) := by
          rw [State.dumpEnd, hd]
          refine (if_neg hb).trans (if_pos ?_)
          rw [hst]
        rw [hx, State.withDump_dbg, State.dumpShown_dbg]

theorem State.sendMark_dbg (s : State) (kind first : Nat) : (s.sendMark kind first).dbg = s.dbg := by
  have hgram : ∀ (u : State) (k n f o : Nat) (l : List (BitVec 8)), (u.sendDatagram k n f o l).dbg = u.dbg := fun u k n f o l => by
    rw [State.sendDatagram_eq, State.send_dbg, State.bump_dbg]
    rfl
  rw [State.sendMark]
  exact hgram ..

/-- The stream of a dump, no longer shown as running (R357). -/
def State.streamOff (s : State) : State := (s.wf (dumpPg + 0x104) 30 30 0).wf (evtPg + 0x104) 30 30 0

theorem State.abandonStream_dbg (s : State) : s.abandonStream.dbg = s.dbg := by
  have hoff : s.streamOff.dbg = s.dbg := by rw [State.streamOff, State.wf_dbg, State.wf_dbg]
  cases hd : s.dump with
  | none => rw [State.abandonStream, hd]
  | some d =>
    by_cases hr : s.rf (dumpPg + 0x104) 30 30 = 1
    · have hx : s.abandonStream = if s.streamOff.streams then s.streamOff.sendMark 3 d.seq else s.streamOff := by
        rw [State.abandonStream, hd]
        exact if_pos hr
      rw [hx, apply_ite State.dbg, State.sendMark_dbg, ite_self, hoff]
    · have hx : s.abandonStream = s := by
        rw [State.abandonStream, hd]
        exact if_neg hr
      rw [hx]

theorem State.dumpNow_dbg (s : State) (sc : DumpScope) (trigger mask : Nat) (silent : List Nat) : (s.dumpNow sc trigger mask silent).dbg = s.dbg := by
  obtain ⟨d, trunc, hx, -⟩ := s.dumpBegin_eq sc trigger mask silent none
  rw [State.dumpNow, State.dumpEnd_dbg, hx, State.dumpTaken, State.wf_dbg, State.wf_dbg, State.withDump_dbg, State.wr_dbg, State.dumpRead,
    State.dumpRows_dbg, State.abandonStream_dbg]

theorem State.dumpNow_bones (s : State) (sc : DumpScope) (trigger mask : Nat) (silent : List Nat) :
    (s.dumpNow sc trigger mask silent).bones = s.bones := by
  rw [State.dumpNow, State.dumpEnd_bones, State.dumpBegin_bones]

/-- What holds the domains fast is the state of the sensors, of the resets and of the debug session (R397, R401). -/
theorem State.heldFast_congr {s t : State} (ha : t.aon = s.aon) (hr : t.rst = s.rst) (hd : t.dbg = s.dbg) : t.heldFast = s.heldFast := by
  rw [State.heldFast, State.heldFast, ha, hr, hd]

theorem State.dumpNow_heldFast (s : State) (sc : DumpScope) (trigger mask : Nat) (silent : List Nat) :
    (s.dumpNow sc trigger mask silent).heldFast = s.heldFast := by
  have hb := s.dumpNow_bones sc trigger mask silent
  exact State.heldFast_congr (State.aon_of_bones hb) (State.rst_of_bones hb) (State.dumpNow_dbg ..)

/-! ### The commands -/

/-- The timer of a partition reset in progress escalates to the chip level (R353). -/
theorem resetEscalated_chip {n us : Nat} {env : RstEnv} {j : RstJob} {s : State} (henv : env.wf = true) (hj : s.rst[n]? = some j) (hl : j.level = 3)
    (hd : s.rf (rstPg + 0x10C) 9 9 = 0 ∨ s.capturing = false) :
    ∃ t, exec (.resetEscalated n us env) s = .next t ∧ t.held = (if env.stuck || s.heldFast then List.range 512 else [])
      ∧ t.memHeld = (env.stuck || s.heldFast) := by
  obtain ⟨u, r, hx, hrest, hrd, hr⟩ : ∃ (u : State) (r : RstGo),
      exec (.resetEscalated n us env) s = .next (u.dumpThen (decide (u.rf (rstPg + 0x10C) 9 9 = 1)) r)
      ∧ u.rest = s.rest ∧ (∀ a, u.rd a = s.rd a) ∧ r = s.escGo j env := by
    refine ⟨_, _, (if_pos henv).trans ?_, State.chipRec_rest s rstPg (if (s.escGo j env).level = 3 then 2 else 3) 0x43 (tclkCycle env.t)
      (BitVec.ofNat 64 (j.level + (s.escGo j env).level * 2 ^ 3 + Nat.lor j.ctxMask (s.rstMask (s.escGo j env)) * 2 ^ 6 + s.firstLate j * 2 ^ 22
        + us % 2 ^ 26 * 2 ^ 34)) none, fun a => State.rd_chipRec .., Eq.refl _⟩
    rw [hj]
    exact if_neg (by omega)
  have hlev : r.level = 4 := by
    rw [hr, State.escGo]
    simp only [State.nextLevel, hl]
  have hstk : r.env = env := by rw [hr, State.escGo]
  have hfast : u.heldFast = s.heldFast :=
    State.heldFast_congr (State.aon_of_rest hrest) (State.rst_of_rest hrest) (State.dbg_of_rest hrest)
  have hgo : ∀ v : State, v.heldFast = s.heldFast → (v.goLevel r).held = (if env.stuck || s.heldFast then List.range 512 else [])
      ∧ (v.goLevel r).memHeld = (env.stuck || s.heldFast) := fun v hv => by
    have hv' : v.goLevel r = v.goChip r := by simp only [State.goLevel, hlev]
    rw [hv', ← hv, ← hstk]
    exact v.goChip_held r
  refine ⟨_, hx, ?_⟩
  have hrf : u.rf (rstPg + 0x10C) 9 9 = s.rf (rstPg + 0x10C) 9 9 := State.rf_of_rd (hrd _) 9 9
  rw [hrf, State.dumpThen]
  by_cases hen : s.rf (rstPg + 0x10C) 9 9 = 1
  · have hcap : u.capturing = false := by
      rw [State.capturing, State.rf_of_rd (hrd _)]
      exact hd.resolve_left (by omega)
    rw [if_neg (by rw [decide_eq_true hen]; decide), if_neg (by rw [hcap]; decide)]
    exact hgo _ ((State.dumpNow_heldFast ..).trans hfast)
  · rw [if_pos (by rw [decide_eq_false hen]; rfl)]
    exact hgo u hfast

/-- The requests of the five levels (R348 to R352). -/
theorem exec_contextReset {ag : Agent} {c : Nat} {dump : Bool} {env : RstEnv} (s : State) (hc : c < 16) (henv : env.wf = true) :
    exec (.contextReset ag c dump env) s = .next (s.request dump (s.rstGo 1 c 0 env)) :=
  if_pos (Bool.and_eq_true_iff.2 ⟨decide_eq_true hc, henv⟩)

theorem exec_engineReset {ag : Agent} {gl : Nat} {dump : Bool} {env : RstEnv} (s : State) (hgl : gl < 4096) (henv : env.wf = true) :
    exec (.engineReset ag gl dump env) s = .next (s.request dump (s.rstGo 2 0 gl env)) :=
  if_pos (Bool.and_eq_true_iff.2 ⟨decide_eq_true hgl, henv⟩)

theorem exec_partitionReset {ag : Agent} {c : Nat} {dump : Bool} {env : RstEnv} (s : State) (hc : c < 16) (henv : env.wf = true) :
    exec (.partitionReset ag c dump env) s = .next (s.request dump (s.rstGo 3 c 0 env)) :=
  if_pos (Bool.and_eq_true_iff.2 ⟨decide_eq_true hc, henv⟩)

theorem exec_chipComputeReset {ag : Agent} {dump : Bool} {env : RstEnv} (s : State) (henv : env.wf = true) :
    exec (.chipComputeReset ag dump env) s = .next (s.request dump (s.rstGo 4 0 0 env)) := if_pos henv

theorem exec_powerCycle {ag : Agent} {dump : Bool} {env : RstEnv} (s : State) (henv : env.wf = true) :
    exec (.powerCycle ag dump env) s = .next (s.request dump (s.rstGo 5 0 0 env)) := if_pos henv

/-- Settles O52: a request joins, waits or begins its level, and each level's work is what the spec names. -/
theorem resetsByLevel : Obligations.ResetsByLevel := by
  unfold Obligations.ResetsByLevel
  refine ⟨fun ag c dump env s hc henv hp => ⟨fun hj => ?_, fun hj hd => ?_, fun hj hdump hcap => ?_⟩,
      fun ag gl gp env s hgl henv hst hphys hp hj => ?_,
    fun ag c dump env s hc henv hp hj hd => ?_, fun ag dump env s henv hp hj hd => ?_, fun ag dump env s henv hp hj hd => ?_,
    fun n us env j s henv hj hl hd => resetEscalated_chip henv hj hl hd⟩
  · rw [exec_contextReset s hc henv, State.request_joins hj]
  · refine ⟨_, exec_contextReset s hc henv, ?_⟩
    rw [State.request_begins hp hj hd]
    exact State.goContext_leaves _ (r := s.rstGo 1 c 0 env) hc
  · subst hdump
    refine ⟨_, _, (exec_contextReset s hc henv).trans (congrArg _ (State.request_waits hp hj hcap)), rfl, rfl, rfl⟩
  · refine ⟨_, exec_engineReset s hgl henv, ?_⟩
    rw [State.request_begins hp hj (Or.inl rfl)]
    exact State.goEngine_zeroes (r := s.rstGo 2 0 gl env) rfl hphys hst
  · refine ⟨_, exec_partitionReset s hc henv, ?_⟩
    rw [State.request_begins hp hj hd]
    exact State.goPartition_held _ (s.rstGo 3 c 0 env)
  · refine ⟨_, exec_chipComputeReset s henv, ?_⟩
    rw [State.request_begins hp hj hd]
    exact State.goChip_held _ (s.rstGo 4 0 0 env)
  · refine ⟨_, exec_powerCycle s henv, ?_⟩
    rw [State.request_begins hp hj hd]
    exact State.goPower_writes (r := s.rstGo 5 0 0 env) rfl rfl rfl

end Sys2Proof.Machine

/-! What a port that goes down leaves of the module (R349, R379). -/

namespace Sys2Proof.Machine

/-! ### What the loss of a port leaves of the module (R349, R379) -/

/-- What the reset of a context leaves as it is: the always-on domain, and the record of the last shutdown. -/
def State.lasting (s : State) : Aon × Option ShutRec := (s.aon, s.flash.shut)

theorem State.lasting_of_bones {s t : State} (h : t.bones = s.bones) : t.lasting = s.lasting :=
  Prod.ext (congrArg (·.1) h) (congrArg (·.2.2.2.2.2.2.1) h)

theorem State.aon_of_lasting {s t : State} (h : t.lasting = s.lasting) : t.aon = s.aon := congrArg (·.1) h

theorem State.shut_of_lasting {s t : State} (h : t.lasting = s.lasting) : t.flash.shut = s.flash.shut := congrArg (·.2) h

theorem State.foldl_lasting {α : Type} {f : State → α → State} (h : ∀ t x, (f t x).lasting = t.lasting) (l : List α) (s : State) :
    (l.foldl f s).lasting = s.lasting := by
  induction l generalizing s with
  | nil => rfl
  | cons x r ih => exact (ih _).trans (h s x)

theorem State.withRst_lasting (s : State) (l : List RstJob) : (s.withRst l).lasting = s.lasting := rfl

theorem State.startJob_lasting (s : State) (j : RstJob) (esc : Bool) : (s.startJob j esc).lasting = s.lasting := by
  rw [State.startJob_eq, State.lasting_of_bones (State.wr_bones ..), State.withRst_lasting]

theorem State.endJob_lasting (s : State) (j : RstJob) (now : Nat) : (s.endJob j now).lasting = s.lasting := by
  have hctx : ∀ (l : List Nat) (u : State), (l.foldl (fun (s : State) c => (s.pendCtx c).clearEntries c) u).lasting = u.lasting := fun l =>
    State.foldl_lasting (fun t c =>
      (State.lasting_of_bones (State.clearEntries_bones ..)).trans (State.lasting_of_bones (State.pendCtx_bones t c))) l
  have hwr : ∀ (u : State) (v : Word), (u.wr (rstPg + 0x108) v).lasting = u.lasting := fun u v => State.lasting_of_bones (State.wr_bones ..)
  have hwf : ∀ u : State, (u.wf (rstPg + 0x104) 31 31 0).lasting = u.lasting := fun u => State.lasting_of_bones (State.wf_bones ..)
  simp only [State.endJob]
  rw [apply_ite State.lasting, hwf, ite_self, hwr, apply_ite State.lasting, hctx, ite_self]
  exact State.withRst_lasting ..

theorem State.settleJobs_lasting (s : State) (now : Nat) : (s.settleJobs now).lasting = s.lasting := by
  rw [State.settleJobs]
  exact State.foldl_lasting (fun t j => t.endJob_lasting j now) _ s

theorem State.goContext_lasting (s : State) (r : RstGo) : (s.goContext r).lasting = s.lasting := by
  rw [State.goContext, State.settleJobs_lasting, State.lasting_of_bones (State.resetCtx_bones ..), State.startJob_lasting]

/-- A context reset without a dump joins one that covers it, or begins (R349, R353). -/
theorem State.reqContext_cases (s : State) (c : Nat) (env : RstEnv) :
    s.reqContext c false env = s ∨ s.reqContext c false env = s.goContext (s.rstGo 1 c 0 env) := by
  rw [State.reqContext, State.request]
  split
  · exact Or.inl rfl
  · exact Or.inr rfl

theorem State.reqContext_lasting (s : State) (c : Nat) (env : RstEnv) : (s.reqContext c false env).lasting = s.lasting := by
  rcases s.reqContext_cases c env with h | h
  · rw [h]
  · rw [h, State.goContext_lasting]

theorem State.loseLines_lasting (s : State) (p : QPort) : (s.loseLines p).lasting = s.lasting := rfl

theorem State.qFreed_lasting (s : State) (p : QPort) : (s.qFreed p).lasting = s.lasting := by
  rw [State.qFreed, State.lasting_of_bones (State.freeHitches_bones ..), State.lasting_of_bones (State.wf_bones ..)]

theorem State.answerNone_lasting (s : State) (p : QPort) : (s.answerNone p).lasting = s.lasting := by
  rw [State.answerNone, State.foldl_lasting (fun t r => State.lasting_of_bones (State.answered_bones ..)),
    State.lasting_of_bones (State.setQ_bones ..)]

theorem State.closeOf_lasting (s : State) (p : QPort) : (s.closeOf p).lasting = s.lasting := by
  rw [State.closeOf]
  split
  · rw [apply_ite State.lasting, State.lasting_of_bones (State.closeSession_bones s), ite_self]
  · rfl

/-- A port that is not live has nothing to lose (R379). -/
theorem State.qDown_dead {s : State} {p : QPort} (h : s.qLive p = false) (cause cyc : Nat) : s.qDown p cause cyc = s := by
  rw [State.qDown, h]
  exact if_neg Bool.false_ne_true

/-- A port that is live loses what it had, and its record says so (R379). -/
theorem State.qDown_live {s : State} {p : QPort} (h : s.qLive p = true) (cause cyc : Nat) :
    ∃ synd, s.qDown p cause cyc = (s.qLose p).2.chipRec (qPg p) 2 0x21 cyc synd := by
  refine ⟨(s.qLose p).2.qSynd p 0 cause (s.qLose p).1, ?_⟩
  rw [State.qDown, if_pos h]

theorem State.qDown_lasting (s : State) (p : QPort) (cause cyc : Nat) : (s.qDown p cause cyc).lasting = s.lasting := by
  cases hl : s.qLive p with
  | false => rw [State.qDown_dead hl]
  | true =>
    obtain ⟨synd, hx⟩ := s.qDown_live hl cause cyc
    rw [hx, State.lasting_of_bones (State.chipRec_bones ..), State.qLose_eq, State.closeOf_lasting, State.answerNone_lasting, State.loseLines_lasting,
      State.foldl_lasting (fun t c => t.reqContext_lasting c {}), State.qFreed_lasting]

/-- Ports that go down change neither the always-on domain nor the shutdown record (R379). -/
theorem State.portsLost_lasting (s : State) : s.portsLost.lasting = s.lasting := by
  rw [State.portsLost, State.qDown_lasting, State.qDown_lasting]

end Sys2Proof.Machine

/-! How a bring-up begins (R329, R330, R344). -/

namespace Sys2Proof.Machine

/-! ### How a bring-up begins (R329, R330, R344) -/

/-- A state without these registers. -/
def State.withRegs (s : State) (l : Tbl Word) : State := { s with regs := l }

theorem State.withRegs_lasting (s : State) (l : Tbl Word) : (s.withRegs l).lasting = s.lasting := rfl

/-- The registers of the bring-up return to reset, sessions close, an update is cancelled and a nonce is drawn (R387, R395, R418). -/
def State.bootDrawn (s : State) (warm : Bool) : State :=
  let u := (s.withRegs (s.regs.filter (fun p => !(decide (bootPg ≤ p.1) && decide (p.1 < bootPg + 0x1000))))).cancelUpdate
  (List.range 4096).foldl (fun (s : State) gl => s.wf (logPg gl + 0x708) 15 0 ((s.rf (logPg gl + 0x708) 15 0 + 1) % 2 ^ 16))
    ((u.wf bootStat 29 29 (bit warm)).closeSession.redraw).useFirmware

/-- A state in which no reset is in progress and none waits for a dump. -/
def State.withoutResets (s : State) : State :=
  { s with rst := [], dumpWait := s.dumpWait.filter (fun w => match w with | .ctl _ _ => true | .rst _ _ => false) }

theorem State.withoutResets_lasting (s : State) : s.withoutResets.lasting = s.lasting := rfl
theorem State.rd_withoutResets (s : State) (a : Nat) : s.withoutResets.rd a = s.rd a := rfl

/-- The always-on values of a bring-up in progress. -/
def Aon.starting (a : Aon) : Aon :=
  { a with lastReady := false, booting := true, recovery := false, waitPerst := none, shutWait := none }

/-- The assay set of the bring-up is noted (R403). -/
def State.assayNoted (s : State) : State := s.modFlash (fun f => { f with assayBoot := f.assay })

theorem State.assayNoted_lasting (s : State) : s.assayNoted.lasting = s.lasting := rfl
theorem State.rd_assayNoted (s : State) (a : Nat) : s.assayNoted.rd a = s.rd a := rfl

theorem State.bootStart_eq (s : State) (warm : Bool) :
    s.bootStart warm = ((s.bootDrawn warm).withoutResets.assayNoted.wf (rstPg + 0x104) 31 31 0).modAon Aon.starting := id rfl

theorem State.bootDrawn_lasting (s : State) (warm : Bool) : (s.bootDrawn warm).lasting = s.lasting := by
  rw [State.bootDrawn]
  refine (State.foldl_lasting (fun t gl => State.lasting_of_bones (State.wf_bones ..)) _ _).trans ?_
  rw [State.lasting_of_bones (State.useFirmware_bones _), State.lasting_of_bones (State.redraw_bones _),
    State.lasting_of_bones (State.closeSession_bones _), State.lasting_of_bones (State.wf_bones ..),
    State.lasting_of_bones (State.cancelUpdate_bones _), State.withRegs_lasting]

theorem State.modAon_lasting (s : State) (f : Aon → Aon) : (s.modAon f).lasting = (f s.aon, s.flash.shut) := rfl

theorem State.lasting_eq {s : State} {a : Aon} {r : Option ShutRec} (h : s.lasting = (a, r)) : s.aon = a ∧ s.flash.shut = r :=
  ⟨congrArg (·.1) h, congrArg (·.2) h⟩

theorem State.bootStart_lasting (s : State) (warm : Bool) : (s.bootStart warm).lasting = (s.aon.starting, s.flash.shut) := by
  have hl : ((s.bootDrawn warm).withoutResets.assayNoted.wf (rstPg + 0x104) 31 31 0).lasting = s.lasting := by
    rw [State.lasting_of_bones (State.wf_bones ..), State.assayNoted_lasting, State.withoutResets_lasting, State.bootDrawn_lasting]
  rw [State.bootStart_eq, State.modAon_lasting, State.aon_of_lasting hl, State.shut_of_lasting hl]

theorem State.blank_lasting (s : State) : s.blank.lasting = s.lasting := rfl

/-- The always-on values once the hearths of a bring-up have started (R354). -/
def Aon.hearths (a : Aon) (d : Bool) (m : Nat) : Aon := { a with hearthDead := d, missed := m }

theorem State.bootHearths_lasting (s : State) (from1 : Bool) : ∃ d m, (s.bootHearths from1).lasting = (s.aon.hearths d m, s.flash.shut) := by
  cases from1 with
  | false => exact ⟨s.aon.hearthDead, s.aon.missed, State.lasting_of_bones (State.wf_bones ..)⟩
  | true => exact ⟨false, 0, id rfl⟩

theorem State.bootClocks_bones (s : State) (env : BootEnv) (from1 : Bool) : (s.bootClocks env from1).bones = s.bones := by
  simp only [State.bootClocks, apply_ite State.bones, State.wf_bones, ite_self]

theorem State.withGen_lasting (s : State) (g : Gen) : (s.withGen g).lasting = s.lasting := rfl

/-- The generator stopped, and the clocks of a cold bring-up (R344, R410). -/
def State.coldClocks (u : State) (env : BootEnv) (from1 : Bool) : State :=
  (((u.withGen { u.gen with running := false }).wf pwrStat 31 29 0).wf pwrStat 23 23 0).bootClocks env from1

theorem State.coldClocks_lasting (u : State) (env : BootEnv) (from1 : Bool) : (u.coldClocks env from1).lasting = u.lasting := by
  rw [State.coldClocks, State.lasting_of_bones (State.bootClocks_bones ..), State.lasting_of_bones (State.wf_bones ..),
    State.lasting_of_bones (State.wf_bones ..), State.withGen_lasting]

/-- The always-on domain, the registers and the clocks of a cold bring-up before its steps (R329, R344, R410). -/
def State.coldBase (s : State) (env : BootEnv) (from1 : Bool) : State :=
  (((s.portsLost.bootStart false).bootHearths from1).blank).coldClocks env from1

theorem State.cold_eq (s : State) (env : BootEnv) (from1 : Bool) : s.cold env from1
    = (s.coldBase env from1).runSteps false env (if from1 then [1, 2, 3, 4, 5, 6, 7, 8, 9, 10] else [3, 4, 5, 6, 7, 8, 9, 10]) := id rfl

theorem State.coldBase_lasting (s : State) (env : BootEnv) (from1 : Bool) :
    ∃ d m, (s.coldBase env from1).lasting = (s.aon.starting.hearths d m, s.flash.shut) := by
  have hstart := s.portsLost.bootStart_lasting false
  rw [State.aon_of_lasting s.portsLost_lasting, State.shut_of_lasting s.portsLost_lasting] at hstart
  obtain ⟨haon, hshut⟩ := State.lasting_eq hstart
  obtain ⟨d, m, hx⟩ := (s.portsLost.bootStart false).bootHearths_lasting from1
  rw [haon, hshut] at hx
  refine ⟨d, m, ?_⟩
  rw [State.coldBase, State.coldClocks_lasting, State.blank_lasting]
  exact hx

/-! ### The steps of a bring-up (R329, R330) -/

/-- A step whose work never ends stays in progress (R330). -/
theorem State.runSteps_hang (s : State) (warm : Bool) {env : BootEnv} {k : Nat} (hk : env.hang = k) (h8 : k ≠ 8) (r : List Nat) :
    s.runSteps warm env (k :: r) = s.wf bootStat 27 24 k := by
  rw [State.runSteps]
  exact if_pos (Or.inl ⟨hk, h8⟩)

theorem State.runSteps_hang_shows (s : State) (warm : Bool) {env : BootEnv} {k : Nat} (hk : env.hang = k) (h8 : k ≠ 8) (h16 : k < 16) (r : List Nat) :
    (s.runSteps warm env (k :: r)).rf bootStat 27 24 = k := by
  rw [State.runSteps_hang s warm hk h8, State.rf_wf_same _ (by omega)]
  exact Nat.mod_eq_of_lt h16

theorem State.runSteps_hang_aon (s : State) (warm : Bool) {env : BootEnv} {k : Nat} (hk : env.hang = k) (h8 : k ≠ 8) (r : List Nat) :
    (s.runSteps warm env (k :: r)).aon = s.aon := by
  rw [State.runSteps_hang s warm hk h8, State.wf_aon]

/-- A cold bring-up whose first step never ends (R330). -/
theorem State.cold_hang1 (s : State) {env : BootEnv} (h : env.hang = 1) : (s.cold env true).rf bootStat 27 24 = 1
    ∧ ∃ d m, (s.cold env true).aon = s.aon.starting.hearths d m := by
  obtain ⟨d, m, hx⟩ := s.coldBase_lasting env true
  rw [State.cold_eq, if_pos rfl, State.runSteps_hang_aon _ _ h (by decide)]
  exact ⟨State.runSteps_hang_shows _ _ h (by decide) (by decide) _, d, m, (State.lasting_eq hx).1⟩

/-- A cold bring-up from step 3 whose step 3 never ends (R344). -/
theorem State.cold_hang3 (s : State) {env : BootEnv} (h : env.hang = 3) : (s.cold env false).rf bootStat 27 24 = 3 := by
  rw [State.cold_eq, if_neg Bool.false_ne_true]
  exact State.runSteps_hang_shows _ _ h (by decide) (by decide) _

end Sys2Proof.Machine

/-! Shutdown, the auxiliary domain and the crystal (R333, R407, R428, R431). -/

namespace Sys2Proof.Machine

/-! ### Shutdown (R333) -/

theorem State.update_of_rest {s t : State} (h : t.rest = s.rest) : t.update = s.update := by
  change t.rest.update = s.rest.update
  rw [h]

theorem State.modFlash_rest (s : State) (f : Flash → Flash) : (s.modFlash f).rest = s.rest := rfl

theorem State.repairLine_rest (s : State) (bad : List Nat) (l : SramLine) : (s.repairLine bad l).1.rest = s.rest := by
  rw [State.repairLine]
  split
  · exact State.modFlash_rest ..
  · split
    · rfl
    · rfl
    · exact State.requestDrain_rest ..
    · exact State.requestDrain_rest ..

/-- Lines repaired one after the other (R305). -/
theorem State.repairLines_keep {P : State → Prop} (hP : ∀ t bad l, P t → P (State.repairLine t bad l).1) (l : List SramLine) (x : State × List Nat) :
    P x.1 → P (l.foldl (fun (x : State × List Nat) l => x.1.repairLine x.2 l) x).1 := by
  induction l generalizing x with
  | nil => exact id
  | cons a l ih => exact fun h => ih _ (hP _ _ _ h)

theorem State.runBist_eq (s : State) (b : BistResult) : (s.runBist b).1
    = b.xbar.foldl (fun (s : State) n => s.requestDrain 1 (n / 8) (n % 8) (xbarPg n) 0)
        (b.sram.foldl (fun (x : State × List Nat) l => x.1.repairLine x.2 l) (s, b.logic)).1 := id rfl

theorem State.runBist_rest (s : State) (b : BistResult) : (s.runBist b).1.rest = s.rest := by
  rw [State.runBist_eq]
  refine (State.foldl_rest _ (fun _ _ => State.requestDrain_rest ..) _ _).trans ?_
  exact State.repairLines_keep (P := fun t => t.rest = s.rest) (fun t bad l h => (t.repairLine_rest bad l).trans h) _ _ rfl

/-- The record of a shutdown (R333). -/
def State.shutRecord (u : State) (failed : List Nat) (old : Nat) : ShutRec :=
  { failed := failed, repairs := u.flash.sramFix.drop old, epoch := u.aon.epoch, at_ := u.aon.time }

/-- A shutdown whose record is written (R333). -/
def State.shutStored (u : State) (r : ShutRec) : State :=
  ((u.modFlash (fun f => { f with shut := some r })).wf (bootPg + 0x118) 31 30 2).modAon (fun a => { a with shutWait := none, excursion := false })

theorem State.shutStored_shows (u : State) (r : ShutRec) : (u.shutStored r).rf (bootPg + 0x118) 31 30 = 2 ∧ (u.shutStored r).flash.shut = some r
    ∧ (u.shutStored r).aon.shutWait = none ∧ (u.shutStored r).update = u.update := by
  rw [State.shutStored, State.modAon_flash, State.wf_flash, State.modAon_aon, State.modAon_update, State.wf_update, State.modFlash_flash,
    State.modFlash_update]
  refine ⟨?_, rfl, rfl, rfl⟩
  rw [State.rf_of_rd (State.rd_modAon ..), State.rf_wf_same _ (by omega)]
  rfl

/-- A shutdown with no reset in progress runs its BIST and writes its record (R333). -/
theorem State.shutGo_stores {s : State} {b : BistResult} (hw : s.aon.shutWait = some b) (hr : s.rst = []) (hc : s.aon.crystal = true) :
    s.shutGo = (s.runBist b).1.shutStored ((s.runBist b).1.shutRecord (s.runBist b).2 s.flash.sramFix.length) := by
  rw [State.shutGo, hw]
  refine if_neg ?_
  rw [hr, hc]
  decide

/-- A shutdown waits for the resets in progress (R333). -/
theorem State.shutGo_waits {s : State} {b : BistResult} (hw : s.aon.shutWait = some b) (hr : s.rst ≠ []) : s.shutGo = s := by
  rw [State.shutGo, hw]
  refine if_pos (Or.inl ?_)
  rw [List.isEmpty_eq_false_iff.2 hr]
  rfl

/-- The always-on values of a shutdown that waits for the resets in progress (R333). -/
def Aon.shutting (b : BistResult) (a : Aon) : Aon := { a with shutWait := some b }

/-- A shutdown that is shown to be in progress, its update cancelled (R333, R418). -/
def State.shutShown (s : State) (b : BistResult) : State :=
  ((s.wf (bootPg + 0x118) 31 30 1).modAon (Aon.shutting b)).cancelUpdate

theorem State.cancelUpdate_update (s : State) : s.cancelUpdate.update = none := by
  rw [State.cancelUpdate]
  split
  · assumption
  · rfl

theorem State.cancelUpdate_none {s : State} (h : s.update = none) : s.cancelUpdate = s := by
  rw [State.cancelUpdate, h]

theorem State.rd_cancelUpdate (s : State) (a : Nat) : s.cancelUpdate.rd a = s.rd a := by
  rw [State.cancelUpdate]
  split
  · rfl
  · rfl

section
variable (s : State) (b : BistResult)

theorem State.shutShown_bones : (s.shutShown b).aon = s.aon.shutting b ∧ (s.shutShown b).rst = s.rst
    ∧ (s.shutShown b).flash.shut = s.flash.shut := by
  have hb : (s.shutShown b).bones = ((s.wf (bootPg + 0x118) 31 30 1).modAon (Aon.shutting b)).bones :=
    State.cancelUpdate_bones _
  refine ⟨(State.aon_of_bones hb).trans ?_, (State.rst_of_bones hb).trans ?_, (State.shut_of_lasting (State.lasting_of_bones hb)).trans ?_⟩
  · rw [State.modAon_aon, State.wf_aon]
  · rw [State.modAon_rst, State.wf_rst]
  · rw [State.modAon_flash, State.wf_flash]

theorem State.shutShown_rf : (s.shutShown b).rf (bootPg + 0x118) 31 30 = 1 := by
  rw [State.shutShown, State.rf_of_rd (State.rd_cancelUpdate ..), State.rf_of_rd (State.rd_modAon ..), State.rf_wf_same _ (by omega)]
  rfl

theorem State.shutShown_flash (h : s.update = none) : (s.shutShown b).flash = s.flash := by
  have hu : ((s.wf (bootPg + 0x118) 31 30 1).modAon (Aon.shutting b)).update = none := by rw [State.modAon_update, State.wf_update, h]
  rw [State.shutShown, State.cancelUpdate_none hu, State.modAon_flash, State.wf_flash]

theorem State.shutShown_ctxActive {c : Nat} (hc : c < 16) : (s.shutShown b).ctxActive c = s.ctxActive c := by
  have hne : ctxPg c + 0x114 ≠ bootPg + 0x118 := by
    simp only [ctxPg, bootPg, modPg, modAddr]
    omega
  rw [State.ctxActive, State.ctxActive, State.shutShown, State.rf_of_rd (State.rd_cancelUpdate ..), State.rf_of_rd (State.rd_modAon ..),
    State.rf_of_rd (State.rd_wf_other _ _ _ _ hne)]

end

/-- A shutdown of a module with no ACTIVE context goes on at once (R333). -/
theorem State.shutReq_eq {s : State} (b : BistResult) (hp : s.aon.powered = true) (hc : s.aon.crystal = true) (hb : s.aon.booting = false)
    (hw : s.aon.shutWait = none) (hact : ∀ c, c < 16 → s.ctxActive c = false) : s.shutReq b = (s.shutShown b).shutGo := by
  have hnone : (List.range 16).filter (fun c => (s.shutShown b).ctxActive c) = [] := by
    refine List.filter_eq_nil_iff.2 fun c hc => ?_
    rw [s.shutShown_ctxActive b (List.mem_range.1 hc), hact c (List.mem_range.1 hc)]
    exact Bool.false_ne_true
  rw [State.shutReq]
  refine (if_neg ?_).trans ?_
  · rw [hp, hc, hb, hw]
    decide
  · change State.shutGo (((List.range 16).filter (fun c => (s.shutShown b).ctxActive c)).foldl _ (s.shutShown b)) = _
    rw [hnone]
    rfl

theorem exec_shutdown {ag : Agent} {b : BistResult} (s : State) (h : b.wf = true) : exec (.shutdown ag b) s = .next (s.shutReq b) := if_pos h

/-- A shutdown of a module with no ACTIVE context and no reset in progress writes its record at once (R333). -/
theorem shutdown_stores {ag : Agent} {b : BistResult} {s : State} (hwf : b.wf = true) (hp : s.aon.powered = true) (hc : s.aon.crystal = true)
    (hb : s.aon.booting = false) (hw : s.aon.shutWait = none) (hact : ∀ c, c < 16 → s.ctxActive c = false) (hr : s.rst = []) :
    ∃ t r, exec (.shutdown ag b) s = .next t ∧ t.rf (bootPg + 0x118) 31 30 = 2 ∧ t.flash.shut = some r
      ∧ r.consumed = false ∧ r.crcOk = true ∧ r.epoch = s.aon.epoch ∧ r.at_ = s.aon.time ∧ t.aon.shutWait = none ∧ t.update = none := by
  obtain ⟨haon, hrst, -⟩ := s.shutShown_bones b
  have hgo : (s.shutShown b).shutGo
      = ((s.shutShown b).runBist b).1.shutStored (((s.shutShown b).runBist b).1.shutRecord ((s.shutShown b).runBist b).2
        (s.shutShown b).flash.sramFix.length) :=
    State.shutGo_stores (by rw [haon]; rfl) (by rw [hrst, hr]) (by rw [haon]; exact hc)
  have hbist := State.aon_of_rest ((s.shutShown b).runBist_rest b)
  have hupd : ((s.shutShown b).runBist b).1.update = none :=
    (State.update_of_rest ((s.shutShown b).runBist_rest b)).trans (State.cancelUpdate_update _)
  generalize ((s.shutShown b).runBist b).1 = u at hgo hbist hupd
  obtain ⟨hstat, hshut, hwait, hu⟩ := u.shutStored_shows (u.shutRecord ((s.shutShown b).runBist b).2 (s.shutShown b).flash.sramFix.length)
  refine ⟨_, _, (exec_shutdown s hwf).trans (congrArg _ ((State.shutReq_eq b hp hc hb hw hact).trans hgo)), hstat, hshut, rfl, rfl, ?_, ?_, hwait,
    hu.trans hupd⟩
  · rw [State.shutRecord, hbist, haon]
    rfl
  · rw [State.shutRecord, hbist, haon]
    rfl

/-- A shutdown waits for the resets in progress, its update cancelled (R333, R418). -/
theorem shutdown_waits {ag : Agent} {b : BistResult} {s : State} (hwf : b.wf = true) (hp : s.aon.powered = true) (hc : s.aon.crystal = true)
    (hb : s.aon.booting = false) (hw : s.aon.shutWait = none) (hact : ∀ c, c < 16 → s.ctxActive c = false) (hr : s.rst ≠ []) :
    ∃ t, exec (.shutdown ag b) s = .next t ∧ t.rf (bootPg + 0x118) 31 30 = 1 ∧ t.aon.shutWait = some b
      ∧ t.update = none ∧ t.flash.shut = s.flash.shut ∧ (s.update = none → t.flash = s.flash) := by
  obtain ⟨haon, hrst, hshut⟩ := s.shutShown_bones b
  have hgo : (s.shutShown b).shutGo = s.shutShown b := State.shutGo_waits (b := b) (by rw [haon]; rfl) (by rw [hrst]; exact hr)
  refine ⟨_, (exec_shutdown s hwf).trans (congrArg _ ((State.shutReq_eq b hp hc hb hw hact).trans hgo)), s.shutShown_rf b, ?_,
    State.cancelUpdate_update _, hshut, s.shutShown_flash b⟩
  rw [haon]
  rfl

/-! ### The auxiliary supply and the crystal (R407, R428, R431) -/

/-- A sample of the always-on sensor (R432). -/
def State.aonSampled (s : State) (temp : Int) : State :=
  (s.modAon (fun a => { a with time := a.time + 16000000000, excursion := a.excursion || decide (1360 < temp) || decide (temp < -320) })).modPow
    (fun p => { p with tj := temp, held := Tbl.put p.held 3 temp })

/-- The always-on values once the auxiliary supply is valid (R428). -/
def Aon.supplied (a : Aon) : Aon := { a with aux := true, epoch := a.epoch + 1, crystal := true }

/-- The always-on domain has started, and the slot is sampled (R428). -/
def State.slotSampled (s : State) (slot : BitVec 6) : State :=
  ((s.modAon Aon.supplied).wf (pwrPg + 0x118) 5 0 slot.toNat |>.wf (pwrPg + 0x100) 10 0 (s.modAon Aon.supplied).maxAclk).showLimit

/-- The drain that flash has recorded is requested again (R326). -/
def State.drainKept (s : State) : State :=
  match s.flash.drain with
  | some k => (s.wf (modPg 9 0 + 0x110) 31 31 1).wf (modPg 9 0 + 0x110) 27 24 k
  | none => s

/-- The always-on values once a PWR_EN that came early has taken effect (R428). -/
def Aon.enabled (a : Aon) : Aon := { a with pwrEn := true, pwrEnv := none }

/-- A PWR_EN that came before the auxiliary supply takes effect (R428). -/
def State.lateEnable (s : State) : State := (s.wf (pwrPg + 0x118) 31 31 1).modAon Aon.enabled

section
variable (s : State) (slot : BitVec 6)

theorem exec_auxValid_none (ha : s.aon.aux = false) (he : (s.slotSampled slot).drainKept.aon.pwrEnv = none) :
    exec (.auxValid slot) s = .next (s.slotSampled slot).drainKept := by
  change execAuxValid slot s = _
  rw [execAuxValid, ha]
  refine (if_neg Bool.false_ne_true).trans ?_
  change Host.Outcome.next (match (s.slotSampled slot).drainKept.aon.pwrEnv with | some _ => _ | none => _) = _
  rw [he]
  rfl

theorem exec_auxValid_some {env : BootEnv} (ha : s.aon.aux = false) (he : (s.slotSampled slot).drainKept.aon.pwrEnv = some env) :
    exec (.auxValid slot) s = .next (if (s.slotSampled slot).drainKept.lateEnable.mayStart then (s.slotSampled slot).drainKept.lateEnable.cold env
        true
      else (s.slotSampled slot).drainKept.lateEnable) := by
  change execAuxValid slot s = _
  rw [execAuxValid, ha]
  refine (if_neg Bool.false_ne_true).trans ?_
  change Host.Outcome.next (match (s.slotSampled slot).drainKept.aon.pwrEnv with | some _ => _ | none => _) = _
  rw [he]
  rfl

theorem State.drainKept_aon : s.drainKept.aon = s.aon := by
  rw [State.drainKept]
  split
  · rw [State.wf_aon, State.wf_aon]
  · rfl

theorem State.rd_drainKept_other {a : Nat} (h : a ≠ modPg 9 0 + 0x110) : s.drainKept.rd a = s.rd a := by
  rw [State.drainKept]
  split
  · rw [State.rd_wf_other _ _ _ _ h, State.rd_wf_other _ _ _ _ h]
  · rfl

theorem State.drainKept_requests {k : Nat} (h : s.flash.drain = some k) : s.drainKept.rf (modPg 9 0 + 0x110) 31 31 = 1 := by
  rw [State.drainKept, h]
  exact (State.rf_wf_field _ (by omega) (by omega)).trans (State.rf_wf_same _ (by omega))

theorem State.slotSampled_aon : (s.slotSampled slot).aon = s.aon.supplied := by
  rw [State.slotSampled, State.showLimit, State.wf_aon, State.wf_aon, State.wf_aon, State.modAon_aon]

theorem State.slotSampled_flash : (s.slotSampled slot).flash = s.flash := by
  rw [State.slotSampled, State.showLimit, State.wf_flash, State.wf_flash, State.wf_flash, State.modAon_flash]

theorem State.slotSampled_slot : (s.slotSampled slot).rf (pwrPg + 0x118) 5 0 = slot.toNat := by
  rw [State.slotSampled, State.showLimit, State.rf_of_rd (State.rd_wf_other _ _ _ _ (by decide)),
      State.rf_of_rd (State.rd_wf_other _ _ _ _ (by decide)),
    State.rf_wf_same _ (by omega)]
  exact Nat.mod_eq_of_lt slot.isLt

theorem State.lateEnable_aon : s.lateEnable.aon = s.aon.enabled := by
  rw [State.lateEnable, State.modAon_aon, State.wf_aon]

end

/-- The auxiliary supply starts the always-on domain, samples the slot and shows a recorded drain again (R326, R428). -/
theorem auxValid_alone {slot : BitVec 6} {s : State} (ha : s.aon.aux = false) (he : s.aon.pwrEnv = none) :
    ∃ t, exec (.auxValid slot) s = .next t ∧ t.aon.aux = true ∧ t.aon.epoch = s.aon.epoch + 1 ∧ t.rf (pwrPg + 0x118) 5 0 = slot.toNat
      ∧ t.aon.pwrEn = s.aon.pwrEn ∧ ∀ k, s.flash.drain = some k → t.rf (modPg 9 0 + 0x110) 31 31 = 1 := by
  have haon : (s.slotSampled slot).drainKept.aon = s.aon.supplied := by rw [State.drainKept_aon, State.slotSampled_aon]
  refine ⟨_, exec_auxValid_none s slot ha (by rw [haon]; exact he), ?_, ?_, ?_, ?_, fun k hk => State.drainKept_requests _ (k := k) ?_⟩
  · rw [haon]
    rfl
  · rw [haon]
    rfl
  · rw [State.rf_of_rd (State.rd_drainKept_other _ (by decide)), State.slotSampled_slot]
  · rw [haon]
    rfl
  · rw [State.slotSampled_flash, hk]

/-- A PWR_EN that came before the auxiliary supply takes effect with it (R329, R428). -/
theorem auxValid_late {slot : BitVec 6} {env : BootEnv} {s : State} (ha : s.aon.aux = false) (he : s.aon.pwrEnv = some env) :
    (s.aon.main = false → ∃ t, exec (.auxValid slot) s = .next t ∧ t.aon.aux = true ∧ t.aon.pwrEn = true ∧ t.aon.pwrEnv = none
        ∧ t.rf (pwrPg + 0x118) 31 31 = 1 ∧ t.rf (pwrPg + 0x118) 5 0 = slot.toNat)
      ∧ (s.aon.main = true → s.aon.mainBad = false → s.aon.powered = false → s.aon.booting = false → env.hang = 1 →
        ∃ t, exec (.auxValid slot) s = .next t ∧ t.aon.aux = true ∧ t.aon.booting = true ∧ t.rf bootStat 27 24 = 1) := by
  have haon : (s.slotSampled slot).drainKept.aon = s.aon.supplied := by rw [State.drainKept_aon, State.slotSampled_aon]
  have hslot : (s.slotSampled slot).drainKept.rf (pwrPg + 0x118) 5 0 = slot.toNat := by
    rw [State.rf_of_rd (State.rd_drainKept_other _ (by decide)), State.slotSampled_slot]
  have hx := exec_auxValid_some s slot ha (env := env) (by rw [haon]; exact he)
  generalize (s.slotSampled slot).drainKept = u at haon hslot hx
  have hlate : u.lateEnable.aon = s.aon.supplied.enabled := by rw [State.lateEnable_aon, haon]
  have hmay : u.lateEnable.mayStart = (s.aon.main && !s.aon.mainBad && !s.aon.powered && !s.aon.booting) := by
    rw [State.mayStart, hlate]
    simp [Aon.supplied, Aon.enabled]
  refine ⟨fun hm => ⟨_, hx, ?_⟩, fun hm hbad hpow hboot hhang => ⟨_, hx, ?_⟩⟩
  · rw [if_neg (by rw [hmay, hm]; exact Bool.false_ne_true), hlate]
    refine ⟨rfl, rfl, rfl, ?_, ?_⟩
    · rw [State.lateEnable, State.rf_of_rd (State.rd_modAon ..), State.rf_wf_same _ (by omega)]
      rfl
    · rw [State.lateEnable, State.rf_of_rd (State.rd_modAon ..), State.rf_wf_field _ (by omega) (by omega), hslot]
  · rw [if_pos (by rw [hmay, hm, hbad, hpow, hboot]; decide)]
    obtain ⟨hstat, d, m, hc⟩ := u.lateEnable.cold_hang1 hhang
    rw [hc, hlate]
    exact ⟨rfl, rfl, hstat⟩

/-- Settles O55: each supply, sample and request by its own branch. -/
theorem shutdownAndAuxiliaryDomain : Obligations.ShutdownAndAuxiliaryDomain := by
  unfold Obligations.ShutdownAndAuxiliaryDomain
  refine ⟨fun ag b s hwf hp hc hb hw hact => ⟨shutdown_stores hwf hp hc hb hw hact, shutdown_waits hwf hp hc hb hw hact⟩, fun temp s ha hp => ?_,
    fun slot s ha => ⟨auxValid_alone ha, fun env he => auxValid_late ha he⟩, fun s => ⟨_, rfl, rfl, rfl, rfl, rfl, rfl, rfl, rfl, rfl⟩, fun s => ?_⟩
  · refine ⟨s.aonSampled temp, ?_, rfl, rfl, rfl⟩
    change execAonThermalSample temp s = _
    rw [execAonThermalSample, ha, hp]
    exact if_neg (by decide)
  · have hstop : ∀ t : State, (t.modAon (fun a => { a with crystal := false })).aon.crystal = false := fun _ => rfl
    refine ⟨_, rfl, rfl, ?_, fun body => ?_⟩
    · exact if_pos (Or.inr (by rw [hstop]; rfl))
    · exact if_pos (Or.inr (Or.inl (by rw [hstop]; rfl)))

end Sys2Proof.Machine

/-! The registers that lost ports leave (R349, R379). -/

namespace Sys2Proof.Machine

/-! ### Which registers the loss of the Quexon ports reaches (R349, R379) -/

/-- A register that neither the reset of a context nor the loss of a Quexon port reaches. -/
structure offPorts (a : Nat) : Prop where
  compute : offCompute a
  module : 2 ^ 32 ≤ a
  drain : a ≠ modPg 9 0 + 0x110
  channel : ∀ mc o, o < 0x100 → a ≠ mcPg mc + o
  owner : ∀ r p, p < 7680 → a ≠ ownerAddr r p / 4 * 4
  buckle : ∀ i o, o < 16 → a ≠ bklAddr i + o
  flowGen : ∀ gl, a ≠ logPg gl + 0x708
  port : ∀ p, a ≠ qPg p + 0x100
  vector : ∀ p v, a ≠ qPg p + 0x40C + 16 * v
  hitch : ∀ n, n < 256 → a ≠ hitchAddr n
  ctx : ∀ c o, o < 0x100 → a ≠ ctxPg c + 0x100 + o
  prog : ∀ c, a ≠ rstPg + 0x200 + 4 * c
  route : ∀ c, a ≠ rtPg + 0x180 + 4 * c
  stat : a ≠ rstPg + 0x104
  dur : a ≠ rstPg + 0x108

/-- The status of a bring-up and of a fabric port. -/
theorem modAddr_offPorts {u p : Nat} (hu : u = 0 ∧ p = 1 ∨ u = 2 ∧ p < 12) : offPorts (modAddr u p 0 + 0x100) where
  compute := by
    refine ⟨fun gp o ho => ?_, fun i => ?_, fun n o ho => ?_⟩
    · simp only [modAddr, corePg, regionAddr]
      omega
    · simp only [modAddr, bklAddr, bankPg, regionAddr]
      omega
    · simp only [modAddr, slicePg, regionAddr]
      omega
  module := by
    simp only [modAddr]
    omega
  drain := by
    simp only [modPg, modAddr]
    omega
  channel mc o ho := by
    simp only [modAddr, mcPg, regionAddr]
    omega
  owner r p hp := by
    simp only [modAddr, ownerAddr, rcPg, regionAddr]
    omega
  buckle i o ho := by
    simp only [modAddr, bklAddr, bankPg, regionAddr]
    omega
  flowGen gl := by
    simp only [modAddr, logPg, regionAddr]
    omega
  port q := by cases q <;> simp only [modPg, modAddr, qPg] <;> omega
  vector q v := by cases q <;> simp only [modPg, modAddr, qPg] <;> omega
  hitch n hn := by
    simp only [modPg, modAddr, hitchAddr]
    omega
  ctx c o ho := by
    simp only [modPg, modAddr, ctxPg]
    omega
  prog c := by
    simp only [modPg, modAddr, rstPg]
    omega
  route c := by
    simp only [modAddr, rtPg]
    omega
  stat := by
    simp only [modPg, modAddr, rstPg]
    omega
  dur := by
    simp only [modPg, modAddr, rstPg]
    omega

theorem bootStat_offPorts : offPorts bootStat := modAddr_offPorts (u := 0) (p := 1) (Or.inl ⟨rfl, rfl⟩)

theorem fabPg_offPorts {p : Nat} (hp : p < 12) : offPorts (fabPg p + 0x100) := modAddr_offPorts (Or.inr ⟨rfl, hp⟩)

section
variable {a : Nat} (h : offPorts a) (s : State)

/-! #### The reset of a context -/

theorem State.rd_modAsy (gp : Nat) (f : AsyCore → AsyCore) (a : Nat) : (s.modAsy gp f).rd a = s.rd a := rfl

theorem State.rd_asyRestore (gp a : Nat) : (s.asyRestore gp).rd a = s.rd a := id rfl

theorem State.rd_abandonSegment (gp a : Nat) : (s.abandonSegment gp).rd a = s.rd a := by
  rw [State.abandonSegment, State.rd_ite]
  rw [State.rd_modAsy, State.rd_asyRestore, ite_self]

/-- A state without the rows and the transfers of a core. -/
def State.withoutRows (s : State) (gp : Nat) : State :=
  { s with reqs := s.reqs.filter (fun r => decide (r.core ≠ some gp)), xfers := s.xfers.filter (fun x => decide (x.core ≠ some gp)) }

theorem State.rd_withoutRows (gp a : Nat) : (s.withoutRows gp).rd a = s.rd a := rfl

theorem State.dropTraffic_eq (gp : Nat) : s.dropTraffic gp = match s.logOf gp with
    | none => s.withoutRows gp
    | some gl => (s.withoutRows gp).wf (logPg gl + 0x708) 15 0 (((s.withoutRows gp).rf (logPg gl + 0x708) 15 0 + 1) % 2 ^ 16) := id rfl

/-- A state with these counts of posted writes. -/
def State.setPosted (s : State) (l : Tbl (BitVec 16)) : State := { s with posted := l }

theorem State.rd_setPosted (l : Tbl (BitVec 16)) (a : Nat) : (s.setPosted l).rd a = s.rd a := rfl

/-- The registers of a buckle at 0. -/
def State.bklZeros (s : State) (i : Nat) : State := [0, 4, 8, 12].foldl (fun (s : State) o => s.wr (bklAddr i + o) 0) s

/-- The registers of a buckle at 0, and nothing arrived or posted there (R349). -/
def State.bklCleared (s : State) (i : Nat) : State :=
  ((s.bklZeros i).dropArrival i).setPosted (Tbl.set 0 (s.bklZeros i).posted i 0)

theorem State.bklReset_eq (i : Nat) : s.bklReset i
    = ((s.bklCleared i).waitersOf i).foldl (fun (s : State) p => s.modCore p.1 (fun c => { c with waiter := none })) (s.bklCleared i) := id rfl

theorem State.rd_dropTraffic {a : Nat} (hf : ∀ gl, a ≠ logPg gl + 0x708) (gp : Nat) : (s.dropTraffic gp).rd a = s.rd a := by
  rw [State.dropTraffic_eq]
  cases s.logOf gp with
  | none => exact s.rd_withoutRows gp a
  | some gl => exact (State.rd_wf_other _ _ _ _ (hf _)).trans (s.rd_withoutRows gp a)

include h

theorem State.rd_bklZeros (i : Nat) : (s.bklZeros i).rd a = s.rd a := by
  rw [State.bklZeros, State.rd_clearRegs, if_neg]
  rintro ⟨o, ho, ha⟩
  exact h.buckle i o (by simp at ho; omega) ha

theorem State.rd_bklReset (i : Nat) : (s.bklReset i).rd a = s.rd a := by
  rw [State.bklReset_eq, State.rd_foldl (fun t p => State.rd_modCore ..), State.bklCleared, State.rd_setPosted, State.rd_dropArrival,
      State.rd_bklZeros h]

theorem State.rd_resetBuckles (gl : Nat) : (s.resetBuckles gl).rd a = s.rd a :=
  State.rd_foldl (fun t _ => t.rd_bklReset h _) _ s

theorem State.rd_wipeCore (gp : Nat) (which : Nat → Bool) : (s.wipeCore gp which).rd a = s.rd a := by
  simp only [State.wipeCore]
  rw [State.rd_zeroCore _ h.compute.cores (h.compute.clearKeeps _ _)]
  split
  · rw [State.rd_resetBuckles h, State.rd_dropTraffic _ h.flowGen, State.rd_abandonSegment]
  · rw [State.rd_dropTraffic _ h.flowGen, State.rd_abandonSegment]

theorem State.rd_endCtx (c : Nat) : (s.endCtx c).rd a = s.rd a := by
  rw [State.endCtx_eq, State.rd_withPerturbed, (State.closeFor_frame _ c).2, State.ctxOff, State.rd_wf_other _ _ _ _ (h.route c),
    State.rd_wr_other _ _ (h.prog c), State.rd_setCtxEng, State.rd_wf_other _ _ _ _ (h.ctx c 0x14 (by decide)),
    State.rd_wf_other _ _ _ _ (h.ctx c 0x14 (by decide)), State.rd_wf_other _ _ _ _ (h.ctx c 0 (by decide))]

theorem State.rd_resetCtx (c : Nat) (hung : List Nat) : (s.resetCtx c hung).rd a = s.rd a := by
  simp only [State.resetCtx]
  rw [State.rd_endCtx h, State.rd_foldl (fun t n => t.rd_zeroSlice h.compute n), State.rd_foldl (fun t gl => t.rd_resetBuckles h gl),
    State.rd_foldl (fun t gp => t.rd_wipeCore h gp ctxClears)]

theorem State.rd_goContext (r : RstGo) : (s.goContext r).rd a = s.rd a := by
  rw [State.goContext, State.rd_settleJobs_module h.module _ _ h.dur h.stat, State.rd_resetCtx h, State.rd_startJob_other _ _ _ h.stat]

theorem State.rd_reqContext (c : Nat) (env : RstEnv) : (s.reqContext c false env).rd a = s.rd a := by
  rcases s.reqContext_cases c env with hx | hx
  · rw [hx]
  · rw [hx, State.rd_goContext h]

/-! #### Requests of a port that are answered with nothing -/

omit h in
theorem State.rd_qReq (q : QPort) (op addr : Nat) (d : List Row) (w : QWhy) (a : Nat) : (s.qReq q op addr d w).rd a = s.rd a :=
  State.rd_of_offHost (State.qReq_offHost ..) a

omit h in
theorem State.rd_cachePut (key : Nat) (l : CLine) (a : Nat) : (s.cachePut key l).rd a = s.rd a := by
  unfold State.cachePut
  extract_lets set t
  have ht : t.rd a = s.rd a := by
    unfold t
    split
    · rfl
    · split
      · rw [State.rd_ite, State.rd_qReq]
        exact ite_self _
      · rfl
  clear_value t
  split
  · rw [State.rd_ite, State.rd_qReq, ite_self, ht]
  · exact (t.rd_withCache _ a).trans ht

omit h in
theorem State.rd_rowDone (xid idx : Nat) (e : Entry) (err : Option (BitVec 64)) (a : Nat) : (s.rowDone xid idx e err).rd a = s.rd a := by
  unfold State.rowDone
  split
  · rfl
  next x _ =>
    extract_lets y
    split
    · rfl
    · rfl

theorem State.rd_xferDenied (xid idx : Nat) : (s.xferDenied xid idx).rd a = s.rd a := by
  rw [State.xferDenied, State.rowDenied, State.rd_rowDone]
  split
  · exact State.rd_bump_other _ (h.compute.core _ _ (by decide))
  · rfl

theorem State.rd_channelErr (mc bitNo sev cls cyc : Nat) (synd : BitVec 64) : (s.regionErr (mcPg mc) bitNo sev cls cyc synd).rd a = s.rd a :=
  State.rd_regionErr_other h.drain (h.channel mc) ..

theorem State.rd_rowFails (region off : Nat) : (s.rowFails region off).rd a = s.rd a := by
  unfold State.rowFails
  extract_lets row page b t
  split
  · rfl
  next hp =>
    split
    · exact State.rd_wf_other _ _ _ _ (h.owner region page (by omega))
    · rfl
    · rfl

omit h in
/-- A state whose channels have these bursts to write back. -/
theorem State.rd_withCeBursts (k : Tbl (List Nat)) (a : Nat) : ({ s with ceBursts := k }).rd a = s.rd a := rfl

theorem State.rd_burst (region off cyc : Nat) : (s.burst region off cyc false).2.2.rd a = s.rd a := by
  unfold State.burst
  extract_lets key m mc synd ce
  have hce : (ce s).rd a = s.rd a := (State.rd_withCeBursts ..).trans (s.rd_channelErr h ..)
  have hue : ((s.regionErr (mcPg mc) 1 2 0x04 cyc synd).rowFails region off).rd a = s.rd a := (State.rd_rowFails h _ _ _).trans (s.rd_channelErr h ..)
  clear_value ce
  simp only [Bool.false_eq_true, if_false]
  split
  · rfl
  · exact hce
  · exact hue
  · exact hce
  · rfl

theorem State.rd_linkUe (region off cyc : Nat) : (s.linkUe region off cyc false).2.rd a = s.rd a := by
  unfold State.linkUe
  exact (State.rd_rowFails h _ _ _).trans ((State.rd_channelErr h _ ..).trans (s.rd_fresh a))

theorem State.rd_readBrand (k cyc err : Nat) : (s.readBrand k cyc err).2.rd a = s.rd a := by
  unfold State.readBrand
  extract_lets n region wordOff validOff
  clear_value wordOff validOff
  rcases h1 : s.burst region wordOff cyc false with ⟨w, e, t⟩
  have ht : t.rd a = s.rd a := by
    have := s.rd_burst h region wordOff cyc
    rwa [h1] at this
  rcases h2 : t.burst region validOff cyc false with ⟨v, f, u⟩
  have hu : u.rd a = s.rd a := by
    have := t.rd_burst h region validOff cyc
    rw [h2] at this
    exact this.trans ht
  have hue : ∀ off, (u.linkUe region off cyc false).2.fresh.2.rd a = s.rd a := fun off =>
    (State.rd_fresh ..).trans ((u.rd_linkUe h ..).trans hu)
  simp only [h2]
  split
  · exact hu
  · exact (u.rd_channelErr h ..).trans hu
  · exact hue _
  · exact hue _

theorem State.rd_storedBrand (addr cyc err : Nat) : (s.storedBrand addr cyc err).2.rd a = s.rd a := by
  rw [State.storedBrand]
  split
  · split
    · exact s.rd_readBrand h ..
    · rfl
  · rfl
  · rfl

theorem State.rd_loadStop (gp err : Nat) :
    (s.loadStop gp err).rd a = s.rd a := State.rd_loadStop_other s (gp := gp) (h.compute.core gp 0x21C (by decide))

theorem State.rd_loadDenied (gp : Nat) : (s.loadDenied gp).rd a = s.rd a := by
  rw [State.loadDenied, State.rd_loadStop h, State.rd_bump_other _ (h.compute.core _ _ (by decide))]

theorem State.rd_loadRow (gp cyc mcAt brandErr : Nat) (row : Row) (err : Option (BitVec 64)) :
    (s.loadRow gp cyc mcAt brandErr row err).rd a = s.rd a := by
  have hstat : a ≠ loadStat gp := h.compute.core gp 0x21C (by decide)
  unfold State.loadRow
  extract_lets c
  split
  · rfl
  · exact (State.rd_loadStop h ..).trans (State.rd_coreErr_other (h.compute.headers gp) ..)
  · extract_lets x rows whole
    have hbrand : ∀ y : Option Word × State, y = (if whole then s.storedBrand (x - 1920) mcAt brandErr else (none, s)) → y.2.rd a = s.rd a := by
      rintro y rfl
      split
      · exact s.rd_storedBrand h ..
      · rfl
    generalize (if whole then s.storedBrand (x - 1920) mcAt brandErr else (none, s)) = y at hbrand
    have hy := hbrand y rfl
    clear_value whole
    obtain ⟨b, t⟩ := y
    simp only
    rw [State.rd_ite, State.rd_ite, State.rd_loadStop h, State.rd_brandFail _ h.compute.cores, State.rd_wf_other _ _ _ _ hstat,
      State.rd_wf_other _ _ _ _ hstat, State.rd_modCore, State.rd_wf_other _ _ _ _ hstat, State.rd_setCore, ite_self, ite_self]
    exact hy

omit h in
theorem State.rd_slotSeen (c i : Nat) (r : Row) (a : Nat) : (s.slotSeen c i r).rd a = s.rd a := rfl

theorem State.rd_setTaken (c : Nat) (l : List Nat) : (s.setTaken c l).rd a = s.rd a :=
  (State.rd_wf_other _ _ _ _ (h.ctx c 0x14 (by decide))).trans rfl

theorem State.rd_doneNow (c slot : Nat) (line : Row) : (s.doneNow c slot line).rd a = s.rd a := by
  unfold State.doneNow
  extract_lets e b
  split
  · rfl
  next k _ =>
    extract_lets r t u v w
    have hu : u.rd a = s.rd a := (State.rd_setTaken h ..).trans (State.rd_cachePut ..)
    have hv : v.rd a = s.rd a := (State.rd_wr_other _ _ (h.prog c)).trans hu
    have hw : w.rd a = s.rd a := by
      unfold w
      rw [State.rd_ite, State.rd_bump_other _ (h.ctx c 0x28 (by decide)), ite_self, hv]
    rw [State.rd_ite, State.rd_notify_other w _ _ _ (h.vector e.port c), ite_self, hw]

theorem State.rd_answered (p : QPort) (r : QReq) (grant : Nat) (line : Option Row) (ue : Bool) : (s.answered p r grant line ue).rd a = s.rd a := by
  unfold State.answered
  extract_lets hold err
  have hhold : ∀ (t : State) st d, (hold t st d).rd a = t.rd a := fun t st d => by
    unfold hold
    rw [State.rd_ite, State.rd_cachePut, ite_self]
  clear_value hold
  split
  · exact (State.rd_rowDone ..).trans (hhold ..)
  · exact s.rd_xferDenied h ..
  · rw [State.rd_ite, State.rd_loadRow h, hhold, ite_self]
  · rw [State.rd_ite, State.rd_loadDenied h, ite_self]
  · extract_lets t
    rw [State.rd_ite, State.rd_slotSeen, ite_self, hhold]
  next c i d _ =>
    extract_lets e
    rw [State.rd_ite, State.rd_ite, State.rd_slotSeen, State.rd_cachePut, State.rd_bump_other _ (h.ctx c 0x20 (by decide)), State.rd_setTaken h,
      State.rd_slotSeen, hhold, ite_self, ite_self]
  · rw [State.rd_ite, State.rd_doneNow h, hhold, ite_self]
  · rfl

/-! #### The ports go down -/

theorem State.rd_qFreed (p : QPort) : (s.qFreed p).rd a = s.rd a := by
  rw [State.qFreed, State.rd_freeHitches_other _ _ h.hitch, State.rd_wf_other _ _ _ _ (h.port p)]

theorem State.rd_qLose (p : QPort) : (s.qLose p).2.rd a = s.rd a := by
  have hclose : ∀ u : State, (u.closeOf p).rd a = u.rd a := fun u => by
    rw [State.closeOf]
    split
    · rw [State.rd_ite, u.closeSession_frame.2, ite_self]
    · rfl
  rw [State.qLose_eq, hclose, State.answerNone, State.rd_foldl (fun t r => t.rd_answered h p r 0 none false),
    State.rd_of_offHost (State.setQ_offHost ..), State.loseLines, State.rd_withCache, State.rd_foldl (fun t c => t.rd_reqContext h c {}),
    State.rd_qFreed h]

theorem State.rd_qDown (p : QPort) (cause cyc : Nat) : (s.qDown p cause cyc).rd a = s.rd a := by
  cases hl : s.qLive p with
  | false => rw [State.qDown_dead hl]
  | true =>
    obtain ⟨synd, hx⟩ := s.qDown_live hl cause cyc
    rw [hx, State.rd_chipRec, State.rd_qLose h]

theorem State.rd_portsLost : s.portsLost.rd a = s.rd a := by
  rw [State.portsLost, State.rd_qDown h, State.rd_qDown h]

end

end Sys2Proof.Machine

/-! Bring-up and its pins (R329 to R344, R425, R429, R430). -/

namespace Sys2Proof.Machine

/-! ### The status of a bring-up that begins (R329, R344) -/

theorem State.rd_useFirmware (s : State) (a : Nat) : s.useFirmware.rd a = s.rd a := by
  refine State.rd_foldl (fun t c => ?_) _ s
  split
  · rw [State.rd_ite, State.rd_modFlash, ite_self]
  · rfl

theorem State.rd_blank {a : Nat} (h : alwaysOn a = true) (s : State) : s.blank.rd a = s.rd a :=
  (tbl_get_filter (resetOf a) s.regs alwaysOn a).trans (if_pos h)

theorem State.rd_redraw (s : State) {a : Nat} (h : ∀ o, o < 0x20 → a ≠ secPg + 0x100 + o) : s.redraw.rd a = s.rd a := by
  rw [State.redraw_eq, State.wr64, State.wr64, State.rd_wr_other _ _ (h 0x1C (by decide)), State.rd_wr_other _ _ (h 0x18 (by decide)),
    State.rd_wr_other _ _ (h 0x14 (by decide)), State.rd_wr_other _ _ (h 0x10 (by decide))]
  rfl

/-- A bring-up shows whether it is warm (R343). -/
theorem State.bootDrawn_warm (s : State) (warm : Bool) : (s.bootDrawn warm).rf bootStat 29 29 = bit warm := by
  rw [State.bootDrawn]
  refine (State.rf_of_rd (State.rd_foldl (fun t gl => State.rd_wf_other _ _ _ _ (bootStat_offPorts.flowGen gl)) _ _) _ _).trans ?_
  rw [State.rf_of_rd (State.rd_useFirmware ..), State.rf_of_rd (State.rd_redraw _ ?_), State.rf_of_rd ((State.closeSession_frame _).2 _),
    State.rf_wf_same _ (by omega)]
  · cases warm <;> rfl
  · intro o ho
    have hs : secPg = bootStat - 0x1100 + 6 * 2 ^ 24 := rfl
    have hb : 0x1100 ≤ bootStat := by decide
    omega

theorem State.bootStart_warm (s : State) (warm : Bool) : (s.bootStart warm).rf bootStat 29 29 = bit warm := by
  rw [State.bootStart_eq, State.rf_of_rd (State.rd_modAon ..), State.rf_of_rd (State.rd_wf_other _ _ _ _ bootStat_offPorts.stat),
    State.rf_of_rd (State.rd_assayNoted ..), State.rf_of_rd (State.rd_withoutResets ..), State.bootDrawn_warm]

theorem State.rd_bootHearths (s : State) (from1 : Bool) {a : Nat} (h : a ≠ rstPg + 0x114) : (s.bootHearths from1).rd a = s.rd a := by
  simp only [State.bootHearths, State.rd_ite, State.rd_modAon, State.rd_wf_other _ _ _ _ h, ite_self]

theorem State.rd_coldClocks (s : State) (env : BootEnv) (from1 : Bool) {a : Nat} (h1 : a ≠ pwrStat) (h2 : a ≠ clkPg + 0x104) :
    (s.coldClocks env from1).rd a = s.rd a := by
  simp only [State.coldClocks, State.bootClocks, State.rd_ite, State.rd_wf_other _ _ _ _ h1, State.rd_wf_other _ _ _ _ h2, State.withGen_rd, ite_self]

theorem State.coldBase_warm (s : State) (env : BootEnv) (from1 : Bool) : (s.coldBase env from1).rf bootStat 29 29 = 0 := by
  rw [State.coldBase, State.rf_of_rd (State.rd_coldClocks _ _ _ (by decide) (by decide)), State.rf_of_rd (State.rd_blank (by decide) _),
    State.rf_of_rd (State.rd_bootHearths _ _ (by decide)), State.bootStart_warm]
  rfl

/-- A cold bring-up from step 3 is shown as cold, and keeps the shutdown record (R344). -/
theorem State.cold_hang3_shows (s : State) {env : BootEnv} (h : env.hang = 3) :
    (s.cold env false).rf bootStat 29 29 = 0 ∧ (s.cold env false).flash.shut = s.flash.shut := by
  obtain ⟨d, m, hx⟩ := s.coldBase_lasting env false
  rw [State.cold_eq, if_neg Bool.false_ne_true, State.runSteps_hang _ _ h (by decide), State.rf_wf_field _ (by omega) (by omega), State.coldBase_warm,
    State.wf_flash]
  exact ⟨rfl, (State.lasting_eq hx).2⟩

/-! ### A bring-up that fails (R330) -/

/-- A fabric port put DOWN, its link state new (R330). -/
def State.portIdle (s : State) (p : Nat) : State :=
  if s.portState p = 0 then s
  else (((s.wf (fabPg p + 0x100) 31 28 0).wf (fabPg p + 0x100) 19 12 0).setLink p {}).emptyInputs p

theorem State.idlePorts_eq (s : State) : s.idlePorts = ((List.range 12).foldl State.portIdle s).portsLost := id rfl

theorem State.rd_linkIdle (s : State) (p a : Nat) : ((s.setLink p {}).emptyInputs p).rd a = s.rd a := rfl

theorem State.portIdle_same (s : State) (p : Nat) : (s.portIdle p).portState p = 0 := by
  rw [State.portIdle]
  split
  · assumption
  · rw [State.portState, State.rf_of_rd (State.rd_linkIdle ..), State.rf_wf_field _ (by omega) (by omega), State.rf_wf_same _ (by omega)]
    rfl

theorem State.rd_portIdle_other (s : State) (p : Nat) {a : Nat} (h : a ≠ fabPg p + 0x100) : (s.portIdle p).rd a = s.rd a := by
  rw [State.portIdle, State.rd_ite, State.rd_linkIdle, State.rd_wf_other _ _ _ _ h, State.rd_wf_other _ _ _ _ h, ite_self]

theorem State.portIdle_bones (s : State) (p : Nat) : (s.portIdle p).bones = s.bones := by
  rw [State.portIdle, apply_ite State.bones, State.emptyInputs_bones, State.setLink_bones, State.wf_bones, State.wf_bones, ite_self]

theorem State.portIdle_down (s : State) (p q : Nat) (h : s.portState q = 0) : (s.portIdle p).portState q = 0 := by
  by_cases hq : q = p
  · rw [hq, State.portIdle_same]
  · have hne : fabPg q + 0x100 ≠ fabPg p + 0x100 := by
      simp only [fabPg, modAddr]
      omega
    rw [State.portState, State.rf_of_rd (State.rd_portIdle_other _ _ hne)]
    exact h

theorem State.portsIdle_down (l : List Nat) (s : State) (q : Nat) (h : q ∈ l ∨ s.portState q = 0) : (l.foldl State.portIdle s).portState q = 0 := by
  induction l generalizing s with
  | nil => exact h.resolve_left List.not_mem_nil
  | cons p l ih =>
    refine ih (s.portIdle p) ?_
    rcases h with h | h
    · rcases List.mem_cons.1 h with rfl | h
      · exact Or.inr (s.portIdle_same _)
      · exact Or.inl h
    · exact Or.inr (s.portIdle_down p q h)

theorem State.idlePorts_down (s : State) {p : Nat} (hp : p < 12) : s.idlePorts.portState p = 0 := by
  rw [State.idlePorts_eq, State.portState, State.rf_of_rd (State.rd_portsLost (fabPg_offPorts hp) _)]
  exact State.portsIdle_down _ _ _ (Or.inl (List.mem_range.2 hp))

theorem State.rd_idlePorts_bootStat (s : State) : s.idlePorts.rd bootStat = s.rd bootStat := by
  rw [State.idlePorts_eq, State.rd_portsLost bootStat_offPorts]
  refine State.rd_foldl_mem (fun t p hp => t.rd_portIdle_other p ?_) s
  have hs : bootStat = 2 ^ 32 + 0x1100 := by decide
  rw [hs, fabPg, modAddr]
  omega

theorem State.idlePorts_aon (s : State) : s.idlePorts.aon = s.aon := by
  rw [State.idlePorts_eq, State.aon_of_lasting (State.portsLost_lasting _),
    State.aon_of_bones (State.foldl_bones (fun t p => t.portIdle_bones p) _ s)]

/-- A bring-up that fails shows its cause and leaves every fabric port DOWN (R330). -/
theorem State.bootFail_shows (s : State) {cause : Nat} (hc : cause < 16) : (s.bootFail cause).rf bootStat 30 30 = 1
    ∧ (s.bootFail cause).rf bootStat 23 20 = cause ∧ (s.bootFail cause).aon.booting = false ∧ ∀ p, p < 12 → (s.bootFail cause).portState p = 0 := by
  rw [State.bootFail]
  refine ⟨?_, ?_, ?_, fun p hp => State.idlePorts_down _ hp⟩
  · rw [State.rf_of_rd (State.rd_idlePorts_bootStat _), State.rf_of_rd (State.rd_modAon ..), State.rf_wf_field _ (by omega) (by omega),
      State.rf_wf_same _ (by omega)]
    rfl
  · rw [State.rf_of_rd (State.rd_idlePorts_bootStat _), State.rf_of_rd (State.rd_modAon ..), State.rf_wf_same _ (by omega)]
    exact Nat.mod_eq_of_lt hc
  · rw [State.idlePorts_aon, State.modAon_aon]

/-! ### Main power goes (R429) -/

/-- The always-on values of OFF (R429). -/
def Aon.off (a : Aon) : Aon :=
  { a with recovery := false, powered := false, pgood := false, cable := false, thermtrip := false, pwrcyc := false, booting := false,
           waitPerst := none, shutWait := none }

/-- A state whose units have lost their power (R429). -/
def State.cutOff (u : State) : State :=
  let v := ({ u with dbg := none }).blank.modAon Aon.off
  { v with gen := { v.gen with running := false }, pow := { held := v.pow.held } }

theorem State.cutOff_leaves (u : State) : u.cutOff.aon = u.aon.off ∧ u.cutOff.dbg = none ∧ u.cutOff.gen.running = false ∧ u.cutOff.cores = []
    ∧ u.cutOff.mem = [] := ⟨rfl, rfl, rfl, rfl, rfl⟩

/-- The registers of the supplies, of the clocks and of the resets in OFF (R429). -/
def State.offShown (u : State) : State :=
  ((((((u.wf (pwrPg + 0x118) 27 27 0).wf pwrStat 31 23 0).wf pwrStat 10 0 0).wf (clkPg + 0x104) 30 26 0).wf (clkPg + 0x104) 10 0 0).wf
    (rstPg + 0x104) 31 31 0).showLimit

theorem State.offShown_keeps (u : State) : u.offShown.aon = u.aon ∧ u.offShown.dbg = u.dbg ∧ u.offShown.gen = u.gen ∧ u.offShown.cores = u.cores
    ∧ u.offShown.mem = u.mem := by
  have hrest : u.offShown.rest = u.rest := by
    rw [State.offShown, State.showLimit, State.wf_rest, State.wf_rest, State.wf_rest, State.wf_rest, State.wf_rest, State.wf_rest, State.wf_rest]
  exact ⟨State.aon_of_rest hrest, State.dbg_of_rest hrest, State.gen_of_rest hrest, State.cores_of_rest hrest, State.mem_of_rest hrest⟩

theorem State.enterOff_eq (s : State) : s.enterOff = s.portsLost.cutOff.offShown := id rfl

/-- OFF leaves nothing powered, no session and no stroke (R429). -/
theorem State.enterOff_leaves (s : State) :
    s.enterOff.aon = s.aon.off ∧ s.enterOff.dbg = none ∧ s.enterOff.gen.running = false ∧ s.enterOff.cores = []
    ∧ s.enterOff.mem = [] := by
  obtain ⟨haon, hdbg, hgen, hcores, hmem⟩ := s.portsLost.cutOff.offShown_keeps
  obtain ⟨haon', hdbg', hgen', hcores', hmem'⟩ := s.portsLost.cutOff_leaves
  rw [State.enterOff_eq]
  refine ⟨?_, hdbg.trans hdbg', (congrArg Gen.running hgen).trans hgen', hcores.trans hcores', hmem.trans hmem'⟩
  rw [haon, haon', State.aon_of_lasting s.portsLost_lasting]

theorem pwrEnDeassert_off {s : State} (h : s.aon.powered = true ∨ s.aon.booting = true) :
    ∃ t, exec .pwrEnDeassert s = .next t ∧ t.aon.powered = false ∧ t.aon.booting = false ∧ t.aon.pgood = false ∧ t.aon.cable = false
      ∧ t.aon.pwrEn = false ∧ t.dbg = none ∧ t.gen.running = false ∧ t.cores = [] ∧ t.mem = [] := by
  obtain ⟨u, hu, hx⟩ : ∃ u : State, u.aon = { s.aon with pwrEn := false, mainBad := false, pwrEnv := none }
      ∧ exec .pwrEnDeassert s = .next (if u.aon.powered ∨ u.aon.booting then u.enterOff else u) :=
    ⟨(s.wf (pwrPg + 0x118) 31 31 0).modAon (fun a => { a with pwrEn := false, mainBad := false, pwrEnv := none }),
      by rw [State.modAon_aon, State.wf_aon], id rfl⟩
  obtain ⟨haon, hdbg, hgen, hcores, hmem⟩ := u.enterOff_leaves
  rw [if_pos (by rw [hu]; exact h)] at hx
  refine ⟨_, hx, ?_, ?_, ?_, ?_, ?_, hdbg, hgen, hcores, hmem⟩ <;> rw [haon]
  · rfl
  · rfl
  · rfl
  · rfl
  · rw [hu]
    rfl

theorem mainPowerFault_off {s : State} (h : s.aon.powered = true ∨ s.aon.booting = true) (f : PowerFault) :
    ∃ t, exec (.mainPowerFault f) s = .next t ∧ t.aon.powered = false ∧ t.aon.booting = false ∧ t.aon.mainBad = true ∧ t.aon.cable = false
      ∧ t.dbg = none ∧ t.gen.running = false ∧ t.cores = [] ∧ t.mem = [] := by
  obtain ⟨u, hu, hx⟩ : ∃ u : State, u.aon.mainBad = true ∧ exec (.mainPowerFault f) s = .next u.enterOff := by
    refine ⟨(s.bump (pwrPg + 0x120) 15 0 1).modAon (fun a => { a with mainBad := true, main := a.main && decide (f ≠ .under) }), rfl, ?_⟩
    refine if_neg ?_
    rcases h with h | h <;> rw [h] <;> simp
  obtain ⟨haon, hdbg, hgen, hcores, hmem⟩ := u.enterOff_leaves
  refine ⟨_, hx, ?_, ?_, ?_, ?_, hdbg, hgen, hcores, hmem⟩ <;> rw [haon]
  · rfl
  · rfl
  · exact hu
  · rfl

/-! ### A bring-up starts (R329, R343) -/

theorem State.warmStart_eq (s : State) (env : BootEnv) : ∃ u : State, s.warm env
    = if u.imagesOk then u.runSteps true env [3, 4, 5, 6, 8, 10] else u.consumeRec.cold env false := ⟨_, rfl⟩

theorem State.warm_hang3 (s : State) {env : BootEnv} (h : env.hang = 3) : (s.warm env).rf bootStat 27 24 = 3 := by
  obtain ⟨u, hx⟩ := s.warmStart_eq env
  rw [hx]
  split
  · exact u.runSteps_hang_shows true h (by decide) (by decide) _
  · exact u.consumeRec.cold_hang3 h

/-- A warm request runs from step 3 (R343). -/
theorem State.warmOrCold_hang3 {s : State} {env : BootEnv} (hc : s.aon.crystal = true) (ht : s.aon.thermtrip = false) (hr : ∀ j ∈ s.rst, j.level < 5)
    (h : env.hang = 3) : (s.warmOrCold env).rf bootStat 27 24 = 3 := by
  have hnone : s.rst.any (fun j => decide (5 ≤ j.level)) = false := by
    refine List.any_eq_false.2 fun j hj => ?_
    have := hr j hj
    simpa using this
  rw [State.warmOrCold, if_neg (by rw [hc, ht, hnone]; decide)]
  split
  · exact s.warm_hang3 h
  · exact s.cold_hang3 h

/-- A cold bring-up whose second step never ends: power is on (R329). -/
theorem State.cold_hang2 (s : State) {env : BootEnv} (h : env.hang = 2) : (s.cold env true).rf bootStat 27 24 = 2
    ∧ (s.cold env true).aon.booting = true ∧ (s.cold env true).aon.powered = true ∧ (s.cold env true).aon.pgood = true := by
  obtain ⟨d, m, hx⟩ := s.coldBase_lasting env true
  obtain ⟨haon, -⟩ := State.lasting_eq hx
  have hstep : ∀ (u : State) (r : List Nat), u.runSteps false env (1 :: r)
      = (((u.wf bootStat 27 24 1).modAon (fun a => { a with powered := true, pgood := true })).stepDone env 1).runSteps false env r := fun u r => by
    rw [State.runSteps]
    refine (if_neg (by rw [h]; omega)).trans ?_
    exact (if_neg (by decide)).trans ((if_neg (by omega)).trans ((if_neg (by rw [h]; decide)).trans rfl))
  rw [State.cold_eq, if_pos rfl, hstep, State.runSteps_hang_aon _ _ h (by decide), State.stepDone, State.modAon_aon, State.bump_aon, State.bump_aon,
    State.modAon_aon, State.wf_aon, haon]
  exact ⟨State.runSteps_hang_shows _ _ h (by decide) (by decide) _, rfl, rfl, rfl⟩

/-! ### The last steps of a bring-up (R331, R332) -/

/-- What a bring-up that waited for PERST_N comes to: READY, or a port that is not trained keeps it from it (R332). -/
def State.goneOn (t : State) (q : List (QPort × QTrainResult)) : Prop :=
  t.aon.waitPerst = none ∧ ((t.ready = true ∧ t.aon.booting = false ∧ t.aon.lastReady = true) ∨ (∃ x ∈ q, t.qUp x.1 = false)
    ∨ ∃ p, p < 12 ∧ t.portUp p = false ∧ t.portState p ≠ 0 ∧ t.portState p ≠ 5)

/-- A state whose assays count from now. -/
def State.assaysFrom (s : State) : State := { s with asyFrom := s.aon.time }

theorem State.assaysFrom_aon (s : State) : s.assaysFrom.aon = s.aon := rfl
theorem State.rd_assaysFrom (s : State) (a : Nat) : s.assaysFrom.rd a = s.rd a := rfl

/-- The always-on values of READY (R331). -/
def Aon.readied (a : Aon) : Aon := { a with lastReady := true, booting := false }

theorem State.setReady_eq (s : State) : s.setReady
    = (((s.enableUnits.wf (asyPg + 0x100) 31 31 1).advanceSvn.wf bootStat 31 31 1).modAon Aon.readied).assaysFrom := id rfl

theorem State.setReady_aon (s : State) : s.setReady.aon = s.aon.readied := by
  have hb : ((s.enableUnits.wf (asyPg + 0x100) 31 31 1).advanceSvn.wf bootStat 31 31 1).aon = s.aon :=
    State.aon_of_bones (by rw [State.wf_bones, State.advanceSvn_bones, State.wf_bones, State.enableUnits_bones])
  rw [State.setReady_eq, State.assaysFrom_aon, State.modAon_aon, hb]

theorem State.setReady_ready (s : State) : s.setReady.rf bootStat 31 31 = 1 := by
  rw [State.setReady_eq, State.rf_of_rd (State.rd_assaysFrom ..), State.rf_of_rd (State.rd_modAon ..), State.rf_wf_same _ (by omega)]
  rfl

theorem State.rd_stepDone (s : State) (env : BootEnv) (k : Nat) {a : Nat} (h1 : a ≠ bootPg + 0x140 + 4 * (k - 1)) (h2 : a ≠ bootPg + 0x104) :
    (s.stepDone env k).rd a = s.rd a := by
  rw [State.stepDone, State.rd_modAon, State.rd_bump_other _ h2, State.rd_bump_other _ h1]

/-- A step that is done changes of the always-on values the time alone (R330). -/
theorem State.stepDone_aon (s : State) (env : BootEnv) (k : Nat) :
    (s.stepDone env k).aon = { s.aon with time := s.aon.time + env.dur.getD (k - 1) 0 * 16000000 } := by
  rw [State.stepDone, State.modAon_aon, State.bump_aon, State.bump_aon]

/-- READY goes on to nothing more (R331). -/
theorem State.ready_goneOn {s : State} (h : s.aon.waitPerst = none) (env : BootEnv) (q : List (QPort × QTrainResult)) :
    (s.setReady.stepDone env 10).goneOn q := by
  have haon := s.setReady.stepDone_aon env 10
  rw [State.setReady_aon] at haon
  refine ⟨?_, Or.inl ⟨?_, ?_, ?_⟩⟩
  · rw [haon]
    exact h
  · rw [State.ready]
    exact decide_eq_true ((State.rf_of_rd (State.rd_stepDone _ _ _ (a := bootStat) (by decide) (by decide)) _ _).trans s.setReady_ready)
  · rw [haon]
    rfl
  · rw [haon]
    rfl

/-- A state that keeps the status of the ports of another. -/
def State.samePorts (s t : State) : Prop :=
  (∀ p, t.rd (qPg p + 0x100) = s.rd (qPg p + 0x100)) ∧ ∀ p, p < 12 → t.rd (fabPg p + 0x100) = s.rd (fabPg p + 0x100)

/-- A module whose ports keep it from READY (R331). -/
theorem State.blocked_goneOn {s t : State} {env : BootEnv} (ht : t.aon.waitPerst = none) (hp : s.samePorts t) (h : s.readyOk env = false) :
    t.goneOn env.quexon := by
  obtain ⟨hq, hf⟩ := hp
  have hup : ∀ p, t.qUp p = s.qUp p := fun p => by rw [State.qUp, State.qUp, State.rf_of_rd (hq p)]
  refine ⟨ht, Or.inr ?_⟩
  rcases Bool.and_eq_false_iff.1 h with h | h
  · obtain ⟨p, hpm, hpn⟩ := List.all_eq_false.1 h
    have hp12 := List.mem_range.1 hpm
    have hst : t.portState p = s.portState p := State.rf_of_rd (hf p hp12) _ _
    refine Or.inr ⟨p, hp12, ?_⟩
    rw [State.portUp, hst]
    rw [State.portUp] at hpn
    simp only [Bool.or_eq_true, decide_eq_true_eq, not_or] at hpn
    obtain ⟨⟨⟨h2, h3⟩, h0⟩, h5⟩ := hpn
    exact ⟨by simp [h2, h3], h0, h5⟩
  · obtain ⟨x, hx, hxn⟩ := List.all_eq_false.1 h
    exact Or.inl ⟨x, hx, (hup x.1).trans (Bool.eq_false_iff.2 hxn)⟩

/-! #### The release of the generator -/

/-- A state whose generator runs from its first stroke (R331). -/
def State.genRuns (s : State) : State := { s with gen := { running := true, len := s.ts16 }, pow := { s.pow with lastStep := 0 } }

theorem State.genRuns_aon (s : State) : s.genRuns.aon = s.aon := rfl
theorem State.rd_genRuns (s : State) (a : Nat) : s.genRuns.rd a = s.rd a := rfl

theorem State.releaseGen_aon (s : State) : s.releaseGen.aon = s.aon := by
  obtain ⟨w, hx⟩ : ∃ w, s.releaseGen
      = ((((s.wr64 (genPg + 0x108) 0).wf (genPg + 0x114) 1 0 0).wr genStat w).wr (genPg + 0x120) 0 |>.followPath 0).genRuns := ⟨_, rfl⟩
  rw [hx, State.genRuns_aon]
  exact State.aon_of_bones (by rw [State.followPath_bones, State.wr_bones, State.wr_bones, State.wf_bones, State.wr64_bones])

theorem State.rd_releaseGen (s : State) {a : Nat} (h : ∀ o, o < 0x1000 → a ≠ genPg + o) (hg : a ≠ girthPg + 0x100) : s.releaseGen.rd a = s.rd a := by
  obtain ⟨w, hx⟩ : ∃ w, s.releaseGen
      = ((((s.wr64 (genPg + 0x108) 0).wf (genPg + 0x114) 1 0 0).wr genStat w).wr (genPg + 0x120) 0 |>.followPath 0).genRuns := ⟨_, rfl⟩
  have hstat : a ≠ genStat := h 0x118 (by decide)
  rw [hx, State.rd_genRuns, State.rd_followPath_other hg, State.rd_wr_other _ _ (h 0x120 (by decide)), State.rd_wr_other _ _ hstat,
    State.rd_wf_other _ _ _ _ (h 0x114 (by decide)), State.wr64, State.rd_wr_other _ _ (h 0x10C (by decide)),
        State.rd_wr_other _ _ (h 0x108 (by decide))]

theorem State.releaseGen_samePorts (s : State) : s.samePorts s.releaseGen := by
  refine ⟨fun p => s.rd_releaseGen (fun o ho => ?_) ?_, fun p hp => s.rd_releaseGen (fun o ho => ?_) ?_⟩
  · cases p <;> simp only [qPg, modPg, modAddr, genPg] <;> omega
  · cases p <;> decide
  · simp only [fabPg, modAddr, genPg]
    omega
  · simp only [fabPg, modAddr, girthPg]
    omega

/-! #### Steps 9 and 10 -/

/-- Step 10 of a bring-up (R331). -/
def State.tenthStep (s : State) (env : BootEnv) (warm : Bool) : Bool × State := if warm then s.warmStep env 10 else s.coldStep env 10

/-- A cold bring-up maps its blocks and draws its keys before it looks at its ports (R331). -/
def State.drawn (v : State) : State :=
  (List.range 5120).foldl (fun (s : State) gp => s.freshKeys gp) ((List.range 512).foldl (fun (s : State) b => s.mapBlock b) v).bootHoles

theorem State.drawn_aon (v : State) : v.drawn.aon = v.aon := by
  refine State.aon_of_bones ?_
  rw [State.drawn, State.foldl_bones (fun t gp => t.freshKeys_bones gp), State.bootHoles_bones, State.foldl_bones (fun t b => t.mapBlock_bones b)]

theorem State.coldTenth_eq (v : State) (env : BootEnv) : v.coldStep env 10
    = if v.drawn.readyOk env then (true, v.drawn.releaseGen.setReady) else (false, v.drawn.releaseGen) := by
  rw [State.coldStep, State.drawn]

theorem State.warmTenth_eq (v : State) (env : BootEnv) : v.warmStep env 10 = if v.readyOk env then (true, v.setReady) else (false, v) := by
  rw [State.warmStep]

/-- Step 10 comes to READY, or a port that is not trained stops it (R331). -/
theorem State.tenthStep_cases (v : State) (env : BootEnv) (warm : Bool) :
    (∃ x : State, v.tenthStep env warm = (true, x.setReady) ∧ x.aon = v.aon)
      ∨ ∃ x w : State, v.tenthStep env warm = (false, w) ∧ w.aon = v.aon ∧ x.samePorts w ∧ x.readyOk env = false := by
  cases warm with
  | true =>
    have hx : v.tenthStep env true = v.warmStep env 10 := if_pos rfl
    rw [hx, State.warmTenth_eq]
    cases hr : v.readyOk env with
    | true => exact Or.inl ⟨v, if_pos rfl, rfl⟩
    | false => exact Or.inr ⟨v, v, if_neg Bool.false_ne_true, rfl, ⟨fun _ => rfl, fun _ _ => rfl⟩, hr⟩
  | false =>
    have hx : v.tenthStep env false = v.coldStep env 10 := if_neg Bool.false_ne_true
    have haon := v.drawn_aon
    rw [hx, State.coldTenth_eq]
    generalize v.drawn = x at haon
    cases hr : x.readyOk env with
    | true => exact Or.inl ⟨x.releaseGen, if_pos rfl, x.releaseGen_aon.trans haon⟩
    | false => exact Or.inr ⟨x, x.releaseGen, if_neg Bool.false_ne_true, x.releaseGen_aon.trans haon, x.releaseGen_samePorts, hr⟩

section
variable {env : BootEnv} (h0 : env.hang = 0)
include h0

/-- Step 10 ends a bring-up: READY, or nothing when a port is not trained (R331). -/
theorem State.lastStep_goneOn {u : State} (hw : u.aon.waitPerst = none) (warm : Bool) : (u.runSteps warm env [10]).goneOn env.quexon := by
  have hrun : u.runSteps warm env [10]
      = if !((u.wf bootStat 27 24 10).tenthStep env warm).1 then ((u.wf bootStat 27 24 10).tenthStep env warm).2
        else ((u.wf bootStat 27 24 10).tenthStep env warm).2.stepDone env 10 := by
    rw [State.runSteps, if_neg (by rw [h0]; omega)]
    refine ite_congr rfl (fun _ => rfl) fun _ => ?_
    rw [if_neg (by omega), if_neg (by rw [h0]; decide), if_neg (by decide), State.runSteps]
    rfl
  have hwf : (u.wf bootStat 27 24 10).aon.waitPerst = none := by rw [State.wf_aon, hw]
  rw [hrun]
  rcases (u.wf bootStat 27 24 10).tenthStep_cases env warm with ⟨x, hx, haon⟩ | ⟨x, w, hx, haon, hports, hr⟩
  · simp only [hx, Bool.not_true, Bool.false_eq_true, if_false]
    exact State.ready_goneOn (by rw [haon, hwf]) env env.quexon
  · simp only [hx, Bool.not_false, if_true]
    exact State.blocked_goneOn (by rw [haon, hwf]) hports hr

theorem State.qualifyStep_goneOn {u : State} (hw : u.aon.waitPerst = none) : (u.runSteps false env [9, 10]).goneOn env.quexon := by
  obtain ⟨x, hx, haon⟩ : ∃ x : State, u.runSteps false env [9, 10] = (x.stepDone env 9).runSteps false env [10] ∧ x.aon = u.aon := by
    refine ⟨(List.range 12).foldl (fun (s : State) p => s.qualify p (laneErrs env.laneErr1 p) (laneErrs env.laneErr2 p)
      ((env.again.find? (fun x => decide (x.1 = p))).map (·.2) |>.getD []) true 0) (u.wf bootStat 27 24 9), ?_, State.aon_of_bones ?_⟩
    · rw [State.runSteps]
      refine (if_neg (by rw [h0]; omega)).trans ?_
      exact (if_neg (by decide)).trans ((if_neg (by omega)).trans ((if_neg (by rw [h0]; decide)).trans rfl))
    · rw [State.foldl_bones (fun t p => State.qualify_bones ..), State.wf_bones]
  rw [hx]
  refine State.lastStep_goneOn h0 ?_ false
  rw [State.stepDone_aon, haon]
  exact hw

end

/-! ### The commands of bring-up (R329 to R344, R425, R429, R430) -/

theorem exec_pwrEnAssert {env : BootEnv} (s : State) (h : env.wf = true) : exec (.pwrEnAssert env) s
    = if !s.aon.aux then .next (s.modAon (fun a => { a with pwrEnv := some env }))
      else .next (if ((s.wf (pwrPg + 0x118) 31 31 1).modAon (fun a => { a with pwrEn := true })).mayStart
        then ((s.wf (pwrPg + 0x118) 31 31 1).modAon (fun a => { a with pwrEn := true })).cold env true
        else (s.wf (pwrPg + 0x118) 31 31 1).modAon (fun a => { a with pwrEn := true })) := if_pos h

theorem exec_mainPowerApplied {env : BootEnv} (s : State) (h : env.wf = true) : exec (.mainPowerApplied env) s
    = .next (if (s.modAon (fun a => { a with main := true })).mayStart then (s.modAon (fun a => { a with main := true })).cold env true
      else s.modAon (fun a => { a with main := true })) := if_pos h

section
variable {env : BootEnv} {s : State} (henv : env.wf = true)
include henv

/-- PWR_EN begins a cold bring-up only when nothing is missing, and is kept for later before the auxiliary supply is valid (R329, R428). -/
theorem pwrEnAssert_rules :
    (s.aon.aux = false → ∃ t, exec (.pwrEnAssert env) s = .next t ∧ t.aon = { s.aon with pwrEnv := some env } ∧ t.regs = s.regs)
      ∧ (s.aon.aux = true → s.aon.main = false → ∃ t, exec (.pwrEnAssert env) s = .next t ∧ t.aon = { s.aon with pwrEn := true }
        ∧ t.rf (pwrPg + 0x118) 31 31 = 1)
      ∧ (s.aon.aux = true → s.aon.main = true → s.aon.mainBad = false → s.aon.powered = false → s.aon.booting = false → env.hang = 1 →
        ∃ t, exec (.pwrEnAssert env) s = .next t ∧ t.rf bootStat 27 24 = 1 ∧ t.aon.booting = true ∧ t.aon.powered = false) := by
  obtain ⟨u, hu⟩ : ∃ u, u = (s.wf (pwrPg + 0x118) 31 31 1).modAon (fun a => { a with pwrEn := true }) := ⟨_, rfl⟩
  have haon : u.aon = { s.aon with pwrEn := true } := by rw [hu, State.modAon_aon, State.wf_aon]
  have hx := exec_pwrEnAssert s henv
  rw [← hu] at hx
  refine ⟨fun ha => ?_, fun ha hm => ?_, fun ha hm hbad hpow hboot hhang => ?_⟩
  · rw [if_pos (by rw [ha]; rfl)] at hx
    exact ⟨_, hx, rfl, rfl⟩
  · have hmay : u.mayStart = false := by
      rw [State.mayStart, haon, ha, hm]
      rfl
    rw [if_neg (by rw [ha]; decide), hmay, if_neg Bool.false_ne_true] at hx
    refine ⟨_, hx, haon, ?_⟩
    rw [hu, State.rf_of_rd (State.rd_modAon ..), State.rf_wf_same _ (by omega)]
    rfl
  · have hmay : u.mayStart = true := by
      rw [State.mayStart, haon, ha, hm, hbad, hpow, hboot]
      rfl
    rw [if_neg (by rw [ha]; decide), hmay, if_pos rfl] at hx
    obtain ⟨hstat, d, m, hc⟩ := u.cold_hang1 hhang
    refine ⟨_, hx, hstat, ?_, ?_⟩
    · rw [hc]
      rfl
    · rw [hc, haon]
      exact hpow

/-- Main power begins a cold bring-up only when nothing is missing (R329). -/
theorem mainPowerApplied_rules :
    (s.aon.pwrEn = false → ∃ t, exec (.mainPowerApplied env) s = .next t ∧ t.aon = { s.aon with main := true } ∧ t.regs = s.regs)
      ∧ (s.aon.aux = true → s.aon.pwrEn = true → s.aon.mainBad = false → s.aon.powered = false → s.aon.booting = false → env.hang = 2 →
        ∃ t, exec (.mainPowerApplied env) s = .next t ∧ t.rf bootStat 27 24 = 2 ∧ t.aon.booting = true ∧ t.aon.powered = true
          ∧ t.aon.pgood = true) := by
  obtain ⟨u, hu⟩ : ∃ u, u = s.modAon (fun a => { a with main := true }) := ⟨_, rfl⟩
  have haon : u.aon = { s.aon with main := true } := by rw [hu, State.modAon_aon]
  have hx := exec_mainPowerApplied s henv
  rw [← hu] at hx
  refine ⟨fun he => ?_, fun ha he hbad hpow hboot hhang => ?_⟩
  · have hmay : u.mayStart = false := by
      rw [State.mayStart, haon, he]
      simp
    rw [hmay, if_neg Bool.false_ne_true] at hx
    exact ⟨_, hx, haon, by rw [hu, State.modAon_regs]⟩
  · have hmay : u.mayStart = true := by
      rw [State.mayStart, haon, ha, he, hbad, hpow, hboot]
      rfl
    rw [hmay, if_pos rfl] at hx
    exact ⟨_, hx, u.cold_hang2 hhang⟩

/-- The timer of a step stops a cold bring-up, and sends a warm one to the cold path with its record spent (R330, R344). -/
theorem bringupStepTimeout_rules (hb : s.aon.booting = true) (hw : s.aon.waitPerst = none) (h2 : s.rf bootStat 27 24 ≠ 2)
    (hc : s.rf bootStat 27 24 = 1 ∨ s.aon.crystal = true) :
    (s.rf bootStat 29 29 = 0 → ∃ t, exec (.bringupStepTimeout env) s = .next t ∧ t.rf bootStat 30 30 = 1 ∧ t.rf bootStat 23 20 = 2
        ∧ t.aon.booting = false ∧ (∀ p, p < 12 → t.portState p = 0))
      ∧ (s.rf bootStat 29 29 = 1 → env.hang = 3 → ∃ t, exec (.bringupStepTimeout env) s = .next t ∧ t.rf bootStat 27 24 = 3
        ∧ t.rf bootStat 29 29 = 0 ∧ ∀ r, t.flash.shut = some r → r.consumed = true) := by
  have hx : exec (.bringupStepTimeout env) s
      = if s.rf bootStat 29 29 = 1 then .next (s.consumeRec.cold env false) else .next (s.bootFail 2) := by
    refine (if_pos henv).trans (if_neg ?_)
    rintro (h | h | h | ⟨h, h'⟩)
    · rw [hb] at h
      cases h
    · rw [hw] at h
      cases h
    · exact h2 h
    · rcases hc with hc | hc
      · exact h hc
      · rw [hc] at h'
        cases h'
  refine ⟨fun h => ?_, fun h hhang => ?_⟩
  · rw [if_neg (by omega)] at hx
    exact ⟨_, hx, s.bootFail_shows (by decide)⟩
  · rw [if_pos h] at hx
    obtain ⟨hwarm, hshut⟩ := s.consumeRec.cold_hang3_shows hhang
    refine ⟨_, hx, s.consumeRec.cold_hang3 hhang, hwarm, fun r hr => ?_⟩
    rw [hshut, State.consumeRec, State.modFlash_flash, Option.map_eq_some_iff] at hr
    obtain ⟨r', -, rfl⟩ := hr
    rfl

/-- A warm request runs from step 3 (R343). -/
theorem warm_runs (hc : s.aon.crystal = true) (ht : s.aon.thermtrip = false) (hr : ∀ j ∈ s.rst, j.level < 5) (hp : s.aon.powered = true)
    (hhang : env.hang = 3) : ∃ t, exec (.warm .mgmt env) s = .next t ∧ t.rf bootStat 27 24 = 3 := by
  have hx : s.warmReq .mgmt env = s.warmOrCold env := by
    rw [State.warmReq, if_neg (by rw [hc]; decide), if_pos hp]
  refine ⟨_, if_pos henv, ?_⟩
  rw [hx]
  exact State.warmOrCold_hang3 hc ht hr hhang

end

theorem State.qLive_pins (s : State) (n v : Nat) (p : QPort) : (s.wf (pwrPg + 0x118) n n v).qLive p = s.qLive p := by
  have hne : qPg p + 0x100 ≠ pwrPg + 0x118 := by cases p <;> decide
  rw [State.qLive, State.qLive, State.qUp, State.qUp, State.rf_of_rd (State.rd_wf_other _ _ _ _ hne)]

/-- PERST_N holds the ports: what it does then depends on how far the module is (R332, R343). -/
def State.perstHeld (s : State) (env : BootEnv) : State :=
  if s.ready then s.warmOrCold env
  else if s.aon.booting ∧ s.aon.waitPerst.isNone ∧ s.rf bootStat 27 24 = 8 then
    s.modAon (fun a => { a with waitPerst := some (decide (s.rf bootStat 29 29 = 1), env) })
  else s

theorem exec_perstAssert {env : BootEnv} (n : Nat) {s : State} (henv : env.wf = true) (h30 : s.rf (pwrPg + 0x118) 30 30 = 0)
    (hp : s.aon.powered = true) (he : s.aon.pwrEn = true) (ha : s.qLive .qa = false) (hb : s.qLive .qb = false) :
    exec (.perstAssert env n) s = .next ((s.wf (pwrPg + 0x118) 30 30 1).perstHeld env) := by
  have hdown : [QPort.qa, QPort.qb].foldl (fun (s : State) p => s.qDown p 2 (tclkCycle n)) (s.wf (pwrPg + 0x118) 30 30 1)
      = s.wf (pwrPg + 0x118) 30 30 1 := by
    rw [List.foldl_cons, List.foldl_cons, List.foldl_nil, State.qDown_dead ((s.qLive_pins ..).trans ha),
        State.qDown_dead ((s.qLive_pins ..).trans hb)]
  refine (if_pos henv).trans ((if_neg (by omega)).trans ((if_neg ?_).trans ?_))
  · rw [State.wf_aon, hp, he]
    decide
  · rw [hdown]
    rfl

theorem perstAssert_rules {env : BootEnv} (n : Nat) {s : State} (henv : env.wf = true) (h30 : s.rf (pwrPg + 0x118) 30 30 = 0)
    (hp : s.aon.powered = true) (he : s.aon.pwrEn = true) (ha : s.qLive .qa = false) (hb : s.qLive .qb = false) :
    (s.ready = false → (s.aon.booting = false ∨ s.aon.waitPerst.isSome = true ∨ s.rf bootStat 27 24 ≠ 8) →
        ∃ t, exec (.perstAssert env n) s = .next t ∧ t.rf (pwrPg + 0x118) 30 30 = 1 ∧ t.aon = s.aon ∧ t.mem = s.mem)
      ∧ (s.ready = false → s.aon.booting = true → s.aon.waitPerst = none → s.rf bootStat 27 24 = 8 →
        ∃ t, exec (.perstAssert env n) s = .next t ∧ t.rf (pwrPg + 0x118) 30 30 = 1 ∧ t.mem = s.mem
          ∧ t.aon = { s.aon with waitPerst := some (decide (s.rf bootStat 29 29 = 1), env) })
      ∧ (s.ready = true → s.aon.crystal = true → s.aon.thermtrip = false → (∀ j ∈ s.rst, j.level < 5) → env.hang = 3 →
        ∃ t, exec (.perstAssert env n) s = .next t ∧ t.rf bootStat 27 24 = 3) := by
  have hx := exec_perstAssert n henv h30 hp he ha hb
  have hpin : (s.wf (pwrPg + 0x118) 30 30 1).rf (pwrPg + 0x118) 30 30 = 1 := State.rf_wf_same _ (by omega)
  have hboot : ∀ hi lo, (s.wf (pwrPg + 0x118) 30 30 1).rf bootStat hi lo = s.rf bootStat hi lo :=
    State.rf_of_rd (State.rd_wf_other _ _ _ _ (by decide))
  have hready : (s.wf (pwrPg + 0x118) 30 30 1).ready = s.ready := by
    rw [State.ready, State.ready]
    exact congrArg (fun n => decide (n = 1)) (hboot 31 31)
  have haon : (s.wf (pwrPg + 0x118) 30 30 1).aon = s.aon := State.wf_aon ..
  have hmem : (s.wf (pwrPg + 0x118) 30 30 1).mem = s.mem := State.wf_mem ..
  have hrst : (s.wf (pwrPg + 0x118) 30 30 1).rst = s.rst := State.wf_rst ..
  generalize s.wf (pwrPg + 0x118) 30 30 1 = u at hx hpin hboot hready haon hmem hrst
  rw [State.perstHeld, hready, haon, hboot, hboot] at hx
  refine ⟨fun hr hw => ?_, fun hr hbt hw h8 => ?_, fun hr hc ht hj hhang => ?_⟩
  · rw [hr, if_neg Bool.false_ne_true, if_neg] at hx
    · exact ⟨_, hx, hpin, haon, hmem⟩
    · rintro ⟨h1, h2, h3⟩
      rcases hw with h | h | h
      · rw [h] at h1
        cases h1
      · rw [Option.isNone_iff_eq_none.1 h2] at h
        cases h
      · exact h h3
  · rw [hr, if_neg Bool.false_ne_true, if_pos ⟨hbt, by rw [hw]; rfl, h8⟩] at hx
    refine ⟨_, hx, ?_, ?_, ?_⟩
    · rw [State.rf_of_rd (State.rd_modAon ..), hpin]
    · rw [State.modAon_mem, hmem]
    · rw [State.modAon_aon, haon]
  · rw [hr, if_pos rfl] at hx
    exact ⟨_, hx, State.warmOrCold_hang3 (by rw [haon, hc]) (by rw [haon, ht]) (by rw [hrst]; exact hj) hhang⟩

theorem State.quexonTrain_aon (s : State) (env : BootEnv) : (s.quexonTrain env).aon = s.aon := State.aon_of_bones (s.quexonTrain_bones env)

/-- The release of PERST_N lets a bring-up that waits for it go on (R332). -/
theorem perstRelease_goesOn {q : List (QPort × QTrainResult)} {warm : Bool} {env : BootEnv} {s : State} (h30 : s.rf (pwrPg + 0x118) 30 30 = 1)
    (hw : s.aon.waitPerst = some (warm, env)) (h0 : env.hang = 0) : ∃ t, exec (.perstRelease q) s = .next t ∧ t.goneOn q := by
  obtain ⟨u, hu, hx⟩ : ∃ u : State, u.aon.waitPerst = none ∧ exec (.perstRelease q) s
      = .next (((u.quexonTrain { env with quexon := q }).stepDone { env with quexon := q } 8).runSteps warm { env with quexon := q }
        (if warm then [10] else [9, 10])) := by
    refine ⟨((s.wf (pwrPg + 0x118) 30 30 0).wf (pwrPg + 0x118) 26 26 0).modAon (fun a => { a with waitPerst := none }), rfl, ?_⟩
    change execPerstRelease q s = _
    rw [execPerstRelease, if_neg (by omega)]
    simp only [State.wf_aon, hw]
    rw [if_neg (by rw [h0]; decide)]
  have hwait : ((u.quexonTrain { env with quexon := q }).stepDone { env with quexon := q } 8).aon.waitPerst = none := by
    rw [State.stepDone_aon, State.quexonTrain_aon]
    exact hu
  refine ⟨_, hx, ?_⟩
  cases warm with
  | true => exact State.lastStep_goneOn (env := { env with quexon := q }) h0 hwait true
  | false => exact State.qualifyStep_goneOn (env := { env with quexon := q }) h0 hwait

/-- Settles O54: each pin, supply and timer by its own branch; a bring-up that goes on comes to READY or to a port that is not trained. -/
theorem bringUpAndPins : Obligations.BringUpAndPins := by
  unfold Obligations.BringUpAndPins
  refine ⟨fun env s henv => ?_, fun s h => ⟨pwrEnDeassert_off h, mainPowerFault_off h⟩,
    fun env s henv hb hw h2 hc => bringupStepTimeout_rules henv hb hw h2 hc, fun env s henv hc ht hr hp hhang => warm_runs henv hc ht hr hp hhang,
    fun env n s henv h30 hp he ha hb => perstAssert_rules n henv h30 hp he ha hb, fun q warm env s h30 hw h0 => perstRelease_goesOn h30 hw h0,
    fun env s => ?_, fun s h30 h26 he => ?_⟩
  · obtain ⟨h1, h2, h3⟩ := pwrEnAssert_rules (s := s) henv
    obtain ⟨h4, h5⟩ := mainPowerApplied_rules (s := s) henv
    exact ⟨h1, h2, h3, h4, h5⟩
  · have hx : (s.coldStep env 8).2 = (s.modAon (fun a => { a with cable := true })).trainPorts env := id rfl
    rw [hx, State.aon_of_bones (State.trainPorts_bones ..), State.modAon_aon]
  · refine ⟨(s.wf (pwrPg + 0x118) 26 26 1).bump (pwrPg + 0x120) 31 16 1, ?_, ?_, ?_, ?_⟩
    · refine if_neg ?_
      rw [h30, h26, he]
      decide
    · rw [State.rf_of_rd (State.rd_bump_other _ (by decide)), State.rf_wf_same _ (by omega)]
      rfl
    · rw [State.rf_bump_same _ (by omega), State.rf_of_rd (State.rd_wf_other _ _ _ _ (by decide))]
      rfl
    · rw [State.bump_aon, State.wf_aon]

end Sys2Proof.Machine

/-! Heals (R155, R316 to R326). -/

namespace Sys2Proof.Machine

/-! ### The registers a heal leaves (R319, R320) -/

theorem State.heals_of_bones {s t : State} (h : t.bones = s.bones) : t.heals = s.heals := congrArg (·.2.2.2.2.2.2.2) h

/-- The FENCE register of a core is none of those that errors of cores write. -/
theorem corePg_ctl_apart (g gp : Nat) {o : Nat} (ho : o ≠ 0x10) (hlt : o < 0x2000) : corePg g + 0x10 ≠ corePg gp + o := by
  simp only [corePg, regionAddr]
  omega

theorem State.rd_coreErr_ctl (g gp : Nat) (s : State) (sev cls cyc : Nat) (synd : BitVec 64) :
    (s.coreErr gp sev cls cyc synd).rd (corePg g + 0x10) = s.rd (corePg g + 0x10) := by
  have hw : ∀ (u : State) {o : Nat} (v : Word), o ≠ 0x10 → o < 0x2000 → (u.wr (corePg gp + o) v).rd (corePg g + 0x10) = u.rd (corePg g + 0x10) :=
    fun u o v h h' => State.rd_wr_other _ _ (corePg_ctl_apart g gp h h')
  have hf : ∀ (u : State) {o hi lo v : Nat}, o ≠ 0x10 → o < 0x2000 → (u.wf (corePg gp + o) hi lo v).rd (corePg g + 0x10) = u.rd (corePg g + 0x10) :=
    fun u o hi lo v h h' => State.rd_wf_other _ _ _ _ (corePg_ctl_apart g gp h h')
  have hup : ∀ (u : State) (ue : Bool), (u.errUp (corePg gp) ue).rd (corePg g + 0x10) = u.rd (corePg g + 0x10) := fun u ue => by
    have hb : (u.bump (corePg gp + if ue = true then 0x24 else 0x20) 31 0 1).rd (corePg g + 0x10) = u.rd (corePg g + 0x10) :=
      State.rd_bump_other _ (corePg_ctl_apart g gp (by split <;> decide) (by split <;> decide))
    simp only [State.errUp, State.rd_ite, hf _ (o := 0x18) (by decide) (by decide), hb, ite_self]
  have hcap : ∀ (u : State) b, (u.writeCapture (corePg gp) b sev cls cyc synd).rd (corePg g + 0x10) = u.rd (corePg g + 0x10) := fun u b => by
    simp only [State.writeCapture, State.rd_withCap, State.wr64, Nat.add_assoc, hw _ (o := 0x28) _ (by decide) (by decide),
      hw _ (o := 0x30) _ (by decide) (by decide), hw _ (o := 0x34) _ (by decide) (by decide), hw _ (o := 0x38) _ (by decide) (by decide),
      hw _ (o := 0x38 + 4) _ (by decide) (by decide)]
  rw [State.coreErr, State.rd_emitCore, State.countErr]
  simp only [State.rd_ite, hup, hf _ (o := 0x18) (by decide) (by decide), ite_self]
  fun_cases State.capture s (corePg gp) sev sev cls cyc synd <;> simp only [hcap]

/-- A register that a heal changes in steps of its own only: FENCE, and the maps of a block. -/
structure offHeal (a : Nat) : Prop where
  cores : offCores a
  clears : ∀ gp, clearKeeps gp zeroesReg a
  flowGen : ∀ gl, a ≠ logPg gl + 0x708
  low : a < 2 ^ 32

theorem zeroesReg_headers {o : Nat} (h : o < 0x100) : zeroesReg o = false := by
  rw [zeroesReg]
  split
  · rfl
  · rw [Nat.mod_eq_of_lt (by omega), decide_eq_false (by omega), Bool.false_and]

theorem fence_offHeal {g : Nat} (hg : g < 5120) : offHeal (corePg g + 0x10) where
  cores := by
    refine ⟨fun s gp sev cls cyc synd => s.rd_coreErr_ctl g gp sev cls cyc synd, fun gp o h h' => corePg_ctl_apart g gp (by omega) h', fun i => ?_⟩
    simp only [corePg, bklAddr, bankPg, regionAddr]
    omega
  clears gp o ho ha := by
    by_cases h : o = 0x10
    · exact zeroesReg_headers (by omega)
    · exact absurd ha (corePg_ctl_apart g gp h ho)
  flowGen gl := by
    simp only [corePg, logPg, regionAddr]
    omega
  low := by
    simp only [corePg, regionAddr]
    omega

/-- The maps of a block: which core bears which number, and the state of each (R16). -/
theorem map_offHeal {b : Nat} (hb : b < 512) {o : Nat} (ho : o < 0x200) : offHeal (xbarPg b + o) where
  cores := by
    refine offCompute.cores ⟨fun gp o' ho' => ?_, fun i => ?_, fun n o' ho' => ?_⟩
    · simp only [xbarPg, corePg, regionAddr]
      omega
    · simp only [xbarPg, bklAddr, bankPg, regionAddr]
      omega
    · simp only [xbarPg, slicePg, regionAddr]
      omega
  clears gp o' ho' ha := by
    simp only [xbarPg, corePg, regionAddr] at ha
    omega
  flowGen gl := by
    simp only [xbarPg, logPg, regionAddr]
    omega
  low := by
    simp only [xbarPg, regionAddr]
    omega

/-- A state that a step of a heal leaves with FENCE, the maps, the cores to be healed and memory as they were. -/
structure State.healKeeps (s t : State) : Prop where
  rd : ∀ a, offHeal a → t.rd a = s.rd a
  heals : t.heals = s.heals
  mem : t.mem = s.mem

theorem State.healKeeps.trans {s t u : State} (h : s.healKeeps t) (h' : t.healKeeps u) : s.healKeeps u :=
  ⟨fun a ha => (h'.rd a ha).trans (h.rd a ha), h'.heals.trans h.heals, h'.mem.trans h.mem⟩

theorem State.healKeeps.refl (s : State) : s.healKeeps s := ⟨fun _ _ => rfl, rfl, rfl⟩

theorem State.healKeeps_of_bones {s t : State} (hrd : ∀ a, offHeal a → t.rd a = s.rd a) (hb : t.bones = s.bones) (hk : t.kept = s.kept) :
    s.healKeeps t :=
  ⟨hrd, State.heals_of_bones hb, State.mem_of_kept hk⟩

theorem State.healKeeps_of_rest {s t : State} (hrd : ∀ a, offHeal a → t.rd a = s.rd a) (hr : t.rest = s.rest) : s.healKeeps t :=
  ⟨hrd, State.heals_of_rest hr, State.mem_of_rest hr⟩

theorem State.wf_healKeeps (s : State) {b : Nat} (hb : ∀ a, offHeal a → a ≠ b) (hi lo v : Nat) : s.healKeeps (s.wf b hi lo v) :=
  State.healKeeps_of_rest (fun a ha => State.rd_wf_other _ _ _ _ (hb a ha)) (State.wf_rest ..)

section
variable (s : State)

theorem offHeal.module {a : Nat} (h : offHeal a) {u p o : Nat} : a ≠ modPg u p + o := by
  have := h.low
  rw [modPg, modAddr]
  omega

theorem State.coreChip_healKeeps (gp sev cls t : Nat) (synd : BitVec 64) : s.healKeeps (s.coreChip gp sev cls t synd) :=
  State.healKeeps_of_rest (fun _ _ => State.rd_coreChip ..) (State.coreChip_rest ..)

theorem State.requestDrain_healKeeps (cause region block src cyc : Nat) : s.healKeeps (s.requestDrain cause region block src cyc) :=
  State.healKeeps_of_rest (fun _ ha => State.rd_requestDrain_other ha.module ..) (State.requestDrain_rest ..)

theorem State.dropTraffic_healKeeps (gp : Nat) : s.healKeeps (s.dropTraffic gp) :=
  State.healKeeps_of_bones (fun _ ha => s.rd_dropTraffic ha.flowGen gp) (s.dropTraffic_bones gp) (s.dropTraffic_kept gp)

theorem State.healZero_healKeeps (gp : Nat) : s.healKeeps (s.healZero gp) :=
  State.healKeeps_of_bones (fun _ ha => (State.rd_zeroCoreDone _ ha.cores gp).trans (s.rd_zeroCore ha.cores (ha.clears gp)))
    ((State.zeroCoreDone_bones ..).trans (s.zeroCore_bones gp zeroesReg)) (s.healZero_kept gp)

theorem State.freshKeys_healKeeps (gp : Nat) : s.healKeeps (s.freshKeys gp) :=
  State.healKeeps_of_bones (fun _ ha => s.rd_freshKeys ha.cores gp) (s.freshKeys_bones gp) (s.freshKeys_kept gp)

theorem State.seedKeys_healKeeps (gp : Nat) : s.healKeeps (s.seedKeys gp) :=
  State.healKeeps_of_bones (fun _ _ => State.rd_setKeys ..) (s.seedKeys_bones gp) (s.seedKeys_kept gp)

end

/-! ### The steps of a heal (R319, R320, R323 to R326) -/

/-- The assay of a core ends without restore (R324). -/
def State.assayCut (s : State) (gp : Nat) : State := s.modAsy gp (fun x => { x with running := none, fl := 0, saved := [], slot := none })

/-- A state whose targeted assay is another. -/
def State.withAsyTgt (s : State) (t : Option AsyTgt) : State := { s with asyTgt := t }

theorem State.withAsyTgt_healKeeps (s : State) (t : Option AsyTgt) : s.healKeeps (s.withAsyTgt t) := ⟨fun _ _ => rfl, rfl, rfl⟩

theorem State.setTurn_healKeeps (s : State) (r : Nat) (o : Option Nat) : s.healKeeps (s.setTurn r o) := ⟨fun _ _ => rfl, rfl, rfl⟩

theorem State.rd_flashFence (s : State) (gp a : Nat) : (s.flashFence gp).rd a = s.rd a := rfl

/-- A targeted assay of a core under heal ends as refused (log entry 65). -/
def State.targetCut (s : State) (gp : Nat) : State :=
  match s.asyTgt with
  | some t => if t.gp = gp then ((s.withAsyTgt none).wf (asyPg + 0x10C) 31 31 0).wf (asyPg + 0x10C) 30 28 3 else s
  | none => s

/-- What a fence does after FENCE is set (R273, R319, R323, R324). -/
def State.fenceStop (s : State) (gp : Nat) : State :=
  let s := (((s.wr (corePg gp + 0x1304) 0).flashFence gp).dropWaiter gp).assayCut gp |>.targetCut gp
  if s.turn (gp / 80) = some gp then s.setTurn (gp / 80) none else s

theorem State.fenceCore_eq (s : State) (gp : Nat) : s.fenceCore gp = (s.setFence gp true).fenceStop gp := id rfl

section
variable (s : State) (gp : Nat)

theorem State.flashFence_bones : (s.flashFence gp).bones = s.bones := by
  simp only [State.flashFence, State.bones_mk, State.bones_eta]

theorem State.assayCut_healKeeps : s.healKeeps (s.assayCut gp) :=
  State.healKeeps_of_bones (fun _ _ => State.rd_modAsy ..) (State.modAsy_bones ..) (State.modAsy_kept ..)

theorem State.targetCut_healKeeps : s.healKeeps (s.targetCut gp) := by
  rw [State.targetCut]
  split
  next t _ =>
    split
    · exact ((s.withAsyTgt_healKeeps none).trans (State.wf_healKeeps _ (fun _ ha => ha.module) ..)).trans (State.wf_healKeeps _ (fun _ ha =>
        ha.module) ..)
    · exact State.healKeeps.refl s
  · exact State.healKeeps.refl s

theorem State.fenceStop_healKeeps : s.healKeeps (s.fenceStop gp) := by
  have h1 : s.healKeeps ((s.wr (corePg gp + 0x1304) 0).flashFence gp) :=
    State.healKeeps_of_bones (fun _ ha => (State.rd_flashFence ..).trans
      (State.rd_wr_other _ _ (ha.cores.core gp 0x1304 (by decide) (by decide))))
      ((State.flashFence_bones ..).trans (State.wr_bones ..)) ((State.flashFence_kept ..).trans (State.wr_kept ..))
  have h2 : ∀ u : State, u.healKeeps (u.dropWaiter gp) := fun u =>
    State.healKeeps_of_bones (fun _ ha => u.rd_dropWaiter ha.cores gp) (u.dropWaiter_bones gp) (u.dropWaiter_kept gp)
  have h3 : ∀ u : State, u.healKeeps (if u.turn (gp / 80) = some gp then u.setTurn (gp / 80) none else u) := fun u => by
    split
    · exact u.setTurn_healKeeps ..
    · exact State.healKeeps.refl u
  exact (((h1.trans (h2 _)).trans (State.assayCut_healKeeps _ gp)).trans (State.targetCut_healKeeps _ gp)).trans (h3 _)

theorem State.setFence_bit : (s.setFence gp true).rf (corePg gp + 0x10) 1 1 = 1 := by
  rw [State.setFence]
  split
  · exact State.rf_wf_same s (by omega)
  · exact State.rf_wf_same s (by omega)

/-- A shadow copied from one core to another (R320). -/
def State.copyShadow (s : State) (p q : Nat) (r : Nat × Word) : State := { s with shadow := Tbl.put s.shadow (r.1 - corePg p + corePg q) r.2 }

theorem State.rd_copyShadow (s : State) (p q : Nat) (r : Nat × Word) (a : Nat) : (s.copyShadow p q r).rd a = s.rd a := rfl

theorem State.rd_copyRegs {a : Nat} (h : ∀ o, 0x100 ≤ o → o < 0x2000 → a ≠ corePg gp + o) (p : Nat) : (s.copyRegs p gp).rd a = s.rd a := by
  rw [State.copyRegs]
  refine (State.rd_foldl (f := fun t r => t.copyShadow p gp r) (fun t r => t.rd_copyShadow p gp r a) _ _).trans
    (State.rd_foldl_mem (fun t r hr => State.rd_wr_other _ _ ?_) _)
  have hm := (List.mem_filter.1 hr).2
  simp only [Bool.and_eq_true, decide_eq_true_eq] at hm
  obtain ⟨⟨hlo, hhi⟩, hc⟩ := hm
  have hoff : 0x100 ≤ r.1 - corePg p := by
    rw [healCopies] at hc
    split at hc
    · cases hc
    · rw [Bool.and_eq_true, decide_eq_true_eq] at hc
      exact hc.1
  rw [Nat.add_comm]
  exact h _ hoff (by omega)

end

/-! ### The promotion of a spare (R319, R320) -/

section
variable (s : State)

theorem State.copyRegs_bones (p q : Nat) : (s.copyRegs p q).bones = s.bones := by
  rw [State.copyRegs]
  exact (State.foldl_bones (f := fun t r => t.copyShadow p q r) (fun t _ => id rfl) _ _).trans (State.foldl_bones (fun t _ => t.wr_bones ..) _ _)

/-- A state in which these configuration reads got no answer. -/
def State.withCfgLost (s : State) (l : List Nat) : State := { s with cfgLost := l }

theorem State.withCfgLost_healKeeps (l : List Nat) : s.healKeeps (s.withCfgLost l) := ⟨fun _ _ => rfl, rfl, rfl⟩

theorem State.clearCoreRegs_healKeeps (q : Nat) : s.healKeeps (s.clearCoreRegs q zeroesReg) :=
  State.healKeeps_of_bones (fun _ ha => s.rd_clearCoreRegs (ha.clears q)) (s.clearCoreRegs_bones ..) (s.clearCoreRegs_kept ..)

theorem State.modCore_healKeeps (q : Nat) (f : Core → Core) : s.healKeeps (s.modCore q f) :=
  State.healKeeps_of_bones (fun _ _ => State.rd_modCore ..) (s.modCore_bones ..) (s.modCore_kept ..)

theorem State.copyRegs_healKeeps (p q : Nat) : s.healKeeps (s.copyRegs p q) :=
  State.healKeeps_of_bones (fun _ ha => s.rd_copyRegs q (ha.cores.core q) p) (s.copyRegs_bones ..) (s.copyRegs_kept ..)

/-- The copy of a heal keeps FENCE and the maps (R320). -/
theorem State.healCopy_healKeeps (p q : Nat) : s.healKeeps (s.healCopy p q) := by
  have hcore : ∀ (u : State) {o : Nat} (hi lo v : Nat), 0x100 ≤ o → o < 0x2000 → u.healKeeps (u.wf (corePg q + o) hi lo v) :=
    fun u o hi lo v h h' => State.wf_healKeeps u (fun _ ha => ha.cores.core q o h h') ..
  have hmod : ∀ (u : State) (hi lo v : Nat), u.healKeeps (u.wf (asyPg + 0x110) hi lo v) :=
    fun u hi lo v => State.wf_healKeeps u (fun _ ha => ha.module) ..
  have hlost : ∀ (c : Prop) [Decidable c] (u : State), u.healKeeps (if c then u else u.copyRegs p q) := fun c _ u => by
    split
    · exact State.healKeeps.refl u
    · exact u.copyRegs_healKeeps p q
  unfold State.healCopy
  extract_lets cp lost s1 s2 s3 s4 b bad0 bad1 s5 s6 s7
  have h1 : s.healKeeps s1 := s.clearCoreRegs_healKeeps q
  have h2 : s.healKeeps s2 := h1.trans (State.modCore_healKeeps ..)
  have h3 : s.healKeeps s3 := h2.trans (State.withCfgLost_healKeeps ..)
  have h4 : s.healKeeps s4 := h3.trans (hlost ..)
  have h5 : s.healKeeps s5 := h4.trans (hcore _ _ _ _ (by decide) (by decide))
  have h6 : s.healKeeps s6 := h5.trans (hcore _ _ _ _ (by decide) (by decide))
  have h7 : s.healKeeps s7 := h6.trans (hmod ..)
  exact (h7.trans (hmod ..)).trans (hcore _ _ _ _ (by decide) (by decide))

end

/-! ### The maps of a block (R16) -/

theorem State.rd_setPhys_other (s : State) (gp st : Nat) {a : Nat} (h : a ≠ xbarPg (gp / 10) + 0x104) : (s.setPhys gp st).rd a = s.rd a :=
  State.rd_wf_other _ _ _ _ h

theorem State.rd_setLog_other (s : State) (gl p : Nat) {a : Nat} (h : a ≠ xbarPg (gl / 8) + 0x100) : (s.setLog gl p).rd a = s.rd a :=
  State.rd_wf_other _ _ _ _ h

theorem State.setPhys_same (s : State) (gp : Nat) {st : Nat} (h : st < 4) : (s.setPhys gp st).physState gp = st := by
  have hw : 2 * (gp % 10) + 1 + 1 - 2 * (gp % 10) = 2 := by omega
  rw [State.setPhys, State.physState, State.rf_wf_same _ (by omega), hw]
  exact Nat.mod_eq_of_lt h

theorem State.setPhys_other (s : State) {p q : Nat} (st : Nat) (hb : q / 10 = p / 10) (h : q ≠ p) : (s.setPhys q st).physState p = s.physState p := by
  rw [State.setPhys, State.physState, hb, State.rf_wf_field _ (by omega) (by omega)]
  rfl

theorem State.physState_of_rd {s t : State} {gp : Nat} (h : t.rd (xbarPg (gp / 10) + 0x104) = s.rd (xbarPg (gp / 10) + 0x104)) :
    t.physState gp = s.physState gp := State.rf_of_rd h _ _

theorem State.setLog_physOf (s : State) {gl q : Nat} (hb : q / 10 = gl / 8) : (s.setLog gl (q % 10)).physOf gl = some q := by
  have hw : 4 * (gl % 8) + 3 + 1 - 4 * (gl % 8) = 4 := by omega
  have hn : (s.setLog gl (q % 10)).rf (xbarPg (gl / 8) + 0x100) (4 * (gl % 8) + 3) (4 * (gl % 8)) = q % 10 := by
    rw [State.setLog, State.rf_wf_same _ (by omega), hw]
    exact Nat.mod_eq_of_lt (by omega)
  simp only [State.physOf, hn]
  rw [if_neg (by omega)]
  exact congrArg some (by omega)

theorem State.physOf_of_rd {s t : State} {gl : Nat} (h : t.rd (xbarPg (gl / 8) + 0x100) = s.rd (xbarPg (gl / 8) + 0x100)) :
    t.physOf gl = s.physOf gl := by
  simp only [State.physOf, State.rf_of_rd h]

/-! ### The outcomes of a heal (R316 to R326) -/

/-- A core that is fenced and no longer to be healed, memory as it was (R319). -/
structure State.isFenced (t : State) (gp : Nat) (heals : List (Nat × Nat × Bool)) (mem : List Host.Cell) : Prop where
  fence : t.rf (corePg gp + 0x10) 1 1 = 1
  heals : t.heals = heals
  mem : t.mem = mem

section
variable {gp : Nat} {l : List (Nat × Nat × Bool)} {m : List Host.Cell}

theorem State.isFenced.keeps {s t : State} (h : s.isFenced gp l m) (hg : gp < 5120) (k : s.healKeeps t) : t.isFenced gp l m :=
  ⟨(State.rf_of_rd (k.rd _ (fence_offHeal hg)) _ _).trans h.fence, k.heals.trans h.heals, k.mem.trans h.mem⟩

theorem State.isFenced.wf {s : State} (h : s.isFenced gp l m) {a : Nat} (ha : corePg gp + 0x10 ≠ a) (hi lo v : Nat) :
    (s.wf a hi lo v).isFenced gp l m :=
  ⟨(State.rf_of_rd (State.rd_wf_other _ _ _ _ ha) _ _).trans h.fence, (State.wf_heals ..).trans h.heals, (State.wf_mem ..).trans h.mem⟩

theorem fence_ne_map (gp b : Nat) {o : Nat} (h : o < 0x1000) : corePg gp + 0x10 ≠ xbarPg b + o := by
  simp only [corePg, xbarPg, regionAddr]
  omega

theorem State.isFenced.setPhys {s : State} (h : s.isFenced gp l m) (q st : Nat) : (s.setPhys q st).isFenced gp l m :=
  h.wf (fence_ne_map gp _ (by decide)) ..

theorem State.isFenced.setLog {s : State} (h : s.isFenced gp l m) (gl p : Nat) : (s.setLog gl p).isFenced gp l m :=
  h.wf (fence_ne_map gp _ (by decide)) ..

end

/-- What follows the maps of a promotion: the keys of the spare, the count and the record (R320). -/
def State.promoteEnd (s : State) (p q gl t : Nat) : State :=
  let s := if s.rf (corePg q + 0x294) 0 0 = 1 then s.seedKeys q else s.freshKeys q
  let s := s.bump (asyPg + 0x114) 31 16 1
  let h := s.rd (asyPg + 0x110)
  s.coreChip q 0 0x33 t (BitVec.ofNat 64 (p % 10 + q % 10 * 2 ^ 4 + gl % 8 * 2 ^ 8 + fld h 29 29 * 2 ^ 11 + fld h 28 28 * 2 ^ 12 + gl * 2 ^ 16))

theorem State.promote_eq (s : State) (p q gl t : Nat) : s.promote p q gl t
    = ((((((s.healCopy p q).dropTraffic p).healZero p).setLog gl (q % 10)).setPhys p 2).setPhys q 0).promoteEnd p q gl t := id rfl

theorem State.promoteEnd_healKeeps (s : State) (p q gl t : Nat) : s.healKeeps (s.promoteEnd p q gl t) := by
  have hkeys : s.healKeeps (if s.rf (corePg q + 0x294) 0 0 = 1 then s.seedKeys q else s.freshKeys q) := by
    split
    · exact s.seedKeys_healKeeps q
    · exact s.freshKeys_healKeeps q
  exact (hkeys.trans (State.wf_healKeeps _ (fun _ ha => ha.module) ..)).trans (State.coreChip_healKeeps ..)

/-- A spare that is promoted carries the number of the core under heal, which is FENCED (R319, R320). -/
theorem State.promote_shows {s : State} {p q gl : Nat} {l : List (Nat × Nat × Bool)} {m : List Host.Cell} (t : Nat) (hp : p < 5120)
    (hs : s.isFenced p l m) (hb : q / 10 = p / 10) (hq : q ≠ p) (hgl : gl / 8 = p / 10) : (s.promote p q gl t).isFenced p l m
      ∧ (s.promote p q gl t).physState p = 2 ∧ (s.promote p q gl t).physOf gl = some q ∧ (s.promote p q gl t).physState q = 0 := by
  have hcopy : s.healKeeps (((s.healCopy p q).dropTraffic p).healZero p) :=
    ((s.healCopy_healKeeps p q).trans (State.dropTraffic_healKeeps ..)).trans (State.healZero_healKeeps ..)
  rw [State.promote_eq]
  generalize ((s.healCopy p q).dropTraffic p).healZero p = u at hcopy
  have hend := State.promoteEnd_healKeeps (((u.setLog gl (q % 10)).setPhys p 2).setPhys q 0) p q gl t
  have hphys : ∀ g, g / 10 = p / 10 → ((((u.setLog gl (q % 10)).setPhys p 2).setPhys q 0).promoteEnd p q gl t).physState g
      = (((u.setLog gl (q % 10)).setPhys p 2).setPhys q 0).physState g := fun g hg =>
    State.physState_of_rd (hend.rd _ (map_offHeal (by omega) (by decide)))
  refine ⟨(((hs.keeps hp hcopy).setLog gl (q % 10)).setPhys p 2 |>.setPhys q 0).keeps hp hend, ?_, ?_, ?_⟩
  · rw [hphys p rfl, State.setPhys_other _ _ hb hq, State.setPhys_same _ _ (by decide)]
  · have hne : ∀ b, xbarPg (gl / 8) + 0x100 ≠ xbarPg b + 0x104 := fun b => by
      simp only [xbarPg, regionAddr]
      omega
    rw [State.physOf_of_rd (hend.rd _ (map_offHeal (by omega) (by decide))), State.physOf_of_rd (State.rd_setPhys_other _ _ _ (hne _)),
      State.physOf_of_rd (State.rd_setPhys_other _ _ _ (hne _)), State.setLog_physOf _ (by omega)]
  · rw [hphys q hb, State.setPhys_same _ _ (by decide)]

/-! ### Holes, drains and the decision (R316, R317, R325, R326) -/

theorem fld_top_of_both {w : Word} (h : fld w 31 30 = 3) : fld w 31 31 = 1 := by
  have htop := fld_top_two w
  have hlow := fld_lt w 30 30
  omega

section
variable (s : State)

/-- DRAIN is requested, whoever asked first (R326). -/
theorem State.requestDrain_requests (cause region block src cyc : Nat) :
    (s.requestDrain cause region block src cyc).rf (modPg 9 0 + 0x110) 31 31 = 1 := by
  unfold State.requestDrain
  extract_lets t a fl u
  split
  · assumption
  next hnot =>
    have hbits : ((t.wf a 31 30 3).wf a 27 24 cause).rf a 31 30 = 3 := by
      rw [State.rf_wf_field _ (by omega) (by omega), State.rf_wf_same _ (by omega)]
      rfl
    rw [State.rf_of_rd (State.rd_chipRec ..)]
    exact (State.rf_of_rd (State.rd_withFlash ..) _ _).trans (fld_top_of_both hbits)

/-- A state that says its module should be replaced soon (R325). -/
def State.replaceSoon (s : State) : State := s.modFlash (fun f => { f with replaceSoon := true })

theorem State.makeHole_eq (gl t : Nat) : s.makeHole gl t = if (s.setLog gl 0xF).replaceSoon.holesOver
    then (s.setLog gl 0xF).replaceSoon.requestDrain 5 (gl / 64) (gl / 8 % 8) (xbarPg (gl / 8)) (tclkCycle t) else (s.setLog gl 0xF).replaceSoon := id
        rfl

theorem State.replaceSoon_healKeeps : s.healKeeps s.replaceSoon := ⟨fun _ _ => rfl, rfl, rfl⟩

theorem State.rd_replaceSoon (a : Nat) : s.replaceSoon.rd a = s.rd a := rfl

theorem State.makeHole_healKeeps (gl t : Nat) : (s.setLog gl 0xF).healKeeps (s.makeHole gl t) := by
  rw [State.makeHole_eq]
  have h := State.replaceSoon_healKeeps (s.setLog gl 0xF)
  split
  · exact h.trans (State.requestDrain_healKeeps ..)
  · exact h

theorem State.makeHole_drains (gl t : Nat) (h : s.rf (modPg 9 0 + 0x110) 31 31 = 1) :
    (s.makeHole gl t).rf (modPg 9 0 + 0x110) 31 31 = 1 := by
  rw [State.makeHole_eq]
  split
  · exact State.requestDrain_requests ..
  · have hne : modPg 9 0 + 0x110 ≠ xbarPg (gl / 8) + 0x100 := by
      simp only [xbarPg, regionAddr, modPg, modAddr]
      omega
    rw [State.rf_of_rd (State.rd_replaceSoon ..), State.rf_of_rd (State.rd_setLog_other _ _ _ hne), h]

end

/-- A core under heal that no spare takes over: zeroised, its state FENCED (R319). -/
def State.retired (s : State) (gp : Nat) : State := (s.healZero gp).setPhys gp 2

theorem State.retired_shows {s : State} {gp : Nat} {l : List (Nat × Nat × Bool)} {m : List Host.Cell} (hp : gp < 5120) (hs : s.isFenced gp l m) :
    (s.retired gp).isFenced gp l m ∧ (s.retired gp).physState gp = 2 :=
  ⟨(hs.keeps hp (s.healZero_healKeeps gp)).setPhys gp 2, State.setPhys_same _ _ (by decide)⟩

/-- A hole leaves a core FENCED (R325). -/
theorem State.makeHole_shows {s : State} {gp gl t : Nat} {l : List (Nat × Nat × Bool)} {m : List Host.Cell} (hp : gp < 5120) (hs : s.isFenced gp l m)
    (h2 : s.physState gp = 2) : (s.makeHole gl t).isFenced gp l m ∧ (s.makeHole gl t).physState gp = 2 := by
  have hk := s.makeHole_healKeeps gl t
  have hne : xbarPg (gp / 10) + 0x104 ≠ xbarPg (gl / 8) + 0x100 := by
    simp only [xbarPg, regionAddr]
    omega
  refine ⟨(hs.setLog gl 0xF).keeps hp hk, ?_⟩
  rw [State.physState_of_rd (hk.rd _ (map_offHeal (by omega) (by decide))), State.physState_of_rd (State.rd_setLog_other _ _ _ hne), h2]

/-- The failure of a checker recurs in its block, or finds no spare there (R316, R317). -/
def State.recurs (s : State) (gp : Nat) (checker : Bool) : Bool :=
  checker && ((s.sparesOf (gp / 10) gp).isEmpty || decide (2 ≤ Tbl.get 0 s.flash.checkers (gp / 10)))

/-- What the decision table answers (R316): 0 a spare, 1 none is left, 2 a drain, 3 a core that bears no number. -/
def State.healAction (s : State) (gp : Nat) (checker : Bool) : Nat :=
  if (s.logOf gp).isNone then 3 else if s.recurs gp checker then 2 else if (s.sparesOf (gp / 10) gp).isEmpty then 1 else 0

/-- What the decision table does with a core that has been fenced (R316 to R326). -/
def State.healed (u s : State) (gp n : Nat) (checker : Bool) : State :=
  match s.logOf gp with
  | some gl =>
    if s.recurs gp checker then
      (((u.dropTraffic gp).retired gp).requestDrain 6 (gl / 64) (gl / 8 % 8) (xbarPg (gl / 8)) (tclkCycle n)).makeHole gl n
    else match s.sparesOf (gp / 10) gp with
      | q :: _ => u.promote gp q gl n
      | [] => ((u.dropTraffic gp).retired gp).makeHole gl n
  | none =>
    if s.recurs gp checker then (u.retired gp).requestDrain 6 (gp / 80) (gp / 10 % 8) (xbarPg (gp / 10)) (tclkCycle n) else u.retired gp

/-- A state with these cores to be healed. -/
def State.withHeals (s : State) (l : List (Nat × Nat × Bool)) : State := { s with heals := l }

section
variable {gp n cause : Nat} {checker : Bool} {s : State} (hg : gp < 5120)
  (hf : s.heals.find? (fun h => decide (h.1 / 10 = gp / 10)) = some (gp, cause, checker)) (hr : ∀ j ∈ s.rst, gp ∉ j.cores) (h2 : s.physState gp ≠ 2)
include hg hf hr h2

/-- A heal fences its core and does what the decision table says (R316 to R324). -/
theorem exec_heal (hb : (s.sparesOf (gp / 10) gp).head?.any s.spareBusy = false) : ∃ synd, exec (.heal gp n) s
    = .next ((((s.withHeals (s.heals.erase (gp, cause, checker))).fenceCore gp).coreChip gp 2 0x32 n synd).healed s gp n checker) := by
  have hany : s.rst.any (fun j => j.cores.contains gp) = false :=
    List.any_eq_false.2 fun j hj h => hr j hj (List.contains_iff_mem.1 h)
  refine ⟨fencedSynd gp (s.logOf gp) cause ((s.sparesOf (gp / 10) gp).length - if s.healAction gp checker = 0 then 1 else 0) (s.healAction gp
      checker),
    (if_pos (decide_eq_true hg)).trans ?_⟩
  rw [hf]
  refine (if_neg ?_).trans ((if_neg h2).trans ((if_neg fun h => Bool.false_ne_true (hb.symm.trans h.2)).trans ?_))
  · rw [hany]
    simp
  obtain ⟨u, hu⟩ : ∃ u, u = ((s.withHeals (s.heals.erase (gp, cause, checker))).fenceCore gp).coreChip gp 2 0x32 n
      (fencedSynd gp (s.logOf gp) cause ((s.sparesOf (gp / 10) gp).length - if s.healAction gp checker = 0 then 1 else 0) (s.healAction gp checker))
          :=
    ⟨_, rfl⟩
  rw [← hu]
  refine Eq.trans (b := match s.logOf gp, s.healAction gp checker, s.sparesOf (gp / 10) gp with
    | some l, 0, q :: _ => .next (u.promote gp q l n)
    | some l, 2, _ => .next ((((u.dropTraffic gp).retired gp).requestDrain 6 (l / 64) (l / 8 % 8) (xbarPg (l / 8)) (tclkCycle n)).makeHole l n)
    | some l, _, _ => .next (((u.dropTraffic gp).retired gp).makeHole l n)
    | none, _, _ => .next (if s.recurs gp checker then (u.retired gp).requestDrain 6 (gp / 80) (gp / 10 % 8) (xbarPg (gp / 10)) (tclkCycle n)
        else u.retired gp)) ?_ ?_
  · rw [hu]
    rfl
  · rw [State.healed, State.healAction]
    cases hl : s.logOf gp with
    | none => simp
    | some l =>
      cases hrec : s.recurs gp checker with
      | true => simp
      | false => cases hs : s.sparesOf (gp / 10) gp with
        | nil => simp
        | cons q rest => simp

theorem exec_heal_waits {gl q : Nat} {rest : List Nat} (hl : s.logOf gp = some gl) (hc : checker = false) (hs : s.sparesOf (gp / 10) gp = q :: rest)
    (hb : s.spareBusy q = true) : exec (.heal gp n) s = .next s := by
  have hany : s.rst.any (fun j => j.cores.contains gp) = false :=
    List.any_eq_false.2 fun j hj h => hr j hj (List.contains_iff_mem.1 h)
  have haction : s.healAction gp checker = 0 := by
    rw [State.healAction, State.recurs, hl, hs, hc]
    rfl
  have hbusy : (s.sparesOf (gp / 10) gp).head?.any s.spareBusy = true := by
    rw [hs]
    exact hb
  refine (if_pos (decide_eq_true hg)).trans ?_
  rw [hf]
  refine (if_neg ?_).trans ((if_neg h2).trans (if_pos ⟨haction, hbusy⟩))
  rw [hany]
  simp

end

/-! ### What a heal leaves (R319, R320, R326) -/

theorem State.fence_isFenced (s : State) {gp : Nat} (hg : gp < 5120) : (s.fenceCore gp).isFenced gp s.heals s.mem := by
  have hset : (s.setFence gp true).isFenced gp s.heals s.mem :=
    ⟨s.setFence_bit gp, State.heals_of_bones (s.setFence_bones gp true), State.mem_of_kept (s.setFence_kept gp true)⟩
  rw [State.fenceCore_eq]
  exact hset.keeps hg (State.fenceStop_healKeeps ..)

/-- A core that bears a number is of that number's block (R16). -/
theorem State.logOf_block {s : State} {gp gl : Nat} (h : s.logOf gp = some gl) : gl / 8 = gp / 10 := by
  rw [State.logOf, Option.map_eq_some_iff] at h
  obtain ⟨k, hk, rfl⟩ := h
  have := List.mem_range.1 (List.mem_of_find?_eq_some hk)
  omega

/-- A spare of a core's block is another core of the block (R16). -/
theorem State.sparesOf_block {s : State} {gp q : Nat} (h : q ∈ s.sparesOf (gp / 10) gp) : q / 10 = gp / 10 ∧ q ≠ gp := by
  obtain ⟨hm, hq⟩ := List.mem_filter.1 h
  obtain ⟨i, hi, rfl⟩ := List.mem_map.1 hm
  rw [Bool.and_eq_true, decide_eq_true_eq] at hq
  have := List.mem_range.1 hi
  exact ⟨by omega, hq.1⟩

section
variable (s : State) {u : State} {gp : Nat} {l : List (Nat × Nat × Bool)} {m : List Host.Cell} (checker : Bool) (n : Nat) (hg : gp < 5120)
  (hu : u.isFenced gp l m)
include hg hu

/-- Whatever the decision table answers, the core is FENCED (R319). -/
theorem State.healed_fenced : (u.healed s gp n checker).isFenced gp l m ∧ (u.healed s gp n checker).physState gp = 2 := by
  obtain ⟨hd, hdp⟩ := State.retired_shows hg (hu.keeps hg (u.dropTraffic_healKeeps gp))
  obtain ⟨hz, hzp⟩ := State.retired_shows hg hu
  have hdrain : ∀ (v : State) (a b c d e : Nat), v.isFenced gp l m → v.physState gp = 2 →
      (v.requestDrain a b c d e).isFenced gp l m ∧ (v.requestDrain a b c d e).physState gp = 2 := fun v a b c d e hv hp =>
    have hk := v.requestDrain_healKeeps a b c d e
    ⟨hv.keeps hg hk, (State.physState_of_rd (hk.rd _ (map_offHeal (by omega) (by decide)))).trans hp⟩
  rw [State.healed]
  split
  next gl hl =>
    split
    · obtain ⟨h1, h2⟩ := hdrain _ 6 (gl / 64) (gl / 8 % 8) (xbarPg (gl / 8)) (tclkCycle n) hd hdp
      exact State.makeHole_shows hg h1 h2
    · split
      next q rest hs =>
        obtain ⟨hb, hq⟩ := State.sparesOf_block (hs ▸ List.mem_cons_self : q ∈ s.sparesOf (gp / 10) gp)
        obtain ⟨h1, h2, -⟩ := State.promote_shows n hg hu hb hq (State.logOf_block hl)
        exact ⟨h1, h2⟩
      · exact State.makeHole_shows hg hd hdp
  · split
    · exact hdrain _ _ _ _ _ _ hz hzp
    · exact ⟨hz, hzp⟩

omit checker in
/-- With a spare in the block, the spare bears the number (R320). -/
theorem State.healed_promotes {checker : Bool} {gl q : Nat} {rest : List Nat} (hl : s.logOf gp = some gl) (hc : checker = false)
    (hs : s.sparesOf (gp / 10) gp = q :: rest) :
    (u.healed s gp n checker).physOf gl = some q ∧ (u.healed s gp n checker).physState q = 0 := by
  have hx : u.healed s gp n checker = u.promote gp q gl n := by
    have hrec : s.recurs gp checker = false := by rw [State.recurs, hc, Bool.false_and]
    simp only [State.healed, hl, hrec, hs, Bool.false_eq_true, if_false]
  obtain ⟨hb, hq⟩ := State.sparesOf_block (hs ▸ List.mem_cons_self : q ∈ s.sparesOf (gp / 10) gp)
  obtain ⟨-, -, h3, h4⟩ := State.promote_shows n hg hu hb hq (State.logOf_block hl)
  rw [hx]
  exact ⟨h3, h4⟩

end

/-- A checker failure that recurs, or finds no spare, requests a drain (R317, R326). -/
theorem State.healed_drains (s u : State) {gp : Nat} {checker : Bool} (n : Nat) (hc : checker = true)
    (h : s.sparesOf (gp / 10) gp = [] ∨ 2 ≤ Tbl.get 0 s.flash.checkers (gp / 10)) : (u.healed s gp n checker).rf (modPg 9 0 + 0x110) 31 31 = 1 := by
  have hrec : s.recurs gp checker = true := by
    rw [State.recurs, hc, Bool.true_and, Bool.or_eq_true]
    exact h.imp (fun h => by rw [h]; rfl) (fun h => decide_eq_true h)
  rw [State.healed, hrec]
  split
  next gl hl =>
    rw [if_pos rfl]
    exact State.makeHole_drains _ _ _ (State.requestDrain_requests ..)
  · rw [if_pos rfl]
    exact State.requestDrain_requests ..

/-- Settles O51: a heal fences its core, and each answer of the decision table does what it names. -/
theorem healFencesAndPromotes : Obligations.HealFencesAndPromotes := by
  unfold Obligations.HealFencesAndPromotes
  refine ⟨fun gp n cause checker s hg hf hr h2 => ⟨fun hb => ?_, fun gl q rest hl hc hs hb => exec_heal_waits hg hf hr h2 hl hc hs hb⟩,
    fun gp s hg => ⟨_, if_pos (decide_eq_true hg), ?_, rfl, rfl⟩⟩
  · obtain ⟨synd, hx⟩ := exec_heal (n := n) hg hf hr h2 hb
    have hu := ((s.withHeals (s.heals.erase (gp, cause, checker))).fence_isFenced hg).keeps hg
      (State.coreChip_healKeeps ((s.withHeals (s.heals.erase (gp, cause, checker))).fenceCore gp) gp 2 0x32 n synd)
    generalize ((s.withHeals (s.heals.erase (gp, cause, checker))).fenceCore gp).coreChip gp 2 0x32 n synd = u at hx hu
    obtain ⟨⟨hfence, hheals, hmem⟩, hphys⟩ := State.healed_fenced s checker n hg hu
    exact ⟨_, hx, hphys, hfence, hheals, hmem, fun gl q rest hl hc hs => State.healed_promotes s n hg hu hl hc hs,
      fun hc hrec => State.healed_drains s u n hc hrec⟩
  · change gp ∈ if s.cfgLost.contains gp then s.cfgLost else s.cfgLost ++ [gp]
    split
    next h => exact List.contains_iff_mem.1 h
    · exact List.mem_append_right _ List.mem_cons_self

end Sys2Proof.Machine

/-! Packets of the package network (R197 to R208, R238, R241, R245). -/

namespace Sys2Proof.Machine

/-! ### A packet leaves its core (R201, R208, R238) -/

section
variable {n err t0 gp : Nat} {p : NetPkt} {s : State} (hn : s.net[n]? = some p) (hratio : s.ratioOk = true) (hat : p.at_ = .core gp)
  (hshut : s.portShut gp = false)
include hn hratio hat hshut

theorem exec_packetHop_core : exec (.packetHop n err t0) s = if !typeKnown p.pkt then .next ((s.dropPkt n).rtDrop 0x12C)
    else .next (s.sourceHop n (gp / 10) p (s.gen.base + 16 * t0)) := by
  change execPacketHop n err t0 s = _
  rw [execPacketHop, hn]
  simp only [hratio, hat, hshut]
  rfl

/-- A packet of a reserved TYPE is discarded at its first hop and counted (R238). -/
theorem packetHop_reserved (hk : typeKnown p.pkt = false) : ∃ t, exec (.packetHop n err t0) s = .next t ∧ t.net = s.net.eraseIdx n
    ∧ t.rf (rtPg + 0x12C) 31 0 = min (s.rf (rtPg + 0x12C) 31 0 + 1) (2 ^ 32 - 1) ∧ t.cores = s.cores ∧ t.mem = s.mem := by
  have hx := exec_packetHop_core (err := err) (t0 := t0) hn hratio hat hshut
  rw [if_pos (by rw [hk]; rfl)] at hx
  refine ⟨_, hx, rfl, ?_, rfl, rfl⟩
  rw [State.rtDrop, State.rf_bump_same _ (by omega)]
  rfl

variable (hk : typeKnown p.pkt = true) (hgoal : (s.goal p).blk ≠ some (gp / 10))
include hk hgoal

theorem exec_packetHop_out : exec (.packetHop n err t0) s = .next (if !s.xbarLets (gp / 10) p then s
    else if s.bufFree (.router (gp / 10)) 4 (s.netVc (.router (gp / 10)) p)
      then (s.xbarDone (gp / 10) p).moveTo n p (.router (gp / 10)) 4 (s.netVc (.router (gp / 10)) p) (s.gen.base + 16 * t0) else s) := by
  rw [exec_packetHop_core hn hratio hat hshut, if_neg (by rw [hk]; decide), State.sourceHop]
  refine congrArg _ (ite_congr rfl (fun _ => rfl) fun _ => if_neg fun h => hgoal h.1)

/-- A packet that the crossbar does not grant, or for which no buffer is free, stays where it is (R201, R208). -/
theorem packetHop_waits (h : s.xbarLets (gp / 10) p = false ∨ s.bufFree (.router (gp / 10)) 4 (s.netVc (.router (gp / 10)) p) = false) :
    exec (.packetHop n err t0) s = .next s := by
  rw [exec_packetHop_out hn hratio hat hshut hk hgoal]
  rcases h with h | h
  · rw [if_pos (by rw [h]; rfl)]
  · have hno : ∀ u : State,
      (if s.bufFree (.router (gp / 10)) 4 (s.netVc (.router (gp / 10)) p) then u else s) = s := fun u => if_neg (by rw [h]; decide)
    rw [hno, ite_self]

end

/-- A grant of the crossbar moves a pointer and nothing else (R201). -/
theorem State.xbarDone_frame (s : State) (b : Nat) (p : NetPkt) : (s.xbarDone b p).net = s.net ∧ (s.xbarDone b p).regs = s.regs
    ∧ (s.xbarDone b p).mem = s.mem := by
  rw [State.xbarDone]
  split
  · exact ⟨rfl, rfl, rfl⟩
  · exact ⟨rfl, rfl, rfl⟩

theorem State.entered_router (s : State) (p : NetPkt) (b port vc now : Nat) : (s.entered p (.router b) port vc now).at_ = .router b
    ∧ (s.entered p (.router b) port vc now).vc = vc ∧ (s.entered p (.router b) port vc now).pkt = p.pkt
    ∧ (s.entered p (.router b) port vc now).ctx = p.ctx := by
  rw [State.entered]
  simp only
  split
  · exact ⟨rfl, rfl, rfl, rfl⟩
  · split
    · exact ⟨rfl, rfl, rfl, rfl⟩
    · exact ⟨rfl, rfl, rfl, rfl⟩

/-- A header that leaves a core counts nothing of a node (R209). -/
theorem State.moveTo_core (s : State) {p : NetPkt} {gp : Nat} (hat : p.at_ = .core gp) (n : Nat) (m : Node) (port vc now : Nat) :
    s.moveTo n p m port vc now = if s.nodeLive m then s.setPkt n (s.entered p m port vc now) else s.dropPkt n := by
  have hpage : p.at_.page = none := by rw [hat]; rfl
  have hcount : s.vcCount p now = s := by rw [State.vcCount, hpage]
  have hesc : s.noteEsc p vc = s := by rw [State.noteEsc, hpage, ite_self]
  rw [State.moveTo, hcount, hesc]

/-- A granted packet with a free buffer is in its block's router (R201, R208). -/
theorem packetHop_moves {n err t0 gp : Nat} {p : NetPkt} {s : State} (hn : s.net[n]? = some p) (hratio : s.ratioOk = true) (hat : p.at_ = .core gp)
    (hshut : s.portShut gp = false) (hk : typeKnown p.pkt = true) (hgoal : (s.goal p).blk ≠ some (gp / 10)) (hx : s.xbarLets (gp / 10) p = true)
    (hb : s.bufFree (.router (gp / 10)) 4 (s.netVc (.router (gp / 10)) p) = true) (hl : s.nodeLive (.router (gp / 10)) = true) :
    ∃ (t : State) (e : NetPkt), exec (.packetHop n err t0) s = .next t ∧ t.net = s.net.set n e ∧ e.at_ = .router (gp / 10)
      ∧ e.vc = s.netVc (.router (gp / 10)) p ∧ e.pkt = p.pkt ∧ e.ctx = p.ctx ∧ t.regs = s.regs ∧ t.mem = s.mem := by
  have hout := exec_packetHop_out (err := err) (t0 := t0) hn hratio hat hshut hk hgoal
  rw [if_neg (by rw [hx]; decide), if_pos hb, State.moveTo_core _ hat] at hout
  obtain ⟨hnet, hregs, hmem⟩ := s.xbarDone_frame (gp / 10) p
  generalize s.xbarDone (gp / 10) p = u at hout hnet hregs hmem
  have hlive : u.nodeLive (.router (gp / 10)) = true := by
    have hrd : u.rd (routerPg (gp / 10) + 0x100) = s.rd (routerPg (gp / 10) + 0x100) := by rw [State.rd, State.rd, hregs]
    rw [← hl]
    change decide _ = decide _
    rw [State.rf_of_rd hrd]
  obtain ⟨h1, h2, h3, h4⟩ := u.entered_router p (gp / 10) 4 (s.netVc (.router (gp / 10)) p) (s.gen.base + 16 * t0)
  rw [if_pos hlive] at hout
  have hset : ∀ e, (u.setPkt n e).net = s.net.set n e := fun e => by
    change u.net.set n e = _
    rw [hnet]
  exact ⟨_, _, hout, hset _, h1, h2, h3, h4, hregs, hmem⟩

/-- At an output of a router a packet of another channel waits for one of channel 0 (R208). -/
theorem packetHop_yields {n t0 b i vc o : Nat} {m : Node} {p q : NetPkt} {s : State} (hn : s.net[n]? = some p) (hratio : s.ratioOk = true)
    (hat : p.at_ = .router b) (hm : isMcast p.pkt = false) (he : s.escape p (s.hopOf p (s.goal p)) = some (p, .to_ m i vc, false))
    (ho : hopPort (.router b) (.to_ m i vc) = some o) (hq : q ∈ s.net) (hqat : q.at_ = .router b) (hqo : o ∈ s.netOuts q) (hq0 : q.vc = 0)
    (hp : p.vc ≠ 0) : exec (.packetHop n 0 t0) s = .next s := by
  have hlose : s.netWins p o = false := by
    have h0 : ((s.net.filter (fun q => decide (q.at_ = p.at_) && (s.netOuts q).contains o)).map (·.vc)).contains 0 = true :=
      List.contains_iff_mem.2 (List.mem_map.2 ⟨q, List.mem_filter.2 ⟨hq, by
        rw [decide_eq_true (hqat.trans hat.symm), List.contains_iff_mem.2 hqo]
        rfl⟩, hq0⟩)
    rw [State.netWins]
    simp only [h0, if_true]
    exact decide_eq_false hp
  have hgrant : s.granted p (.to_ m i vc) = false := by
    rw [State.granted, hat, ho]
    exact hlose
  have hhop : s.nodeHop n p (s.gen.base + 16 * t0) = s := by
    rw [State.nodeHop]
    simp only [hm, hat, he, Bool.false_eq_true, if_false]
    rw [State.doHop]
    exact if_neg (by rw [hgrant]; decide)
  change execPacketHop n 0 t0 s = _
  rw [execPacketHop, hn]
  simp only [hratio, hat, hhop]
  rfl

/-! ### A broadcast is granted once every destination accepts (R197, R198, R202) -/

/-- The packet as each core of the block receives it. -/
def NetPkt.copy (p : NetPkt) : NetPkt := { p with pkt := { p.pkt with land := none }, tree := [], own := false, ownCore := none, holding := false }

/-- What remains of a broadcast packet that its block has taken. -/
def NetPkt.taken (p : NetPkt) (blk : Nat) : NetPkt := { p with tree := p.tree.filter (· ≠ blk), holding := false, cores := [] }

/-- The rows that destinations of the block cannot receive count at the core that asked (R198). -/
def State.castLost (s : State) (blk : Nat) (p : NetPkt) : State := match p.reqCore with
  | some gp => s.bump (corePg gp + 0x704) 31 0 (((s.mcastLogical blk p).length - p.cores.length) * p.pkt.rows)
  | none => s

/-- The cores of the block receive their copies. -/
def State.copies (s : State) (blk : Nat) (p : NetPkt) (l : List Nat) : State := l.foldl (fun s gp => s.toCore blk gp p.copy) s

section
variable {blk held n : Nat} {p : NetPkt} {s : State} (hblk : blk < 512) (hratio : s.ratioOk = true) (hheld : s.held.contains blk = false)
  (hfind : s.net.findIdx? (fun q => q.casts blk) = some n) (hn : s.net[n]? = some p)
include hblk hratio hheld hfind hn

theorem exec_broadcastGrant : exec (.broadcastGrant blk held) s =
    if !s.netWins p 4 then .next s
    else if p.cores.any (fun gp => s.mcastBlocked gp p.pkt) then .next (s.setPkt n { p with holding := true })
    else .next ((((((s.netGrant p 4).leave n (p.taken blk)).castLost blk p).copies blk p p.cores).tick (xbarPg blk + 0x10E) held).tick
      (xbarPg blk + 0x10D) p.pkt.rows) := by
  refine (if_pos (decide_eq_true hblk)).trans ?_
  simp only [hratio, hfind, hn, hheld, Bool.false_eq_true, if_false, Bool.not_true]
  rfl

theorem broadcastGrant_waits (hw : s.netWins p 4 = false) : exec (.broadcastGrant blk held) s = .next s := by
  rw [exec_broadcastGrant hblk hratio hheld hfind hn, if_pos (by rw [hw]; rfl)]

/-- A broadcast that some destination cannot take stays and holds its router input (R202). -/
theorem broadcastGrant_holds (hw : s.netWins p 4 = true) (hb : p.cores.any (fun gp => s.mcastBlocked gp p.pkt) = true) :
    exec (.broadcastGrant blk held) s = .next (s.setPkt n { p with holding := true }) := by
  rw [exec_broadcastGrant hblk hratio hheld hfind hn, if_neg (by rw [hw]; decide), if_pos hb]

end

theorem State.copies_arrived (blk : Nat) (p : NetPkt) : ∀ (l : List Nat) (s : State), (∀ gp ∈ l, s.portShut gp = false) →
    (s.copies blk p l).arrived = s.arrived ++ l.map (fun gp => { p.copy with at_ := .core gp }) ∧ (s.copies blk p l).net = s.net
      ∧ (s.copies blk p l).mem = s.mem := by
  intro l
  induction l with
  | nil => exact fun s _ => ⟨(List.append_nil _).symm, rfl, rfl⟩
  | cons gp l ih =>
    intro s hopen
    have hhead : s.toCore blk gp p.copy = s.arrive { p.copy with at_ := .core gp } := if_neg (by rw [hopen gp (List.mem_cons_self ..)]; decide)
    have hcons : s.copies blk p (gp :: l) = (s.arrive { p.copy with at_ := .core gp }).copies blk p l := by rw [← hhead]; rfl
    obtain ⟨harr, hnet, hmem⟩ := ih (s.arrive { p.copy with at_ := .core gp }) fun g hg => hopen g (List.mem_cons_of_mem _ hg)
    rw [hcons]
    refine ⟨harr.trans ?_, hnet, hmem⟩
    rw [List.map_cons, List.append_cons]
    rfl

/-- A core's count of lost rows is no register of its port. -/
theorem corePg_lost_apart (g gp : Nat) : corePg g + 0x704 ≠ xbarPg (gp / 10) + 0x104 ∧ corePg g + 0x704 ≠ corePg gp + 0x10 := by
  simp only [xbarPg, corePg, regionAddr]
  omega

/-- Rows that are lost shut no port. -/
theorem State.castLost_frame (s : State) (blk : Nat) (p : NetPkt) : (s.castLost blk p).net = s.net ∧ (s.castLost blk p).arrived = s.arrived
    ∧ (s.castLost blk p).mem = s.mem ∧ ∀ gp, (s.castLost blk p).portShut gp = s.portShut gp := by
  rw [State.castLost]
  split
  · next g _ =>
    refine ⟨State.bump_net .., State.bump_arrived .., State.bump_mem .., fun gp => ?_⟩
    obtain ⟨hphys, hctl⟩ := corePg_lost_apart g gp
    generalize ((s.mcastLogical blk p).length - p.cores.length) * p.pkt.rows = m
    rw [State.portShut, State.portShut, State.physState, State.physState, State.rf_bump_other s hphys.symm,
      State.rf_bump_other s hctl.symm, State.core, State.core, State.bump_cores]
  · exact ⟨rfl, rfl, rfl, fun _ => rfl⟩

/-- What its block has taken leaves the router, or stays for other blocks. -/
theorem State.leave_taken (s : State) (n blk : Nat) (p : NetPkt) : (s.leave n (p.taken blk)).arrived = s.arrived
    ∧ (s.leave n (p.taken blk)).mem = s.mem ∧ (∀ gp, (s.leave n (p.taken blk)).portShut gp = s.portShut gp)
    ∧ ((s.leave n (p.taken blk)).net = s.net.eraseIdx n ∨ ∃ e : NetPkt, (s.leave n (p.taken blk)).net = s.net.set n e ∧ e.casts blk = false) := by
  rw [State.leave]
  split
  · exact ⟨rfl, rfl, fun _ => rfl, Or.inl rfl⟩
  · refine ⟨rfl, rfl, fun _ => rfl, Or.inr ⟨_, rfl, ?_⟩⟩
    have hgone : (p.taken blk).tree.contains blk = false := by
      rw [NetPkt.taken, Bool.eq_false_iff]
      intro hin
      exact of_decide_eq_true (List.mem_filter.1 (List.contains_iff_mem.1 hin)).2 rfl
    rw [NetPkt.casts, hgone, Bool.and_false]

/-- Once every destination accepts, the broadcast leaves the router and every destination has its copy (R197, R198). -/
theorem broadcastGrant_delivers {blk held n : Nat} {p : NetPkt} {s : State} (hblk : blk < 512) (hratio : s.ratioOk = true) (hheld : s.held.contains
    blk = false)
    (hfind : s.net.findIdx? (fun q => q.casts blk) = some n) (hn : s.net[n]? = some p) (hw : s.netWins p 4 = true)
    (hb : p.cores.any (fun gp => s.mcastBlocked gp p.pkt) = false) (hopen : ∀ gp ∈ p.cores, s.portShut gp = false) :
    ∃ (t : State) (l : List NetPkt), exec (.broadcastGrant blk held) s = .next t ∧ t.arrived = s.arrived ++ l ∧ l.length = p.cores.length
      ∧ (∀ (i gp : Nat), p.cores[i]? = some gp → ∃ e : NetPkt,
          l[i]? = some e ∧ e.at_ = Node.core gp ∧ e.pkt = { p.pkt with land := none } ∧ e.ctx = p.ctx)
      ∧ (t.net = s.net.eraseIdx n ∨ ∃ e, t.net = s.net.set n e ∧ e.casts blk = false) ∧ t.mem = s.mem := by
  have hx := exec_broadcastGrant (held := held) hblk hratio hheld hfind hn
  rw [if_neg (by rw [hw]; decide), if_neg (by rw [hb]; decide)] at hx
  obtain ⟨harr, hmem, hshut, hnet⟩ := (s.netGrant p 4).leave_taken n blk p
  generalize (s.netGrant p 4).leave n (p.taken blk) = u at hx harr hmem hshut hnet
  obtain ⟨hlnet, hlarr, hlmem, hlshut⟩ := u.castLost_frame blk p
  generalize u.castLost blk p = v at hx hlnet hlarr hlmem hlshut
  obtain ⟨hcarr, hcnet, hcmem⟩ := State.copies_arrived blk p p.cores v fun gp hgp => (hlshut gp).trans ((hshut gp).trans (hopen gp hgp))
  refine ⟨_, _, hx, hcarr.trans (congrArg (· ++ _) (hlarr.trans harr)), List.length_map .., fun i gp hi => ?_, ?_, hcmem.trans (hlmem.trans hmem)⟩
  · refine ⟨{ p.copy with at_ := .core gp }, ?_, rfl, rfl, rfl⟩
    rw [List.getElem?_map, hi]
    rfl
  · exact hnet.imp (hcnet.trans hlnet).trans fun ⟨e, he, hc⟩ => ⟨e, (hcnet.trans hlnet).trans he, hc⟩

/-! ### A packet for another module takes its way (R241, R245) -/

/-- The covered time of a node is no register. -/
theorem State.vcCount_frame (s : State) (p : NetPkt) (now : Nat) : (s.vcCount p now).net = s.net ∧ (s.vcCount p now).regs = s.regs
    ∧ (s.vcCount p now).links = s.links := by
  rw [State.vcCount]
  split
  · split
    · exact ⟨rfl, rfl, rfl⟩
    · exact ⟨rfl, rfl, rfl⟩
  · exact ⟨rfl, rfl, rfl⟩

/-- A choice of the better of two is at least as good as all it was made of. -/
theorem le_foldl_better (f : Nat → Nat) : ∀ (l : List Nat) (b : Nat), f b ≤ f (l.foldl (fun b y => if f b < f y then y else b) b)
    ∧ ∀ q ∈ l, f q ≤ f (l.foldl (fun b y => if f b < f y then y else b) b) := by
  intro l
  induction l with
  | nil => exact fun b => ⟨Nat.le_refl _, fun q hq => absurd hq List.not_mem_nil⟩
  | cons y l ih =>
    intro b
    obtain ⟨hb, hl⟩ := ih (if f b < f y then y else b)
    have hstep : f b ≤ f (if f b < f y then y else b) ∧ f y ≤ f (if f b < f y then y else b) := by split <;> omega
    exact ⟨hstep.1.trans hb, fun q hq => (List.mem_cons.1 hq).elim (fun h => h ▸ hstep.2.trans hb) (hl q)⟩

/-- The port a packet takes has the most credit of those that can take it (R241). -/
theorem State.bestPort_most {s : State} {k : Packet} {port : Nat} (h : s.bestPort k = some port) :
    ∀ q ∈ s.candidates k, pktUnits k ≤ (s.link q).credit 1 → (s.link q).credit 1 ≤ (s.link port).credit 1 := by
  intro q hq hfit
  have hmem : q ∈ (s.candidates k).filter (fun p => decide (pktUnits k ≤ (s.link p).credit 1)) := List.mem_filter.2 ⟨hq, decide_eq_true hfit⟩
  rw [State.bestPort] at h
  cases hfits : (s.candidates k).filter (fun p => decide (pktUnits k ≤ (s.link p).credit 1)) with
  | nil => exact absurd (hfits ▸ hmem) List.not_mem_nil
  | cons x r =>
    obtain ⟨hx, hr⟩ := le_foldl_better (fun q => (s.link q).credit 1) r x
    simp only [hfits] at h
    rw [← Option.some.inj h]
    rw [hfits] at hmem
    rcases List.mem_cons.1 hmem with heq | hin
    · rw [heq]
      exact hx
    · exact hr q hin

section
variable {n r t0 c : Nat} {p : NetPkt} {s : State} (hn : s.net[n]? = some p) (hratio : s.ratioOk = true) (hat : p.at_ = .mesh r)
  (hmod : p.pkt.dmod ≠ s.myId) (heg : p.egress = none) (h5 : p.pkt.type ≠ 5) (h4 : p.pkt.type ≠ 4) (hctx : p.ctx = some c)
include hn hratio hat hmod heg h5 h4 hctx

theorem exec_fabricRoute_mesh : exec (.fabricRoute n t0) s = if s.rf (rtPg + 0x180 + 4 * c) 31 31 = 0
    then .next (((s.vcCount p (s.gen.base + 16 * t0)).dropPkt n).rtDrop 0x128)
    else .next ((s.setPkt n { p with pkt := { p.pkt with job := s.rf (rtPg + 0x180 + 4 * c) 15 0 } }).routeOut n
      { p with pkt := { p.pkt with job := s.rf (rtPg + 0x180 + 4 * c) 15 0 } } (s.gen.base + 16 * t0)) := by
  have hstay : ¬ (p.pkt.dmod = s.myId ∨ p.egress.isSome = true ∨ p.pkt.type = 5) := by
    rw [heg]
    rintro (h | h | h)
    · exact hmod h
    · exact Bool.false_ne_true h
    · exact h5 h
  change execFabricRoute n t0 s = _
  rw [execFabricRoute, hn]
  simp only [hratio, hstay, hat, h4, hctx, if_false, Bool.not_true, Bool.false_eq_true]

/-- A packet whose context has no entry of the flow table is discarded and counted (R245). -/
theorem fabricRoute_drops (hen : s.rf (rtPg + 0x180 + 4 * c) 31 31 = 0) : ∃ t, exec (.fabricRoute n t0) s = .next t ∧ t.net = s.net.eraseIdx n
    ∧ t.rf (rtPg + 0x128) 31 0 = min (s.rf (rtPg + 0x128) 31 0 + 1) (2 ^ 32 - 1) := by
  have hx := exec_fabricRoute_mesh (t0 := t0) hn hratio hat hmod heg h5 h4 hctx
  rw [if_pos hen] at hx
  obtain ⟨hnet, hregs, -⟩ := s.vcCount_frame p (s.gen.base + 16 * t0)
  generalize s.vcCount p (s.gen.base + 16 * t0) = u at hx hnet hregs
  have hrd : (u.dropPkt n).rd (rtPg + 0x128) = s.rd (rtPg + 0x128) := (rfl : _ = u.rd (rtPg + 0x128)).trans (by rw [State.rd, State.rd, hregs])
  have herase : (u.dropPkt n).net = s.net.eraseIdx n := by
    change u.net.eraseIdx n = _
    rw [hnet]
  refine ⟨_, hx, (State.bump_net ..).trans herase, ?_⟩
  rw [State.rtDrop, State.rf_bump_same _ (by omega), State.rf_of_rd hrd]

/-- A packet of VC1 takes the job of its context, and of the candidates with credit the one with the most (R241, R245). -/
theorem fabricRoute_routes {port : Nat} (hen : s.rf (rtPg + 0x180 + 4 * c) 31 31 ≠ 0) (hvc : p.vc = 1) (hin : s.idInside p.pkt.dmod = true)
    (hbest : s.bestPort { p.pkt with job := s.rf (rtPg + 0x180 + 4 * c) 15 0 } = some port) :
    ∃ t e, exec (.fabricRoute n t0) s = .next t ∧ t.net = s.net.set n e ∧ e.egress = some port ∧ e.vc = 1
      ∧ e.pkt.job = s.rf (rtPg + 0x180 + 4 * c) 15 0 ∧ (∀ q ∈ s.candidates e.pkt, pktUnits e.pkt ≤ (s.link q).credit 1 →
          (s.link q).credit 1 ≤ (s.link port).credit 1) := by
  have hx := exec_fabricRoute_mesh (t0 := t0) hn hratio hat hmod heg h5 h4 hctx
  rw [if_neg hen] at hx
  have hmost := State.bestPort_most hbest
  generalize s.rf (rtPg + 0x180 + 4 * c) 15 0 = job at hx hbest hmost ⊢
  obtain ⟨p', hp'⟩ : ∃ p' : NetPkt, p' = { p with pkt := { p.pkt with job := job } } := ⟨_, rfl⟩
  have hpkt : p'.pkt = { p.pkt with job := job } := congrArg NetPkt.pkt hp'
  have hat' : p'.at_ = .mesh r := (congrArg NetPkt.at_ hp').trans hat
  have hvc' : p'.vc = 1 := (congrArg NetPkt.vc hp').trans hvc
  rw [← hp'] at hx
  have hin' : (s.setPkt n p').idInside p'.pkt.dmod = true := by rw [hpkt]; exact hin
  have hbest' : (s.setPkt n p').bestPort p'.pkt = some port := by rw [hpkt]; exact hbest
  have hroute : (s.setPkt n p').routeOut n p' (s.gen.base + 16 * t0) = (s.setPkt n p').takeEgress n p' port 1 (s.gen.base + 16 * t0) := by
    rw [State.routeOut]
    simp only [hin', hvc', hbest', Bool.not_true, Bool.false_eq_true, if_false, if_true]
  have htake : (s.setPkt n p').takeEgress n p' port 1 (s.gen.base + 16 * t0)
      = ((s.setPkt n p').noteEsc p' 1).setPkt n { p' with pkt := { p'.pkt with vc := 1 }, vc := 1, egress := some port } := by
    rw [State.takeEgress]
    simp only [hat', hvc', if_true]
  have hesc : (s.setPkt n p').noteEsc p' 1 = s.setPkt n p' := if_neg fun h => absurd h.2 (by decide)
  rw [hroute, htake, hesc] at hx
  refine ⟨_, { p' with pkt := { p'.pkt with vc := 1 }, vc := 1, egress := some port }, hx, ?_, rfl, rfl, ?_, ?_⟩
  · exact List.set_set ..
  · rw [hpkt]
  · rw [hpkt]
    exact hmost

end

/-- Settles O27: a hop, a grant and a route each move the packet or leave it, by the equation of each command. -/
theorem packetsMoveOrWait : Obligations.PacketsMoveOrWait := by
  unfold Obligations.PacketsMoveOrWait
  refine ⟨fun n err t0 gp p s hn hratio hat hshut => ⟨packetHop_reserved hn hratio hat hshut,
      fun hk hgoal hx hb hl => packetHop_moves hn hratio hat hshut hk hgoal hx hb hl,
      fun hk hgoal h => packetHop_waits hn hratio hat hshut hk hgoal h⟩,
    fun n t0 b i vc o m p q s hn hratio hat hm he ho hq hqat hqo hq0 hp => packetHop_yields hn hratio hat hm he ho hq hqat hqo hq0 hp,
    fun blk held n p s hblk hratio hheld hfind hn => ⟨broadcastGrant_waits hblk hratio hheld hfind hn,
      fun hw hb => ⟨_, broadcastGrant_holds hblk hratio hheld hfind hn hw hb, rfl, rfl, rfl, rfl⟩,
      broadcastGrant_delivers hblk hratio hheld hfind hn⟩,
    fun n r t0 p s hn hratio hat hmod heg h5 h4 => ⟨fun c hctx hen => fabricRoute_drops hn hratio hat hmod heg h5 h4 hctx hen,
      fun c port hctx hen hvc hin hbest => fabricRoute_routes hn hratio hat hmod heg h5 h4 hctx hen hvc hin hbest⟩⟩

end Sys2Proof.Machine

/-! Debug sessions, halted cores and the debug window (R137, R153, R395, R396). -/

namespace Sys2Proof.Machine

/-! ### Sessions close, cores halt and run (R395, R396) -/

theorem State.releaseHalts_regs (s : State) (ctx : Nat) : (s.releaseHalts ctx).regs = s.regs := by
  rw [State.releaseHalts]
  generalize s.cores = l
  induction l generalizing s with
  | nil => rfl
  | cons x l ih =>
    rw [List.foldl_cons, ih, apply_ite State.regs, State.modCore_regs, ite_self]

theorem State.secResult_shows (s : State) (ag : Agent) {r : Nat} (hr : r < 16) : (s.secResult ag r).rf (mbPg ag + 0x104) 3 0 = r := by
  rw [State.secResult, State.rf_wf_same _ (by omega)]
  omega

theorem State.secResult_dbg (s : State) (ag : Agent) (r : Nat) : (s.secResult ag r).dbg = s.dbg := State.wf_dbg ..

/-- CLOSE of the agent whose session is open closes it, but for a D3 session; another's is refused (R395). -/
theorem close_rules (ag : Agent) (s : State) :
    (∀ d, s.dbg = some d → d.agent = ag → d.level ≠ 3 → ∃ t, exec (.close ag) s = .next t ∧ t.dbg = none ∧ t.rf (mbPg ag + 0x104) 3 0 = 0)
      ∧ ((s.dbg = none ∨ ∃ d, s.dbg = some d ∧ d.agent ≠ ag) →
        ∃ t, exec (.close ag) s = .next t ∧ t.dbg = s.dbg ∧ t.rf (mbPg ag + 0x104) 3 0 = 7) := by
  have hexec : exec (.close ag) s = .next (s.closeReq ag) := rfl
  refine ⟨fun d hd hag hlevel => ⟨_, hexec, ?_⟩, fun h => ⟨_, hexec, ?_⟩⟩
  · have hreq : s.closeReq ag = s.closeSession.secResult ag 0 := by
      rw [State.closeReq, hd]
      simp only [hag, hlevel, ne_eq, not_true_eq_false, if_false]
    rw [hreq, State.secResult_dbg, State.closeSession_dbg hd, if_neg hlevel]
    exact ⟨rfl, State.secResult_shows _ _ (by decide)⟩
  · have hreq : s.closeReq ag = s.secResult ag 7 := by
      rw [State.closeReq]
      rcases h with h | ⟨d, h, hag⟩
      · rw [h]
      · rw [h]
        exact if_pos hag
    rw [hreq, State.secResult_dbg]
    exact ⟨rfl, State.secResult_shows _ _ (by decide)⟩

/-- A session whose time is over closes (R395). -/
theorem debugSessionExpire_closes {s : State} {d : DbgSession} (hd : s.dbg = some d) (hlevel : d.level ≠ 3) (hleft : d.left ≤ s.gen.len) :
    ∃ t, exec .debugSessionExpire s = .next t ∧ t.dbg = none ∧ t.regs = s.regs ∧ t.mem = s.mem := by
  have hexec : exec .debugSessionExpire s = .next s.closeSession := by
    change execDebugSessionExpire s = _
    rw [execDebugSessionExpire, hd]
    exact if_pos hleft
  have hregs : s.closeSession.regs = s.regs := by
    rw [State.closeSession, hd]
    simp only [hlevel, if_false]
    exact State.releaseHalts_regs ..
  exact ⟨_, hexec, (State.closeSession_dbg hd).trans (if_neg hlevel), hregs, State.mem_of_kept (State.closeSession_kept s)⟩

/-- DBG_HSTAT of a core that halts: HALTED, the cause and an index. -/
theorem fld_hstat {cause i : Nat} (hc : cause < 4) (hi : i < 2 ^ 13) : fld (BitVec.ofNat 32 (2 ^ 31 + cause * 2 ^ 29 + i)) 31 29 = 4 + cause := by
  rw [fld, BitVec.toNat_ofNat]
  omega

/-- What a halt on request shows: an index of the model's choice (R396). -/
theorem State.haltCore_shows_free (s : State) (gp cyc cause : Nat) : ∃ i, i < 2 ^ 13 ∧ ((s.haltCore gp cyc cause none).core gp).halted = true
    ∧ (s.haltCore gp cyc cause none).rd (corePg gp + 0x1304) = BitVec.ofNat 32 (2 ^ 31 + cause * 2 ^ 29 + i) := by
  rw [show @State.haltCore = _ by delta State.haltCore; rfl]
  obtain ⟨ctxOf, hctx⟩ : ∃ f, f = State.coreCtx := ⟨_, rfl⟩
  rw [← hctx]
  exact ⟨_, Nat.mod_lt _ (by decide), State.perturb_shows _ _ gp _ _ (State.haltMark_shows _ gp _ _ _ fun _ => rfl)⟩

theorem State.haltCore_halts (s : State) (gp cyc : Nat) : ((s.haltCore gp cyc 0 none).core gp).halted = true
    ∧ (s.haltCore gp cyc 0 none).rf (corePg gp + 0x1304) 31 29 = 4 := by
  obtain ⟨i, hi, hhalt, hrd⟩ := s.haltCore_shows_free gp cyc 0
  rw [State.rf, hrd]
  exact ⟨hhalt, fld_hstat (by decide) hi⟩

section
variable {ag : Agent} {gp : Nat} {s : State} (hgp : gp < 5120) (hmay : s.mayWrite ag (corePg gp + 0x1300))
include hgp hmay

/-- HALT halts the core, with cause 0 (R396). -/
theorem halt_halts (hh : (s.core gp).halted = false) :
    ∃ t, exec (.halt ag gp) s = .next t ∧ (t.core gp).halted = true ∧ t.rf (corePg gp + 0x1304) 31 29 = 4 := by
  have hexec : exec (.halt ag gp) s = .next (s.dbgHalt gp) :=
    (if_pos (decide_eq_true hgp)).trans (congrArg _ (State.ifAdmitted_may hmay _))
  have hhalt : s.dbgHalt gp = s.haltCore gp (s.core gp).now 0 none := if_neg (by rw [hh]; decide)
  rw [hhalt] at hexec
  exact ⟨_, hexec, s.haltCore_halts gp _⟩

/-- RUN and STEP let a halted core run from the next boundary (R396). -/
theorem run_runs (hh : (s.core gp).halted = true) :
    (∃ t, exec (.runCore ag gp) s = .next t ∧ t.core gp = { s.core gp with runPend := true, stepping := false } ∧ t.regs = s.regs)
      ∧ ∃ t, exec (.stepCore ag gp) s = .next t ∧ t.core gp = { s.core gp with runPend := true, stepping := true } ∧ t.regs = s.regs := by
  have hrun (b : Bool) : s.dbgRun gp b = s.modCore gp (fun c => { c with runPend := true, stepping := b }) := if_pos hh
  have hexec : exec (.runCore ag gp) s = .next (s.dbgRun gp false) :=
    (if_pos (decide_eq_true hgp)).trans (congrArg _ (State.ifAdmitted_may hmay _))
  have hstep : exec (.stepCore ag gp) s = .next (s.dbgRun gp true) :=
    (if_pos (decide_eq_true hgp)).trans (congrArg _ (State.ifAdmitted_may hmay _))
  rw [hrun] at hexec hstep
  exact ⟨⟨_, hexec, State.core_modCore_same .., rfl⟩, ⟨_, hstep, State.core_modCore_same .., rfl⟩⟩

end

/-! ### The debug window shows a row (R137, R153) -/

/-- What is still due in a core: accesses, packets, buckles, armings, and which operations in flight are landings. -/
def Core.owes (c : Core) := (c.acc, c.outb, c.bklOut, c.arms, c.flights.map (·.landing))

/-- A state that shows what another shows in the debug page of a core, and in which as much is due in the core. -/
def State.keepsWindow (s t : State) (gp : Nat) : Prop :=
  (∀ o, 0x1000 ≤ o → t.rd (corePg gp + o) = s.rd (corePg gp + o)) ∧ (t.core gp).owes = (s.core gp).owes

theorem State.keepsWindow.refl (s : State) (gp : Nat) : s.keepsWindow s gp := ⟨fun _ _ => rfl, rfl⟩

theorem State.keepsWindow.trans {s t u : State} {gp : Nat} (h : s.keepsWindow t gp) (h' : t.keepsWindow u gp) : s.keepsWindow u gp :=
  ⟨fun o ho => (h'.1 o ho).trans (h.1 o ho), h'.2.trans h.2⟩

theorem State.keepsWindow.foldl {α : Type} {f : State → α → State} {gp : Nat} (hf : ∀ (t : State) x,
    t.keepsWindow (f t x) gp) (l : List α) (s : State) :
    s.keepsWindow (l.foldl f s) gp := by
  induction l generalizing s with
  | nil => exact .refl s gp
  | cons x l ih => exact (hf s x).trans (ih _)

theorem State.keepsWindow.ite {s t u : State} {gp : Nat} (c : Prop) [Decidable c] (h : s.keepsWindow t gp) (h' : s.keepsWindow u gp) :
    s.keepsWindow (if c then t else u) gp := by
  split
  · exact h
  · exact h'

section
variable (s : State) (gp : Nat)

theorem State.wr_keepsWindow {o : Nat} (ho : o < 0x1000) (v : Word) : s.keepsWindow (s.wr (corePg gp + o) v) gp :=
  ⟨fun k hk => State.rd_wr_other s v (by omega), by rw [State.core_wr]⟩

theorem State.wf_keepsWindow {o : Nat} (ho : o < 0x1000) (hi lo v : Nat) : s.keepsWindow (s.wf (corePg gp + o) hi lo v) gp :=
  ⟨fun k hk => State.rd_wf_other s hi lo v (by omega), by rw [State.core_wf]⟩

theorem State.bump_keepsWindow {o : Nat} (ho : o < 0x1000) (hi lo n : Nat) : s.keepsWindow (s.bump (corePg gp + o) hi lo n) gp :=
  s.wf_keepsWindow gp ho hi lo _

theorem State.setCore_keepsWindow {c : Core} (h : c.owes = (s.core gp).owes) : s.keepsWindow (s.setCore gp c) gp :=
  ⟨fun _ _ => rfl, by rw [State.core_setCore_same, h]⟩

theorem State.modCore_keepsWindow {f : Core → Core} (h : ∀ c : Core, (f c).owes = c.owes) : s.keepsWindow (s.modCore gp f) gp :=
  s.setCore_keepsWindow gp (h _)

theorem State.coreErr_keepsWindow (sev cls cyc : Nat) (synd : BitVec 64) : s.keepsWindow (s.coreErr gp sev cls cyc synd) gp :=
  ⟨fun o ho => State.rd_coreErr_other (fun k hk => by omega) s sev cls cyc synd,
    congrArg Core.owes (State.core_of_rest (State.coreErr_rest s gp sev cls cyc synd) gp)⟩

theorem State.sticky_keepsWindow (tile bitNo : Nat) : s.keepsWindow (s.sticky gp tile bitNo) gp := s.wf_keepsWindow gp (by decide) _ _ _

theorem State.orBits_keepsWindow {o : Nat} (ho : o < 0x1000) (b : Nat) : s.keepsWindow (s.orBits (corePg gp + o) b) gp := s.wr_keepsWindow gp ho _

omit s gp

theorem Core.owes_setTile (c : Core) (n : Nat) (x : Tile) : (c.setTile n x).owes = c.owes := by
  rw [Core.setTile]
  split
  · rfl
  · rfl

theorem Core.owes_mapFlights (c : Core) {f : Flight → Flight} (hf : ∀ x, (f x).landing = x.landing) :
    ({ c with flights := c.flights.map f } : Core).owes = c.owes := by
  have hmap : (c.flights.map f).map (·.landing) = c.flights.map (·.landing) := by
    rw [List.map_map]
    exact List.map_congr_left fun x _ => hf x
  rw [Core.owes, Core.owes, hmap]

theorem Core.owes_finishLoadAct (c : Core) (f : Flight) (a : LoadActArgs) : (c.finishLoadAct f a).owes = c.owes := by
  rw [Core.finishLoadAct]
  generalize f.got.filter (fun g => decide (g.1 = 0)) = l
  induction l generalizing c with
  | nil => rfl
  | cons p l ih =>
    rw [List.foldl_cons, ih]
    split
    · rfl
    · rfl

end

/-! ### What a cycle does besides serving its accesses leaves the debug page (R115, R131) -/

theorem Core.owes_setStream (c : Core) (n : Nat) (st : Stream) : (c.setStream n st).owes = c.owes := rfl

section
variable (s : State) (gp : Nat)

theorem State.pcaStep_keepsWindow (cyc tile idx pca pset : Nat) : s.keepsWindow (s.pcaStep gp cyc tile idx pca pset) gp := by
  unfold State.pcaStep
  extract_lets t
  generalize applyPca pca pset t.pass = r
  obtain ⟨p, lapsed⟩ := r
  have hset : s.keepsWindow (s.modCore gp (fun c => c.setTile tile { (c.tile tile) with pass := p, lapsed := t.lapsed || lapsed })) gp :=
    s.modCore_keepsWindow gp fun c => c.owes_setTile ..
  exact .ite _ (hset.trans ((State.sticky_keepsWindow _ gp tile 2).trans (State.coreErr_keepsWindow _ gp ..))) hset

theorem State.disputeCapture_keepsWindow (f : Flight) (els : List (BitVec 46)) : s.keepsWindow (s.disputeCapture gp f els) gp := by
  rw [State.disputeCapture]
  split
  · exact .ite _ (s.modCore_keepsWindow gp fun c => rfl) (.refl s gp)
  · exact .refl s gp

theorem State.replayCapture_keepsWindow (f : Flight) (els : List (BitVec 46)) : s.keepsWindow (s.replayCapture gp f els) gp :=
  .ite _ (s.modCore_keepsWindow gp fun c => rfl) (.refl s gp)

theorem State.accChecks_keepsWindow (cyc : Nat) (f : Flight) : s.keepsWindow (s.accChecks gp cyc f) gp := by
  rw [State.accChecks]
  split
  · exact .refl s gp
  · split
    · next a _ =>
      refine .ite _ (.refl s gp) ?_
      generalize ((s.accRun gp f a (s.accRead gp f a)).2.2.1).filter (fun d => decide (f.groups ≤ d.1)) = ds
      have hmark : s.keepsWindow (s.modCore gp (fun c => { c with
          flights := c.flights.map (fun x => if x.id = f.id then
            { x with groups := s.accRead gp f a, disp := (x.disp ++ ds.map (·.2.2)).dedup } else x),
          watch := if ds.isEmpty then c.watch else { c.watch with pendDisp := c.watch.pendDisp ++ [(cyc + 24, f.id, ds)] } })) gp :=
        s.modCore_keepsWindow gp fun c => Core.owes_mapFlights { c with watch := _ } fun x => by split <;> rfl
      exact .ite _ hmark (hmark.trans ((State.modCore_keepsWindow _ gp fun c => c.owes_setTile ..).trans (State.sticky_keepsWindow _ gp _ _)))
    · exact .refl s gp

theorem State.finishLoadTile_keepsWindow (cyc : Nat) (f : Flight) (a : LoadTileArgs) : s.keepsWindow (s.finishLoadTile gp cyc f a) gp :=
  .ite _ (s.setCore_keepsWindow gp (Core.owes_setTile ..))
    ((s.setCore_keepsWindow gp (Core.owes_setTile ..)).trans (State.pcaStep_keepsWindow ..))

theorem State.finishDrain_keepsWindow (f : Flight) (a : DrainArgs) : s.keepsWindow (s.finishDrain gp f a) gp := by
  rw [State.finishDrain]
  have hflags : s.keepsWindow (s.orBits (corePg gp + 0x264) (f.drainOut a).2.bits) gp := s.orBits_keepsWindow gp (by decide) _
  have hdraw := hflags.trans (.ite (a.sr = true) (State.modCore_keepsWindow _ gp (f := fun c => c.setStream 0 ((c.stream 0).draws16 256).2) fun c =>
      c.owes_setStream ..)
    (.refl _ gp))
  exact .ite _ hdraw (hdraw.trans (State.modCore_keepsWindow _ gp fun c => c.owes_setTile ..))

/-- The tile of an accumulation that had rows (R109 to R113). -/
def AccArgs.tileOf (a : AccArgs) (f : Flight) (t : Tile) (els : List (BitVec 46)) (fl : AFlags) : Tile :=
  if a.add then { t with elems := elemTbl els, void := false, ovf := t.ovf || fl.ovf }
  else { t with elems := elemTbl els, void := false, ovf := fl.ovf, lapsed := false, disputed := !f.disp.isEmpty, pass := 0 }

/-- The core of an accumulation that had rows. -/
def Core.accDone (c : Core) (f : Flight) (a : AccArgs) (els : List (BitVec 46)) (fl : AFlags) : Core :=
  { c.setTile a.tile (a.tileOf f (c.tile a.tile) els fl) with
    anvilFaults := c.anvilFaults.filter (fun f => !f.once)
    flights := (c.setTile a.tile (a.tileOf f (c.tile a.tile) els fl)).flights.map (fun x => if x.id = f.id then { x with elems := elemTbl els } else
        x) }

theorem Core.owes_accDone (c : Core) (f : Flight) (a : AccArgs) (els : List (BitVec 46)) (fl : AFlags) : (c.accDone f a els fl).owes = c.owes :=
  (Core.owes_mapFlights { c.setTile a.tile (a.tileOf f (c.tile a.tile) els fl) with anvilFaults := _ } fun x => by split <;> rfl).trans
    (Core.owes_setTile ..)

/-- The captures of an accumulation (R130, R131). -/
def State.accCaptures (s : State) (f : Flight) (els : List (BitVec 46)) : State := (s.disputeCapture gp f els).replayCapture gp f els

theorem State.accCaptures_keepsWindow (f : Flight) (els : List (BitVec 46)) : s.keepsWindow (s.accCaptures gp f els) gp :=
  (s.disputeCapture_keepsWindow gp f els).trans (State.replayCapture_keepsWindow ..)

theorem State.finishAcc_eq (cyc : Nat) (f : Flight) (a : AccArgs) : ∃ (els : List (BitVec 46)) (fl : AFlags) (v : Bool), s.finishAcc gp cyc f a =
    if v then
      (if a.add then s else s.setCore gp ((s.core gp).setTile a.tile { (s.core gp).tile a.tile with elems := [], void := true })).accCaptures gp f
        (elemsOf (((if a.add then s else s.setCore gp ((s.core gp).setTile a.tile { (s.core gp).tile a.tile with elems := [], void := true })).core
            gp).tile
          a.tile).elems)
    else
      ((if fl.ovf then ((s.setCore gp ((s.core gp).accDone f a els fl)).orBits (corePg gp + 0x264) fl.bits).sticky gp a.tile 1
        else (s.setCore gp ((s.core gp).accDone f a els fl)).orBits (corePg gp + 0x264) fl.bits).accCaptures gp f els).pcaStep gp cyc a.tile f.idx
            a.pca a.pset := by
  refine ⟨(s.accRun gp f a a.k).1, (s.accRun gp f a a.k).2.1, (s.accRun gp f a a.k).2.2.2, ?_⟩
  rw [State.finishAcc]
  rfl

theorem State.finishAcc_keepsWindow (cyc : Nat) (f : Flight) (a : AccArgs) : s.keepsWindow (s.finishAcc gp cyc f a) gp := by
  obtain ⟨els, fl, v, heq⟩ := s.finishAcc_eq gp cyc f a
  have hflags := (s.setCore_keepsWindow gp ((s.core gp).owes_accDone f a els fl)).trans
    (State.orBits_keepsWindow _ gp (o := 0x264) (by decide) fl.bits)
  rw [heq]
  refine .ite _ ?_ ?_
  · exact State.keepsWindow.trans (.ite _ (.refl s gp) (s.setCore_keepsWindow gp (Core.owes_setTile ..))) (State.accCaptures_keepsWindow ..)
  · exact State.keepsWindow.trans (.ite _ (hflags.trans (State.sticky_keepsWindow ..)) hflags)
      ((State.accCaptures_keepsWindow ..).trans (State.pcaStep_keepsWindow ..))

/-- The core of a vector operation that is done. -/
def Core.vecDone (c : Core) (n : Nat) (st : Stream) (v : VecState) : Core := { c.setStream n st with vec := v }

theorem Core.owes_vecDone (c : Core) (n : Nat) (st : Stream) (v : VecState) : (c.vecDone n st v).owes = c.owes := rfl

theorem State.finish_keepsWindow (cyc : Nat) (f : Flight) : s.keepsWindow (s.finish gp cyc f) gp := by
  rw [State.finish]
  split
  · exact s.finishAcc_keepsWindow gp cyc f _
  · exact s.finishLoadTile_keepsWindow gp cyc f _
  · exact s.finishDrain_keepsWindow gp f _
  · exact s.modCore_keepsWindow gp fun c => c.owes_finishLoadAct f _
  · next a _ =>
    generalize f.vecOut a = o
    exact (s.modCore_keepsWindow gp (f := fun c => c.vecDone (if a.op = 0x13 then 2 else 1) o.rng o.vec) fun c => c.owes_vecDone ..).trans
      (State.orBits_keepsWindow _ gp (o := 0x290) (by decide) o.flags.bits)
  · exact .refl s gp

omit s

theorem State.finishAll_keepsWindow (cyc : Nat) : ∀ (l : List Flight) (s : State), s.keepsWindow (s.finishAll gp cyc l) gp := by
  intro l
  induction l with
  | nil => exact fun s => .refl s gp
  | cons f l ih =>
    intro s
    refine .ite _ ?_ (ih s)
    exact (s.finish_keepsWindow gp cyc f).trans
      ((State.modCore_keepsWindow _ gp fun c => c.owes_mapFlights fun x => by split <;> rfl).trans (ih _))

/-- A dispute that is due is recorded on page 0 of its core (R130). -/
theorem State.disputes_keepsWindow (s : State) (cyc : Nat) (f : Flight) (tile rot : Nat) (ds : List Dispute) :
    s.keepsWindow (s.disputes gp cyc f tile rot ds) gp := by
  rw [State.disputes.eq_def]
  split
  · exact .refl s gp
  · next d0 dr =>
    refine State.keepsWindow.trans ?_ (State.coreErr_keepsWindow _ gp ..)
    have hcount := s.bump_keepsWindow gp (o := 0x2D0) (by decide) 31 16 (d0 :: dr).length
    refine State.keepsWindow.ite _ ?_ hcount
    exact hcount.trans ((State.wr_keepsWindow _ gp (o := 0x2B8) (by decide) _).trans
      ((State.wr_keepsWindow _ gp (o := 0x2BC) (by decide) _).trans (State.modCore_keepsWindow _ gp fun c => rfl)))

theorem State.disputesTo_keepsWindow (s : State) (stop : Nat) : s.keepsWindow (s.disputesTo gp stop) gp := by
  unfold State.disputesTo
  extract_lets due u
  have hu : s.keepsWindow u gp := s.modCore_keepsWindow gp fun c => rfl
  refine .ite _ (.refl s gp) (hu.trans (State.keepsWindow.foldl (fun t p => ?_) _ _))
  split
  · exact State.disputes_keepsWindow ..
  · exact .refl t gp

theorem State.capturesTo_keepsWindow (s : State) (stop : Nat) : s.keepsWindow (s.capturesTo gp stop) gp := by
  rw [State.capturesTo]
  refine State.keepsWindow.trans (.foldl (fun t k => .ite _ ?_ ?_) _ _) (State.modCore_keepsWindow _ gp fun c => rfl)
  · exact (t.wr_keepsWindow gp (by decide) _).trans ((State.wr_keepsWindow _ gp (by decide) _).trans (State.wf_keepsWindow _ gp (by decide) ..))
  · exact (t.wr_keepsWindow gp (by decide) _).trans (State.wr_keepsWindow _ gp (by decide) _)

end

/-! ### A fetch of the debug window (R137) -/

/-- Nothing is due in a core (R95). -/
def Core.owesNone (c : Core) : Prop := c.acc = [] ∧ c.outb = [] ∧ c.bklOut = [] ∧ c.arms = [] ∧ ∀ f ∈ c.flights, f.landing = false

theorem Core.owesNone_congr {c d : Core} (h : d.owes = c.owes) (hc : c.owesNone) : d.owesNone := by
  obtain ⟨hacc, houtb, hbkl, harms, hland⟩ := hc
  simp only [Core.owes, Prod.mk.injEq] at h
  obtain ⟨h1, h2, h3, h4, h5⟩ := h
  refine ⟨h1.trans hacc, h2.trans houtb, h3.trans hbkl, h4.trans harms, fun f hf => ?_⟩
  have hmem : f.landing ∈ c.flights.map (·.landing) := h5 ▸ List.mem_map_of_mem hf
  obtain ⟨g, hg, hfg⟩ := List.mem_map.1 hmem
  exact hfg.symm.trans (hland g hg)

/-- One access alone is served (R138). -/
theorem arbitrate_one (a : Access) : arbitrate [a] = ([a], []) := by
  cases h : a.op.bank <;> simp [arbitrate, withIndex, h]

theorem State.rd_wrRow (s : State) (a : Nat) (v : Nat → Word) (n : Nat) :
    (∀ k, k < n → ((List.range n).foldl (fun (s : State) k => s.wr (a + 4 * k) (v k)) s).rd (a + 4 * k) = v k)
      ∧ ∀ b, (∀ k, k < n → b ≠ a + 4 * k) → ((List.range n).foldl (fun (s : State) k => s.wr (a + 4 * k) (v k)) s).rd b = s.rd b := by
  induction n with
  | zero => exact ⟨fun k hk => absurd hk (Nat.not_lt_zero k), fun _ _ => rfl⟩
  | succ n ih =>
    obtain ⟨hin, hout⟩ := ih
    rw [List.range_succ, List.foldl_append]
    generalize (List.range n).foldl (fun (s : State) k => s.wr (a + 4 * k) (v k)) s = u at hin hout
    change (∀ k, k < n + 1 → (u.wr (a + 4 * n) (v n)).rd (a + 4 * k) = v k)
      ∧ ∀ b, (∀ k, k < n + 1 → b ≠ a + 4 * k) → (u.wr (a + 4 * n) (v n)).rd b = s.rd b
    refine ⟨fun k hk => ?_, fun b hb => ?_⟩
    · by_cases hkn : k = n
      · rw [hkn, State.rd_wr_same]
      · rw [State.rd_wr_other _ _ (by omega), hin k (by omega)]
    · rw [State.rd_wr_other _ _ (hb n (by omega)), hout b fun k hk => hb k (by omega)]

section
variable (s : State) (gp : Nat)

/-- The window shows the row that a fetch has read (R137). -/
theorem State.dbgRow_shows (r : Row) : (∀ k, k < 32 → (s.dbgRow gp r).rd (corePg gp + 0x1200 + 4 * k) = BitVec.ofNat 32 (r.toNat / 2 ^ (32 * k)))
    ∧ ∀ b, (∀ k, k < 32 → b ≠ corePg gp + 0x1200 + 4 * k) → (s.dbgRow gp r).rd b = s.rd b :=
  s.rd_wrRow (corePg gp + 0x1200) (fun k => BitVec.ofNat 32 (r.toNat / 2 ^ (32 * k))) 32

theorem State.dbgRow_cores (r : Row) : (s.dbgRow gp r).cores = s.cores := by
  rw [State.dbgRow]
  generalize List.range 32 = l
  induction l generalizing s with
  | nil => rfl
  | cons k l ih => rw [List.foldl_cons, ih, State.wr_cores]

/-- The access of a fetch of the debug window: a read of lowest rank in the cycle the core has come to. -/
def Core.dbgAccess (c : Core) (la : Nat) : Access := { cyc := c.now, fl := c.nextId, rank := 6, code := 8, field := 0, op := .rd 0 0 (.dbg la) }

/-- A core that fetches a row for the debug window. -/
def Core.fetching (c : Core) (la : Nat) : Core := { c with nextId := c.nextId + 1, acc := c.acc ++ [c.dbgAccess la] }

theorem State.dbgFetch_eq (la : Nat) : s.dbgFetch gp la
    = (s.modCore gp (fun c => c.fetching la)).dbgWait gp (((s.modCore gp (fun c => c.fetching la)).core gp).acc.length + 1) := id rfl

/-- The checkers look at the accumulations in flight (R129). -/
def State.checked (cyc : Nat) : State :=
  (s.core gp).flights.foldl (fun (s : State) f => if f.unit = 1 ∧ !f.finished ∧ !f.landing then s.accChecks gp cyc f else s) s

theorem State.checked_keepsWindow (cyc : Nat) : s.keepsWindow (s.checked gp cyc) gp :=
  State.keepsWindow.foldl (fun t f => .ite _ (t.accChecks_keepsWindow gp cyc f) (.refl t gp)) _ s

/-- A core of which the one access is being served. -/
def Core.serving (c : Core) (cyc : Nat) (a : Access) : Core := { c with watch := c.watch.conflicts cyc [a] [], acc := [] }

theorem State.cycle_one {a : Access} {cyc : Nat} (hacc : (s.core gp).acc = [a]) (hcyc : a.cyc ≤ cyc) (hr : a.op.isRead = true) :
    s.cycle gp cyc = (((s.setCore gp ((s.core gp).serving cyc a)).serve gp cyc a).checked gp cyc).finishAll gp cyc
      ((((s.setCore gp ((s.core gp).serving cyc a)).serve gp cyc a).checked gp cyc).core gp).flights := by
  have hdue : [a].filter (fun a => decide (a.cyc ≤ cyc)) = [a] := by simp [hcyc]
  have hrest : [a].filter (fun a => decide (cyc < a.cyc)) = [] := by simp [hcyc]
  have hread : [a].filter (fun a => a.op.isRead) = [a] := by simp [hr]
  have hwrite : [a].filter (fun a => !a.op.isRead) = [] := by simp [hr]
  rw [State.cycle]
  simp only [hacc, hdue, hrest, arbitrate_one, hread, hwrite, List.isEmpty_nil, if_true, List.foldl_cons, List.foldl_nil]
  rfl

end

/-! ### The cycle of a fetch (R137) -/

/-- The register of the debug window that says which row it shows. -/
def State.windowShows (s : State) (gp : Nat) (r : Row) (w : Word) : Prop :=
  s.rd (corePg gp + 0x1100) = w ∧ ∀ k, k < 32 → s.rd (corePg gp + 0x1200 + 4 * k) = BitVec.ofNat 32 (r.toNat / 2 ^ (32 * k))

theorem State.windowShows.keeps {s t : State} {gp : Nat} {r : Row} {w : Word} (hs : s.windowShows gp r w) (h : s.keepsWindow t gp) :
    t.windowShows gp r w := by
  refine ⟨(h.1 0x1100 (by decide)).trans hs.1, fun k hk => ?_⟩
  have hrd := h.1 (0x1200 + 4 * k) (by omega)
  rw [← Nat.add_assoc] at hrd
  exact hrd.trans (hs.2 k hk)

theorem State.dbgRow_window (s : State) (gp : Nat) (r : Row) : (s.dbgRow gp r).windowShows gp r (s.rd (corePg gp + 0x1100)) :=
  ⟨(s.dbgRow_shows gp r).2 _ fun k hk => by omega, (s.dbgRow_shows gp r).1⟩

/-- A row without upsets is read as it is stored (R135). -/
theorem State.storeRead_clean {s : State} {gp la : Nat} (h : Tbl.get 0 (s.core gp).upset la = 0) (code cyc : Nat) :
    s.storeRead gp la code cyc = (Tbl.get 0 (s.core gp).store la, s) := by
  rw [State.storeRead]
  exact if_pos h

section
variable {s : State} {gp la : Nat} {a : Access} (hop : a.op = .rd 0 0 (.dbg la)) (hup : Tbl.get 0 (s.core gp).upset la = 0) (hout : (s.core gp).outb
    = [])
include hop hup hout

/-- The fetch of the debug window is served: the window shows the row. -/
theorem State.serve_dbg (cyc : Nat) : (s.serve gp cyc a).windowShows gp (Tbl.get 0 (s.core gp).store la) (s.rd (corePg gp + 0x1100))
    ∧ ((s.serve gp cyc a).core gp).owes = (s.core gp).owes := by
  have hread : s.doRead gp cyc a 0 0 (.dbg la) = s.dbgRow gp (Tbl.get 0 (s.core gp).store la) := by
    rw [State.doRead]
    simp only [State.storeRead_clean hup]
  have hwin := s.dbgRow_window gp (Tbl.get 0 (s.core gp).store la)
  have hcore : (s.dbgRow gp (Tbl.get 0 (s.core gp).store la)).core gp = s.core gp := by rw [State.core, State.core, State.dbgRow_cores]
  rw [State.serve]
  simp only [hop, hread]
  generalize s.dbgRow gp (Tbl.get 0 (s.core gp).store la) = t at hwin hcore
  have howes : (t.core gp).owes = (s.core gp).owes := congrArg Core.owes hcore
  split
  · split
    · next f _ _ =>
      have hnone (x id idx : Nat) (l : Option Nat) (e : Entry) : ((t.core gp).outRow x cyc id idx l e).owes = (t.core gp).owes := by
        rw [hcore, Core.outRow]
        simp only [hout, List.map_nil, Core.owes]
      have hkeep := t.setCore_keepsWindow gp (hnone t.xdiv f.id 0 (AccOp.rd 0 0 (.dbg la)).ringLa (entAt (f.port 0) 0))
      exact ⟨hwin.keeps hkeep, hkeep.2.trans howes⟩
    · exact ⟨hwin, howes⟩
  · exact ⟨hwin, howes⟩

end

/-- A core that has come to a cycle, with what has come to an end retired (R95). -/
def Core.come (c : Core) (now stop x : Nat) : Core :=
  { c.retireTo stop with now := now, leaving := c.leaving.filter (fun p => decide (0 < rowsLeft x p.1 p.2 now)) }

theorem Core.owesNone_come {c : Core} (h : c.owesNone) (now stop x : Nat) : (c.come now stop x).owesNone := by
  obtain ⟨hacc, houtb, hbkl, harms, hland⟩ := h
  have howed : c.flights.filter (fun f => f.landing && !(c.acc.any (fun a => decide (a.fl = f.id)))) = [] :=
    List.filter_eq_nil_iff.mpr fun f hf => by simp [hland f hf]
  refine ⟨hacc, houtb, ?_, harms, fun f hf => hland f (List.mem_filter.1 hf).1⟩
  simp [Core.come, Core.retireTo, hbkl, howed]

section
variable {s : State} {gp la : Nat} {a : Access} (hacc : (s.core gp).acc = [a]) (hop : a.op = .rd 0 0 (.dbg la))
  (hup : Tbl.get 0 (s.core gp).upset la = 0) (hout : (s.core gp).outb = []) (hbkl : (s.core gp).bklOut = []) (harms : (s.core gp).arms = [])
  (hland : ∀ f ∈ (s.core gp).flights, f.landing = false)
include hacc hop hup hout hbkl harms hland

/-- After the cycle of a fetch the window shows the row, and nothing is due. -/
theorem State.cycle_dbg {cyc : Nat} (hcyc : a.cyc ≤ cyc) :
    (s.cycle gp cyc).windowShows gp (Tbl.get 0 (s.core gp).store la) (s.rd (corePg gp + 0x1100))
    ∧ ((s.cycle gp cyc).core gp).owesNone := by
  rw [s.cycle_one gp hacc hcyc (by rw [hop]; rfl)]
  obtain ⟨u, hu⟩ : ∃ u, u = s.setCore gp ((s.core gp).serving cyc a) := ⟨_, rfl⟩
  have hcore : u.core gp = (s.core gp).serving cyc a := by rw [hu, State.core_setCore_same]
  have hrd : u.rd (corePg gp + 0x1100) = s.rd (corePg gp + 0x1100) := by rw [hu, State.rd_setCore]
  have hnone : (u.core gp).owesNone := by
    rw [hcore]
    exact ⟨rfl, hout, hbkl, harms, hland⟩
  have hstore : Tbl.get 0 (u.core gp).store la = Tbl.get 0 (s.core gp).store la := by
    rw [hcore]
    rfl
  have hup' : Tbl.get 0 (u.core gp).upset la = 0 := by
    rw [hcore]
    exact hup
  rw [← hu]
  obtain ⟨hwin, howes⟩ := State.serve_dbg (a := a) hop hup' hnone.2.1 cyc
  rw [hstore, hrd] at hwin
  generalize u.serve gp cyc a = t at hwin howes ⊢
  have hkeep := (t.checked_keepsWindow gp cyc).trans (State.finishAll_keepsWindow gp cyc ((t.checked gp cyc).core gp).flights _)
  exact ⟨hwin.keeps hkeep, Core.owesNone_congr (hkeep.2.trans howes) hnone⟩

/-- A core that issues nothing has served its fetch when it comes to the next cycle. -/
theorem State.reach_dbg (hnow : a.cyc = (s.core gp).now) (hissue : s.issues gp = false) :
    (s.reach gp ((s.core gp).now + 1)).windowShows gp (Tbl.get 0 (s.core gp).store la) (s.rd (corePg gp + 0x1100))
      ∧ ((s.reach gp ((s.core gp).now + 1)).core gp).owesNone := by
  obtain ⟨hwin, hnone⟩ := State.cycle_dbg hacc hop hup hout hbkl harms hland hnow.le
  have hdue : (s.core gp).nextDue ((s.core gp).now + 1) = some (s.core gp).now := by
    rw [Core.nextDue, hacc, List.foldl_cons, List.foldl_nil, hnow]
    exact if_pos (Nat.lt_succ_self _)
  have hrunTo : s.runTo gp ((s.core gp).now + 1) ((s.core gp).acc.length + 1) = s.cycle gp (s.core gp).now := by
    have hidle : ((s.cycle gp (s.core gp).now).core gp).nextDue ((s.core gp).now + 1) = none := by rw [Core.nextDue, hnone.1]; rfl
    rw [hacc, List.length_singleton, State.runTo, hdue]
    simp only
    rw [State.runTo, hidle]
  have hadv : (s.advance gp ((s.core gp).now + 1)).windowShows gp (Tbl.get 0 (s.core gp).store la) (s.rd (corePg gp + 0x1100))
      ∧ ((s.advance gp ((s.core gp).now + 1)).core gp).owesNone := by
    unfold State.advance
    extract_lets u v x w
    have hu : u = s.cycle gp (s.core gp).now := hrunTo
    have hkeep : u.keepsWindow v gp := (u.disputesTo_keepsWindow gp _).trans (State.capturesTo_keepsWindow gp _ _)
    have hv := Core.owesNone_congr hkeep.2 (hu ▸ hnone)
    have hvwin : v.windowShows gp _ _ := (hu ▸ hwin : u.windowShows gp _ _).keeps hkeep
    have hcome : w.core gp = (v.core gp).come (max (v.core gp).now ((s.core gp).now + 1)) ((s.core gp).now + 1) x := State.core_modCore_same ..
    have hw : (w.core gp).owesNone := by
      rw [hcome]
      exact Core.owesNone_come hv ..
    have hdone : w.departDone gp = w := by simp [State.departDone, hw.2.1]
    rw [hdone]
    have hrd : ∀ b, w.rd b = v.rd b := fun b => State.rd_modCore ..
    exact ⟨⟨(hrd _).trans hvwin.1, fun k hk => (hrd _).trans (hvwin.2 k hk)⟩, hw⟩
  have hpay : (s.advance gp ((s.core gp).now + 1)).payBuckles gp = s.advance gp ((s.core gp).now + 1) := by
    simp [State.payBuckles, hadv.2.2.2.1]
  have harm : (s.advance gp ((s.core gp).now + 1)).armsAdvance gp = s.advance gp ((s.core gp).now + 1) := by
    simp [State.armsAdvance, hadv.2.2.2.2.1]
  have hreach : s.reach gp ((s.core gp).now + 1) = s.advance gp ((s.core gp).now + 1) := by
    have hlt : ¬ (s.core gp).now + 1 ≤ (s.core gp).now := by omega
    have hquiet : ((s.core gp).still || !s.issues gp) = true := by rw [hissue, Bool.not_false, Bool.or_true]
    simp only [State.reach]
    rw [if_neg hlt, Nat.add_sub_cancel_left, State.run]
    simp only [if_neg hlt, hquiet, if_true, hpay, harm]
  rw [hreach]
  exact hadv

end

/-! ### DBG_SEL (R137, R153) -/

/-- DBG_SEL is no register that says which context owns a core. -/
theorem dbgSel_apart (gp : Nat) : xbarPg (gp / 10) + 0x100 ≠ corePg gp + 0x1100 ∧ ∀ gl, partAddr gl / 4 * 4 ≠ corePg gp + 0x1100 := by
  refine ⟨?_, fun gl => ?_⟩
  · simp only [xbarPg, corePg, regionAddr]
    omega
  · simp only [partAddr, rcPg, corePg, regionAddr]
    omega

theorem State.logOf_congr {s t : State} {gp : Nat} (h : t.rd (xbarPg (gp / 10) + 0x100) = s.rd (xbarPg (gp / 10) + 0x100)) :
    t.logOf gp = s.logOf gp := by
  have hrf (l : Nat) : t.rf (xbarPg (gp / 10) + 0x100) (4 * l + 3) (4 * l) = s.rf (xbarPg (gp / 10) + 0x100) (4 * l + 3) (4 * l) := State.rf_of_rd h
      ..
  simp only [State.logOf, hrf]

theorem State.coreCtx_congr {s t : State} {gp : Nat} (h : t.rd (xbarPg (gp / 10) + 0x100) = s.rd (xbarPg (gp / 10) + 0x100))
    (hp : ∀ gl, t.rd (partAddr gl / 4 * 4) = s.rd (partAddr gl / 4 * 4)) : t.coreCtx gp = s.coreCtx gp := by
  have hctx : t.logCtx = s.logCtx := funext fun gl => congrArg partCtx (State.rf_of_rd (hp gl) ..)
  rw [State.coreCtx, State.coreCtx, State.logOf_congr h, hctx]

/-- DBG_SEL with its select bits written. -/
def State.selected (s : State) (gp : Nat) (val : Word) : State :=
  s.wr (corePg gp + 0x1100) ((s.rd (corePg gp + 0x1100) &&& ~~~(0x60001FFF : Word)) ||| (val &&& 0x60001FFF))

section
variable (s : State) (gp : Nat) (val : Word)

theorem State.selected_core (g : Nat) : (s.selected gp val).core g = s.core g := State.core_wr ..

theorem State.selected_d2For : (s.selected gp val).d2For gp = s.d2For gp := by
  obtain ⟨hx, hp⟩ := dbgSel_apart gp
  have hctx : (s.selected gp val).coreCtx gp = s.coreCtx gp := State.coreCtx_congr (State.rd_wr_other _ _ hx) fun gl => State.rd_wr_other _ _ (hp gl)
  have hdbg : (s.selected gp val).dbg = s.dbg := State.wr_dbg ..
  rw [State.d2For, State.d2For, hctx, hdbg]

/-- The row that a granted fetch names is fetched; the reserved store reads zeros, and a row outside its store is free (R137). -/
def State.fetched (t : State) : State :=
  if fld val 30 29 = 3 then t.dbgRow gp 0
  else if storeRows (fld val 30 29) ≤ fld val 12 0 then t.fresh.2.dbgRow gp (Config.freeRow t.fresh.1)
  else t.dbgFetch gp (fld val 30 29 * 8192 + fld val 12 0)

theorem State.dbgSel_eq : s.dbgSel gp val = if fld val 31 31 = 0 then s.selected gp val
    else if ((s.selected gp val).core gp).halted = true ∧ (s.selected gp val).d2For gp = true
      then ((s.selected gp val).wf (corePg gp + 0x1100) 28 28 0).fetched gp val
    else ((s.selected gp val).wf (corePg gp + 0x1100) 28 28 1).dbgRow gp 0 := by
  unfold State.dbgSel
  extract_lets a u c v st row
  have hu : u = s.selected gp val := rfl
  have hv : v = u.wf (corePg gp + 0x1100) 28 28 0 := rfl
  have hc : c = u.core gp := rfl
  clear_value v c u
  rw [← hu, ← hv, ← hc, State.fetched]

variable {s gp val}

/-- A fetch that is granted (R153). -/
theorem State.dbgSel_granted (hgo : fld val 31 31 = 1) (hh : (s.core gp).halted = true) (hd : s.d2For gp = true) : s.dbgSel gp val
    = ((s.selected gp val).wf (corePg gp + 0x1100) 28 28 0).fetched gp val := by
  have hgo' : ¬ fld val 31 31 = 0 := by omega
  have hok : ((s.selected gp val).core gp).halted = true ∧ (s.selected gp val).d2For gp = true :=
    ⟨(congrArg Core.halted (s.selected_core gp val gp)).trans hh, (s.selected_d2For gp val).trans hd⟩
  rw [State.dbgSel_eq, if_neg hgo', if_pos hok]

/-- A fetch that is denied shows zeros (R153). -/
theorem State.dbgSel_denied (hgo : fld val 31 31 = 1) (h : (s.core gp).halted = false ∨ s.d2For gp = false) :
    s.dbgSel gp val = ((s.selected gp val).wf (corePg gp + 0x1100) 28 28 1).dbgRow gp 0 := by
  have hgo' : ¬ fld val 31 31 = 0 := by omega
  have hno : ¬ (((s.selected gp val).core gp).halted = true ∧ (s.selected gp val).d2For gp = true) := by
    rw [s.selected_core gp val gp, s.selected_d2For gp val]
    rintro ⟨h1, h2⟩
    rcases h with h | h
    · exact Bool.false_ne_true (h.symm.trans h1)
    · exact Bool.false_ne_true (h.symm.trans h2)
  rw [State.dbgSel_eq, if_neg hgo', if_neg hno]

end

/-- The window after a fetch of a row that no landing delays (R137). -/
theorem State.dbgFetch_shows {s : State} {gp la : Nat} (hs : (s.core gp).settled) (hh : (s.core gp).halted = true)
    (hup : Tbl.get 0 (s.core gp).upset la = 0) :
    (s.dbgFetch gp la).windowShows gp (Tbl.get 0 (s.core gp).store la) (s.rd (corePg gp + 0x1100)) := by
  obtain ⟨hacc, houtb, -, -, hbkl, harms, hland⟩ := hs
  obtain ⟨u, hu⟩ : ∃ u, u = s.modCore gp (fun c => c.fetching la) := ⟨_, rfl⟩
  have hcore : u.core gp = (s.core gp).fetching la := by rw [hu, State.core_modCore_same]
  have hrd : u.rd (corePg gp + 0x1100) = s.rd (corePg gp + 0x1100) := by rw [hu, State.rd_modCore]
  have hacc' : (u.core gp).acc = [(s.core gp).dbgAccess la] := by rw [hcore, Core.fetching, hacc]; rfl
  have hissue : u.issues gp = false := by
    have hhalt : (u.core gp).halted = true := by rw [hcore]; exact hh
    rw [State.issues, hhalt, Bool.not_true, Bool.and_false, Bool.false_and, Bool.false_and]
  obtain ⟨hwin, hnone⟩ := State.reach_dbg (s := u) (gp := gp) (la := la) (a := (s.core gp).dbgAccess la) hacc' rfl (by rw [hcore]; exact hup)
    (by rw [hcore]; exact houtb) (by rw [hcore]; exact hbkl) (by rw [hcore]; exact harms) (by rw [hcore]; exact hland) (by rw [hcore]; rfl) hissue
  have hwait : s.dbgFetch gp la = u.reach gp ((u.core gp).now + 1) := by
    rw [State.dbgFetch_eq, ← hu, hacc', List.length_singleton, State.dbgWait]
    refine (if_pos ?_).trans ?_
    · rw [hacc']
      rfl
    · rw [State.dbgWait]
      refine if_neg ?_
      rw [hnone.1]
      exact Bool.false_ne_true
  have hstore : Tbl.get 0 (u.core gp).store la = Tbl.get 0 (s.core gp).store la := by rw [hcore]; rfl
  rw [hwait, ← hstore, ← hrd]
  exact hwin

section
variable {ag : Agent} {gp : Nat} {val : Word} {s : State} (hgp : gp < 5120) (hmay : s.mayWrite ag (corePg gp + 0x1100))
include hgp hmay

theorem exec_dbgSelGo : exec (.dbgSelGo ag gp val) s = .next (s.dbgSel gp (val ||| 0x80000000)) :=
  (if_pos (decide_eq_true hgp)).trans (congrArg _ (State.ifAdmitted_may hmay _))

theorem dbgSelGo_shows (hh : (s.core gp).halted = true) (hd : s.d2For gp = true) (hst : fld val 30 29 < 3) (hrow : fld val 12 0 < storeRows (fld val
    30 29))
    (hs : (s.core gp).settled) (hup : Tbl.get 0 (s.core gp).upset (fld val 30 29 * 8192 + fld val 12 0) = 0) :
    ∃ t, exec (.dbgSelGo ag gp val) s = .next t ∧ t.rf (corePg gp + 0x1100) 28 28 = 0
      ∧ ∀ k, k < 32 → t.rd (corePg gp + 0x1200 + 4 * k)
          = BitVec.ofNat 32 ((Tbl.get 0 (s.core gp).store (fld val 30 29 * 8192 + fld val 12 0)).toNat / 2 ^ (32 * k)) := by
  have hsel := State.dbgSel_granted (fld_go_bit val) hh hd
  rw [State.fetched, fld_go val (by decide), fld_go val (by decide), if_neg (by omega), if_neg (by omega)] at hsel
  have hx := exec_dbgSelGo (val := val) hgp hmay
  rw [hsel] at hx
  obtain ⟨u, hu⟩ : ∃ u, u = (s.selected gp (val ||| 0x80000000)).wf (corePg gp + 0x1100) 28 28 0 := ⟨_, rfl⟩
  have hcore : u.core gp = s.core gp := by rw [hu, State.core_wf, State.selected_core]
  have hbit : u.rf (corePg gp + 0x1100) 28 28 = 0 := by rw [hu, State.rf_wf_same _ (by decide)]; rfl
  rw [← hu] at hx
  have hwin := State.dbgFetch_shows (s := u) (gp := gp) (la := fld val 30 29 * 8192 + fld val 12 0) (by rw [hcore]; exact hs) (by rw [hcore]; exact
      hh)
    (by rw [hcore]; exact hup)
  rw [hcore] at hwin
  exact ⟨_, hx, (State.rf_of_rd hwin.1 ..).trans hbit, hwin.2⟩

theorem dbgSelGo_reserved (hh : (s.core gp).halted = true) (hd : s.d2For gp = true) (hst : fld val 30 29 = 3) :
    ∃ t, exec (.dbgSelGo ag gp val) s = .next t ∧ t.rf (corePg gp + 0x1100) 28 28 = 0 ∧ t.cores = s.cores
      ∧ ∀ k, k < 32 → t.rd (corePg gp + 0x1200 + 4 * k) = 0 := by
  have hsel := State.dbgSel_granted (fld_go_bit val) hh hd
  rw [State.fetched, fld_go val (by decide), if_pos hst] at hsel
  have hx := exec_dbgSelGo (val := val) hgp hmay
  rw [hsel] at hx
  obtain ⟨hrd, hrow⟩ := ((s.selected gp (val ||| 0x80000000)).wf (corePg gp + 0x1100) 28 28 0).dbgRow_window gp 0
  refine ⟨_, hx, (State.rf_of_rd hrd ..).trans ?_, ?_, fun k hk => (hrow k hk).trans ?_⟩
  · rw [State.rf_wf_same _ (by decide)]
    rfl
  · rw [State.dbgRow_cores, State.wf_cores, State.selected, State.wr_cores]
  · simp

theorem dbgSelGo_denied (h : (s.core gp).halted = false ∨ s.d2For gp = false) :
    ∃ t, exec (.dbgSelGo ag gp val) s = .next t ∧ t.rf (corePg gp + 0x1100) 28 28 = 1 ∧ ∀ k, k < 32 → t.rd (corePg gp + 0x1200 + 4 * k) = 0 := by
  have hx := exec_dbgSelGo (val := val) hgp hmay
  rw [State.dbgSel_denied (fld_go_bit val) h] at hx
  obtain ⟨hrd, hrow⟩ := ((s.selected gp (val ||| 0x80000000)).wf (corePg gp + 0x1100) 28 28 1).dbgRow_window gp 0
  refine ⟨_, hx, (State.rf_of_rd hrd ..).trans ?_, fun k hk => (hrow k hk).trans ?_⟩
  · rw [State.rf_wf_same _ (by decide)]
    rfl
  · simp

end

/-- Settles O46: sessions and halts by their equations; a fetch by the cycle that serves it, in a core where nothing else is due. -/
theorem debugSessionControl : Obligations.DebugSessionControl := by
  unfold Obligations.DebugSessionControl
  exact ⟨close_rules, fun s d hd hlevel hleft => debugSessionExpire_closes hd hlevel hleft,
    fun ag gp s hgp hmay => ⟨halt_halts hgp hmay, run_runs hgp hmay⟩,
    fun ag gp val s hgp hmay => ⟨dbgSelGo_shows hgp hmay, dbgSelGo_reserved hgp hmay, dbgSelGo_denied hgp hmay⟩⟩

end Sys2Proof.Machine

/-! What keeps the beat of the stroke generator (R32, R36, R47). -/

namespace Sys2Proof.Machine

/-- The beat of the stroke generator: the base and the length of the stroke, the seam a commit is armed for, and whether this stroke's seam has
been (R32, R36, R47). -/
def State.pulse (s : State) : Nat × Nat × Option Nat × Bool := (s.gen.base, s.gen.len, s.gen.armed, s.gen.seamDone)

/-- The beat of a state built field by field. -/
theorem State.pulse_mk (regs shadow gen cores supp suppNext cap win winPar recQ net arrived mem dbg perturbed nextXfer xfers reqs memWrs class2 flows
      ceBursts openPages hotDevs patrolAt xbarRR netRR vcCov repairs retirePend dramBrand brandBase dramUpset slices sliceUpset
      sliceBrand sliceZero qa qb vecHeld cache engines links posted live barriers girth0 girth1 keys treeFaults combFaults out
      badLinks netDegrade netPend held memHeld aon flash pow asy asyTurn asyTgt asyFrom asyAt reserve heals cfgLost rst dump
      dumpWait dumpSlots dumpNext resend log recent streamSeq update time entropyBad epRetire nonceCtr jtag freeCtr pending) :
    State.pulse ⟨regs, shadow, gen, cores, supp, suppNext, cap, win, winPar, recQ, net, arrived, mem, dbg, perturbed, nextXfer, xfers, reqs,
      memWrs, class2, flows, ceBursts, openPages, hotDevs, patrolAt, xbarRR, netRR, vcCov, repairs, retirePend, dramBrand,
      brandBase, dramUpset, slices, sliceUpset, sliceBrand, sliceZero, qa, qb, vecHeld, cache, engines, links, posted, live,
      barriers, girth0, girth1, keys, treeFaults, combFaults, out, badLinks, netDegrade, netPend, held, memHeld, aon, flash, pow,
      asy, asyTurn, asyTgt, asyFrom, asyAt, reserve, heals, cfgLost, rst, dump, dumpWait, dumpSlots, dumpNext, resend, log, recent,
      streamSeq, update, time, entropyBad, epRetire, nonceCtr, jtag, freeCtr, pending⟩ = (gen.base, gen.len, gen.armed, gen.seamDone) := id rfl

/-- The beat of a state, read from its fields. -/
theorem State.pulse_eta (s : State) : (s.gen.base, s.gen.len, s.gen.armed, s.gen.seamDone) = s.pulse := id rfl

/-- A fold of steps that each keep the beat keeps it. -/
theorem State.foldl_pulse {α : Type} {f : State → α → State} (h : ∀ t x, (f t x).pulse = t.pulse) (l : List α) (s : State) :
    (l.foldl f s).pulse = s.pulse := by
  induction l generalizing s with
  | nil => rfl
  | cons x r ih => exact (ih _).trans (h s x)

theorem State.wr_pulse (s : State) (a : Nat) (v : Word) : (s.wr a v).pulse = s.pulse := by
  simp only [State.wr, State.pulse_mk, State.pulse_eta]

theorem State.wf_pulse (s : State) (a : Nat) (hi : Nat) (lo : Nat) (v : Nat) : (s.wf a hi lo v).pulse = s.pulse := by
  simp only [State.wf, State.wr_pulse]

theorem State.setGenBit_pulse (s : State) (n : Nat) (b : Bool) : (s.setGenBit n b).pulse = s.pulse := by
  simp only [State.setGenBit, State.wf_pulse]

theorem State.bump_pulse (s : State) (a : Nat) (hi : Nat) (lo : Nat) (n : Nat) : (s.bump a hi lo n).pulse = s.pulse := by
  simp only [State.bump, State.wf_pulse]

theorem State.fresh_pulse (s : State) : (s.fresh).2.pulse = s.pulse := by
  simp only [State.fresh, State.pulse_mk, State.pulse_eta]

theorem State.modFlash_pulse (s : State) (f : Flash → Flash) : (s.modFlash f).pulse = s.pulse := by
  simp only [State.modFlash, State.pulse_mk, State.pulse_eta]

theorem State.modAon_pulse (s : State) (f : Aon → Aon) : (s.modAon f).pulse = s.pulse := by
  simp only [State.modAon, State.pulse_mk, State.pulse_eta]

theorem State.setAsy_pulse (s : State) (gp : Nat) (x : AsyCore) : (s.setAsy gp x).pulse = s.pulse := by
  simp only [State.setAsy, State.pulse_mk, State.pulse_eta]

theorem State.modAsy_pulse (s : State) (gp : Nat) (f : AsyCore → AsyCore) : (s.modAsy gp f).pulse = s.pulse := by
  simp only [State.modAsy, State.setAsy_pulse]

theorem State.setCore_pulse (s : State) (gp : Nat) (c : Core) : (s.setCore gp c).pulse = s.pulse := by
  simp only [State.setCore, State.pulse_mk, State.pulse_eta]

theorem State.modCore_pulse (s : State) (gp : Nat) (f : Core → Core) : (s.modCore gp f).pulse = s.pulse := by
  simp only [State.modCore, State.setCore_pulse]

theorem State.asyRestore_pulse (s : State) (gp : Nat) : (s.asyRestore gp).pulse = s.pulse := by
  simp only [State.asyRestore, State.modCore_pulse, State.setAsy_pulse]

theorem State.abandonSegment_pulse (s : State) (gp : Nat) : (s.abandonSegment gp).pulse = s.pulse := by
  unfold State.abandonSegment
  split <;> simp only [State.asyRestore_pulse, State.modAsy_pulse]

theorem State.dropArrival_pulse (s : State) (i : Nat) : (s.dropArrival i).pulse = s.pulse := by
  simp only [State.dropArrival, State.pulse_mk, State.pulse_eta]

theorem State.setBkl_pulse (s : State) (i : Nat) (n : Nat) (b : Bool) : (s.setBkl i n b).pulse = s.pulse := by
  simp only [State.setBkl, State.wf_pulse]

theorem State.dropWaiter_pulse (s : State) (gp : Nat) : (s.dropWaiter gp).pulse = s.pulse := by
  unfold State.dropWaiter
  split <;> simp only [State.setBkl_pulse, State.modCore_pulse]

theorem State.wr64_pulse (s : State) (a : Nat) (v : Nat) : (s.wr64 a v).pulse = s.pulse := by
  simp only [State.wr64, State.wr_pulse]

theorem State.writeCapture_pulse (s : State) (pg : Nat) (bitNo : Nat) (sev : Nat) (cls : Nat) (cyc : Nat) (synd : BitVec 64) :
    (s.writeCapture pg bitNo sev cls cyc synd).pulse = s.pulse := by
  simp only [State.writeCapture, State.pulse_mk, State.pulse_eta, State.wr64_pulse, State.wr_pulse]

theorem State.capture_pulse (s : State) (pg : Nat) (bitNo : Nat) (sev : Nat) (cls : Nat) (cyc : Nat) (synd : BitVec 64) :
    (s.capture pg bitNo sev cls cyc synd).pulse = s.pulse := by
  simp only [State.capture]
  repeat' split
  all_goals simp only [State.writeCapture_pulse]

theorem State.errUp_pulse (s : State) (pg : Nat) (ue : Bool) : (s.errUp pg ue).pulse = s.pulse := by
  simp only [State.errUp, apply_ite State.pulse, ite_self, State.wf_pulse, State.bump_pulse]

theorem State.countErr_pulse (s : State) (pg : Nat) (bitNo : Nat) (sev : Nat) : (s.countErr pg bitNo sev).pulse = s.pulse := by
  simp only [State.countErr, apply_ite State.pulse, ite_self, State.wf_pulse, State.errUp_pulse]

theorem State.suppMark_pulse (s : State) (cyc : Nat) (pg : Nat) (cls : Nat) : (s.suppMark cyc pg cls).pulse = s.pulse := by
  unfold State.suppMark
  split <;> simp only [State.pulse_mk, State.pulse_eta]

theorem State.emit_pulse (s : State) (r : Rec) : (s.emit r).pulse = s.pulse := by
  simp only [State.emit, State.pulse_mk, State.pulse_eta]

theorem State.emitCore_pulse (s : State) (gp : Nat) (bitNo : Nat) (sev : Nat) (cls : Nat) (cyc : Nat) (synd : BitVec 64) :
    (s.emitCore gp bitNo sev cls cyc synd).pulse = s.pulse := by
  simp only [State.emitCore, apply_ite State.pulse, ite_self, State.suppMark_pulse, State.emit_pulse]

theorem State.coreErr_pulse (s : State) (gp : Nat) (sev : Nat) (cls : Nat) (cyc : Nat) (synd : BitVec 64) :
    (s.coreErr gp sev cls cyc synd).pulse = s.pulse := by
  simp only [State.coreErr, State.countErr_pulse, State.emitCore_pulse, State.capture_pulse]

theorem State.brandFail_pulse (s : State) (gp : Nat) (cyc : Nat) (ue : Bool) (synd : BitVec 64) : (s.brandFail gp cyc ue synd).pulse = s.pulse := by
  unfold State.brandFail
  split <;> simp only [State.bump_pulse, State.coreErr_pulse]

theorem State.outUnit_pulse (s : State) (gp : Nat) (ring : Nat) (unit : Nat) (la : Option Nat) (b : Option Word) (ue : Bool) (rows : List Entry) :
    (s.outUnit gp ring unit la b ue rows).2.pulse = s.pulse := by
  unfold State.outUnit
  repeat' split
  all_goals simp only [State.brandFail_pulse]

theorem State.finishPkt_pulse (s : State) (gp : Nat) (p : OutPkt) : (s.finishPkt gp p).2.pulse = s.pulse := by
  simp only [State.finishPkt]
  repeat' split
  all_goals simp only [State.outUnit_pulse]

theorem State.endPacket_pulse (s : State) (gp : Nat) (p : OutPkt) : (s.endPacket gp p).pulse = s.pulse := by
  simp only [State.endPacket, State.pulse_mk, State.pulse_eta, State.finishPkt_pulse]

theorem State.cutPackets_pulse (s : State) (gp : Nat) : (s.cutPackets gp).pulse = s.pulse := by
  unfold State.cutPackets
  refine State.foldl_pulse (fun t x => ?_) _ _
  simp only [State.endPacket_pulse]

theorem State.setCtxEng_pulse (s : State) (c : Nat) (e : CtxEng) : (s.setCtxEng c e).pulse = s.pulse := by
  simp only [State.setCtxEng, State.pulse_mk, State.pulse_eta]

theorem State.releaseHalts_pulse (s : State) (ctx : Nat) : (s.releaseHalts ctx).pulse = s.pulse := by
  unfold State.releaseHalts
  refine State.foldl_pulse (fun t x => ?_) _ _
  split <;> simp only [State.modCore_pulse]

theorem State.closeSession_pulse (s : State) : (s.closeSession).pulse = s.pulse := by
  unfold State.closeSession
  repeat' split
  all_goals simp only [State.pulse_mk, State.pulse_eta, State.releaseHalts_pulse]

theorem State.setKeys_pulse (s : State) (gp : Nat) (key : Nat → BitVec 64) : (s.setKeys gp key).pulse = s.pulse := by
  simp only [State.setKeys, State.modCore_pulse]

theorem State.seedKeys_pulse (s : State) (gp : Nat) : (s.seedKeys gp).pulse = s.pulse := by
  simp only [State.seedKeys, State.setKeys_pulse]

theorem State.freshKeys_pulse (s : State) (gp : Nat) : (s.freshKeys gp).pulse = s.pulse := by
  unfold State.freshKeys
  split <;> simp only [State.pulse_mk, State.pulse_eta, State.wf_pulse, State.bump_pulse, State.setKeys_pulse]

theorem State.noteSlice_pulse (s : State) (src : Nat) : (s.noteSlice src).pulse = s.pulse := by
  simp only [State.noteSlice, State.pulse_mk, State.pulse_eta]

theorem State.chipRec_pulse (s : State) (pg : Nat) (sev : Nat) (cls : Nat) (cyc : Nat) (synd : BitVec 64) (ctx : optParam (Option Nat) none) :
    (s.chipRec pg sev cls cyc synd ctx).pulse = s.pulse := by
  unfold State.chipRec
  split <;> simp only [State.emit_pulse]

theorem State.requestDrain_pulse (s : State) (cause : Nat) (region : Nat) (block : Nat) (src : Nat) (cyc : Nat) :
    (s.requestDrain cause region block src cyc).pulse = s.pulse := by
  simp only [State.requestDrain, apply_ite State.pulse, ite_self, State.pulse_mk, State.pulse_eta, State.chipRec_pulse, State.wf_pulse,
      State.noteSlice_pulse]

theorem State.send_pulse (s : State) (o : Out) : (s.send o).pulse = s.pulse := by
  simp only [State.send, State.pulse_mk, State.pulse_eta]

theorem State.repairLine_pulse (s : State) (bad : List Nat) (l : SramLine) : (s.repairLine bad l).1.pulse = s.pulse := by
  simp only [State.repairLine]
  repeat' split
  all_goals simp only [State.modFlash_pulse, State.requestDrain_pulse]

theorem State.setQ_pulse (s : State) (p : QPort) (x : QState) : (s.setQ p x).pulse = s.pulse := by
  unfold State.setQ
  split <;> simp only [State.pulse_mk, State.pulse_eta]

theorem State.flit_pulse (s : State) (p : QPort) (idle : Bool) (nak : Bool) (slots : List (BitVec 128)) :
    (s.flit p idle nak slots).pulse = s.pulse := by
  simp only [State.flit]
  split <;> simp only [State.setQ_pulse, State.send_pulse]

theorem State.qNakFlush_pulse (s : State) (p : QPort) : (s.qNakFlush p).pulse = s.pulse := by
  simp only [State.qNakFlush]
  split <;> simp only [State.flit_pulse, State.setQ_pulse]

theorem State.modCtx_pulse (s : State) (c : Nat) (f : CtxEng → CtxEng) : (s.modCtx c f).pulse = s.pulse := by
  simp only [State.modCtx, State.setCtxEng_pulse]

theorem State.slotSeen_pulse (s : State) (c : Nat) (i : Nat) (r : Row) : (s.slotSeen c i r).pulse = s.pulse := by
  simp only [State.slotSeen, State.modCtx_pulse]

theorem State.setTaken_pulse (s : State) (c : Nat) (l : List Nat) : (s.setTaken c l).pulse = s.pulse := by
  simp only [State.setTaken, State.wf_pulse, State.modCtx_pulse]

theorem State.modPow_pulse (s : State) (f : Power → Power) : (s.modPow f).pulse = s.pulse := by
  simp only [State.modPow, State.pulse_mk, State.pulse_eta]

theorem State.setLink_pulse (s : State) (p : Nat) (l : FabLink) : (s.setLink p l).pulse = s.pulse := by
  simp only [State.setLink, State.pulse_mk, State.pulse_eta]

theorem State.credRegs_pulse (s : State) (p : Nat) : (s.credRegs p).pulse = s.pulse := by
  unfold State.credRegs
  refine State.foldl_pulse (fun t x => ?_) _ _
  simp only [State.wf_pulse]

theorem State.setBarrier_pulse (s : State) (g : Nat) (b : Barrier) : (s.setBarrier g b).pulse = s.pulse := by
  simp only [State.setBarrier, State.pulse_mk, State.pulse_eta]

theorem State.bklDeny_pulse (s : State) (i : Nat) : (s.bklDeny i).pulse = s.pulse := by
  simp only [State.bklDeny, State.bump_pulse]

theorem State.followPath_pulse (s : State) (t : Nat) : (s.followPath t).pulse = s.pulse := by
  simp only [State.followPath, apply_ite State.pulse, ite_self, State.chipRec_pulse, State.wf_pulse]

theorem State.showLimit_pulse (s : State) : (s.showLimit).pulse = s.pulse := by
  simp only [State.showLimit, State.wf_pulse]

theorem State.setTurn_pulse (s : State) (region : Nat) (o : Option Nat) : (s.setTurn region o).pulse = s.pulse := by
  simp only [State.setTurn, State.pulse_mk, State.pulse_eta]

theorem State.dbgRow_pulse (s : State) (gp : Nat) (r : Row) : (s.dbgRow gp r).pulse = s.pulse := by
  unfold State.dbgRow
  refine State.foldl_pulse (fun t x => ?_) _ _
  simp only [State.wr_pulse]

theorem State.tick_pulse (s : State) (a : Nat) (n : Nat) : (s.tick a n).pulse = s.pulse := by
  simp only [State.tick, State.pulse_mk, State.pulse_eta]

theorem State.asySave_pulse (s : State) (gp : Nat) (la : Nat) : (s.asySave gp la).pulse = s.pulse := by
  simp only [State.asySave, State.fresh_pulse, State.modAsy_pulse, State.setCore_pulse]

theorem State.putRow_pulse (s : State) (gp : Nat) (la : Nat) (r : Row) : (s.putRow gp la r).pulse = s.pulse := by
  simp only [State.putRow]
  split <;> simp only [State.modCore_pulse, State.setAsy_pulse]

theorem State.ringWrite_pulse (s : State) (gp : Nat) (n : Nat) (ptr : Nat) (gen : Nat) (la : Nat) (e : Entry) (f : Option (Flight × Nat)) :
    (s.ringWrite gp n ptr gen la e f).pulse = s.pulse := by
  simp only [State.ringWrite]
  repeat' split
  all_goals simp only [State.bump_pulse, State.putRow_pulse, State.setCore_pulse]

theorem State.doWrite_pulse (s : State) (gp : Nat) (a : Access) (port : Nat) (idx : Nat) (dst : WrDst) :
    (s.doWrite gp a port idx dst).pulse = s.pulse := by
  simp only [State.doWrite]
  repeat' split
  all_goals simp only [State.ringWrite_pulse, State.modCore_pulse, State.putRow_pulse, State.setCore_pulse]

theorem State.sticky_pulse (s : State) (gp : Nat) (tile : Nat) (bitNo : Nat) : (s.sticky gp tile bitNo).pulse = s.pulse := by
  simp only [State.sticky, State.wf_pulse]

theorem State.accChecks_pulse (s : State) (gp : Nat) (cyc : Nat) (f : Flight) : (s.accChecks gp cyc f).pulse = s.pulse := by
  simp only [State.accChecks]
  repeat' split
  all_goals simp only [State.modCore_pulse, State.sticky_pulse]

theorem State.replayCapture_pulse (s : State) (gp : Nat) (f : Flight) (els : List (BitVec 46)) : (s.replayCapture gp f els).pulse = s.pulse := by
  simp only [State.replayCapture]
  split <;> simp only [State.modCore_pulse]

theorem State.disputeCapture_pulse (s : State) (gp : Nat) (f : Flight) (els : List (BitVec 46)) : (s.disputeCapture gp f els).pulse = s.pulse := by
  unfold State.disputeCapture
  repeat' split
  all_goals simp only [State.modCore_pulse]

theorem State.orBits_pulse (s : State) (a : Nat) (bits : Nat) : (s.orBits a bits).pulse = s.pulse := by
  simp only [State.orBits, State.wr_pulse]

theorem State.pcaStep_pulse (s : State) (gp : Nat) (cyc : Nat) (tile : Nat) (idx : Nat) (pca : Nat) (pset : Nat) :
    (s.pcaStep gp cyc tile idx pca pset).pulse = s.pulse := by
  simp only [State.pcaStep]
  split <;> simp only [State.modCore_pulse, State.coreErr_pulse, State.sticky_pulse]

theorem State.finishAcc_pulse (s : State) (gp : Nat) (cyc : Nat) (f : Flight) (a : AccArgs) : (s.finishAcc gp cyc f a).pulse = s.pulse := by
  simp only [State.finishAcc, apply_ite State.pulse, ite_self, State.disputeCapture_pulse, State.pcaStep_pulse, State.setCore_pulse,
      State.orBits_pulse,
      State.sticky_pulse, State.replayCapture_pulse]

theorem State.finishLoadTile_pulse (s : State) (gp : Nat) (cyc : Nat) (f : Flight) (a : LoadTileArgs) :
    (s.finishLoadTile gp cyc f a).pulse = s.pulse := by
  simp only [State.finishLoadTile]
  split <;> simp only [State.pcaStep_pulse, State.setCore_pulse]

theorem State.finishDrain_pulse (s : State) (gp : Nat) (f : Flight) (a : DrainArgs) : (s.finishDrain gp f a).pulse = s.pulse := by
  simp only [State.finishDrain, apply_ite State.pulse, ite_self, State.modCore_pulse, State.orBits_pulse]

theorem State.finish_pulse (s : State) (gp : Nat) (cyc : Nat) (f : Flight) : (s.finish gp cyc f).pulse = s.pulse := by
  unfold State.finish
  split <;> simp only [State.finishLoadTile_pulse, State.modCore_pulse, State.finishAcc_pulse, State.orBits_pulse, State.finishDrain_pulse]

theorem State.capturesTo_pulse (s : State) (gp : Nat) (stop : Nat) : (s.capturesTo gp stop).pulse = s.pulse := by
  unfold State.capturesTo
  refine State.foldl_pulse (fun t x => ?_) _ _
  split <;> simp only [State.wf_pulse, State.wr_pulse]

theorem State.disputes_pulse (s : State) (gp : Nat) (cyc : Nat) (f : Flight) (tile : Nat) (rot : Nat) (ds : List Dispute) :
    (s.disputes gp cyc f tile rot ds).pulse = s.pulse := by
  simp only [State.disputes]
  repeat' split
  all_goals simp only [State.bump_pulse, State.modCore_pulse, State.wr_pulse, State.coreErr_pulse]

theorem State.armAdvance_pulse (s : State) (gp : Nat) (n : Nat) : (s.armAdvance gp n).pulse = s.pulse := by
  simp only [State.armAdvance]
  repeat' split
  all_goals simp only [State.setCore_pulse]

theorem State.armsAdvance_pulse (s : State) (gp : Nat) : (s.armsAdvance gp).pulse = s.pulse := by
  unfold State.armsAdvance
  refine State.foldl_pulse (fun t x => ?_) _ _
  simp only [State.armAdvance_pulse]

theorem State.cutShort_pulse (s : State) (gp : Nat) (f : Flight) : (s.cutShort gp f).pulse = s.pulse := by
  simp only [State.cutShort]
  repeat' split
  all_goals simp only [State.modCore_pulse, State.orBits_pulse, State.sticky_pulse]

theorem State.freeTile_pulse (s : State) (gp : Nat) (t : Nat) : (s.freeTile gp t).pulse = s.pulse := by
  simp only [State.freeTile, State.fresh_pulse, State.modCore_pulse]

theorem State.freeVec_pulse (s : State) (gp : Nat) : (s.freeVec gp).pulse = s.pulse := by
  simp only [State.freeVec, State.pulse_mk, State.pulse_eta, State.modCore_pulse]

theorem State.claimIn_pulse (s : State) (gp : Nat) (p : InPort) : (s.claimIn gp p).pulse = s.pulse := by
  unfold State.claimIn
  split <;> simp only [State.modCore_pulse]

theorem State.reserveOut_pulse (s : State) (gp : Nat) (outside : Bool) (p : OutPort) : (s.reserveOut gp outside p).pulse = s.pulse := by
  unfold State.reserveOut
  split <;> simp only [State.modCore_pulse]

theorem State.noteWait_pulse (s : State) (gp : Nat) (unit : Nat) (cyc : Nat) (q : QEnt) (op : Op) (ws : List Nat) :
    (s.noteWait gp unit cyc q op ws).pulse = s.pulse := by
  simp only [State.noteWait, State.modCore_pulse]

theorem State.tileState_pulse (s : State) (gp : Nat) (tile : Nat) (st : TileSt) (last : Nat) : (s.tileState gp tile st last).pulse = s.pulse := by
  simp only [State.tileState, State.modCore_pulse]

theorem State.flowNext_pulse (s : State) (gp : Nat) (dmod : Nat) (key : Nat) : (s.flowNext gp dmod key).2.2.pulse = s.pulse := by
  simp only [State.flowNext]
  split <;> simp only [State.wf_pulse, State.setCore_pulse]

theorem State.syncWait_pulse (s : State) (gp : Nat) (cyc : Nat) : (s.syncWait gp cyc).pulse = s.pulse := by
  simp only [State.syncWait, State.modCore_pulse]

theorem State.syncHold_pulse (s : State) (gp : Nat) (id : Nat) (b : Nat) : (s.syncHold gp id b).pulse = s.pulse := by
  simp only [State.syncHold, State.setBkl_pulse, State.modCore_pulse]

theorem State.pmemReport_pulse (s : State) (gp : Nat) (idx : Nat) (k : Nat) (ue : Bool) (ce : Bool) :
    (s.pmemReport gp idx k ue ce).pulse = s.pulse := by
  simp only [State.pmemReport, apply_ite State.pulse, ite_self, State.coreErr_pulse]

theorem State.seqStep_pulse (s : State) (gp : Nat) (k : Nat) (mine : Nat → Bool) : (s.seqStep gp k mine).pulse = s.pulse := by
  simp only [State.seqStep, apply_ite State.pulse, ite_self, State.setCore_pulse, State.pmemReport_pulse]

theorem State.timePass_pulse (s : State) (len : Nat) : (s.timePass len).pulse = s.pulse := by
  simp only [State.timePass]
  repeat' split
  all_goals simp only [State.pulse_mk, State.pulse_eta, State.closeSession_pulse, State.modAon_pulse]

theorem State.reference_pulse (s : State) (ph : ℤ) : (s.reference ph).pulse = s.pulse := by
  simp only [State.reference, State.pulse_mk, State.pulse_eta]

theorem State.sendBlock_pulse (s : State) (p : Nat) (body : Nat) : (s.sendBlock p body).pulse = s.pulse := by
  simp only [State.sendBlock, State.send_pulse]

theorem State.timeSyncSend_pulse (s : State) : (s.timeSyncSend).pulse = s.pulse := by
  unfold State.timeSyncSend
  refine State.foldl_pulse (fun t x => ?_) _ _
  split <;> simp only [State.sendBlock_pulse]

theorem State.repWindow_pulse (s : State) (p : Nat) : (s.repWindow p).pulse = s.pulse := by
  unfold State.repWindow
  split <;> simp only [State.setLink_pulse]

theorem State.enterIdle_pulse (s : State) (st : Nat) : (s.enterIdle st).pulse = s.pulse := by
  unfold State.enterIdle
  split <;> simp only [State.pulse_mk, State.pulse_eta, State.wf_pulse]

theorem State.stateStep_pulse (s : State) : (s.stateStep).pulse = s.pulse := by
  simp only [State.stateStep, apply_ite State.pulse, ite_self, State.wf_pulse, State.enterIdle_pulse, State.modPow_pulse]

theorem State.releaseRec_pulse (s : State) : (s.releaseRec).pulse = s.pulse := by
  simp only [State.releaseRec]
  repeat' split
  all_goals simp only [State.modPow_pulse, State.emit_pulse]

theorem State.nclkNow_pulse (s : State) : (s.nclkNow).pulse = s.pulse := by
  unfold State.nclkNow
  split <;> simp only [State.wf_pulse]

theorem State.powerStep_pulse (s : State) : (s.powerStep).pulse = s.pulse := by
  simp only [State.powerStep, apply_ite State.pulse, ite_self, State.wf_pulse, State.modPow_pulse]

theorem State.holdSensors_pulse (s : State) : (s.holdSensors).pulse = s.pulse := by
  simp only [State.holdSensors, State.modPow_pulse]

theorem State.powerBoundary_pulse (s : State) : (s.powerBoundary).pulse = s.pulse := by
  unfold State.powerBoundary
  split <;> simp only [State.wf_pulse, State.holdSensors_pulse, State.powerStep_pulse, State.releaseRec_pulse, State.wr_pulse, State.nclkNow_pulse,
      State.showLimit_pulse, State.modPow_pulse, State.stateStep_pulse]

theorem State.seqStart_pulse (s : State) (gp : Nat) : (s.seqStart gp).pulse = s.pulse := by
  simp only [State.seqStart]
  split <;> simp only [State.setCore_pulse]

theorem State.takeTurn_pulse (s : State) (gp : Nat) : (s.takeTurn gp).pulse = s.pulse := by
  simp only [State.takeTurn, State.pulse_mk, State.pulse_eta, State.setTurn_pulse]

theorem State.choose_pulse (s : State) (region : Nat) : (s.choose region).pulse = s.pulse := by
  unfold State.choose
  repeat' split
  all_goals simp only [State.takeTurn_pulse]

theorem State.assaySeam_pulse (s : State) (gp : Nat) : (s.assaySeam gp).pulse = s.pulse := by
  simp only [State.assaySeam, apply_ite State.pulse, ite_self, State.asyRestore_pulse, State.abandonSegment_pulse]

theorem State.seqPos_pulse (s : State) (gp : Nat) (u : Nat) (body : Nat) : (s.seqPos gp u body).2.pulse = s.pulse := by
  simp only [State.seqPos]
  split <;> simp only [State.fresh_pulse]

theorem State.bodyRecords_pulse (s : State) (gp : Nat) (w : Watch) : (s.bodyRecords gp w).pulse = s.pulse := by
  unfold State.bodyRecords
  repeat' split
  all_goals simp only [State.bump_pulse, State.coreErr_pulse]

theorem State.scrubSeam_pulse (s : State) (gp : Nat) (body : Nat) (rows : List Nat) : (s.scrubSeam gp body rows).pulse = s.pulse := by
  unfold State.scrubSeam
  split <;> simp only [State.modCore_pulse]

theorem State.asyShow_pulse (s : State) : (s.asyShow).pulse = s.pulse := by
  unfold State.asyShow
  refine State.foldl_pulse (fun t x => ?_) _ _
  split <;> simp only [State.wr_pulse]

theorem State.vcCount_pulse (s : State) (p : NetPkt) (now : Nat) : (s.vcCount p now).pulse = s.pulse := by
  unfold State.vcCount
  repeat' split
  all_goals simp only [State.pulse_mk, State.pulse_eta, State.tick_pulse]

theorem State.publishMc_pulse (s : State) : (s.publishMc).pulse = s.pulse := by
  unfold State.publishMc
  refine State.foldl_pulse (fun t x => ?_) _ _
  simp only [State.wf_pulse]

theorem State.peak_pulse (s : State) (a : Nat) (n : Nat) : (s.peak a n).pulse = s.pulse := by
  simp only [State.peak, State.pulse_mk, State.pulse_eta]

theorem State.peakQueue_pulse (s : State) (mc : Nat) : (s.peakQueue mc).pulse = s.pulse := by
  simp only [State.peakQueue, State.peak_pulse]

theorem State.bklSnap_pulse (s : State) (i : Nat) : (s.bklSnap i).pulse = s.pulse := by
  simp only [State.bklSnap, State.wr_pulse]

theorem State.setEntry_pulse (s : State) (a : Nat) (o : Option Nat) : (s.setEntry a o).pulse = s.pulse := by
  simp only [State.setEntry, State.wr_pulse]

theorem State.commitOne_pulse (s : State) (h : Nat) (p : Word) : (s.commitOne h p).pulse = s.pulse := by
  unfold State.commitOne
  split <;> simp only [State.wr_pulse]

theorem State.periodCommit_pulse (s : State) : (s.periodCommit).pulse = s.pulse := by
  simp only [State.periodCommit, State.wf_pulse, State.setGenBit_pulse]

theorem State.activate_pulse (s : State) (src : Nat) : (s.activate src).pulse = s.pulse := by
  simp only [State.activate, apply_ite State.pulse, ite_self, State.pulse_mk, State.pulse_eta, State.wf_pulse, State.wr_pulse, State.setGenBit_pulse]

theorem State.commitSrc_pulse (s : State) (t : Nat) : (s.commitSrc t).pulse = s.pulse := by
  simp only [State.commitSrc, apply_ite State.pulse, ite_self, State.setGenBit_pulse, State.activate_pulse, State.followPath_pulse]

theorem State.restartPasses_pulse (s : State) : (s.restartPasses).pulse = s.pulse := by
  simp only [State.restartPasses, State.pulse_mk, State.pulse_eta]

theorem State.confirm_pulse (s : State) (gp : Nat) (cause : Nat) (area : Nat) : (s.confirm gp cause area).pulse = s.pulse := by
  simp only [State.confirm, apply_ite State.pulse, ite_self, State.pulse_mk, State.pulse_eta]

theorem State.ringCommit_pulse (s : State) (old : State) (gp : Nat) (n : Nat) : (s.ringCommit old gp n).pulse = s.pulse := by
  simp only [State.ringCommit]
  split <;> simp only [State.wf_pulse, State.modCore_pulse]

theorem State.rngCommit_pulse (s : State) (old : State) (gp : Nat) : (s.rngCommit old gp).pulse = s.pulse := by
  simp only [State.rngCommit, apply_ite State.pulse, ite_self, State.wf_pulse, State.seedKeys_pulse, State.freshKeys_pulse]

theorem State.wakeAll_pulse (s : State) (i : Nat) (tok : Option (BitVec 16)) : (s.wakeAll i tok).pulse = s.pulse := by
  simp only [State.wakeAll, State.setBkl_pulse, State.modCore_pulse, State.foldl_pulse, implies_true]

theorem State.scrubRow_pulse (s : State) (gp : Nat) (la : Nat) : (s.scrubRow gp la).pulse = s.pulse := by
  simp only [State.scrubRow]
  split <;> simp only [State.fresh_pulse, State.setCore_pulse, State.coreErr_pulse, State.foldl_pulse, implies_true]

theorem State.departDone_pulse (s : State) (gp : Nat) : (s.departDone gp).pulse = s.pulse := by
  simp only [State.departDone]
  split <;> simp only [State.endPacket_pulse, State.setCore_pulse, State.foldl_pulse, implies_true]

theorem State.showPos_pulse (s : State) (gp : Nat) (body : Nat) : (s.showPos gp body).pulse = s.pulse := by
  simp only [State.showPos, State.seqPos_pulse, State.wr_pulse, State.foldl_pulse, implies_true]

theorem State.dueCheck_pulse (s : State) (gp : Nat) : (s.dueCheck gp).pulse = s.pulse := by
  simp only [State.dueCheck, apply_ite State.pulse, ite_self, State.wf_pulse, State.bump_pulse, State.wr_pulse, State.coreErr_pulse,
      State.foldl_pulse,
      implies_true]

theorem State.emptyTraces_pulse (s : State) (gp : Nat) (tokErr : Bool) : (s.emptyTraces gp tokErr).pulse = s.pulse := by
  simp only [State.emptyTraces, State.wr_pulse, State.setCore_pulse, State.foldl_pulse, implies_true]

theorem State.ledger_pulse (s : State) (gp : Nat) (body : Nat) (w : Watch) (q : Seq) (ovr : Bool) (complete : Bool) (st0 : TileSt) (st1 : TileSt) :
    (s.ledger gp body w q ovr complete st0 st1).pulse = s.pulse := by
  simp only [State.ledger, State.wr_pulse, State.foldl_pulse, implies_true]

theorem State.regionTables_pulse (s : State) (r : Nat) : (s.regionTables r).pulse = s.pulse := by
  simp only [State.regionTables, State.setEntry_pulse, State.foldl_pulse, implies_true]

theorem State.meshTables_pulse (s : State) : (s.meshTables).pulse = s.pulse := by
  simp only [State.meshTables, State.setEntry_pulse, State.foldl_pulse, implies_true]

theorem State.writeTables_pulse (s : State) : (s.writeTables).pulse = s.pulse := by
  simp only [State.writeTables, State.regionTables_pulse, State.meshTables_pulse, State.foldl_pulse, implies_true]

theorem State.adoptTables_pulse (s : State) : (s.adoptTables).pulse = s.pulse := by
  simp only [State.adoptTables, apply_ite State.pulse, ite_self, State.pulse_mk, State.pulse_eta, State.wf_pulse, State.writeTables_pulse,
      State.foldl_pulse, implies_true]

theorem State.eccReport_pulse (s : State) (gp la code cyc : Nat) (u : BitVec 1152) (l : List Nat) :
    (s.eccReport gp la code cyc u l).pulse = s.pulse := by
  induction l generalizing s with
  | nil => rfl
  | cons w r ih =>
    unfold State.eccReport
    extract_lets m syn t
    rw [ih t]
    unfold t
    split <;> simp only [State.coreErr_pulse]

theorem State.qFlushList_pulse (s : State) (p : QPort) (l : List QMsg) (blocked : List Nat) : (s.qFlushList p l blocked).pulse = s.pulse := by
  induction l generalizing s blocked with
  | nil => rfl
  | cons m r ih =>
    rw [State.qFlushList]
    dsimp only
    split
    · rw [ih, State.flit_pulse, State.send_pulse, State.setQ_pulse]
    · exact ih s _

theorem State.linkFlush_pulse (s : State) (p n : Nat) : (s.linkFlush p n).pulse = s.pulse := by
  induction n generalizing s with
  | zero => rfl
  | succ n ih =>
    rw [State.linkFlush]
    split
    · rw [ih, State.send_pulse, State.setLink_pulse]
    · rfl

theorem State.finishAll_pulse (s : State) (gp cyc : Nat) (l : List Flight) : (s.finishAll gp cyc l).pulse = s.pulse := by
  induction l generalizing s with
  | nil => rfl
  | cons f r ih => simp only [State.finishAll, apply_ite State.pulse, ih, State.modCore_pulse, State.finish_pulse, ite_self]

theorem State.runBist_pulse (s : State) (b : BistResult) : (s.runBist b).1.pulse = s.pulse := by
  have hline (l : List _) (x : State × List Nat) : (l.foldl (fun (x : State × List Nat) l => x.1.repairLine x.2 l) x).1.pulse = x.1.pulse := by
    induction l generalizing x with
    | nil => rfl
    | cons r l ih => exact (ih _).trans (x.1.repairLine_pulse x.2 r)
  simp only [State.runBist, State.foldl_pulse, State.requestDrain_pulse, implies_true, hline]

theorem State.disputesTo_pulse (s : State) (gp stop : Nat) : (s.disputesTo gp stop).pulse = s.pulse := by
  simp only [State.disputesTo]
  split
  · rfl
  · refine (State.foldl_pulse (fun t p => ?_) _ _).trans (State.modCore_pulse ..)
    split
    · exact State.disputes_pulse ..
    · rfl

theorem State.takeIn_pulse (gp cyc fl rank code : Nat) (op : Op) (x : State × List Access) (p : InPort) :
    (State.takeIn gp cyc fl rank code op x p).1.pulse = x.1.pulse := State.claimIn_pulse ..

theorem State.takeOut_pulse (gp cyc fl rank code : Nat) (outside : Bool) (x : State × List Access) (p : OutPort) :
    (State.takeOut gp cyc fl rank code outside x p).1.pulse = x.1.pulse := State.reserveOut_pulse ..

theorem State.numberPkts_pulse (s : State) (gp dmod key : Nat) (l : List OutPkt) : (s.numberPkts gp dmod key l).2.pulse = s.pulse := by
  induction l generalizing s with
  | nil => rfl
  | cons p r ih => exact (ih _).trans (s.flowNext_pulse gp dmod key)

theorem feedFired_pulse (gp : Nat) (s : State) (n : Nat) (q : QEnt) (op : Op) : (feedFired gp s n q op).pulse = s.pulse := by
  unfold feedFired
  split
  · exact State.setCore_pulse ..
  · rfl

theorem loadActFired_pulse (gp : Nat) (s : State) (n : Nat) (q : QEnt) (op : Op) : (loadActFired gp s n q op).pulse = s.pulse := by
  unfold loadActFired
  split
  · exact State.wr_pulse ..
  · rfl

theorem tileFired_pulse (gp cyc : Nat) (s : State) (n : Nat) (q : QEnt) (op : Op) : (tileFired gp cyc s n q op).pulse = s.pulse := by
  unfold tileFired
  split <;> simp only [State.tileState_pulse]

theorem armFired_pulse (gp : Nat) (s : State) (n : Nat) (q : QEnt) (op : Op) : (armFired gp s n q op).pulse = s.pulse := by
  unfold armFired
  split
  · exact State.modCore_pulse ..
  · rfl

theorem disarmFired_pulse (gp : Nat) (s : State) (n : Nat) (q : QEnt) (op : Op) : (disarmFired gp s n q op).pulse = s.pulse := by
  unfold disarmFired
  split
  · exact State.modCore_pulse ..
  · rfl

theorem syncAddFired_pulse (gp : Nat) (s : State) (n : Nat) (q : QEnt) (op : Op) : (syncAddFired gp s n q op).pulse = s.pulse := by
  unfold syncAddFired
  split
  · simp only [State.pulse_mk, State.pulse_eta, State.flowNext_pulse]
  · rfl

theorem waitbFired_pulse (gp cyc : Nat) (s : State) (n : Nat) (q : QEnt) (op : Op) : (waitbFired gp cyc s n q op).pulse = s.pulse := by
  unfold waitbFired
  split
  · simp only [apply_ite State.pulse, State.modCore_pulse, State.syncWait_pulse, State.syncHold_pulse, ite_self]
  · rfl

theorem tokenFired_pulse (gp cyc : Nat) (s : State) (n : Nat) (q : QEnt) (op : Op) : (tokenFired gp cyc s n q op).pulse = s.pulse := by
  unfold tokenFired
  split
  · simp only [apply_ite State.pulse, State.modCore_pulse, State.setBkl_pulse, State.syncWait_pulse, State.syncHold_pulse, ite_self]
  · rfl

theorem State.asyBoundary_pulse (s : State) : (s.asyBoundary).pulse = s.pulse := by
  have hturn (t : State) (p : Nat × Option Nat) : (match p.2 with
      | some gp => t.modAsy gp (fun x => { x with idle := if x.gained then 0 else x.idle + 1, gained := false })
      | none => t : State).pulse = t.pulse := by
    split <;> simp only [State.modAsy_pulse]
  simp only [State.asyBoundary, apply_ite State.pulse, State.foldl_pulse, State.choose_pulse, implies_true, ite_self]
  exact State.foldl_pulse hturn _ _

theorem State.pairRefs_pulse (s : State) (rs ls : List Nat) : (s.pairRefs rs ls).pulse = s.pulse := by
  induction rs generalizing s ls with
  | nil => simp only [State.pairRefs, State.pulse_mk, State.pulse_eta]
  | cons r rs ih =>
    cases ls with
    | nil => simp only [State.pairRefs, State.pulse_mk, State.pulse_eta]
    | cons l ls => rw [State.pairRefs, ih, State.reference_pulse]

theorem State.publish_pulse (s : State) (now : Nat) : (s.publish now).pulse = s.pulse := by
  unfold State.publish
  rw [State.foldl_pulse (fun t mc => State.peakQueue_pulse t mc), State.pulse_mk, State.pulse_eta, State.foldl_pulse (fun t p => ?_),
    State.publishMc_pulse, State.pulse_mk, State.pulse_eta, State.foldl_pulse (fun t p => State.vcCount_pulse t p now)]
  extract_lets a
  split <;> simp only [State.bump_pulse]

theorem State.storeRead_pulse (s : State) (gp : Nat) (la : Nat) (code : Nat) (cyc : Nat) : (s.storeRead gp la code cyc).2.pulse = s.pulse := by
  simp only [State.storeRead]
  repeat' split
  all_goals simp only [State.modCore_pulse, State.eccReport_pulse]

theorem State.shutGo_pulse (s : State) : (s.shutGo).pulse = s.pulse := by
  simp only [State.shutGo]
  repeat' split
  all_goals simp only [State.wf_pulse, State.modFlash_pulse, State.modAon_pulse, State.runBist_pulse]

theorem State.qFlush_pulse (s : State) (p : QPort) : (s.qFlush p).pulse = s.pulse := by
  fun_cases State.qFlush s p <;> simp only [State.qFlushList_pulse, State.qNakFlush_pulse]

theorem State.qMsg_pulse (s : State) (p : QPort) (m : QMsg) : (s.qMsg p m).pulse = s.pulse := by
  fun_cases State.qMsg s p m
  simp only [State.qFlush_pulse, State.setQ_pulse]

theorem State.qReq_pulse (s : State) (p : QPort) (op : Nat) (addr : Nat) (data : List Row) (why : QWhy) :
    (s.qReq p op addr data why).pulse = s.pulse := by
  fun_cases State.qReq s p op addr data why
  simp +zetaDelta only [State.setQ_pulse, State.qMsg_pulse]

theorem State.intWr_pulse (s : State) (p : QPort) (v : Nat) (fault : Bool) : (s.intWr p v fault).pulse = s.pulse := by
  fun_cases State.intWr s p v fault
  simp only [State.qReq_pulse]

theorem State.notify_pulse (s : State) (p : QPort) (v : Nat) (fault : Bool) : (s.notify p v fault).pulse = s.pulse := by
  fun_cases State.notify s p v fault <;> simp +zetaDelta only [State.pulse_mk, State.pulse_eta, State.wf_pulse, State.intWr_pulse]

theorem State.linkGo_pulse (s : State) (p : Nat) : (s.linkGo p).pulse = s.pulse := by
  fun_cases State.linkGo s p <;> simp only [State.credRegs_pulse, State.linkFlush_pulse]

theorem State.linkSend_pulse (s : State) (p : Nat) (k : Packet) : (s.linkSend p k).pulse = s.pulse := by
  fun_cases State.linkSend s p k
  simp only [State.linkGo_pulse, State.setLink_pulse]

theorem State.bklEvent_pulse (s : State) (i : Nat) (fault : Bool) : (s.bklEvent i fault).pulse = s.pulse := by
  fun_cases State.bklEvent s i fault <;> simp only [State.notify_pulse, State.bklDeny_pulse]

theorem State.bklRelease_pulse (s : State) (i : Nat) (fault : Bool) : (s.bklRelease i fault).pulse = s.pulse := by
  fun_cases State.bklRelease s i fault <;> simp +zetaDelta only [State.pulse_mk, State.pulse_eta, State.bklEvent_pulse, State.setBkl_pulse,
      State.wakeAll_pulse]

theorem State.barRelease_pulse (s : State) (g : Nat) (fault : Bool) (i : Nat) : (s.barRelease g fault i).pulse = s.pulse := by
  simp only [State.barRelease, apply_ite State.pulse, ite_self, State.bklRelease_pulse, State.setBkl_pulse]

theorem State.barComplete_pulse (s : State) (g : Nat) (down : Bool) (epoch : Nat) : (s.barComplete g down epoch).pulse = s.pulse := by
  fun_cases State.barComplete s g down epoch <;> simp +zetaDelta only [State.wf_pulse, State.bump_pulse, State.setBarrier_pulse,
      State.barRelease_pulse,
      State.linkSend_pulse, State.foldl_pulse, implies_true]

theorem State.doRead_pulse (s : State) (gp : Nat) (cyc : Nat) (a : Access) (port : Nat) (idx : Nat) (src : RdSrc) :
    (s.doRead gp cyc a port idx src).pulse = s.pulse := by
  simp only [State.doRead]
  repeat' split
  all_goals simp only [State.asySave_pulse, State.scrubRow_pulse, State.dbgRow_pulse, State.modCore_pulse, State.storeRead_pulse]

theorem State.serve_pulse (s : State) (gp : Nat) (cyc : Nat) (a : Access) : (s.serve gp cyc a).pulse = s.pulse := by
  fun_cases State.serve s gp cyc a <;> simp +zetaDelta only [State.doRead_pulse, State.setCore_pulse, State.doWrite_pulse]

theorem State.cycle_pulse (s : State) (gp : Nat) (cyc : Nat) : (s.cycle gp cyc).pulse = s.pulse := by
  simp only [State.cycle, apply_ite State.pulse, ite_self, State.serve_pulse, State.finishAll_pulse, State.accChecks_pulse, State.setCore_pulse,
      State.foldl_pulse, implies_true]

theorem State.disputesAll_pulse (s : State) (gp : Nat) : (s.disputesAll gp).pulse = s.pulse := by
  fun_cases State.disputesAll s gp
  simp only [State.disputesTo_pulse]

theorem State.stopPattern_pulse (s : State) (gp : Nat) (cyc : Nat) : (s.stopPattern gp cyc).pulse = s.pulse := by
  simp only [State.stopPattern, apply_ite State.pulse, ite_self, State.cutPackets_pulse, State.disputesAll_pulse, State.modCore_pulse,
      State.freeTile_pulse, State.cutShort_pulse, State.freeVec_pulse, State.foldl_pulse, implies_true]

theorem State.openPackets_pulse (s : State) (gp : Nat) (id : Nat) (src : Sel) (rows : Nat) (step : Nat) (last : Bool) (hdr : Packet) (flow : Option
    (Nat × Nat)) : (s.openPackets gp id src rows step last hdr flow).pulse = s.pulse := by
  simp only [State.openPackets]
  split <;> simp only [State.numberPkts_pulse, State.modCore_pulse]

theorem State.takeSlot_pulse (s : State) (c : Nat) : (s.takeSlot c).pulse = s.pulse := by
  fun_cases State.takeSlot s c <;> simp +zetaDelta only [State.wf_pulse, State.bump_pulse, State.setTaken_pulse, State.modCtx_pulse, State.qReq_pulse]

theorem State.companionWrite_pulse (s : State) (p : QPort) (addr : Nat) (row : Row) (why : QWhy) :
    (s.companionWrite p addr row why).pulse = s.pulse := by
  fun_cases State.companionWrite s p addr row why <;> simp +zetaDelta only [State.pulse_mk, State.pulse_eta, State.qReq_pulse]

theorem State.closeBank_pulse (s : State) (c : Nat) (stroke : Nat) : (s.closeBank c stroke).pulse = s.pulse := by
  fun_cases State.closeBank s c stroke <;> simp +zetaDelta only [State.bump_pulse, State.setCtxEng_pulse, State.companionWrite_pulse,
      State.modCtx_pulse,
      State.foldl_pulse, implies_true]

theorem State.ctxBoundary_pulse (s : State) (stroke : Nat) (c : Nat) : (s.ctxBoundary stroke c).pulse = s.pulse := by
  fun_cases State.ctxBoundary s stroke c <;> simp +zetaDelta only [State.takeSlot_pulse, State.closeBank_pulse, State.modCtx_pulse]

theorem State.overrun_pulse (s : State) (gp : Nat) (body : Nat) (q : Seq) : (s.overrun gp body q).pulse = s.pulse := by
  fun_cases State.overrun s gp body q
  simp +zetaDelta only [State.bump_pulse, State.stopPattern_pulse, State.coreErr_pulse]

theorem State.slotFetch_pulse (s : State) (c : Nat) (i : Nat) : (s.slotFetch c i).pulse = s.pulse := by
  fun_cases State.slotFetch s c i <;> simp only [State.slotSeen_pulse, State.qReq_pulse]

theorem State.admitCtx_pulse (s : State) (c : Nat) : (s.admitCtx c).pulse = s.pulse := by
  fun_cases State.admitCtx s c <;> simp +zetaDelta only [State.wf_pulse, State.slotFetch_pulse, State.setCtxEng_pulse, State.wr_pulse,
      State.foldl_pulse,
      implies_true]

theorem State.commitEffect_pulse (s : State) (old : State) (t : Nat) (a : Nat) : (s.commitEffect old t a).pulse = s.pulse := by
  fun_cases State.commitEffect s old t a <;> simp only [State.restartPasses_pulse, State.wf_pulse, State.admitCtx_pulse, State.periodCommit_pulse,
      State.confirm_pulse, State.commitSrc_pulse]

theorem State.haltCore_pulse (s : State) (gp cyc cause : Nat) (idx : Option Nat) : (s.haltCore gp cyc cause idx).pulse = s.pulse := by
  rw [show @State.haltCore = _ by delta State.haltCore; rfl]
  obtain ⟨ctxOf, hctx⟩ : ∃ f, f = State.coreCtx := ⟨_, rfl⟩
  rw [← hctx]
  cases idx <;> dsimp only <;> split <;>
    simp only [apply_ite State.pulse, State.modCore_pulse, State.wr_pulse, State.stopPattern_pulse, State.fresh_pulse, State.pulse_mk,
      State.pulse_eta, ite_self]

theorem State.takeIns_pulse (gp cyc fl rank code : Nat) (op : Op) (l : List InPort) (x : State × List Access) :
    (l.foldl (State.takeIn gp cyc fl rank code op) x).1.pulse = x.1.pulse := by
  induction l generalizing x with
  | nil => rfl
  | cons p l ih => exact (ih _).trans (State.takeIn_pulse ..)

theorem State.takeOuts_pulse (gp cyc fl rank code : Nat) (b : Bool) (l : List OutPort) (x : State × List Access) :
    (l.foldl (State.takeOut gp cyc fl rank code b) x).1.pulse = x.1.pulse := by
  induction l generalizing x with
  | nil => rfl
  | cons p l ih => exact (ih _).trans (State.takeOut_pulse ..)

theorem State.launch_pulse (s : State) (gp unit cyc : Nat) (q : QEnt) (rest : List QEnt) (op : Op) :
    (s.launch gp unit cyc q rest op).pulse = s.pulse := by
  unfold State.launch
  exact (State.modCore_pulse ..).trans ((State.takeOuts_pulse ..).trans ((State.takeIns_pulse ..).trans
    ((State.modCore_pulse ..).trans (State.modCore_pulse ..))))

theorem sendFired_pulse (gp : Nat) (s : State) (n : Nat) (q : QEnt) (op : Op) : (sendFired gp s n q op).pulse = s.pulse := by
  unfold sendFired
  split <;> simp only [State.openPackets_pulse]

theorem tsendFired_pulse (gp : Nat) (s : State) (n : Nat) (q : QEnt) (op : Op) : (tsendFired gp s n q op).pulse = s.pulse := by
  unfold tsendFired
  split <;> simp only [State.openPackets_pulse]

theorem stMemFired_pulse (gp : Nat) (s : State) (n : Nat) (q : QEnt) (op : Op) : (stMemFired gp s n q op).pulse = s.pulse := by
  unfold stMemFired
  split <;> simp only [State.openPackets_pulse]

theorem State.runTo_pulse (s : State) (gp stop fuel : Nat) : (s.runTo gp stop fuel).pulse = s.pulse := by
  induction fuel generalizing s with
  | zero => rfl
  | succ n ih =>
    unfold State.runTo
    split
    · rfl
    · exact (ih _).trans (State.cycle_pulse ..)

theorem State.barCheck_pulse (s : State) (g e n : Nat) : (s.barCheck g e n).pulse = s.pulse := by
  induction n generalizing s with
  | zero => rfl
  | succ n ih =>
    unfold State.barCheck
    extract_lets b t lcnt
    simp only [apply_ite State.pulse, ih, State.barComplete_pulse, State.linkSend_pulse, State.setBarrier_pulse, ite_self]

theorem State.barStep_pulse (s : State) (g : Nat) (e : Nat) : (s.barStep g e).pulse = s.pulse := by
  fun_cases State.barStep s g e <;> simp only [State.wf_pulse, State.barCheck_pulse, State.barComplete_pulse]

theorem State.girthArrive_pulse (s : State) (i : Nat) (fault : Bool) : (s.girthArrive i fault).pulse = s.pulse := by
  simp only [State.girthArrive, apply_ite State.pulse, ite_self, State.wf_pulse, State.bump_pulse, State.setBarrier_pulse, State.barStep_pulse]

theorem State.bklFault_pulse (s : State) (i : Nat) (n : Nat) : (s.bklFault i n).pulse = s.pulse := by
  simp only [State.bklFault, apply_ite State.pulse, ite_self, State.wf_pulse, State.bklRelease_pulse, State.girthArrive_pulse, State.setBkl_pulse,
      State.wakeAll_pulse]

theorem State.bklTest_pulse (s : State) (i : Nat) : (s.bklTest i).pulse = s.pulse := by
  fun_cases State.bklTest s i <;> simp only [State.bklRelease_pulse, State.girthArrive_pulse]

theorem State.bklAdd_pulse (s : State) (ctx : Option Nat) (i : Nat) (v : Word) : (s.bklAdd ctx i v).pulse = s.pulse := by
  fun_cases State.bklAdd s ctx i v <;> simp +zetaDelta only [State.bklDeny_pulse, State.wr_pulse, State.tick_pulse, State.bklTest_pulse]

theorem State.payBuckles_pulse (s : State) (gp : Nat) : (s.payBuckles gp).pulse = s.pulse := by
  fun_cases State.payBuckles s gp <;> simp only [State.bklAdd_pulse, State.setCore_pulse, State.foldl_pulse, implies_true]

theorem State.advance_pulse (s : State) (gp : Nat) (stop : Nat) : (s.advance gp stop).pulse = s.pulse := by
  fun_cases State.advance s gp stop
  simp +zetaDelta only [State.departDone_pulse, State.capturesTo_pulse, State.modCore_pulse, State.runTo_pulse, State.disputesTo_pulse]

theorem State.brkStep_pulse (s : State) (gp : Nat) (cyc : Nat) : (s.brkStep gp cyc).pulse = s.pulse := by
  fun_cases State.brkStep s gp cyc <;> simp only [State.haltCore_pulse]

theorem State.bklArm_pulse (s : State) (ctx : Option Nat) (i : Nat) (target : Word) : (s.bklArm ctx i target).pulse = s.pulse := by
  fun_cases State.bklArm s ctx i target <;> simp +zetaDelta only [State.pulse_mk, State.pulse_eta, State.wf_pulse, State.setBkl_pulse,
      State.bklDeny_pulse, State.wr_pulse, State.dropArrival_pulse, State.bklTest_pulse, State.foldl_pulse, implies_true]

theorem State.bodyStart_pulse (s : State) (span : Nat) (x : Nat) (gp : Nat) : (s.bodyStart span x gp).pulse = s.pulse := by
  fun_cases State.bodyStart s span x gp <;> simp +zetaDelta only [State.modCore_pulse, State.wr_pulse, State.seqStart_pulse, State.payBuckles_pulse,
      State.advance_pulse]

theorem State.stepHalt_pulse (s : State) (gp : Nat) (body : Nat) : (s.stepHalt gp body).pulse = s.pulse := by
  simp only [State.stepHalt, apply_ite State.pulse, ite_self, State.haltCore_pulse, State.modCore_pulse]

theorem State.landTo_pulse (s : State) (stop : Nat) : (s.landTo stop).pulse = s.pulse := by
  fun_cases State.landTo s stop
  simp only [State.payBuckles_pulse, State.advance_pulse, State.foldl_pulse, implies_true]

theorem State.bklExpire_pulse (s : State) (i : Nat) (cyc : Nat) : (s.bklExpire i cyc).pulse = s.pulse := by
  fun_cases State.bklExpire s i cyc <;> simp +zetaDelta only [State.bklFault_pulse, State.coreErr_pulse]

theorem State.bklAge_pulse (s : State) (i : Nat) : (s.bklAge i).pulse = s.pulse := by
  fun_cases State.bklAge s i <;> simp +zetaDelta only [State.bump_pulse, State.bklExpire_pulse]

theorem State.bklSeam_pulse (s : State) : (s.bklSeam).pulse = s.pulse := by
  fun_cases State.bklSeam s
  simp +zetaDelta only [State.bklAge_pulse, State.bklSnap_pulse, State.foldl_pulse, implies_true]

theorem armbFired_pulse (gp : Nat) (s : State) (n : Nat) (q : QEnt) (op : Op) : (armbFired gp s n q op).pulse = s.pulse := by
  unfold armbFired
  split <;> simp only [State.bklArm_pulse]

theorem opFired_pulse (gp cyc : Nat) (s : State) (n : Nat) (q : QEnt) (op : Op) : (opFired gp cyc s n q op).pulse = s.pulse := by
  unfold opFired
  split <;> simp only [feedFired_pulse, loadActFired_pulse, tileFired_pulse, sendFired_pulse, tsendFired_pulse, stMemFired_pulse, armFired_pulse,
    disarmFired_pulse, syncAddFired_pulse, waitbFired_pulse, tokenFired_pulse, armbFired_pulse]

theorem State.attempt_pulse (s : State) (gp unit cyc : Nat) (mine : Op → Bool) {extra : State → Nat → QEnt → Op → State}
    (h : ∀ t n q op, (extra t n q op).pulse = t.pulse) : (s.attempt gp unit cyc mine extra).pulse = s.pulse := by
  fun_cases State.attempt s gp unit cyc mine extra <;> simp +zetaDelta only [h, State.haltCore_pulse, State.launch_pulse, State.noteWait_pulse]

theorem State.unitsTo_pulse (s : State) (gp n k : Nat) : (s.unitsTo gp n k).pulse = s.pulse := by
  unfold State.unitsTo
  refine (State.foldl_pulse (fun t u => State.attempt_pulse _ _ _ _ _ (opFired_pulse gp k)) _ _).trans ?_
  simp only [apply_ite State.pulse, State.brkStep_pulse, State.armsAdvance_pulse, ite_self]

theorem State.bodyStep_pulse (s : State) (gp : Nat) (k : Nat) : (s.bodyStep gp k).pulse = s.pulse := by
  simp only [State.bodyStep]
  split <;> simp only [State.seqStep_pulse, State.unitsTo_pulse, State.payBuckles_pulse, State.advance_pulse]

theorem State.run_pulse (s : State) (gp stop n : Nat) : (s.run gp stop n).pulse = s.pulse := by
  induction n generalizing s with
  | zero => rfl
  | succ n ih =>
    unfold State.run
    simp only [apply_ite State.pulse, ih, State.armsAdvance_pulse, State.payBuckles_pulse, State.advance_pulse, State.bodyStep_pulse, ite_self]

theorem State.reach_pulse (s : State) (gp stop : Nat) : (s.reach gp stop).pulse = s.pulse := by
  simp only [State.reach, apply_ite State.pulse, State.run_pulse, State.payBuckles_pulse, State.advance_pulse, ite_self]

theorem State.seamCore_pulse (s : State) (gp : Nat) (body : Nat) : (s.seamCore gp body).pulse = s.pulse := by
  simp only [State.seamCore]
  split <;> simp only [State.dropWaiter_pulse, State.assaySeam_pulse, State.overrun_pulse, State.modCore_pulse, State.ledger_pulse,
      State.bodyRecords_pulse, State.emptyTraces_pulse, State.scrubSeam_pulse, State.reach_pulse, State.stepHalt_pulse, State.showPos_pulse,
      State.dueCheck_pulse]

end Sys2Proof.Machine

/-! The seam and the boundary of a stroke (R11, R31, R32, R36, R46, R47, R326). -/

namespace Sys2Proof.Machine

/-! ### The seam runs once in a stroke (R32, R46) -/

/-- What a commit that is done leaves of the beat: all but the seam it was armed for (R48). -/
theorem State.commitDone_gen (s : State) : s.commitDone.gen.base = s.gen.base ∧ s.commitDone.gen.len = s.gen.len := by
  have hu (u : State) (h : u.gen = s.gen) : { u with gen := { u.gen with armed := none, armedAt := false, armedLate := false, armedAfterIgn := false
      } }.gen.base
      = s.gen.base ∧ { u with gen := { u.gen with armed := none, armedAt := false, armedLate := false, armedAfterIgn := false } }.gen.len = s.gen.len
          := by
    rw [← h]
    exact ⟨rfl, rfl⟩
  rw [State.commitDone]
  refine hu _ ?_
  simp only [State.setGenBit, apply_ite State.gen, State.wf_gen, State.wr_gen, ite_self]

theorem State.commitAll_eq (old : State) (t : Nat) : ∃ u : State, old.commitAll t = u.commitDone ∧ u.pulse = old.pulse := by
  unfold State.commitAll
  extract_lets pend u v w rng
  have hu : u.pulse = old.pulse := State.foldl_pulse (fun (t : State) (p : Nat × Word) => t.commitOne_pulse p.1 p.2) _ _
  have hv : v.pulse = u.pulse := State.foldl_pulse (fun (x : State) (p : Nat × Word) => x.commitEffect_pulse old t p.1) _ _
  have hw : w.pulse = v.pulse := State.foldl_pulse (fun (t : State) (r : Nat × Nat) => t.ringCommit_pulse old r.1 r.2) _ _
  exact ⟨_, rfl, (State.foldl_pulse (fun t gp => t.rngCommit_pulse old gp) _ w).trans (hw.trans (hv.trans hu))⟩

/-- The seam's commit changes of the beat only the seam that is armed, and that only where one is. -/
theorem State.commitSeam_gen (s : State) (body : Nat) : (s.commitSeam body).gen.base = s.gen.base ∧ (s.commitSeam body).gen.len = s.gen.len
    ∧ (s.gen.armed = none → (s.commitSeam body).gen.armed = none) := by
  rw [State.commitSeam]
  split
  · next h =>
    obtain ⟨u, heq, hu⟩ := s.commitAll_eq ((body + 32) * 1000 / s.aclk)
    obtain ⟨hbase, hlen⟩ := u.commitDone_gen
    simp only [State.pulse, Prod.mk.injEq] at hu
    rw [heq]
    exact ⟨hbase.trans hu.1, hlen.trans hu.2.1, fun hno => absurd (hno.symm.trans h) (by simp)⟩
  · exact ⟨rfl, rfl, id⟩

/-- A state at the seam's first cycle (R46). -/
def State.atSeam (s : State) (body : Nat) : State := { s with gen := { s.gen with s0 := some body }, suppNext := [] }

/-- What the seam does before it commits (R46). -/
def State.beforeCommit (s : State) (body : Nat) : State :=
  let s := s.seamCores.foldl (fun (s : State) gp => s.seamCore gp body) s
  let s := s.asy.foldl (fun (s : State) p => s.assaySeam p.1) s
  ((((s.publish (s.gen.base + 16000 * body / s.aclk)).asyShow.landTo (body + 24)).bklSeam).landTo (body + 32))

/-- What the seam does after it has committed (R46). -/
def State.afterCommit (s : State) : State := s.adoptTables.seamCores.foldl (fun (s : State) gp => s.seqStart gp) s.adoptTables

/-- A state whose seam has been. -/
def State.seamOver (s : State) : State := { s with gen := { s.gen with seamDone := true } }

section
variable (s : State) (body : Nat)

theorem State.beforeCommit_pulse : (s.beforeCommit body).pulse = s.pulse := by
  unfold State.beforeCommit
  extract_lets u v
  have hu : u.pulse = s.pulse := State.foldl_pulse (fun t gp => t.seamCore_pulse gp body) _ _
  have hv : v.pulse = u.pulse := State.foldl_pulse (fun (t : State) (p : Nat × AsyCore) => t.assaySeam_pulse p.1) _ _
  rw [State.landTo_pulse, State.bklSeam_pulse, State.landTo_pulse, State.asyShow_pulse, State.publish_pulse, hv, hu]

theorem State.afterCommit_pulse : s.afterCommit.pulse = s.pulse :=
  (State.foldl_pulse (fun t gp => t.seqStart_pulse gp) _ _).trans s.adoptTables_pulse

theorem exec_seam {body : Nat} {s : State} (hrun : s.gen.running = true) (hx : s.aon.crystal = true) (hd : s.gen.seamDone = false) :
    exec (.seam body) s = .next (((((s.atSeam body).beforeCommit body).commitSeam body).afterCommit).seamOver) := by
  have hgo : ¬ ((!s.gen.running) = true ∨ (!s.aon.crystal) = true ∨ s.gen.seamDone = true) := by
    rw [hrun, hx, hd]
    decide
  change execSeam body s = _
  rw [execSeam, if_neg hgo, State.seamOver, State.afterCommit, State.beforeCommit, State.atSeam]

/-- The seam ends the bodies, and keeps the beat (R46). -/
theorem seam_ends {body : Nat} {s : State} (hrun : s.gen.running = true) (hx : s.aon.crystal = true) (hd : s.gen.seamDone = false) :
    ∃ t, exec (.seam body) s = .next t ∧ t.gen.seamDone = true ∧ t.gen.base = s.gen.base ∧ t.gen.len = s.gen.len
      ∧ (s.gen.armed = none → t.gen.armed = none) := by
  have hbefore : ((s.atSeam body).beforeCommit body).pulse = s.pulse := (State.beforeCommit_pulse _ body).trans rfl
  have hexec := exec_seam (body := body) hrun hx hd
  generalize (s.atSeam body).beforeCommit body = u at hexec hbefore
  obtain ⟨hbase, hlen, harmed⟩ := u.commitSeam_gen body
  have hafter := State.afterCommit_pulse (u.commitSeam body)
  generalize (u.commitSeam body).afterCommit = v at hexec hafter
  simp only [State.pulse, Prod.mk.injEq] at hbefore hafter
  obtain ⟨hb1, hb2, hb3, -⟩ := hbefore
  obtain ⟨ha1, ha2, ha3, -⟩ := hafter
  exact ⟨_, hexec, rfl, ha1.trans (hbase.trans hb1), ha2.trans (hlen.trans hb2), fun hno => ha3.trans (harmed (hb3.trans hno))⟩

end

/-! ### The boundary of a stroke (R32, R36, R37, R47) -/

/-- What the boundary does of a stroke that ends before the grid's step (R46). -/
def State.strokeEnds (s : State) : State :=
  { (if s.gen.seamDone then (s.cores.filter (fun p => p.2.seq.reading)).foldl (fun (s : State) p => s.seqSeam p.1) s else s) with
    supp := (if s.gen.seamDone then (s.cores.filter (fun p => p.2.seq.reading)).foldl (fun (s : State) p => s.seqSeam p.1) s else s).suppNext
    suppNext := [] }

theorem State.strokeEnds_gen (s : State) : s.strokeEnds.gen = s.gen := by
  have hfold (l : List (Nat × Core)) (t : State) : (l.foldl (fun (s : State) p => s.seqSeam p.1) t).gen = t.gen := by
    induction l generalizing t with
    | nil => rfl
    | cons p l ih => exact (ih _).trans (State.seamReads_gen ..)
  change (if s.gen.seamDone then (s.cores.filter (fun p => p.2.seq.reading)).foldl (fun (s : State) p => s.seqSeam p.1) s else s).gen = s.gen
  rw [apply_ite State.gen, hfold, ite_self]

/-- The number of the stroke that begins (R36, R282). -/
def State.nextCount (s : State) : Nat :=
  if s.gen.acquired ∧ s.srcActive = 1 then (s.stroke + 1) / 2 ^ 32 * 2 ^ 32 + (s.time.stroke + 1) % 2 ^ 32 else s.stroke + 1

theorem State.gen_stepCount (s : State) : s.stepCount.gen = if s.gen.armedAt then s.gen
    else { s.gen with armed := s.gen.armed.map (fun _ => s.nextCount % 2 ^ 40) } := by
  rw [State.stepCount, State.wr64, State.wr_gen, State.wr_gen, State.nextCount]

/-- The step of the count keeps the beat, and carries the commit that is armed for the next seam to the stroke that begins (R36, R47). -/
theorem State.stepCount_gen (s : State) : s.stepCount.gen.base = s.gen.base ∧ s.stepCount.gen.len = s.gen.len
    ∧ ((s.gen.armedAt = true ∨ s.gen.armed = none) → s.stepCount.gen.armed = s.gen.armed)
    ∧ ((s.gen.acquired = false ∨ s.srcActive ≠ 1) → s.gen.armedAt = false → s.stepCount.gen.armed = s.gen.armed.map (fun _ => (s.stroke + 1) % 2 ^
        40)) := by
  rw [s.gen_stepCount]
  split
  · next hat => exact ⟨rfl, rfl, fun _ => rfl, fun _ h => absurd (hat.symm.trans h) (by decide)⟩
  · next hat =>
    refine ⟨rfl, rfl, fun h => ?_, fun hown _ => ?_⟩
    · rw [h.resolve_left hat]
      rfl
    · have hn : s.nextCount = s.stroke + 1 := if_neg (not_and_or.mpr (hown.imp_left Bool.eq_false_iff.mp))
      rw [hn]

theorem State.stroke_congr {s t : State} (hlo : t.rd (genPg + 0x108) = s.rd (genPg + 0x108)) (hhi : t.rd (genPg + 0x10C) = s.rd (genPg + 0x10C)) :
    t.stroke = s.stroke := by
  change ((t.rd (genPg + 0x108)).toNat + (t.rd (genPg + 0x10C)).toNat * 2 ^ 32) % 2 ^ 40 = ((s.rd (genPg + 0x108)).toNat + (s.rd (genPg +
      0x10C)).toNat * 2 ^ 32) % 2 ^ 40
  rw [hlo, hhi]

theorem State.rd_pairRefs_other {a : Nat} (hstat : a ≠ genStat) (hphase : a ≠ genPg + 0x11C) (htrim : a ≠ genPg + 0x120) (s : State) (rs ls : List
    Nat) :
    (s.pairRefs rs ls).rd a = s.rd a := by
  induction rs generalizing s ls with
  | nil => rfl
  | cons r rs ih =>
    cases ls with
    | nil => rfl
    | cons l ls => rw [State.pairRefs, ih, State.rd_reference_other _ hstat hphase htrim]

/-- A grid step opens the next body: the stroke's length is added to TCLK's time (R32), and the count has stepped (R36). -/
theorem State.gridBoundary_shows (s : State) : s.gridBoundary.gen.seamDone = false ∧ s.gridBoundary.gen.base = s.gen.base + s.gen.len
    ∧ s.gridBoundary.gen.armed = s.stepCount.gen.armed ∧ s.gridBoundary.stroke = s.stepCount.stroke := by
  obtain ⟨hbase, hlen, -, -⟩ := s.stepCount_gen
  unfold State.gridBoundary
  extract_lets u g ended base len g' v w x
  have hv : v.pulse = (u.gen.base + u.gen.len, len, u.gen.armed, false) := rfl
  have hw : w.pulse = v.pulse := by
    refine (apply_ite State.pulse _ _ _).trans ?_
    rw [State.setGenBit_pulse]
    exact ite_self _
  have hx : x.pulse = w.pulse := by
    refine (apply_ite State.pulse _ _ _).trans ?_
    rw [State.pairRefs_pulse]
    exact ite_self _
  have hpulse := (x.followPath_pulse 0).trans (hx.trans (hw.trans hv))
  have hrd (a : Nat) (hstat : a ≠ genStat) (hphase : a ≠ genPg + 0x11C) (htrim : a ≠ genPg + 0x120) : x.rd a = u.rd a := by
    have hwrd : w.rd a = u.rd a := by
      refine (State.rd_ite ..).trans ?_
      rw [State.rd_setGenBit_other _ hstat]
      exact ite_self _
    refine (State.rd_ite ..).trans ?_
    rw [State.rd_pairRefs_other hstat hphase htrim, hwrd]
    exact ite_self _
  have hstroke : x.stroke = u.stroke := State.stroke_congr (hrd _ (by decide) (by decide) (by decide)) (hrd _ (by decide) (by decide) (by decide))
  simp only [State.pulse, Prod.mk.injEq] at hpulse
  obtain ⟨h1, -, h3, h4⟩ := hpulse
  rw [State.stroke_followPath]
  exact ⟨h4, h1.trans (by rw [show u = s.stepCount from rfl, hbase, hlen]), h3, hstroke⟩

/-- What the boundary does after the grid's step. -/
def State.strokeBegins (s : State) (k len span : Nat) : State :=
  let s := s.timePass len
  let s := if s.rf (genPg + 0x114) 8 8 = 1 then s.send .strokeOut else s
  let s := s.timeSyncSend
  let s := (List.range 12).foldl (fun (s : State) p => s.repWindow p) s
  let s := (List.range 16).foldl (fun (s : State) c => s.ctxBoundary k c) s
  let x := s.xdiv
  let s := s.powerBoundary.shutGo
  let s := s.cores.foldl (fun (s : State) p => s.bodyStart span x p.1) s
  s.asyBoundary

theorem State.strokeBegins_pulse (s : State) (k len span : Nat) : (s.strokeBegins k len span).pulse = s.pulse := by
  unfold State.strokeBegins
  extract_lets u v w y z x a b
  have hu : u.pulse = s.pulse := s.timePass_pulse len
  have hv : v.pulse = u.pulse := by
    refine (apply_ite State.pulse _ _ _).trans ?_
    rw [State.send_pulse]
    exact ite_self _
  have hw : w.pulse = v.pulse := v.timeSyncSend_pulse
  have hy : y.pulse = w.pulse := State.foldl_pulse (fun (t : State) p => t.repWindow_pulse p) _ _
  have hz : z.pulse = y.pulse := State.foldl_pulse (fun (t : State) c => t.ctxBoundary_pulse k c) _ _
  have ha : a.pulse = z.pulse := (State.shutGo_pulse _).trans z.powerBoundary_pulse
  have hb : b.pulse = a.pulse := State.foldl_pulse (fun (t : State) (p : Nat × Core) => t.bodyStart_pulse span x p.1) _ _
  rw [State.asyBoundary_pulse, hb, ha, hz, hy, hw, hv, hu]

theorem exec_strokeBoundary {s : State} (hrun : s.gen.running = true) (hx : s.aon.crystal = true) :
    exec .strokeBoundary s = .next (s.strokeEnds.gridBoundary.strokeBegins s.stroke s.gen.len (s.gen.len * s.aclk / 16000)) := by
  have hgo : ¬ ((!s.gen.running) = true ∨ (!s.aon.crystal) = true) := by
    rw [hrun, hx]
    decide
  change execStrokeBoundary s = _
  rw [execStrokeBoundary, if_neg hgo, State.strokeBegins, State.strokeEnds]

/-- The boundary opens the next body, and a commit armed for a stroke stays armed for it (R32, R47). -/
theorem strokeBoundary_opens {s : State} (hrun : s.gen.running = true) (hx : s.aon.crystal = true) :
    ∃ t, exec .strokeBoundary s = .next t ∧ t.gen.seamDone = false ∧ t.gen.base = s.gen.base + s.gen.len
      ∧ ((s.gen.armedAt = true ∨ s.gen.armed = none) → t.gen.armed = s.gen.armed) := by
  obtain ⟨hopen, hbase, harmed, -⟩ := s.strokeEnds.gridBoundary_shows
  obtain ⟨-, -, hkeep, -⟩ := s.strokeEnds.stepCount_gen
  rw [s.strokeEnds_gen] at hbase hkeep
  have hexec := exec_strokeBoundary hrun hx
  have hpulse := s.strokeEnds.gridBoundary.strokeBegins_pulse s.stroke s.gen.len (s.gen.len * s.aclk / 16000)
  generalize s.strokeEnds.gridBoundary.strokeBegins s.stroke s.gen.len (s.gen.len * s.aclk / 16000) = t at hexec hpulse
  simp only [State.pulse, Prod.mk.injEq] at hpulse
  obtain ⟨h1, -, h3, h4⟩ := hpulse
  exact ⟨t, hexec, h4.trans hopen, h1.trans hbase, fun h => h3.trans (harmed.trans (hkeep h))⟩

/-- STROKE_COUNT steps, and a commit armed for the next seam goes with it (R36, R47). -/
theorem State.gridBoundary_steps {s : State} (hown : s.gen.acquired = false ∨ s.srcActive ≠ 1) :
    s.gridBoundary.stroke = (s.stroke + 1) % 2 ^ 40
      ∧ (s.gen.armedAt = false → s.gridBoundary.gen.armed = s.gen.armed.map (fun _ => s.gridBoundary.stroke)) := by
  obtain ⟨-, -, harmed, hstroke⟩ := s.gridBoundary_shows
  obtain ⟨-, -, -, hmoves⟩ := s.stepCount_gen
  have hcount := hstroke.trans (s.stroke_stepCount hown)
  refine ⟨hcount, fun hat => ?_⟩
  rw [hcount, harmed, hmoves hown hat]

/-! ### Once-a-stroke records across s48 (R11) -/

section
variable (s : State) {gp sev cls cyc : Nat} (synd : BitVec 64) (hopen : s.rf (corePg gp + 0x1C) sev sev = 0)
  (hlvl : s.lvlSuppresses (corePg gp) sev = false)
include hopen hlvl

/-- A record of a core that is not masked is emitted once a stroke (R11). -/
theorem State.emitCore_once : ∃ r : Rec, r.cls = cls ∧ s.emitCore gp sev sev cls cyc synd
    = if (s.suppAt cyc).contains (corePg gp, cls) then s else (s.emit r).suppMark cyc (corePg gp) cls := by
  have hmask : ¬ (s.rf (corePg gp + 0x1C) sev sev = 1 ∧ sev < 3) := by omega
  have hno : ¬ s.lvlSuppresses (corePg gp) sev = true := by rw [hlvl]; exact Bool.false_ne_true
  rw [State.emitCore]
  simp only [if_neg hmask, if_neg hno]
  exact ⟨_, rfl, rfl⟩

/-- What is recorded before s48 marks the stroke that ends (R11). -/
theorem State.emitCore_before (hcyc : cyc / 2 ^ 16 < seam48) : (s.emitCore gp sev sev cls cyc synd).suppNext = s.suppNext
    ∧ ((corePg gp, cls) ∉ s.supp → ∃ r, (s.emitCore gp sev sev cls cyc synd).recQ = s.recQ ++ [r] ∧ r.cls = cls) := by
  obtain ⟨r, hr, heq⟩ := s.emitCore_once (cls := cls) (cyc := cyc) synd hopen hlvl
  have hat : s.suppAt cyc = s.supp := if_neg (by omega)
  have hmark : (s.emit r).suppMark cyc (corePg gp) cls = { s.emit r with supp := (s.emit r).supp ++ [(corePg gp, cls)] } := if_neg (by omega)
  rw [heq, hat, hmark]
  refine ⟨?_, fun hnew => ⟨r, ?_, hr⟩⟩
  · split
    · rfl
    · rfl
  · rw [if_neg fun h => hnew (List.contains_iff_mem.1 h)]
    rfl

/-- What is recorded from s48 on marks the stroke that begins (R11). -/
theorem State.emitCore_after (hcyc : seam48 ≤ cyc / 2 ^ 16) : (s.emitCore gp sev sev cls cyc synd).supp = s.supp
    ∧ ((corePg gp, cls) ∉ s.suppNext → ∃ r, (s.emitCore gp sev sev cls cyc synd).recQ = s.recQ ++ [r] ∧ r.cls = cls
        ∧ (corePg gp, cls) ∈ (s.emitCore gp sev sev cls cyc synd).suppNext)
    ∧ ((corePg gp, cls) ∈ s.suppNext → (s.emitCore gp sev sev cls cyc synd).recQ = s.recQ) := by
  obtain ⟨r, hr, heq⟩ := s.emitCore_once (cls := cls) (cyc := cyc) synd hopen hlvl
  have hat : s.suppAt cyc = s.suppNext := if_pos hcyc
  have hmark : (s.emit r).suppMark cyc (corePg gp) cls = { s.emit r with suppNext := (s.emit r).suppNext ++ [(corePg gp, cls)] } := if_pos hcyc
  rw [heq, hat, hmark]
  refine ⟨?_, fun hnew => ?_, fun hold => ?_⟩
  · split
    · rfl
    · rfl
  · rw [if_neg fun h => hnew (List.contains_iff_mem.1 h)]
    exact ⟨r, rfl, hr, List.mem_append_right _ (List.mem_singleton.2 rfl)⟩
  · rw [if_pos (List.contains_iff_mem.2 hold)]

end

/-! ### The windows of a region (R31, R326) -/

theorem State.winPar_of_rest {s t : State} (h : t.rest = s.rest) : t.winPar = s.winPar := by
  change t.rest.winPar = s.rest.winPar
  rw [h]

/-- An error of a controller's own logic changes registers of its own header, and DRAIN at most (R26, R326). -/
theorem State.rd_ctrlErr_other {a pg : Nat} (hd : a ≠ modPg 9 0 + 0x110) (h : ∀ o, o < 0x100 → a ≠ pg + o) (s : State) (cyc : Nat) :
    (s.ctrlErr pg cyc).rd a = s.rd a := by
  rw [State.ctrlErr, State.rd_unitDrain_other hd, State.rd_ite, State.rd_window_other hd, State.rd_errUp_other h, ite_self]

/-- An error of a region controller's own logic requests a drain (R326). -/
theorem State.ctrlErr_drains (s : State) {region : Nat} (hr : region < 64) (cyc : Nat) :
    (s.ctrlErr (rcPg region 0) cyc).rf (modPg 9 0 + 0x110) 31 31 = 1 := by
  have hloc : locOf (rcPg region 0) = ⟨false, region, 0xE, 0, 0, 0⟩ := locOf_regionAddr hr (by decide) (by decide) (by decide) (by decide)
  rw [State.ctrlErr, State.unitDrain, hloc]
  exact State.requestDrain_requests ..

/-- The parameters a region's next window takes (R31). -/
def State.writtenPar (s : State) (region : Nat) : WinPar :=
  { len := (s.rd (rcPg region 0 + 0x100)).toNat, ce := (s.rd (rcPg region 0 + 0x100 + 4)).toNat, ue := (s.rd (rcPg region 0 + 0x100 + 8)).toNat }

/-- A region whose window has ended (R31). -/
def State.newWindow (s : State) (region : Nat) : State :=
  { s with win := s.win.filter (fun p => !unitOfRegion region p.1), winPar := Tbl.set {} s.winPar region (s.writtenPar region) }

theorem State.newWindow_frame (s : State) (region : Nat) : (s.newWindow region).regs = s.regs ∧ (s.newWindow region).cores = s.cores
    ∧ (s.newWindow region).mem = s.mem ∧ ∀ a, (s.newWindow region).rd a = s.rd a := ⟨rfl, rfl, rfl, fun _ => rfl⟩

theorem State.newWindow_par (s : State) (region : Nat) : (s.newWindow region).winParOf region = s.writtenPar region := Tbl.get_set_same ..

theorem State.newWindow_win (s : State) (region pg : Nat) :
    (s.newWindow region).winOf pg = if unitOfRegion region pg = true then {} else s.winOf pg := by
  refine (tbl_get_filter ({} : WinCnt) s.win (fun k => !unitOfRegion region k) pg).trans ?_
  cases unitOfRegion region pg
  · rfl
  · rfl

theorem exec_repWindowBoundary {region : Nat} (hr : region < 64) (ctrl : Bool) (n : Nat) (s : State) : exec (.repWindowBoundary region ctrl n) s
    = if (if ctrl then s.ctrlErr (rcPg region 0) (tclkCycle n) else s).stroke
          % max 1 ((if ctrl then s.ctrlErr (rcPg region 0) (tclkCycle n) else s).winParOf region).len ≠ 0
      then .next (if ctrl then s.ctrlErr (rcPg region 0) (tclkCycle n) else s)
      else .next ((if ctrl then s.ctrlErr (rcPg region 0) (tclkCycle n) else s).newWindow region) := by
  refine (if_pos (decide_eq_true hr)).trans ?_
  generalize (if ctrl then s.ctrlErr (rcPg region 0) (tclkCycle n) else s) = u
  rw [State.newWindow, State.writtenPar]

section
variable {region n : Nat} {s : State} (hr : region < 64) (hend : s.stroke % max 1 (s.winParOf region).len = 0)
include hr hend

theorem repWindowBoundary_quiet : exec (.repWindowBoundary region false n) s = .next (s.newWindow region) := by
  refine (exec_repWindowBoundary hr false n s).trans ?_
  exact if_neg (not_not_intro hend)

/-- A window that ends takes the written parameters, and every count of the region starts at 0 (R31). -/
theorem repWindowBoundary_renews :
    ∃ t, exec (.repWindowBoundary region false n) s = .next t ∧ (t.winParOf region).len = (s.rd (rcPg region 0 + 0x100)).toNat
    ∧ (t.winParOf region).ce = (s.rd (rcPg region 0 + 0x104)).toNat ∧ (t.winParOf region).ue = (s.rd (rcPg region 0 + 0x108)).toNat
    ∧ (∀ pg, unitOfRegion region pg = true → t.winOf pg = {}) ∧ (∀ pg, unitOfRegion region pg = false → t.winOf pg = s.winOf pg)
    ∧ t.regs = s.regs ∧ t.cores = s.cores ∧ t.mem = s.mem := by
  refine ⟨_, repWindowBoundary_quiet hr hend, ?_, ?_, ?_, fun pg h => ?_, fun pg h => ?_, rfl, rfl, rfl⟩
  · rw [State.newWindow_par]
    rfl
  · rw [State.newWindow_par]
    rfl
  · rw [State.newWindow_par]
    rfl
  · rw [State.newWindow_win, if_pos h]
  · rw [State.newWindow_win, if_neg (by rw [h]; exact Bool.false_ne_true)]

/-- The first uncorrectable error of the region controller's own logic requests a drain, and the window ends as it does without (R31, R326). -/
theorem repWindowBoundary_drains : ∃ t, exec (.repWindowBoundary region true n) s = .next t ∧ t.rf (modPg 9 0 + 0x110) 31 31 = 1
    ∧ (t.winParOf region).len = (s.rd (rcPg region 0 + 0x100)).toNat ∧ t.cores = s.cores ∧ t.mem = s.mem := by
  have hrest := s.ctrlErr_rest (rcPg region 0) (tclkCycle n)
  have hdrain := s.ctrlErr_drains hr (tclkCycle n)
  have hpar : (s.ctrlErr (rcPg region 0) (tclkCycle n)).rd (rcPg region 0 + 0x100) = s.rd (rcPg region 0 + 0x100) :=
    State.rd_ctrlErr_other (by simp only [modPg, modAddr, rcPg, regionAddr]; omega) (fun o ho => by omega) s _
  have hgen {k : Nat} (hk : k < 0x1000) : (s.ctrlErr (rcPg region 0) (tclkCycle n)).rd (genPg + k) = s.rd (genPg + k) :=
    State.rd_ctrlErr_other (by simp only [genPg, modPg, modAddr]; omega) (fun o ho => by simp only [genPg, modAddr, rcPg, regionAddr]; omega) s _
  have hstroke := State.stroke_congr (hgen (k := 0x108) (by decide)) (hgen (k := 0x10C) (by decide))
  have hexec := exec_repWindowBoundary hr true n s
  rw [if_pos rfl] at hexec
  generalize s.ctrlErr (rcPg region 0) (tclkCycle n) = u at hrest hdrain hpar hstroke hexec
  have hend' : u.stroke % max 1 (u.winParOf region).len = 0 := by
    rw [State.winParOf, State.winPar_of_rest hrest, hstroke]
    exact hend
  rw [if_neg (not_not_intro hend')] at hexec
  obtain ⟨-, hcores, hmem, hrd⟩ := u.newWindow_frame region
  refine ⟨_, hexec, (State.rf_of_rd (hrd _) ..).trans hdrain, ?_, hcores.trans (State.cores_of_rest hrest), hmem.trans (State.mem_of_rest hrest)⟩
  rw [State.newWindow_par, State.writtenPar, hpar]

end

/-- Settles O38: the beat of the generator is kept by all that the seam and the boundary do besides their own step. -/
theorem seamAndBoundary : Obligations.SeamAndBoundary := by
  unfold Obligations.SeamAndBoundary
  exact ⟨fun body s hrun hx hd => seam_ends hrun hx hd,
    fun gp sev cls cyc synd s hopen hlvl => ⟨s.emitCore_before synd hopen hlvl, s.emitCore_after synd hopen hlvl⟩,
    fun s hrun hx => strokeBoundary_opens hrun hx, fun s hown => State.gridBoundary_steps hown,
    fun region n s hr hend => ⟨repWindowBoundary_drains hr hend, repWindowBoundary_renews hr hend⟩⟩

end Sys2Proof.Machine
